-- ==== Sys2Proof/Word.lean ====
section
/-!
DEFINITION. Sys2Proof/Word.lean: the byte, and the numbers of the device's resources (R5).
Every resource number is a bounded number, so that a command can only name a unit the device has.
-/
namespace Sys2Proof

/-- One byte of an object value, a frame or a table row. -/
abbrev Byte := BitVec 8

/-- Tile `t`, 0-31 (R5). -/
abbrev Tile := Fin 32
/-- Lane bank `b`, 0-7 (R5). -/
abbrev LaneBank := Fin 8
/-- Lane-bank reference input `n = b * 4 + r`, 0-31 (R70). -/
abbrev RefInput := Fin 32
/-- Lane `l`, 0-511 (R5). -/
abbrev Lane := Fin 512
/-- Port `p`, the number of the lowest lane it uses (R5). -/
abbrev Port := Fin 512
/-- Ochre core of a tile, 0-127 (R128). -/
abbrev Core := Fin 128
/-- Working word w0-w15 of an Ochre core (R132). -/
abbrev WReg := Fin 16
/-- Lookup table, 0-63 (R158). -/
abbrev Table := Fin 64
/-- Table store partition and its insert engine, 0-15 (R5, R165). -/
abbrev Partition := Fin 16
/-- Buffer bank `k`, 0-191 (R5). -/
abbrev BufBank := Fin 192
/-- Global queue number: port queues 0-8,191, host queues 8,192-8,319, mirror queues 8,320-8,383 (R5). -/
abbrev Queue := Fin 8384
/-- Time base, 0-7 (R5). -/
abbrev TimeBase := Fin 8
/-- DMA engine, 0-31 (R5). -/
abbrev Engine := Fin 32
/-- DMA channel number `e * 16 + c`, 0-511 (R5). -/
abbrev Channel := Fin 512
/-- Interrupt source 0x000-0xFFE; 0xFFF is the spurious number (R5). -/
abbrev Source := Fin 4096
/-- Interrupt target, 0-67 (R5). -/
abbrev Target := Fin 68
/-- Slate core, 0-3 (R5). -/
abbrev Slate := Fin 4
/-- Temperature sensor, 0-63 (R5). -/
abbrev Sensor := Fin 64
/-- Bolsy session, 0-7 (R54). -/
abbrev Session := Fin 8
/-- Management port, 0-1 (R68). -/
abbrev MgmtPort := Fin 2
/-- Host object window, 0-3 (R49). -/
abbrev Window := Fin 4
/-- Policer number, 0-1,048,575 (R242). -/
abbrev Policer := Fin 1048576
/-- Flow cache set, 0-262,143 (R300). -/
abbrev FlowSet := Fin 262144
/-- Cell number, 0-1,572,863 (R5). -/
abbrev Cell := Fin 1572864
/-- Packet handle, 0-2,097,151 (R5). -/
abbrev Handle := Fin 2097152

end Sys2Proof
end

