-- ==== Sys2Proof/Syntax.lean ====
section
/-!
DEFINITION. Sys2Proof/Syntax.lean: the commands and events of the device, one constructor of `Instr` per row of
spec/opcode_table.json, with the operands each carries. A physical quantity the device measures (a skew, a
temperature, a frame's bytes, data the host's memory returns) is an operand: it is the world's, not the device's.
-/
namespace Sys2Proof

/-- An object address `#IIII[n].SS` (R7). -/
structure Ref where
  idx  : Nat
  inst : Nat
  sub  : Nat
deriving DecidableEq, Repr

/-- The path a dictionary operation comes from (R47). -/
inductive Path where
  | window (w : Window)     -- a host object window; holder 8 (R51)
  | bolsy (s : Session)     -- a Bolsy session; holder = its number
  | startup                 -- the startup image; holder 9 (R64)
  | slate                   -- the Slate firmware of its own accord (R64)
deriving DecidableEq, Repr

/-- A UDP datagram arriving on a management port: addresses as numbers, 4 or 16 bytes wide. -/
structure Udp where
  v6      : Bool
  srcAddr : Nat
  srcPort : Nat
  dstAddr : Nat
  dstPort : Nat
  payload : List Byte
deriving DecidableEq, Repr

/-- How a frame opens on the receive MAC (R115, R118). -/
inductive Smd where
  | whole                   -- an ordinary or express frame: SFD or SMD-E
  | start                   -- SMD-S: the first fragment of a preemptable frame
  | cont (count : Fin 4)    -- SMD-C with its fragment count
deriving DecidableEq, Repr

/-- Cause of a port's leaving UP, the codes of LAST_DOWN_CAUSE (R126). -/
inductive DownCause where
  | laneLeft | alignment | localFault | remoteFault
deriving DecidableEq, Repr

/-- Condition of a Bcc (R136), codes 0-10. -/
abbrev CondCode := Fin 11

/-- What an ECC check finds in a word: nothing, one bit, two bits. -/
inductive Ecc where
  | ok | one | two
deriving DecidableEq, Repr

/-- A word of the descriptor store's arrays (R228): a descriptor, a cell's link word, a queue entry, a holder extension, a
multicast group's row or a member's. -/
inductive StoreWord where
  | descriptor (h : Handle)
  | link (c : Cell)
  | entry (n : Fin 4194304)
  | extension (e : Fin 32768)
  | group (g : Fin 65536)
  | member (m : Fin 262144)
deriving DecidableEq, Repr

/-- Who sent a release (R431): a queue, with its replica, tail or discard; the enqueue interface of a tile; a DMA
channel that holds or wrote the packet; any other unit of the buffer. -/
inductive Sender where
  | queue (q : Queue)
  | enqueue (t : Tile)
  | channel (c : Channel)
  | store
deriving DecidableEq, Repr

/-- A report that reaches the collector (R373, R383): the oldest one that waits in its queue, or, first joining that queue,
what a checker finds that no other command stands for: a word of a lane bank's microsequencer memory or of a Slate core's
memory, an AER status, a PLL out of lock, a rail outside its tolerance. -/
inductive FaultSeen where
  | queued
  | laneSeq (b : LaneBank) (addr : BitVec 32) (found : Ecc)
  | slate (k : Slate) (addr : BitVec 32) (found : Ecc)
  | pcie (uncorrectable : Bool) (status : BitVec 32)
  | corePll
  | mgmtPll
  | supply (rail : Fin 7) (mv : BitVec 16)
deriving DecidableEq, Repr

/-- Why a read of the host bus failed (R350, ENGINE_BUS_ERROR kinds 1-4). -/
inductive BusErr where
  | unsupported | abort | timeout | poisoned
deriving DecidableEq, Repr

/-- A PCI Express configuration request of the parts the spec names: the MSI-X switches of the function (R357),
any other read, any other write. -/
inductive CfgReq where
  | msix (enable functionMask : Bool)
  | relaxedOrdering (enable : Bool)
  | maxPayload (bytes : Fin 3)      -- 128, 256, 512
  | maxReadRequest (code : Fin 6)   -- 128 shl code
  | tags (extended tenBit : Bool)
  | errorControl (ecrcGenerate ecrcCheck noTimeout : Bool)
  | power (d3hot : Bool)
  | readDeviceId
  | readClassCode
  | readHeaderType
  | readBar (n : Fin 7)              -- BAR0-BAR5, the expansion ROM
  | writeBar (n : Fin 7) (v : BitVec 32)
  | readInterruptPin
  | capability (extended : Bool) (id : BitVec 16)
  | completionTimeout (range : Fin 16)
  | readTimeoutRanges
  | readAer (uncorrectable : Bool)
  | clearAer (uncorrectable : Bool) (ones : BitVec 32)
  | other
deriving DecidableEq, Repr

/-- What a host access to a BAR0 register does (R49, R319): a write of a value, or a read. -/
inductive BarAccess where
  | write (v : BitVec 64)
  | read
deriving DecidableEq, Repr

/-- An operand address of a window load (R134, format L): base bit, base register, offset. -/
structure WinAddr where
  based : Bool
  a     : WReg
  off   : BitVec 9
deriving DecidableEq, Repr

/-- A G4 training frame as a lane receives it: its fields after the marker (R84), and the signal-to-noise ratio the lane
measured over it (R85, in 1/256 dB). -/
structure TrainingSeen where
  fields : BitVec 208
  snr    : BitVec 16
deriving DecidableEq, Repr

/-- A marker group as a lane receives it: its bytes, none where the mode's markers are IEEE's (R78). -/
structure MarkerSeen where
  lane  : Lane
  group : List Byte
deriving DecidableEq, Repr

/-- The last windows of a lane's adaptation, the newest first, in a time: whether each saw idle alone, and its distinct
symbol transitions (R92, R93). -/
structure WindowsSeen where
  lane    : Lane
  us      : BitVec 32
  windows : List (Bool × Fin 17)
deriving DecidableEq, Repr

/-- The commands. The comment of each names its row's rule. -/
inductive Instr where
  -- object dictionary and Bolsy (02)
  | read (p : Path) (a : Ref) (off len : Nat)
  | readStaged (p : Path) (a : Ref) (off len : Nat)
  | write (p : Path) (a : Ref) (off : Nat) (data : List Byte)
  | writeStaged (p : Path) (a : Ref) (off : Nat) (data : List Byte)
  | discard (p : Path) (data : List Byte)
  | commit (p : Path) (bitmap : List Byte)
  | lease (p : Path) (data : List Byte)
  | release (p : Path) (data : List Byte)
  | describe (p : Path) (a : Ref)
  | echo (p : Path) (data : List Byte)
  | commitValidationDone (g : Fin 256)
  | tileEpochFlip (t : Tile) (g : Fin 256)
  | owOperationDone (w : Window)
  | registerWrite (off : Fin 1048576) (wide : Bool) (a : BarAccess)
  | hello (m : MgmtPort) (f : Udp)
  | open_ (m : MgmtPort) (f : Udp)
  | bolsyRequest (m : MgmtPort) (f : Udp)
  | bolsyClose (m : MgmtPort) (f : Udp)
  | sessionClose (p : Path) (s : Session)
  | sessionIdleTimeout (s : Session)
  | leaseExpire (area : Fin 16)
  | bolsySecretRollover
  | mgmtFrameReceive (m : MgmtPort) (bytes : List Byte)
  -- lane banks (03)
  | refclkLoss (n : RefInput)
  | refclkHealthy (n : RefInput)
  | txPllLock (b : LaneBank)
  | losAssert (l : Lane)
  | losDeassert (l : Lane)
  | trainingFrameReceive (l : Lane) (x : TrainingSeen)
  | trainPhaseBSwitch (l : Lane)
  | trainComplete (l : Lane)
  | trainTimeout (l : Lane)
  | markerLock (x : MarkerSeen)
  | lockHoldComplete (l : Lane) (skewPs : BitVec 32)
  | lockTimeout (l : Lane)
  | deskewFail (p : Port) (skews : List (BitVec 32))
  | exchangeBlockReceive (l : Lane) (caps : BitVec 128)
  | exchangeTimeout (l : Lane)
  | lockLoss (l : Lane)
  | partnerTrainingDetect (l : Lane)
  | retrain (p : Path) (l : Lane)
  | adaptationFreeze (x : WindowsSeen)
  | adaptationThaw (x : WindowsSeen)
  | eyeScan (p : Path) (l : Lane) (sel : Byte)
  | eyeScanDone (l : Lane) (result : List Byte)
  | ffeLoad (p : Path) (l : Lane) (taps : List Byte)
  | snrSupervision (l : Lane) (snr : BitVec 16)
  -- ports (04)
  | portUp (p : Port) (egressLead : BitVec 32)
  | portLeaveUp (p : Port) (cause : DownCause)
  | downHoldExpire (p : Port)
  | frameReceive (p : Port) (smd : Smd) (bytes : List Byte)
  | frameReceiveEnd (p : Port) (preemptable : Bool) (bytes : List Byte) (rxError : Bool)
  | pauseFrameReceive (p : Port) (bytes : List Byte)
  | pauseExpire (p : Port) (prio : Fin 8)
  | pfcRepeat (p : Port) (high : Bool)
  | pfcWatchdogTrip (p : Port) (prio : Fin 8)
  | pfcRecoverExpire (p : Port) (prio : Fin 8)
  | fecDegradeWindow (p : Port) (bins : List (BitVec 32)) (uncorrectable symbols : BitVec 32)
  | verifyRequestReceive (p : Port)
  | verifyResponseReceive (p : Port)
  | verifyTimeout (p : Port)
  | fragmentEnd (p : Port) (sent : Fin 16384)
  | gateGuardCut (p : Port) (data : Fin 16384)
  -- parsing (05)
  | dispatchPoint (p : Port) (preemptable : Bool)
  | coreDispatch (t : Tile)
  | arrivalStallEnd (t : Tile) (c : Core) (bytes : List Byte) (cycles : BitVec 16)
  | nop (t : Tile) (c : Core)
  | add (t : Tile) (c : Core) (d a b : WReg)
  | sub (t : Tile) (c : Core) (d a b : WReg)
  | and_ (t : Tile) (c : Core) (d a b : WReg)
  | or_ (t : Tile) (c : Core) (d a b : WReg)
  | xor_ (t : Tile) (c : Core) (d a b : WReg)
  | shl (t : Tile) (c : Core) (d a b : WReg)
  | shr (t : Tile) (c : Core) (d a b : WReg)
  | movi (t : Tile) (c : Core) (d : WReg) (imm : BitVec 16)
  | movhi (t : Tile) (c : Core) (d : WReg) (imm : BitVec 16)
  | addi (t : Tile) (c : Core) (d a : WReg) (imm : BitVec 16)
  | andi (t : Tile) (c : Core) (d a : WReg) (imm : BitVec 16)
  | ori (t : Tile) (c : Core) (d a : WReg) (imm : BitVec 16)
  | xori (t : Tile) (c : Core) (d a : WReg) (imm : BitVec 16)
  | shli (t : Tile) (c : Core) (d a : WReg) (amount : BitVec 5)
  | shri (t : Tile) (c : Core) (d a : WReg) (amount : BitVec 5)
  | ext (t : Tile) (c : Core) (d a : WReg) (pos lenM1 : BitVec 5)
  | cmp (t : Tile) (c : Core) (a b : WReg)
  | cmpi (t : Tile) (c : Core) (a : WReg) (imm : BitVec 16)
  | ldb (t : Tile) (c : Core) (d : WReg) (addr : WinAddr)
  | ldh (t : Tile) (c : Core) (d : WReg) (addr : WinAddr)
  | ldw (t : Tile) (c : Core) (d : WReg) (addr : WinAddr)
  | ldc (t : Tile) (c : Core) (d : WReg) (size : Fin 3) (off : BitVec 6)
  | stc (t : Tile) (c : Core) (r : WReg) (size : Fin 3) (off : BitVec 6)
  | bcc (t : Tile) (c : Core) (cond : CondCode) (target : BitVec 14)
  | call (t : Tile) (c : Core) (target : BitVec 14)
  | ret (t : Tile) (c : Core)
  | jr (t : Tile) (c : Core) (a : WReg)
  | hsy4 (t : Tile) (c : Core) (d a : WReg)
  | hsy6 (t : Tile) (c : Core) (d a : WReg)
  | hash (t : Tile) (c : Core) (d a nM1 : WReg)
  | amb (t : Tile) (c : Core) (start stop : WReg) (mask : BitVec 16)
  | amw (t : Tile) (c : Core) (d : WReg)
  | amberScanDone (t : Tile) (c : Core) (queueStall : BitVec 16)
  | mfs (t : Tile) (c : Core) (d : WReg) (s : Fin 5)
  | drop (t : Tile) (c : Core) (code : BitVec 3)
  | end_ (t : Tile) (c : Core)
  | budgetOverrun (t : Tile) (c : Core)
  | reorderHandoff (t : Tile) (c : Core) (waited : BitVec 16)
  | pmemScrub (t : Tile) (row : BitVec 14) (found : Ecc)
  | amberScrub (t : Tile) (image : Fin 2) (row : BitVec 12) (found : Ecc)
  -- lookup (06)
  | matchStart (t : Tile) (p : Port)
  | learnSighting
  | enqueue (t : Tile) (p : Port)
  | insert (p : Path) (n : Table) (flags : Byte) (key : List Byte) (action : BitVec 24)
  | replace (p : Path) (n : Table) (flags : Byte) (key : List Byte) (action : BitVec 24)
  | delete (p : Path) (n : Table) (key : List Byte)
  | entryRead (p : Path) (n : Table) (plen : Byte) (key : List Byte)
  | probe (p : Path) (n : Table) (key : List Byte)
  | prefixInsert (p : Path) (n : Table) (flags plen : Byte) (addr : List Byte) (action : BitVec 24)
  | prefixDelete (p : Path) (n : Table) (plen : Byte) (addr : List Byte)
  | entryOpComplete (n : Table)
  | stashWaitEnd (x : Partition) (clocks : BitVec 16)
  | stashRelease (x : Partition)
  | ageTick (n : Table)
  | ageScan (n : Table)
  | ageDelete (n : Table)
  | ageRefresh (x : Partition)
  | mamScrub (t : Tile) (row : BitVec 12) (found : Ecc)
  | mamEntryRepair (t : Tile) (row : BitVec 12)
  | tableStoreScrub (x : Partition) (bucket : Fin 131072) (slot : Fin 4) (found : Ecc)
  | levelEntryRebuild (bucket : Fin 2097152) (slot : Fin 4)
  | cacheFlush (p : Path)
  -- buffer (07)
  | tokenRelease (hw : BitVec 27) (tok : BitVec 10) (sender : Sender)
  | cellReturnDone (h : Handle)
  | holderAdd (hw : BitVec 27) (tok : BitVec 10) (m : Fin 64)
  | descriptorRead (p : Path) (data : List Byte)
  | orphanSweep (p : Path)
  | orphanSweepTimeout
  | cellScrub (c : Cell) (found : Ecc)
  | descriptorScrub (w : StoreWord) (found : Ecc)
  | bankIsolate (p : Path) (k : BufBank)
  | remapCell (k : BufBank)
  | bankRemapDone (k : BufBank)
  | bankRestore (p : Path) (k : BufBank)
  | bankRestoreDone (k : BufBank) (pass : Bool)
  | snapshot (p : Path)
  -- scheduling (08)
  | pick (p : Port) (preemptable : Bool)
  | transmitEnd (p : Port) (preemptable : Bool)
  | shaperTick
  | policerRefresh (x : Policer)
  | gateListStart (p : Port)
  | gateEntryStart (p : Port)
  | launchWindowMiss (p : Port) (q : Fin 16)
  | residenceCheck (q : Queue)
  -- time (09)
  | timeRefLoss (freqErr : BitVec 32)
  | timeRefRecover (freqErr : BitVec 32)
  | timeRefRampDone
  | tbSet (p : Path) (n : TimeBase) (data : List Byte)
  | tbAdjust (p : Path) (n : TimeBase) (data : List Byte)
  | tbRearmArm (p : Path) (n : TimeBase)
  | tbRearmTrack (p : Path) (n : TimeBase)
  | slewComplete (n : TimeBase)
  | ppsInEdge
  | ppsInLoss
  | ppsOutEdge (n : TimeBase)
  | ppsOutPulseEnd (n : TimeBase)
  | servoMeasure (n : TimeBase)
  | timeSnapshot (p : Path)
  -- telemetry (10)
  | portSnapshot (p : Path) (port : Port)
  | matrixSwap (p : Path)
  | matrixSwapDone
  | matrixClear (p : Path)
  | matrixClearDone
  | flowScan (set : FlowSet)
  | flowFlush (p : Path)
  | exportFlushTimeout (learn : Bool)
  | ipfixTemplateTimer
  | postcardFlushTimeout (t : Tile)
  | counterScrub (addr : Fin 67108864) (flow : Bool) (found : Ecc)
  -- host attachment (11)
  | chDoorbell (c : Channel) (v : BitVec 32)
  | chCmplAck (c : Channel) (v : BitVec 32)
  | channelEnable (c : Channel)
  | channelDisable (c : Channel)
  | channelResume (c : Channel)
  | channelDrainEnd (c : Channel)
  | descriptorPrefetch (c : Channel)
  | engineChannelPick (e : Engine)
  | packetToHostDescriptor (c : Channel)
  | hostToPacketDescriptor (c : Channel)
  | tableLoadDescriptor (c : Channel)
  | tableUnloadDescriptor (c : Channel)
  | tableRecordsDescriptor (c : Channel)
  | exportDescriptor (c : Channel)
  | copyDescriptor (c : Channel)
  | linkDescriptor (c : Channel)
  | endDescriptor (c : Channel)
  | pcieReadCompletion (tag : Fin 768) (data : List Byte)
  | busError (tag : Fin 768) (kind : BusErr)
  | notifyTimeout (c : Channel)
  | engineRestart (p : Path) (e : Engine)
  | engineRestartDone (e : Engine)
  | pmFence (p : Path)
  | pmFenceDone
  | legacyDoorbell (v : BitVec 32)
  | pcieConventionalReset
  | pcieHotReset
  | functionLevelReset
  | pcieLinkTrainingStart
  | configRequest (q : CfgReq)
  -- interrupts (12)
  | msixDeliverable (t : Fin 64)
  | sourceDoorbell
  | irqDoorbell (v : BitVec 32)
  | irqRaise (p : Path) (v : BitVec 16)
  | deliveryMessage (t : Target)
  | irqClaim (t : Target)
  | irqComplete (t : Target) (v : BitVec 32)
  | irqStackReset (t : Target) (v : BitVec 32)
  | stackReset (p : Path) (t : Target)
  | irqMaskWrite (w : Fin 128) (v : BitVec 32)
  | irqPendingWrite (w : Fin 128) (v : BitVec 32)
  | irqPendingRead (w : Fin 128)
  | srcWithdraw (p : Path) (s : Source)
  | deliveryTimeout (s : Source)
  -- faults (13)
  | faultReport (seen : FaultSeen := .queued)
  | recordPublish
  | faultWindowExpire (s : Source)
  | reactionTimeout (s : Source)
  | quietExpire (s : Source)
  | faultAck (p : Path) (s : Source)
  | faultInjectEccSingle (p : Path) (s : Source) (unit addr : BitVec 32)
  | faultInjectEccDouble (p : Path) (s : Source) (unit addr : BitVec 32)
  | faultInjectParity (p : Path) (s : Source) (unit addr : BitVec 32)
  | faultInjectReport (p : Path) (s : Source) (unit addr : BitVec 32)
  -- start-up (14) and electrical (15)
  | powerOn
  | powerLoss
  | sysResetAssert
  | sysResetRelease (straps : BitVec 4)
  | arrayInitDone (fusedMv : BitVec 16)
  | bootRomVerify
  | firmwareStart
  | avsStep (targetMv : BitVec 16)
  | avsTimeout
  | tileReload (p : Path) (t : Tile)
  | tilePale (t : Tile)
  | fwVerify (p : Path)
  | fwActivate (p : Path)
  | fwReady
  | fwRevert
  | fwStore (p : Path) (data : Byte)
  | startupStore (p : Path)
  | slateWatchdogExpire (s : Slate) (pc : BitVec 32)
  | tempSample (n : Sensor) (sixteenths : BitVec 32)
  | twXfer (p : Path) (i : Fin 16) (data : List Byte)
  | twXferDone (i : Fin 16) (cause : Fin 6) (recovered : Bool) (written : Byte) (data : List Byte)
  | mdioRead (p : Path) (j : Fin 4) (clause45 : Bool) (port dev : BitVec 5)
  | mdioWrite (p : Path) (j : Fin 4) (clause45 : Bool) (port dev : BitVec 5) (v : BitVec 16)
  | mdioAddress (p : Path) (j : Fin 4) (port dev : BitVec 5) (v : BitVec 16)
  | mdioReadIncrement (p : Path) (j : Fin 4) (port dev : BitVec 5)
  | mdioXferDone (j : Fin 4) (answer : Option (BitVec 16))
  | diagUnlock (p : Path) (data : List Byte)
  | dieToDieLinkLoss (b : LaneBank) (linkLanes : BitVec 32)
  | orphanSweepDone
  | fwStoreDone
  | startupStoreDone
  | slateMemoryUe (s : Slate)
  | pcieLinkUp (speed : Fin 6) (width : Fin 17)
deriving DecidableEq, Repr

end Sys2Proof
end

