-- ==== Sys2Proof/WellFormed.lean ====
section
/-!
DEFINITION. Sys2Proof/WellFormed.lean: which command terms the world can send: object addresses that fit their fields,
datagrams whose addresses and ports fit, aligned register writes, lists of the length the hardware delivers.
-/
namespace Sys2Proof

/-- An object address fits `#IIII[n].SS`: 16, 24 and 8 bits (R7, R8). -/
def Ref.wf (a : Ref) : Bool := decide (a.idx < 2 ^ 16) && decide (a.inst < 2 ^ 24) && decide (a.sub < 2 ^ 8)

/-- A datagram's addresses fit their family, its ports 16 bits (R52). -/
def Udp.wf (f : Udp) : Bool :=
  decide (f.srcAddr < 2 ^ (if f.v6 then 128 else 32)) && decide (f.dstAddr < 2 ^ (if f.v6 then 128 else 32)) &&
  decide (f.srcPort < 2 ^ 16) && decide (f.dstPort < 2 ^ 16)

/-- A well-formed command. What the device itself checks (a dictionary operation's data, an object that does not exist)
is no matter of well-formedness. -/
def Instr.wf : Instr → Bool
  | .read _ a off len => a.wf && decide (off < 2 ^ 32) && decide (len < 2 ^ 32)
  | .readStaged _ a off len => a.wf && decide (off < 2 ^ 32) && decide (len < 2 ^ 32)
  | .write _ a off _ => a.wf && decide (off < 2 ^ 32)
  | .writeStaged _ a off _ => a.wf && decide (off < 2 ^ 32)
  | .discard .. => true
  | .commit .. => true
  | .lease .. => true
  | .release .. => true
  | .describe _ a => a.wf
  | .echo .. => true
  | .commitValidationDone .. => true
  | .tileEpochFlip .. => true
  | .owOperationDone .. => true
  | .registerWrite off wide _ => off % 4 == 0 && (!wide || off % 8 == 0)
  | .hello _ f => f.wf
  | .open_ _ f => f.wf
  | .bolsyRequest _ f => f.wf
  | .bolsyClose _ f => f.wf
  | .sessionClose .. => true
  | .sessionIdleTimeout .. => true
  | .leaseExpire .. => true
  | .bolsySecretRollover => true
  | .mgmtFrameReceive _ bytes => decide (bytes.length < 2 ^ 16)
  | .refclkLoss .. => true
  | .refclkHealthy .. => true
  | .txPllLock .. => true
  | .losAssert .. => true
  | .losDeassert .. => true
  | .trainingFrameReceive .. => true
  | .trainPhaseBSwitch .. => true
  | .trainComplete .. => true
  | .trainTimeout .. => true
  | .markerLock .. => true
  | .lockHoldComplete .. => true
  | .lockTimeout .. => true
  | .deskewFail _ skews => decide (skews.length ≤ 8)
  | .exchangeBlockReceive .. => true
  | .exchangeTimeout .. => true
  | .lockLoss .. => true
  | .partnerTrainingDetect .. => true
  | .retrain .. => true
  | .adaptationFreeze .. => true
  | .adaptationThaw .. => true
  | .eyeScan .. => true
  | .eyeScanDone _ result => result.length == 18
  | .ffeLoad .. => true
  | .snrSupervision .. => true
  | .portUp .. => true
  | .portLeaveUp .. => true
  | .downHoldExpire .. => true
  | .frameReceive _ _ bytes => decide (bytes.length < 2 ^ 16)
  | .frameReceiveEnd _ _ bytes _ => decide (bytes.length < 2 ^ 16)
  | .pauseFrameReceive _ bytes => decide (bytes.length < 2 ^ 16)
  | .pauseExpire .. => true
  | .pfcRepeat .. => true
  | .pfcWatchdogTrip .. => true
  | .pfcRecoverExpire .. => true
  | .fecDegradeWindow _ bins _ _ => bins.length == 16
  | .verifyRequestReceive .. => true
  | .verifyResponseReceive .. => true
  | .verifyTimeout .. => true
  | .fragmentEnd .. => true
  | .gateGuardCut .. => true
  | .dispatchPoint .. => true
  | .coreDispatch .. => true
  | .arrivalStallEnd _ _ bytes _ => decide (bytes.length < 2 ^ 16)
  | .nop .. => true
  | .add .. => true
  | .sub .. => true
  | .and_ .. => true
  | .or_ .. => true
  | .xor_ .. => true
  | .shl .. => true
  | .shr .. => true
  | .movi .. => true
  | .movhi .. => true
  | .addi .. => true
  | .andi .. => true
  | .ori .. => true
  | .xori .. => true
  | .shli .. => true
  | .shri .. => true
  | .ext .. => true
  | .cmp .. => true
  | .cmpi .. => true
  | .ldb .. => true
  | .ldh .. => true
  | .ldw .. => true
  | .ldc .. => true
  | .stc .. => true
  | .bcc .. => true
  | .call .. => true
  | .ret .. => true
  | .jr .. => true
  | .hsy4 .. => true
  | .hsy6 .. => true
  | .hash .. => true
  | .amb .. => true
  | .amw .. => true
  | .amberScanDone .. => true
  | .mfs .. => true
  | .drop .. => true
  | .end_ .. => true
  | .budgetOverrun .. => true
  | .reorderHandoff .. => true
  | .pmemScrub .. => true
  | .amberScrub .. => true
  | .matchStart .. => true
  | .learnSighting => true
  | .enqueue .. => true
  | .insert .. => true
  | .replace .. => true
  | .delete .. => true
  | .entryRead .. => true
  | .probe .. => true
  | .prefixInsert .. => true
  | .prefixDelete .. => true
  | .entryOpComplete .. => true
  | .stashWaitEnd .. => true
  | .stashRelease .. => true
  | .ageTick .. => true
  | .ageScan .. => true
  | .ageDelete .. => true
  | .ageRefresh .. => true
  | .mamScrub .. => true
  | .mamEntryRepair .. => true
  | .tableStoreScrub .. => true
  | .levelEntryRebuild .. => true
  | .cacheFlush .. => true
  | .tokenRelease .. => true
  | .cellReturnDone .. => true
  | .holderAdd .. => true
  | .descriptorRead .. => true
  | .orphanSweep .. => true
  | .orphanSweepTimeout => true
  | .cellScrub .. => true
  | .descriptorScrub .. => true
  | .bankIsolate .. => true
  | .remapCell .. => true
  | .bankRemapDone .. => true
  | .bankRestore .. => true
  | .bankRestoreDone .. => true
  | .snapshot .. => true
  | .pick .. => true
  | .transmitEnd .. => true
  | .shaperTick => true
  | .policerRefresh .. => true
  | .gateListStart .. => true
  | .gateEntryStart .. => true
  | .launchWindowMiss .. => true
  | .residenceCheck .. => true
  | .timeRefLoss .. => true
  | .timeRefRecover .. => true
  | .timeRefRampDone => true
  | .tbSet .. => true
  | .tbAdjust .. => true
  | .tbRearmArm .. => true
  | .tbRearmTrack .. => true
  | .slewComplete .. => true
  | .ppsInEdge => true
  | .ppsInLoss => true
  | .ppsOutEdge .. => true
  | .ppsOutPulseEnd .. => true
  | .servoMeasure .. => true
  | .timeSnapshot .. => true
  | .portSnapshot .. => true
  | .matrixSwap .. => true
  | .matrixSwapDone => true
  | .matrixClear .. => true
  | .matrixClearDone => true
  | .flowScan .. => true
  | .flowFlush .. => true
  | .exportFlushTimeout .. => true
  | .ipfixTemplateTimer => true
  | .postcardFlushTimeout .. => true
  | .counterScrub .. => true
  | .chDoorbell .. => true
  | .chCmplAck .. => true
  | .channelEnable .. => true
  | .channelDisable .. => true
  | .channelResume .. => true
  | .channelDrainEnd .. => true
  | .descriptorPrefetch .. => true
  | .engineChannelPick .. => true
  | .packetToHostDescriptor .. => true
  | .hostToPacketDescriptor .. => true
  | .tableLoadDescriptor .. => true
  | .tableUnloadDescriptor .. => true
  | .tableRecordsDescriptor .. => true
  | .exportDescriptor .. => true
  | .copyDescriptor .. => true
  | .linkDescriptor .. => true
  | .endDescriptor .. => true
  | .pcieReadCompletion _ data => decide (data.length ≤ 4096)
  | .busError .. => true
  | .notifyTimeout .. => true
  | .engineRestart .. => true
  | .engineRestartDone .. => true
  | .pmFence .. => true
  | .pmFenceDone => true
  | .legacyDoorbell .. => true
  | .pcieConventionalReset => true
  | .pcieHotReset => true
  | .functionLevelReset => true
  | .pcieLinkTrainingStart => true
  | .configRequest .. => true
  | .msixDeliverable .. => true
  | .sourceDoorbell => true
  | .irqDoorbell .. => true
  | .irqRaise .. => true
  | .deliveryMessage .. => true
  | .irqClaim .. => true
  | .irqComplete .. => true
  | .irqStackReset .. => true
  | .stackReset .. => true
  | .irqMaskWrite .. => true
  | .irqPendingWrite .. => true
  | .irqPendingRead .. => true
  | .srcWithdraw .. => true
  | .deliveryTimeout .. => true
  | .faultReport .. => true
  | .recordPublish => true
  | .faultWindowExpire .. => true
  | .reactionTimeout .. => true
  | .quietExpire .. => true
  | .faultAck .. => true
  | .faultInjectEccSingle .. => true
  | .faultInjectEccDouble .. => true
  | .faultInjectParity .. => true
  | .faultInjectReport .. => true
  | .powerOn => true
  | .powerLoss => true
  | .sysResetAssert => true
  | .sysResetRelease .. => true
  | .arrayInitDone .. => true
  | .bootRomVerify => true
  | .firmwareStart => true
  | .avsStep .. => true
  | .avsTimeout => true
  | .tileReload .. => true
  | .tilePale .. => true
  | .fwVerify .. => true
  | .fwActivate .. => true
  | .fwReady => true
  | .fwRevert => true
  | .fwStore .. => true
  | .startupStore .. => true
  | .slateWatchdogExpire .. => true
  | .tempSample .. => true
  | .twXfer .. => true
  | .twXferDone .. => true
  | .mdioRead .. => true
  | .mdioWrite .. => true
  | .mdioAddress .. => true
  | .mdioReadIncrement .. => true
  | .mdioXferDone .. => true
  | .diagUnlock .. => true
  | .dieToDieLinkLoss .. => true
  | .orphanSweepDone => true
  | .fwStoreDone => true
  | .startupStoreDone => true
  | .slateMemoryUe .. => true
  | .pcieLinkUp speed width => decide (0 < speed.val) && [1, 2, 4, 8, 16].contains width.val

end Sys2Proof
end

