-- ==== Sys2Proof/Decode.lean ====
section
/-!
DEFINITION. Sys2Proof/Decode.lean: the words of the opcode table. The table gives its rows no bits (they are operations
and events of a block, not encodings), so no word spells a command. The one encoding the spec does give, that of the
Ochre programs a tile stores, is decoded in Machine/OchreCode.lean.
-/
namespace Sys2Proof

/-- The command that a table word spells: none, since no row of spec/opcode_table.json has bits. -/
def decodeTableWord (_nbits _w : Nat) : Option Instr := none

end Sys2Proof
end

