-- ==== Sys2Proof/Machine/State.lean ====
section
/-!
DEFINITION. Sys2Proof/Machine/State.lean: everything the spec gives the device to hold, as plain data.
What software configures or observes is an object (R7); the active value of every object element lives in `Dict.objs`,
a sparse list in one canonical form (keys rising, no entry equal to the object's default). What the spec gives the
device beside its objects (packets, queues, cores, timers, FIFOs) stands in the structures below.
-/
namespace Sys2Proof.Machine

/-- Key of one stored element of an object: the object and the element's number within it. -/
structure OKey where
  ref : Ref
  el  : Nat
deriving DecidableEq, Repr

/-- What the device puts out while it executes one command: answers, frames, messages, host writes, pin edges. -/
inductive Output where
  /-- the answer to a dictionary operation: path, error code of R67, returned data -/
  | answer (p : Path) (err : Nat) (data : List Byte)
  /-- the answer to a BAR0 read or a configuration request; `none` is Configuration Request Retry Status (R395) -/
  | bar (v : Option Nat)
  /-- a whole frame leaving port `p`, FCS included (R22) -/
  | wire (p : Nat) (bytes : List Byte)
  /-- a fragment of a frame leaving port `p`: `none` for the first, opened with SMD-S, else the fragment count of its
  SMD-C; its data, with its mCRC or the FCS (R117) -/
  | fragment (p : Nat) (count : Option Nat) (bytes : List Byte)
  /-- from now on port `p` signals Remote fault, or no longer (R104) -/
  | remoteFault (p : Nat) (on : Bool)
  /-- a verify or respond mPacket leaving port `p` (R116) -/
  | mpacket (p : Nat) (respond : Bool)
  /-- a UDP datagram leaving management port `m`: destination address, ports, payload (R52, R306) -/
  | udp (m : Nat) (v6 : Bool) (srcAddr srcPort dstAddr dstPort : Nat) (payload : List Byte)
  /-- another Ethernet frame leaving management port `m` (R53) -/
  | mgmt (m : Nat) (bytes : List Byte)
  /-- the G4 training frame lane `l` sends from now on: symbols 32-239 as bits (R84, R85, R87) -/
  | training (l : Nat) (fields : Nat)
  /-- a marker group of lane `l`: four markers (R78) -/
  | markers (l : Nat) (bytes : List Byte)
  /-- an exchange block of lane `l` (R81) -/
  | exchange (l : Nat) (bytes : List Byte)
  /-- one memory write to the host bus, with its relaxed-ordering attribute (R334) -/
  | hostWrite (addr : Nat) (bytes : List Byte) (relaxed : Bool)
  /-- one memory read of the host bus: tag, bus address, length (R325) -/
  | hostRead (tag addr len : Nat)
  /-- the MSI-X message of an entry (R335, R357), always with relaxed ordering clear (R334) -/
  | msix (entry : Nat)
  /-- a message to a Slate core (R356) -/
  | slateMsg (s : Nat)
  /-- a PPS output pin's level (R273) -/
  | pps (n : Nat) (high : Bool)
  /-- a request to the core regulator, mV (R387) -/
  | avs (mv : Nat)
  /-- a two-wire transaction starts on master `i` (R420) -/
  | twoWire (i : Nat) (data : List Byte)
  /-- an MDIO frame starts on master `j`: clause 45, port, device or register, operation, value (R422) -/
  | mdio (j : Nat) (c45 : Bool) (port dev op v : Nat)
deriving DecidableEq, Repr

/-! ### The dictionary (02) -/

/-- Status of a CMD object: status 0-3, error code, result bytes (R40). -/
structure CmdStat where
  status : Nat
  err    : Nat
  result : List Byte
deriving DecidableEq, Repr

/-- Phase of a commit under way (R43). -/
inductive CPhase where
  | validating | flipping | retiring
deriving DecidableEq, Repr

/-- One COMMIT under way (R43-R46): the groups it named, those of them that flip, the tiles that have flipped, the
values it replaced (for packets of the old epoch, R44), the path to answer, the groups whose lease ended meanwhile
(R65), the tiles an escalation has returned to Pale service meanwhile (R399), and whether the path's answer is put out
by itself (`direct`) or belongs to a window register operation, a REQUEST or the startup image. -/
structure Commit where
  id      : Nat
  named   : List Nat
  groups  : List Nat
  phase   : CPhase
  flipped : List Nat
  old     : List (OKey × Nat)
  path    : Path
  toDrop  : List Nat
  paled   : List Nat
  direct  : Bool
deriving DecidableEq, Repr

/-- A window operation in progress (R49, R50): code, tag, interrupt wanted, whether it has reached the dictionary,
and its answer. -/
structure WinOp where
  code   : Nat
  tag    : Nat
  irq    : Bool
  sent   : Bool
  answer : Option (Nat × List Byte)
deriving DecidableEq, Repr

/-- The registers of one host object window (R49). -/
structure Win where
  index   : Nat
  inst    : Nat
  offset  : Nat
  length  : Nat
  overrun : Bool
  err     : Nat
  tag     : Nat
  data    : List Byte
  op      : Option WinOp
deriving DecidableEq, Repr

/-- One operation of a Bolsy REQUEST (R55); `len` is its data length field. -/
structure BOp where
  code : Nat
  ref  : Ref
  off  : Nat
  len  : Nat
  data : List Byte
deriving DecidableEq, Repr

/-- A REQUEST being executed: where it came from, its sequence number, the operations left, the results so far
(R56, R61). -/
structure BJob where
  mport : Nat
  frame : Udp
  seq   : Nat
  todo  : List BOp
  done  : List (Nat × List Byte)
deriving DecidableEq, Repr

/-- An open Bolsy session (R57-R60). `jobs` holds the REQUESTs being executed, the first of them at work (R36, R61). -/
structure Sess where
  nm       : List Byte
  nd       : List Byte
  kmd      : List Byte
  kdm      : List Byte
  idle     : Nat
  deadline : Nat
  accept   : List Byte
  cache    : List (Nat × List Byte)
  jobs     : List BJob
deriving DecidableEq, Repr

/-- The startup image being applied (R393): records left (byte offset and operation), count applied, the byte
offset of the one that waits, the groups it has staged into. -/
structure Startup where
  todo    : List (Nat × BOp)
  applied : Nat
  at_     : Nat
  groups  : List Nat
deriving DecidableEq, Repr

/-- The dictionary, its windows, its commits and Bolsy. -/
structure Dict where
  objs      : List (OKey × Nat)
  shadow    : List (OKey × Nat)
  cmds      : List (Ref × CmdStat)
  commits   : List Commit
  nextId    : Nat
  wins      : List Win
  winOrder  : List Nat
  sessions  : List (Nat × Sess)
  secretNow : Nat
  secretOld : Nat
  hellos    : List (Nat × Nat)
  authSec   : Nat
  held      : List (Nat × Udp)
  leases    : List (Nat × Nat)
  busyTabs  : List Ref
  startup   : Option Startup
deriving DecidableEq, Repr

/-! ### Lanes and ports (03, 04) -/

/-- A lane beside its objects (R78-R96). `los` is its loss of signal, `good` that 1 ms of signal has been seen since it
entered DETECT; `ackSeen` the ack bit of its exchange blocks and `exCount` their count; `locked` that its markers have
locked, `deskew` that the port's deskew failed since it entered LOCK, at tick `lockAt`; `link` byte 12 of the last marker
received. Of G4 training: `ready` its own receiver, `precode` that it asks for precoding, `partnerG4` that the partner
lists G4, `partnerReady` the frames in a row with the partner's ready bit, `phaseOut` its own phase field and `phaseSeen`
the frames seen with the partner's at 1, `reqSeq` and `reqCtl` its own request, `appliedSeq` and `result` the partner's
last request and its answer. -/
structure LaneX where
  los        : Bool
  good       : Bool
  g4Held     : Bool
  partnerG4  : Bool
  ackSeen    : Bool
  exCount    : Nat
  locked     : Bool
  deskew     : Bool
  lockAt     : Nat
  link       : Nat
  mismatch   : Bool
  ready      : Bool
  precode    : Bool
  partnerReady : Nat
  phaseOut   : Bool
  phaseSeen  : Nat
  reqSeq     : Nat
  reqCtl     : Nat
  appliedSeq : Option Nat
  result     : Nat
  degraded   : Nat
  eyeSel     : Nat
deriving DecidableEq, Repr

/-- A frame on its way out of a MAC (R117-R121, R208): its packet, token and queue; the device clock and the time of its
timestamp point (R269); its bytes once they are known; frame data bytes sent so far; fragments sent; its fate code, not
0x00 when its FCS is spoiled; the instant of the first bit of its present fragment, in 2^-16 ns since reset; that it
waits for the other MAC to end a frame or a fragment (R235, R254). -/
structure Tx where
  fid   : Nat
  tok   : Nat
  queue : Nat
  dcOut : Nat
  dep   : Nat
  frame : Option (List Byte)
  sent  : Nat
  frags : Nat
  code  : Nat
  first : Nat
  waits : Bool
deriving DecidableEq, Repr

/-- A port beside its objects (R104-R122, R124, R278). `fault` holds the faults present: 1 local, 2 remote; `paused`
gives, for each PFC priority paused (8 for a pause of the whole port), the tick from which it is in force (R112);
`rxCount` the continuations received of the open preemptable frame (R118); `tailHeld` a preempted tail waiting for its
gate (R248). -/
structure PortX where
  up       : Bool
  holding  : Bool
  fault    : List Nat
  attempts : Nat
  paused   : List (Nat × Nat)
  ignored  : List Nat
  xoff     : List Nat
  split    : Bool
  clean    : Nat
  bucket   : Nat
  bucketAt : Nat
  rxWhole  : Option Nat
  rxPre    : Option Nat
  rxCount  : Nat
  txExp    : Option Tx
  txPre    : Option Tx
  tail     : Option Tx
  tailHeld : Bool
  slots    : List (Option Nat)
deriving DecidableEq, Repr

/-- One start of a gate list: image, start on the base in 2^-16 ns, cycle in ns, length, base (R245-R251). -/
structure GList where
  image : Nat
  start : Nat
  cycle : Nat
  len   : Nat
  tb    : Nat
deriving DecidableEq, Repr

/-- The gate machine of a port (R246, R249). -/
structure GateX where
  running : Option GList
  next    : Option GList
  held    : Bool
deriving DecidableEq, Repr

/-! ### Packets (01, 05-08) -/

/-- Where a packet came from: a port, a host-to-packet channel, the device itself (postcards, R309). -/
inductive Src where
  | port (p : Nat)
  | host (c : Nat)
  | device (t : Nat)
deriving DecidableEq, Repr

/-- What a policer charged a packet whose end was not known: the policer, the bytes known then, and whether the peak level
was charged too (R243). -/
structure Policed where
  row   : Nat
  known : Nat
  peak  : Bool
deriving DecidableEq, Repr

/-- How far a frame has come (R20, R127-R129, R202, R200). -/
inductive Phase where
  | arriving | queued | parsing | reorder | matched | enqueued | returning
deriving DecidableEq, Repr

/-- Kinds of holder (R208). -/
inductive HKind where
  | egress | mirror | tail | host | dma
deriving DecidableEq, Repr

/-- The account a destination is charged to (R218, R222). -/
inductive Acct where
  | reserve | shared | headroom
deriving DecidableEq, Repr

/-- One holder of a packet: token, kind, global queue, account, occupancy before its charge, whether its frame has
started, its enqueue instant in ticks, whether its queue held no other packet then (R22), the VLAN operation it carries
(R312), the channel that copies it; the provisional scheduling lengths that its queue's finish tag and shaper were
charged, 0 for none (R237); `owes` that its frame's charges still move its queue's finish tag (R239); `entry` its queue
entry (R203). -/
structure Holder where
  tok     : Nat
  kind    : HKind
  queue   : Nat
  acct    : Acct
  occ     : Nat
  started : Bool
  since   : Nat
  alone   : Bool
  vlan    : Nat
  ch      : Nat
  tagLp   : Nat
  tokLp   : Nat
  owes    : Bool
  entry   : Nat
deriving DecidableEq, Repr

/-- A combined action set (R174, R183). -/
structure ActSet where
  kind     : Nat
  queue    : Nat
  value    : Nat
  eqValid  : Bool
  eq       : Nat
  policer  : Option Nat
  mirA     : Option Nat
  mirB     : Option Nat
  vlan     : Nat
  postcard : Bool
  insert   : Bool
  copyTo   : Option Nat
  noLearn  : Bool
  overflow : Bool
  flood    : Bool
  fate     : Nat
deriving DecidableEq, Repr

/-- One frame or packet, from its start delimiter to the return of its last cell. `bad` is the ingress filter's verdict
(0 for none); `filtered` that it has judged; `applied` the commits under way whose boundary the packet was dispatched
after (R44), `judged` those under way when the filter judged it; `pools` the pools its shared charges lie in; `charge`
the cells charged per destination, `exact` once that is the frame's true count (R217); `fcsBad` that its FCS failed,
`extNo` its holder extension (R204); `started` that a copy has started on an egress port; `fwd` destinations forwarded;
`spoilt` the code that ends every copy of it (0 none); `stamps` the eight bases at its timestamp point; `pre` that it
came on the preemptable path; `occAll` the cells allocated device-wide at enqueue (R311). -/
structure Pkt where
  fid      : Nat
  src      : Src
  tile     : Nat
  pre      : Bool
  bytes    : List Byte
  ended    : Bool
  bad      : Nat
  filtered : Bool
  cells    : List Nat
  phase    : Phase
  pale     : Bool
  mono     : Bool
  dflt     : Bool
  applied  : List Nat
  dcIn     : Nat
  tsIn     : Nat
  stamps   : List Nat
  member   : Nat
  toHost   : Option Nat
  ctx      : List Byte
  seenF    : Bool
  act      : ActSet
  policed  : Option Policed
  enq      : Bool
  handle   : Nat
  gen      : Nat
  issued   : Nat
  holders  : List Holder
  ext      : Bool
  extNo    : Nat
  fcsBad   : Bool
  pools    : Nat
  cls      : Nat
  hroom    : Bool
  charge   : Nat
  exact    : Bool
  judged   : List Nat
  poison   : Bool
  lost     : Bool
  started  : Bool
  notFwd   : Nat
  fwd      : Nat
  lastPort : Nat
  timeW    : Nat
  timeV    : Nat
  launch   : Bool
  spoilt   : Nat
  cutThru  : Bool
  inserted : Bool
  mirrored : Bool
  occAll   : Nat
deriving DecidableEq, Repr

/-- A scan of the Amber matcher (R146, R147): its range, the end clipped to the profile limit; the group mask; whether
that limit reduced the end; the packet's charged cycles when it was issued; once it is ready, its latency and result. -/
structure Scan where
  start  : Nat
  stop   : Nat
  mask   : Nat
  clip   : Bool
  at_    : Nat
  lat    : Nat
  result : Nat
  ready  : Bool
deriving DecidableEq, Repr

/-- An Ochre core at work (R128, R132): beside its resources the fragment horizon, the charged, stall and queue stall
cycles so far, its scan; whether END waits for room (R129), whether and for how long the ROM program ran (R141), whether
the budget is reached, and whether it waits for bytes in the pre-decoder's walk or in an instruction (R138). -/
structure CoreX where
  fid     : Nat
  w       : List Nat
  pc      : Nat
  stack   : List Nat
  z       : Bool
  c       : Bool
  a       : Bool
  f       : Bool
  horizon : Nat
  charged : Nat
  stalls  : Nat
  qstalls : Nat
  scan    : Option Scan
  ended   : Bool
  rom     : Bool
  overrun : Bool
  romCyc  : Nat
  walking : Bool
  stalled : Bool
deriving DecidableEq, Repr

/-- A tile beside its objects (R127, R129, R308, R398); `offered` the core clock of its last sighting (R185). -/
structure TileX where
  dq       : List Nat
  reorder  : List Nat
  cause    : Nat
  postRecs : List (List Byte)
  postSeq  : Nat
  postLost : Nat
  monoCnt  : Nat
  queued   : Bool
  offered  : Option Nat
deriving DecidableEq, Repr

/-! ### Lookup (06) -/

/-- A copy in the move stash: table and entry (R168). -/
structure StashE where
  table : Nat
  entry : Nat
deriving DecidableEq, Repr

/-- An operation at an insert engine (R165-R168): its table, its 32-byte record, the channel that feeds it (`none`: the
table's ENTRY_OP), whether it has started, the moves it has left (from unit, to unit) and has made. -/
structure EngJob where
  table   : Nat
  record  : List Byte
  chan    : Option Nat
  started : Bool
  moves   : List (Nat × Nat)
  made    : Nat
deriving DecidableEq, Repr

/-- An aging deletion that waits at an engine (R191): table, key, and the operations that came before it (R165). -/
structure AgeReq where
  table : Nat
  key   : Nat
  ahead : Nat
deriving DecidableEq, Repr

/-- One insert engine (R165, R168, R170, R190, R191): the move stash, oldest first; the operations, the one being executed
first; the feedback register; waiting refreshes (table, key) and aging deletions. -/
structure EngX where
  stash   : List StashE
  jobs    : List EngJob
  lfsr    : Nat
  refresh : List (Nat × Nat)
  deletes : List AgeReq
deriving DecidableEq, Repr

/-- A prefix record of a longest-prefix table (R178): its place in region 0, address, length, action reference. -/
structure LRec where
  table  : Nat
  slot   : Nat
  addr   : Nat
  len    : Nat
  action : Nat
deriving DecidableEq, Repr

/-- A sighting on its way to the learn cache (R185, R186): `prev` is the table's port on a hit on another port; `static`
that this entry is static; `locked` that the source lock refused the packet. -/
structure Sighting where
  key    : Nat
  port   : Nat
  member : Nat
  tile   : Nat
  time   : Nat
  prev   : Option Nat
  static : Bool
  locked : Bool
  table  : Nat
deriving DecidableEq, Repr

/-- One learn cache entry (R187). -/
structure LearnE where
  key       : Nat
  port      : Nat
  seq       : Nat
  opened    : Nat
  lastSeen  : Nat
  contested : Bool
deriving DecidableEq, Repr

/-- The lookup block beside its objects. `store` holds the table store in 16-byte units, bucket * 4 + slot; `recs` the
prefix records; `scanAt` the bucket the aging scanner visits next in a table. -/
structure Lookup where
  store   : List (Nat × Nat)
  recs    : List LRec
  engs    : List EngX
  offered : List Sighting
  cache   : List LearnE
  scanAt  : List (Nat × Nat)
deriving DecidableEq, Repr

/-! ### Buffer (07) -/

/-- The shared buffer beside its objects: allocated cells, quarantined cells, allocated cells that the scrubber has found
uncorrectable (`doomed`, R223), cells a bank out of service dropped, the
round-robin bank, descriptors never used and freed ones in the order freed, generations, the remap position of a bank,
packets, the next frame number, the queues (global queue, then packet and token, head first). -/
structure Buffer where
  used    : List Nat
  quar    : List Nat
  doomed  : List Nat
  dropped : List Nat
  rr      : Nat
  fresh   : Nat
  freed   : List Nat
  gens    : List (Nat × Nat)
  deficit : Bool
  pkts    : List Pkt
  nextFid : Nat
  queues  : List (Nat × List (Nat × Nat))
deriving DecidableEq, Repr

/-- The token bucket of a queue: tokens in 2^-16 byte, remainder (R241). -/
structure Bucket where
  tok : Int
  rem : Nat
deriving DecidableEq, Repr

/-! ### Time (09) -/

/-- One time base (R263, R267): slew left in fifths of 2^-48 ns. -/
structure Base where
  sec  : Nat
  nsf  : Nat
  rem  : Nat
  slew : Int
deriving DecidableEq, Repr

/-- A Slate-core servo (R274, R275). -/
structure Servo where
  integ  : Int
  good   : Nat
  bad    : Nat
  seen   : Nat
deriving DecidableEq, Repr

/-- A step of a base that waits for the next tick (R264, R272): base, offset in 2^-16 ns, whether a PPS edge asked for
it. -/
structure PendStep where
  base   : Nat
  offset : Int
  edge   : Bool
deriving DecidableEq, Repr

/-- The time unit. `ticks` counts the ticks of the 1.25 GHz clock since reset (R262); `ran` gives, for each base, the
units by which it ran in the last tick, 0 after a step; `steps` the steps that wait for the next tick. -/
structure TimeX where
  ticks    : Nat
  ran      : List Nat
  steps    : List PendStep
  bases    : List Base
  refOk    : Bool
  ramping  : Bool
  ppsHigh  : List (Nat × Nat)
  servos   : List Servo
deriving DecidableEq, Repr

/-! ### Telemetry (10) -/

/-- A closed export message that waits for its channel: when it was closed, the records lost before it, its records
(R304). -/
structure Msg where
  time : Nat
  lost : Nat
  recs : List (List Byte)
deriving DecidableEq, Repr

/-- An export stream: the open message's records, records lost, closed messages waiting (R304, R305). -/
structure Stream where
  recs : List (List Byte)
  lost : Nat
  msgs : List Msg
deriving DecidableEq, Repr

/-- The ledger beside its objects. `cleared` says of each matrix bank that MATRIX_CLEAR has cleared it since it was last
active (R299), `seqs` gives the last message number of each export channel (R304), `ipfixRecs` the flow records that
wait for the collector (R306). -/
structure Ledger where
  cleared   : List Bool
  flow      : Stream
  learn     : Stream
  seqs      : List (Nat × Nat)
  mirSeen   : List (Nat × Nat)
  ipfixSeq  : Nat
  ipfixRecs : List (List Byte)
  ipfixTmpl : Bool
  ipfixSec  : Nat
  ipfixCnt  : Nat
  evLost    : Bool
deriving DecidableEq, Repr

/-! ### Host attachment (11) -/

/-- What an outstanding host read is for (R325, R334). -/
inductive Purpose where
  | prefetch
  | data (off : Nat)
  | last
  | gone
deriving DecidableEq, Repr

/-- An outstanding host read: its tag, channel and purpose; the index or chain address of the descriptor it fetches; its
map address, bus address and length. -/
structure ReadReq where
  tag  : Nat
  ch   : Nat
  why  : Purpose
  at_  : Nat
  map  : Nat
  bus  : Nat
  len  : Nat
deriving DecidableEq, Repr

/-- A prefetched descriptor: its index or chain address, and its 32 (or 16) bytes, none of them until its read returns. -/
structure Desc where
  at_  : Nat
  body : List Byte
deriving DecidableEq, Repr

/-- A completion that is decided and not yet written: bytes 4-27 of its record, code, status (R331); for a legacy
descriptor its bytes 8-15 (R348). -/
structure Cpl where
  mid    : List Byte
  code   : Nat
  status : Nat
deriving DecidableEq, Repr

/-- The packet a host-to-packet run is building (R338): its frame number once a byte is written, bytes so far, queue, time
word and value, the code it was discarded with (0 none). -/
structure Build where
  fid   : Option Nat
  total : Nat
  queue : Nat
  timeW : Nat
  timeV : Nat
  code  : Nat
deriving DecidableEq, Repr

/-- The copy a packet-to-host channel is making: packet, token, host queue, frame bytes copied, buffers filled. -/
structure Copying where
  fid   : Nat
  tok   : Nat
  queue : Nat
  at_   : Nat
  bufs  : Nat
deriving DecidableEq, Repr

/-- A channel beside its objects (R320, R324, R332-R338, R344). `fetched` counts the ring descriptors asked for, `next` is
where a chain goes on, `chainN` the chain descriptors fetched; `pre` the prefetched descriptors in order, `cur` the
current one; `asked` and `got` the data bytes asked for and returned (offset, bytes); `res` results of entry operations;
`outb` and `wrote` the bytes for the host and how many of them are written; `fin` the decided completion; `last` the
last-address read (0 not asked, 1 asked, 2 returned); `done` rows, records or bytes carried out. -/
structure ChanX where
  enabled  : Bool
  producer : Nat
  head     : Nat
  ack      : Nat
  lastErr  : Nat
  draining : Bool
  reEnable : Bool
  chainLo  : Nat
  chainHi  : Nat
  fetched  : Nat
  next     : Option Nat
  chainN   : Nat
  pre      : List Desc
  cur      : Option Desc
  asked    : Nat
  got      : List (Nat × List Byte)
  res      : List Byte
  outb     : List Byte
  wrote    : Nat
  fin      : Option Cpl
  last     : Nat
  done     : Nat
  build    : Option Build
  copying  : Option Copying
  notify   : Nat
  timing   : Bool
  hostqAt  : Nat
  tail     : Nat
deriving DecidableEq, Repr

/-- An engine: the channel it serves, the last served of each class, urgent descriptors in a row (R326). -/
structure EngineX where
  cur     : Option Nat
  lastUrg : Nat
  lastNrm : Nat
  urgRun  : Nat
deriving DecidableEq, Repr

/-- The host attachment: channels, engines, reads that are out, the fence's reads, the MSI-X table and pending bits, and
what configuration space sets (R318). -/
structure HostX where
  chans    : List (Nat × ChanX)
  engines  : List (Nat × EngineX)
  reads    : List ReadReq
  fence    : List Nat
  msix     : List (Nat × Nat)
  msixOn   : Bool
  msixMask : Bool
  pba      : List Nat
  relaxed  : Bool
  maxPay   : Nat
  maxRead  : Nat
  training : Bool
  tagsExt  : Bool
  tags10   : Bool
  ecrcGen  : Bool
  ecrcChk  : Bool
  noTimeout : Bool
  d3hot    : Bool
  bar      : Nat
  cplRange : Nat
  aerCe    : Nat
  aerUe    : Nat
deriving DecidableEq, Repr

/-! ### Interrupts and faults (12, 13) -/

/-- State of an interrupt source (R354). -/
inductive SrcState where
  | idle | pending | inService
deriving DecidableEq, Repr

/-- One interrupt source beside its objects (R354, R363, R366). -/
structure IrqSrc where
  st      : SrcState
  redir   : Bool
  changed : Nat
deriving DecidableEq, Repr

/-- One interrupt target (R356-R361): its stack, bottom first, with the group recorded at claim. -/
structure IrqTgt where
  stack : List (Nat × Nat)
  fault : Bool
  sent  : Bool
deriving DecidableEq, Repr

/-- The interrupt controller; `slateWaits` are the Slate cores whose message waits for them (R357). -/
structure Irq where
  doorbells : List Nat
  srcs      : List (Nat × IrqSrc)
  tgts      : List (Nat × IrqTgt)
  clock     : Nat
  reads     : List (Nat × Nat)
  slateWaits : List Nat
deriving DecidableEq, Repr

/-- A fault report (R371). -/
structure Report where
  source   : Nat
  unit     : Nat
  reporter : Nat
  detail   : List Byte
  injected : Bool
deriving DecidableEq, Repr

/-- A record in its fold window (R373-R375): its root, the number of its first report, its time, and every report in it, the
root's among them, in order of arrival (arrival number, reporter, source). -/
structure Held where
  root  : Report
  at_   : Nat
  time  : Nat
  clock : Nat
  reps  : List (Nat × Nat × Nat)
deriving DecidableEq, Repr

/-- An armed injection (R382); `at_` is the word it has damaged, by source and number, once that word was written. -/
structure Armed where
  source : Nat
  unit   : Nat
  addr   : Nat
  mode   : Nat
  at_    : Option (Nat × Nat)
deriving DecidableEq, Repr

/-- A damaged word of an array: the source family whose checker guards it (the _UE source number, or the parity
source), the address, bits in error, whether an injection made it that no report has named, whether a search has reported
it (R182). -/
structure Damage where
  source   : Nat
  addr     : Nat
  bits     : Nat
  injected : Bool
  told     : Bool
deriving DecidableEq, Repr

/-- The fault collector. -/
structure Faults where
  reports : List Report
  arrived : Nat
  held    : List Held
  window  : List (Nat × Nat)
  armed   : List Armed
  damage  : List Damage
deriving DecidableEq, Repr

/-! ### Start-up and board (14, 15) -/

/-- Power and reset (R386-R389). -/
inductive Power where
  | off | reset | run
deriving DecidableEq, Repr

/-- What the Slate cores run (R391-R404). -/
inductive Fw where
  | rom | noImage | verified | running | switching
deriving DecidableEq, Repr

/-- A firmware image: its slot (0 A, 1 B, 2 uploaded), version, security version, bytes. -/
structure Image where
  slot  : Nat
  ver   : Nat
  svn   : Nat
  bytes : List Byte
deriving DecidableEq, Repr

/-- Power, boot, firmware, board masters and pins. `busOps` holds the data of the two-wire (0-15) and MDIO (16-19)
commands that run; `macBase` the PORT_MAC base a valid device data region gave; `storing` the slot a FW_STORE writes (2:
none), `storeImg` and `storeSvn` what it writes and whether it raises the fused security version; `storeStart` the
startup image a STARTUP_STORE writes; `diagRuns` the vendor's commands run in diagnostic sessions (R10); `seqDown` the lane
banks whose microsequencer has lost its memory (R383). -/
structure Sys where
  power     : Power
  initDone  : Bool
  fw        : Fw
  ucode     : Bool
  image     : Option Image
  waiting   : Option Image
  previous  : Option Image
  flash     : List (Nat × Nat)
  upload    : List (Nat × Nat)
  startUp   : List (Nat × Nat)
  storing   : Nat
  pauseAt   : Nat
  slateDown : List Nat
  avsTarget : Nat
  avsAsked  : Nat
  avsOk     : Nat
  avsOut    : Bool
  perst     : Bool
  pcieUp    : Bool
  thermtrip : Bool
  sweepNext : List Nat
  macBase   : Option Nat
  busOps    : List (Nat × List Byte)
  storeImg  : Option Image
  storeSvn  : Bool
  storeStart : Option (List (Nat × Nat))
  diagRuns : Nat
  seqDown  : List Nat
deriving DecidableEq, Repr

/-- The device. `pending` is the queue of commands that wait, first in, first out; `out` is what the command executed
last has put out; `free` counts the free values drawn (the model's own field). -/
structure State where
  pending : List Instr
  out     : List Output
  free    : Nat
  dict    : Dict
  lanes   : List (Nat × LaneX)
  ports   : List (Nat × PortX)
  gates   : List (Nat × GateX)
  cores   : List (Nat × CoreX)
  tiles   : List (Nat × TileX)
  lookup  : Lookup
  buf     : Buffer
  buckets : List (Nat × Bucket)
  time    : TimeX
  ledger  : Ledger
  host    : HostX
  irq     : Irq
  faults  : Faults
  sys     : Sys
deriving DecidableEq, Repr

/-- Reasons the device stops. The model raises none of its own: every command the device can take has an effect, a
refusal code of R67 in its answer, or, where its event cannot occur, none. `unpowered` is kept for a step of a device
whose supplies have failed beyond what the spec describes; no meaning of the model answers with it. -/
inductive Fault where
  /-- Raised by no command; safe. -/
  | unpowered
deriving DecidableEq, Repr

/-- Reasons a command is refused. -/
inductive Refusal where
  /-- The command has no meaning in the model yet: answered by an arm of `exec` only; safe. -/
  | notModelled (mnemonic : String)
deriving DecidableEq, Repr

/-! ### Reset -/

def Win.reset : Win := ⟨0, 0, 0, 0, false, 0, 0, [], none⟩
def LaneX.reset : LaneX :=
  ⟨true, false, false, false, false, 0, false, false, 0, 0, false, false, false, 0, false, 0, 0, 0, none, 0, 0, 0⟩
def PortX.reset : PortX :=
  ⟨false, false, [], 0, [], [], [], false, 0, 64 * 1250000000, 0, none, none, 0, none, none, none, false,
   List.replicate 16 none⟩
def GateX.reset : GateX := ⟨none, none, false⟩
def TileX.reset : TileX := ⟨[], [], 7, [], 0, 0, 0, false, none⟩
def EngX.reset : EngX := ⟨[], [], 1, [], []⟩
def Base.reset : Base := ⟨0, 0, 0, 0⟩
def Servo.reset : Servo := ⟨0, 0, 0, 0⟩
def Stream.reset : Stream := ⟨[], 0, []⟩
def ChanX.reset : ChanX :=
  ⟨false, 0, 0, 0, 0, false, false, 0, 0, 0, none, 0, [], none, 0, [], [], [], 0, none, 0, 0, none, none, 0, false, 0, 0⟩
def EngineX.reset : EngineX := ⟨none, 15, 15, 0⟩
def IrqSrc.reset : IrqSrc := ⟨.idle, false, 0⟩
def IrqTgt.reset : IrqTgt := ⟨[], false, false⟩
/-- The bucket of a queue at reset: full at the default burst (R241). -/
def Bucket.reset : Bucket := ⟨16384 * 65536, 0⟩
def Dict.reset : Dict :=
  ⟨[], [], [], [], 0, List.replicate 4 Win.reset, [], [], 0, 0, [], 0, [], [], [], none⟩
def Lookup.reset : Lookup := ⟨[], [], List.replicate 16 EngX.reset, [], [], []⟩
def Buffer.reset : Buffer := ⟨[], [], [], [], 0, 0, [], [], false, [], 0, []⟩
def TimeX.reset : TimeX :=
  ⟨0, List.replicate 8 0, [], List.replicate 8 Base.reset, false, false, [], List.replicate 8 Servo.reset⟩
/-- Both matrix banks hold only zeros at reset, so the inactive one counts as cleared (R299, DEDUCED, log 101). -/
def Ledger.reset : Ledger := ⟨[true, true], Stream.reset, Stream.reset, [], [], 0, [], true, 0, 0, false⟩
/-- The PCI Express fields start as PCI Express Base gives them (log 18, PRESUMED): relaxed ordering on, payload 128, read
request 512 bytes. -/
def HostX.reset : HostX := ⟨[], [], [], [], [], false, false, [], true, 128, 512, false, false, false, false, false, false, false, 0, 0, 0, 0⟩
def Irq.reset : Irq := ⟨[], [], [], 0, [], []⟩
def Faults.reset : Faults := ⟨[], 0, [], [], [], []⟩
/-- Power and boot just after the rising edge of SYS_RESET_N (R389, R394); the flash keeps its contents (R388). -/
def Sys.reset (flash : List (Nat × Nat)) : Sys :=
  ⟨.run, false, .rom, false, none, none, none, flash, [], [], 2, 0, [], 750, 750, 750, false, false, false, false, [], none, [], none, false, none, 0, []⟩

/-- The whole device just after SYS_RESET_N rises, with a given flash (R388, R394). -/
def State.resetWith (flash : List (Nat × Nat)) : State :=
  { pending := [], out := [], free := 0, dict := Dict.reset, lanes := [], ports := [], gates := [], cores := [],
    tiles := [], lookup := Lookup.reset, buf := Buffer.reset, buckets := [], time := TimeX.reset,
    ledger := Ledger.reset, host := HostX.reset, irq := Irq.reset, faults := Faults.reset, sys := Sys.reset flash }

/-- The machine right after reset; the flash lists nothing. -/
def State.reset : State := State.resetWith []

end Sys2Proof.Machine
end

