-- ==== Sys2Proof/Machine/Flags.lean ====
section
/-!
DEFINITION. Sys2Proof/Machine/Flags.lean: the flags of an Ochre core (R132, R135, R136).
-/
namespace Sys2Proof.Machine

/-- CMP and CMPI: Z on equal, C on unsigned lower (R135). -/
def CoreX.compare (x : CoreX) (u v : Nat) : CoreX := { x with z := u == v, c := decide (u < v) }

/-- A Bcc condition (R136): AL, EQ, NE, LO, HS, LS, HI, FS, FC, AS, AC. -/
def CoreX.holds (x : CoreX) (cond : CondCode) : Bool :=
  match cond.val with
  | 0 => true
  | 1 => x.z
  | 2 => !x.z
  | 3 => x.c
  | 4 => !x.c
  | 5 => x.c || x.z
  | 6 => !(x.c || x.z)
  | 7 => x.f
  | 8 => !x.f
  | 9 => x.a
  | _ => !x.a

end Sys2Proof.Machine
end

