-- ==== Sys2Proof/Config.lean ====
section
/-!
DEFINITION. Sys2Proof/Config.lean: what one chip or one laboratory fixes and the manual does not: constants with no body,
so that nothing can be proved of their values.
-/
namespace Sys2Proof.Config

/-- The `k`-th free value: a number the manual says exists but does not give (log 4). -/
opaque freeNat : Nat → Nat

/-- The device secret S of the `k`-th draw (R57, log 4). -/
opaque secret : Nat → List Byte

/-- The ECDSA P-384 check of a firmware image (R390, R391, log 4): the key index, whose public key's hash is fused,
the header bytes the signature covers, the signature. -/
opaque signatureOk : Nat → List Byte → List Byte → Bool

/-- A signing key index that the fuses revoke (R391, log 4). -/
opaque keyRevoked : Nat → Bool

/-- What the device data region of the flash says (R390, R430, log 4): MGMT_MAC of management port 0 and 1, and, for 2,
the base of PORT_MAC; the manual gives the region no layout. -/
opaque deviceMac : List Byte → Nat → Nat

/-- The counter that a word of the counter store holds in the stretches whose inner layout the manual does not give (R293,
log 102): index, instance, sub-index and element of its object. -/
opaque counterAt : Nat → Nat × Nat × Nat × Nat

/-- Whether the vendor's DIAG_UNLOCK data opens a diagnostic session (R10, log 5). -/
opaque diagUnlockAccepts : List Byte → Bool

/-- Byte `k` of what a lane sends in codeword stream `m` in a marker period (R78, log 71). -/
opaque lineByte : Nat → Nat → Nat → Byte

/-- The contents of the vendor objects in a diagnostic session, at an instant (R10, log 5). -/
opaque diagByte : Nat → Nat → Nat → Nat → Byte

end Sys2Proof.Config
end

