-- ==== Sys2Proof/Machine/Bits.lean ====
section
/-!
DEFINITION. Sys2Proof/Machine/Bits.lean: byte strings and numbers (R11), sparse maps in their canonical form, and small
list helpers. Pure functions; nothing here knows the device's state.
-/
namespace Sys2Proof.Machine

/-! ### Sparse maps: keys rising, no entry equal to what an unlisted key reads as -/

variable {κ α β : Type} [DecidableEq κ]

/-- The value at a key; `d` where the key is not listed. -/
def look (d : α) : List (κ × α) → κ → α
  | [], _ => d
  | (k, v) :: r, n => if k = n then v else look d r n

/-- Put a value at its place in a rising list, replacing an entry of that key. -/
def ins (lt : κ → κ → Bool) (n : κ) (v : α) : List (κ × α) → List (κ × α)
  | [] => [(n, v)]
  | (k, w) :: r =>
    if k = n then (n, v) :: r
    else if lt n k then (n, v) :: (k, w) :: r
    else (k, w) :: ins lt n v r

/-- Take a key out of a list. -/
def del (n : κ) (m : List (κ × α)) : List (κ × α) := m.filter fun e => e.1 ≠ n

/-- Write a value, keeping the canonical form: the value an unlisted key reads as is not listed. -/
def put [DecidableEq α] (lt : κ → κ → Bool) (d : α) (n : κ) (v : α) (m : List (κ × α)) : List (κ × α) :=
  if v = d then del n m else ins lt n v m

/-- Keys rise. -/
def rising (lt : κ → κ → Bool) : List (κ × α) → Bool
  | [] => true
  | [_] => true
  | a :: b :: r => lt a.1 b.1 && rising lt (b :: r)

/-- The order of numeric keys. -/
def ltN (a b : Nat) : Bool := decide (a < b)

/-- A numeric map with default `d`, written. -/
def putN [DecidableEq α] (d : α) (n : Nat) (v : α) (m : List (Nat × α)) : List (Nat × α) := put ltN d n v m

/-! ### Lists -/

/-- Slots `0 … n - 1` of a fixed number of like things that `g` gives, slot `k` replaced. -/
def slots (n : Nat) (g : Nat → α) (k : Nat) (v : α) : List α := (List.range n).map fun i => if i = k then v else g i

/-- Insert into a rising list of numbers, once. -/
def insNat (n : Nat) : List Nat → List Nat
  | [] => [n]
  | k :: r => if n = k then k :: r else if n < k then n :: k :: r else k :: insNat n r

/-- Take a number out of a list. -/
def delNat (n : Nat) (l : List Nat) : List Nat := l.filter (· != n)

/-- The lowest number not below `from`, of `count` tried, that satisfies `p`. -/
def firstFrom (p : Nat → Bool) : Nat → Nat → Option Nat
  | _, 0 => none
  | n, c + 1 => if p n then some n else firstFrom p (n + 1) c

/-- The largest number of a list; 0 of an empty one. -/
def maxL (l : List Nat) : Nat := l.foldl max 0
/-- The sum of a list. -/
def sumL (l : List Nat) : Nat := l.foldl (· + ·) 0

/-- Insert by key, after entries of the same key. -/
def insOn (f : β → Nat) (x : β) : List β → List β
  | [] => [x]
  | y :: r => if f x < f y then x :: y :: r else y :: insOn f x r

/-- Sort by key; entries of the same key keep their order. -/
def sortOn (f : β → Nat) (l : List β) : List β := l.foldl (fun a x => insOn f x a) []

/-! ### Bytes -/

/-- The number of a byte. -/
abbrev bn (b : Byte) : Nat := b.toNat
/-- The byte of a number, modulo 256. -/
abbrev nb (n : Nat) : Byte := BitVec.ofNat 8 n

/-- A little-endian number (R11). -/
def leNat : List Byte → Nat
  | [] => 0
  | b :: r => b.toNat + 256 * leNat r

/-- A big-endian number (R11). -/
def beNat (l : List Byte) : Nat := l.foldl (fun a b => a * 256 + b.toNat) 0

/-- `n` little-endian bytes of a number. -/
def leBytes : Nat → Nat → List Byte
  | 0, _ => []
  | n + 1, v => nb v :: leBytes n (v / 256)

/-- `n` big-endian bytes of a number. -/
def beBytes (n v : Nat) : List Byte := (leBytes n v).reverse

/-- `len` bytes at an offset; bytes beyond the end are absent. -/
def slice (l : List Byte) (off len : Nat) : List Byte := (l.drop off).take len

/-- The byte at an offset; 0 beyond the end. -/
def byteAt (l : List Byte) (n : Nat) : Nat := (l.getD n 0).toNat

/-- The big-endian number of `len` bytes at an offset; bytes beyond the end count as 0. -/
def beAt (l : List Byte) (off len : Nat) : Nat :=
  (List.range len).foldl (fun a k => a * 256 + byteAt l (off + k)) 0

/-- The little-endian number of `len` bytes at an offset; bytes beyond the end count as 0. -/
def leAt (l : List Byte) (off len : Nat) : Nat := leNat ((List.range len).map fun k => nb (byteAt l (off + k)))

/-- Overwrite bytes at an offset; the length does not change. -/
def patch (l : List Byte) (off : Nat) (d : List Byte) : List Byte :=
  l.take off ++ (d.take (l.length - off)) ++ l.drop (off + d.length)

/-- Zeros. -/
def zeros (n : Nat) : List Byte := List.replicate n 0

/-- Pad with zeros to a length. -/
def padTo (n : Nat) (l : List Byte) : List Byte := l ++ zeros (n - l.length)

/-- Field [hi:lo] of a number. -/
def bits (v hi lo : Nat) : Nat := v / 2 ^ lo % 2 ^ (hi - lo + 1)

/-- Bit of a number. -/
def bit (v n : Nat) : Bool := v / 2 ^ n % 2 == 1

/-- A number with one bit set or cleared. -/
def withBit (v n : Nat) (b : Bool) : Nat := if bit v n = b then v else if b then v + 2 ^ n else v - 2 ^ n

/-- Numbers below 32 whose bit is set. -/
def bitsOf (v width : Nat) : List Nat := (List.range width).filter (bit v)

/-- How many of the low bits are set. -/
def popcount (v width : Nat) : Nat := (bitsOf v width).length

/-- Two's complement of `w` bits as an integer. -/
def toSigned (w v : Nat) : Int := if v % 2 ^ w < 2 ^ (w - 1) then (v % 2 ^ w : Nat) else (v % 2 ^ w : Nat) - (2 ^ w : Nat)

/-- An integer in two's complement of `w` bits. -/
def ofSigned (w : Nat) (i : Int) : Nat := (i % (2 ^ w : Nat)).toNat

/-- Truth as 0 or 1. -/
def b01 (b : Bool) : Nat := if b then 1 else 0

/-- Floor logarithm of base 2, within 64 bits; 0 for 0. -/
def log2 (n : Nat) : Nat := ((List.range 64).filter fun k => 2 ^ (k + 1) ≤ n).length

end Sys2Proof.Machine
end

