-- ==== Sys2Proof/Machine/Hash.lean ====
section
/-!
DEFINITION. Sys2Proof/Machine/Hash.lean: the check sums and digests the spec computes with: CRC-32 of frames and
images, CRC-32C, the internet checksum, SHA-256 and HMAC-SHA-256 (R57).
-/
namespace Sys2Proof.Machine

/-- One byte of a reflected CRC-32 with the polynomial `poly` (bit reversed). -/
def crcByte (poly : Nat) (crc : Nat) (b : Nat) : Nat :=
  (List.range 8).foldl (fun c _ => if c % 2 = 1 then (c / 2) ^^^ poly else c / 2) (crc ^^^ b)

/-- The CRC register over a byte string, from all ones, before the final inversion. -/
def crcReg (poly : Nat) (l : List Byte) : Nat := l.foldl (fun c b => crcByte poly c b.toNat) 0xFFFFFFFF

/-- CRC-32 of IEEE 802.3 (polynomial 0x04C11DB7, reflected). -/
def crc32 (l : List Byte) : Nat := crcReg 0xEDB88320 l ^^^ 0xFFFFFFFF

/-- CRC-32C (Castagnoli, polynomial 0x1EDC6F41, reflected). -/
def crc32c (l : List Byte) : Nat := crcReg 0x82F63B78 l ^^^ 0xFFFFFFFF

/-- The frame check sequence of a frame's bytes: the CRC-32 sent least significant byte first. -/
def fcs (l : List Byte) : List Byte := leBytes 4 (crc32 l)

/-- A frame that carries a valid frame check sequence. -/
def fcsOk (frame : List Byte) : Bool :=
  decide (4 ≤ frame.length) && (frame.drop (frame.length - 4) == fcs (frame.take (frame.length - 4)))

/-- The one's complement sum of 16-bit big-endian words. -/
def sum16 : List Byte → Nat
  | [] => 0
  | [a] => a.toNat * 256
  | a :: b :: r => a.toNat * 256 + b.toNat + sum16 r

/-- Fold a sum into 16 bits with end-around carry. -/
def fold16 (n : Nat) : Nat := if n = 0 then 0 else (n - 1) % 65535 + 1

/-- The internet checksum. -/
def inetSum (l : List Byte) : Nat := 0xFFFF - fold16 (sum16 l)

/-! ### SHA-256 (R57) and SHA-384, the digest of image bodies (R390)

Both are one scheme over words of 32 or (`wide`) 64 bits; SHA-384 is the wide one's first 48 bytes. -/

def shaBits (wide : Bool) : Nat := if wide then 64 else 32

/-- The first `n` primes, from `k` on; `fuel` numbers are looked at. -/
def primesFrom : Nat → Nat → List Nat
  | 0, _ => []
  | fuel + 1, k => if (List.range 21).all fun d => d < 2 || d == k || k % d != 0 then k :: primesFrom fuel (k + 1)
      else primesFrom fuel (k + 1)

/-- The primes below 410: eighty of them. -/
def shaPrimes : List Nat := primesFrom 408 2

/-- The largest number whose `e + 1`st power is at most `n`, by Newton's method from above. -/
def rootFrom (e n x : Nat) : Nat :=
  (List.range 12).foldl (fun x _ => min x ((e * x + n / x ^ e) / (e + 1))) x

/-- The first bits behind the point of a prime's square root (`e` = 1) or cube root (`e` = 2). -/
def rootBits (wide : Bool) (e p : Nat) : Nat :=
  let b := shaBits wide
  rootFrom e (p * 2 ^ (b * (e + 1))) (2 ^ (b + if e = 1 then 5 else 3)) % 2 ^ b

/-- The round constants: 64 or 80 cube roots. -/
def shaCubes (wide : Bool) : List Nat := (shaPrimes.take (if wide then 80 else 64)).map (rootBits wide 2)

/-- The chaining value at the start: the square roots of primes 1 to 8, or for SHA-384 of primes 9 to 16. -/
def shaStart (wide : Bool) : List Nat := ((shaPrimes.drop (if wide then 8 else 0)).take 8).map (rootBits wide 1)

/-- Rotate a word right. -/
def spin (wide : Bool) (n k : Nat) : Nat := n / 2 ^ k + n % 2 ^ k * 2 ^ (shaBits wide - k)

/-- A word's three rotations, or two and a shift, added bit by bit. -/
def spin3 (wide : Bool) (n : Nat) (k : Nat × Nat × Nat) (shift : Bool) : Nat :=
  spin wide n k.1 ^^^ spin wide n k.2.1 ^^^ (if shift then n / 2 ^ k.2.2 else spin wide n k.2.2)

/-- The next word of a block's schedule, from the words so far, newest first. -/
def shaNext (wide : Bool) (w : List Nat) : Nat :=
  let near := spin3 wide (w.getD 1 0) (if wide then (19, 61, 6) else (17, 19, 10)) true
  let far := spin3 wide (w.getD 14 0) (if wide then (1, 8, 7) else (7, 18, 3)) true
  (near + far + w.getD 6 0 + w.getD 15 0) % 2 ^ shaBits wide

/-- A block's schedule of `n` words beyond its own sixteen. -/
def shaSchedule (wide : Bool) (n : Nat) (block : List Byte) : List Nat :=
  let size := shaBits wide / 8
  let own := (List.range 16).foldl (fun w k => beAt block (size * k) size :: w) []
  ((List.range n).foldl (fun w _ => shaNext wide w :: w) own).reverse

/-- One round over the eight working words: they move down by one, and the fifth and the first take new values. -/
def shaRound (wide : Bool) (v : List Nat) (kw : Nat × Nat) : List Nat :=
  let x := fun n => v.getD n 0
  let pick := (x 4 &&& x 5) ||| (x 6 - (x 6 &&& x 4))
  let most := (x 0 &&& x 1) ||| (x 2 &&& (x 0 ||| x 1))
  let t := x 7 + kw.1 + kw.2 + pick + spin3 wide (x 4) (if wide then (14, 18, 41) else (6, 11, 25)) false
  let u := most + spin3 wide (x 0) (if wide then (28, 34, 39) else (2, 13, 22)) false
  [(t + u) % 2 ^ shaBits wide, x 0, x 1, x 2, (x 3 + t) % 2 ^ shaBits wide, x 4, x 5, x 6]

/-- One block into the chaining value. -/
def shaBlock (wide : Bool) (h : List Nat) (block : List Byte) : List Nat :=
  let ks := shaCubes wide
  let v := (List.zip ks (shaSchedule wide (ks.length - 16) block)).foldl (shaRound wide) h
  (List.range 8).map fun n => (h.getD n 0 + v.getD n 0) % 2 ^ shaBits wide

/-- `n` blocks of a padded message into the chaining value. -/
def shaBlocks (wide : Bool) : Nat → List Byte → List Nat → List Nat
  | 0, _, h => h
  | n + 1, m, h => let size := 2 * shaBits wide; shaBlocks wide n (m.drop size) (shaBlock wide h (m.take size))

/-- The whole digest: a one bit, zeros up to the length field of two words, the length in bits. -/
def shaDigest (wide : Bool) (m : List Byte) : List Byte :=
  let size := 2 * shaBits wide
  let tail := 1 + size / 8
  let whole := (m.length + tail + size - 1) / size * size
  let p := m ++ 0x80 :: zeros (whole - m.length - tail) ++ beBytes (size / 8) (m.length * 8)
  (shaBlocks wide (whole / size) p (shaStart wide)).flatMap (beBytes (shaBits wide / 8))

/-- SHA-256. -/
def sha256 (m : List Byte) : List Byte := shaDigest false m

/-- SHA-384. -/
def sha384 (m : List Byte) : List Byte := (shaDigest true m).take 48

/-- HMAC-SHA-256. -/
def hmac (key m : List Byte) : List Byte :=
  let k := padTo 64 (if 64 < key.length then sha256 key else key)
  let x := fun (c : Byte) => k.map (· ^^^ c)
  sha256 (x 0x5C ++ sha256 (x 0x36 ++ m))

end Sys2Proof.Machine
end

