-- ==== Sys2Proof/Machine/Objects.lean ====
section
/-!
DEFINITION. Sys2Proof/Machine/Objects.lean: the object dictionary's tables (R1, R10, R68, R97, R126, R153, R194, R230,
R259, R286, R317, R350, R370, R385, R406): every object's address, type, access right, size, instances, commit group
and range, and its default.
-/
namespace Sys2Proof.Machine

/-- The types of R37. -/
inductive OType where
  | u8 | u16 | u32 | u64 | i32 | bool | enum | bits32 | time96 | string | blob | table | cmd
deriving DecidableEq, Repr

/-- The access rights of R40. -/
inductive Access where
  | ro | rw | rws | wo | rc | w1c | cmd
deriving DecidableEq, Repr

/-- Which instances an object has (R34: an instance exists only if the resource behind it exists). -/
inductive Insts where
  | upto (n : Nat)     -- 0 to n - 1
  | ports              -- ports of the active map (R98)
  | queues             -- port queues of those ports, host and mirror queues (R230)
  | schedQueues        -- port queues of those ports and mirror queues (R232)
  | hostQueues         -- 8,192-8,319
  | groups             -- commit groups some object names (R68, R429)
  | sources            -- interrupt sources of the source tables and software sources (R383)
  | faultSources       -- sources of class F or W (R385)
deriving DecidableEq, Repr

/-- The commit group an object names (R41). -/
inductive Grp where
  | none
  | base (g div : Nat)  -- group g + instance / div
  | queueSched          -- R258
deriving DecidableEq, Repr

/-- One row of an object table. `size` is the bytes of a BLOB or STRING, the rows of a TABLE, the largest data of a
CMD; `el` is the bytes of one stored element. -/
structure ObjRow where
  idx   : Nat
  subLo : Nat
  subHi : Nat
  ty    : OType
  acc   : Access
  size  : Nat
  el    : Nat
  insts : Insts
  grp   : Grp
  rng   : List (Int × Int)
deriving DecidableEq, Repr

namespace O

/-- `#0001.00` IDENT_LAST (R1). -/
abbrev IDENT_LAST : Ref := ⟨0x0001, 0, 0⟩
/-- `#0001.01` DEVICE_NAME (R1). -/
abbrev DEVICE_NAME : Ref := ⟨0x0001, 0, 1⟩
/-- `#0001.02` FAMILY_CODE (R1). -/
abbrev FAMILY_CODE : Ref := ⟨0x0001, 0, 2⟩
/-- `#0001.03` SILICON_REV (R1). -/
abbrev SILICON_REV : Ref := ⟨0x0001, 0, 3⟩
/-- `#E000.01` DIAG_STATE (R10). -/
abbrev DIAG_STATE : Ref := ⟨0xE000, 0, 1⟩
/-- `#E000.02` DIAG_UNLOCK (R10). -/
abbrev DIAG_UNLOCK : Ref := ⟨0xE000, 0, 2⟩
/-- `#E010[t].01` TILE_TRACE (R10). -/
abbrev TILE_TRACE (n : Nat) : Ref := ⟨0xE010, n, 1⟩
/-- `#E020[b].01` BANK_SEQ_TRACE (R10). -/
abbrev BANK_SEQ_TRACE (n : Nat) : Ref := ⟨0xE020, n, 1⟩
/-- `#E030[k].01` BUF_BANK_MARGIN (R10). -/
abbrev BUF_BANK_MARGIN (n : Nat) : Ref := ⟨0xE030, n, 1⟩
/-- `#E040[x].01` TSTORE_MARGIN (R10). -/
abbrev TSTORE_MARGIN (n : Nat) : Ref := ⟨0xE040, n, 1⟩
/-- `#E050.01` FUSE_IMAGE (R10). -/
abbrev FUSE_IMAGE : Ref := ⟨0xE050, 0, 1⟩
/-- `#E060[s].01` SLATE_TRACE (R10). -/
abbrev SLATE_TRACE (n : Nat) : Ref := ⟨0xE060, n, 1⟩
/-- `#1000[m].01` MGMT_ENABLE (R68). -/
abbrev MGMT_ENABLE (n : Nat) : Ref := ⟨0x1000, n, 1⟩
/-- `#1000[m].02` MGMT_MODE (R68). -/
abbrev MGMT_MODE (n : Nat) : Ref := ⟨0x1000, n, 2⟩
/-- `#1000[m].03` MGMT_MAC (R68). -/
abbrev MGMT_MAC (n : Nat) : Ref := ⟨0x1000, n, 3⟩
/-- `#1001[m].01` IPV4_ADDR (R68). -/
abbrev IPV4_ADDR (n : Nat) : Ref := ⟨0x1001, n, 1⟩
/-- `#1001[m].02` IPV4_PREFIX (R68). -/
abbrev IPV4_PREFIX (n : Nat) : Ref := ⟨0x1001, n, 2⟩
/-- `#1001[m].03` IPV4_GATEWAY (R68). -/
abbrev IPV4_GATEWAY (n : Nat) : Ref := ⟨0x1001, n, 3⟩
/-- `#1002[m].01` IPV6_ADDR (R68). -/
abbrev IPV6_ADDR (n : Nat) : Ref := ⟨0x1002, n, 1⟩
/-- `#1002[m].02` IPV6_PREFIX (R68). -/
abbrev IPV6_PREFIX (n : Nat) : Ref := ⟨0x1002, n, 2⟩
/-- `#1002[m].03` IPV6_GATEWAY (R68). -/
abbrev IPV6_GATEWAY (n : Nat) : Ref := ⟨0x1002, n, 3⟩
/-- `#1010.01` BOLSY_UDP_PORT (R68). -/
abbrev BOLSY_UDP_PORT : Ref := ⟨0x1010, 0, 1⟩
/-- `#1010.02` IDLE_DEFAULT (R68). -/
abbrev IDLE_DEFAULT : Ref := ⟨0x1010, 0, 2⟩
/-- `#1010.03` HELLO_RATE (R68). -/
abbrev HELLO_RATE : Ref := ⟨0x1010, 0, 3⟩
/-- `#1010.04` LEASE_MAX (R68). -/
abbrev LEASE_MAX : Ref := ⟨0x1010, 0, 4⟩
/-- `#1011[i].01` MANAGER_ENABLE (R68). -/
abbrev MANAGER_ENABLE (n : Nat) : Ref := ⟨0x1011, n, 1⟩
/-- `#1011[i].02` MANAGER_KEY (R68). -/
abbrev MANAGER_KEY (n : Nat) : Ref := ⟨0x1011, n, 2⟩
/-- `#1020[s].01` SESSION_STATE (R68). -/
abbrev SESSION_STATE (n : Nat) : Ref := ⟨0x1020, n, 1⟩
/-- `#1020[s].02` SESSION_MANAGER (R68). -/
abbrev SESSION_MANAGER (n : Nat) : Ref := ⟨0x1020, n, 2⟩
/-- `#1020[s].03` SESSION_HIGHEST (R68). -/
abbrev SESSION_HIGHEST (n : Nat) : Ref := ⟨0x1020, n, 3⟩
/-- `#1020[s].04` SESSION_IDLE_LEFT (R68). -/
abbrev SESSION_IDLE_LEFT (n : Nat) : Ref := ⟨0x1020, n, 4⟩
/-- `#1020[s].05` SESSION_CLOSE (R68). -/
abbrev SESSION_CLOSE (n : Nat) : Ref := ⟨0x1020, n, 5⟩
/-- `#1030.01`-`.09` BOLSY_DROPS (R68). -/
abbrev BOLSY_DROPS (k : Nat) : Ref := ⟨0x1030, 0, k⟩
/-- `#1040[a].01` LEASE_HOLDER (R68). -/
abbrev LEASE_HOLDER (n : Nat) : Ref := ⟨0x1040, n, 1⟩
/-- `#1040[a].02` LEASE_LEFT (R68). -/
abbrev LEASE_LEFT (n : Nat) : Ref := ⟨0x1040, n, 2⟩
/-- `#1050[g].01` GROUP_STATE (R68). -/
abbrev GROUP_STATE (n : Nat) : Ref := ⟨0x1050, n, 1⟩
/-- `#1050[g].02` GROUP_EPOCH (R68). -/
abbrev GROUP_EPOCH (n : Nat) : Ref := ⟨0x1050, n, 2⟩
/-- `#1050[g].03` GROUP_OLD_PACKETS (R68). -/
abbrev GROUP_OLD_PACKETS (n : Nat) : Ref := ⟨0x1050, n, 3⟩
/-- `#1050[g].04` GROUP_LAST_ERROR (R68). -/
abbrev GROUP_LAST_ERROR (n : Nat) : Ref := ⟨0x1050, n, 4⟩
/-- `#1050[g].05` GROUP_SHADOW_DIRTY (R68). -/
abbrev GROUP_SHADOW_DIRTY (n : Nat) : Ref := ⟨0x1050, n, 5⟩
/-- `#2000[b].01` BANK_STATE (R97). -/
abbrev BANK_STATE (n : Nat) : Ref := ⟨0x2000, n, 1⟩
/-- `#2000[b].02` TX_REF_SELECT (R97). -/
abbrev TX_REF_SELECT (n : Nat) : Ref := ⟨0x2000, n, 2⟩
/-- `#2000[b].03` REF_FAILOVER (R97). -/
abbrev REF_FAILOVER (n : Nat) : Ref := ⟨0x2000, n, 3⟩
/-- `#2000[b].04` TX_REF_ACTIVE (R97). -/
abbrev TX_REF_ACTIVE (n : Nat) : Ref := ⟨0x2000, n, 4⟩
/-- `#2000[b].05` AUTO_RETRAIN (R97). -/
abbrev AUTO_RETRAIN (n : Nat) : Ref := ⟨0x2000, n, 5⟩
/-- `#2001[n].01` REF_HEALTHY (R97). -/
abbrev REF_HEALTHY (n : Nat) : Ref := ⟨0x2001, n, 1⟩
/-- `#2001[n].02` REF_FREQ_ERR (R97). -/
abbrev REF_FREQ_ERR (n : Nat) : Ref := ⟨0x2001, n, 2⟩
/-- `#2001[n].03` REF_LOSS_COUNT (R97). -/
abbrev REF_LOSS_COUNT (n : Nat) : Ref := ⟨0x2001, n, 3⟩
/-- `#2100[l].01` LANE_MODE (R97). -/
abbrev LANE_MODE (n : Nat) : Ref := ⟨0x2100, n, 1⟩
/-- `#2100[l].02` TRAIN_ENABLE (R97). -/
abbrev TRAIN_ENABLE (n : Nat) : Ref := ⟨0x2100, n, 2⟩
/-- `#2100[l].03` RX_INVERT (R97). -/
abbrev RX_INVERT (n : Nat) : Ref := ⟨0x2100, n, 3⟩
/-- `#2100[l].04` TX_INVERT (R97). -/
abbrev TX_INVERT (n : Nat) : Ref := ⟨0x2100, n, 4⟩
/-- `#2100[l].05` PRECODE (R97). -/
abbrev PRECODE (n : Nat) : Ref := ⟨0x2100, n, 5⟩
/-- `#2100[l].06` PORT_CHECK_TAG (R97). -/
abbrev PORT_CHECK_TAG (n : Nat) : Ref := ⟨0x2100, n, 6⟩
/-- `#2101[l].01` STAGE (R97). -/
abbrev STAGE (n : Nat) : Ref := ⟨0x2101, n, 1⟩
/-- `#2101[l].02` RATE_ACTIVE (R97). -/
abbrev RATE_ACTIVE (n : Nat) : Ref := ⟨0x2101, n, 2⟩
/-- `#2101[l].03` TRAIN_PHASE (R97). -/
abbrev TRAIN_PHASE (n : Nat) : Ref := ⟨0x2101, n, 3⟩
/-- `#2101[l].04` LAST_EXIT (R97). -/
abbrev LAST_EXIT (n : Nat) : Ref := ⟨0x2101, n, 4⟩
/-- `#2101[l].05` RETRAIN (R97). -/
abbrev RETRAIN (n : Nat) : Ref := ⟨0x2101, n, 5⟩
/-- `#2101[l].06` PARTNER_CAPS (R97). -/
abbrev PARTNER_CAPS (n : Nat) : Ref := ⟨0x2101, n, 6⟩
/-- `#2101[l].07` SKEW_PS (R97). -/
abbrev SKEW_PS (n : Nat) : Ref := ⟨0x2101, n, 7⟩
/-- `#2101[l].08` FROZEN (R97). -/
abbrev FROZEN (n : Nat) : Ref := ⟨0x2101, n, 8⟩
/-- `#2102[l].01`-`.06` LANE_EVENTS (R97). -/
abbrev LANE_EVENTS (n : Nat) (k : Nat) : Ref := ⟨0x2102, n, k⟩
/-- `#2110[l].01` TX_FIR (R97). -/
abbrev TX_FIR (n : Nat) : Ref := ⟨0x2110, n, 1⟩
/-- `#2110[l].02` TX_FIR_INIT (R97). -/
abbrev TX_FIR_INIT (n : Nat) : Ref := ⟨0x2110, n, 2⟩
/-- `#2110[l].03` TX_FIR_MODE (R97). -/
abbrev TX_FIR_MODE (n : Nat) : Ref := ⟨0x2110, n, 3⟩
/-- `#2120[l].01` FFE_TAPS (R97). -/
abbrev FFE_TAPS (n : Nat) : Ref := ⟨0x2120, n, 1⟩
/-- `#2120[l].02` FFE_CURSOR (R97). -/
abbrev FFE_CURSOR (n : Nat) : Ref := ⟨0x2120, n, 2⟩
/-- `#2120[l].03` FFE_BOUND (R97). -/
abbrev FFE_BOUND (n : Nat) : Ref := ⟨0x2120, n, 3⟩
/-- `#2120[l].04` DFE_TAP (R97). -/
abbrev DFE_TAP (n : Nat) : Ref := ⟨0x2120, n, 4⟩
/-- `#2120[l].05` DFE_BOUND (R97). -/
abbrev DFE_BOUND (n : Nat) : Ref := ⟨0x2120, n, 5⟩
/-- `#2120[l].06` SEQDET_ENABLE (R97). -/
abbrev SEQDET_ENABLE (n : Nat) : Ref := ⟨0x2120, n, 6⟩
/-- `#2120[l].07` SEQDET_CORRECTIONS (R97). -/
abbrev SEQDET_CORRECTIONS (n : Nat) : Ref := ⟨0x2120, n, 7⟩
/-- `#2120[l].08` ADAPT_ENABLE (R97). -/
abbrev ADAPT_ENABLE (n : Nat) : Ref := ⟨0x2120, n, 8⟩
/-- `#2120[l].09` FFE_LOAD (R97). -/
abbrev FFE_LOAD (n : Nat) : Ref := ⟨0x2120, n, 9⟩
/-- `#2120[l].0A` SNR (R97). -/
abbrev SNR (n : Nat) : Ref := ⟨0x2120, n, 10⟩
/-- `#2120[l].0B` CLAMP_COUNT (R97). -/
abbrev CLAMP_COUNT (n : Nat) : Ref := ⟨0x2120, n, 11⟩
/-- `#2130[l].01` LOS_ASSERT_MV (R97). -/
abbrev LOS_ASSERT_MV (n : Nat) : Ref := ⟨0x2130, n, 1⟩
/-- `#2130[l].02` LOS_DEASSERT_MV (R97). -/
abbrev LOS_DEASSERT_MV (n : Nat) : Ref := ⟨0x2130, n, 2⟩
/-- `#2140[l].01` FREEZE_ENABLE (R97). -/
abbrev FREEZE_ENABLE (n : Nat) : Ref := ⟨0x2140, n, 1⟩
/-- `#2140[l].02` FREEZE_AFTER_US (R97). -/
abbrev FREEZE_AFTER_US (n : Nat) : Ref := ⟨0x2140, n, 2⟩
/-- `#2140[l].03` THAW_AFTER_US (R97). -/
abbrev THAW_AFTER_US (n : Nat) : Ref := ⟨0x2140, n, 3⟩
/-- `#2140[l].04` VARIETY_MIN (R97). -/
abbrev VARIETY_MIN (n : Nat) : Ref := ⟨0x2140, n, 4⟩
/-- `#2150[l].01` EYE_SCAN (R97). -/
abbrev EYE_SCAN (n : Nat) : Ref := ⟨0x2150, n, 1⟩
/-- `#2150[l].02` EYE_RESULT (R97). -/
abbrev EYE_RESULT (n : Nat) : Ref := ⟨0x2150, n, 2⟩
/-- `#3000[t].01` PORT_MAP (R126). -/
abbrev PORT_MAP (n : Nat) : Ref := ⟨0x3000, n, 1⟩
/-- `#3001[p].01` PORT_STATE (R126). -/
abbrev PORT_STATE (n : Nat) : Ref := ⟨0x3001, n, 1⟩
/-- `#3001[p].02` SPEED_ACTIVE (R126). -/
abbrev SPEED_ACTIVE (n : Nat) : Ref := ⟨0x3001, n, 2⟩
/-- `#3001[p].03` FEC_ACTIVE (R126). -/
abbrev FEC_ACTIVE (n : Nat) : Ref := ⟨0x3001, n, 3⟩
/-- `#3001[p].04` LINK_CHANGES (R126). -/
abbrev LINK_CHANGES (n : Nat) : Ref := ⟨0x3001, n, 4⟩
/-- `#3001[p].05` LAST_DOWN_CAUSE (R126). -/
abbrev LAST_DOWN_CAUSE (n : Nat) : Ref := ⟨0x3001, n, 5⟩
/-- `#3002[p].01` ADMIN_UP (R126). -/
abbrev ADMIN_UP (n : Nat) : Ref := ⟨0x3002, n, 1⟩
/-- `#3002[p].02` FEC_MODE (R126). -/
abbrev FEC_MODE (n : Nat) : Ref := ⟨0x3002, n, 2⟩
/-- `#3002[p].03` SUBRATE_10G (R126). -/
abbrev SUBRATE_10G (n : Nat) : Ref := ⟨0x3002, n, 3⟩
/-- `#3002[p].04` MAX_FRAME (R126). -/
abbrev MAX_FRAME (n : Nat) : Ref := ⟨0x3002, n, 4⟩
/-- `#3002[p].05` DOWN_HOLD_MS (R126). -/
abbrev DOWN_HOLD_MS (n : Nat) : Ref := ⟨0x3002, n, 5⟩
/-- `#3002[p].06` FLUSH_ON_DOWN (R126). -/
abbrev FLUSH_ON_DOWN (n : Nat) : Ref := ⟨0x3002, n, 6⟩
/-- `#3002[p].07` PORT_MAC (R126). -/
abbrev PORT_MAC (n : Nat) : Ref := ⟨0x3002, n, 7⟩
/-- `#3010[p].00` CUT_THROUGH (R126). -/
abbrev CUT_THROUGH (n : Nat) : Ref := ⟨0x3010, n, 0⟩
/-- `#3020[p].01`-`.03` FEC_COUNTS (R126). -/
abbrev FEC_COUNTS (n : Nat) (k : Nat) : Ref := ⟨0x3020, n, k⟩
/-- `#3020[p].04` FEC_HISTOGRAM (R126). -/
abbrev FEC_HISTOGRAM (n : Nat) : Ref := ⟨0x3020, n, 4⟩
/-- `#3020[p].05` DEGRADE_LIMIT (R126). -/
abbrev DEGRADE_LIMIT (n : Nat) : Ref := ⟨0x3020, n, 5⟩
/-- `#3020[p].06` FEC_DEGRADED (R126). -/
abbrev FEC_DEGRADED (n : Nat) : Ref := ⟨0x3020, n, 6⟩
/-- `#3021[p].01`-`.0D` MAC_COUNTS (R126). -/
abbrev MAC_COUNTS (n : Nat) (k : Nat) : Ref := ⟨0x3021, n, k⟩
/-- `#3030[p].01` FLOW_CTRL (R126). -/
abbrev FLOW_CTRL (n : Nat) : Ref := ⟨0x3030, n, 1⟩
/-- `#3030[p].02` PFC_PRIORITIES (R126). -/
abbrev PFC_PRIORITIES (n : Nat) : Ref := ⟨0x3030, n, 2⟩
/-- `#3030[p].03` PFC_QUEUES_LO (R126). -/
abbrev PFC_QUEUES_LO (n : Nat) : Ref := ⟨0x3030, n, 3⟩
/-- `#3030[p].04` PFC_QUEUES_HI (R126). -/
abbrev PFC_QUEUES_HI (n : Nat) : Ref := ⟨0x3030, n, 4⟩
/-- `#3030[p].05` XOFF_QUANTA (R126). -/
abbrev XOFF_QUANTA (n : Nat) : Ref := ⟨0x3030, n, 5⟩
/-- `#3030[p].06` WATCHDOG_MS (R126). -/
abbrev WATCHDOG_MS (n : Nat) : Ref := ⟨0x3030, n, 6⟩
/-- `#3030[p].07` RECOVER_MS (R126). -/
abbrev RECOVER_MS (n : Nat) : Ref := ⟨0x3030, n, 7⟩
/-- `#3031[p].01`-`.02` PAUSE_COUNTS (R126). -/
abbrev PAUSE_COUNTS (n : Nat) (k : Nat) : Ref := ⟨0x3031, n, k⟩
/-- `#3031[p].03`-`.04` PFC_COUNTS (R126). -/
abbrev PFC_COUNTS (n : Nat) (k : Nat) : Ref := ⟨0x3031, n, k⟩
/-- `#3031[p].05` WATCHDOG_TRIPS (R126). -/
abbrev WATCHDOG_TRIPS (n : Nat) : Ref := ⟨0x3031, n, 5⟩
/-- `#3031[p].06` PAUSED_NOW (R126). -/
abbrev PAUSED_NOW (n : Nat) : Ref := ⟨0x3031, n, 6⟩
/-- `#3040[p].01` PREEMPT_ENABLE (R126). -/
abbrev PREEMPT_ENABLE (n : Nat) : Ref := ⟨0x3040, n, 1⟩
/-- `#3040[p].02` PREEMPT_QUEUES (R126). -/
abbrev PREEMPT_QUEUES (n : Nat) : Ref := ⟨0x3040, n, 2⟩
/-- `#3040[p].03` ADD_FRAG_SIZE (R126). -/
abbrev ADD_FRAG_SIZE (n : Nat) : Ref := ⟨0x3040, n, 3⟩
/-- `#3040[p].04` VERIFY_DISABLE (R126). -/
abbrev VERIFY_DISABLE (n : Nat) : Ref := ⟨0x3040, n, 4⟩
/-- `#3040[p].05` VERIFY_TIME_MS (R126). -/
abbrev VERIFY_TIME_MS (n : Nat) : Ref := ⟨0x3040, n, 5⟩
/-- `#3040[p].06` VERIFY_STATUS (R126). -/
abbrev VERIFY_STATUS (n : Nat) : Ref := ⟨0x3040, n, 6⟩
/-- `#3040[p].07` PREEMPT_ACTIVE (R126). -/
abbrev PREEMPT_ACTIVE (n : Nat) : Ref := ⟨0x3040, n, 7⟩
/-- `#3041[p].01`-`.09` PREEMPT_COUNTS (R126). -/
abbrev PREEMPT_COUNTS (n : Nat) (k : Nat) : Ref := ⟨0x3041, n, k⟩
/-- `#3060[p].01` MEMBER_ID (R126). -/
abbrev MEMBER_ID (n : Nat) : Ref := ⟨0x3060, n, 1⟩
/-- `#3060[p].02` SA_LOCK (R126). -/
abbrev SA_LOCK (n : Nat) : Ref := ⟨0x3060, n, 2⟩
/-- `#3060[p].03` ETHERTYPE_ALLOW (R126). -/
abbrev ETHERTYPE_ALLOW (n : Nat) : Ref := ⟨0x3060, n, 3⟩
/-- `#3060[p].04` BCAST_POLICY (R126). -/
abbrev BCAST_POLICY (n : Nat) : Ref := ⟨0x3060, n, 4⟩
/-- `#3060[p].05` BCAST_RATE_PPS (R126). -/
abbrev BCAST_RATE_PPS (n : Nat) : Ref := ⟨0x3060, n, 5⟩
/-- `#3060[p].06` L2CP_ACTION (R126). -/
abbrev L2CP_ACTION (n : Nat) : Ref := ⟨0x3060, n, 6⟩
/-- `#3060[p].07` L2CP_HOST_QUEUE (R126). -/
abbrev L2CP_HOST_QUEUE (n : Nat) : Ref := ⟨0x3060, n, 7⟩
/-- `#3061[p].01`-`.05` FILTER_COUNTS (R126). -/
abbrev FILTER_COUNTS (n : Nat) (k : Nat) : Ref := ⟨0x3061, n, k⟩
/-- `#4000[t].01` PARSE_BUDGET (R153). -/
abbrev PARSE_BUDGET (n : Nat) : Ref := ⟨0x4000, n, 1⟩
/-- `#4000[t].02` OVERRUN_ACTION (R153). -/
abbrev OVERRUN_ACTION (n : Nat) : Ref := ⟨0x4000, n, 2⟩
/-- `#4000[t].03` ENTRY_POINT (R153). -/
abbrev ENTRY_POINT (n : Nat) : Ref := ⟨0x4000, n, 3⟩
/-- `#4000[t].04` HASH_SEED (R153). -/
abbrev HASH_SEED (n : Nat) : Ref := ⟨0x4000, n, 4⟩
/-- `#4000[t].05` PROGRAM_LENGTH (R153). -/
abbrev PROGRAM_LENGTH (n : Nat) : Ref := ⟨0x4000, n, 5⟩
/-- `#4000[t].06` AMBER_IMAGE (R153). -/
abbrev AMBER_IMAGE (n : Nat) : Ref := ⟨0x4000, n, 6⟩
/-- `#4001[t].01` PROGRAM (R153). -/
abbrev PROGRAM (n : Nat) : Ref := ⟨0x4001, n, 1⟩
/-- `#4001[t].02` PROGRAM_CRC (R153). -/
abbrev PROGRAM_CRC (n : Nat) : Ref := ⟨0x4001, n, 2⟩
/-- `#4010[t].01`-`.0D` PARSE_COUNTS (R153). -/
abbrev PARSE_COUNTS (n : Nat) (k : Nat) : Ref := ⟨0x4010, n, k⟩
/-- `#4011[t].01` LAST_EXCEPTION (R153). -/
abbrev LAST_EXCEPTION (n : Nat) : Ref := ⟨0x4011, n, 1⟩
/-- `#4011[t].02` MAX_CHARGED (R153). -/
abbrev MAX_CHARGED (n : Nat) : Ref := ⟨0x4011, n, 2⟩
/-- `#4011[t].03` EXCEPTION_KINDS (R153). -/
abbrev EXCEPTION_KINDS (n : Nat) : Ref := ⟨0x4011, n, 3⟩
/-- `#4012[t].01` COST_BIN (R153). -/
abbrev COST_BIN (n : Nat) : Ref := ⟨0x4012, n, 1⟩
/-- `#4012[t].02` COST_HISTOGRAM (R153). -/
abbrev COST_HISTOGRAM (n : Nat) : Ref := ⟨0x4012, n, 2⟩
/-- `#4013[t].01` AMBER_GROUP_HITS (R153). -/
abbrev AMBER_GROUP_HITS (n : Nat) : Ref := ⟨0x4013, n, 1⟩
/-- `#4200[t].01` AMBER_IMAGE_0 (R153). -/
abbrev AMBER_IMAGE_0 (n : Nat) : Ref := ⟨0x4200, n, 1⟩
/-- `#4200[t].02` AMBER_IMAGE_1 (R153). -/
abbrev AMBER_IMAGE_1 (n : Nat) : Ref := ⟨0x4200, n, 2⟩
/-- `#4020[p].01`-`.04` PORT_PARSE_COUNTS (R153). -/
abbrev PORT_PARSE_COUNTS (n : Nat) (k : Nat) : Ref := ⟨0x4020, n, k⟩
/-- `#5000[n].01` TABLE_KIND (R194). -/
abbrev TABLE_KIND (n : Nat) : Ref := ⟨0x5000, n, 1⟩
/-- `#5000[n].02` TABLE_BASE (R194). -/
abbrev TABLE_BASE (n : Nat) : Ref := ⟨0x5000, n, 2⟩
/-- `#5000[n].03` TABLE_SIZE (R194). -/
abbrev TABLE_SIZE (n : Nat) : Ref := ⟨0x5000, n, 3⟩
/-- `#5000[n].04` KEY_BYTES (R194). -/
abbrev KEY_BYTES (n : Nat) : Ref := ⟨0x5000, n, 4⟩
/-- `#5000[n].05` SEED1 (R194). -/
abbrev SEED1 (n : Nat) : Ref := ⟨0x5000, n, 5⟩
/-- `#5000[n].06` SEED2 (R194). -/
abbrev SEED2 (n : Nat) : Ref := ⟨0x5000, n, 6⟩
/-- `#5000[n].07` PROTECTED (R194). -/
abbrev PROTECTED (n : Nat) : Ref := ⟨0x5000, n, 7⟩
/-- `#5000[n].08` EVICT (R194). -/
abbrev EVICT (n : Nat) : Ref := ⟨0x5000, n, 8⟩
/-- `#5000[n].09` INDIRECT (R194). -/
abbrev INDIRECT (n : Nat) : Ref := ⟨0x5000, n, 9⟩
/-- `#5000[n].0A` REFRESH (R194). -/
abbrev REFRESH (n : Nat) : Ref := ⟨0x5000, n, 10⟩
/-- `#5001[n].01` LPM_REGIONS (R194). -/
abbrev LPM_REGIONS (n : Nat) : Ref := ⟨0x5001, n, 1⟩
/-- `#5002[n].01` AGE_TICK (R194). -/
abbrev AGE_TICK (n : Nat) : Ref := ⟨0x5002, n, 1⟩
/-- `#5002[n].02` AGE_LIMIT (R194). -/
abbrev AGE_LIMIT (n : Nat) : Ref := ⟨0x5002, n, 2⟩
/-- `#5002[n].03` AGE_ACTION (R194). -/
abbrev AGE_ACTION (n : Nat) : Ref := ⟨0x5002, n, 3⟩
/-- `#5002[n].04` SCAN_RATE (R194). -/
abbrev SCAN_RATE (n : Nat) : Ref := ⟨0x5002, n, 4⟩
/-- `#5002[n].05` AGE_CLOCK (R194). -/
abbrev AGE_CLOCK (n : Nat) : Ref := ⟨0x5002, n, 5⟩
/-- `#5003[n].01` TABLE_STATE (R194). -/
abbrev TABLE_STATE (n : Nat) : Ref := ⟨0x5003, n, 1⟩
/-- `#5003[n].02` TABLE_DATA (R194). -/
abbrev TABLE_DATA (n : Nat) : Ref := ⟨0x5003, n, 2⟩
/-- `#5003[n].03` OVERFLOW_LIST (R194). -/
abbrev OVERFLOW_LIST (n : Nat) : Ref := ⟨0x5003, n, 3⟩
/-- `#5003[n].04` ENTRY_OP (R194). -/
abbrev ENTRY_OP (n : Nat) : Ref := ⟨0x5003, n, 4⟩
/-- `#5003[n].05` ENTRIES (R194). -/
abbrev ENTRIES (n : Nat) : Ref := ⟨0x5003, n, 5⟩
/-- `#5004[n].01`-`.0D` TABLE_COUNTS (R194). -/
abbrev TABLE_COUNTS (n : Nat) (k : Nat) : Ref := ⟨0x5004, n, k⟩
/-- `#5004[n].0E` DEPTH_HISTOGRAM (R194). -/
abbrev DEPTH_HISTOGRAM (n : Nat) : Ref := ⟨0x5004, n, 14⟩
/-- `#5004[n].0F` STASH_WAITS (R194). -/
abbrev STASH_WAITS (n : Nat) : Ref := ⟨0x5004, n, 15⟩
/-- `#5100[t].01` PLAN (R194). -/
abbrev PLAN (n : Nat) : Ref := ⟨0x5100, n, 1⟩
/-- `#5100[t].02` MAM_KEY_SELECT (R194). -/
abbrev MAM_KEY_SELECT (n : Nat) : Ref := ⟨0x5100, n, 2⟩
/-- `#5100[t].03` MAM_PRECEDENCE (R194). -/
abbrev MAM_PRECEDENCE (n : Nat) : Ref := ⟨0x5100, n, 3⟩
/-- `#5100[t].04` MAM_SPLIT (R194). -/
abbrev MAM_SPLIT (n : Nat) : Ref := ⟨0x5100, n, 4⟩
/-- `#5100[t].05` MAM_HALF (R194). -/
abbrev MAM_HALF (n : Nat) : Ref := ⟨0x5100, n, 5⟩
/-- `#5100[t].06` MAM_SHARED (R194). -/
abbrev MAM_SHARED (n : Nat) : Ref := ⟨0x5100, n, 6⟩
/-- `#5100[t].07` MAM_FAULT_ACTION (R194). -/
abbrev MAM_FAULT_ACTION (n : Nat) : Ref := ⟨0x5100, n, 7⟩
/-- `#5100[t].08` MISS_HOST_QUEUE (R194). -/
abbrev MISS_HOST_QUEUE (n : Nat) : Ref := ⟨0x5100, n, 8⟩
/-- `#5101[t].01` MAM_IMAGE (R194). -/
abbrev MAM_IMAGE (n : Nat) : Ref := ⟨0x5101, n, 1⟩
/-- `#5101[t].02` MAM_HITS (R194). -/
abbrev MAM_HITS (n : Nat) : Ref := ⟨0x5101, n, 2⟩
/-- `#5102.01` MAM_BROADCAST (R194). -/
abbrev MAM_BROADCAST : Ref := ⟨0x5102, 0, 1⟩
/-- `#5103[t].01`-`.06` MATCH_COUNTS (R194). -/
abbrev MATCH_COUNTS (n : Nat) (k : Nat) : Ref := ⟨0x5103, n, k⟩
/-- `#5200.01` SUPPRESS_US (R194). -/
abbrev SUPPRESS_US : Ref := ⟨0x5200, 0, 1⟩
/-- `#5200.02` LEARN_TIME_BASE (R194). -/
abbrev LEARN_TIME_BASE : Ref := ⟨0x5200, 0, 2⟩
/-- `#5200.03` LEARN_CHANNEL (R194). -/
abbrev LEARN_CHANNEL : Ref := ⟨0x5200, 0, 3⟩
/-- `#5200.04` LEARN_SEQ (R194). -/
abbrev LEARN_SEQ : Ref := ⟨0x5200, 0, 4⟩
/-- `#5200.05` CACHE_ENTRIES (R194). -/
abbrev CACHE_ENTRIES : Ref := ⟨0x5200, 0, 5⟩
/-- `#5200.06` PALE_FLOOD_GROUP (R194). -/
abbrev PALE_FLOOD_GROUP : Ref := ⟨0x5200, 0, 6⟩
/-- `#5200.07` CACHE_FLUSH (R194). -/
abbrev CACHE_FLUSH : Ref := ⟨0x5200, 0, 7⟩
/-- `#5201.01`-`.08` LEARN_COUNTS (R194). -/
abbrev LEARN_COUNTS (k : Nat) : Ref := ⟨0x5201, 0, k⟩
/-- `#5300[p].01` LEARN_PORT (R194). -/
abbrev LEARN_PORT (n : Nat) : Ref := ⟨0x5300, n, 1⟩
/-- `#6000.01` BANK_SPARE (R230). -/
abbrev BANK_SPARE : Ref := ⟨0x6000, 0, 1⟩
/-- `#6000.02` HOST_ARRIVAL_CELLS (R230). -/
abbrev HOST_ARRIVAL_CELLS : Ref := ⟨0x6000, 0, 2⟩
/-- `#6000.03` CARVED (R230). -/
abbrev CARVED : Ref := ⟨0x6000, 0, 3⟩
/-- `#6000.04` CELLS_AVAILABLE (R230). -/
abbrev CELLS_AVAILABLE : Ref := ⟨0x6000, 0, 4⟩
/-- `#6000.05` CELLS_FREE (R230). -/
abbrev CELLS_FREE : Ref := ⟨0x6000, 0, 5⟩
/-- `#6001[t].01` ARRIVAL_CELLS (R230). -/
abbrev ARRIVAL_CELLS (n : Nat) : Ref := ⟨0x6001, n, 1⟩
/-- `#6001[t].02` ARRIVAL_USED (R230). -/
abbrev ARRIVAL_USED (n : Nat) : Ref := ⟨0x6001, n, 2⟩
/-- `#6001[t].03` ARRIVAL_DISCARDS (R230). -/
abbrev ARRIVAL_DISCARDS (n : Nat) : Ref := ⟨0x6001, n, 3⟩
/-- `#6002[k].01` BUF_BANK_STATE (R230). -/
abbrev BUF_BANK_STATE (n : Nat) : Ref := ⟨0x6002, n, 1⟩
/-- `#6002[k].02` BANK_FREE (R230). -/
abbrev BANK_FREE (n : Nat) : Ref := ⟨0x6002, n, 2⟩
/-- `#6002[k].03` BANK_QUARANTINED (R230). -/
abbrev BANK_QUARANTINED (n : Nat) : Ref := ⟨0x6002, n, 3⟩
/-- `#6002[k].04` BANK_ISOLATE (R230). -/
abbrev BANK_ISOLATE (n : Nat) : Ref := ⟨0x6002, n, 4⟩
/-- `#6002[k].05` BANK_RESTORE (R230). -/
abbrev BANK_RESTORE (n : Nat) : Ref := ⟨0x6002, n, 5⟩
/-- `#6002[k].06` BANK_ERRORS (R230). -/
abbrev BANK_ERRORS (n : Nat) : Ref := ⟨0x6002, n, 6⟩
/-- `#6010[x].01` POOL_CAP (R230). -/
abbrev POOL_CAP (n : Nat) : Ref := ⟨0x6010, n, 1⟩
/-- `#6010[x].02` POOL_CAP_EFFECTIVE (R230). -/
abbrev POOL_CAP_EFFECTIVE (n : Nat) : Ref := ⟨0x6010, n, 2⟩
/-- `#6010[x].03` POOL_SHARED_USED (R230). -/
abbrev POOL_SHARED_USED (n : Nat) : Ref := ⟨0x6010, n, 3⟩
/-- `#6010[x].04` POOL_PEAK (R230). -/
abbrev POOL_PEAK (n : Nat) : Ref := ⟨0x6010, n, 4⟩
/-- `#6020[g].01` QUEUE_POOL (R230). -/
abbrev QUEUE_POOL (n : Nat) : Ref := ⟨0x6020, n, 1⟩
/-- `#6020[g].02` QUEUE_RESERVE (R230). -/
abbrev QUEUE_RESERVE (n : Nat) : Ref := ⟨0x6020, n, 2⟩
/-- `#6020[g].03` QUEUE_MAX (R230). -/
abbrev QUEUE_MAX (n : Nat) : Ref := ⟨0x6020, n, 3⟩
/-- `#6021[g].01` QUEUE_OCC (R230). -/
abbrev QUEUE_OCC (n : Nat) : Ref := ⟨0x6021, n, 1⟩
/-- `#6021[g].02` QUEUE_OCC_RESERVE (R230). -/
abbrev QUEUE_OCC_RESERVE (n : Nat) : Ref := ⟨0x6021, n, 2⟩
/-- `#6021[g].03` QUEUE_PEAK (R230). -/
abbrev QUEUE_PEAK (n : Nat) : Ref := ⟨0x6021, n, 3⟩
/-- `#6021[g].04` QUEUE_REFUSALS (R230). -/
abbrev QUEUE_REFUSALS (n : Nat) : Ref := ⟨0x6021, n, 4⟩
/-- `#6030[p].01` HEADROOM_LO (R230). -/
abbrev HEADROOM_LO (n : Nat) : Ref := ⟨0x6030, n, 1⟩
/-- `#6030[p].02` HEADROOM_HI (R230). -/
abbrev HEADROOM_HI (n : Nat) : Ref := ⟨0x6030, n, 2⟩
/-- `#6030[p].03` XOFF_LO (R230). -/
abbrev XOFF_LO (n : Nat) : Ref := ⟨0x6030, n, 3⟩
/-- `#6030[p].04` XOFF_HI (R230). -/
abbrev XOFF_HI (n : Nat) : Ref := ⟨0x6030, n, 4⟩
/-- `#6030[p].05` XON_OFFSET (R230). -/
abbrev XON_OFFSET (n : Nat) : Ref := ⟨0x6030, n, 5⟩
/-- `#6030[p].06` CLASS_CELLS (R230). -/
abbrev CLASS_CELLS (n : Nat) : Ref := ⟨0x6030, n, 6⟩
/-- `#6030[p].07` HEADROOM_USED (R230). -/
abbrev HEADROOM_USED (n : Nat) : Ref := ⟨0x6030, n, 7⟩
/-- `#6030[p].08` HEADROOM_REFUSED (R230). -/
abbrev HEADROOM_REFUSED (n : Nat) : Ref := ⟨0x6030, n, 8⟩
/-- `#6040.01` DESCRIPTORS_FREE (R230). -/
abbrev DESCRIPTORS_FREE : Ref := ⟨0x6040, 0, 1⟩
/-- `#6040.02` EXTENSIONS_FREE (R230). -/
abbrev EXTENSIONS_FREE : Ref := ⟨0x6040, 0, 2⟩
/-- `#6040.03` QUEUE_ENTRIES_FREE (R230). -/
abbrev QUEUE_ENTRIES_FREE : Ref := ⟨0x6040, 0, 3⟩
/-- `#6040.04` DESCRIPTOR_READ (R230). -/
abbrev DESCRIPTOR_READ : Ref := ⟨0x6040, 0, 4⟩
/-- `#6040.05` ORPHAN_SWEEP (R230). -/
abbrev ORPHAN_SWEEP : Ref := ⟨0x6040, 0, 5⟩
/-- `#6041.01`-`.0A` BUF_COUNTS (R230). -/
abbrev BUF_COUNTS (k : Nat) : Ref := ⟨0x6041, 0, k⟩
/-- `#6041.0B` CELLS_REMAPPED (R230). -/
abbrev CELLS_REMAPPED : Ref := ⟨0x6041, 0, 11⟩
/-- `#6041.0C` ORPHAN_CELLS (R230). -/
abbrev ORPHAN_CELLS : Ref := ⟨0x6041, 0, 12⟩
/-- `#6050.01` SNAPSHOT (R230). -/
abbrev SNAPSHOT : Ref := ⟨0x6050, 0, 1⟩
/-- `#6050.02` SNAPSHOT_DATA (R230). -/
abbrev SNAPSHOT_DATA : Ref := ⟨0x6050, 0, 2⟩
/-- `#6100.01` MCAST_GROUPS (R230). -/
abbrev MCAST_GROUPS : Ref := ⟨0x6100, 0, 1⟩
/-- `#6101.01` MCAST_MEMBERS (R230). -/
abbrev MCAST_MEMBERS : Ref := ⟨0x6101, 0, 1⟩
/-- `#7000[p].01` OVERHEAD (R259). -/
abbrev OVERHEAD (n : Nat) : Ref := ⟨0x7000, n, 1⟩
/-- `#7000[p].02` STRICT_QUEUES (R259). -/
abbrev STRICT_QUEUES (n : Nat) : Ref := ⟨0x7000, n, 2⟩
/-- `#7000[p].03` GUARD_MARGIN_NS (R259). -/
abbrev GUARD_MARGIN_NS (n : Nat) : Ref := ⟨0x7000, n, 3⟩
/-- `#7000[p].04` EGRESS_LEAD_NS (R259). -/
abbrev EGRESS_LEAD_NS (n : Nat) : Ref := ⟨0x7000, n, 4⟩
/-- `#7000[p].05` VIRTUAL_TIME (R259). -/
abbrev VIRTUAL_TIME (n : Nat) : Ref := ⟨0x7000, n, 5⟩
/-- `#7000[p].06` LAUNCH_WINDOW_NS (R259). -/
abbrev LAUNCH_WINDOW_NS (n : Nat) : Ref := ⟨0x7000, n, 6⟩
/-- `#7000[p].07` LAUNCH_HORIZON_MS (R259). -/
abbrev LAUNCH_HORIZON_MS (n : Nat) : Ref := ⟨0x7000, n, 7⟩
/-- `#7001[g].01` WEIGHT (R259). -/
abbrev WEIGHT (n : Nat) : Ref := ⟨0x7001, n, 1⟩
/-- `#7001[g].02` SHAPE_RATE (R259). -/
abbrev SHAPE_RATE (n : Nat) : Ref := ⟨0x7001, n, 2⟩
/-- `#7001[g].03` SHAPE_BURST (R259). -/
abbrev SHAPE_BURST (n : Nat) : Ref := ⟨0x7001, n, 3⟩
/-- `#7001[g].04` LAUNCH_MODE (R259). -/
abbrev LAUNCH_MODE (n : Nat) : Ref := ⟨0x7001, n, 4⟩
/-- `#7001[g].05` MAX_RESIDENCE_US (R259). -/
abbrev MAX_RESIDENCE_US (n : Nat) : Ref := ⟨0x7001, n, 5⟩
/-- `#7002[g].01` FINISH_TAG (R259). -/
abbrev FINISH_TAG (n : Nat) : Ref := ⟨0x7002, n, 1⟩
/-- `#7002[g].02` SHAPE_TOKENS (R259). -/
abbrev SHAPE_TOKENS (n : Nat) : Ref := ⟨0x7002, n, 2⟩
/-- `#7002[g].03`-`.09` SCHED_COUNTS (R259). -/
abbrev SCHED_COUNTS (n : Nat) (k : Nat) : Ref := ⟨0x7002, n, k⟩
/-- `#7100[p].01` GATE_ENABLE (R259). -/
abbrev GATE_ENABLE (n : Nat) : Ref := ⟨0x7100, n, 1⟩
/-- `#7100[p].02` GATE_IMAGE (R259). -/
abbrev GATE_IMAGE (n : Nat) : Ref := ⟨0x7100, n, 2⟩
/-- `#7100[p].03` GATE_BASE_TIME (R259). -/
abbrev GATE_BASE_TIME (n : Nat) : Ref := ⟨0x7100, n, 3⟩
/-- `#7100[p].04` GATE_CYCLE_NS (R259). -/
abbrev GATE_CYCLE_NS (n : Nat) : Ref := ⟨0x7100, n, 4⟩
/-- `#7100[p].05` GATE_LENGTH (R259). -/
abbrev GATE_LENGTH (n : Nat) : Ref := ⟨0x7100, n, 5⟩
/-- `#7100[p].06` GATE_TIME_BASE (R259). -/
abbrev GATE_TIME_BASE (n : Nat) : Ref := ⟨0x7100, n, 6⟩
/-- `#7101[p].01` GATE_LIST_0 (R259). -/
abbrev GATE_LIST_0 (n : Nat) : Ref := ⟨0x7101, n, 1⟩
/-- `#7101[p].02` GATE_LIST_1 (R259). -/
abbrev GATE_LIST_1 (n : Nat) : Ref := ⟨0x7101, n, 2⟩
/-- `#7102[p].01` GATE_STATE (R259). -/
abbrev GATE_STATE (n : Nat) : Ref := ⟨0x7102, n, 1⟩
/-- `#7102[p].02` GATE_START (R259). -/
abbrev GATE_START (n : Nat) : Ref := ⟨0x7102, n, 2⟩
/-- `#7102[p].03` GATE_ENTRY (R259). -/
abbrev GATE_ENTRY (n : Nat) : Ref := ⟨0x7102, n, 3⟩
/-- `#7102[p].04` GATE_OPEN (R259). -/
abbrev GATE_OPEN (n : Nat) : Ref := ⟨0x7102, n, 4⟩
/-- `#7102[p].05`-`.07` GATE_COUNTS (R259). -/
abbrev GATE_COUNTS (n : Nat) (k : Nat) : Ref := ⟨0x7102, n, k⟩
/-- `#7200[x].01` POLICER_MODE (R259). -/
abbrev POLICER_MODE (n : Nat) : Ref := ⟨0x7200, n, 1⟩
/-- `#7200[x].02` CIR (R259). -/
abbrev CIR (n : Nat) : Ref := ⟨0x7200, n, 2⟩
/-- `#7200[x].03` CBS (R259). -/
abbrev CBS (n : Nat) : Ref := ⟨0x7200, n, 3⟩
/-- `#7200[x].04` PIR (R259). -/
abbrev PIR (n : Nat) : Ref := ⟨0x7200, n, 4⟩
/-- `#7200[x].05` PBS (R259). -/
abbrev PBS (n : Nat) : Ref := ⟨0x7200, n, 5⟩
/-- `#7200[x].06`-`.08` POLICER_COUNTS (R259). -/
abbrev POLICER_COUNTS (n : Nat) (k : Nat) : Ref := ⟨0x7200, n, k⟩
/-- `#7201.01` POLICER_STATE (R259). -/
abbrev POLICER_STATE : Ref := ⟨0x7201, 0, 1⟩
/-- `#8000[n].01` TB_TIME (R286). -/
abbrev TB_TIME (n : Nat) : Ref := ⟨0x8000, n, 1⟩
/-- `#8000[n].02` TB_STATE (R286). -/
abbrev TB_STATE (n : Nat) : Ref := ⟨0x8000, n, 2⟩
/-- `#8000[n].03` TB_RATE (R286). -/
abbrev TB_RATE (n : Nat) : Ref := ⟨0x8000, n, 3⟩
/-- `#8000[n].04` TB_SET (R286). -/
abbrev TB_SET (n : Nat) : Ref := ⟨0x8000, n, 4⟩
/-- `#8000[n].05` TB_ADJUST (R286). -/
abbrev TB_ADJUST (n : Nat) : Ref := ⟨0x8000, n, 5⟩
/-- `#8000[n].06` TB_REARM (R286). -/
abbrev TB_REARM (n : Nat) : Ref := ⟨0x8000, n, 6⟩
/-- `#8000[n].07` JUMP_THRESHOLD_NS (R286). -/
abbrev JUMP_THRESHOLD_NS (n : Nat) : Ref := ⟨0x8000, n, 7⟩
/-- `#8000[n].08` SLEW_MAX_PPB (R286). -/
abbrev SLEW_MAX_PPB (n : Nat) : Ref := ⟨0x8000, n, 8⟩
/-- `#8000[n].09` SLEW_REMAINING (R286). -/
abbrev SLEW_REMAINING (n : Nat) : Ref := ⟨0x8000, n, 9⟩
/-- `#8000[n].0A` LAST_REFUSED (R286). -/
abbrev LAST_REFUSED (n : Nat) : Ref := ⟨0x8000, n, 10⟩
/-- `#8000[n].0B`-`.0E` TB_COUNTS (R286). -/
abbrev TB_COUNTS (n : Nat) (k : Nat) : Ref := ⟨0x8000, n, k⟩
/-- `#8000[n].0F` SERVO_OWNER (R286). -/
abbrev SERVO_OWNER (n : Nat) : Ref := ⟨0x8000, n, 15⟩
/-- `#8000[n].10` PPS_ALIGN (R286). -/
abbrev PPS_ALIGN (n : Nat) : Ref := ⟨0x8000, n, 16⟩
/-- `#8001.01` DEVICE_CLOCK (R286). -/
abbrev DEVICE_CLOCK : Ref := ⟨0x8001, 0, 1⟩
/-- `#8010.01` TIME_REF_SELECT (R286). -/
abbrev TIME_REF_SELECT : Ref := ⟨0x8010, 0, 1⟩
/-- `#8010.02` TIME_REF_STATE (R286). -/
abbrev TIME_REF_STATE : Ref := ⟨0x8010, 0, 2⟩
/-- `#8010.03` TIME_REF_FREQ_ERR (R286). -/
abbrev TIME_REF_FREQ_ERR : Ref := ⟨0x8010, 0, 3⟩
/-- `#8010.04` TIME_REF_LOSSES (R286). -/
abbrev TIME_REF_LOSSES : Ref := ⟨0x8010, 0, 4⟩
/-- `#8020.01` PPS_IN_ENABLE (R286). -/
abbrev PPS_IN_ENABLE : Ref := ⟨0x8020, 0, 1⟩
/-- `#8020.02` PPS_IN_DELAY_NS (R286). -/
abbrev PPS_IN_DELAY_NS : Ref := ⟨0x8020, 0, 2⟩
/-- `#8020.03` PPS_IN_CAPTURE (R286). -/
abbrev PPS_IN_CAPTURE : Ref := ⟨0x8020, 0, 3⟩
/-- `#8020.04` PPS_IN_COUNT (R286). -/
abbrev PPS_IN_COUNT : Ref := ⟨0x8020, 0, 4⟩
/-- `#8030[n].01` SERVO_MODE (R286). -/
abbrev SERVO_MODE (n : Nat) : Ref := ⟨0x8030, n, 1⟩
/-- `#8030[n].02` SERVO_SOURCE (R286). -/
abbrev SERVO_SOURCE (n : Nat) : Ref := ⟨0x8030, n, 2⟩
/-- `#8030[n].03` SERVO_STATE (R286). -/
abbrev SERVO_STATE (n : Nat) : Ref := ⟨0x8030, n, 3⟩
/-- `#8030[n].04` LOCK_NS (R286). -/
abbrev LOCK_NS (n : Nat) : Ref := ⟨0x8030, n, 4⟩
/-- `#8030[n].05` SERVO_OFFSET (R286). -/
abbrev SERVO_OFFSET (n : Nat) : Ref := ⟨0x8030, n, 5⟩
/-- `#8030[n].06` SERVO_KP (R286). -/
abbrev SERVO_KP (n : Nat) : Ref := ⟨0x8030, n, 6⟩
/-- `#8030[n].07` SERVO_KI (R286). -/
abbrev SERVO_KI (n : Nat) : Ref := ⟨0x8030, n, 7⟩
/-- `#8040[n].01` PPS_OUT_ENABLE (R286). -/
abbrev PPS_OUT_ENABLE (n : Nat) : Ref := ⟨0x8040, n, 1⟩
/-- `#8040[n].02` PPS_OUT_OFFSET_NS (R286). -/
abbrev PPS_OUT_OFFSET_NS (n : Nat) : Ref := ⟨0x8040, n, 2⟩
/-- `#8040[n].03` PPS_OUT_WIDTH_NS (R286). -/
abbrev PPS_OUT_WIDTH_NS (n : Nat) : Ref := ⟨0x8040, n, 3⟩
/-- `#8050.01` TIME_SNAPSHOT (R286). -/
abbrev TIME_SNAPSHOT : Ref := ⟨0x8050, 0, 1⟩
/-- `#8100[p].01` TS_BASE (R286). -/
abbrev TS_BASE (n : Nat) : Ref := ⟨0x8100, n, 1⟩
/-- `#8100[p].02` TC_MODE (R286). -/
abbrev TC_MODE (n : Nat) : Ref := ⟨0x8100, n, 2⟩
/-- `#8100[p].03` RX_DELAY_ADJ_PS (R286). -/
abbrev RX_DELAY_ADJ_PS (n : Nat) : Ref := ⟨0x8100, n, 3⟩
/-- `#8100[p].04` TX_DELAY_ADJ_PS (R286). -/
abbrev TX_DELAY_ADJ_PS (n : Nat) : Ref := ⟨0x8100, n, 4⟩
/-- `#8100[p].05` LINK_DELAY (R286). -/
abbrev LINK_DELAY (n : Nat) : Ref := ⟨0x8100, n, 5⟩
/-- `#8100[p].06`-`.0C` TIME_COUNTS (R286). -/
abbrev TIME_COUNTS (n : Nat) (k : Nat) : Ref := ⟨0x8100, n, k⟩
/-- `#8200[t].01` PTP_HINT_OFFSET (R286). -/
abbrev PTP_HINT_OFFSET (n : Nat) : Ref := ⟨0x8200, n, 1⟩
/-- `#9000.01` LEDGER_TIME_BASE (R317). -/
abbrev LEDGER_TIME_BASE : Ref := ⟨0x9000, 0, 1⟩
/-- `#9000.02` HIST_BASE_NS (R317). -/
abbrev HIST_BASE_NS : Ref := ⟨0x9000, 0, 2⟩
/-- `#9000.03` EXPORT_FLUSH_US (R317). -/
abbrev EXPORT_FLUSH_US : Ref := ⟨0x9000, 0, 3⟩
/-- `#9000.04`-`.08` LEDGER_COUNTS (R317). -/
abbrev LEDGER_COUNTS (k : Nat) : Ref := ⟨0x9000, 0, k⟩
/-- `#9000.09` LAST_DAMAGED (R317). -/
abbrev LAST_DAMAGED : Ref := ⟨0x9000, 0, 9⟩
/-- `#9010[p].01` PORT_FATES (R317). -/
abbrev PORT_FATES (n : Nat) : Ref := ⟨0x9010, n, 1⟩
/-- `#9010[p].02` RECORDS_OPENED (R317). -/
abbrev RECORDS_OPENED (n : Nat) : Ref := ⟨0x9010, n, 2⟩
/-- `#9010[p].03` RECORDS_OPEN (R317). -/
abbrev RECORDS_OPEN (n : Nat) : Ref := ⟨0x9010, n, 3⟩
/-- `#9010[p].04` PORT_SNAPSHOT (R317). -/
abbrev PORT_SNAPSHOT (n : Nat) : Ref := ⟨0x9010, n, 4⟩
/-- `#9010[p].05` PORT_SNAPSHOT_DATA (R317). -/
abbrev PORT_SNAPSHOT_DATA (n : Nat) : Ref := ⟨0x9010, n, 5⟩
/-- `#9011.01` HOST_FATES (R317). -/
abbrev HOST_FATES : Ref := ⟨0x9011, 0, 1⟩
/-- `#9020[g].01` QUEUE_FATES (R317). -/
abbrev QUEUE_FATES (n : Nat) : Ref := ⟨0x9020, n, 1⟩
/-- `#9020[g].02` LATENCY_HIST (R317). -/
abbrev LATENCY_HIST (n : Nat) : Ref := ⟨0x9020, n, 2⟩
/-- `#9020[g].03` LATENCY_MAX (R317). -/
abbrev LATENCY_MAX (n : Nat) : Ref := ⟨0x9020, n, 3⟩
/-- `#9030.01` MATRIX_INDEX (R317). -/
abbrev MATRIX_INDEX : Ref := ⟨0x9030, 0, 1⟩
/-- `#9030.02` MATRIX_SWAP (R317). -/
abbrev MATRIX_SWAP : Ref := ⟨0x9030, 0, 2⟩
/-- `#9030.03` MATRIX_ACTIVE (R317). -/
abbrev MATRIX_ACTIVE : Ref := ⟨0x9030, 0, 3⟩
/-- `#9030.04` MATRIX_BANK_0 (R317). -/
abbrev MATRIX_BANK_0 : Ref := ⟨0x9030, 0, 4⟩
/-- `#9030.05` MATRIX_BANK_1 (R317). -/
abbrev MATRIX_BANK_1 : Ref := ⟨0x9030, 0, 5⟩
/-- `#9030.06` MATRIX_CLEAR (R317). -/
abbrev MATRIX_CLEAR : Ref := ⟨0x9030, 0, 6⟩
/-- `#9030.07` MATRIX_UNMAPPED (R317). -/
abbrev MATRIX_UNMAPPED : Ref := ⟨0x9030, 0, 7⟩
/-- `#9030.08` MATRIX_SWAP_TIME (R317). -/
abbrev MATRIX_SWAP_TIME : Ref := ⟨0x9030, 0, 8⟩
/-- `#9040.01` FLOW_IDLE_S (R317). -/
abbrev FLOW_IDLE_S : Ref := ⟨0x9040, 0, 1⟩
/-- `#9040.02` FLOW_ACTIVE_S (R317). -/
abbrev FLOW_ACTIVE_S : Ref := ⟨0x9040, 0, 2⟩
/-- `#9040.03` FLOW_CHANNEL (R317). -/
abbrev FLOW_CHANNEL : Ref := ⟨0x9040, 0, 3⟩
/-- `#9040.04` FLOW_IPFIX (R317). -/
abbrev FLOW_IPFIX : Ref := ⟨0x9040, 0, 4⟩
/-- `#9040.05` FLOW_FLUSH (R317). -/
abbrev FLOW_FLUSH : Ref := ⟨0x9040, 0, 5⟩
/-- `#9040.06` FLOW_CACHE (R317). -/
abbrev FLOW_CACHE : Ref := ⟨0x9040, 0, 6⟩
/-- `#9040.07`-`.0D` FLOW_COUNTS (R317). -/
abbrev FLOW_COUNTS (k : Nat) : Ref := ⟨0x9040, 0, k⟩
/-- `#9040.0E` LEARN_MESSAGES (R317). -/
abbrev LEARN_MESSAGES : Ref := ⟨0x9040, 0, 14⟩
/-- `#9041[t].01` FLOW_ENABLE (R317). -/
abbrev FLOW_ENABLE (n : Nat) : Ref := ⟨0x9041, n, 1⟩
/-- `#9041[t].02` FLOW_KEY_SELECT (R317). -/
abbrev FLOW_KEY_SELECT (n : Nat) : Ref := ⟨0x9041, n, 2⟩
/-- `#9041[t].03` INT_HINT_OFFSET (R317). -/
abbrev INT_HINT_OFFSET (n : Nat) : Ref := ⟨0x9041, n, 3⟩
/-- `#9050.01` IPFIX_COLLECTOR (R317). -/
abbrev IPFIX_COLLECTOR : Ref := ⟨0x9050, 0, 1⟩
/-- `#9050.02` IPFIX_UDP_PORT (R317). -/
abbrev IPFIX_UDP_PORT : Ref := ⟨0x9050, 0, 2⟩
/-- `#9050.03` IPFIX_MGMT_PORT (R317). -/
abbrev IPFIX_MGMT_PORT : Ref := ⟨0x9050, 0, 3⟩
/-- `#9050.04` IPFIX_DOMAIN (R317). -/
abbrev IPFIX_DOMAIN : Ref := ⟨0x9050, 0, 4⟩
/-- `#9050.05` IPFIX_TEMPLATE_S (R317). -/
abbrev IPFIX_TEMPLATE_S : Ref := ⟨0x9050, 0, 5⟩
/-- `#9050.06` IPFIX_UTC_OFFSET_S (R317). -/
abbrev IPFIX_UTC_OFFSET_S : Ref := ⟨0x9050, 0, 6⟩
/-- `#9050.07` IPFIX_KEY_MAP (R317). -/
abbrev IPFIX_KEY_MAP : Ref := ⟨0x9050, 0, 7⟩
/-- `#9050.08` IPFIX_TEMPLATE_ID (R317). -/
abbrev IPFIX_TEMPLATE_ID : Ref := ⟨0x9050, 0, 8⟩
/-- `#9050.09` IPFIX_LOST (R317). -/
abbrev IPFIX_LOST : Ref := ⟨0x9050, 0, 9⟩
/-- `#9060.01` POSTCARD_QUEUE (R317). -/
abbrev POSTCARD_QUEUE : Ref := ⟨0x9060, 0, 1⟩
/-- `#9060.02` POSTCARD_HEADER (R317). -/
abbrev POSTCARD_HEADER : Ref := ⟨0x9060, 0, 2⟩
/-- `#9060.03` HEADER_LEN (R317). -/
abbrev HEADER_LEN : Ref := ⟨0x9060, 0, 3⟩
/-- `#9060.04` POSTCARD_IP_OFFSET (R317). -/
abbrev POSTCARD_IP_OFFSET : Ref := ⟨0x9060, 0, 4⟩
/-- `#9060.05` POSTCARD_FLUSH_US (R317). -/
abbrev POSTCARD_FLUSH_US : Ref := ⟨0x9060, 0, 5⟩
/-- `#9070.01` INT_TRACE_TYPE (R317). -/
abbrev INT_TRACE_TYPE : Ref := ⟨0x9070, 0, 1⟩
/-- `#9070.02` INT_SLOTS (R317). -/
abbrev INT_SLOTS : Ref := ⟨0x9070, 0, 2⟩
/-- `#9070.03` INT_NAMESPACE (R317). -/
abbrev INT_NAMESPACE : Ref := ⟨0x9070, 0, 3⟩
/-- `#9070.04` INT_NODE_ID (R317). -/
abbrev INT_NODE_ID : Ref := ⟨0x9070, 0, 4⟩
/-- `#9070.05` INT_TIME_BASE (R317). -/
abbrev INT_TIME_BASE : Ref := ⟨0x9070, 0, 5⟩
/-- `#9070.06`-`.09` INT_COUNTS (R317). -/
abbrev INT_COUNTS (k : Nat) : Ref := ⟨0x9070, 0, k⟩
/-- `#9080[m].01` MIRROR_PORT (R317). -/
abbrev MIRROR_PORT (n : Nat) : Ref := ⟨0x9080, n, 1⟩
/-- `#9080[m].02` MIRROR_SAMPLE (R317). -/
abbrev MIRROR_SAMPLE (n : Nat) : Ref := ⟨0x9080, n, 2⟩
/-- `#9080[m].03` MIRROR_TRUNCATE (R317). -/
abbrev MIRROR_TRUNCATE (n : Nat) : Ref := ⟨0x9080, n, 3⟩
/-- `#9080[m].04` MIRROR_HEADER (R317). -/
abbrev MIRROR_HEADER (n : Nat) : Ref := ⟨0x9080, n, 4⟩
/-- `#9080[m].05` MIRROR_HEADER_LEN (R317). -/
abbrev MIRROR_HEADER_LEN (n : Nat) : Ref := ⟨0x9080, n, 5⟩
/-- `#9080[m].06` MIRROR_IP_OFFSET (R317). -/
abbrev MIRROR_IP_OFFSET (n : Nat) : Ref := ⟨0x9080, n, 6⟩
/-- `#9080[m].07` MIRROR_COPIES (R317). -/
abbrev MIRROR_COPIES (n : Nat) : Ref := ⟨0x9080, n, 7⟩
/-- `#9081[p].01` EGRESS_MIRROR (R317). -/
abbrev EGRESS_MIRROR (n : Nat) : Ref := ⟨0x9081, n, 1⟩
/-- `#A000.01` PCIE_SPEED (R350). -/
abbrev PCIE_SPEED : Ref := ⟨0xA000, 0, 1⟩
/-- `#A000.02` PCIE_WIDTH (R350). -/
abbrev PCIE_WIDTH : Ref := ⟨0xA000, 0, 2⟩
/-- `#A000.03` PCIE_SPEED_LIMIT (R350). -/
abbrev PCIE_SPEED_LIMIT : Ref := ⟨0xA000, 0, 3⟩
/-- `#A000.04` PCIE_RESETS (R350). -/
abbrev PCIE_RESETS : Ref := ⟨0xA000, 0, 4⟩
/-- `#A000.05` READ_TAGS_IN_USE (R350). -/
abbrev READ_TAGS_IN_USE : Ref := ⟨0xA000, 0, 5⟩
/-- `#A010.01` HOST_PAGE_MAP (R350). -/
abbrev HOST_PAGE_MAP : Ref := ⟨0xA010, 0, 1⟩
/-- `#A010.02` PM_SPLIT_2M (R350). -/
abbrev PM_SPLIT_2M : Ref := ⟨0xA010, 0, 2⟩
/-- `#A010.03` PM_SPLIT_1G (R350). -/
abbrev PM_SPLIT_1G : Ref := ⟨0xA010, 0, 3⟩
/-- `#A010.04` PM_FENCE (R350). -/
abbrev PM_FENCE : Ref := ⟨0xA010, 0, 4⟩
/-- `#A010.05` PM_FAULTS (R350). -/
abbrev PM_FAULTS : Ref := ⟨0xA010, 0, 5⟩
/-- `#A100[c].01` CH_KIND (R350). -/
abbrev CH_KIND (n : Nat) : Ref := ⟨0xA100, n, 1⟩
/-- `#A100[c].02` CH_MODE (R350). -/
abbrev CH_MODE (n : Nat) : Ref := ⟨0xA100, n, 2⟩
/-- `#A100[c].03` CH_RING_BASE (R350). -/
abbrev CH_RING_BASE (n : Nat) : Ref := ⟨0xA100, n, 3⟩
/-- `#A100[c].04` CH_RING_SIZE (R350). -/
abbrev CH_RING_SIZE (n : Nat) : Ref := ⟨0xA100, n, 4⟩
/-- `#A100[c].05` CH_CMPL_BASE (R350). -/
abbrev CH_CMPL_BASE (n : Nat) : Ref := ⟨0xA100, n, 5⟩
/-- `#A100[c].06` CH_BUF_SIZE (R350). -/
abbrev CH_BUF_SIZE (n : Nat) : Ref := ⟨0xA100, n, 6⟩
/-- `#A100[c].07` CH_MAX_SPAN (R350). -/
abbrev CH_MAX_SPAN (n : Nat) : Ref := ⟨0xA100, n, 7⟩
/-- `#A100[c].08` CH_CHAIN_LIMIT (R350). -/
abbrev CH_CHAIN_LIMIT (n : Nat) : Ref := ⟨0xA100, n, 8⟩
/-- `#A100[c].09` CH_PREFETCH (R350). -/
abbrev CH_PREFETCH (n : Nat) : Ref := ⟨0xA100, n, 9⟩
/-- `#A100[c].0A` CH_CLASS (R350). -/
abbrev CH_CLASS (n : Nat) : Ref := ⟨0xA100, n, 10⟩
/-- `#A100[c].0B` CH_MSIX (R350). -/
abbrev CH_MSIX (n : Nat) : Ref := ⟨0xA100, n, 11⟩
/-- `#A100[c].0C` CH_MOD_COUNT (R350). -/
abbrev CH_MOD_COUNT (n : Nat) : Ref := ⟨0xA100, n, 12⟩
/-- `#A100[c].0D` CH_MOD_TIME_US (R350). -/
abbrev CH_MOD_TIME_US (n : Nat) : Ref := ⟨0xA100, n, 13⟩
/-- `#A100[c].0E` CH_STATE (R350). -/
abbrev CH_STATE (n : Nat) : Ref := ⟨0xA100, n, 14⟩
/-- `#A100[c].0F` CH_FAULT (R350). -/
abbrev CH_FAULT (n : Nat) : Ref := ⟨0xA100, n, 15⟩
/-- `#A100[c].10`-`.15` CH_COUNTS (R350). -/
abbrev CH_COUNTS (n : Nat) (k : Nat) : Ref := ⟨0xA100, n, k⟩
/-- `#A200[e].01` ENGINE_STATE (R350). -/
abbrev ENGINE_STATE (n : Nat) : Ref := ⟨0xA200, n, 1⟩
/-- `#A200[e].02` ENGINE_RESTART (R350). -/
abbrev ENGINE_RESTART (n : Nat) : Ref := ⟨0xA200, n, 2⟩
/-- `#A200[e].03` ENGINE_BUS_ERROR (R350). -/
abbrev ENGINE_BUS_ERROR (n : Nat) : Ref := ⟨0xA200, n, 3⟩
/-- `#A200[e].04` ENGINE_STOPS (R350). -/
abbrev ENGINE_STOPS (n : Nat) : Ref := ⟨0xA200, n, 4⟩
/-- `#A300[r].01` LEGACY_RING_BASE (R350). -/
abbrev LEGACY_RING_BASE (n : Nat) : Ref := ⟨0xA300, n, 1⟩
/-- `#A300[r].02` LEGACY_RING_SIZE (R350). -/
abbrev LEGACY_RING_SIZE (n : Nat) : Ref := ⟨0xA300, n, 2⟩
/-- `#A300[r].03` LEGACY_TX_QUEUE (R350). -/
abbrev LEGACY_TX_QUEUE (n : Nat) : Ref := ⟨0xA300, n, 3⟩
/-- `#A300[r].04` LEGACY_HEAD (R350). -/
abbrev LEGACY_HEAD (n : Nat) : Ref := ⟨0xA300, n, 4⟩
/-- `#A400[h].01` HOSTQ_CHANNEL (R350). -/
abbrev HOSTQ_CHANNEL (n : Nat) : Ref := ⟨0xA400, n, 1⟩
/-- `#B000.01` IRQ_RAISE (R370). -/
abbrev IRQ_RAISE : Ref := ⟨0xB000, 0, 1⟩
/-- `#B000.02` DOORBELL_REFUSED (R370). -/
abbrev DOORBELL_REFUSED : Ref := ⟨0xB000, 0, 2⟩
/-- `#B000.03` PENDING_RACES (R370). -/
abbrev PENDING_RACES : Ref := ⟨0xB000, 0, 3⟩
/-- `#B001[w].01` MASK_WORD (R370). -/
abbrev MASK_WORD (n : Nat) : Ref := ⟨0xB001, n, 1⟩
/-- `#B001[w].02` PENDING_WORD (R370). -/
abbrev PENDING_WORD (n : Nat) : Ref := ⟨0xB001, n, 2⟩
/-- `#B100[s].01` SRC_PRIORITY (R370). -/
abbrev SRC_PRIORITY (n : Nat) : Ref := ⟨0xB100, n, 1⟩
/-- `#B100[s].02` SRC_TARGET (R370). -/
abbrev SRC_TARGET (n : Nat) : Ref := ⟨0xB100, n, 2⟩
/-- `#B100[s].03` SRC_FALLBACK (R370). -/
abbrev SRC_FALLBACK (n : Nat) : Ref := ⟨0xB100, n, 3⟩
/-- `#B100[s].04` SRC_MASK (R370). -/
abbrev SRC_MASK (n : Nat) : Ref := ⟨0xB100, n, 4⟩
/-- `#B100[s].05` SRC_STATE (R370). -/
abbrev SRC_STATE (n : Nat) : Ref := ⟨0xB100, n, 5⟩
/-- `#B100[s].06` SRC_COUNTS (R370). -/
abbrev SRC_COUNTS (n : Nat) : Ref := ⟨0xB100, n, 6⟩
/-- `#B100[s].07` SRC_WITHDRAW (R370). -/
abbrev SRC_WITHDRAW (n : Nat) : Ref := ⟨0xB100, n, 7⟩
/-- `#B200[t].01` TARGET_SPLIT (R370). -/
abbrev TARGET_SPLIT (n : Nat) : Ref := ⟨0xB200, n, 1⟩
/-- `#B200[t].02` TIMEOUT_US (R370). -/
abbrev TIMEOUT_US (n : Nat) : Ref := ⟨0xB200, n, 2⟩
/-- `#B200[t].03` TARGET_STATE (R370). -/
abbrev TARGET_STATE (n : Nat) : Ref := ⟨0xB200, n, 3⟩
/-- `#B200[t].04` RUNNING_GROUP (R370). -/
abbrev RUNNING_GROUP (n : Nat) : Ref := ⟨0xB200, n, 4⟩
/-- `#B200[t].05` STACK (R370). -/
abbrev STACK (n : Nat) : Ref := ⟨0xB200, n, 5⟩
/-- `#B200[t].06` STACK_RESET (R370). -/
abbrev STACK_RESET (n : Nat) : Ref := ⟨0xB200, n, 6⟩
/-- `#B200[t].07`-`.0F` TARGET_COUNTS (R370). -/
abbrev TARGET_COUNTS (n : Nat) (k : Nat) : Ref := ⟨0xB200, n, k⟩
/-- `#C000.01` FAULT_TIME_BASE (R385). -/
abbrev FAULT_TIME_BASE : Ref := ⟨0xC000, 0, 1⟩
/-- `#C000.02` FAULT_SEQ (R385). -/
abbrev FAULT_SEQ : Ref := ⟨0xC000, 0, 2⟩
/-- `#C000.03` FAULT_LOG (R385). -/
abbrev FAULT_LOG : Ref := ⟨0xC000, 0, 3⟩
/-- `#C000.04` FAULT_INJECT (R385). -/
abbrev FAULT_INJECT : Ref := ⟨0xC000, 0, 4⟩
/-- `#C000.05` HELD_RECORDS (R385). -/
abbrev HELD_RECORDS : Ref := ⟨0xC000, 0, 5⟩
/-- `#C000.06` REPORTS_UNLOGGED (R385). -/
abbrev REPORTS_UNLOGGED : Ref := ⟨0xC000, 0, 6⟩
/-- `#C000.07` FOLD_WINDOW_NS (R385). -/
abbrev FOLD_WINDOW_NS : Ref := ⟨0xC000, 0, 7⟩
/-- `#C100[s].01` SRC_CLASS (R385). -/
abbrev SRC_CLASS (n : Nat) : Ref := ⟨0xC100, n, 1⟩
/-- `#C100[s].02` FAULT_N (R385). -/
abbrev FAULT_N (n : Nat) : Ref := ⟨0xC100, n, 2⟩
/-- `#C100[s].03` FAULT_WINDOW_MS (R385). -/
abbrev FAULT_WINDOW_MS (n : Nat) : Ref := ⟨0xC100, n, 3⟩
/-- `#C100[s].04` QUIET_MS (R385). -/
abbrev QUIET_MS (n : Nat) : Ref := ⟨0xC100, n, 4⟩
/-- `#C100[s].05` ESCALATE (R385). -/
abbrev ESCALATE (n : Nat) : Ref := ⟨0xC100, n, 5⟩
/-- `#C100[s].06` FAULT_STATE (R385). -/
abbrev FAULT_STATE (n : Nat) : Ref := ⟨0xC100, n, 6⟩
/-- `#C100[s].07` FAULT_ACK (R385). -/
abbrev FAULT_ACK (n : Nat) : Ref := ⟨0xC100, n, 7⟩
/-- `#C100[s].08` SEVERE_UNIT (R385). -/
abbrev SEVERE_UNIT (n : Nat) : Ref := ⟨0xC100, n, 8⟩
/-- `#C100[s].09`-`.0F` FAULT_COUNTS (R385). -/
abbrev FAULT_COUNTS (n : Nat) (k : Nat) : Ref := ⟨0xC100, n, k⟩
/-- `#C100[s].10` LAST_SEQ (R385). -/
abbrev LAST_SEQ (n : Nat) : Ref := ⟨0xC100, n, 16⟩
/-- `#C200[k].01` DOMAIN_ACTION (R385). -/
abbrev DOMAIN_ACTION (n : Nat) : Ref := ⟨0xC200, n, 1⟩
/-- `#C200[k].02` REACTION_MS (R385). -/
abbrev REACTION_MS (n : Nat) : Ref := ⟨0xC200, n, 2⟩
/-- `#C200[k].03` DOMAIN_ESCALATIONS (R385). -/
abbrev DOMAIN_ESCALATIONS (n : Nat) : Ref := ⟨0xC200, n, 3⟩
/-- `#D000.01` STRAPS (R406). -/
abbrev STRAPS : Ref := ⟨0xD000, 0, 1⟩
/-- `#D000.02` BOOT_STATE (R406). -/
abbrev BOOT_STATE : Ref := ⟨0xD000, 0, 2⟩
/-- `#D000.03` BOOT_FAILS (R406). -/
abbrev BOOT_FAILS : Ref := ⟨0xD000, 0, 3⟩
/-- `#D000.04` STARTUP_STATUS (R406). -/
abbrev STARTUP_STATUS : Ref := ⟨0xD000, 0, 4⟩
/-- `#D000.05` RESET_CAUSE (R406). -/
abbrev RESET_CAUSE : Ref := ⟨0xD000, 0, 5⟩
/-- `#D010.01` FW_UPLOAD (R406). -/
abbrev FW_UPLOAD : Ref := ⟨0xD010, 0, 1⟩
/-- `#D010.02` FW_VERIFY (R406). -/
abbrev FW_VERIFY : Ref := ⟨0xD010, 0, 2⟩
/-- `#D010.03` FW_ACTIVATE (R406). -/
abbrev FW_ACTIVATE : Ref := ⟨0xD010, 0, 3⟩
/-- `#D010.04` FW_STORE (R406). -/
abbrev FW_STORE : Ref := ⟨0xD010, 0, 4⟩
/-- `#D010.05` FW_STATE (R406). -/
abbrev FW_STATE : Ref := ⟨0xD010, 0, 5⟩
/-- `#D010.06` FW_VERSION (R406). -/
abbrev FW_VERSION : Ref := ⟨0xD010, 0, 6⟩
/-- `#D010.07` FW_SVN_FUSED (R406). -/
abbrev FW_SVN_FUSED : Ref := ⟨0xD010, 0, 7⟩
/-- `#D010.08` FW_BOLSY_DROPS (R406). -/
abbrev FW_BOLSY_DROPS : Ref := ⟨0xD010, 0, 8⟩
/-- `#D011.01` STARTUP_UPLOAD (R406). -/
abbrev STARTUP_UPLOAD : Ref := ⟨0xD011, 0, 1⟩
/-- `#D011.02` STARTUP_STORE (R406). -/
abbrev STARTUP_STORE : Ref := ⟨0xD011, 0, 2⟩
/-- `#D100[t].01` TILE_SERVICE (R406). -/
abbrev TILE_SERVICE (n : Nat) : Ref := ⟨0xD100, n, 1⟩
/-- `#D100[t].02` TILE_PROFILE (R406). -/
abbrev TILE_PROFILE (n : Nat) : Ref := ⟨0xD100, n, 2⟩
/-- `#D100[t].03` TILE_FULL (R406). -/
abbrev TILE_FULL (n : Nat) : Ref := ⟨0xD100, n, 3⟩
/-- `#D100[t].04` TILE_RELOAD (R406). -/
abbrev TILE_RELOAD (n : Nat) : Ref := ⟨0xD100, n, 4⟩
/-- `#D100[t].05`-`.07` TILE_COUNTS (R406). -/
abbrev TILE_COUNTS (n : Nat) (k : Nat) : Ref := ⟨0xD100, n, k⟩
/-- `#D200[n].01` TEMP (R406). -/
abbrev TEMP (n : Nat) : Ref := ⟨0xD200, n, 1⟩
/-- `#D200[n].02` TEMP_WARN (R406). -/
abbrev TEMP_WARN (n : Nat) : Ref := ⟨0xD200, n, 2⟩
/-- `#D200[n].03` TEMP_PEAK (R406). -/
abbrev TEMP_PEAK (n : Nat) : Ref := ⟨0xD200, n, 3⟩
/-- `#D210.01` AVS_SETPOINT_MV (R406). -/
abbrev AVS_SETPOINT_MV : Ref := ⟨0xD210, 0, 1⟩
/-- `#D210.02` RAIL_MV (R406). -/
abbrev RAIL_MV : Ref := ⟨0xD210, 0, 2⟩
/-- `#D300[i].01` TW_XFER (R406). -/
abbrev TW_XFER (n : Nat) : Ref := ⟨0xD300, n, 1⟩
/-- `#D300[i].02` TW_SPEED (R406). -/
abbrev TW_SPEED (n : Nat) : Ref := ⟨0xD300, n, 2⟩
/-- `#D300[i].03` TW_STRETCH_MS (R406). -/
abbrev TW_STRETCH_MS (n : Nat) : Ref := ⟨0xD300, n, 3⟩
/-- `#D300[i].04` TW_COUNTS (R406). -/
abbrev TW_COUNTS (n : Nat) : Ref := ⟨0xD300, n, 4⟩
/-- `#D310[j].01` MDIO_XFER (R406). -/
abbrev MDIO_XFER (n : Nat) : Ref := ⟨0xD310, n, 1⟩
/-- `#D310[j].02` MDC_PERIOD_NS (R406). -/
abbrev MDC_PERIOD_NS (n : Nat) : Ref := ⟨0xD310, n, 2⟩
/-- `#D310[j].03` MDIO_COUNTS (R406). -/
abbrev MDIO_COUNTS (n : Nat) : Ref := ⟨0xD310, n, 3⟩

end O

/-- Objects of area 0 (R9). -/
def area0 : List ObjRow := [
  ⟨0x0001, 0, 0, .u8, .ro, 1, 1, (.upto 1), .none, []⟩,
  ⟨0x0001, 1, 1, .string, .ro, 256, 1, (.upto 1), .none, []⟩,
  ⟨0x0001, 2, 2, .u16, .ro, 2, 2, (.upto 1), .none, []⟩,
  ⟨0x0001, 3, 3, .u16, .ro, 2, 2, (.upto 1), .none, []⟩]

/-- Objects of area 1 (R9). -/
def area1 : List ObjRow := [
  ⟨0x1000, 1, 1, .bool, .rw, 1, 1, (.upto 2), .none, [(0, 1)]⟩,
  ⟨0x1000, 2, 2, .enum, .rws, 2, 2, (.upto 2), (.base 0x10 1), [(0, 1)]⟩,
  ⟨0x1000, 3, 3, .u64, .ro, 8, 8, (.upto 2), .none, []⟩,
  ⟨0x1001, 1, 1, .u32, .rws, 4, 4, (.upto 2), (.base 0x10 1), []⟩,
  ⟨0x1001, 2, 2, .u8, .rws, 1, 1, (.upto 2), (.base 0x10 1), [(0, 30)]⟩,
  ⟨0x1001, 3, 3, .u32, .rws, 4, 4, (.upto 2), (.base 0x10 1), []⟩,
  ⟨0x1002, 1, 1, .blob, .rws, 16, 1, (.upto 2), (.base 0x10 1), []⟩,
  ⟨0x1002, 2, 2, .u8, .rws, 1, 1, (.upto 2), (.base 0x10 1), [(0, 127)]⟩,
  ⟨0x1002, 3, 3, .blob, .rws, 16, 1, (.upto 2), (.base 0x10 1), []⟩,
  ⟨0x1010, 1, 1, .u16, .rws, 2, 2, (.upto 1), (.base 0x12 2), []⟩,
  ⟨0x1010, 2, 2, .u16, .rw, 2, 2, (.upto 1), .none, [(10, 3600)]⟩,
  ⟨0x1010, 3, 3, .u16, .rw, 2, 2, (.upto 1), .none, []⟩,
  ⟨0x1010, 4, 4, .u16, .rw, 2, 2, (.upto 1), .none, []⟩,
  ⟨0x1011, 1, 1, .bool, .rws, 1, 1, (.upto 16), (.base 0x13 16), [(0, 1)]⟩,
  ⟨0x1011, 2, 2, .blob, .wo, 32, 1, (.upto 16), .none, []⟩,
  ⟨0x1020, 1, 1, .enum, .ro, 2, 2, (.upto 8), .none, []⟩,
  ⟨0x1020, 2, 2, .u8, .ro, 1, 1, (.upto 8), .none, []⟩,
  ⟨0x1020, 3, 3, .u64, .ro, 8, 8, (.upto 8), .none, []⟩,
  ⟨0x1020, 4, 4, .u16, .ro, 2, 2, (.upto 8), .none, []⟩,
  ⟨0x1020, 5, 5, .cmd, .cmd, 0, 0, (.upto 8), .none, []⟩,
  ⟨0x1030, 1, 9, .u64, .ro, 8, 8, (.upto 1), .none, []⟩,
  ⟨0x1040, 1, 1, .u8, .ro, 1, 1, (.upto 16), .none, []⟩,
  ⟨0x1040, 2, 2, .u16, .ro, 2, 2, (.upto 16), .none, []⟩,
  ⟨0x1050, 1, 1, .enum, .ro, 2, 2, .groups, .none, []⟩,
  ⟨0x1050, 2, 2, .u32, .ro, 4, 4, .groups, .none, []⟩,
  ⟨0x1050, 3, 3, .u32, .ro, 4, 4, .groups, .none, []⟩,
  ⟨0x1050, 4, 4, .enum, .ro, 2, 2, .groups, .none, []⟩,
  ⟨0x1050, 5, 5, .bool, .ro, 1, 1, .groups, .none, [(0, 1)]⟩]

/-- Objects of area 2 (R9). -/
def area2 : List ObjRow := [
  ⟨0x2000, 1, 1, .enum, .ro, 2, 2, (.upto 8), .none, []⟩,
  ⟨0x2000, 2, 2, .u8, .rws, 1, 1, (.upto 8), (.base 0x20 1), [(0, 3)]⟩,
  ⟨0x2000, 3, 3, .bool, .rw, 1, 1, (.upto 8), .none, [(0, 1)]⟩,
  ⟨0x2000, 4, 4, .u8, .ro, 1, 1, (.upto 8), .none, []⟩,
  ⟨0x2000, 5, 5, .bool, .rw, 1, 1, (.upto 8), .none, [(0, 1)]⟩,
  ⟨0x2001, 1, 1, .bool, .ro, 1, 1, (.upto 32), .none, [(0, 1)]⟩,
  ⟨0x2001, 2, 2, .i32, .ro, 4, 4, (.upto 32), .none, []⟩,
  ⟨0x2001, 3, 3, .u32, .ro, 4, 4, (.upto 32), .none, []⟩,
  ⟨0x2100, 1, 1, .enum, .rws, 2, 2, (.upto 512), (.base 0x20 64), [(0, 5)]⟩,
  ⟨0x2100, 2, 2, .bool, .rws, 1, 1, (.upto 512), (.base 0x20 64), [(0, 1)]⟩,
  ⟨0x2100, 3, 3, .bool, .rws, 1, 1, (.upto 512), (.base 0x20 64), [(0, 1)]⟩,
  ⟨0x2100, 4, 4, .bool, .rws, 1, 1, (.upto 512), (.base 0x20 64), [(0, 1)]⟩,
  ⟨0x2100, 5, 5, .enum, .rws, 2, 2, (.upto 512), (.base 0x20 64), [(0, 2)]⟩,
  ⟨0x2100, 6, 6, .u16, .rws, 2, 2, (.upto 512), (.base 0x20 64), []⟩,
  ⟨0x2101, 1, 1, .enum, .ro, 2, 2, (.upto 512), .none, []⟩,
  ⟨0x2101, 2, 2, .enum, .ro, 2, 2, (.upto 512), .none, []⟩,
  ⟨0x2101, 3, 3, .u8, .ro, 1, 1, (.upto 512), .none, []⟩,
  ⟨0x2101, 4, 4, .enum, .ro, 2, 2, (.upto 512), .none, []⟩,
  ⟨0x2101, 5, 5, .cmd, .cmd, 0, 0, (.upto 512), .none, []⟩,
  ⟨0x2101, 6, 6, .blob, .ro, 16, 1, (.upto 512), .none, []⟩,
  ⟨0x2101, 7, 7, .u32, .ro, 4, 4, (.upto 512), .none, []⟩,
  ⟨0x2101, 8, 8, .bool, .ro, 1, 1, (.upto 512), .none, [(0, 1)]⟩,
  ⟨0x2102, 1, 6, .u32, .ro, 4, 4, (.upto 512), .none, []⟩,
  ⟨0x2110, 1, 1, .u32, .ro, 4, 4, (.upto 512), .none, []⟩,
  ⟨0x2110, 2, 2, .u32, .rws, 4, 4, (.upto 512), (.base 0x20 64), []⟩,
  ⟨0x2110, 3, 3, .enum, .rws, 2, 2, (.upto 512), (.base 0x20 64), [(0, 1)]⟩,
  ⟨0x2120, 1, 1, .blob, .ro, 72, 1, (.upto 512), .none, []⟩,
  ⟨0x2120, 2, 2, .u8, .rws, 1, 1, (.upto 512), (.base 0x20 64), [(0, 35)]⟩,
  ⟨0x2120, 3, 3, .u16, .rw, 2, 2, (.upto 512), .none, [(1, 255)]⟩,
  ⟨0x2120, 4, 4, .i32, .ro, 4, 4, (.upto 512), .none, []⟩,
  ⟨0x2120, 5, 5, .u16, .rw, 2, 2, (.upto 512), .none, [(0, 191)]⟩,
  ⟨0x2120, 6, 6, .bool, .rw, 1, 1, (.upto 512), .none, [(0, 1)]⟩,
  ⟨0x2120, 7, 7, .u64, .ro, 8, 8, (.upto 512), .none, []⟩,
  ⟨0x2120, 8, 8, .bool, .rw, 1, 1, (.upto 512), .none, [(0, 1)]⟩,
  ⟨0x2120, 9, 9, .blob, .wo, 72, 1, (.upto 512), .none, []⟩,
  ⟨0x2120, 10, 10, .u16, .ro, 2, 2, (.upto 512), .none, []⟩,
  ⟨0x2120, 11, 11, .u32, .ro, 4, 4, (.upto 512), .none, []⟩,
  ⟨0x2130, 1, 1, .u16, .rw, 2, 2, (.upto 512), .none, []⟩,
  ⟨0x2130, 2, 2, .u16, .rw, 2, 2, (.upto 512), .none, []⟩,
  ⟨0x2140, 1, 1, .bool, .rw, 1, 1, (.upto 512), .none, [(0, 1)]⟩,
  ⟨0x2140, 2, 2, .u32, .rw, 4, 4, (.upto 512), .none, [(16, 10000)]⟩,
  ⟨0x2140, 3, 3, .u32, .rw, 4, 4, (.upto 512), .none, [(100, 100000)]⟩,
  ⟨0x2140, 4, 4, .u8, .rw, 1, 1, (.upto 512), .none, [(2, 16)]⟩,
  ⟨0x2150, 1, 1, .cmd, .cmd, 1, 0, (.upto 512), .none, []⟩,
  ⟨0x2150, 2, 2, .blob, .ro, 18, 1, (.upto 512), .none, []⟩]

/-- Objects of area 3 (R9). -/
def area3 : List ObjRow := [
  ⟨0x3000, 1, 1, .blob, .rws, 16, 1, (.upto 32), (.base 0x30 4), []⟩,
  ⟨0x3001, 1, 1, .enum, .ro, 2, 2, .ports, .none, []⟩,
  ⟨0x3001, 2, 2, .u32, .ro, 4, 4, .ports, .none, []⟩,
  ⟨0x3001, 3, 3, .enum, .ro, 2, 2, .ports, .none, []⟩,
  ⟨0x3001, 4, 4, .u32, .ro, 4, 4, .ports, .none, []⟩,
  ⟨0x3001, 5, 5, .enum, .ro, 2, 2, .ports, .none, []⟩,
  ⟨0x3002, 1, 1, .bool, .rw, 1, 1, .ports, .none, [(0, 1)]⟩,
  ⟨0x3002, 2, 2, .enum, .rws, 2, 2, .ports, (.base 0x30 64), [(0, 4), (7, 7)]⟩,
  ⟨0x3002, 3, 3, .bool, .rws, 1, 1, .ports, (.base 0x30 64), [(0, 1)]⟩,
  ⟨0x3002, 4, 4, .u16, .rw, 2, 2, .ports, (.base 0x30 64), [(64, 16383)]⟩,
  ⟨0x3002, 5, 5, .u16, .rw, 2, 2, .ports, .none, [(0, 10000)]⟩,
  ⟨0x3002, 6, 6, .bool, .rw, 1, 1, .ports, .none, [(0, 1)]⟩,
  ⟨0x3002, 7, 7, .u64, .rw, 8, 8, .ports, .none, []⟩,
  ⟨0x3010, 0, 0, .bool, .rw, 1, 1, .ports, .none, [(0, 1)]⟩,
  ⟨0x3020, 1, 3, .u64, .ro, 8, 8, .ports, .none, []⟩,
  ⟨0x3020, 4, 4, .blob, .ro, 128, 8, .ports, .none, []⟩,
  ⟨0x3020, 5, 5, .u32, .rw, 4, 4, .ports, .none, []⟩,
  ⟨0x3020, 6, 6, .bool, .ro, 1, 1, .ports, .none, [(0, 1)]⟩,
  ⟨0x3021, 1, 13, .u64, .ro, 8, 8, .ports, .none, []⟩,
  ⟨0x3030, 1, 1, .enum, .rws, 2, 2, .ports, (.base 0x30 64), [(0, 2)]⟩,
  ⟨0x3030, 2, 2, .bits32, .rws, 4, 4, .ports, (.base 0x30 64), []⟩,
  ⟨0x3030, 3, 3, .bits32, .rws, 4, 4, .ports, (.base 0x30 64), []⟩,
  ⟨0x3030, 4, 4, .bits32, .rws, 4, 4, .ports, (.base 0x30 64), []⟩,
  ⟨0x3030, 5, 5, .u16, .rw, 2, 2, .ports, .none, [(2, 65535)]⟩,
  ⟨0x3030, 6, 6, .u16, .rw, 2, 2, .ports, .none, []⟩,
  ⟨0x3030, 7, 7, .u16, .rw, 2, 2, .ports, .none, [(1, 10000)]⟩,
  ⟨0x3031, 1, 2, .u64, .ro, 8, 8, .ports, .none, []⟩,
  ⟨0x3031, 3, 4, .blob, .ro, 64, 8, .ports, .none, []⟩,
  ⟨0x3031, 5, 5, .u32, .ro, 4, 4, .ports, .none, []⟩,
  ⟨0x3031, 6, 6, .bits32, .ro, 4, 4, .ports, .none, []⟩,
  ⟨0x3040, 1, 1, .bool, .rws, 1, 1, .ports, (.base 0x30 64), [(0, 1)]⟩,
  ⟨0x3040, 2, 2, .bits32, .rws, 4, 4, .ports, (.base 0x30 64), []⟩,
  ⟨0x3040, 3, 3, .u8, .rws, 1, 1, .ports, (.base 0x30 64), [(0, 3)]⟩,
  ⟨0x3040, 4, 4, .bool, .rws, 1, 1, .ports, (.base 0x30 64), [(0, 1)]⟩,
  ⟨0x3040, 5, 5, .u8, .rw, 1, 1, .ports, .none, [(1, 128)]⟩,
  ⟨0x3040, 6, 6, .enum, .ro, 2, 2, .ports, .none, []⟩,
  ⟨0x3040, 7, 7, .bool, .ro, 1, 1, .ports, .none, [(0, 1)]⟩,
  ⟨0x3041, 1, 9, .u64, .ro, 8, 8, .ports, .none, []⟩,
  ⟨0x3060, 1, 1, .u16, .rws, 2, 2, .ports, (.base 0x30 64), []⟩,
  ⟨0x3060, 2, 2, .enum, .rws, 2, 2, .ports, (.base 0x30 64), [(0, 2)]⟩,
  ⟨0x3060, 3, 3, .blob, .rws, 16, 2, .ports, (.base 0x30 64), []⟩,
  ⟨0x3060, 4, 4, .enum, .rws, 2, 2, .ports, (.base 0x30 64), [(0, 1)]⟩,
  ⟨0x3060, 5, 5, .u32, .rw, 4, 4, .ports, .none, []⟩,
  ⟨0x3060, 6, 6, .enum, .rws, 2, 2, .ports, (.base 0x30 64), [(0, 2)]⟩,
  ⟨0x3060, 7, 7, .u16, .rws, 2, 2, .ports, (.base 0x30 64), [(8192, 8319)]⟩,
  ⟨0x3061, 1, 5, .u64, .ro, 8, 8, .ports, .none, []⟩]

/-- Objects of area 4 (R9). -/
def area4 : List ObjRow := [
  ⟨0x4000, 1, 1, .u16, .rws, 2, 2, (.upto 32), (.base 0x40 2), [(96, 1024)]⟩,
  ⟨0x4000, 2, 2, .enum, .rws, 2, 2, (.upto 32), (.base 0x40 2), [(0, 1)]⟩,
  ⟨0x4000, 3, 3, .u16, .rws, 2, 2, (.upto 32), (.base 0x40 2), []⟩,
  ⟨0x4000, 4, 4, .u32, .rws, 4, 4, (.upto 32), (.base 0x40 2), []⟩,
  ⟨0x4000, 5, 5, .u16, .rws, 2, 2, (.upto 32), (.base 0x40 2), []⟩,
  ⟨0x4000, 6, 6, .u8, .rws, 1, 1, (.upto 32), (.base 0x40 2), [(0, 1)]⟩,
  ⟨0x4001, 1, 1, .table, .rw, 16384, 4, (.upto 32), .none, []⟩,
  ⟨0x4001, 2, 2, .u32, .ro, 4, 4, (.upto 32), .none, []⟩,
  ⟨0x4010, 1, 13, .u64, .ro, 8, 8, (.upto 32), .none, []⟩,
  ⟨0x4011, 1, 1, .blob, .ro, 8, 1, (.upto 32), .none, []⟩,
  ⟨0x4011, 2, 2, .u16, .rc, 2, 2, (.upto 32), .none, []⟩,
  ⟨0x4011, 3, 3, .blob, .ro, 64, 8, (.upto 32), .none, []⟩,
  ⟨0x4012, 1, 1, .u8, .rw, 1, 1, (.upto 32), .none, [(1, 64)]⟩,
  ⟨0x4012, 2, 2, .blob, .ro, 128, 8, (.upto 32), .none, []⟩,
  ⟨0x4013, 1, 1, .blob, .ro, 128, 8, (.upto 32), .none, []⟩,
  ⟨0x4200, 1, 1, .table, .rw, 4096, 80, (.upto 32), .none, []⟩,
  ⟨0x4200, 2, 2, .table, .rw, 4096, 80, (.upto 32), .none, []⟩,
  ⟨0x4020, 1, 4, .u64, .ro, 8, 8, .ports, .none, []⟩]

/-- Objects of area 5 (R9). -/
def area5 : List ObjRow := [
  ⟨0x5000, 1, 1, .enum, .rws, 2, 2, (.upto 64), (.base 0x58 64), [(0, 5)]⟩,
  ⟨0x5000, 2, 2, .u32, .rws, 4, 4, (.upto 64), (.base 0x58 64), [(0, 2097151)]⟩,
  ⟨0x5000, 3, 3, .u32, .rws, 4, 4, (.upto 64), (.base 0x58 64), []⟩,
  ⟨0x5000, 4, 4, .u8, .rws, 1, 1, (.upto 64), (.base 0x58 64), [(1, 10)]⟩,
  ⟨0x5000, 5, 5, .u32, .rws, 4, 4, (.upto 64), (.base 0x58 64), []⟩,
  ⟨0x5000, 6, 6, .u32, .rws, 4, 4, (.upto 64), (.base 0x58 64), []⟩,
  ⟨0x5000, 7, 7, .bool, .rws, 1, 1, (.upto 64), (.base 0x58 64), [(0, 1)]⟩,
  ⟨0x5000, 8, 8, .enum, .rws, 2, 2, (.upto 64), (.base 0x58 64), [(0, 1)]⟩,
  ⟨0x5000, 9, 9, .bool, .rws, 1, 1, (.upto 64), (.base 0x58 64), [(0, 1)]⟩,
  ⟨0x5000, 10, 10, .enum, .rws, 2, 2, (.upto 64), (.base 0x58 64), [(0, 1)]⟩,
  ⟨0x5001, 1, 1, .blob, .rws, 56, 4, (.upto 64), (.base 0x58 64), []⟩,
  ⟨0x5002, 1, 1, .enum, .rw, 2, 2, (.upto 64), .none, [(0, 4)]⟩,
  ⟨0x5002, 2, 2, .u16, .rw, 2, 2, (.upto 64), .none, [(1, 32768)]⟩,
  ⟨0x5002, 3, 3, .enum, .rw, 2, 2, (.upto 64), .none, [(0, 1)]⟩,
  ⟨0x5002, 4, 4, .u16, .rw, 2, 2, (.upto 64), .none, [(1, 1024)]⟩,
  ⟨0x5002, 5, 5, .u16, .ro, 2, 2, (.upto 64), .none, []⟩,
  ⟨0x5003, 1, 1, .enum, .ro, 2, 2, (.upto 64), .none, []⟩,
  ⟨0x5003, 2, 2, .table, .rw, 0, 16, (.upto 64), .none, []⟩,
  ⟨0x5003, 3, 3, .table, .ro, 256, 16, (.upto 64), .none, []⟩,
  ⟨0x5003, 4, 4, .cmd, .cmd, 32, 0, (.upto 64), .none, []⟩,
  ⟨0x5003, 5, 5, .u32, .ro, 4, 4, (.upto 64), .none, []⟩,
  ⟨0x5004, 1, 13, .u64, .ro, 8, 8, (.upto 64), .none, []⟩,
  ⟨0x5004, 14, 14, .blob, .ro, 40, 8, (.upto 64), .none, []⟩,
  ⟨0x5004, 15, 15, .u64, .ro, 8, 8, (.upto 64), .none, []⟩,
  ⟨0x5100, 1, 1, .blob, .rws, 64, 1, (.upto 32), (.base 0x50 4), []⟩,
  ⟨0x5100, 2, 2, .blob, .rws, 40, 1, (.upto 32), (.base 0x50 4), []⟩,
  ⟨0x5100, 3, 3, .u8, .rws, 1, 1, (.upto 32), (.base 0x50 4), [(0, 15)]⟩,
  ⟨0x5100, 4, 4, .bool, .rws, 1, 1, (.upto 32), (.base 0x50 4), [(0, 1)]⟩,
  ⟨0x5100, 5, 5, .u8, .rws, 1, 1, (.upto 32), (.base 0x50 4), [(0, 1)]⟩,
  ⟨0x5100, 6, 6, .bool, .rws, 1, 1, (.upto 32), (.base 0x50 4), [(0, 1)]⟩,
  ⟨0x5100, 7, 7, .enum, .rws, 2, 2, (.upto 32), (.base 0x50 4), [(0, 1)]⟩,
  ⟨0x5100, 8, 8, .u16, .rws, 2, 2, (.upto 32), (.base 0x50 4), [(8192, 8319)]⟩,
  ⟨0x5101, 1, 1, .table, .rw, 4096, 96, (.upto 32), .none, []⟩,
  ⟨0x5101, 2, 2, .blob, .ro, 32768, 8, (.upto 32), .none, []⟩,
  ⟨0x5102, 1, 1, .table, .wo, 4096, 96, (.upto 1), .none, []⟩,
  ⟨0x5103, 1, 6, .u64, .ro, 8, 8, (.upto 32), .none, []⟩,
  ⟨0x5200, 1, 1, .u32, .rw, 4, 4, (.upto 1), .none, [(100, 100000)]⟩,
  ⟨0x5200, 2, 2, .u8, .rw, 1, 1, (.upto 1), .none, [(0, 7)]⟩,
  ⟨0x5200, 3, 3, .u16, .rw, 2, 2, (.upto 1), .none, [(0, 511), (65535, 65535)]⟩,
  ⟨0x5200, 4, 4, .u64, .ro, 8, 8, (.upto 1), .none, []⟩,
  ⟨0x5200, 5, 5, .u32, .ro, 4, 4, (.upto 1), .none, []⟩,
  ⟨0x5200, 6, 6, .u16, .rw, 2, 2, (.upto 1), .none, []⟩,
  ⟨0x5200, 7, 7, .cmd, .cmd, 0, 0, (.upto 1), .none, []⟩,
  ⟨0x5201, 1, 8, .u64, .ro, 8, 8, (.upto 1), .none, []⟩,
  ⟨0x5300, 1, 1, .bool, .rw, 1, 1, .ports, .none, [(0, 1)]⟩]

/-- Objects of area 6 (R9). -/
def area6 : List ObjRow := [
  ⟨0x6000, 1, 1, .u8, .rws, 1, 1, (.upto 1), (.base 0x60 16384), [(0, 8)]⟩,
  ⟨0x6000, 2, 2, .u32, .rws, 4, 4, (.upto 1), (.base 0x60 16384), [(1024, 65536)]⟩,
  ⟨0x6000, 3, 3, .u32, .ro, 4, 4, (.upto 1), .none, []⟩,
  ⟨0x6000, 4, 4, .u32, .ro, 4, 4, (.upto 1), .none, []⟩,
  ⟨0x6000, 5, 5, .u32, .ro, 4, 4, (.upto 1), .none, []⟩,
  ⟨0x6001, 1, 1, .u32, .rws, 4, 4, (.upto 32), (.base 0x60 16384), [(1024, 16384)]⟩,
  ⟨0x6001, 2, 2, .u32, .ro, 4, 4, (.upto 32), .none, []⟩,
  ⟨0x6001, 3, 3, .u64, .ro, 8, 8, (.upto 32), .none, []⟩,
  ⟨0x6002, 1, 1, .enum, .ro, 2, 2, (.upto 192), .none, []⟩,
  ⟨0x6002, 2, 2, .u16, .ro, 2, 2, (.upto 192), .none, []⟩,
  ⟨0x6002, 3, 3, .u16, .ro, 2, 2, (.upto 192), .none, []⟩,
  ⟨0x6002, 4, 4, .cmd, .cmd, 0, 0, (.upto 192), .none, []⟩,
  ⟨0x6002, 5, 5, .cmd, .cmd, 0, 0, (.upto 192), .none, []⟩,
  ⟨0x6002, 6, 6, .blob, .ro, 16, 8, (.upto 192), .none, []⟩,
  ⟨0x6010, 1, 1, .u32, .rws, 4, 4, (.upto 8), (.base 0x60 16384), []⟩,
  ⟨0x6010, 2, 2, .u32, .ro, 4, 4, (.upto 8), .none, []⟩,
  ⟨0x6010, 3, 3, .u32, .ro, 4, 4, (.upto 8), .none, []⟩,
  ⟨0x6010, 4, 4, .u32, .rc, 4, 4, (.upto 8), .none, []⟩,
  ⟨0x6020, 1, 1, .u8, .rws, 1, 1, .queues, (.base 0x60 16384), [(0, 7)]⟩,
  ⟨0x6020, 2, 2, .u32, .rws, 4, 4, .queues, (.base 0x60 16384), []⟩,
  ⟨0x6020, 3, 3, .u32, .rws, 4, 4, .queues, (.base 0x60 16384), [(0, 0), (64, 1572864)]⟩,
  ⟨0x6021, 1, 1, .u32, .ro, 4, 4, .queues, .none, []⟩,
  ⟨0x6021, 2, 2, .u32, .ro, 4, 4, .queues, .none, []⟩,
  ⟨0x6021, 3, 3, .u32, .rc, 4, 4, .queues, .none, []⟩,
  ⟨0x6021, 4, 4, .blob, .ro, 24, 8, .queues, .none, []⟩,
  ⟨0x6030, 1, 1, .u32, .rws, 4, 4, .ports, (.base 0x60 16384), []⟩,
  ⟨0x6030, 2, 2, .u32, .rws, 4, 4, .ports, (.base 0x60 16384), []⟩,
  ⟨0x6030, 3, 3, .u32, .rws, 4, 4, .ports, (.base 0x60 16384), []⟩,
  ⟨0x6030, 4, 4, .u32, .rws, 4, 4, .ports, (.base 0x60 16384), []⟩,
  ⟨0x6030, 5, 5, .u16, .rws, 2, 2, .ports, (.base 0x60 16384), []⟩,
  ⟨0x6030, 6, 6, .blob, .ro, 8, 4, .ports, .none, []⟩,
  ⟨0x6030, 7, 7, .blob, .ro, 8, 4, .ports, .none, []⟩,
  ⟨0x6030, 8, 8, .blob, .ro, 16, 8, .ports, .none, []⟩,
  ⟨0x6040, 1, 1, .u32, .ro, 4, 4, (.upto 1), .none, []⟩,
  ⟨0x6040, 2, 2, .u16, .ro, 2, 2, (.upto 1), .none, []⟩,
  ⟨0x6040, 3, 3, .u32, .ro, 4, 4, (.upto 1), .none, []⟩,
  ⟨0x6040, 4, 4, .cmd, .cmd, 4, 0, (.upto 1), .none, []⟩,
  ⟨0x6040, 5, 5, .cmd, .cmd, 0, 0, (.upto 1), .none, []⟩,
  ⟨0x6041, 1, 10, .u64, .ro, 8, 8, (.upto 1), .none, []⟩,
  ⟨0x6041, 11, 11, .u64, .ro, 8, 8, (.upto 1), .none, []⟩,
  ⟨0x6041, 12, 12, .u64, .ro, 8, 8, (.upto 1), .none, []⟩,
  ⟨0x6050, 1, 1, .cmd, .cmd, 0, 0, (.upto 1), .none, []⟩,
  ⟨0x6050, 2, 2, .blob, .ro, 80, 4, (.upto 1), .none, []⟩,
  ⟨0x6100, 1, 1, .table, .rw, 65536, 8, (.upto 1), .none, []⟩,
  ⟨0x6101, 1, 1, .table, .rw, 262144, 4, (.upto 1), .none, []⟩]

/-- Objects of area 7 (R9). -/
def area7 : List ObjRow := [
  ⟨0x7000, 1, 1, .i32, .rws, 4, 4, .ports, (.base 0x70 64), [(-63, 63)]⟩,
  ⟨0x7000, 2, 2, .enum, .rws, 2, 2, .ports, (.base 0x70 64), [(0, 2)]⟩,
  ⟨0x7000, 3, 3, .u8, .rws, 1, 1, .ports, (.base 0x70 64), []⟩,
  ⟨0x7000, 4, 4, .u32, .ro, 4, 4, .ports, .none, []⟩,
  ⟨0x7000, 5, 5, .u64, .ro, 8, 8, .ports, .none, []⟩,
  ⟨0x7000, 6, 6, .u32, .rw, 4, 4, .ports, .none, [(10, 1000000)]⟩,
  ⟨0x7000, 7, 7, .u16, .rw, 2, 2, .ports, .none, [(1, 10000)]⟩,
  ⟨0x7001, 1, 1, .u16, .rws, 2, 2, .schedQueues, .queueSched, [(1, 65535)]⟩,
  ⟨0x7001, 2, 2, .u32, .rws, 4, 4, .schedQueues, .queueSched, []⟩,
  ⟨0x7001, 3, 3, .u32, .rws, 4, 4, .schedQueues, .queueSched, [(64, 16777215)]⟩,
  ⟨0x7001, 4, 4, .bool, .rws, 1, 1, .schedQueues, .queueSched, [(0, 1)]⟩,
  ⟨0x7001, 5, 5, .u32, .rw, 4, 4, .schedQueues, .none, []⟩,
  ⟨0x7002, 1, 1, .u64, .ro, 8, 8, .schedQueues, .none, []⟩,
  ⟨0x7002, 2, 2, .i32, .ro, 4, 4, .schedQueues, .none, []⟩,
  ⟨0x7002, 3, 9, .u64, .ro, 8, 8, .schedQueues, .none, []⟩,
  ⟨0x7100, 1, 1, .bool, .rws, 1, 1, .ports, (.base 0x70 64), [(0, 1)]⟩,
  ⟨0x7100, 2, 2, .u8, .rws, 1, 1, .ports, (.base 0x70 64), [(0, 1)]⟩,
  ⟨0x7100, 3, 3, .time96, .rws, 12, 12, .ports, (.base 0x70 64), []⟩,
  ⟨0x7100, 4, 4, .u32, .rws, 4, 4, .ports, (.base 0x70 64), []⟩,
  ⟨0x7100, 5, 5, .u16, .rws, 2, 2, .ports, (.base 0x70 64), []⟩,
  ⟨0x7100, 6, 6, .u8, .rws, 1, 1, .ports, (.base 0x70 64), [(0, 7)]⟩,
  ⟨0x7101, 1, 1, .table, .rw, 256, 8, .ports, .none, []⟩,
  ⟨0x7101, 2, 2, .table, .rw, 256, 8, .ports, .none, []⟩,
  ⟨0x7102, 1, 1, .enum, .ro, 2, 2, .ports, .none, []⟩,
  ⟨0x7102, 2, 2, .time96, .ro, 12, 12, .ports, .none, []⟩,
  ⟨0x7102, 3, 3, .u16, .ro, 2, 2, .ports, .none, []⟩,
  ⟨0x7102, 4, 4, .bits32, .ro, 4, 4, .ports, .none, []⟩,
  ⟨0x7102, 5, 7, .u64, .ro, 8, 8, .ports, .none, []⟩,
  ⟨0x7200, 1, 1, .enum, .rws, 2, 2, (.upto 4096), (.base 0x78 4096), [(0, 2)]⟩,
  ⟨0x7200, 2, 2, .u32, .rws, 4, 4, (.upto 4096), (.base 0x78 4096), []⟩,
  ⟨0x7200, 3, 3, .u32, .rws, 4, 4, (.upto 4096), (.base 0x78 4096), [(64, 4194304)]⟩,
  ⟨0x7200, 4, 4, .u32, .rws, 4, 4, (.upto 4096), (.base 0x78 4096), []⟩,
  ⟨0x7200, 5, 5, .u32, .rws, 4, 4, (.upto 4096), (.base 0x78 4096), [(64, 4194304)]⟩,
  ⟨0x7200, 6, 8, .u64, .ro, 8, 8, (.upto 4096), .none, []⟩,
  ⟨0x7201, 1, 1, .table, .rw, 1048576, 16, (.upto 1), .none, []⟩]

/-- Objects of area 8 (R9). -/
def area8 : List ObjRow := [
  ⟨0x8000, 1, 1, .time96, .ro, 12, 12, (.upto 8), .none, []⟩,
  ⟨0x8000, 2, 2, .enum, .ro, 2, 2, (.upto 8), .none, []⟩,
  ⟨0x8000, 3, 3, .i32, .rw, 4, 4, (.upto 8), .none, [(-549755813, 549755813)]⟩,
  ⟨0x8000, 4, 4, .cmd, .cmd, 12, 0, (.upto 8), .none, []⟩,
  ⟨0x8000, 5, 5, .cmd, .cmd, 8, 0, (.upto 8), .none, []⟩,
  ⟨0x8000, 6, 6, .cmd, .cmd, 1, 0, (.upto 8), .none, []⟩,
  ⟨0x8000, 7, 7, .u32, .rw, 4, 4, (.upto 8), .none, [(1, 1000000)]⟩,
  ⟨0x8000, 8, 8, .u32, .rw, 4, 4, (.upto 8), .none, [(1, 500000)]⟩,
  ⟨0x8000, 9, 9, .i32, .ro, 4, 4, (.upto 8), .none, []⟩,
  ⟨0x8000, 10, 10, .blob, .ro, 20, 1, (.upto 8), .none, []⟩,
  ⟨0x8000, 11, 14, .u64, .ro, 8, 8, (.upto 8), .none, []⟩,
  ⟨0x8000, 15, 15, .enum, .rw, 2, 2, (.upto 8), .none, [(0, 1)]⟩,
  ⟨0x8000, 16, 16, .bool, .rw, 1, 1, (.upto 8), .none, [(0, 1)]⟩,
  ⟨0x8001, 1, 1, .u64, .ro, 8, 8, (.upto 1), .none, []⟩,
  ⟨0x8010, 1, 1, .enum, .rw, 2, 2, (.upto 1), .none, [(0, 1)]⟩,
  ⟨0x8010, 2, 2, .enum, .ro, 2, 2, (.upto 1), .none, []⟩,
  ⟨0x8010, 3, 3, .i32, .ro, 4, 4, (.upto 1), .none, []⟩,
  ⟨0x8010, 4, 4, .u32, .ro, 4, 4, (.upto 1), .none, []⟩,
  ⟨0x8020, 1, 1, .bool, .rw, 1, 1, (.upto 1), .none, [(0, 1)]⟩,
  ⟨0x8020, 2, 2, .i32, .rw, 4, 4, (.upto 1), .none, [(-1000000, 1000000)]⟩,
  ⟨0x8020, 3, 3, .blob, .ro, 112, 1, (.upto 1), .none, []⟩,
  ⟨0x8020, 4, 4, .u32, .ro, 4, 4, (.upto 1), .none, []⟩,
  ⟨0x8030, 1, 1, .enum, .rw, 2, 2, (.upto 8), .none, [(0, 2)]⟩,
  ⟨0x8030, 2, 2, .u8, .rw, 1, 1, (.upto 8), .none, [(0, 7)]⟩,
  ⟨0x8030, 3, 3, .enum, .ro, 2, 2, (.upto 8), .none, []⟩,
  ⟨0x8030, 4, 4, .u32, .rw, 4, 4, (.upto 8), .none, [(1, 1000000)]⟩,
  ⟨0x8030, 5, 5, .i32, .ro, 4, 4, (.upto 8), .none, []⟩,
  ⟨0x8030, 6, 6, .u32, .rw, 4, 4, (.upto 8), .none, []⟩,
  ⟨0x8030, 7, 7, .u32, .rw, 4, 4, (.upto 8), .none, []⟩,
  ⟨0x8040, 1, 1, .bool, .rw, 1, 1, (.upto 8), .none, [(0, 1)]⟩,
  ⟨0x8040, 2, 2, .i32, .rw, 4, 4, (.upto 8), .none, [(-500000000, 500000000)]⟩,
  ⟨0x8040, 3, 3, .u32, .rw, 4, 4, (.upto 8), .none, [(100, 900000000)]⟩,
  ⟨0x8050, 1, 1, .cmd, .cmd, 0, 0, (.upto 1), .none, []⟩,
  ⟨0x8100, 1, 1, .u8, .rws, 1, 1, .ports, (.base 0x80 64), [(0, 7)]⟩,
  ⟨0x8100, 2, 2, .enum, .rws, 2, 2, .ports, (.base 0x80 64), [(0, 2)]⟩,
  ⟨0x8100, 3, 3, .i32, .rw, 4, 4, .ports, .none, [(-100000, 100000)]⟩,
  ⟨0x8100, 4, 4, .i32, .rw, 4, 4, .ports, .none, [(-100000, 100000)]⟩,
  ⟨0x8100, 5, 5, .u32, .rw, 4, 4, .ports, .none, []⟩,
  ⟨0x8100, 6, 12, .u64, .ro, 8, 8, .ports, .none, []⟩,
  ⟨0x8200, 1, 1, .u8, .rws, 1, 1, (.upto 32), (.base 0x88 4), [(12, 62), (255, 255)]⟩]

/-- Objects of area 9 (R9). -/
def area9 : List ObjRow := [
  ⟨0x9000, 1, 1, .u8, .rws, 1, 1, (.upto 1), (.base 0x90 2), [(0, 7)]⟩,
  ⟨0x9000, 2, 2, .u16, .rws, 2, 2, (.upto 1), (.base 0x90 2), [(1, 4096)]⟩,
  ⟨0x9000, 3, 3, .u32, .rw, 4, 4, (.upto 1), .none, [(10, 1000000)]⟩,
  ⟨0x9000, 4, 8, .u64, .ro, 8, 8, (.upto 1), .none, []⟩,
  ⟨0x9000, 9, 9, .u32, .ro, 4, 4, (.upto 1), .none, []⟩,
  ⟨0x9010, 1, 1, .blob, .ro, 4096, 8, .ports, .none, []⟩,
  ⟨0x9010, 2, 2, .u64, .ro, 8, 8, .ports, .none, []⟩,
  ⟨0x9010, 3, 3, .u32, .ro, 4, 4, .ports, .none, []⟩,
  ⟨0x9010, 4, 4, .cmd, .cmd, 0, 0, .ports, .none, []⟩,
  ⟨0x9010, 5, 5, .blob, .ro, 4112, 8, .ports, .none, []⟩,
  ⟨0x9011, 1, 1, .blob, .ro, 4096, 8, (.upto 1), .none, []⟩,
  ⟨0x9020, 1, 1, .blob, .ro, 512, 8, .queues, .none, []⟩,
  ⟨0x9020, 2, 2, .blob, .ro, 264, 8, .queues, .none, []⟩,
  ⟨0x9020, 3, 3, .u32, .rc, 4, 4, .queues, .none, []⟩,
  ⟨0x9030, 1, 1, .table, .rw, 65536, 2, (.upto 1), .none, []⟩,
  ⟨0x9030, 2, 2, .cmd, .cmd, 0, 0, (.upto 1), .none, []⟩,
  ⟨0x9030, 3, 3, .u8, .ro, 1, 1, (.upto 1), .none, []⟩,
  ⟨0x9030, 4, 4, .table, .ro, 1048576, 16, (.upto 1), .none, []⟩,
  ⟨0x9030, 5, 5, .table, .ro, 1048576, 16, (.upto 1), .none, []⟩,
  ⟨0x9030, 6, 6, .cmd, .cmd, 0, 0, (.upto 1), .none, []⟩,
  ⟨0x9030, 7, 7, .u64, .ro, 8, 8, (.upto 1), .none, []⟩,
  ⟨0x9030, 8, 8, .time96, .ro, 12, 12, (.upto 1), .none, []⟩,
  ⟨0x9040, 1, 1, .u16, .rw, 2, 2, (.upto 1), .none, [(1, 3600)]⟩,
  ⟨0x9040, 2, 2, .u16, .rw, 2, 2, (.upto 1), .none, [(0, 3600)]⟩,
  ⟨0x9040, 3, 3, .u16, .rw, 2, 2, (.upto 1), .none, [(0, 511), (65535, 65535)]⟩,
  ⟨0x9040, 4, 4, .bool, .rw, 1, 1, (.upto 1), .none, [(0, 1)]⟩,
  ⟨0x9040, 5, 5, .cmd, .cmd, 0, 0, (.upto 1), .none, []⟩,
  ⟨0x9040, 6, 6, .table, .ro, 1048576, 64, (.upto 1), .none, []⟩,
  ⟨0x9040, 7, 13, .u64, .ro, 8, 8, (.upto 1), .none, []⟩,
  ⟨0x9040, 14, 14, .u64, .ro, 8, 8, (.upto 1), .none, []⟩,
  ⟨0x9041, 1, 1, .bool, .rws, 1, 1, (.upto 32), (.base 0x98 4), [(0, 1)]⟩,
  ⟨0x9041, 2, 2, .blob, .rws, 32, 1, (.upto 32), (.base 0x98 4), []⟩,
  ⟨0x9041, 3, 3, .u8, .rws, 1, 1, (.upto 32), (.base 0x98 4), [(12, 62), (255, 255)]⟩,
  ⟨0x9050, 1, 1, .blob, .rw, 16, 1, (.upto 1), .none, []⟩,
  ⟨0x9050, 2, 2, .u16, .rw, 2, 2, (.upto 1), .none, []⟩,
  ⟨0x9050, 3, 3, .u8, .rw, 1, 1, (.upto 1), .none, [(0, 1)]⟩,
  ⟨0x9050, 4, 4, .u32, .rw, 4, 4, (.upto 1), .none, []⟩,
  ⟨0x9050, 5, 5, .u16, .rw, 2, 2, (.upto 1), .none, [(10, 3600)]⟩,
  ⟨0x9050, 6, 6, .u16, .rw, 2, 2, (.upto 1), .none, []⟩,
  ⟨0x9050, 7, 7, .blob, .rws, 32, 1, (.upto 1), (.base 0x90 2), []⟩,
  ⟨0x9050, 8, 8, .u16, .ro, 2, 2, (.upto 1), .none, []⟩,
  ⟨0x9050, 9, 9, .u64, .ro, 8, 8, (.upto 1), .none, []⟩,
  ⟨0x9060, 1, 1, .u16, .rws, 2, 2, (.upto 1), (.base 0x90 2), [(0, 8319)]⟩,
  ⟨0x9060, 2, 2, .blob, .rws, 128, 1, (.upto 1), (.base 0x90 2), []⟩,
  ⟨0x9060, 3, 3, .u8, .rws, 1, 1, (.upto 1), (.base 0x90 2), [(14, 128)]⟩,
  ⟨0x9060, 4, 4, .u8, .rws, 1, 1, (.upto 1), (.base 0x90 2), []⟩,
  ⟨0x9060, 5, 5, .u16, .rw, 2, 2, (.upto 1), .none, [(1, 10000)]⟩,
  ⟨0x9070, 1, 1, .u32, .rws, 4, 4, (.upto 1), (.base 0x90 2), []⟩,
  ⟨0x9070, 2, 2, .u8, .rws, 1, 1, (.upto 1), (.base 0x90 2), [(1, 16)]⟩,
  ⟨0x9070, 3, 3, .u16, .rws, 2, 2, (.upto 1), (.base 0x90 2), []⟩,
  ⟨0x9070, 4, 4, .u32, .rws, 4, 4, (.upto 1), (.base 0x90 2), []⟩,
  ⟨0x9070, 5, 5, .u8, .rws, 1, 1, (.upto 1), (.base 0x90 2), [(0, 7)]⟩,
  ⟨0x9070, 6, 9, .u64, .ro, 8, 8, (.upto 1), .none, []⟩,
  ⟨0x9080, 1, 1, .u16, .rws, 2, 2, (.upto 64), (.base 0x91 512), [(0, 511), (65535, 65535)]⟩,
  ⟨0x9080, 2, 2, .u32, .rws, 4, 4, (.upto 64), (.base 0x91 512), [(1, 4294967295)]⟩,
  ⟨0x9080, 3, 3, .u16, .rws, 2, 2, (.upto 64), (.base 0x91 512), []⟩,
  ⟨0x9080, 4, 4, .blob, .rws, 64, 1, (.upto 64), (.base 0x91 512), []⟩,
  ⟨0x9080, 5, 5, .u8, .rws, 1, 1, (.upto 64), (.base 0x91 512), [(0, 64)]⟩,
  ⟨0x9080, 6, 6, .u8, .rws, 1, 1, (.upto 64), (.base 0x91 512), []⟩,
  ⟨0x9080, 7, 7, .u64, .ro, 8, 8, (.upto 64), .none, []⟩,
  ⟨0x9081, 1, 1, .u8, .rws, 1, 1, .ports, (.base 0x91 512), [(0, 63), (255, 255)]⟩]

/-- Objects of area A (R9). -/
def areaA : List ObjRow := [
  ⟨0xA000, 1, 1, .enum, .ro, 2, 2, (.upto 1), .none, []⟩,
  ⟨0xA000, 2, 2, .u8, .ro, 1, 1, (.upto 1), .none, []⟩,
  ⟨0xA000, 3, 3, .enum, .rw, 2, 2, (.upto 1), .none, [(1, 5)]⟩,
  ⟨0xA000, 4, 4, .u32, .ro, 4, 4, (.upto 1), .none, []⟩,
  ⟨0xA000, 5, 5, .u16, .ro, 2, 2, (.upto 1), .none, []⟩,
  ⟨0xA010, 1, 1, .table, .rw, 65536, 8, (.upto 1), .none, []⟩,
  ⟨0xA010, 2, 2, .u32, .rw, 4, 4, (.upto 1), .none, [(0, 65536)]⟩,
  ⟨0xA010, 3, 3, .u32, .rw, 4, 4, (.upto 1), .none, [(0, 65536)]⟩,
  ⟨0xA010, 4, 4, .cmd, .cmd, 0, 0, (.upto 1), .none, []⟩,
  ⟨0xA010, 5, 5, .u64, .ro, 8, 8, (.upto 1), .none, []⟩,
  ⟨0xA100, 1, 1, .enum, .rw, 2, 2, (.upto 512), .none, [(0, 7)]⟩,
  ⟨0xA100, 2, 2, .enum, .rw, 2, 2, (.upto 512), .none, [(0, 1)]⟩,
  ⟨0xA100, 3, 3, .u64, .rw, 8, 8, (.upto 512), .none, [(0, 281474976710655)]⟩,
  ⟨0xA100, 4, 4, .u32, .rw, 4, 4, (.upto 512), .none, [(16, 65536)]⟩,
  ⟨0xA100, 5, 5, .u64, .rw, 8, 8, (.upto 512), .none, [(0, 281474976710655)]⟩,
  ⟨0xA100, 6, 6, .u16, .rw, 2, 2, (.upto 512), .none, [(64, 16384)]⟩,
  ⟨0xA100, 7, 7, .u8, .rw, 1, 1, (.upto 512), .none, [(1, 16)]⟩,
  ⟨0xA100, 8, 8, .u32, .rw, 4, 4, (.upto 512), .none, [(1, 1048576)]⟩,
  ⟨0xA100, 9, 9, .u8, .rw, 1, 1, (.upto 512), .none, [(1, 64)]⟩,
  ⟨0xA100, 10, 10, .enum, .rw, 2, 2, (.upto 512), .none, [(0, 1)]⟩,
  ⟨0xA100, 11, 11, .u16, .rw, 2, 2, (.upto 512), .none, [(64, 2047), (65535, 65535)]⟩,
  ⟨0xA100, 12, 12, .u16, .rw, 2, 2, (.upto 512), .none, [(1, 256)]⟩,
  ⟨0xA100, 13, 13, .u16, .rw, 2, 2, (.upto 512), .none, [(0, 1000)]⟩,
  ⟨0xA100, 14, 14, .enum, .ro, 2, 2, (.upto 512), .none, []⟩,
  ⟨0xA100, 15, 15, .blob, .ro, 16, 1, (.upto 512), .none, []⟩,
  ⟨0xA100, 16, 21, .u64, .ro, 8, 8, (.upto 512), .none, []⟩,
  ⟨0xA200, 1, 1, .enum, .ro, 2, 2, (.upto 32), .none, []⟩,
  ⟨0xA200, 2, 2, .cmd, .cmd, 0, 0, (.upto 32), .none, []⟩,
  ⟨0xA200, 3, 3, .blob, .ro, 24, 1, (.upto 32), .none, []⟩,
  ⟨0xA200, 4, 4, .u32, .ro, 4, 4, (.upto 32), .none, []⟩,
  ⟨0xA300, 1, 1, .u64, .rw, 8, 8, (.upto 8), .none, [(0, 281474976710655)]⟩,
  ⟨0xA300, 2, 2, .u16, .rw, 2, 2, (.upto 8), .none, [(64, 4096)]⟩,
  ⟨0xA300, 3, 3, .u16, .rw, 2, 2, (.upto 8), .none, [(0, 8319)]⟩,
  ⟨0xA300, 4, 4, .u16, .ro, 2, 2, (.upto 8), .none, []⟩,
  ⟨0xA400, 1, 1, .u16, .rws, 2, 2, .hostQueues, (.base 0xA0 16384), [(0, 511), (65535, 65535)]⟩]

/-- Objects of area B (R9). -/
def areaB : List ObjRow := [
  ⟨0xB000, 1, 1, .u16, .wo, 2, 2, (.upto 1), .none, [(3840, 4094)]⟩,
  ⟨0xB000, 2, 2, .u64, .ro, 8, 8, (.upto 1), .none, []⟩,
  ⟨0xB000, 3, 3, .u64, .ro, 8, 8, (.upto 1), .none, []⟩,
  ⟨0xB001, 1, 1, .bits32, .rw, 4, 4, (.upto 128), .none, []⟩,
  ⟨0xB001, 2, 2, .bits32, .ro, 4, 4, (.upto 128), .none, []⟩,
  ⟨0xB100, 1, 1, .u8, .rw, 1, 1, .sources, (.base 0xB0 256), []⟩,
  ⟨0xB100, 2, 2, .u8, .rw, 1, 1, .sources, (.base 0xB0 256), [(0, 67)]⟩,
  ⟨0xB100, 3, 3, .u8, .rw, 1, 1, .sources, (.base 0xB0 256), [(0, 67), (255, 255)]⟩,
  ⟨0xB100, 4, 4, .bool, .rw, 1, 1, .sources, .none, [(0, 1)]⟩,
  ⟨0xB100, 5, 5, .enum, .ro, 2, 2, .sources, .none, []⟩,
  ⟨0xB100, 6, 6, .blob, .ro, 48, 8, .sources, .none, []⟩,
  ⟨0xB100, 7, 7, .cmd, .cmd, 0, 0, .sources, .none, []⟩,
  ⟨0xB200, 1, 1, .u8, .rw, 1, 1, (.upto 68), .none, [(1, 7)]⟩,
  ⟨0xB200, 2, 2, .u32, .rw, 4, 4, (.upto 68), .none, [(1, 100000)]⟩,
  ⟨0xB200, 3, 3, .enum, .ro, 2, 2, (.upto 68), .none, []⟩,
  ⟨0xB200, 4, 4, .u8, .ro, 1, 1, (.upto 68), .none, []⟩,
  ⟨0xB200, 5, 5, .blob, .ro, 32, 2, (.upto 68), .none, []⟩,
  ⟨0xB200, 6, 6, .cmd, .cmd, 0, 0, (.upto 68), .none, []⟩,
  ⟨0xB200, 7, 15, .u64, .ro, 8, 8, (.upto 68), .none, []⟩]

/-- Objects of area C (R9). -/
def areaC : List ObjRow := [
  ⟨0xC000, 1, 1, .u8, .rw, 1, 1, (.upto 1), .none, [(0, 7)]⟩,
  ⟨0xC000, 2, 2, .u64, .ro, 8, 8, (.upto 1), .none, []⟩,
  ⟨0xC000, 3, 3, .table, .ro, 4096, 128, (.upto 1), .none, []⟩,
  ⟨0xC000, 4, 4, .cmd, .cmd, 12, 0, (.upto 1), .none, []⟩,
  ⟨0xC000, 5, 5, .u16, .ro, 2, 2, (.upto 1), .none, []⟩,
  ⟨0xC000, 6, 6, .u64, .ro, 8, 8, (.upto 1), .none, []⟩,
  ⟨0xC000, 7, 7, .u32, .ro, 4, 4, (.upto 1), .none, []⟩,
  ⟨0xC100, 1, 1, .enum, .ro, 2, 2, .faultSources, .none, []⟩,
  ⟨0xC100, 2, 2, .u16, .rw, 2, 2, .faultSources, .none, [(1, 65535)]⟩,
  ⟨0xC100, 3, 3, .u32, .rw, 4, 4, .faultSources, .none, [(1, 3600000)]⟩,
  ⟨0xC100, 4, 4, .u32, .rw, 4, 4, .faultSources, .none, [(100, 86400000)]⟩,
  ⟨0xC100, 5, 5, .bool, .rw, 1, 1, .faultSources, .none, [(0, 1)]⟩,
  ⟨0xC100, 6, 6, .enum, .ro, 2, 2, .faultSources, .none, []⟩,
  ⟨0xC100, 7, 7, .cmd, .cmd, 0, 0, .faultSources, .none, []⟩,
  ⟨0xC100, 8, 8, .u32, .ro, 4, 4, .faultSources, .none, []⟩,
  ⟨0xC100, 9, 15, .u64, .ro, 8, 8, .faultSources, .none, []⟩,
  ⟨0xC100, 16, 16, .u64, .ro, 8, 8, .faultSources, .none, []⟩,
  ⟨0xC200, 1, 1, .enum, .rw, 2, 2, (.upto 21), .none, [(0, 1)]⟩,
  ⟨0xC200, 2, 2, .u32, .rw, 4, 4, (.upto 21), .none, [(1, 3600000)]⟩,
  ⟨0xC200, 3, 3, .u64, .ro, 8, 8, (.upto 21), .none, []⟩]

/-- Objects of area D (R9). -/
def areaD : List ObjRow := [
  ⟨0xD000, 1, 1, .bits32, .ro, 4, 4, (.upto 1), .none, []⟩,
  ⟨0xD000, 2, 2, .enum, .ro, 2, 2, (.upto 1), .none, []⟩,
  ⟨0xD000, 3, 3, .u8, .ro, 1, 1, (.upto 1), .none, []⟩,
  ⟨0xD000, 4, 4, .blob, .ro, 12, 1, (.upto 1), .none, []⟩,
  ⟨0xD000, 5, 5, .enum, .ro, 2, 2, (.upto 1), .none, []⟩,
  ⟨0xD010, 1, 1, .blob, .wo, 8388608, 1, (.upto 1), .none, []⟩,
  ⟨0xD010, 2, 2, .cmd, .cmd, 0, 0, (.upto 1), .none, []⟩,
  ⟨0xD010, 3, 3, .cmd, .cmd, 0, 0, (.upto 1), .none, []⟩,
  ⟨0xD010, 4, 4, .cmd, .cmd, 1, 0, (.upto 1), .none, []⟩,
  ⟨0xD010, 5, 5, .enum, .ro, 2, 2, (.upto 1), .none, []⟩,
  ⟨0xD010, 6, 6, .u32, .ro, 4, 4, (.upto 1), .none, []⟩,
  ⟨0xD010, 7, 7, .u16, .ro, 2, 2, (.upto 1), .none, []⟩,
  ⟨0xD010, 8, 8, .u64, .ro, 8, 8, (.upto 1), .none, []⟩,
  ⟨0xD011, 1, 1, .blob, .wo, 4194304, 1, (.upto 1), .none, []⟩,
  ⟨0xD011, 2, 2, .cmd, .cmd, 0, 0, (.upto 1), .none, []⟩,
  ⟨0xD100, 1, 1, .enum, .ro, 2, 2, (.upto 32), .none, []⟩,
  ⟨0xD100, 2, 2, .enum, .rws, 2, 2, (.upto 32), (.base 0xD0 2), [(0, 1)]⟩,
  ⟨0xD100, 3, 3, .bool, .rws, 1, 1, (.upto 32), (.base 0xD0 2), [(0, 1)]⟩,
  ⟨0xD100, 4, 4, .cmd, .cmd, 0, 0, (.upto 32), .none, []⟩,
  ⟨0xD100, 5, 7, .u64, .ro, 8, 8, (.upto 32), .none, []⟩,
  ⟨0xD200, 1, 1, .i32, .ro, 4, 4, (.upto 64), .none, []⟩,
  ⟨0xD200, 2, 2, .i32, .rw, 4, 4, (.upto 64), .none, []⟩,
  ⟨0xD200, 3, 3, .i32, .rc, 4, 4, (.upto 64), .none, []⟩,
  ⟨0xD210, 1, 1, .u16, .ro, 2, 2, (.upto 1), .none, []⟩,
  ⟨0xD210, 2, 2, .blob, .ro, 14, 2, (.upto 1), .none, []⟩,
  ⟨0xD300, 1, 1, .cmd, .cmd, 68, 0, (.upto 16), .none, []⟩,
  ⟨0xD300, 2, 2, .enum, .rw, 2, 2, (.upto 16), .none, [(0, 2)]⟩,
  ⟨0xD300, 3, 3, .u16, .rw, 2, 2, (.upto 16), .none, [(1, 1000)]⟩,
  ⟨0xD300, 4, 4, .blob, .ro, 16, 8, (.upto 16), .none, []⟩,
  ⟨0xD310, 1, 1, .cmd, .cmd, 6, 0, (.upto 4), .none, []⟩,
  ⟨0xD310, 2, 2, .u16, .rw, 2, 2, (.upto 4), .none, [(80, 2560)]⟩,
  ⟨0xD310, 3, 3, .blob, .ro, 16, 8, (.upto 4), .none, []⟩]

/-- Objects of area E (R9, R10). The spec gives no largest data length of DIAG_UNLOCK: 1,024 is a DESIGN CHOICE, log 81. -/
def areaE : List ObjRow := [
  ⟨0xE000, 1, 1, .enum, .ro, 2, 2, (.upto 1), .none, []⟩,
  ⟨0xE000, 2, 2, .cmd, .cmd, 1024, 0, (.upto 1), .none, []⟩,
  ⟨0xE010, 1, 1, .blob, .ro, 65536, 1, (.upto 32), .none, []⟩,
  ⟨0xE020, 1, 1, .blob, .ro, 16384, 1, (.upto 8), .none, []⟩,
  ⟨0xE030, 1, 1, .blob, .ro, 64, 1, (.upto 192), .none, []⟩,
  ⟨0xE040, 1, 1, .blob, .ro, 64, 1, (.upto 16), .none, []⟩,
  ⟨0xE050, 1, 1, .blob, .ro, 1024, 1, (.upto 1), .none, []⟩,
  ⟨0xE060, 1, 1, .blob, .ro, 65536, 1, (.upto 4), .none, []⟩]

/-- The object table of an area; areas F and above hold none (R9). -/
def areaRows : Nat → List ObjRow
  | 0x0 => area0
  | 0x1 => area1
  | 0x2 => area2
  | 0x3 => area3
  | 0x4 => area4
  | 0x5 => area5
  | 0x6 => area6
  | 0x7 => area7
  | 0x8 => area8
  | 0x9 => area9
  | 0xA => areaA
  | 0xB => areaB
  | 0xC => areaC
  | 0xD => areaD
  | 0xE => areaE
  | _ => []

/-- The defaults other than 0 that area 0 gives as one number. -/
def areaDefaults0 : List (Nat × Nat × Nat) := [
  (0x0001, 0, 3),
  (0x0001, 2, 2048),
  (0x0001, 3, 16897)]

/-- The defaults other than 0 that area 1 gives as one number. -/
def areaDefaults1 : List (Nat × Nat × Nat) := [
  (0x1000, 1, 1),
  (0x1010, 1, 48208),
  (0x1010, 2, 120),
  (0x1010, 3, 64),
  (0x1010, 4, 600),
  (0x1020, 2, 255),
  (0x1040, 1, 255)]

/-- The defaults other than 0 that area 2 gives as one number. -/
def areaDefaults2 : List (Nat × Nat × Nat) := [
  (0x2000, 3, 1),
  (0x2000, 5, 1),
  (0x2100, 2, 1),
  (0x2110, 1, 16384),
  (0x2110, 2, 16265978),
  (0x2120, 2, 6),
  (0x2120, 3, 128),
  (0x2120, 5, 160),
  (0x2120, 6, 1),
  (0x2120, 8, 1),
  (0x2130, 1, 50),
  (0x2130, 2, 80),
  (0x2140, 1, 1),
  (0x2140, 2, 64),
  (0x2140, 3, 1000),
  (0x2140, 4, 12)]

/-- The defaults other than 0 that area 3 gives as one number. -/
def areaDefaults3 : List (Nat × Nat × Nat) := [
  (0x3001, 1, 1),
  (0x3002, 2, 7),
  (0x3002, 4, 9216),
  (0x3002, 6, 1),
  (0x3010, 0, 1),
  (0x3020, 5, 1000),
  (0x3030, 5, 65535),
  (0x3030, 6, 200),
  (0x3030, 7, 100),
  (0x3040, 5, 10),
  (0x3060, 1, 65535),
  (0x3060, 7, 8192)]

/-- The defaults other than 0 that area 4 gives as one number. -/
def areaDefaults4 : List (Nat × Nat × Nat) := [
  (0x4000, 1, 1024),
  (0x4012, 1, 8)]

/-- The defaults other than 0 that area 5 gives as one number. -/
def areaDefaults5 : List (Nat × Nat × Nat) := [
  (0x5000, 4, 8),
  (0x5000, 6, 4294967295),
  (0x5002, 2, 300),
  (0x5002, 4, 64),
  (0x5100, 3, 15),
  (0x5100, 8, 8192),
  (0x5200, 1, 1000),
  (0x5200, 3, 65535),
  (0x5300, 1, 1)]

/-- The defaults other than 0 that area 6 gives as one number. -/
def areaDefaults6 : List (Nat × Nat × Nat) := [
  (0x6000, 1, 1),
  (0x6000, 2, 8192),
  (0x6000, 3, 1433600),
  (0x6000, 4, 1572864),
  (0x6000, 5, 1572864),
  (0x6001, 1, 4096),
  (0x6002, 2, 8192),
  (0x6030, 3, 256),
  (0x6030, 4, 256),
  (0x6030, 5, 64),
  (0x6040, 1, 2097152),
  (0x6040, 2, 32768),
  (0x6040, 3, 4194304)]

/-- The defaults other than 0 that area 7 gives as one number. -/
def areaDefaults7 : List (Nat × Nat × Nat) := [
  (0x7000, 1, 20),
  (0x7000, 3, 2),
  (0x7000, 6, 1000),
  (0x7000, 7, 1000),
  (0x7001, 1, 1),
  (0x7001, 3, 16384),
  (0x7002, 2, 16384),
  (0x7100, 4, 1000000),
  (0x7100, 5, 1),
  (0x7102, 4, 131071),
  (0x7200, 3, 16384),
  (0x7200, 5, 16384)]

/-- The defaults other than 0 that area 8 gives as one number. -/
def areaDefaults8 : List (Nat × Nat × Nat) := [
  (0x8000, 7, 1000),
  (0x8000, 8, 100000),
  (0x8030, 4, 100),
  (0x8030, 6, 550),
  (0x8030, 7, 110),
  (0x8040, 3, 100000000),
  (0x8200, 1, 255)]

/-- The defaults other than 0 that area 9 gives as one number. -/
def areaDefaults9 : List (Nat × Nat × Nat) := [
  (0x9000, 2, 64),
  (0x9000, 3, 1000),
  (0x9040, 1, 15),
  (0x9040, 2, 60),
  (0x9040, 3, 65535),
  (0x9041, 1, 1),
  (0x9041, 3, 255),
  (0x9050, 2, 4739),
  (0x9050, 5, 60),
  (0x9050, 6, 37),
  (0x9050, 8, 256),
  (0x9060, 1, 8192),
  (0x9060, 3, 14),
  (0x9060, 4, 255),
  (0x9060, 5, 10),
  (0x9070, 1, 31),
  (0x9070, 2, 4),
  (0x9080, 1, 65535),
  (0x9080, 2, 1),
  (0x9080, 6, 255),
  (0x9081, 1, 255)]

/-- The defaults other than 0 that area A gives as one number. -/
def areaDefaultsA : List (Nat × Nat × Nat) := [
  (0xA000, 3, 5),
  (0xA010, 2, 49152),
  (0xA010, 3, 65024),
  (0xA100, 4, 256),
  (0xA100, 6, 2048),
  (0xA100, 7, 8),
  (0xA100, 8, 65536),
  (0xA100, 9, 16),
  (0xA100, 11, 65535),
  (0xA100, 12, 1),
  (0xA300, 2, 256),
  (0xA400, 1, 65535)]

/-- The defaults other than 0 that area B gives as one number. -/
def areaDefaultsB : List (Nat × Nat × Nat) := [
  (0xB100, 1, 128),
  (0xB100, 2, 64),
  (0xB100, 3, 255),
  (0xB200, 1, 4),
  (0xB200, 2, 100),
  (0xB200, 4, 255)]

/-- The defaults other than 0 that area C gives as one number. -/
def areaDefaultsC : List (Nat × Nat × Nat) := [
  (0xC000, 7, 2000),
  (0xC100, 8, 4294967295),
  (0xC200, 2, 500)]

/-- The defaults other than 0 that area D gives as one number. -/
def areaDefaultsD : List (Nat × Nat × Nat) := [
  (0xD200, 2, 95),
  (0xD210, 1, 750),
  (0xD300, 3, 25),
  (0xD310, 2, 400)]

/-- The table of constant defaults of an area. -/
def areaDefaults : Nat → List (Nat × Nat × Nat)
  | 0x0 => areaDefaults0
  | 0x1 => areaDefaults1
  | 0x2 => areaDefaults2
  | 0x3 => areaDefaults3
  | 0x4 => areaDefaults4
  | 0x5 => areaDefaults5
  | 0x6 => areaDefaults6
  | 0x7 => areaDefaults7
  | 0x8 => areaDefaults8
  | 0x9 => areaDefaults9
  | 0xA => areaDefaultsA
  | 0xB => areaDefaultsB
  | 0xC => areaDefaultsC
  | 0xD => areaDefaultsD
  | _ => []

/-- The default FAULT_N, FAULT_WINDOW_MS, QUIET_MS and ESCALATE of a source, by its class and name (R384). -/
inductive FaultPreset where
  | ce | ue | laneL | laneRef | free | bus | dmaDesc | otherF | otherW
deriving DecidableEq, Repr

/-- N, T, QUIET and ESCALATE of a preset (R384). -/
def FaultPreset.vals : FaultPreset → Nat × Nat × Nat × Nat
  | .ce => (1024, 1000, 60000, 1)
  | .ue => (4, 1000, 60000, 1)
  | .laneL => (16, 10000, 60000, 1)
  | .laneRef => (1, 1000, 60000, 1)
  | .free => (1, 1000, 10000, 1)
  | .bus => (1, 1000, 10000, 1)
  | .dmaDesc => (1, 1000, 10000, 0)
  | .otherF => (16, 1000, 10000, 1)
  | .otherW => (16, 1000, 10000, 0)

/-- The checker behind a source, as the injection modes of R382 sort them. -/
inductive Checker where
  | ecc | parity | markerBip | plain
deriving DecidableEq, Repr

/-- One row of the source tables of R383: first number, count, class (0 E, 1 F, 2 W), domain kind of its unit
(255: the releasing unit of R431), how many units of that kind one source number stands for (0: the instance is not
derived from the number), its preset, and its checker. -/
structure SrcRow where
  first  : Nat
  count  : Nat
  cls    : Nat
  kind   : Nat
  per    : Nat
  preset : FaultPreset
  chk    : Checker
deriving DecidableEq, Repr

/-- The source tables of R383. -/
def srcTable : List SrcRow := [
  ⟨0x000, 32, 1, 8, 1, .laneRef, .plain⟩,      -- LANE_REFCLK_LOSS
  ⟨0x020, 8, 1, 7, 1, .laneRef, .plain⟩,       -- LANE_TXREF_LOSS
  ⟨0x028, 8, 1, 7, 1, .laneRef, .plain⟩,       -- LANE_BANK_LINK
  ⟨0x030, 8, 1, 9, 64, .laneL, .markerBip⟩,    -- LANE_LOS
  ⟨0x038, 8, 1, 9, 64, .laneL, .markerBip⟩,    -- LANE_LOCK_LOSS
  ⟨0x040, 8, 1, 9, 64, .laneL, .markerBip⟩,    -- LANE_TRAIN_TIMEOUT
  ⟨0x048, 8, 1, 9, 64, .laneL, .markerBip⟩,    -- LANE_LOCK_TIMEOUT
  ⟨0x050, 8, 2, 9, 64, .otherW, .markerBip⟩,   -- LANE_CAP_MISMATCH
  ⟨0x058, 8, 1, 9, 64, .laneL, .markerBip⟩,    -- LANE_DESKEW_FAIL
  ⟨0x060, 8, 1, 7, 1, .ce, .ecc⟩,              -- LANE_SEQ_CE
  ⟨0x068, 8, 1, 7, 1, .ue, .ecc⟩,              -- LANE_SEQ_UE
  ⟨0x100, 32, 0, 0, 0, .otherW, .plain⟩,       -- PORT_LINK_DOWN
  ⟨0x120, 32, 0, 0, 0, .otherW, .plain⟩,       -- PORT_LINK_UP
  ⟨0x140, 32, 2, 10, 16, .otherW, .plain⟩,     -- PORT_RATE_SPLIT
  ⟨0x160, 32, 2, 10, 16, .otherW, .plain⟩,     -- PORT_FEC_DEGRADED
  ⟨0x180, 32, 2, 10, 16, .otherW, .plain⟩,     -- PORT_PFC_STORM
  ⟨0x1A0, 32, 2, 10, 16, .otherW, .plain⟩,     -- PORT_PREEMPT_VERIFY_FAIL
  ⟨0x200, 32, 2, 2, 1, .otherW, .plain⟩,       -- PARSE_EXCEPTION
  ⟨0x220, 32, 1, 2, 1, .ce, .ecc⟩,             -- PARSE_PMEM_CE
  ⟨0x240, 32, 1, 2, 1, .ue, .ecc⟩,             -- PARSE_PMEM_UE
  ⟨0x260, 32, 1, 2, 1, .ce, .ecc⟩,             -- PARSE_AMBER_CE
  ⟨0x280, 32, 1, 2, 1, .ue, .ecc⟩,             -- PARSE_AMBER_UE
  ⟨0x300, 16, 1, 4, 1, .ce, .ecc⟩,             -- LKP_STORE_CE
  ⟨0x310, 16, 1, 4, 1, .ue, .ecc⟩,             -- LKP_STORE_UE
  ⟨0x320, 64, 2, 20, 1, .otherW, .plain⟩,      -- LKP_INSERT_FAIL
  ⟨0x360, 64, 2, 20, 1, .otherW, .plain⟩,      -- LKP_OVERFLOW_FULL
  ⟨0x3A0, 32, 1, 2, 1, .otherF, .parity⟩,      -- LKP_MAM_PARITY
  ⟨0x3C0, 1, 2, 1, 0, .otherW, .plain⟩,        -- LKP_LEARN_LOST
  ⟨0x400, 192, 1, 3, 1, .ce, .ecc⟩,            -- BUF_CELL_CE
  ⟨0x4C0, 192, 1, 3, 1, .ue, .ecc⟩,            -- BUF_CELL_UE
  ⟨0x580, 192, 0, 0, 0, .otherW, .plain⟩,      -- BUF_BANK_ISOLATED
  ⟨0x640, 1, 1, 255, 0, .free, .plain⟩,        -- BUF_FOREIGN_FREE
  ⟨0x641, 1, 1, 255, 0, .free, .plain⟩,        -- BUF_DOUBLE_FREE
  ⟨0x642, 1, 1, 6, 0, .ce, .ecc⟩,              -- BUF_DESC_CE
  ⟨0x643, 1, 1, 6, 0, .ue, .ecc⟩,              -- BUF_DESC_UE
  ⟨0x644, 1, 2, 1, 0, .otherW, .plain⟩,        -- BUF_CARVE_DEFICIT
  ⟨0x700, 32, 0, 0, 0, .otherW, .plain⟩,       -- SCH_GATE_LATE_START
  ⟨0x780, 1, 1, 11, 0, .otherF, .plain⟩,       -- TIME_REF_LOSS
  ⟨0x788, 8, 2, 12, 1, .otherW, .plain⟩,       -- TIME_JUMP_REFUSED
  ⟨0x790, 1, 0, 0, 0, .otherW, .plain⟩,        -- TIME_PPS_IN
  ⟨0x791, 1, 1, 11, 0, .otherF, .plain⟩,       -- TIME_PPS_IN_LOSS
  ⟨0x7A0, 32, 2, 10, 16, .otherW, .plain⟩,     -- TIME_INSERT_ERROR
  ⟨0x7C0, 8, 2, 12, 1, .otherW, .plain⟩,       -- TIME_SERVO_UNLOCK
  ⟨0x800, 1, 1, 5, 0, .ce, .ecc⟩,              -- TEL_COUNTER_CE
  ⟨0x801, 1, 1, 5, 0, .ue, .ecc⟩,              -- TEL_COUNTER_UE
  ⟨0x802, 1, 1, 5, 0, .ce, .ecc⟩,              -- TEL_FLOW_CE
  ⟨0x803, 1, 1, 5, 0, .ue, .ecc⟩,              -- TEL_FLOW_UE
  ⟨0x804, 1, 2, 5, 0, .otherW, .plain⟩,        -- TEL_EXPORT_LOST
  ⟨0x820, 32, 2, 2, 1, .otherW, .plain⟩,       -- TEL_POSTCARD_LOST
  ⟨0x880, 512, 0, 0, 0, .otherW, .plain⟩,      -- DMA_PAGE_FAULT
  ⟨0xA80, 32, 2, 15, 16, .dmaDesc, .plain⟩,    -- DMA_CHAIN_LIMIT
  ⟨0xAA0, 32, 2, 15, 16, .dmaDesc, .plain⟩,    -- DMA_DESC_ERROR
  ⟨0xAC0, 32, 2, 15, 16, .otherW, .plain⟩,     -- DMA_DOORBELL_ERROR
  ⟨0xAE0, 32, 1, 14, 1, .bus, .plain⟩,         -- DMA_BUS_ERROR
  ⟨0xB00, 8, 0, 0, 0, .otherW, .plain⟩,        -- DMA_LEGACY_DONE
  ⟨0xB08, 1, 1, 13, 0, .ce, .ecc⟩,             -- DMA_PMAP_CE
  ⟨0xB09, 1, 1, 13, 0, .ue, .ecc⟩,             -- DMA_PMAP_UE
  ⟨0xB0A, 1, 1, 13, 0, .otherF, .plain⟩,       -- DMA_PCIE_CE
  ⟨0xB0B, 1, 1, 13, 0, .otherF, .plain⟩,       -- DMA_PCIE_UE
  ⟨0xB10, 68, 2, 17, 1, .otherW, .plain⟩,      -- IRQ_STACK_FAULT
  ⟨0xB58, 68, 0, 0, 0, .otherW, .plain⟩,       -- IRQ_FALLBACK
  ⟨0xBA0, 4, 0, 0, 0, .otherW, .plain⟩,        -- OBJ_WINDOW_DONE
  ⟨0xBA4, 1, 0, 0, 0, .otherW, .plain⟩,        -- OBJ_STAGE_DISCARDED
  ⟨0xBA5, 1, 0, 0, 0, .otherW, .plain⟩,        -- OBJ_COMMIT_REFUSED
  ⟨0xBA6, 1, 0, 0, 0, .otherW, .plain⟩,        -- OBJ_COMMIT_DONE
  ⟨0xBA8, 4, 1, 18, 1, .ce, .ecc⟩,             -- OBJ_SLATE_CE
  ⟨0xBAC, 4, 1, 18, 1, .ue, .ecc⟩,             -- OBJ_SLATE_UE
  ⟨0xBB0, 4, 1, 18, 1, .otherF, .plain⟩,       -- OBJ_SLATE_WATCHDOG
  ⟨0xBC0, 1, 0, 0, 0, .otherW, .plain⟩,        -- BOLSY_AUTH_FAIL
  ⟨0xBC1, 1, 0, 0, 0, .otherW, .plain⟩,        -- BOLSY_SESSION_OPENED
  ⟨0xBC2, 1, 0, 0, 0, .otherW, .plain⟩,        -- BOLSY_SESSION_CLOSED
  ⟨0xBC3, 1, 0, 0, 0, .otherW, .plain⟩,        -- BOLSY_LEASE_ENDED
  ⟨0xC00, 64, 2, 0, 0, .otherW, .plain⟩,       -- PWR_TEMP_WARN
  ⟨0xC40, 1, 2, 0, 0, .otherW, .plain⟩,        -- PWR_TEMP_CRIT
  ⟨0xC41, 1, 2, 1, 0, .otherW, .plain⟩,        -- PWR_CORE_PLL_UNLOCK
  ⟨0xC42, 1, 2, 16, 0, .otherW, .plain⟩,       -- PWR_MGMT_PLL_UNLOCK
  ⟨0xC43, 1, 2, 0, 0, .otherW, .plain⟩,        -- PWR_SUPPLY_MONITOR
  ⟨0xC44, 1, 2, 1, 0, .otherW, .plain⟩]        -- PWR_AVS_LIMIT

/-- The source table row of a source number; `none` for a reserved number (R383). -/
def srcRow (s : Nat) : Option SrcRow :=
  srcTable.find? fun r => r.first ≤ s && s < r.first + r.count

/-- A source of class F or W (R385). -/
def isFaultSource (s : Nat) : Bool :=
  match srcRow s with
  | some r => r.cls != 0
  | none => false

/-- A source the interrupt controller has: a listed hardware source or a software source (R352, R383). -/
def isSource (s : Nat) : Bool :=
  (0xF00 ≤ s && s ≤ 0xFFE) || (srcRow s).isSome

/-- The defaults that depend on the instance or the element. -/
def specialDefault (idx sub inst el : Nat) : Option Nat :=
  match idx, sub with
  | 0x0001, 1 => some (([0x44, 0x4E, 0x50, 0x2D, 0x32, 0x30, 0x34, 0x38] : List Nat).getD el 0)   -- "DNP-2048"
  | 0x5100, 1 => some (if el % 8 = 0 then 0xFF else 0)
  | 0x5100, 2 => some 0xFF
  | 0x6010, 1 => some (if inst = 0 then 1163264 else if inst = 6 ∨ inst = 7 then 65536 else 0)
  | 0x6010, 2 => some (if inst = 0 then 1163264 else if inst = 6 ∨ inst = 7 then 65536 else 0)
  | 0x6020, 1 => some (if inst < 8192 then 0 else if inst < 8320 then 7 else 6)
  | 0x6100, 1 => some (if el = 0 then 0x10000000 else 0)                       -- group 0: all ports (R214)
  | 0x7201, 1 => some 0x8000                                                   -- profile 0, fill set (R244)
  | 0x9030, 1 => some 0xFFFF
  | 0x9041, 2 => some (0x10 + el)
  | 0x9050, 7 => some (([80, 0, 0, 6, 56, 0, 6, 6, 58, 0, 12, 2, 0, 1, 14, 2] : List Nat).getD el 0)
  | 0xB200, 5 => some 0xFFFF
  | 0xC100, 1 => (srcRow inst).map (·.cls)
  | 0xC100, 2 => (srcRow inst).map (·.preset.vals.1)
  | 0xC100, 3 => (srcRow inst).map (·.preset.vals.2.1)
  | 0xC100, 4 => (srcRow inst).map (·.preset.vals.2.2.1)
  | 0xC100, 5 => (srcRow inst).map (·.preset.vals.2.2.2)
  | 0xC200, 1 => some (if inst = 3 ∨ inst = 2 ∨ inst = 14 ∨ inst = 15 then 1 else 0)
  | _, _ => none

/-- The default of an element: what it reads before anything has written it. -/
def objDefault (k : OKey) : Nat :=
  match specialDefault k.ref.idx k.ref.sub k.ref.inst k.el with
  | some v => v
  | none =>
    match (areaDefaults (k.ref.idx / 4096)).find? fun d => d.1 == k.ref.idx && d.2.1 == k.ref.sub with
    | some d => d.2.2
    | none => 0

/-- The rows of an index (R34, item 1). -/
def indexRows (idx : Nat) : List ObjRow := (areaRows (idx / 4096)).filter (·.idx == idx)

/-- The row of an index and sub-index. -/
def objRow (idx sub : Nat) : Option ObjRow :=
  (areaRows (idx / 4096)).find? fun r => r.idx == idx && r.subLo ≤ sub && sub ≤ r.subHi

end Sys2Proof.Machine
end

