-- ==== Sys2Proof/Machine/Ops.lean ====
section
/-!
DEFINITION. Sys2Proof/Machine/Ops.lean: the named operations every meaning is written over: reading and writing an object
element, counting, raising an interrupt doorbell, reporting a fault, drawing a free value, the device's clocks, and the
frame every command runs in.
-/
namespace Sys2Proof.Machine

/-! ### Objects -/

/-- The order of stored elements: by index, instance, sub-index, element. -/
def ltKey (a b : OKey) : Bool :=
  decide (a.ref.idx < b.ref.idx) || (a.ref.idx == b.ref.idx &&
    (decide (a.ref.inst < b.ref.inst) || (a.ref.inst == b.ref.inst &&
      (decide (a.ref.sub < b.ref.sub) || (a.ref.sub == b.ref.sub && decide (a.el < b.el))))))

/-- The active value of a stored element (R42); unlisted, its default. -/
def State.getK (s : State) (k : OKey) : Nat := look (objDefault k) s.dict.objs k

/-- Write the active value of a stored element. -/
def State.setK (s : State) (k : OKey) (v : Nat) : State :=
  { s with dict := { s.dict with objs := put ltKey (objDefault k) k v s.dict.objs } }

/-- The active value of element `e` of an object. -/
def State.get (s : State) (r : Ref) (e : Nat := 0) : Nat := s.getK ⟨r, e⟩

/-- Write element `e` of an object. -/
def State.set (s : State) (r : Ref) (v : Nat) (e : Nat := 0) : State := s.setK ⟨r, e⟩ v

/-- A BOOL object's value. -/
def State.flag (s : State) (r : Ref) : Bool := s.get r != 0

/-- An I32 object's value. -/
def State.geti (s : State) (r : Ref) (e : Nat := 0) : Int := toSigned 32 (s.get r e)

/-- The elements `0 … n - 1` of an object. -/
def State.getAll (s : State) (r : Ref) (n : Nat) : List Nat := (List.range n).map fun e => s.get r e

/-- Write a list of elements from element `e` up. -/
def State.setAll (s : State) (r : Ref) (vs : List Nat) (e : Nat := 0) : State :=
  match vs with
  | [] => s
  | v :: r' => (s.set r v e).setAll r r' (e + 1)

/-- Add to a counter of 64 bits, which wraps (R14). -/
def State.count64 (s : State) (r : Ref) (n : Nat := 1) (e : Nat := 0) : State := s.set r ((s.get r e + n) % 2 ^ 64) e

/-- Add to a counter of `w` bits up to 32, which stops at its maximum (R14). -/
def State.countSat (w : Nat) (s : State) (r : Ref) (n : Nat := 1) (e : Nat := 0) : State :=
  s.set r (min (s.get r e + n) (2 ^ w - 1)) e

/-- Add to a 32-bit counter (R14). -/
def State.count32 (s : State) (r : Ref) (n : Nat := 1) (e : Nat := 0) : State := s.countSat 32 r n e

/-! ### Outputs, doorbells, reports, free values -/

/-- Put out one thing. -/
def State.emit (s : State) (o : Output) : State := { s with out := s.out ++ [o] }

/-- Send the doorbell message of an event to the interrupt controller (R27, R351): the queue keeps their order. -/
def State.raise (s : State) (src : Nat) : State :=
  { s with irq := { s.irq with doorbells := s.irq.doorbells ++ [src] } }

/-- Send a report to the fault collector (R371). -/
def State.reportR (s : State) (r : Report) : State :=
  { s with faults := { s.faults with reports := s.faults.reports ++ [r] } }

/-- A unit identifier: domain kind in [31:24], instance in [23:0] (R371). -/
def unitId (kind inst : Nat) : Nat := kind * 2 ^ 24 + inst

/-- Send a report of a unit about itself (R371). -/
def State.report (s : State) (src unit : Nat) (detail : List Byte) : State := s.reportR ⟨src, unit, unit, detail, false⟩

/-- Send a report of a unit by another one that detected it (R371). -/
def State.reportBy (s : State) (src unit reporter : Nat) (detail : List Byte) : State :=
  s.reportR ⟨src, unit, reporter, detail, false⟩

/-- The next free value of `w` bits (R428 and log 4): nothing is known of it. -/
def State.draw (s : State) (w : Nat) : Nat × State := (Config.freeNat s.free % 2 ^ w, { s with free := s.free + 1 })

/-! ### Clocks (R25, R262) -/

/-- A duration in ns as ticks of the 1.25 GHz time clock (rounded up). -/
def ticksOfNs (ns : Nat) : Nat := (ns * 5 + 3) / 4
/-- A duration in seconds as ticks. -/
def ticksOfS (s : Nat) : Nat := s * 1250000000
/-- The instant in ticks since reset. -/
def State.now (s : State) : Nat := s.time.ticks
/-- The device clock at an instant in ticks: 2^-16 ns since reset, modulo 2^64 (R262). -/
def dcAt (ticks : Nat) : Nat := ticks * 262144 / 5 % 2 ^ 64
/-- The device clock (R262). -/
def State.dc (s : State) : Nat := dcAt s.time.ticks
/-- Core clocks since reset (2.4 GHz, R25). -/
def State.coreClocks (s : State) : Nat := s.time.ticks * 48 / 25
/-- Object and management clocks since reset (500 MHz, R25). -/
def State.mgmtClocks (s : State) : Nat := s.time.ticks * 2 / 5

/-- The Slate firmware runs on every core: no replacement or restart pauses it (R403). -/
def State.fwUp (s : State) : Bool := s.sys.fw == .running && s.sys.slateDown == []

/-! ### Parts of the state, each read and written in one place -/

def State.lane (s : State) (l : Nat) : LaneX := look LaneX.reset s.lanes l
def State.putLane (s : State) (l : Nat) (x : LaneX) : State := { s with lanes := putN LaneX.reset l x s.lanes }
def State.modLane (s : State) (l : Nat) (f : LaneX → LaneX) : State := s.putLane l (f (s.lane l))

def State.port (s : State) (p : Nat) : PortX := look PortX.reset s.ports p
def State.putPort (s : State) (p : Nat) (x : PortX) : State := { s with ports := putN PortX.reset p x s.ports }
def State.modPort (s : State) (p : Nat) (f : PortX → PortX) : State := s.putPort p (f (s.port p))

def State.gate (s : State) (p : Nat) : GateX := look GateX.reset s.gates p
def State.putGate (s : State) (p : Nat) (x : GateX) : State := { s with gates := putN GateX.reset p x s.gates }

def State.tile (s : State) (t : Nat) : TileX := look TileX.reset s.tiles t
def State.putTile (s : State) (t : Nat) (x : TileX) : State := { s with tiles := putN TileX.reset t x s.tiles }
def State.modTile (s : State) (t : Nat) (f : TileX → TileX) : State := s.putTile t (f (s.tile t))

/-- Core `c` of tile `t` at work (R128); `none` while it is free. -/
def State.core? (s : State) (t c : Nat) : Option CoreX :=
  match s.cores.find? fun e => e.1 == t * 128 + c with
  | some e => some e.2
  | none => none
def State.putCore (s : State) (t c : Nat) (x : CoreX) : State := { s with cores := ins ltN (t * 128 + c) x s.cores }
def State.freeCore (s : State) (t c : Nat) : State := { s with cores := del (t * 128 + c) s.cores }

def State.chan (s : State) (c : Nat) : ChanX := look ChanX.reset s.host.chans c
def State.putChan (s : State) (c : Nat) (x : ChanX) : State :=
  { s with host := { s.host with chans := putN ChanX.reset c x s.host.chans } }
def State.modChan (s : State) (c : Nat) (f : ChanX → ChanX) : State := s.putChan c (f (s.chan c))

def State.engine (s : State) (e : Nat) : EngineX := look EngineX.reset s.host.engines e
def State.putEngine (s : State) (e : Nat) (x : EngineX) : State :=
  { s with host := { s.host with engines := putN EngineX.reset e x s.host.engines } }

def State.isrc (s : State) (n : Nat) : IrqSrc := look IrqSrc.reset s.irq.srcs n
def State.putIsrc (s : State) (n : Nat) (x : IrqSrc) : State :=
  { s with irq := { s.irq with srcs := putN IrqSrc.reset n x s.irq.srcs } }

def State.itgt (s : State) (t : Nat) : IrqTgt := look IrqTgt.reset s.irq.tgts t
def State.putItgt (s : State) (t : Nat) (x : IrqTgt) : State :=
  { s with irq := { s.irq with tgts := putN IrqTgt.reset t x s.irq.tgts } }

def State.bucket (s : State) (q : Nat) : Bucket := look Bucket.reset s.buckets q
def State.putBucket (s : State) (q : Nat) (x : Bucket) : State := { s with buckets := putN Bucket.reset q x s.buckets }

/-- A packet by the model's frame number. -/
def State.pkt? (s : State) (fid : Nat) : Option Pkt := s.buf.pkts.find? (·.fid == fid)

/-- Replace a packet, found by its frame number. -/
def State.putPkt (s : State) (p : Pkt) : State :=
  { s with buf := { s.buf with pkts := s.buf.pkts.map fun q => if q.fid = p.fid then p else q } }

/-- Forget a packet. -/
def State.dropPkt (s : State) (fid : Nat) : State :=
  { s with buf := { s.buf with pkts := s.buf.pkts.filter (·.fid != fid) } }

/-! ### Command status (R40) -/

def CmdStat.idle : CmdStat := ⟨0, 0, []⟩
/-- The status of a CMD object. -/
def State.cmd (s : State) (r : Ref) : CmdStat := look CmdStat.idle s.dict.cmds r
/-- The order of CMD objects. -/
def ltRef (a b : Ref) : Bool := ltKey ⟨a, 0⟩ ⟨b, 0⟩
/-- Set the status of a CMD object: 1 running, 2 done, 3 failed with an error code. -/
def State.setCmd (s : State) (r : Ref) (st err : Nat) (res : List Byte) : State :=
  { s with dict := { s.dict with cmds := put ltRef CmdStat.idle r ⟨st, err, res⟩ s.dict.cmds } }
def State.cmdRun (s : State) (r : Ref) : State := s.setCmd r 1 0 []
def State.cmdDone (s : State) (r : Ref) (res : List Byte := []) : State := s.setCmd r 2 0 res
def State.cmdFail (s : State) (r : Ref) (err : Nat) : State := s.setCmd r 3 err []
def State.cmdRunning (s : State) (r : Ref) : Bool := (s.cmd r).status == 1

/-! ### Error codes (R67) -/

namespace Err
abbrev ok := 0x00
abbrev noObject := 0x01
abbrev noInstance := 0x02
abbrev noSubindex := 0x03
abbrev readOnly := 0x04
abbrev writeOnly := 0x05
abbrev type := 0x06
abbrev range := 0x07
abbrev stagedOnly := 0x08
abbrev notStageable := 0x09
abbrev commitBusy := 0x0A
abbrev inconsistent := 0x0B
abbrev leased := 0x0C
abbrev cmdBusy := 0x0D
abbrev offset := 0x0E
abbrev tableBusy := 0x0F
abbrev state := 0x10
abbrev notExecuted := 0x11
end Err

/-! ### The frame of every command -/

/-- The outcome of the commands of a step. -/
abbrev Out := Host.Outcome State Fault Refusal

/-- A command takes effect on a device that is powered and out of reset, on everything but the queue of waiting
commands; outputs are those of this command alone. Only loss of power and SYS_RESET_N reset the whole device (R33), so
no command that runs in this frame changes the power state. Without power, or in reset, nothing happens (R386). -/
def live (s : State) (f : State → State) : Out :=
  if s.sys.power = .run then
    let t := f { s with out := [] }
    .next { t with pending := s.pending, sys := { t.sys with power := .run } }
  else .next { s with out := [] }

/-- An effect that happens only where its condition holds; where it does not, the event does not occur (log 6). -/
def State.whenB (s : State) (c : Bool) (f : State → State) : State := if c then f s else s

/-- Apply a step for each element of a list. -/
def State.each (s : State) (l : List β) (f : State → β → State) : State := l.foldl f s

end Sys2Proof.Machine
end

