-- ==== Sys2Proof/Machine/Operands.lean ====
section
/-!
DEFINITION. Sys2Proof/Machine/Operands.lean: what a command's operands name: ports of the active map (R98), instances and
commit groups of objects (R34, R41), the active, staged and old-epoch values a user of an object sees (R42, R44), and
the values of the time bases (R263).
-/
namespace Sys2Proof.Machine

/-! ### Ports and lanes (R5, R98) -/

def tileOfLane (l : Nat) : Nat := l / 16
def bankOfLane (l : Nat) : Nat := l / 64
def tileOfPort (p : Nat) : Nat := p / 16

/-- A byte of tile `t`'s active port map. -/
def State.mapByte (s : State) (t i : Nat) : Nat := s.get (O.PORT_MAP t) i

/-- The width of port `p` in lanes; 0 where no port starts at lane `p`. -/
def State.portWidth (s : State) (p : Nat) : Nat :=
  let n := s.mapByte (p / 16) (p % 16)
  if p < 512 ∧ (n = 1 ∨ n = 2 ∨ n = 4 ∨ n = 8) then n else 0

/-- A port of the active map (R98). -/
def State.isPort (s : State) (p : Nat) : Bool := s.portWidth p != 0

/-- The lanes of a port. -/
def State.portLanes (s : State) (p : Nat) : List Nat := (List.range (s.portWidth p)).map (p + ·)

/-- The ports of a tile, rising. -/
def State.tilePorts (s : State) (t : Nat) : List Nat := ((List.range 16).map (t * 16 + ·)).filter s.isPort

/-- Every port, rising. -/
def State.allPorts (s : State) : List Nat := (List.range 512).filter s.isPort

/-- The port a lane belongs to. -/
def State.portOfLane (s : State) (l : Nat) : Option Nat :=
  (List.range 8).findSome? fun d => if d ≤ l ∧ s.portWidth (l - d) > d then some (l - d) else none

/-! ### Instances and groups of objects -/

/-- Commit groups that some object names (R429). -/
def isGroup (g : Nat) : Bool :=
  (0x10 ≤ g && g ≤ 0x13) || (0x20 ≤ g && g ≤ 0x27) || (0x30 ≤ g && g ≤ 0x37) || (0x40 ≤ g && g ≤ 0x4F) ||
  (0x50 ≤ g && g ≤ 0x58) || g == 0x60 || (0x70 ≤ g && g ≤ 0x79) || (0x80 ≤ g && g ≤ 0x8F) ||
  g == 0x90 || g == 0x91 || (0x98 ≤ g && g ≤ 0x9F) || g == 0xA0 || (0xB0 ≤ g && g ≤ 0xBF) || (0xD0 ≤ g && g ≤ 0xDF)

/-- Groups whose objects tiles apply per packet (R429). -/
def tileUsed (g : Nat) : Bool :=
  (0x30 ≤ g && g ≤ 0x37) || (0x40 ≤ g && g ≤ 0x4F) || (0x50 ≤ g && g ≤ 0x58) || (0x80 ≤ g && g ≤ 0x8F) ||
  g == 0x90 || g == 0x91 || (0x98 ≤ g && g ≤ 0x9F) || (0xD0 ≤ g && g ≤ 0xDF)

/-- An instance exists only if the resource behind it exists (R34). -/
def State.hasInst (s : State) (i : Insts) (n : Nat) : Bool :=
  match i with
  | .upto k => decide (n < k)
  | .ports => s.isPort n
  | .queues => if n < 8192 then s.isPort (n / 16) else decide (n < 8384)
  | .schedQueues => if n < 8192 then s.isPort (n / 16) else decide (8320 ≤ n) && decide (n < 8384)
  | .hostQueues => decide (8192 ≤ n) && decide (n < 8320)
  | .groups => isGroup n
  | .sources => isSource n
  | .faultSources => isFaultSource n

/-- The commit group of an instance of an object (R41). -/
def grpOf (g : Grp) (inst : Nat) : Option Nat :=
  match g with
  | .none => none
  | .base b d => some (b + inst / d)
  | .queueSched => some (if inst < 8192 then 0x70 + inst / 1024 else 0x79)

/-- The commit group of an object instance. -/
def groupOf (r : Ref) : Option Nat :=
  match objRow r.idx r.sub with
  | some o => grpOf o.grp r.inst
  | none => none

/-! ### Staged and old-epoch values (R42, R44) -/

/-- A staged element, if one is staged. -/
def State.staged? (s : State) (k : OKey) : Option Nat :=
  match s.dict.shadow.find? fun e => e.1 == k with
  | some e => some e.2
  | none => none

/-- The value after the commit of the staged ones: staged, else active (R42). -/
def State.getS (s : State) (r : Ref) (e : Nat := 0) : Nat := (s.staged? ⟨r, e⟩).getD (s.get r e)

/-- The commit under way that flips a group, validation apart (R43). -/
def State.flipOf (s : State) (g : Nat) : Option Commit :=
  s.dict.commits.find? fun c => c.groups.contains g && c.phase != .validating

/-- The value tile `t` applies at its dispatch boundary: the new set once it has flipped (R44). -/
def State.getT (s : State) (t : Nat) (r : Ref) (e : Nat := 0) : Nat :=
  match groupOf r with
  | none => s.get r e
  | some g =>
    match s.flipOf g with
    | none => s.get r e
    | some c => if c.phase = .flipping ∧ c.flipped.contains t then s.getS r e else s.get r e

/-- The value that matches a packet's epoch tag (R44): the old set for a packet dispatched before its tile's boundary. -/
def State.getP (s : State) (applied : List Nat) (r : Ref) (e : Nat := 0) : Nat :=
  match groupOf r with
  | none => s.get r e
  | some g =>
    match s.flipOf g with
    | none => s.get r e
    | some c =>
      if applied.contains c.id then (if c.phase = .flipping then s.getS r e else s.get r e)
      else if c.phase = .flipping then s.get r e
      else look (s.get r e) c.old ⟨r, e⟩

/-- The epochs a packet dispatched on tile `t` now is tagged with: the commits under way whose boundary `t` has
passed. -/
def State.tagsAt (s : State) (t : Nat) : List Nat :=
  ((s.dict.commits.filter fun c => c.phase != .validating && (c.phase == .retiring || c.flipped.contains t)).map (·.id))

/-! ### Time bases (R13, R263) -/

/-- Seconds, nanoseconds and fraction as a TIME96 (R13). -/
def mkTime (sec ns frac : Nat) : Nat := sec % 2 ^ 48 * 2 ^ 48 + ns % 2 ^ 32 * 2 ^ 16 + frac % 2 ^ 16
def timeSec (t : Nat) : Nat := t / 2 ^ 48
def timeNs (t : Nat) : Nat := bits t 47 16
def timeFrac (t : Nat) : Nat := t % 2 ^ 16
/-- A TIME96 as a count of 2^-16 ns. -/
def timeUnits (t : Nat) : Nat := (timeSec t * 1000000000 + timeNs t) * 65536 + timeFrac t
/-- A count of 2^-16 ns as a TIME96; seconds are modulo 2^48. -/
def unitsTime (u : Int) : Nat :=
  let m : Int := (2 ^ 48 * 1000000000 * 65536 : Nat)
  let v := (u % m).toNat
  mkTime (v / (1000000000 * 65536)) (v / 65536 % 1000000000) (v % 65536)

/-- The value of a base as a TIME96 (R263). -/
def Base.time (b : Base) : Nat := mkTime b.sec (b.nsf / 2 ^ 48) (bits b.nsf 47 32)
/-- Base `n`. -/
def State.base (s : State) (n : Nat) : Base := s.time.bases.getD n Base.reset
def State.putBase (s : State) (n : Nat) (b : Base) : State :=
  { s with time := { s.time with bases := slots 8 s.base n b } }
/-- The value of base `n` (R263). -/
def State.tb (s : State) (n : Nat) : Nat := (s.base n).time
/-- The value of base `n` in units of 2^-16 ns. -/
def State.tbUnits (s : State) (n : Nat) : Nat := timeUnits (s.tb n)

/-- The size of the slew term in units of 2^-40, rounded to nearest (R267). -/
def slewUnits (ppb : Nat) : Nat := (ppb * 2 ^ 40 * 2 + 1000000000) / (2 * 1000000000)

/-- `rate_total` of base `n`: TB_RATE plus the slew term (R263, R267). -/
def State.rateTotal (s : State) (n : Nat) : Int :=
  let t : Int := slewUnits (s.get (O.SLEW_MAX_PPB n))
  let b := s.base n
  s.geti (O.TB_RATE n) + (if b.slew = 0 then 0 else if 0 < b.slew then t else -t)

/-- Advance a base by one tick of 0.8 ns (R263, R267): `rate` is TB_RATE, `term` the slew units. The slew is kept in
fifths of 2^-48 ns, so the extra advance of a tick, clipped to what remains, is exact. -/
def Base.tick (b : Base) (rate : Int) (term : Nat) : Base :=
  let full : Int := 1024 * term
  let extra : Int :=
    if b.slew = 0 then 0
    else if 0 < b.slew then (if b.slew < full then b.slew else full)
    else (if -b.slew < full then b.slew else -full)
  let acc : Int := b.rem + 2 ^ 50 + 1024 * rate + extra
  let nsf := b.nsf + (acc / 5).toNat
  let rem := (acc % 5).toNat
  let wrap := 1000000000 * 2 ^ 48
  if wrap ≤ nsf then ⟨(b.sec + 1) % 2 ^ 48, nsf - wrap, rem, b.slew - extra⟩
  else ⟨b.sec, nsf, rem, b.slew - extra⟩

/-- One tick of the time domain: the device clock and every base advance (R260, R262, R263). -/
def State.tick (s : State) : State :=
  let bs := (List.range 8).map fun n => (s.base n).tick (s.geti (O.TB_RATE n)) (slewUnits (s.get (O.SLEW_MAX_PPB n)))
  let m := 2 ^ 48 * 1000000000 * 65536
  let ran := (List.range 8).map fun n => (timeUnits (bs.getD n Base.reset).time + m - s.tbUnits n) % m
  { s with time := { s.time with ticks := s.time.ticks + 1, bases := bs, ran := ran } }

/-! ### Declarations (R158, R159) -/

/-- A table's declaration, read through one epoch's values. -/
structure Decl where
  kind     : Nat
  base     : Nat
  size     : Nat
  keyBytes : Nat
  seed1    : Nat
  seed2    : Nat
  prot     : Bool
  evict    : Nat
  indirect : Bool
  refresh  : Nat
  regions  : List (Nat × Nat)
deriving DecidableEq, Repr

/-- Read the declaration of table `n` with `g`. -/
def declOf (g : Ref → Nat → Nat) (n : Nat) : Decl :=
  { kind := g (O.TABLE_KIND n) 0, base := g (O.TABLE_BASE n) 0, size := g (O.TABLE_SIZE n) 0,
    keyBytes := g (O.KEY_BYTES n) 0, seed1 := g (O.SEED1 n) 0, seed2 := g (O.SEED2 n) 0,
    prot := g (O.PROTECTED n) 0 != 0, evict := g (O.EVICT n) 0, indirect := g (O.INDIRECT n) 0 != 0,
    refresh := g (O.REFRESH n) 0,
    regions := (List.range 7).map fun k => (g (O.LPM_REGIONS n) (2 * k), g (O.LPM_REGIONS n) (2 * k + 1)) }

/-- The declaration in force. -/
def State.decl (s : State) (n : Nat) : Decl := declOf (fun r e => s.get r e) n

def Decl.isLpm (d : Decl) : Bool := d.kind == 3 || d.kind == 4
/-- Address bits that each level's index ends at (R176). -/
def Decl.cum (d : Decl) : List Nat := if d.kind = 3 then [16, 24, 32] else [20, 32, 40, 48, 56, 64]
/-- Address width. -/
def Decl.width (d : Decl) : Nat := if d.kind = 3 then 32 else 128
/-- Bytes of a prefix record (R178). -/
def Decl.recBytes (d : Decl) : Nat := if d.kind = 3 then 16 else 32
/-- The bucket spans a declaration occupies (R158). -/
def Decl.spans (d : Decl) : List (Nat × Nat) :=
  if d.kind = 1 then [(d.base, d.size)]
  else if d.kind = 2 ∨ d.kind = 5 then [(d.base, (d.size + 3) / 4)]
  else if d.isLpm then (d.regions.take (d.cum.length + 1)).filter (·.2 != 0)
  else []
/-- The partition that holds a table's first bucket (R165). -/
def Decl.partition (d : Decl) : Nat := (((d.spans.map (·.1)).headD d.base) / 131072) % 16

end Sys2Proof.Machine
end

