-- ==== Sys2Proof/Machine/Irq.lean ====
section
/-!
DEFINITION. Sys2Proof/Machine/Irq.lean: the interrupt controller (R351-R369): events, eligibility, delivery, claim and
completion, plain words, withdrawal, fallback; and the meanings of its commands.
-/
namespace Sys2Proof.Machine

/-! ### Sources (R354) -/

/-- Change a source's state; the controller remembers in which of its cycles (R366). -/
def State.setSrc (s : State) (n : Nat) (st : SrcState) (redir : Bool) : State :=
  let k := s.irq.clock + 1
  { s.putIsrc n ⟨st, redir, k⟩ with irq := { (s.putIsrc n ⟨st, redir, k⟩).irq with clock := k } }

/-- Counter `k` of a source's SRC_COUNTS: 0 EVENTS, 1 CLAIMS, 2 MERGED, 3 LOST, 4 WITHDRAWN (R354, R370). -/
def State.countSrc (s : State) (n k : Nat) : State := s.count64 (O.SRC_COUNTS n) 1 k

/-- An event of a source (R354). -/
def State.event (s : State) (n : Nat) : State :=
  let s := s.countSrc n 0
  match (s.isrc n).st with
  | .idle => s.setSrc n .pending false
  | .pending => s.countSrc n 2
  | .inService => s.countSrc n 3

/-- A withdrawal of a PENDING source (R354); any other is left alone. -/
def State.withdraw (s : State) (n : Nat) : State :=
  if (s.isrc n).st = .pending then (s.setSrc n .idle false).countSrc n 4 else s

/-! ### Targets and delivery (R353, R356, R357) -/

/-- Group of a priority at a target (R353). -/
def State.groupAt (s : State) (t prio : Nat) : Nat := prio / 2 ^ (8 - s.get (O.TARGET_SPLIT t))

/-- The running group of a target: that recorded with the top of its stack; `none` of an empty one (R356). -/
def State.running (s : State) (t : Nat) : Option Nat := ((s.itgt t).stack.getLast?).map (·.2)

/-- Where a source goes (R356, R363); IRQ_STACK_FAULT of a target never goes to that target (R360). -/
def State.destOf (s : State) (n : Nat) : Option Nat :=
  let t := s.get (O.SRC_TARGET n)
  let f := s.get (O.SRC_FALLBACK n)
  let own := fun d => 0xB10 ≤ n ∧ n ≤ 0xB53 ∧ d = n - 0xB10
  if (s.isrc n).redir ∨ own t then (if f = 0xFF ∨ own f then none else some f) else some t

/-- A source eligible at target `t` (R356). -/
def State.eligible (s : State) (n t : Nat) : Bool :=
  (s.isrc n).st == .pending && !s.flag (O.SRC_MASK n) && s.destOf n == some t &&
  (match s.running t with
   | none => true
   | some g => decide (s.groupAt t (s.get (O.SRC_PRIORITY n)) < g))

/-- The more urgent of two sources: lower priority value, then lower number (R353). -/
def State.moreUrgent (s : State) (a b : Nat) : Bool :=
  let p := s.get (O.SRC_PRIORITY a)
  let q := s.get (O.SRC_PRIORITY b)
  decide (p < q) || (p == q && decide (a < b))

/-- The most urgent eligible source at a target (R358). -/
def State.bestAt (s : State) (t : Nat) : Option Nat :=
  ((s.irq.srcs.map (·.1)).filter fun n => s.eligible n t).foldl
    (fun best n =>
      match best with
      | none => some n
      | some b => if s.moreUrgent n b then some n else some b) none

/-- Entry `e`'s vector mask bit. -/
def State.vectorMasked (s : State) (e : Nat) : Bool := bit (look 1 s.host.msix (e * 4 + 3)) 0

/-- A host vector, or any MSI-X entry, that can be written (R357); in D3hot the function writes nothing (R318, log 103). -/
def State.msixReady (s : State) (e : Nat) : Bool :=
  s.host.msixOn && !s.host.msixMask && !s.vectorMasked e && !s.host.d3hot

/-- A target that cannot hear of an event now (R357). -/
def State.undeliverable (s : State) (t : Nat) : Bool :=
  if t < 64 then !s.msixReady t else s.sys.fw != .running || s.sys.slateDown.contains (t - 64)

/-- Send the message of MSI-X entry `e`, or leave it waiting in the pending bits (R357). -/
def State.sendMsix (s : State) (e : Nat) : State :=
  if s.msixReady e then s.emit (.msix e)
  else { s with host := { s.host with pba := insNat e s.host.pba } }

/-- The messages of entries 64 and up that wait and can now be written go out; those of host vectors go with
MSIX_DELIVERABLE (R357). -/
def State.flushMsix (s : State) : State :=
  (s.host.pba.filter (64 ≤ ·)).foldl (fun s e =>
    if s.msixReady e then
      { s.emit (.msix e) with host := { s.host with pba := delNat e s.host.pba } } else s) s

/-- The message of a target stops being outstanding (R356); its pending bit goes with it. -/
def State.settle (s : State) (t : Nat) : State :=
  let s := s.putItgt t { s.itgt t with sent := false }
  if t < 64 then { s with host := { s.host with pba := delNat t s.host.pba } }
  else { s with irq := { s.irq with slateWaits := delNat (t - 64) s.irq.slateWaits } }

/-- The conditions for a message to a target (R356). -/
def State.messageDue (s : State) (t : Nat) : Bool :=
  (s.bestAt t).isSome && decide ((s.itgt t).stack.length < 16) && !(s.itgt t).fault && !(s.itgt t).sent

/-- Send a target its message. -/
def State.message (s : State) (t : Nat) : State :=
  let s := (s.putItgt t { s.itgt t with sent := true }).count64 (O.TARGET_COUNTS t 7)
  if t < 64 then s.sendMsix t
  else if s.undeliverable t then { s with irq := { s.irq with slateWaits := insNat (t - 64) s.irq.slateWaits } }
  else s.emit (.slateMsg (t - 64))

/-- Slate cores hear the messages that wait for them once their firmware runs (R357). -/
def State.slateReady (s : State) (c : Nat) : State :=
  if s.irq.slateWaits.contains c then
    { s.emit (.slateMsg c) with irq := { s.irq with slateWaits := delNat c s.irq.slateWaits } }
  else s

/-! ### Claim, completion, stack reset (R358-R362) -/

/-- The word a claim returns (R358). -/
def claimWord (n prio depth : Nat) : Nat := n + prio * 2 ^ 12 + depth * 2 ^ 20

/-- A claim on target `t` (R358). -/
def State.claim (s : State) (t : Nat) : State :=
  let x := s.itgt t
  let spurious := fun (s : State) => ((s.settle t).count64 (O.TARGET_COUNTS t 9)).emit (.bar (some 0xFFF))
  if x.stack.length ≥ 16 then (spurious s).count64 (O.TARGET_COUNTS t 14)
  else if x.fault then spurious s
  else
    match s.bestAt t with
    | none => spurious s
    | some n =>
      let p := s.get (O.SRC_PRIORITY n)
      let s := s.putItgt t { x with stack := x.stack ++ [(n, s.groupAt t p)], sent := false }
      let s := (s.setSrc n .inService false).countSrc n 1
      ((s.settle t).count64 (O.TARGET_COUNTS t 8)).emit (.bar (some (claimWord n p (x.stack.length + 1))))

/-- A completion of source `n` on target `t` (R359, R360). -/
def State.complete (s : State) (t n : Nat) : State :=
  let x := s.itgt t
  if n = 0xFFF then s
  else if x.fault then s.count64 (O.TARGET_COUNTS t 11)
  else if (x.stack.getLast?).map (·.1) = some n then
    let s := s.putItgt t { x with stack := x.stack.dropLast, sent := false }
    ((s.setSrc n .idle false).settle t).count64 (O.TARGET_COUNTS t 10)
  else
    let s := (s.putItgt t { x with fault := true, sent := false }).count64 (O.TARGET_COUNTS t 11)
    (s.settle t).report (0xB10 + t) (unitId 17 t)
      (leBytes 2 n ++ leBytes 2 (((x.stack.getLast?).map (·.1)).getD 0xFFFF) ++ zeros 16)

/-- A stack reset of target `t` (R361). -/
def State.stackReset (s : State) (t : Nat) : State :=
  let x := s.itgt t
  let s := x.stack.foldl (fun s e => s.setSrc e.1 .idle false) s
  ((s.putItgt t ⟨[], false, false⟩).settle t).count64 (O.TARGET_COUNTS t 15)

/-- What IRQ_STACK_TOP and IRQ_TARGET_STATUS show (R362, R369). -/
def State.stackTop (s : State) (t : Nat) : Nat :=
  match (s.itgt t).stack.getLast? with
  | none => 0xFFF
  | some e => claimWord e.1 (s.get (O.SRC_PRIORITY e.1)) (s.itgt t).stack.length
def State.targetStatus (s : State) (t : Nat) : Nat :=
  (s.running t).getD 0xFF + (s.itgt t).stack.length * 2 ^ 8 + b01 (s.itgt t).fault * 2 ^ 13 +
  b01 (s.itgt t).sent * 2 ^ 14 + b01 (s.undeliverable t) * 2 ^ 15

/-! ### Plain words (R365, R366) -/

/-- Mask word `w`: bits of numbers that are no source read 0 (R12, log 7). -/
def State.maskWord (s : State) (w : Nat) : Nat :=
  sumL ((List.range 32).map fun b => if isSource (w * 32 + b) && s.flag (O.SRC_MASK (w * 32 + b)) then 2 ^ b else 0)

/-- Pending word `w`. -/
def State.pendingWord (s : State) (w : Nat) : Nat :=
  sumL ((List.range 32).map fun b => if (s.isrc (w * 32 + b)).st = .pending then 2 ^ b else 0)

/-- A write of mask word `w` (R365). -/
def State.writeMask (s : State) (w v : Nat) : State :=
  s.each ((List.range 32).filter fun b => isSource (w * 32 + b)) fun s b => s.set (O.SRC_MASK (w * 32 + b)) (b01 (bit v b))

/-- The controller's note of a path's reads: paths 0-7 Bolsy sessions, 8 the host; word 255 is the reference point
(R366). -/
def readKey (path w : Nat) : Nat := path * 256 + w
def State.noteRead (s : State) (path w : Nat) : State :=
  { s with irq := { s.irq with reads := putN 0 (readKey path w) s.irq.clock s.irq.reads } }
/-- Start a path's notes afresh at its reference point. -/
def State.noteRef (s : State) (path : Nat) : State :=
  let rs := s.irq.reads.filter fun e => e.1 / 256 != path
  { s with irq := { s.irq with reads := putN 0 (readKey path 255) s.irq.clock rs } }
def State.lastRead (s : State) (path w : Nat) : Nat :=
  match s.irq.reads.find? fun e => e.1 == readKey path w with
  | some e => e.2
  | none => look 0 s.irq.reads (readKey path 255)

/-- A write of pending word `w` by the host (R365, R366). -/
def State.writePending (s : State) (w v : Nat) : State :=
  let seen := s.lastRead 8 w
  s.each ((List.range 32).filter fun b => isSource (w * 32 + b)) fun s b =>
    let n := w * 32 + b
    let x := s.isrc n
    if bit v b = (x.st == .pending) then s
    else
      let s := if x.changed > seen then s.count64 O.PENDING_RACES else s
      if bit v b then s.event n else s.withdraw n

/-! ### Fallback (R363) -/

/-- A retarget acts at the next delivery and clears any redirection of a PENDING source (R363). -/
def State.retargeted (s : State) (n : Nat) : State :=
  if (s.isrc n).st = .pending ∧ (s.isrc n).redir then s.putIsrc n { s.isrc n with redir := false } else s

/-- A source has been eligible at an undeliverable target for the target's TIMEOUT_US (R363). -/
def State.deliveryTimeout (s : State) (n : Nat) : State :=
  match s.destOf n with
  | none => s
  | some t =>
    if !s.eligible n t || !s.undeliverable t || t != s.get (O.SRC_TARGET n) then s
    else if s.get (O.SRC_FALLBACK n) = 0xFF then s.count64 (O.TARGET_COUNTS t 13)
    else
      let s := s.putIsrc n { s.isrc n with redir := true }
      (s.count64 (O.TARGET_COUNTS t 12)).raise (0xB58 + t)

/-- The reset of the host attachment (R368). -/
def State.irqHostReset (s : State) : State :=
  let s := s.each (List.range 64) State.stackReset
  s.noteRef 8

/-- A software source raised (R352). -/
def isSoft (n : Nat) : Bool := 0xF00 ≤ n && n ≤ 0xFFE

/-! ### Meanings -/

/-- MSIX_DELIVERABLE (R357). -/
def execMsixDeliverable (t : Fin 64) (s : State) : Out := live s fun s =>
  if s.msixReady t ∧ s.host.pba.contains t.val then
    { s.emit (.msix t) with host := { s.host with pba := delNat t s.host.pba } }
  else s

/-- SOURCE_DOORBELL (R351, R354): the oldest message of the ordered queue arrives. -/
def execSourceDoorbell (s : State) : Out := live s fun s =>
  match s.irq.doorbells with
  | [] => s
  | n :: r => ({ s with irq := { s.irq with doorbells := r } }).event n

/-- IRQ_DOORBELL (R352). -/
def execIrqDoorbell (v : BitVec 32) (s : State) : Out := live s fun s =>
  let n := v.toNat % 4096
  if isSoft n then s.event n else s.count64 O.DOORBELL_REFUSED

/-- DELIVERY_MESSAGE (R356). -/
def execDeliveryMessage (t : Target) (s : State) : Out := live s fun s =>
  if s.messageDue t then s.message t else s

/-- IRQ_CLAIM (R358). -/
def execIrqClaim (t : Target) (s : State) : Out := live s fun s => s.claim t

/-- IRQ_COMPLETE (R360). -/
def execIrqComplete (t : Target) (v : BitVec 32) (s : State) : Out := live s fun s => s.complete t (v.toNat % 4096)

/-- IRQ_STACK_RESET (R361): a write of 1; a write of 0 does nothing. -/
def execIrqStackReset (t : Target) (v : BitVec 32) (s : State) : Out := live s fun s =>
  if bit v.toNat 0 then s.stackReset t else s

/-- IRQ_MASK_WRITE (R365). -/
def execIrqMaskWrite (w : Fin 128) (v : BitVec 32) (s : State) : Out := live s fun s => s.writeMask w v.toNat

/-- IRQ_PENDING_WRITE (R365, R366). -/
def execIrqPendingWrite (w : Fin 128) (v : BitVec 32) (s : State) : Out := live s fun s => s.writePending w v.toNat

/-- IRQ_PENDING_READ (R366). -/
def execIrqPendingRead (w : Fin 128) (s : State) : Out := live s fun s =>
  (s.noteRead 8 w).emit (.bar (some (s.pendingWord w)))

/-- DELIVERY_TIMEOUT (R363). -/
def execDeliveryTimeout (n : Source) (s : State) : Out := live s fun s => s.deliveryTimeout n

end Sys2Proof.Machine
end

