-- ==== Sys2Proof/Machine/Fault.lean ====
section
/-!
DEFINITION. Sys2Proof/Machine/Fault.lean: the fault collector (R371-R385): details of reports, the domain tree, folding,
the log, the counting classifier, injection; and the meanings that need no other block.
-/
namespace Sys2Proof.Machine

/-! ### Details of reports (R376) -/

/-- Class M: word address, a syndrome (parity: 0), access, bits in error. The syndrome of a real error is a free value
(log 4). -/
def detailM (addr syn access bits : Nat) : List Byte :=
  leBytes 4 addr ++ leBytes 2 syn ++ [nb access, nb bits] ++ zeros 12
/-- Class L: lane, stage, LAST_EXIT, port. -/
def detailL (lane stage exit port : Nat) : List Byte :=
  leBytes 2 lane ++ [nb stage, nb exit] ++ leBytes 2 port ++ zeros 14
/-- Class O: handle word, token. -/
def detailO (hw tok : Nat) : List Byte := leBytes 4 hw ++ leBytes 2 tok ++ zeros 14
/-- Class D: channel, map address, kind. -/
def detailD (ch addr kind : Nat) : List Byte := leBytes 2 ch ++ zeros 2 ++ leBytes 8 addr ++ [nb kind] ++ zeros 7
/-- Class S: the values named where the source is raised, little-endian in the order named, padded (log 8). -/
def detailS (l : List Byte) : List Byte := (padTo 20 l).take 20

/-! ### Domains (R372) -/

/-- The units directly upstream of a unit. -/
def State.parents (s : State) (u : Nat) : List Nat :=
  let k := u / 2 ^ 24
  let i := u % 2 ^ 24
  match k with
  | 0 => []
  | 1 | 7 | 11 | 13 | 16 => [unitId 0 0]
  | 2 | 3 | 4 | 5 | 6 => [unitId 1 0]
  | 8 => [unitId 7 (i / 4)]
  | 9 => [unitId 8 (i / 16)]
  | 10 => unitId 8 (i / 16) :: unitId 2 (i / 16) :: (s.portLanes i).map (unitId 9)
  | 12 => [unitId 11 0]
  | 14 => [unitId 13 0]
  | 15 => [unitId 14 (i / 16)]
  | 17 => unitId 16 0 :: (if i < 64 then [unitId 13 0] else [unitId 18 (i - 64)])
  | 18 | 19 => [unitId 16 0]
  | 20 => [unitId 4 (s.decl i).partition]
  | _ => []

/-- Unit `v` is upstream of unit `u`: the tree is at most five units deep (R372). -/
def State.upstream (s : State) (u v : Nat) : Bool :=
  let up := fun l => (l ++ l.flatMap s.parents : List Nat)
  (up (up (up (up (s.parents u))))).contains v

/-! ### The classifier (R377) -/

namespace FState
abbrev clear := 0
abbrev counting := 1
abbrev severe := 2
abbrev handled := 3
abbrev escalated := 4
end FState

/-- Records of a source since it last left CLEAR. -/
def State.windowCount (s : State) (n : Nat) : Nat := look 0 s.faults.window n
def State.setWindow (s : State) (n v : Nat) : State :=
  { s with faults := { s.faults with window := putN 0 n v s.faults.window } }

/-- A source becomes SEVERE (R377): the unit latched, the state counted. -/
def State.goSevere (s : State) (n unit : Nat) : State :=
  ((s.set (O.FAULT_STATE n) FState.severe).set (O.SEVERE_UNIT n) unit).count64 (O.FAULT_COUNTS n 11)

/-- A record of source `n` with unit `unit` passes the classifier (R377). -/
def State.classify (s : State) (n unit : Nat) : State :=
  let s := s.count64 (O.FAULT_COUNTS n 9)
  let st := s.get (O.FAULT_STATE n)
  let c := if st = FState.clear then 1 else min (s.windowCount n + 1) 0xFFFF
  let s := s.setWindow n c
  if st ≤ FState.counting then
    if s.get (O.FAULT_N n) ≤ c then s.goSevere n unit else s.set (O.FAULT_STATE n) FState.counting
  else s

/-- A source returns to CLEAR. -/
def State.toClear (s : State) (n : Nat) : State := (s.set (O.FAULT_STATE n) FState.clear).setWindow n 0

/-! ### Folding, publication (R373-R375) -/

/-- A report is folded into a record (R373). -/
def Held.fold (h : Held) (r : Report) (arrival : Nat) : Held := { h with reps := h.reps ++ [(arrival, r.reporter, r.source)] }

/-- The witnesses of a record, in order of arrival: its reports, the first among them, whose reporter is not the record's
unit (R374; the worked example lists the tile that made the first report). -/
def Held.wits (h : Held) : List (Nat × Nat × Nat) := h.reps.filter (·.2.1 != h.root.unit)

/-- The reports of a record that takes over held records downstream of it, in order of arrival (R373). -/
def mergeReps (own : Nat × Nat × Nat) (hs : List Held) : List (Nat × Nat × Nat) :=
  sortOn (·.1) (hs.flatMap (·.reps) ++ [own])

/-- Take one report (R373, R374): fold it, open a record, or, with 256 held, classify it unlogged. -/
def State.takeReport (s : State) (r : Report) : State :=
  let k := s.faults.arrived + 1
  let s := { s with faults := { s.faults with arrived := k } }
  let s := if r.injected then s.count64 (O.FAULT_COUNTS r.source 15) else s
  let into := fun (h : Held) =>
    (h.root.source = r.source ∧ h.root.unit = r.unit) ∨ s.upstream r.unit h.root.unit = true
  match s.faults.held.find? fun h => decide (into h) with
  | some h =>
    let hs := s.faults.held.map fun x => if x.at_ = h.at_ then x.fold r k else x
    { s with faults := { s.faults with held := hs } }
  | none =>
    let below := s.faults.held.filter fun h => s.upstream h.root.unit r.unit
    let rest := s.faults.held.filter fun h => !s.upstream h.root.unit r.unit
    if below = [] ∧ 256 ≤ s.faults.held.length then
      let s := (s.count64 O.REPORTS_UNLOGGED).classify r.source r.unit
      s.raise r.source
    else
      let h : Held := ⟨r, k, s.tb (s.get O.FAULT_TIME_BASE), s.dc, mergeReps (k, r.reporter, r.source) below⟩
      { s with faults := { s.faults with held := rest ++ [h] } }

/-- The 128 bytes of a record (R375). -/
def recordBytes (h : Held) (seq count state : Nat) (madeSevere : Bool) : List Byte :=
  let n := h.wits.length
  let flags := b01 h.root.injected + 2 * b01 madeSevere + 4 * b01 (decide (16 < n)) +
    8 * b01 (h.root.reporter == h.root.unit)
  let reps := (List.range 16).flatMap fun i => leBytes 4 ((h.wits[i]?.map (·.2.1)).getD 0xFFFFFFFF)
  leBytes 2 h.root.source ++ leBytes 2 flags ++ leBytes 4 h.root.unit ++ leBytes 8 seq ++ leBytes 12 h.time ++
  leBytes 8 h.clock ++ leBytes 4 (min n 0xFFFFFFFF) ++ leBytes 2 count ++ [nb state, 0] ++
  (padTo 20 h.root.detail).take 20 ++ reps

/-- Publish the oldest held record: its witnesses count in their own sources' WITNESSED, then classifier, log, FAULT_SEQ,
doorbell (R375, R377). -/
def State.publish (s : State) : State :=
  match s.faults.held with
  | [] => s
  | h :: rest =>
    let n := h.root.source
    let before := s.get (O.FAULT_STATE n)
    let s := h.wits.foldl (fun s w => s.count64 (O.FAULT_COUNTS w.2.2 10)) { s with faults := { s.faults with held := rest } }
    let s := s.classify n h.root.unit
    let st := s.get (O.FAULT_STATE n)
    let seq := (s.get O.FAULT_SEQ + 1) % 2 ^ 64
    let body := recordBytes h seq (s.windowCount n) st (st == FState.severe && before != FState.severe)
    let s := s.set O.FAULT_LOG (leNat body) (seq % 4096)
    let s := (s.set O.FAULT_SEQ seq).set (O.LAST_SEQ n) seq
    s.raise n

/-! ### Damaged words and injection (R382) -/

/-- How a source is tested (R382). -/
def modeFits (c : Checker) (m : Nat) : Bool :=
  match c with
  | .ecc => m == 1 || m == 2
  | .parity => m == 3
  | .markerBip => m == 3 || m == 4
  | .plain => m == 4

/-- The number of units of a domain kind. -/
def kindCount (k : Nat) : Nat :=
  ([1, 1, 32, 192, 16, 1, 1, 8, 32, 512, 512, 1, 8, 1, 32, 512, 1, 68, 4, 2, 64] : List Nat).getD k 0

/-- A unit identifier that names a unit of the device; a port is named by its number, in the map or not (R372). -/
def isUnit (u : Nat) : Bool :=
  let k := u / 2 ^ 24
  let i := u % 2 ^ 24
  decide (i < kindCount k)

/-- The unit fits the source (R382, R383). -/
def unitFits (n u : Nat) (r : SrcRow) : Bool :=
  let k := u / 2 ^ 24
  let i := u % 2 ^ 24
  isUnit u &&
  (if r.kind = 255 then k == 10 || k == 2 || k == 15 || k == 6
   else k == r.kind && (r.per == 0 || i / r.per == n - r.first))

/-- FAULT_INJECT's block check: 0, or the error code (R382). -/
def State.injectCheck (s : State) (n mode u : Nat) : Nat :=
  match srcRow n with
  | none => Err.range
  | some r =>
    if r.cls = 0 || !modeFits r.chk mode || !unitFits n u r then Err.range
    else if (s.faults.armed.filter (·.unit == u)).length ≥ 16 then Err.cmdBusy
    else Err.ok

/-- Arm an injection, or make the report of mode 4 (R382). -/
def State.inject (s : State) (n mode u addr : Nat) : State :=
  if mode = 4 then s.reportR ⟨n, u, u, zeros 20, true⟩
  else { s with faults := { s.faults with armed := s.faults.armed ++ [⟨n, u, addr, mode, none⟩] } }

/-- The injection armed for the next marker group of lane `l` is used up: whether there was one (R382). -/
def State.markerArmed (s : State) (l : Nat) : Bool × State :=
  match s.faults.armed.find? fun a => a.mode == 3 && a.unit == unitId 9 l with
  | none => (false, s)
  | some a => (true, { s with faults := { s.faults with armed := s.faults.armed.erase a } })

/-- Put a damaged word into an array, in place of one at that address. `source` is the _CE source (or the parity
source) of the array's checker. -/
def State.damage (s : State) (d : Damage) : State :=
  let rest := s.faults.damage.filter fun x => !(x.source == d.source && x.addr == d.addr)
  { s with faults := { s.faults with damage := rest ++ [d] } }

/-- The arming of the injection that damaged a word ends (R382). -/
def State.disarm (s : State) (source addr : Nat) : State :=
  { s with faults := { s.faults with armed := s.faults.armed.filter (·.at_ != some (source, addr)) } }

/-- A word that reads clean again; an injection that it held makes no report any more (log 118). -/
def State.mend (s : State) (source addr : Nat) : State :=
  { s.disarm source addr with faults :=
    { (s.disarm source addr).faults with
      damage := s.faults.damage.filter fun x => !(x.source == source && x.addr == addr) } }

/-- The damage of a word. -/
def State.damaged (s : State) (source addr : Nat) : Option Damage :=
  s.faults.damage.find? fun x => x.source == source && x.addr == addr

/-- A word of an array is written: it is clean, unless an injection armed for it, or for the next write of the unit,
damages it; the arming stands until the report (R382). `ce` and `ue` are the array's sources; `addr` is the word's number
here, `shown` the address that reports and injections name (R376). -/
def State.wordWrittenAs (s : State) (ce ue u addr shown : Nat) : State :=
  let hit := fun (a : Armed) =>
    a.at_ = none ∧ (a.source = ce ∨ a.source = ue) ∧ a.unit = u ∧ (a.addr = shown ∨ a.addr = 0xFFFFFFFF)
  let s := if s.faults.damage = [] then s else s.mend ce addr
  match s.faults.armed.find? fun a => decide (hit a) with
  | none => s
  | some a =>
    let l := s.faults.armed.erase a ++ [{ a with at_ := some (ce, addr) }]
    State.damage { s with faults := { s.faults with armed := l } } ⟨ce, addr, if a.mode = 2 then 2 else 1, true, false⟩

/-- The same where the word's number is its address. -/
def State.wordWritten (s : State) (ce ue u addr : Nat) : State := s.wordWrittenAs ce ue u addr addr

/-- Report a memory check's finding (R376, class M). -/
def State.reportM (s : State) (src unit reporter addr access nbits : Nat) (injected : Bool) : State :=
  let d := s.draw 16
  d.2.reportR ⟨src, unit, reporter, detailM addr d.1 access nbits, injected⟩

/-- A word of an ECC array meets its check: an error is reported and left, and the report clears an injection's arming.
The answer is the number of bits in error. -/
def State.checkWord (s : State) (ce ue u reporter addr shown access : Nat) : Nat × State :=
  match s.damaged ce addr with
  | none => (0, s)
  | some d =>
    let s := s.reportM (if d.bits = 1 then ce else ue) u reporter shown access d.bits d.injected
    (d.bits, if d.injected then (s.disarm ce addr).damage { d with injected := false } else s)

/-- A read of a word of an ECC array that repairs what it corrects. The answer says whether the word is uncorrectable. -/
def State.readWordAs (s : State) (ce ue u reporter addr shown access : Nat) : Bool × State :=
  let r := s.checkWord ce ue u reporter addr shown access
  if r.1 = 1 then (false, r.2.mend ce addr) else (r.1 != 0, r.2)

/-- The same where the word's number is its address. -/
def State.readWord (s : State) (ce ue u reporter addr access : Nat) : Bool × State :=
  s.readWordAs ce ue u reporter addr addr access

/-- Bits of an AER status register become set (R318). -/
def State.aerSeen (s : State) (uncorrectable : Bool) (status : Nat) : State :=
  { s with host := if uncorrectable then { s.host with aerUe := s.host.aerUe ||| status }
    else { s.host with aerCe := s.host.aerCe ||| status } }

/-- What a scrubber or a reader finds in a word: what the world says, or the damage the word holds (log 9). -/
def State.found (s : State) (ce addr : Nat) (f : Ecc) : State :=
  match f with
  | .ok => s
  | .one => if (s.damaged ce addr).isSome then s else s.damage ⟨ce, addr, 1, false, false⟩
  | .two => s.damage ⟨ce, addr, 2, ((s.damaged ce addr).map (·.injected)).getD false, false⟩

/-! ### Checkers that no other command stands for (R383, R386, R412, R416) -/

/-- A Slate core restarts its firmware (R383, R404). -/
def State.slateDown (s : State) (k : Nat) : State :=
  let at_ := if s.sys.slateDown = [] then s.now else s.sys.pauseAt
  { s with sys := { s.sys with slateDown := insNat k s.sys.slateDown, pauseAt := at_ } }

/-- A core that runs firmware now. -/
def State.slateRuns (s : State) (k : Nat) : Bool := s.sys.fw == .running && !s.sys.slateDown.contains k

/-- A lane bank's microsequencer runs its code: loaded, and not lost (R392, R393). -/
def State.seqRuns (s : State) (b : Nat) : Bool := s.sys.ucode && !s.sys.seqDown.contains b

/-- What a checker finds joins the ordered queue of reports. The code of the microsequencers is written at a reload
alone; the memory of a Slate core is written all the time, so that an injection armed for the word is in it. An
uncorrectable word stops the bank's microsequencer until a reload, or restarts the core (R382, R383, log 117). -/
def State.seen (s : State) (x : FaultSeen) : State :=
  match x with
  | .queued => s
  | .laneSeq b a f =>
    if !s.seqRuns b then s
    else
      let u := unitId 7 b
      let r := (s.found (0x60 + b.val) a.toNat f).readWord (0x60 + b.val) (0x68 + b.val) u u a.toNat 1
      if r.1 then { r.2 with sys := { r.2.sys with seqDown := insNat b r.2.sys.seqDown } } else r.2
  | .slate k a f =>
    if !s.slateRuns k then s
    else
      let u := unitId 18 k
      let s := s.wordWritten (0xBA8 + k.val) (0xBAC + k.val) u a.toNat
      let r := (s.found (0xBA8 + k.val) a.toNat f).readWord (0xBA8 + k.val) (0xBAC + k.val) u u a.toNat 1
      if r.1 then (r.2.mend (0xBA8 + k.val) a.toNat).slateDown k else r.2
  | .pcie ue status => (s.aerSeen ue status.toNat).report (if ue then 0xB0B else 0xB0A) (unitId 13 0) (detailS (leBytes 4 status.toNat))
  | .corePll => s.report 0xC41 (unitId 1 0) (zeros 20)
  | .mgmtPll => s.report 0xC42 (unitId 16 0) (zeros 20)
  | .supply r mv => s.report 0xC43 (unitId 0 0) (detailS ([nb r.val] ++ leBytes 2 mv.toNat))

/-! ### Meanings -/

/-- FAULT_REPORT (R373, R374): the oldest report of the ordered queue, which what a checker finds now joins, reaches the
collector. -/
def execFaultReport (s : State) (seen : FaultSeen := .queued) : Out := live s fun s =>
  let s := s.seen seen
  match s.faults.reports with
  | [] => s
  | r :: rest => ({ s with faults := { s.faults with reports := rest } }).takeReport r

/-- RECORD_PUBLISH (R375): the oldest held record reaches the end of its fold window. -/
def execRecordPublish (s : State) : Out := live s State.publish

/-- FAULT_WINDOW_EXPIRE (R377): a COUNTING source returns to CLEAR; not a recovery. -/
def execFaultWindowExpire (n : Source) (s : State) : Out := live s fun s =>
  if s.get (O.FAULT_STATE n) = FState.counting then s.toClear n else s

/-- QUIET_EXPIRE (R377): the source recovers. -/
def execQuietExpire (n : Source) (s : State) : Out := live s fun s =>
  if FState.severe ≤ s.get (O.FAULT_STATE n) then
    ((s.toClear n).count64 (O.FAULT_COUNTS n 14)).raise n
  else s

end Sys2Proof.Machine
end

