-- ==== Sys2Proof/Machine/Gates.lean ====
section
/-!
DEFINITION. Sys2Proof/Machine/Gates.lean: the time gates of a port (R245-R252): lists, positions, closes, spans, the
start and replacement of a list.
-/
namespace Sys2Proof.Machine

/-- 2^-16 ns in one ns. -/
abbrev nsU : Nat := 65536

/-- A tile in Pale service: TILE_SERVICE 0 (R397). -/
def State.isPale (s : State) (t : Nat) : Bool := s.get (O.TILE_SERVICE t) == 0

/-- A tile that dispatches Pale packets: PALE, or ENTERING past its boundary (R398). -/
def State.dispatchesPale (s : State) (t : Nat) : Bool := s.get (O.TILE_SERVICE t) != 2

/-- Row `i` of a gate image: interval in ns and the control word (R245). -/
def State.gateRow (s : State) (p image i : Nat) : Nat × Nat :=
  let v := s.get (if image = 0 then O.GATE_LIST_0 p else O.GATE_LIST_1 p) i
  (v % 2 ^ 32, v / 2 ^ 32)
/-- The open bits of a row. -/
def rowOpen (w : Nat) : Nat := w % 2 ^ 17
/-- The operation of a row. -/
def rowOp (w : Nat) : Nat := bits w 18 17

/-- The entries of a list that run within one cycle: start offset and end offset in ns, open bits, operation (R246): the
last one lasts to the cycle's end, and one that would start at or after it does not run. -/
def State.gateEntries (s : State) (p : Nat) (g : GList) : List (Nat × Nat × Nat × Nat) :=
  let rec go (fuel i at_ : Nat) : List (Nat × Nat × Nat × Nat) :=
    match fuel with
    | 0 => []
    | f + 1 =>
      if i ≥ g.len ∨ at_ ≥ g.cycle then []
      else
        let r := s.gateRow p g.image i
        let e := if i + 1 ≥ g.len then g.cycle else min (at_ + r.1) g.cycle
        (at_, e, rowOpen r.2, rowOp r.2) :: go f (i + 1) (at_ + r.1)
  go 256 0 0

/-- The offset in a cycle at instant `u`, in units; cycles lie before the list's start too, where a step back of the
base puts a running list (R246, R252). -/
def GList.offsetU (g : GList) (u : Nat) : Nat :=
  (((u : Int) - g.start) % ((max g.cycle 1 * nsU : Nat) : Int)).toNat

/-- How long from now a list's start lies ahead on its base, in units (R251). -/
def State.startsIn (s : State) (g : GList) : Nat := g.start - s.tbUnits g.tb

/-- The list in force `d` units from now: the pending one from its start S on, before that the running one (R251). -/
def State.listIn (s : State) (p d : Nat) : Option GList :=
  match (s.gate p).next with
  | some g => if s.startsIn g ≤ d then some g else (s.gate p).running
  | none => (s.gate p).running

/-- The offset in a list's cycle `d` units from now. -/
def State.offsetIn (s : State) (g : GList) (d : Nat) : Nat := g.offsetU (s.tbUnits g.tb + d)

/-- The number of the entry in force at an offset, and its open bits and operation. -/
def entryAt (es : List (Nat × Nat × Nat × Nat)) (off : Nat) : Option (Nat × Nat × Nat) :=
  (List.range es.length).foldl (fun a i =>
    match es[i]? with
    | some (b, _, o, op) => if b * nsU ≤ off then some (i, o, op) else a
    | none => a) none

/-- All gates open. -/
abbrev allOpen : Nat := 0x1FFFF

/-- The gates act on port `p`: its tile is not in Pale service (R246). -/
def State.gatesAct (s : State) (p : Nat) : Bool := !s.isPale (p / 16)

/-- Gate bits in force `d` units from now (R233, R251). -/
def State.openIn (s : State) (p d : Nat) : Nat :=
  match (if s.gatesAct p then s.listIn p d else none) with
  | none => allOpen
  | some g =>
    match entryAt (s.gateEntries p g) (s.offsetIn g d) with
    | some (_, o, _) => o
    | none => allOpen

/-- How long from now the first close of gate `m` lies within a list whose gate is open `d` units from now, at offset `off`:
`none` if it never closes (R247). Offsets run over the rest of this cycle and one further cycle. -/
def closeIn (es : List (Nat × Nat × Nat × Nat)) (cycle m d off : Nat) : Option Nat :=
  let shut := es.filter fun e => !bit e.2.2.1 m
  let this := (shut.filter fun e => off ≤ e.1 * nsU).map fun e => d + (e.1 * nsU - off)
  let next := shut.map fun e => d + (cycle * nsU - off) + e.1 * nsU
  (this ++ next).foldl (fun a x => match a with | none => some x | some y => some (min x y)) none

/-- How long from now gate `m` of port `p` first closes, `d` units from now or later; a close at the start of a pending list
counts (R247). A pending list on another base than the running one starts when its own base says so (log 96). -/
def State.nextClose (s : State) (p m d : Nat) : Option Nat :=
  if !s.gatesAct p then none
  else
    let within := fun (g : GList) (d : Nat) => closeIn (s.gateEntries p g) g.cycle m d (s.offsetIn g d)
    let a := match s.listIn p d with
      | none => none
      | some g => within g d
    match (s.gate p).next with
    | none => a
    | some g =>
      let n := s.startsIn g
      if n ≤ d then a
      else
        let b := match entryAt (s.gateEntries p g) 0 with
          | some (_, o, _) => if bit o m then within g n else some n
          | none => none
        match a with
        | some c => if c < n then some c else b
        | none => b

/-- The longest open span of gate `m` in the list in force `d` units from now; `none` if it never closes (R250). -/
def State.longestSpan (s : State) (p m d : Nat) : Option Nat :=
  match (if s.gatesAct p then s.listIn p d else none) with
  | none => none
  | some g =>
    let es := s.gateEntries p g
    let two := es ++ es.map fun e => (e.1 + g.cycle, e.2.1 + g.cycle, e.2.2)
    if es.all fun e => bit e.2.2.1 m then none
    else
      let r := two.foldl (fun (a : Nat × Nat) e =>
        if bit e.2.2.1 m then let c := a.1 + (e.2.1 - e.1); (c, max a.2 c) else (0, a.2)) (0, 0)
      some (r.2 * nsU)

/-- Show the entry in force and the gates (R259). -/
def State.showGates (s : State) (p : Nat) : State :=
  let x := s.gate p
  let st := if x.next.isSome then 1 else if x.running.isSome then 2 else 0
  let s := s.set (O.GATE_STATE p) st
  let start := match x.next, x.running with
    | some g, _ => g.start
    | none, some g => g.start
    | none, none => 0
  let s := s.set (O.GATE_START p) (unitsTime start)
  match x.running with
  | none => (s.set (O.GATE_ENTRY p) 0).set (O.GATE_OPEN p) allOpen
  | some g =>
    match entryAt (s.gateEntries p g) (g.offsetU (s.tbUnits g.tb)) with
    | some (i, o, _) => (s.set (O.GATE_ENTRY p) i).set (O.GATE_OPEN p) o
    | none => s

/-- Gate objects of port `p` come into force (R251): a list becomes pending with its start S, or, disabled, every gate
opens and a held tail is released. -/
def State.gateCommit (s : State) (p : Nat) : State :=
  if !s.flag (O.GATE_ENABLE p) then
    ((s.putGate p GateX.reset).modPort p fun x => { x with tailHeld := false }).showGates p
  else
    let tb := s.get (O.GATE_TIME_BASE p)
    let cyc := s.get (O.GATE_CYCLE_NS p)
    let base := timeUnits (s.get (O.GATE_BASE_TIME p))
    let need := s.tbUnits tb + 1000 * nsU
    let late := decide (base < need)
    let step := max cyc 1 * nsU
    let n := if late then (need - base + step - 1) / step else 0
    let g : GList := ⟨s.get (O.GATE_IMAGE p), base + n * step, cyc, s.get (O.GATE_LENGTH p), tb⟩
    let s := s.putGate p { s.gate p with next := some g }
    let s := if late then (s.count64 (O.GATE_COUNTS p 5)).raise (0x700 + p / 16) else s
    s.showGates p

/-- A gate image that runs or is pending may not be written (R245). -/
def State.gateImageInUse (s : State) (p image : Nat) : Bool :=
  ((s.gate p).running.toList ++ (s.gate p).next.toList).any fun g => g.image == image

/-- A step of base `n` moves the position of every list running on it (R252). -/
def State.gateResync (s : State) (n : Nat) : State :=
  (s.gates.map (·.1)).foldl (fun s p =>
    match (s.gate p).running with
    | some g => if g.tb = n ∧ s.gatesAct p = true then (s.count64 (O.GATE_COUNTS p 7)).showGates p else s
    | none => s) s

/-- GATE_LIST_START (R251, R252): once its base has reached S, the pending list starts; entry 0 replaces the old list's
state. -/
def execGateListStart (p : Port) (s : State) : Out := live s fun s =>
  match (s.gate p).next with
  | none => s
  | some g =>
    if s.gatesAct p = true ∧ s.startsIn g = 0 then
      let s := s.putGate p { s.gate p with running := some g, next := none }
      (s.count64 (O.GATE_COUNTS p 6)).showGates p
    else s

/-- GATE_ENTRY_START (R246, R249): the gates of the entry in force; its operation starts or ends a hold while
preemption is active. -/
def execGateEntryStart (p : Port) (s : State) : Out := live s fun s =>
  match (s.gate p).running with
  | none => s
  | some g =>
    if s.gatesAct p = false then s
    else
      match entryAt (s.gateEntries p g) (g.offsetU (s.tbUnits g.tb)) with
      | none => s
      | some (i, o, op) =>
        let s := (s.set (O.GATE_ENTRY p) i).set (O.GATE_OPEN p) o
        if !s.flag (O.PREEMPT_ACTIVE p) ∨ op = 0 then s
        else s.putGate p { s.gate p with held := op == 1 }

end Sys2Proof.Machine
end

