-- ==== Sys2Proof/Machine/Time.lean ====
section
/-!
DEFINITION. Sys2Proof/Machine/Time.lean: steps, slews and refusals of time bases (R264-R268), the reference (R260, R261),
PPS (R272, R273), the servo (R274, R275), the timestamps of frames (R269, R271).
-/
namespace Sys2Proof.Machine

namespace TbState
abbrev armed := 0
abbrev tracking := 1
abbrev held := 2
end TbState

/-- Fifths of 2^-48 ns in one unit of 2^-16 ns. -/
abbrev slewPerUnit : Int := 5 * 2 ^ 32

/-- One second in units of 2^-16 ns. -/
abbrev secondU : Nat := 1000000000 * 65536

/-! ### PPS outputs (R273) -/

/-- PPS outputs that are high, with the edge instant of their pulse in units on the base. -/
def State.ppsHigh? (s : State) (n : Nat) : Option Nat := (s.time.ppsHigh.find? (·.1 == n)).map (·.2)
def State.ppsRise (s : State) (n edge : Nat) : State :=
  let hs := s.time.ppsHigh.filter (·.1 != n) ++ [(n, edge)]
  ({ s with time := { s.time with ppsHigh := hs } }).emit (.pps n true)
def State.ppsFall (s : State) (n : Nat) : State :=
  ({ s with time := { s.time with ppsHigh := s.time.ppsHigh.filter (·.1 != n) } }).emit (.pps n false)

/-- How far a base lies past its last edge instant, in units (R273). -/
def State.ppsPast (s : State) (n : Nat) : Nat :=
  (((s.tbUnits n : Int) - s.geti (O.PPS_OUT_OFFSET_NS n) * nsU) % secondU).toNat

/-- A step moves the PPS output of the base (R273). -/
def State.ppsStep (s : State) (n : Nat) : State :=
  let u := s.tbUnits n
  let s := match s.ppsHigh? n with
    | none => s
    | some e =>
      if u < e ∨ e + s.get (O.PPS_OUT_WIDTH_NS n) * nsU ≤ u then s.ppsFall n else s
  if s.flag (O.PPS_OUT_ENABLE n) ∧ s.ppsPast n = 0 then s.ppsRise n u else s

/-! ### Steps and slews (R264, R265, R267) -/

/-- The amount of one base value another is ahead, in units. -/
def timeDiff (a b : Nat) : Int := (timeUnits a : Int) - timeUnits b

/-- Add an offset to a base, at the instant of a tick (R265): gates and PPS follow. -/
def State.stepBase (s : State) (n : Nat) (o : Int) : State :=
  let b := s.base n
  let total : Int := ((b.sec * 1000000000 : Nat) : Int) * 2 ^ 48 + b.nsf + o * 2 ^ 32
  let m : Int := 2 ^ 48 * 1000000000 * 2 ^ 48
  let v := (total % m).toNat
  let s := s.putBase n { b with sec := v / (1000000000 * 2 ^ 48), nsf := v % (1000000000 * 2 ^ 48) }
  let s := { s with time := { s.time with ran := slots 8 (s.time.ran.getD · 0) n 0 } }
  (s.gateResync n).ppsStep n

/-- An ARMED base takes a step at the next tick (R264, R265): it is TRACKING, its remaining slew is cleared, the step
counts. -/
def State.tracks (s : State) (n : Nat) : State :=
  let s := s.putBase n { s.base n with slew := 0 }
  (s.set (O.TB_STATE n) TbState.tracking).count64 (O.TB_COUNTS n 11)

/-- A step of base `n` waits for the next tick: in place of one that a PPS edge asked for, with one that a command did
(R264, R285). -/
def State.askStep (s : State) (n : Nat) (o : Int) (edge : Bool) : State :=
  let mine := s.time.steps.filter fun x => x.base == n && !x.edge
  let rest := s.time.steps.filter (·.base != n)
  let o := (mine.map (·.offset)).foldl (· + ·) o
  { s with time := { s.time with steps := rest ++ [⟨n, o, edge⟩] } }

/-- The steps that waited for this tick take effect; a PPS edge's makes its base TRACKING now (R264, R272). -/
def State.stepsDue (s : State) : State :=
  let s' := { s with time := { s.time with steps := [] } }
  s'.each s.time.steps fun s x => (if x.edge then s.tracks x.base else s).stepBase x.base x.offset

/-- The offset as the 64 bits of TB_ADJUST; an offset that does not fit there is a free value (log 10). -/
def State.offsetWord (s : State) (o : Int) : Nat × State :=
  if -(2 ^ 63 : Int) ≤ o ∧ o < 2 ^ 63 then (ofSigned 64 o, s) else s.draw 64

/-- TB_ADJUST or TB_SET with the offset `o` in 2^-16 ns (R264). The Bool says that the command succeeded; the number is
its error code. -/
def State.adjust (s : State) (n : Nat) (o : Int) : Nat × State :=
  let st := s.get (O.TB_STATE n)
  if st = TbState.armed then (Err.ok, (s.tracks n).askStep n o false)
  else if st = TbState.tracking then
    let b := s.base n
    let sum := o * slewPerUnit + b.slew
    let lim : Int := s.get (O.JUMP_THRESHOLD_NS n) * 2 ^ 48 * 5
    if -lim ≤ sum ∧ sum ≤ lim then
      (Err.ok, (s.putBase n { b with slew := sum }).count64 (O.TB_COUNTS n 12))
    else
      let w := s.offsetWord o
      let bytes := leBytes 8 w.1 ++ leBytes 12 (s.tb n)
      let s := w.2.setAll (O.LAST_REFUSED n) (bytes.map bn)
      let s := (s.set (O.TB_STATE n) TbState.held).count64 (O.TB_COUNTS n 13)
      (Err.range, s.report (0x788 + n) (unitId 12 n) bytes)
  else (Err.state, s.count64 (O.TB_COUNTS n 13))

/-! ### The servo (R274, R275) -/

namespace Servo
abbrev off := 0
abbrev acquiring := 1
abbrev locked := 2
abbrev holdover := 3
abbrev refused := 4
end Servo

def State.servo (s : State) (n : Nat) : Servo := s.time.servos.getD n Servo.reset
def State.putServo (s : State) (n : Nat) (x : Servo) : State :=
  { s with time := { s.time with servos := slots 8 s.servo n x } }

/-- Move a servo to a state; leaving LOCKED raises TIME_SERVO_UNLOCK with the last offset (R275). -/
def State.servoTo (s : State) (n st : Nat) : State :=
  let was := s.get (O.SERVO_STATE n)
  let s := s.set (O.SERVO_STATE n) st
  if was = Servo.locked ∧ st ≠ Servo.locked then
    s.report (0x7C0 + n) (unitId 12 n) (detailS (leBytes 4 (s.get (O.SERVO_OFFSET n))))
  else s

/-- TB_REARM (R264): a REFUSED servo of the base starts again (R275). -/
def State.rearm (s : State) (n d : Nat) : Nat × State :=
  let st := s.get (O.TB_STATE n)
  let into := fun x =>
    let s := (s.set (O.TB_STATE n) x).count64 (O.TB_COUNTS n 14)
    if s.get (O.SERVO_STATE n) = Servo.refused then (s.putServo n { s.servo n with good := 0, bad := 0 }).servoTo n Servo.acquiring
    else s
  if d = 0 then (Err.ok, if st = TbState.armed then s else into TbState.armed)
  else if st = TbState.held then (Err.ok, into TbState.tracking)
  else (Err.state, s)

/-- SERVO_OWNER or SERVO_MODE was written (R275): the servo starts, or is off. -/
def State.servoWritten (s : State) (n : Nat) : State :=
  if s.get (O.SERVO_OWNER n) = 1 ∧ s.get (O.SERVO_MODE n) ≠ 0 then
    let s := s.putServo n { s.servo n with good := 0, bad := 0 }
    if s.get (O.SERVO_STATE n) = Servo.off then s.servoTo n Servo.acquiring else s
  else s.servoTo n Servo.off

/-- The offset a servo measures, in whole ns, rounded toward zero: positive when the base is behind (R274). -/
def State.servoOffset (s : State) (n : Nat) : Int :=
  let u : Int :=
    if s.get (O.SERVO_MODE n) = 1 then
      let t := leAt ((s.getAll O.PPS_IN_CAPTURE 112).map nb) (n * 12) 12
      let f : Int := timeNs t * nsU + timeFrac t
      if 2 * f < secondU then -f else secondU - f
    else timeDiff (s.tb (s.get (O.SERVO_SOURCE n))) (s.tb n)
  Int.tdiv u nsU

/-- The servo's count of measurements (R275): 16 within LOCK_NS lock it, 4 beyond it while LOCKED unlock it. -/
def State.servoCount (s : State) (n : Nat) (o : Int) : State :=
  let x := s.servo n
  let inside := decide (o.natAbs ≤ s.get (O.LOCK_NS n))
  let s := s.putServo n { x with good := if inside then x.good + 1 else 0, bad := if inside then 0 else x.bad + 1 }
  let st := s.get (O.SERVO_STATE n)
  if st = Servo.locked then (if 4 ≤ (s.servo n).bad then s.servoTo n Servo.acquiring else s)
  else if 16 ≤ (s.servo n).good then s.servoTo n Servo.locked
  else s.servoTo n Servo.acquiring

/-- One measurement (R274). Its TB_RATE write obeys R266 as any other does. -/
def State.servoMeasure (s : State) (n : Nat) : State :=
  let o := s.servoOffset n
  let x := s.servo n
  let s := s.set (O.SERVO_OFFSET n) (ofSigned 32 o)
  let rate := x.integ + s.get (O.SERVO_KP n) * o
  let s := if -549755813 ≤ rate ∧ rate ≤ 549755813 then s.set (O.TB_RATE n) (ofSigned 32 rate) else s
  let s := s.putServo n { x with integ := x.integ + s.get (O.SERVO_KI n) * o, seen := s.get O.PPS_IN_COUNT }
  let r := s.adjust n (o * nsU)
  if r.1 = Err.ok then r.2.servoCount n o else r.2.servoTo n Servo.refused

/-- A servo that may measure now (R274, R275): owned, on, not REFUSED, with the firmware running and a new capture in
mode 1. -/
def State.servoReady (s : State) (n : Nat) : Bool :=
  s.get (O.SERVO_OWNER n) == 1 && s.get (O.SERVO_MODE n) != 0 && s.get (O.SERVO_STATE n) != Servo.refused &&
  s.fwUp &&
  (s.get (O.SERVO_MODE n) == 2 || s.get O.PPS_IN_COUNT != (s.servo n).seen)

/-! ### Reference (R260, R261) -/

/-- TIME_REF_SELECT was written (R261): the PLL ramps to what is selected now. -/
def State.refSelected (s : State) : State :=
  if s.get O.TIME_REF_SELECT = 0 then
    { s.set O.TIME_REF_STATE 0 with time := { s.time with ramping := true } }
  else { s.set O.TIME_REF_STATE 2 with time := { s.time with ramping := s.time.refOk } }

/-! ### PPS input (R272) -/

/-- The instant that an edge now latches on base `n`: the delay of the cable subtracted. -/
def State.ppsCapture (s : State) (n : Nat) : Nat :=
  unitsTime ((s.tbUnits n : Int) - s.geti O.PPS_IN_DELAY_NS * nsU)

/-- A captured edge steps every ARMED base with PPS_ALIGN to its nearest whole second, plus the time from the edge to the
next tick, unless a command of the same tick steps it (R272, R285). -/
def State.ppsAlign (s : State) : State :=
  s.each (List.range 8) fun s n =>
    let asked := s.time.steps.any fun x => x.base == n && !x.edge
    if s.get (O.TB_STATE n) = TbState.armed ∧ s.flag (O.PPS_ALIGN n) = true ∧ asked = false then
      let u := timeUnits (s.ppsCapture n)
      let near := (u + secondU / 2) / secondU * secondU
      s.askStep n ((near : Int) - u) true
    else s

/-! ### Timestamps (R269, R271) -/

/-- A picosecond adjustment in units of 2^-16 ns, rounded toward zero. -/
def psUnits (ps : Int) : Int := Int.tdiv (ps * 65536) 1000

/-- The device clock stamped on a frame that starts on port `p` now (R269, R271). -/
def State.rxDc (s : State) (p : Nat) : Nat := ofSigned 64 ((s.dc : Int) - psUnits (s.geti (O.RX_DELAY_ADJ_PS p)))

/-- The receive timestamp on the port's TS_BASE (R271). -/
def State.rxTime (s : State) (p : Nat) : Nat :=
  unitsTime ((s.tbUnits (s.get (O.TS_BASE p)) : Int) - psUnits (s.geti (O.RX_DELAY_ADJ_PS p)))

/-- The lead of a port from pick to first bit, in units of 2^-16 ns (EGRESS_LEAD_NS is in 1/16 ns, R259). -/
def State.leadU (s : State) (p : Nat) : Nat := s.get (O.EGRESS_LEAD_NS p) * 4096

/-- The time `n` bytes take on the wire of port `p`, in units, rounded down. -/
def State.bytesU (s : State) (p n : Nat) : Nat := n * 8 * nsU / s.get (O.SPEED_ACTIVE p)

/-- From an instant now to the timestamp point of a frame that starts `gap` bytes after it: the lead, those bytes, the
preamble with its start delimiter, and the adjustment (R247, R269). -/
def State.txAhead (s : State) (p gap : Nat) : Int :=
  (s.leadU p + s.bytesU p (gap + 8) : Nat) + psUnits (s.geti (O.TX_DELAY_ADJ_PS p))

/-- The transmit timestamp on base `n` of a frame that starts on port `p` now, or after `gap` bytes (R269, R284). -/
def State.txTime (s : State) (p n : Nat) (gap : Nat := 0) : Nat := unitsTime ((s.tbUnits n : Int) + s.txAhead p gap)

/-- The device clock at that instant. -/
def State.txDc (s : State) (p : Nat) (gap : Nat := 0) : Nat := ofSigned 64 ((s.dc : Int) + s.txAhead p gap)

/-- 2^-16 ns since reset, without the device clock's wrap. -/
def State.dcU (s : State) : Nat := s.now * 262144 / 5

/-! ### Meanings -/

/-- TIME_REF_LOSS (R261). -/
def execTimeRefLoss (err : BitVec 32) (s : State) : Out := live s fun s =>
  let s := (s.set O.TIME_REF_FREQ_ERR err.toNat).count32 O.TIME_REF_LOSSES
  let s := { s with time := { s.time with refOk := false, ramping := false } }
  if s.get O.TIME_REF_SELECT = 1 then (s.set O.TIME_REF_STATE 2).report 0x780 (unitId 11 0) (zeros 20) else s

/-- TIME_REF_RECOVER (R261). -/
def execTimeRefRecover (err : BitVec 32) (s : State) : Out := live s fun s =>
  let s := s.set O.TIME_REF_FREQ_ERR err.toNat
  { s with time := { s.time with refOk := true, ramping := s.time.ramping || s.get O.TIME_REF_SELECT == 1 } }

/-- TIME_REF_RAMP_DONE (R261). -/
def execTimeRefRampDone (s : State) : Out := live s fun s =>
  if s.time.ramping then
    let s := { s with time := { s.time with ramping := false } }
    if s.get O.TIME_REF_SELECT = 1 then s.set O.TIME_REF_STATE 1 else s
  else s

/-- SLEW_COMPLETE (R267): in the tick whose extra advance would pass the remaining slew, the extra advance is what
remains, and the slew term ends. -/
def execSlewComplete (n : TimeBase) (s : State) : Out := live s fun s =>
  let b := s.base n
  let full : Int := 1024 * slewUnits (s.get (O.SLEW_MAX_PPB n))
  if b.slew ≠ 0 ∧ -full ≤ b.slew ∧ b.slew ≤ full then
    let acc : Int := b.rem + b.slew
    let v : Int := ((b.sec * 1000000000 : Nat) : Int) * 2 ^ 48 + b.nsf + acc / 5
    let m : Int := 2 ^ 48 * 1000000000 * 2 ^ 48
    let u := (v % m).toNat
    s.putBase n ⟨u / (1000000000 * 2 ^ 48), u % (1000000000 * 2 ^ 48), (acc % 5).toNat, 0⟩
  else s

/-- PPS_IN_EDGE (R272). -/
def execPpsInEdge (s : State) : Out := live s fun s =>
  if !s.flag O.PPS_IN_ENABLE then s
  else
    let s := s.count32 O.PPS_IN_COUNT
    let dc := ofSigned 64 ((s.dc : Int) - s.geti O.PPS_IN_DELAY_NS * nsU)
    let body := (List.range 8).flatMap (fun n => leBytes 12 (s.ppsCapture n)) ++ leBytes 8 dc ++
      leBytes 4 (s.get O.PPS_IN_COUNT) ++ zeros 4
    let s := s.setAll O.PPS_IN_CAPTURE (body.map bn)
    (s.ppsAlign).raise 0x790

/-- PPS_IN_LOSS (R272, R275): no edge for 2 s; servos on the PPS input go to HOLDOVER, while the firmware runs them. -/
def execPpsInLoss (s : State) : Out := live s fun s =>
  let s := if s.flag O.PPS_IN_ENABLE then s.report 0x791 (unitId 11 0) (zeros 20) else s
  s.each (List.range 8) fun s n =>
    if s.fwUp = true ∧ s.get (O.SERVO_OWNER n) = 1 ∧ s.get (O.SERVO_MODE n) = 1 ∧ s.get (O.SERVO_STATE n) ≠ Servo.refused then
      s.servoTo n Servo.holdover else s

/-- PPS_OUT_EDGE (R273): the base has reached an edge instant by running within the last tick. -/
def execPpsOutEdge (n : TimeBase) (s : State) : Out := live s fun s =>
  if s.flag (O.PPS_OUT_ENABLE n) ∧ s.ppsPast n < s.time.ran.getD n 0 ∧ (s.ppsHigh? n).isNone then
    s.ppsRise n (s.tbUnits n - s.ppsPast n)
  else s

/-- PPS_OUT_PULSE_END (R273): the base has reached the edge instant plus PPS_OUT_WIDTH_NS. -/
def execPpsOutPulseEnd (n : TimeBase) (s : State) : Out := live s fun s =>
  match s.ppsHigh? n with
  | none => s
  | some e => if e + s.get (O.PPS_OUT_WIDTH_NS n) * nsU ≤ s.tbUnits n then s.ppsFall n else s

/-- SERVO_MEASURE (R274, R275). -/
def execServoMeasure (n : TimeBase) (s : State) : Out := live s fun s =>
  if !s.servoReady n then s
  else if s.get (O.SERVO_MODE n) = 2 ∧ s.get (O.TB_STATE (s.get (O.SERVO_SOURCE n))) = TbState.held then
    s.servoTo n Servo.holdover
  else s.servoMeasure n

end Sys2Proof.Machine
end

