-- ==== Sys2Proof/Machine/Ledger.lean ====
section
/-!
DEFINITION. Sys2Proof/Machine/Ledger.lean: the Sepia ledger (R287-R309, R315): fate records, outcomes, histograms, the
traffic matrix, flow records, export messages, IPFIX, the postcard builder's queue; and the meanings of its own commands.
-/
namespace Sys2Proof.Machine

/-! ### CRC of R163 -/

/-- One byte into the CRC register, most significant bit first (R163). -/
def crcMsbByte (poly r : Nat) (b : Byte) : Nat :=
  (List.range 8).foldl (fun r _ => if r / 2 ^ 31 % 2 = 1 then (r * 2 % 2 ^ 32) ^^^ poly else r * 2 % 2 ^ 32)
    (r ^^^ (b.toNat * 2 ^ 24))
/-- The function `crc32` of R163. -/
def crcMsb (poly seed : Nat) (data : List Byte) : Nat := data.foldl (crcMsbByte poly) seed

/-! ### Times of the ledger -/

/-- The ledger's time (R288, R304). -/
def State.ledgerTime (s : State) : Nat := s.tb (s.get O.LEDGER_TIME_BASE)
/-- The milliseconds value of a time (R301). -/
def msOf (t : Nat) : Nat := (timeSec t * 1000 + timeNs t / 1000000) % 2 ^ 32
def State.ledgerMs (s : State) : Nat := msOf s.ledgerTime
/-- The largest number of milliseconds not after `now` that ends in the 32-bit field `f` (R305). -/
def rebuildMs (now f : Nat) : Nat := now - (now + 2 ^ 32 - f) % 2 ^ 32

/-! ### Export streams (R304, R305) -/

/-- Records waiting in a stream: the open message's and the closed ones'. -/
def Stream.waiting (x : Stream) : Nat := x.recs.length + sumL (x.msgs.map (·.recs.length))

/-- The header of an export message (R304). -/
def exportHeader (type count size seq time tile lost : Nat) : List Byte :=
  beBytes 2 0x5E91 ++ [1, nb type] ++ beBytes 2 count ++ beBytes 2 size ++ beBytes 8 seq ++ beBytes 12 time ++
  [nb tile, 0] ++ beBytes 2 (min lost 0xFFFF)

/-- The learn stream or the flow stream. -/
def State.stream (s : State) (learn : Bool) : Stream := if learn then s.ledger.learn else s.ledger.flow
def State.putStream (s : State) (learn : Bool) (x : Stream) : State :=
  { s with ledger := if learn then { s.ledger with learn := x } else { s.ledger with flow := x } }

/-- Close a stream's open message (R304). -/
def State.closeMsg (s : State) (learn : Bool) : State :=
  let x := s.stream learn
  if x.recs = [] then s
  else
    let s := s.putStream learn { recs := [], lost := 0, msgs := x.msgs ++ [⟨s.ledgerTime, x.lost, x.recs⟩] }
    if learn then s.count64 O.LEARN_MESSAGES else s

/-- The bytes of a message that channel `c` takes, with the channel's next number (R304). -/
def State.exportMsg (s : State) (c : Nat) (learn : Bool) (m : Msg) : List Byte × State :=
  let n := look 0 s.ledger.seqs c + 1
  (exportHeader (if learn then 2 else 1) m.recs.length (if learn then 48 else 64) n m.time 0xFF m.lost ++ m.recs.flatten,
   { s with ledger := { s.ledger with seqs := putN 0 c n s.ledger.seqs } })

/-- The channel that a stream names takes its messages: it is an enabled channel of the export kind (R305, R341). -/
def State.exportOpen (s : State) (learn : Bool) : Bool :=
  let c := s.get (if learn then O.LEARN_CHANNEL else O.FLOW_CHANNEL)
  decide (c < 512) && s.get (O.CH_KIND c) == 4 && (s.chan c).enabled

/-- Give a record to a stream; the Bool says whether it was taken: it is lost without an export channel to take it, or with
4,096 records waiting (R188, R305, R341). -/
def State.pushRec (s : State) (learn : Bool) (r : List Byte) : Bool × State :=
  let x := s.stream learn
  if !s.exportOpen learn || decide (4096 ≤ x.waiting) then (false, s.putStream learn { x with lost := x.lost + 1 })
  else
    let x := { x with recs := x.recs ++ [r] }
    let s := s.putStream learn x
    (true, if 64 ≤ x.recs.length then s.closeMsg learn else s)

/-! ### IPFIX (R306, R307) -/

/-- The template's fields after the six fixed ones: IE number, key offset, length (R307). -/
def State.ipfixRows (s : State) : List (Nat × Nat × Nat) :=
  let b := (s.getAll O.IPFIX_KEY_MAP 32).map nb
  ((List.range 8).map fun i => (leAt b (4 * i) 2, byteAt b (4 * i + 2), byteAt b (4 * i + 3))).filter (·.2.2 != 0)

/-- The template set (R307). -/
def State.ipfixTemplate (s : State) : List Byte :=
  let fs := [(152, 8), (153, 8), (2, 8), (1, 8), (135, 8), (10, 4), (14, 4)] ++
    s.ipfixRows.map (fun r => (r.1, r.2.2)) ++ [(136, 1)]
  let body := beBytes 2 (s.get O.IPFIX_TEMPLATE_ID) ++ beBytes 2 fs.length ++
    fs.flatMap fun f => beBytes 2 f.1 ++ beBytes 2 f.2
  beBytes 2 2 ++ beBytes 2 (4 + body.length) ++ body

/-- A data record made of an exported flow record in network order (R307). -/
def State.ipfixRecord (s : State) (r : List Byte) : List Byte :=
  let now := timeSec s.ledgerTime * 1000 + timeNs s.ledgerTime / 1000000
  let utc := fun f => rebuildMs now f - s.get O.IPFIX_UTC_OFFSET_S * 1000
  let port := beAt r 60 2
  let key := slice r 4 32
  beBytes 8 (utc (beAt r 52 4)) ++ beBytes 8 (utc (beAt r 56 4)) ++ beBytes 8 (beAt r 36 5) ++
  beBytes 8 (beAt r 41 6) ++ beBytes 8 (beAt r 47 3) ++ beBytes 4 (beAt r 0 2 + 1) ++
  beBytes 4 (if port = 0xFFFF then 0 else port + 1) ++
  s.ipfixRows.flatMap (fun x => (List.range x.2.2).map fun k =>
    let v := byteAt key (x.2.1 + k)
    nb (if x.1 = 58 ∧ x.2.2 = 2 ∧ k = 0 then v % 16 else v)) ++
  [nb (bits (byteAt r 51) 6 4)]

/-- Send what waits for the collector: the template set when due, then the data records, made by the template in force
(R306). The datagram's source
port is a free value (log 4). A management port without an address of the collector's family, or without a MAC
address, sends nothing, and its records are lost (R430). -/
def State.ipfixSend (s : State) (template : Bool) : State :=
  let recs := s.ledger.ipfixRecs
  if recs = [] ∧ template = false then s
  else
    let m := s.get O.IPFIX_MGMT_PORT
    let c := (s.getAll O.IPFIX_COLLECTOR 16).map nb
    let v4 := c.take 12 == zeros 10 ++ [0xFF, 0xFF]
    let src := if v4 then s.get (O.IPV4_ADDR m) else beNat ((s.getAll (O.IPV6_ADDR m) 16).map nb)
    if s.get (O.MGMT_MAC m) = 0 ∨ src = 0 ∨ !s.flag (O.MGMT_ENABLE m) then
      ({ s with ledger := { s.ledger with ipfixRecs := [] } }).count64 O.IPFIX_LOST recs.length
    else
      let tmpl := template || s.ledger.ipfixTmpl
      let sets := (if tmpl then s.ipfixTemplate else []) ++
        (if recs = [] then [] else
          let d := recs.flatMap s.ipfixRecord
          beBytes 2 (s.get O.IPFIX_TEMPLATE_ID) ++ beBytes 2 (4 + d.length) ++ d)
      let now := timeSec s.ledgerTime - s.get O.IPFIX_UTC_OFFSET_S
      let msg := beBytes 2 10 ++ beBytes 2 (16 + sets.length) ++ beBytes 4 now ++ beBytes 4 s.ledger.ipfixSeq ++
        beBytes 4 (s.get O.IPFIX_DOMAIN) ++ sets
      let d := s.draw 16
      let dst := if v4 then beNat (c.drop 12) else beNat c
      let s := d.2.emit (.udp m (!v4) src d.1 dst (s.get O.IPFIX_UDP_PORT) msg)
      { s with ledger := { s.ledger with
          ipfixRecs := [], ipfixTmpl := false, ipfixSeq := (s.ledger.ipfixSeq + recs.length) % 2 ^ 32 } }

/-- Hand an exported flow record to the firmware (R306): at most 500,000 a second, none while it is being replaced. -/
def State.ipfixTake (s : State) (r : List Byte) : State :=
  if !s.flag O.FLOW_IPFIX then s
  else
    let sec := s.now / 1250000000
    let n := if sec = s.ledger.ipfixSec then s.ledger.ipfixCnt else 0
    if s.fwUp = false ∨ 500000 ≤ n then s.count64 O.IPFIX_LOST
    else
      let s := { s with ledger := { s.ledger with
        ipfixSec := sec, ipfixCnt := n + 1, ipfixRecs := s.ledger.ipfixRecs ++ [r] } }
      if 22 ≤ s.ledger.ipfixRecs.length then s.ipfixSend false else s

/-- IPFIX_KEY_MAP changed at a commit: the next template ID (R306). -/
def State.ipfixNewTemplate (s : State) : State :=
  let id := s.get O.IPFIX_TEMPLATE_ID
  let s := s.set O.IPFIX_TEMPLATE_ID (if id = 65535 then 256 else id + 1)
  { s with ledger := { s.ledger with ipfixTmpl := true } }

/-! ### Flow records (R300-R303) -/

/-- A cache record (R301). -/
structure FlowRec where
  port  : Nat
  mem   : Nat
  key   : List Byte
  pkts  : Nat
  bytes : Nat
  nofwd : Nat
  fate  : Nat
  flags : Nat
  first : Nat
  last  : Nat
  eport : Nat
deriving DecidableEq, Repr

/-- Read a cache row. -/
def flowRead (v : Nat) : FlowRec :=
  let b := leBytes 64 v
  ⟨leAt b 0 2, leAt b 2 2, slice b 4 32, leAt b 36 5, leAt b 41 6, leAt b 47 3, byteAt b 50, byteAt b 51, leAt b 52 4,
   leAt b 56 4, leAt b 60 2⟩
/-- A cache row, little-endian. -/
def flowWrite (f : FlowRec) : Nat :=
  leNat (leBytes 2 f.port ++ leBytes 2 f.mem ++ padTo 32 (f.key.take 32) ++ leBytes 5 f.pkts ++ leBytes 6 f.bytes ++
    leBytes 3 f.nofwd ++ [nb f.fate, nb f.flags] ++ leBytes 4 f.first ++ leBytes 4 f.last ++ leBytes 2 f.eport ++ zeros 2)
/-- The export record: the same fields in network order, with the end reason. -/
def flowExport (f : FlowRec) (reason : Nat) : List Byte :=
  beBytes 2 f.port ++ beBytes 2 f.mem ++ padTo 32 (f.key.take 32) ++ beBytes 5 f.pkts ++ beBytes 6 f.bytes ++
    beBytes 3 f.nofwd ++ [nb f.fate, nb (f.flags % 8 + reason * 16)] ++ beBytes 4 f.first ++ beBytes 4 f.last ++
    beBytes 2 f.eport ++ zeros 2
def FlowRec.valid (f : FlowRec) : Bool := f.flags % 2 == 1

def State.flowRow (s : State) (row : Nat) : FlowRec := flowRead (s.get O.FLOW_CACHE row)
def State.putFlow (s : State) (row : Nat) (f : FlowRec) : State := s.set O.FLOW_CACHE (flowWrite f) row

/-- Export a flow record (R304-R306). -/
def State.exportFlow (s : State) (f : FlowRec) (reason : Nat) : State :=
  let r := flowExport f reason
  let x := s.pushRec false r
  let s := if x.1 then x.2.count64 (O.FLOW_COUNTS 11)
    else (x.2.count64 (O.FLOW_COUNTS 12)).report 0x804 (unitId 5 0) (detailS (leBytes 4 1 ++ leBytes 4 x.2.ledger.flow.lost))
  s.ipfixTake r

/-- The flow key of a packet (R300). -/
def State.flowKey (s : State) (p : Pkt) : List Byte :=
  (List.range 32).map fun i =>
    let k := s.getP p.applied (O.FLOW_KEY_SELECT p.tile) i
    if k = 0xFF then 0 else nb (byteAt p.ctx k)

/-- The flow hash of a packet: context bytes 8-11 (R288). -/
def Pkt.hash (p : Pkt) : Nat := beAt p.ctx 8 4

/-- The ingress port as fate and flow records carry it. -/
def Pkt.inPort (p : Pkt) : Nat := match p.src with | .port q => q | _ => 0x3FF

/-- The flow set of a packet (R300). -/
def State.flowSet (s : State) (p : Pkt) : Nat :=
  (crcMsb 0x1EDC6F41 0 (s.flowKey p ++ beBytes 2 p.inPort) ^^^ p.hash) % 2 ^ 18

/-- Update the flow record of a closing packet (R300, R302). The U40 packets and U48 bytes of a record wrap: the spec says
neither that they do nor that they stop (DESIGN CHOICE, log 85). -/
def State.flowUpdate (s : State) (p : Pkt) (code : Nat) : State :=
  let key := s.flowKey p
  let set := s.flowSet p
  let rows := (List.range 4).map (set * 4 + ·)
  let now := s.ledgerMs
  let len := p.bytes.length
  let miss := b01 (p.fwd == 0)
  match rows.find? fun r => (s.flowRow r).valid && (s.flowRow r).key == key && (s.flowRow r).port == p.inPort with
  | some r =>
    let f := s.flowRow r
    let nf := f.nofwd + miss
    let flags := (f.flags ||| 1 ||| (2 * b01 p.seenF)) ||| (if nf > 2 ^ 24 - 1 then 4 else 0)
    s.putFlow r { f with
      mem := p.member, pkts := (f.pkts + 1) % 2 ^ 40, bytes := (f.bytes + len) % 2 ^ 48, nofwd := min nf (2 ^ 24 - 1),
      fate := code, flags := flags, last := now, eport := if p.fwd = 0 then f.eport else p.lastPort }
  | none =>
    let f : FlowRec := ⟨p.inPort, p.member, key, 1, len, miss, code, 1 + 2 * b01 p.seenF, now, now,
      if p.fwd = 0 then 0xFFFF else p.lastPort⟩
    match rows.find? fun r => !(s.flowRow r).valid with
    | some r => (s.putFlow r f).count64 (O.FLOW_COUNTS 7)
    | none =>
      let age := fun r => (now + 2 ^ 32 - (s.flowRow r).last) % 2 ^ 32
      let old := rows.foldl (fun a r => if age r > age a then r else a) (set * 4)
      let s := (s.exportFlow (s.flowRow old) 5).count64 (O.FLOW_COUNTS 8)
      (s.putFlow old f).count64 (O.FLOW_COUNTS 7)

/-- One scanner visit of a record (R303). -/
def State.flowVisit (s : State) (r : Nat) : State :=
  let f := s.flowRow r
  let now := s.ledgerMs
  let act := s.get O.FLOW_ACTIVE_S
  if !f.valid then s
  else if s.get O.FLOW_IDLE_S * 1000 ≤ (now + 2 ^ 32 - f.last) % 2 ^ 32 then
    ((s.exportFlow f 1).set O.FLOW_CACHE 0 r).count64 (O.FLOW_COUNTS 9)
  else if act ≠ 0 ∧ act * 1000 ≤ (now + 2 ^ 32 - f.first) % 2 ^ 32 then
    let s := (s.exportFlow f 2).count64 (O.FLOW_COUNTS 10)
    s.putFlow r { f with pkts := 0, bytes := 0, nofwd := 0, first := now, flags := f.flags % 4 }
  else s

/-- FLOW_FLUSH (R303): every valid record, in row order. -/
def State.flowFlush (s : State) : State :=
  let rows := (s.dict.objs.filter fun e => e.1.ref == O.FLOW_CACHE).map (·.1.el)
  s.each rows fun s r =>
    let f := s.flowRow r
    if f.valid then (s.exportFlow f 4).set O.FLOW_CACHE 0 r else s

/-! ### Fate records (R287-R291) -/

/-- Open the record of a frame (R287, R294). -/
def State.openRecord (s : State) (src : Src) : State :=
  match src with
  | .port p => (s.count64 (O.RECORDS_OPENED p)).count32 (O.RECORDS_OPEN p)
  | _ => s

/-- The slot of a code in QUEUE_FATES (R295). -/
def fateSlot (code : Nat) : Nat :=
  let t : List (Nat × Nat) := [(0x00, 0), (0x2C, 1), (0x05, 2), (0x06, 3), (0x42, 4), (0x43, 5), (0x44, 6), (0x48, 7),
    (0x49, 8), (0x80, 9), (0x81, 10), (0x82, 11), (0x83, 12), (0x84, 13), (0x90, 14), (0x91, 15), (0x92, 16),
    (0x93, 17), (0xC4, 18), (0xC5, 19), (0xC6, 20), (0xC7, 21), (0x45, 29)]
  match t.find? (·.1 == code) with
  | some e => e.2
  | none => if 0xF0 ≤ code ∧ code ≤ 0xF6 then 22 + (code - 0xF0) else 31

/-- A packet that was dispatched: it has a context (R128). -/
def Pkt.dispatched (p : Pkt) : Bool := p.ctx.length == 64

/-- MAX_FRAME of a frame's ingress port: by its epoch tag once it has one (R44, R107). -/
def State.maxFrameOf (s : State) (p : Pkt) : Nat :=
  let r := O.MAX_FRAME p.inPort
  if p.dispatched then s.getP p.applied r else s.getT p.tile r

/-- A frame forwarded to a destination (R288, R296). -/
def isForwarded (code : Nat) : Bool := code == 0x00 || code == 0x2C

/-- Residence of a packet up to now, in units of 2^-16 ns (R289). -/
def State.residence (s : State) (p : Pkt) : Nat := (s.dc + 2 ^ 64 - p.dcIn) % 2 ^ 64

/-- The bin of a residence in ns (R296). -/
def latencyBin (base ns : Nat) : Nat := if ns < base then 0 else min (log2 (ns / max base 1) + 1) 31

/-- The egress port of a queue, for a packet of the epochs `applied` (R44): its port, or a mirror session's port; none of a
host queue (R288). -/
def State.queuePort (s : State) (applied : List Nat) (q : Nat) : Nat :=
  if q < 8192 then q / 16 else if q < 8320 then 0xFFFF else s.getP applied (O.MIRROR_PORT (q - 8320))

/-- Count the pair of members of a forwarded replica of a port queue (R298). -/
def State.matrixCount (s : State) (p : Pkt) (port sent : Nat) : State :=
  let i := s.get O.MATRIX_INDEX p.member
  let j := s.get O.MATRIX_INDEX (s.getP p.applied (O.MEMBER_ID port))
  if p.member = 0xFFFF ∨ s.getP p.applied (O.MEMBER_ID port) = 0xFFFF ∨ 1024 ≤ i ∨ 1024 ≤ j then
    s.count64 O.MATRIX_UNMAPPED
  else
    let bank := if s.get O.MATRIX_ACTIVE = 0 then O.MATRIX_BANK_0 else O.MATRIX_BANK_1
    let v := s.get bank (i * 1024 + j)
    s.set bank ((v % 2 ^ 64 + 1) % 2 ^ 64 + ((v / 2 ^ 64 + sent) % 2 ^ 64) * 2 ^ 64) (i * 1024 + j)

/-- The outcome of a destination at its queue (R291, R295, R296, R298): `kind` of the holder, `sent` the length sent. -/
def State.outcome (s : State) (p : Pkt) (q code : Nat) (replica : Bool) (sent : Nat) : State :=
  let slot := fateSlot code
  let s := (s.count64 (O.QUEUE_FATES q) 1 (slot * 2)).count64 (O.QUEUE_FATES q) p.bytes.length (slot * 2 + 1)
  if p.pale ∨ !isForwarded code then s
  else
    let ns := s.residence p / nsU
    let b := latencyBin (s.getP p.applied O.HIST_BASE_NS) ns
    let s := (s.count64 (O.LATENCY_HIST q) 1 b).count64 (O.LATENCY_HIST q) ns 32
    let s := s.set (O.LATENCY_MAX q) (max (s.get (O.LATENCY_MAX q)) (min ns (2 ^ 32 - 1)))
    if replica ∧ q < 8192 then s.matrixCount p (q / 16) sent else s

/-- The handle word of a packet (R205). -/
def Pkt.hw (p : Pkt) : Nat := p.handle + p.gen * 2 ^ 21

/-- The 48 bytes of a closed record, in network order (R288). -/
def State.fateRecord (s : State) (p : Pkt) (code : Nat) (last : Option Holder) (postcard flow : Bool) : List Byte :=
  let host := match p.src with | .port _ => false | _ => true
  let q := (last.map (·.queue)).getD 0xFFFF
  beBytes 4 (if p.enq then p.hw else 0x07FFFFFF) ++ beBytes 12 p.tsIn ++ beBytes 2 (if host then 0x3FF else p.inPort) ++
  [nb (p.tile + 32 * b01 p.mono + 64 * b01 (p.pale || p.dflt) + 128 * b01 (!p.enq)), nb code] ++
  beBytes 2 p.member ++ beBytes 2 (if q = 0xFFFF then 0xFFFF else s.queuePort p.applied q) ++ beBytes 2 q ++
  beBytes 2 ((last.map (·.tok)).getD 0xFFFF) ++ beBytes 5 (min (s.residence p / 4096) (2 ^ 40 - 1)) ++
  beBytes 3 ((last.map (·.occ)).getD 0) ++ beBytes 2 p.issued ++ beBytes 2 p.notFwd ++
  beBytes 4 (if p.dispatched then p.hash else 0) ++ beBytes 2 p.bytes.length ++
  [nb (b01 p.cutThru + 2 * b01 postcard + 4 * b01 p.inserted + 8 * b01 p.mirrored + 16 * b01 flow), 0]

/-- Hand a closed record to its tile's postcard builder (R308): in Monochrome every 64th. The frames that are due leave,
and a builder that stays full loses what it cannot hold, at the command's end (log 40). -/
def State.toPostcard (s : State) (p : Pkt) (r : List Byte) : State :=
  let x := s.tile p.tile
  let n := x.monoCnt + 1
  if p.mono ∧ n < 64 then s.putTile p.tile { x with monoCnt := n }
  else s.putTile p.tile { x with monoCnt := 0, postRecs := x.postRecs ++ [r] }

/-- Close the fate record of a frame or packet with its code (R287, R290, R294, R297). -/
def State.closeRecord (s : State) (p : Pkt) (code : Nat) (last : Option Holder) : State :=
  let len := p.bytes.length
  match p.src with
  | .device _ => s
  | src =>
    let s := match src with
      | .port q =>
        let s := (s.count64 (O.PORT_FATES q) 1 (code * 2)).count64 (O.PORT_FATES q) len (code * 2 + 1)
        s.set (O.RECORDS_OPEN q) (s.get (O.RECORDS_OPEN q) - 1)
      | _ => (s.count64 O.HOST_FATES 1 (code * 2)).count64 O.HOST_FATES len (code * 2 + 1)
    if p.pale then s
    else
      let s := s.count64 (O.LEDGER_COUNTS 4)
      let flow := p.dispatched && s.getP p.applied (O.FLOW_ENABLE p.tile) != 0
      let s := if flow then s.flowUpdate p code else s
      if p.act.postcard then s.toPostcard p (s.fateRecord p code last true flow) else s

/-! ### Read-out commands (R294, R299) -/

/-- PORT_SNAPSHOT latches a port's counts (R294). -/
def State.portSnapshot (s : State) (p : Nat) : State :=
  let b := leBytes 8 (s.get (O.RECORDS_OPENED p)) ++ leBytes 8 (s.get (O.RECORDS_OPEN p)) ++
    (s.getAll (O.PORT_FATES p) 512).flatMap (leBytes 8)
  s.setAll (O.PORT_SNAPSHOT_DATA p) ((List.range 514).map fun i => leAt b (8 * i) 8)

/-- The inactive bank has been cleared since it was last active (R299). -/
def State.bankCleared (s : State) : Bool := s.ledger.cleared.getD (1 - s.get O.MATRIX_ACTIVE) false

/-- MATRIX_SWAP starts: the other bank is active from now on; neither bank is cleared since it was last active (R299). -/
def State.matrixSwap (s : State) : State :=
  let a := s.get O.MATRIX_ACTIVE
  (({ s with ledger := { s.ledger with cleared := [false, false] } }).set O.MATRIX_ACTIVE (1 - a)).set O.MATRIX_SWAP_TIME s.ledgerTime

/-- MATRIX_CLEAR starts on the inactive bank: until it is done the bank is not cleared, so no swap makes it active
(R299). -/
def State.matrixClear (s : State) : State :=
  let i := 1 - s.get O.MATRIX_ACTIVE
  { s with ledger := { s.ledger with cleared := slots 2 (s.ledger.cleared.getD · false) i false } }

/-- The counters of areas 3 to 8 that have no place of their own in R293's table: object, and its first and last
sub-index. -/
def counterObjs : List (Nat × Nat × Nat) :=
  [(0x3001, 4, 4), (0x3020, 1, 4), (0x3021, 1, 13), (0x3031, 1, 5), (0x3041, 1, 9), (0x3061, 1, 5), (0x4010, 1, 13),
   (0x4011, 3, 3), (0x4012, 2, 2), (0x4013, 1, 1), (0x4020, 1, 4), (0x5004, 1, 15), (0x5103, 1, 6), (0x5201, 1, 8),
   (0x6001, 3, 3), (0x6002, 6, 6), (0x6021, 4, 4), (0x6030, 8, 8), (0x6041, 1, 12), (0x7002, 3, 9), (0x7102, 5, 7),
   (0x8000, 11, 14), (0x8010, 4, 4), (0x8020, 4, 4), (0x8100, 6, 12)]

/-- An element of an object is one of those counters. -/
def isCounter (idx sub e : Nat) : Bool :=
  counterObjs.any (fun c => c.1 == idx && decide (c.2.1 ≤ sub) && decide (sub ≤ c.2.2)) &&
  match objRow idx sub with
  | some o => decide (e < o.size / o.el)
  | none => false

/-- The counter that a word of a stretch without a stated layout holds, where it is one of the objects that share the
stretch: a policer profile's, or a counter of areas 3 to 8, an element of a BLOB among them (R293, log 102). -/
def freeCounter (profile : Bool) (a : Nat) : Option (OKey × Option Nat) :=
  let k := Config.counterAt (a / 8)
  let fits := if profile then (objRow k.1 k.2.2.1).isSome && k.1 == 0x7200 && k.2.1 == (a - 58938880) / 64
    else isCounter k.1 k.2.2.1 k.2.2.2
  if fits then some (⟨⟨k.1, k.2.1, k.2.2.1⟩, k.2.2.2⟩, none) else none

/-- The counter that a word of the counter store holds, with its half of a 16-byte row: the stores of R293 in the order
of its table (log 11). -/
def counterWord (a : Nat) : Option (OKey × Option Nat) :=
  if a < 2097152 then some (⟨O.PORT_FATES (a / 4096), a % 4096 / 8⟩, none)
  else if a < 2101248 then some (⟨O.HOST_FATES, (a - 2097152) / 8⟩, none)
  else if a < 6393856 then let b := a - 2101248; some (⟨O.QUEUE_FATES (b / 512), b % 512 / 8⟩, none)
  else if a < 8607232 then let b := a - 6393856; some (⟨O.LATENCY_HIST (b / 264), b % 264 / 8⟩, none)
  else if a < 42161664 then
    let b := a - 8607232
    some (⟨if b < 16777216 then O.MATRIX_BANK_0 else O.MATRIX_BANK_1, b % 16777216 / 16⟩, some (b % 16 / 8))
  else if a < 58938880 then let b := a - 42161664; some (⟨O.POLICER_STATE, b / 16⟩, some (b % 16 / 8))
  else if 59201024 ≤ a ∧ a < 60249600 then
    let b := a - 59201024
    some (⟨O.MAM_HITS (b / 32768), b % 32768 / 8⟩, none)
  else freeCounter (decide (a < 59201024)) a

/-- Zero a word of the counter store (R315). -/
def State.zeroCounter (s : State) (a : Nat) : State :=
  match counterWord a with
  | none => s
  | some (k, none) => s.setK k 0
  | some (k, some h) =>
    let v := s.getK k
    s.setK k (if h = 0 then v / 2 ^ 64 * 2 ^ 64 else v % 2 ^ 64)

/-! ### Meanings -/

/-- MATRIX_SWAP_DONE (R299). -/
def execMatrixSwapDone (s : State) : Out := live s fun s =>
  if s.cmdRunning O.MATRIX_SWAP then s.cmdDone O.MATRIX_SWAP else s

/-- MATRIX_CLEAR_DONE (R299): the inactive bank holds zeros. -/
def execMatrixClearDone (s : State) : Out := live s fun s =>
  if s.cmdRunning O.MATRIX_CLEAR then
    let i := 1 - s.get O.MATRIX_ACTIVE
    let bank := if i = 0 then O.MATRIX_BANK_0 else O.MATRIX_BANK_1
    let objs := s.dict.objs.filter fun e => e.1.ref != bank
    let s := { s with dict := { s.dict with objs := objs },
                      ledger := { s.ledger with cleared := slots 2 (s.ledger.cleared.getD · false) i true } }
    s.cmdDone O.MATRIX_CLEAR
  else s

/-- FLOW_SCAN (R303): the scanner visits a set. -/
def execFlowScan (set : FlowSet) (s : State) : Out := live s fun s =>
  s.each (List.range 4) fun s w => s.flowVisit (set * 4 + w)

/-- EXPORT_FLUSH_TIMEOUT (R304, R306). -/
def execExportFlushTimeout (learn : Bool) (s : State) : Out := live s fun s =>
  let s := s.closeMsg learn
  if learn then s else s.ipfixSend false

/-- IPFIX_TEMPLATE_TIMER (R306). -/
def execIpfixTemplateTimer (s : State) : Out := live s fun s =>
  if s.flag O.FLOW_IPFIX ∧ s.fwUp = true then s.ipfixSend true else s

/-- COUNTER_SCRUB (R315): of the counter store, an uncorrectable word is set to 0 and its address latched; of the flow
cache, an uncorrectable record is invalidated. `addr` is the byte address in its store. -/
def execCounterScrub (addr : Fin 67108864) (flow : Bool) (f : Ecc) (s : State) : Out := live s fun s =>
  let ce := if flow then 0x802 else 0x800
  let s := s.found ce addr f
  let r := s.readWord ce (ce + 1) (unitId 5 0) (unitId 5 0) addr 2
  let s := r.2
  if !r.1 then s
  else
    let s := s.mend ce addr
    if flow then (s.set O.FLOW_CACHE 0 (addr / 64)).count64 (O.FLOW_COUNTS 13) |>.count64 (O.LEDGER_COUNTS 8)
    else ((s.zeroCounter addr).set O.LAST_DAMAGED addr).count64 (O.LEDGER_COUNTS 7)

end Sys2Proof.Machine
end

