-- ==== Sys2Proof/Machine/Buffer.lean ====
section
/-!
DEFINITION. Sys2Proof/Machine/Buffer.lean: the shared buffer (R195-R230): cells and banks, arrival chains, descriptors,
tokens and their release, accounts, lossless classes and their pause frames (R113), isolation, and the retirement of
commits (R45).
-/
namespace Sys2Proof.Machine

/-! ### Cells and banks (R195-R197, R225, R226) -/

def bankOfCell (c : Nat) : Nat := c / 8192

/-- A bank in service. -/
def State.bankUp (s : State) (k : Nat) : Bool := s.get (O.BUF_BANK_STATE k) == 0

/-- A cell whose bitmap bit is 1 (R195). -/
def State.cellFree (s : State) (c : Nat) : Bool :=
  !(s.buf.used.contains c || s.buf.quar.contains c || s.buf.dropped.contains c)

/-- The lowest free cell of a bank (R196). -/
def State.lowestFree (s : State) (k : Nat) : Option Nat := firstFrom s.cellFree (k * 8192) 8192

/-- The bank a request gets: the first at or after rr that is in service and holds a free cell (R197). -/
def State.nextBank (s : State) : Option Nat :=
  (firstFrom (fun i => let k := (s.buf.rr + i) % 192; s.bankUp k && (s.lowestFree k).isSome) 0 192).map
    fun i => (s.buf.rr + i) % 192

/-- The number of a word of the descriptor store among its arrays. -/
def storeAddr : StoreWord → Nat
  | .descriptor h => h
  | .link c => 2 ^ 21 + c
  | .entry n => 2 ^ 22 + n
  | .extension e => 2 ^ 23 + e
  | .group g => 2 ^ 24 + g
  | .member m => 2 ^ 25 + m

/-- A word of the descriptor store is written: `shown` is the address that names it, 2^32 where none does (R228, R382). -/
def State.storeWritten (s : State) (addr shown : Nat) : State := s.wordWrittenAs 0x642 0x643 (unitId 6 0) addr shown

/-- The link word of a cell is written: when the next cell of its frame is granted, when the frame ends, or when it
points at a copy (R199, R225). -/
def State.linkWritten (s : State) (c : Option Nat) : State :=
  match c with
  | some c => s.storeWritten (2 ^ 21 + c) (2 ^ 32)
  | none => s

/-- Grant one cell (R197), which is written at once: an armed injection may damage it (R382). -/
def State.grantCell (s : State) : Option (Nat × State) :=
  match s.nextBank with
  | none => none
  | some k =>
    match s.lowestFree k with
    | none => none
    | some c =>
      let b := { s.buf with used := insNat c s.buf.used, rr := (k + 1) % 192 }
      some (c, ({ s with buf := b }).wordWritten (0x400 + k) (0x4C0 + k) (unitId 3 k) c)

/-- Grant the cells of a whole frame, linked one to the next, until a number is reached, or none is left. -/
def State.grantCells (s : State) : Nat → List Nat × State
  | 0 => ([], s)
  | n + 1 =>
    match s.grantCell with
    | none => ([], s)
    | some (c, s') => let r := (s'.linkWritten (some c)).grantCells n; (c :: r.1, r.2)

/-- Cells of a bank's free bitmap (R230). -/
def State.bankFree (s : State) (k : Nat) : Nat :=
  8192 - ((s.buf.used ++ s.buf.quar ++ s.buf.dropped).filter (bankOfCell · == k)).length

/-- Free cells in banks in service. -/
def State.cellsFree (s : State) : Nat := sumL (((List.range 192).filter s.bankUp).map s.bankFree)

/-- Cells of banks in service minus quarantined cells (R226). -/
def State.cellsAvailable (s : State) : Nat :=
  let ks := (List.range 192).filter s.bankUp
  ks.length * 8192 - (s.buf.quar.filter fun c => s.bankUp (bankOfCell c)).length

/-- The sum of stored values of an object over its instances, where unlisted ones read 0. -/
def State.sumObj (s : State) (idx sub : Nat) : Nat :=
  sumL ((s.dict.objs.filter fun e => e.1.ref.idx == idx && e.1.ref.sub == sub).map (·.2))

/-- The active carve-out without the spare bank (R220, rule 1). -/
def State.carved (s : State) : Nat :=
  sumL ((List.range 32).map fun t => s.get (O.ARRIVAL_CELLS t)) + s.get O.HOST_ARRIVAL_CELLS + s.sumObj 0x6020 2 +
  sumL ((List.range 8).map fun x => s.get (O.POOL_CAP x)) + s.sumObj 0x6030 1 + s.sumObj 0x6030 2

/-- Lower caps by a deficit, pool 7 first; none goes below zero (R226). -/
def lowerCaps : List Nat → Nat → List Nat
  | [], _ => []
  | c :: r, d => (c - d) :: lowerCaps r (d - c)

/-- Recompute what depends on the available cells: CARVED, CELLS_AVAILABLE, the effective caps; a deficit that lowers
caps further raises BUF_CARVE_DEFICIT (R226). -/
def State.recarve (s : State) : State :=
  let s := (s.set O.CARVED s.carved).set O.CELLS_AVAILABLE s.cellsAvailable
  let d := s.carved - s.cellsAvailable
  let caps := (List.range 8).map fun x => s.get (O.POOL_CAP x)
  let eff := (lowerCaps caps.reverse d).reverse
  let old := (List.range 8).map fun x => s.get (O.POOL_CAP_EFFECTIVE x)
  let s := s.each (List.range 8) fun s x => s.set (O.POOL_CAP_EFFECTIVE x) (eff.getD x 0)
  let further := decide (0 < d) && (!s.buf.deficit || decide (sumL eff < sumL old))
  let s := { s with buf := { s.buf with deficit := decide (0 < d) } }
  if further then s.report 0x644 (unitId 1 0) (detailS (leBytes 4 d)) else s

/-- Quarantine a cell: its bitmap bit stays 0 until its bank is restored (R223). -/
def State.quarantine (s : State) (c : Nat) : State :=
  let k := bankOfCell c
  let s := { s with buf := { s.buf with quar := insNat c s.buf.quar } }
  (s.set (O.BANK_QUARANTINED k) (s.get (O.BANK_QUARANTINED k) + 1)).recarve

/-- Return a cell (R200, R223, R225): a bank out of service drops it; one that the scrubber has found uncorrectable is
quarantined. -/
def State.returnCell (s : State) (c : Nat) : State :=
  let k := bankOfCell c
  let bad := s.buf.doomed.contains c
  let s := { s with buf := { s.buf with used := delNat c s.buf.used, doomed := delNat c s.buf.doomed } }
  if !s.bankUp k then { s with buf := { s.buf with dropped := insNat c s.buf.dropped } }
  else if bad then s.quarantine c
  else s

def State.returnCells (s : State) (cs : List Nat) : State := s.each cs State.returnCell

/-- Cells a frame of `n` bytes takes (R195). -/
def cellsFor (n : Nat) : Nat := (n + 255) / 256

/-! ### Fates counted outside the ledger (R229, R107) -/

/-- The object a frame- or packet-level code is counted in besides the ledger; a port that a commit removed has none
(R101). -/
def State.countFate (s : State) (p : Pkt) (code : Nat) : State :=
  let q := p.inPort
  let at_ := fun r => if s.isPort q then s.count64 r else s
  match code with
  | 0x01 => at_ (O.MAC_COUNTS q 4)
  | 0x02 => at_ (O.MAC_COUNTS q 5)
  | 0x03 => at_ (O.MAC_COUNTS q 6)
  | 0x05 => at_ (O.MAC_COUNTS q 3)
  | 0x0D => at_ (O.PREEMPT_COUNTS q 5)
  | 0x0A => at_ (O.MAC_COUNTS q 7)
  | 0x04 => at_ (O.MAC_COUNTS q 12)
  | 0x0C => at_ (O.FILTER_COUNTS q 5)
  | 0x08 => at_ (O.FILTER_COUNTS q 2)
  | 0x09 => at_ (O.FILTER_COUNTS q 3)
  | 0x0B => at_ (O.FILTER_COUNTS q 4)
  | 0x07 => at_ (O.FILTER_COUNTS q 1)
  | 0x40 => s.count64 (O.ARRIVAL_DISCARDS p.tile)
  | 0x41 | 0x45 | 0x46 | 0x47 | 0x4A => s.count64 (O.BUF_COUNTS 3)
  | _ => s

/-! ### Arrival chains (R20, R201) -/

/-- The cells that count towards a tile's ARRIVAL_USED. -/
def State.arrivalAdd (s : State) (p : Pkt) (n : Nat) : State :=
  match p.src with
  | .port _ => s.set (O.ARRIVAL_USED p.tile) (s.get (O.ARRIVAL_USED p.tile) + n)
  | _ => s
def State.arrivalSub (s : State) (p : Pkt) (n : Nat) : State :=
  match p.src with
  | .port _ => s.set (O.ARRIVAL_USED p.tile) (s.get (O.ARRIVAL_USED p.tile) - n)
  | _ => s

/-- Cells in arrival chains of host-to-packet channels. -/
def State.hostArrival (s : State) : Nat :=
  sumL ((s.buf.pkts.filter fun p => !p.enq && (match p.src with | .host _ => true | _ => false)).map (·.cells.length))

/-- Take a frame out of every place that waits for it before enqueue. -/
def State.forget (s : State) (p : Pkt) : State :=
  let t := s.tile p.tile
  let out := fun l : List Nat => l.filter (· != p.fid)
  let s := s.putTile p.tile { t with dq := out t.dq, reorder := out t.reorder }
  let s := { s with cores := s.cores.filter fun e => e.2.fid != p.fid }
  s.dropPkt p.fid

/-- Count what a packet's parse took; the charge figures are those of packets a program parsed. -/
def State.parseEnd (s : State) (t : Nat) (p : Pkt) (x : CoreX) : State :=
  let s := s.count64 (O.PARSE_COUNTS t 7) x.charged
  let s := s.count64 (O.PARSE_COUNTS t 8) (2 + x.charged + x.stalls + x.qstalls + x.romCyc)
  let s := (s.count64 (O.PARSE_COUNTS t 9) x.stalls).count64 (O.PARSE_COUNTS t 11) x.qstalls
  if p.pale then s
  else
    let s := s.set (O.MAX_CHARGED t) (max (s.get (O.MAX_CHARGED t)) x.charged)
    s.count64 (O.COST_HISTOGRAM t) 1 (min (x.charged / max 1 (s.get (O.COST_BIN t))) 15)

/-- Discard a frame before enqueue (R20): its cells return directly, its record closes without a handle; a parse that it
cuts short is counted (R143). -/
def State.discardArrival (s : State) (p : Pkt) (code : Nat) : State :=
  let s := match s.cores.find? (·.2.fid == p.fid) with
    | some c => s.parseEnd p.tile p c.2
    | none => s
  let s := (s.arrivalSub p p.cells.length).returnCells p.cells
  let s := s.countFate p code
  let s := s.closeRecord p code none
  s.forget p

/-! ### Lossless classes and pause frames (R113, R221) -/

/-- The lossless class of a packet of port `i` in queue number `n` (R221): 0 none, 1 low, 2 high. -/
def State.lossless (s : State) (applied : List Nat) (i n : Nat) : Nat :=
  let fc := s.getP applied (O.FLOW_CTRL i)
  if fc = 1 then 1
  else if fc = 2 then
    if bit (s.getP applied (O.PFC_QUEUES_LO i)) n then 1 else if bit (s.getP applied (O.PFC_QUEUES_HI i)) n then 2 else 0
  else 0

/-- The PFC priority of a class: the lower-numbered or the higher-numbered named one (R111). -/
def State.classPrio (s : State) (i cls : Nat) : Nat :=
  let ps := bitsOf (s.get (O.PFC_PRIORITIES i)) 8
  if cls = 1 then ps.getD 0 0 else ps.getD 1 (ps.getD 0 0)

/-- A pause (opcode 0x0001) or PFC (0x0101) frame (R113). -/
def pauseFrame (mac opcode : Nat) (body : List Byte) : List Byte :=
  let f := padTo 60 (beBytes 6 0x0180C2000001 ++ beBytes 6 mac ++ beBytes 2 0x8808 ++ beBytes 2 opcode ++ body)
  f ++ fcs f

/-- Send the pause or PFC frame of a class with its quanta, while the port transmits (R113). -/
def State.sendPause (s : State) (i cls quanta : Nat) : State :=
  if !(s.port i).up then s
  else
    let mac := s.get (O.PORT_MAC i)
    let s := s.count64 (O.MAC_COUNTS i 10)
    if s.get (O.FLOW_CTRL i) = 1 then
      (s.count64 (O.PAUSE_COUNTS i 2)).emit (.wire i (pauseFrame mac 1 (beBytes 2 quanta)))
    else
      let pr := s.classPrio i cls
      let body := beBytes 2 (2 ^ pr) ++ (List.range 8).flatMap fun k => beBytes 2 (if k = pr then quanta else 0)
      (s.count64 (O.PFC_COUNTS i 4) 1 pr).emit (.wire i (pauseFrame mac 0x0101 body))

/-- The cells a class has in the buffer: ing (R221). -/
def State.ing (s : State) (i cls : Nat) : Nat := s.get (O.CLASS_CELLS i) (cls - 1)

/-- A class of the port as its FLOW_CTRL stands (R111, R221): mode 1 has the low one, mode 2 one for each named priority. -/
def State.classLive (s : State) (i cls : Nat) : Bool :=
  let mode := s.get (O.FLOW_CTRL i)
  (mode == 1 && cls == 1) || (mode == 2 && decide (0 < cls ∧ cls ≤ popcount (s.get (O.PFC_PRIORITIES i)) 8))

/-- A class's XOFF threshold. -/
def State.xoffAt (s : State) (i cls : Nat) : Nat := s.get (if cls = 1 then O.XOFF_LO i else O.XOFF_HI i)

/-- Send pause frames when a class crosses XOFF or falls below XON (R113, R221). -/
def State.pfcCheck (s : State) (i cls : Nat) : State :=
  if !s.classLive i cls then s
  else
    let x := s.port i
    let above := x.xoff.contains cls
    let ing := s.ing i cls
    if !above ∧ s.xoffAt i cls ≤ ing then
      (s.putPort i { x with xoff := insNat cls x.xoff }).sendPause i cls (s.get (O.XOFF_QUANTA i))
    else if above ∧ ing ≤ s.xoffAt i cls - s.get (O.XON_OFFSET i) then
      (s.putPort i { x with xoff := delNat cls x.xoff }).sendPause i cls 0
    else s

/-! ### Accounts (R217, R218, R222) -/

/-- Lower a counter of cells. -/
def State.lower (s : State) (r : Ref) (n : Nat) (e : Nat := 0) : State := s.set r (s.get r e - n) e
/-- Raise a counter of cells. -/
def State.higher (s : State) (r : Ref) (n : Nat) (e : Nat := 0) : State := s.set r (s.get r e + n) e

/-- One destination of a packet at enqueue (R207). -/
structure Dest where
  queue : Nat
  kind  : HKind
  vlan  : Nat
deriving DecidableEq, Repr

/-- Headroom for an egress replica that R218 refuses (R222). -/
def State.headroom (s : State) (p : Pkt) : Nat × Pkt × State :=
  let i := p.inPort
  if p.hroom then (0, p, s)
  else
    let e := p.cls - 1
    let used := s.get (O.HEADROOM_USED i) e
    if used + p.charge ≤ s.get (if p.cls = 1 then O.HEADROOM_LO i else O.HEADROOM_HI i) then
      (0, { p with hroom := true }, s.higher (O.HEADROOM_USED i) p.charge e)
    else (0x44, p, s)

/-- Admit one destination (R218): its fate code (0 admitted), its account, its queue's occupancy before. -/
def State.admitTo (s : State) (p : Pkt) (d : Dest) : Nat × Acct × Nat × Pkt × State :=
  let g := d.queue
  let c := p.charge
  let x := s.get (O.QUEUE_POOL g)
  let occ := s.get (O.QUEUE_OCC g)
  let mx := s.get (O.QUEUE_MAX g)
  let r : Nat × Acct × Pkt × State :=
    if mx ≠ 0 ∧ mx < occ + c then (0x42, .shared, p, s)
    else if occ + c ≤ s.get (O.QUEUE_RESERVE g) then (0, .reserve, p, s)
    else if bit p.pools x then (0, .shared, p, s)
    else if s.get (O.POOL_SHARED_USED x) + c ≤ s.get (O.POOL_CAP_EFFECTIVE x) then
      let s := s.higher (O.POOL_SHARED_USED x) c
      let s := s.set (O.POOL_PEAK x) (max (s.get (O.POOL_PEAK x)) (s.get (O.POOL_SHARED_USED x)))
      (0, .shared, { p with pools := withBit p.pools x true }, s)
    else (0x43, .shared, p, s)
  let r := if r.1 ≠ 0 ∧ d.kind = .egress ∧ p.cls ≠ 0 then
      let h := r.2.2.2.headroom r.2.2.1
      (h.1, Acct.headroom, h.2.1, h.2.2)
    else r
  if r.1 ≠ 0 then (r.1, r.2.1, occ, r.2.2.1, r.2.2.2)
  else
    let s := r.2.2.2.higher (O.QUEUE_OCC g) c
    let s := s.set (O.QUEUE_PEAK g) (max (s.get (O.QUEUE_PEAK g)) (s.get (O.QUEUE_OCC g)))
    let s := if r.2.1 = .reserve then s.higher (O.QUEUE_OCC_RESERVE g) c else s
    (0, r.2.1, occ, r.2.2.1, s.count64 (O.BUF_COUNTS 2))

/-- Count a refused destination at its queue (R219, R229, R291). -/
def State.refuse (s : State) (p : Pkt) (g code : Nat) : State :=
  let s := s.outcome p g code false 0
  match code with
  | 0x42 => s.count64 (O.QUEUE_REFUSALS g) 1 0
  | 0x43 => s.count64 (O.QUEUE_REFUSALS g) 1 1
  | 0x44 => (s.count64 (O.QUEUE_REFUSALS g) 1 2).count64 (O.HEADROOM_REFUSED p.inPort) 1 (p.cls - 1)
  | _ => s

/-- Change what every live charge of a packet amounts to, once its true cell count is known (R217). -/
def State.recharge (s : State) (p : Pkt) (c : Nat) : State :=
  let d := p.charge - c
  let s := s.each p.holders fun s h =>
    let s := s.lower (O.QUEUE_OCC h.queue) d
    if h.acct = .reserve then s.lower (O.QUEUE_OCC_RESERVE h.queue) d else s
  let s := s.each (bitsOf p.pools 8) fun s x => s.lower (O.POOL_SHARED_USED x) d
  let s := if p.cls = 0 then s else s.lower (O.CLASS_CELLS p.inPort) d (p.cls - 1)
  let s := if p.hroom then s.lower (O.HEADROOM_USED p.inPort) d (p.cls - 1) else s
  (s.putPkt { p with charge := c, exact := true }).pfcCheck p.inPort p.cls

/-- Change one holder of a packet. -/
def Pkt.modHolder (p : Pkt) (tok : Nat) (f : Holder → Holder) : Pkt :=
  { p with holders := p.holders.map fun h => if h.tok = tok then f h else h }

/-- Change every packet. -/
def State.mapPkts (s : State) (f : Pkt → Pkt) : State := { s with buf := { s.buf with pkts := s.buf.pkts.map f } }

/-! ### Descriptors (R204, R205) -/

/-- Allocate a descriptor: the next never used, else the one freed first; its generation advances, and descriptor
2,097,151 skips generation 63 (R205). -/
def State.allocDesc (s : State) : Option (Nat × Nat × State) :=
  let h? := if s.buf.fresh < 2097152 then some s.buf.fresh else s.buf.freed.head?
  match h? with
  | none => none
  | some h =>
    let g := (look 0 s.buf.gens h + 1) % 64
    let g := if h = 2097151 ∧ g = 63 then 0 else g
    let b := if s.buf.fresh < 2097152 then { s.buf with fresh := s.buf.fresh + 1 }
             else { s.buf with freed := s.buf.freed.tail }
    let s := { s with buf := { b with gens := putN 0 h g b.gens } }
    let s := s.storeWritten h h
    some (h, g, s.lower O.DESCRIPTORS_FREE 1)

/-- Free a descriptor. -/
def State.freeDesc (s : State) (h : Nat) : State :=
  ({ s with buf := { s.buf with freed := s.buf.freed ++ [h] } }).higher O.DESCRIPTORS_FREE 1

/-- One of `n` words that is not taken: the first at or after `from_`, a free value (log 94). -/
def freeWord (n from_ : Nat) (taken : List Nat) : Nat :=
  let at_ := fun i => (from_ + i) % n
  ((firstFrom (fun i => !taken.contains (at_ i)) 0 n).map at_).getD 0

/-- Take a holder extension, and write it: which free one is a free value (R206, R228). -/
def State.takeExt (s : State) : Nat × State :=
  let d := s.draw 15
  let e := freeWord 32768 d.1 ((s.buf.pkts.filter (·.ext)).map (·.extNo))
  (e, (d.2.lower O.EXTENSIONS_FREE 1).storeWritten (2 ^ 23 + e) (2 ^ 32))

/-- The queue entries in use: those of the holders whose packet waits in a queue (R203). -/
def State.entriesUsed (s : State) : List Nat :=
  s.buf.queues.flatMap fun q => q.2.filterMap fun e =>
    ((s.pkt? e.1).bind fun p => p.holders.find? (·.tok == e.2)).map (·.entry)

/-- Take a queue entry, and write it: which free one is a free value (R203, R228). -/
def State.takeEntry (s : State) : Nat × State :=
  let d := s.draw 22
  let e := freeWord 4194304 d.1 d.2.entriesUsed
  (e, d.2.storeWritten (2 ^ 22 + e) (2 ^ 32))

/-- A queue entry, a holder extension or a multicast row meets its check (R228); a report of it names a free address
(log 93). -/
def State.storeCheck (s : State) (addr : Nat) (access : Nat := 1) : Bool × State :=
  if (s.damaged 0x642 addr).isNone then (false, s)
  else let d := s.draw 32; d.2.readWordAs 0x642 0x643 (unitId 6 0) (unitId 6 0) addr d.1 access

/-- The value read of a multicast row that holds `v`: a free value where it cannot be corrected (log 93). -/
def State.storeRow (s : State) (addr : Nat) (v : Nat) : Nat × State :=
  let r := s.storeCheck addr
  if r.1 then r.2.draw 32 else (v, r.2)

/-- The packets that use a word of the descriptor store are lost (R228): a descriptor's, or a link word's chain's. -/
def State.loseWord (s : State) : StoreWord → State
  | .descriptor h => s.mapPkts fun p => if p.enq && p.handle == h.val then { p with lost := true } else p
  | .link c => s.mapPkts fun p => if p.cells.contains c.val then { p with lost := true } else p
  | _ => s

/-- A unit uses an enqueued packet: its descriptor and the link words written so far meet their check. The answer says
whether the packet is lost (R228). BUF_DESC_UE is reported with the handle. -/
def State.useDesc (s : State) (p : Pkt) : Bool × State :=
  if p.lost || s.faults.damage == [] then (p.lost, s)
  else
    let look_ := fun (a : Bool × State) w =>
      let r := a.2.readWordAs 0x642 0x643 (unitId 6 0) (unitId 6 0) w p.handle 1
      (a.1 || r.1, r.2)
    let links := if p.ended then p.cells else p.cells.dropLast
    let r := (p.handle :: links.map (2 ^ 21 + ·)).foldl look_ (false, s)
    if r.1 then (true, r.2.mapPkts fun q => if q.fid = p.fid then { q with lost := true } else q) else r

/-- The packet of a handle; a lost packet that a sweep has freed has no cells, and no handle (R228). -/
def State.byHandle (s : State) (h : Nat) : Option Pkt := s.buf.pkts.find? fun p => p.enq && p.handle == h && p.cells != []

/-- The 32 bytes of a packet's descriptor (R204). -/
def descBytes (p : Pkt) : List Byte :=
  let first := p.cells.headD 0
  let last := p.cells.getLastD 0
  let low := sumL (p.holders.map fun h => if h.tok < 64 then 2 ^ h.tok else 0)
  leBytes 3 first ++ leBytes 3 last ++
  leBytes 2 (p.bytes.length % 2 ^ 14 + b01 p.ended * 2 ^ 14 + b01 p.fcsBad * 2 ^ 15) ++
  [nb p.cells.length, nb (p.gen + 64 * b01 p.poison + 128 * b01 p.started)] ++ leBytes 2 p.issued ++
  leBytes 2 p.holders.length ++ leBytes 2 (p.inPort + p.tile * 2 ^ 10) ++ leBytes 8 low ++
  leBytes 2 (if p.ext then p.extNo + 2 ^ 15 else 0) ++ [nb p.pools, nb (p.cls + 4 * b01 p.hroom), nb p.charge, 0, 0, 0]

/-! ### Retirement of commits (R43, R45, R429) -/

/-- A packet still tagged with the epoch before a commit (R45). -/
def Pkt.old (p : Pkt) (c : Commit) : Bool :=
  (p.dispatched || p.enq) && p.phase != .returning && !p.applied.contains c.id

/-- Packets still tagged with the old epoch of a group (GROUP_OLD_PACKETS). -/
def State.oldPackets (s : State) (g : Nat) : Nat :=
  if !tileUsed g then 0
  else
    match s.dict.commits.find? fun c => c.groups.contains g && c.phase == .retiring with
    | none => 0
    | some c => (s.buf.pkts.filter fun p => p.old c).length

/-- A group holds staged values. -/
def State.hasShadow (s : State) (g : Nat) : Bool := s.dict.shadow.any fun e => groupOf e.1.ref == some g

/-- A group leaves RETIRING (R43): DIRTY if its new shadow holds values, else CLEAN. -/
def State.groupRetired (s : State) (g : Nat) : State :=
  let d := s.hasShadow g
  ((s.set (O.GROUP_STATE g) (b01 d)).set (O.GROUP_SHADOW_DIRTY g) 0).raise 0xBA6

/-- Every retiring commit whose old packets are all released ends (R45). -/
def State.retire (s : State) : State :=
  let done := s.dict.commits.filter fun c => c.phase == .retiring && !s.buf.pkts.any fun p => p.old c
  if done = [] then s
  else
    let s := { s with dict := { s.dict with commits := s.dict.commits.filter fun c => !done.contains c } }
    s.each (done.flatMap (·.groups)) State.groupRetired

/-! ### Release (R209-R213) -/

/-- The queue entry of a token is read, and meets its check (R228). -/
def State.entryRead (s : State) (fid tok : Nat) : State :=
  match (s.pkt? fid).bind fun p => p.holders.find? (·.tok == tok) with
  | some h => (s.storeCheck (2 ^ 22 + h.entry)).2
  | none => s

/-- The extension word of a token above 63 is read, and written back with its bit clear (R206, R209, R228). -/
def State.extCleared (s : State) (p : Pkt) (tok : Nat) : State :=
  if p.ext && decide (64 ≤ tok) then (s.storeCheck (2 ^ 23 + p.extNo)).2.storeWritten (2 ^ 23 + p.extNo) (2 ^ 32) else s

/-- Take a token's entry out of its queue. -/
def State.unqueue (s : State) (q fid tok : Nat) : State :=
  let l := look [] s.buf.queues q
  if l.contains (fid, tok) then
    let s := s.entryRead fid tok
    let s := { s with buf := { s.buf with queues := putN [] q (l.filter (· != (fid, tok))) s.buf.queues } }
    s.higher O.QUEUE_ENTRIES_FREE 1
  else s

/-- The port or channel an ended copy leaves. -/
def Holder.port? (h : Holder) : Option Nat := if h.queue < 8192 then some (h.queue / 16) else none

/-- The code a packet's record takes at the release that empties it (R290). -/
def Pkt.recordCode (p : Pkt) (code : Nat) : Nat := if p.spoilt != 0 then p.spoilt else if p.lost then 0xC6 else code

/-- A holder releases its token with a fate code; `sent` is the length of the frame as sent (R209, R213). The release
that empties the set closes the record and starts cell return. -/
def State.releaseTok (s : State) (p : Pkt) (h : Holder) (code sent : Nat) : State :=
  let s := (s.unqueue h.queue p.fid h.tok).extCleared p h.tok
  let s := s.outcome p h.queue code (h.kind == .egress || h.kind == .tail) sent
  let s := s.lower (O.QUEUE_OCC h.queue) p.charge
  let s := if h.acct = .reserve then s.lower (O.QUEUE_OCC_RESERVE h.queue) p.charge else s
  let s := match code with
    | 0xC4 | 0xC5 => s.count64 (O.BUF_COUNTS 7)
    | 0xC6 => s.count64 (O.BUF_COUNTS 8)
    | 0xC7 => s.count64 (O.BUF_COUNTS 6)
    | _ => s
  let f := isForwarded code
  let p := { p with
    holders := p.holders.filter (·.tok != h.tok), notFwd := p.notFwd + b01 (!f), fwd := p.fwd + b01 f,
    lastPort := if f then s.queuePort p.applied h.queue else p.lastPort }
  if p.holders = [] then
    let s := s.closeRecord p (p.recordCode code) (some h)
    (if p.cells = [] then s.dropPkt p.fid else s.putPkt { p with phase := .returning }).retire
  else s.putPkt p

/-- Release one token of a packet by its number, with the packet as it stands. -/
def State.releaseAt (s : State) (fid tok code sent : Nat) : State :=
  match s.pkt? fid with
  | none => s
  | some p =>
    match p.holders.find? (·.tok == tok) with
    | none => s
    | some h => s.releaseTok p h code sent

/-- Release every token of a packet with one code, lowest token first. -/
def State.releaseAll (s : State) (fid code : Nat) : State :=
  match s.pkt? fid with
  | none => s
  | some p => s.each (p.holders.map (·.tok)) fun s t => s.releaseAt fid t code 0

/-- A packet's last cell has returned (R200): cells and packet-level charges are credited, the extension and the
descriptor are free. -/
def State.cellReturn (s : State) (p : Pkt) : State :=
  let s := s.returnCells p.cells
  let s := s.each (bitsOf p.pools 8) fun s x => s.lower (O.POOL_SHARED_USED x) p.charge
  let s := if p.cls = 0 then s else s.lower (O.CLASS_CELLS p.inPort) p.charge (p.cls - 1)
  let s := if p.hroom then s.lower (O.HEADROOM_USED p.inPort) p.charge (p.cls - 1) else s
  let s := if p.ext then s.higher O.EXTENSIONS_FREE 1 else s
  ((s.dropPkt p.fid).freeDesc p.handle).pfcCheck p.inPort p.cls

/-- A refused release (R210): the descriptor unit has made the check, and names the unit that sent it (R209, R371, R431). -/
def State.refusedRelease (s : State) (src hw tok unit : Nat) : State :=
  (s.count64 (O.BUF_COUNTS 4)).reportR ⟨src, unit, unitId 6 0, detailO hw tok, false⟩

/-! ### Meanings -/

/-- CELL_RETURN_DONE (R200, R222); the cells of a lost packet wait for the orphan sweep (R228). -/
def execCellReturnDone (h : Handle) (s : State) : Out := live s fun s =>
  match s.byHandle h with
  | none => s
  | some p => if p.phase = .returning ∧ p.lost = false then s.cellReturn p else s

/-- CELL_SCRUB (R223): a cell that it corrects is rewritten; an uncorrectable cell is quarantined if free, and if allocated
it poisons its packet and is quarantined when it returns. -/
def execCellScrub (c : Cell) (f : Ecc) (s : State) : Out := live s fun s =>
  let k := bankOfCell c
  let s := s.found (0x400 + k) c f
  match s.damaged (0x400 + k) c with
  | none => s
  | some d =>
    let r := s.readWord (0x400 + k) (0x4C0 + k) (unitId 3 k) (unitId 3 k) c 2
    let s := r.2.count64 (O.BANK_ERRORS k) 1 (if d.bits = 1 then 0 else 1)
    if !r.1 then s
    else if s.buf.used.contains c.val then
      let s := { s with buf := { s.buf with doomed := insNat c s.buf.doomed } }
      s.mapPkts fun p => if p.cells.contains c.val then { p with poison := true } else p
    else if s.cellFree c then s.quarantine c
    else s

/-- The address a report of the descriptor store names: the handle of the packet that uses the word, else a free value
(R228, log 93). -/
def State.storeShown (s : State) (w : StoreWord) : Nat × State :=
  match w with
  | .descriptor h => (h, s)
  | .link c =>
    match s.buf.pkts.find? fun p => p.enq && p.cells.contains c.val with
    | some p => (p.handle, s)
    | none => s.draw 32
  | _ => s.draw 32

/-- DESCRIPTOR_SCRUB (R228): an uncorrectable descriptor or link word makes its packet lost. -/
def execDescriptorScrub (w : StoreWord) (f : Ecc) (s : State) : Out := live s fun s =>
  let s := s.found 0x642 (storeAddr w) f
  let a := s.storeShown w
  let r := a.2.readWordAs 0x642 0x643 (unitId 6 0) (unitId 6 0) (storeAddr w) a.1 2
  if r.1 then r.2.loseWord w else r.2

end Sys2Proof.Machine
end

