-- ==== Sys2Proof/Machine/Rewrite.lean ====
section
/-!
DEFINITION. Sys2Proof/Machine/Rewrite.lean: what leaves the egress MAC: VLAN operations (R174), in-band telemetry (R310,
R311), mirror copies (R313), one-step time operations (R276-R279), transparent clock correction (R281, R282), and the
lengths they give (R236).
-/
namespace Sys2Proof.Machine

/-! ### VLAN operations (R174) -/

/-- A TPID the device takes for a VLAN tag (R124, R130). -/
def isTpid (n : Nat) : Bool := n == 0x8100 || n == 0x88A8 || n == 0x9100
/-- A frame whose first type field is a tag. -/
def tagged (b : List Byte) : Bool := isTpid (beAt b 12 2)

/-- An action set's VLAN operation as one number: byte 9 [2:0], then bytes 10-11. -/
def vlanCode (op field : Nat) : Nat := op % 8 + 8 * field
/-- Operation 0 keep, 1 strip, 2 replace VID, 3 push. -/
def vlanOp (v : Nat) : Nat := v % 4
/-- How far the operation moves what follows the addresses (R281). -/
def vlanShift (v : Nat) (b : List Byte) : Int :=
  if vlanOp v = 3 then 4 else if vlanOp v = 1 ∧ tagged b = true then -4 else 0

/-- Apply a VLAN operation to a frame without its FCS. A frame with no tag is left by strip and replace; "set PCP" acts on
the outer tag the operation leaves (log 13). `open_` gives a pushed tag's PCP and DEI where the action set does not
(log 4). -/
def vlanApply (v open_ : Nat) (b : List Byte) : List Byte :=
  let f := v / 8
  let b :=
    if vlanOp v = 1 ∧ tagged b = true then b.take 12 ++ b.drop 16
    else if vlanOp v = 2 ∧ tagged b = true then patch b 14 (beBytes 2 (beAt b 14 2 / 4096 * 4096 + f % 4096))
    else if vlanOp v = 3 then b.take 12 ++ beBytes 2 0x8100 ++ beBytes 2 (open_ % 16 * 4096 + f % 4096) ++ b.drop 12
    else b
  if v / 4 % 2 = 1 ∧ tagged b = true then
    patch b 14 (beBytes 2 (bits f 14 12 * 8192 + beAt b 14 2 % 8192))
  else b

/-! ### IP headers the device writes -/

/-- The IPv4 header checksum of a header of `n` bytes whose checksum field is 0. -/
def ipv4Sum (b : List Byte) (off n : Nat) : Nat := inetSum (slice b off n)

/-- Fill in total length, header checksum, UDP length and a zero UDP checksum at an IPv4 header (R308, R313). -/
def fillIpv4 (b : List Byte) (off : Nat) (udpAlways : Bool) : List Byte :=
  let ihl := byteAt b off % 16 * 4
  let b := patch b (off + 2) (beBytes 2 (b.length - off))
  let b := patch b (off + 10) (zeros 2)
  let b := patch b (off + 10) (beBytes 2 (ipv4Sum b off ihl))
  let u := off + ihl
  if udpAlways || byteAt b (off + 9) == 17 then patch b (u + 4) (beBytes 2 (b.length - u) ++ zeros 2) else b

/-- Fill in payload length, UDP length and UDP checksum at an IPv6 header followed directly by UDP (R308). -/
def fillIpv6 (b : List Byte) (off : Nat) : List Byte :=
  let n := b.length - (off + 40)
  let b := patch b (off + 4) (beBytes 2 n)
  let b := patch b (off + 44) (beBytes 2 n ++ zeros 2)
  let pseudo := slice b (off + 8) 32 ++ beBytes 4 n ++ beBytes 4 17
  let c := inetSum (pseudo ++ b.drop (off + 40))
  patch b (off + 46) (beBytes 2 (if c = 0 then 0xFFFF else c))

/-! ### In-band telemetry (R310, R311) -/

/-- Bytes of one slot: four for each trace type bit. -/
def intN (ty : Nat) : Nat := 4 * popcount ty 24
/-- The inserted length. -/
def intL (slots n : Nat) : Nat := 8 * ((16 + slots * n + 7) / 8)

/-- The offset of the outer IP header from the packet context (R130, R133). -/
def Pkt.ipOff (p : Pkt) : Nat := beAt p.ctx 6 2

/-- The outer header is IPv6 without a hop-by-hop header. -/
def Pkt.plainV6 (p : Pkt) : Bool :=
  p.ipOff != 0 && byteAt p.bytes p.ipOff / 16 == 6 && byteAt p.bytes (p.ipOff + 6) != 0

/-- The bytes that telemetry insertion adds to a replica of a port queue; 0 where it is not asked for or is skipped
(R310). -/
def State.insertLen (s : State) (p : Pkt) (h : Holder) : Nat :=
  if !p.act.insert || 8192 ≤ h.queue || p.pale || p.dflt || p.mono || !p.plainV6 then 0
  else
    let g := fun r => s.getP p.applied r
    let l := intL (g O.INT_SLOTS) (intN (g O.INT_TRACE_TYPE))
    let len : Int := p.bytes.length + vlanShift h.vlan p.bytes + l
    if g (O.MAX_FRAME (h.queue / 16)) < len then 0 else l

/-- The trace type as RFC 9197 orders its bits: bit 0 first. -/
def traceWire (ty : Nat) : Nat := sumL ((bitsOf ty 24).map fun k => 2 ^ (23 - k))
/-- The set bits of a received trace type, in RFC 9197 order. -/
def traceBits (wire : Nat) : List Nat := (List.range 24).filter fun k => bit wire (23 - k)

/-- One field of a slot (R311). `b` is the frame, `ip` its IPv6 header, `dcOut` the transmit timestamp. -/
def State.intField (s : State) (p : Pkt) (h : Holder) (b : List Byte) (ip dcOut k : Nat) : List Byte :=
  let at_ := p.stamps.getD (s.getP p.applied O.INT_TIME_BASE) 0
  match k with
  | 0 => nb (byteAt b (ip + 7)) :: beBytes 3 (s.getP p.applied O.INT_NODE_ID)
  | 1 => beBytes 2 p.inPort ++ beBytes 2 (h.queue / 16)
  | 2 => beBytes 4 (timeSec at_)
  | 3 => beBytes 4 (timeNs at_)
  | 4 =>
    let d := (dcOut + 2 ^ 64 - p.dcIn) % 2 ^ 64 / nsU
    beBytes 4 (if 2 ^ 31 ≤ d then 2 ^ 31 else d)
  | 6 => beBytes 4 h.occ
  | 11 => beBytes 4 p.occAll
  | _ => beBytes 4 0xFFFFFFFF

/-- The bytes of one slot. -/
def State.intSlot (s : State) (p : Pkt) (h : Holder) (b : List Byte) (ip dcOut : Nat) (ks : List Nat) : List Byte :=
  ks.flatMap (s.intField p h b ip dcOut)

/-- Insert the hop-by-hop header with its trace option, the first slot filled, after the IPv6 header at `ip` (R310; the
bytes as RFC 9197 and RFC 9486 lay them out, log 14). -/
def State.intInsert (s : State) (p : Pkt) (h : Holder) (b : List Byte) (ip dcOut l : Nat) : List Byte :=
  let ty := s.getP p.applied O.INT_TRACE_TYPE
  let slots := s.getP p.applied O.INT_SLOTS
  let n := intN ty
  let left := (slots - 1) * n
  let opt := [0x31, nb (10 + slots * n), 0, 0] ++ beBytes 2 (s.getP p.applied O.INT_NAMESPACE) ++
    beBytes 2 (n / 4 % 32 * 2048 + left / 4 % 128) ++ beBytes 3 (traceWire ty) ++ [0] ++ zeros left ++
    s.intSlot p h b ip dcOut (bitsOf ty 24)
  let head : List Byte := [nb (byteAt b (ip + 6)), nb (l / 8 - 1), 1, 0]
  let body := head ++ opt
  let body := body ++ (if body.length < l then 1 :: nb (l - body.length - 2) :: zeros (l - body.length - 2) else [])
  let b := patch (patch b (ip + 6) [0]) (ip + 4) (beBytes 2 (beAt b (ip + 4) 2 + l))
  b.take (ip + 40) ++ body ++ b.drop (ip + 40)

/-- A two-byte hint of the form of R281 in the packet's context: encapsulation and offset. -/
def State.hint (s : State) (p : Pkt) (r : Ref) : Option (Nat × Nat) :=
  let o := s.getP p.applied r
  let v := beAt p.ctx o 2
  if p.ctx.length ≠ 64 ∨ p.pale ∨ p.dflt ∨ o = 0xFF ∨ !bit v 15 then none else some (bits v 14 13, v % 512)

/-- Act as a transit node on a received trace option at `h0` (R311): fill the next slot, or set the overflow flag; the
first result names the counter, 0 for none. -/
def State.intTransit (s : State) (p : Pkt) (h : Holder) (b : List Byte) (h0 ip dcOut : Nat) : Nat × List Byte :=
  let ns := beAt b h0 2
  let w := beAt b (h0 + 2) 2
  let len := w / 2048
  let rem := w % 128
  if b.length < h0 + 8 ∨ (ns ≠ 0 ∧ ns ≠ s.getP p.applied O.INT_NAMESPACE) then (0, b)
  else if len ≤ rem ∧ len * 4 = intN (s.getP p.applied O.INT_TRACE_TYPE) then
    let left := rem - len
    let slot := (s.intSlot p h b ip dcOut (traceBits (beAt b (h0 + 4) 3))).take (len * 4)
    (7, patch (patch b (h0 + 8 + left * 4) slot) (h0 + 2) (beBytes 2 (w - rem + left)))
  else (8, patch b (h0 + 2) (beBytes 2 (if bit w 10 then w else w + 1024)))

/-! ### PTP headers (R277-R279, R282) -/

/-- The value 1588 reserves for "too large". -/
abbrev ptpMax : Int := 0x7FFFFFFFFFFFFFFF
/-- `sat` of R277. -/
def ptpSat (x : Int) : Int := if ptpMax < x ∨ x < -ptpMax then ptpMax else x

/-- The correction field at a PTP header, and that field with `d` added (R277). -/
def addCorrection (b : List Byte) (h : Nat) (d : Int) : List Byte :=
  let c := toSigned 64 (beAt b (h + 8) 8)
  if c = ptpMax then b else patch b (h + 8) (beBytes 8 (ofSigned 64 (ptpSat (c + d))))

/-- The checksum after the words of a message changed (R279, RFC 1624). -/
def sumRepair (hc : Nat) (old new : List Byte) : Nat :=
  let neg := fun x => 0xFFFF - x
  let n := (old.length + 1) / 2
  let d := sumL ((List.range n).map fun k =>
    let m := beAt old (2 * k) 2
    let m' := beAt new (2 * k) 2
    if m = m' then 0 else neg m + m')
  let r := neg (fold16 (neg hc + d))
  if r = 0 then 0xFFFF else r

/-- Repair the UDP checksum in front of a changed PTP message (R279). -/
def udpRepair (enc h : Nat) (old new : List Byte) : List Byte :=
  if enc = 0 then new
  else
    let hc := beAt old (h - 2) 2
    if hc = 0 then new else patch new (h - 2) (beBytes 2 (sumRepair hc (slice old h 44) (slice new h 44)))

/-- The PTP header at `h` cannot be changed (R277, R279): it does not end before the FCS with its timestamp field, its
version is not 2, or it is UDP over IPv6 without a checksum. -/
def ptpBad (b : List Byte) (enc h : Nat) : Bool :=
  decide (b.length < h + 44) || byteAt b (h + 1) % 16 != 2 || (enc != 0 && decide (h < 8)) ||
  (enc == 2 && beAt b (h - 2) 2 == 0)

/-- Count and report an operation not applied (R277). -/
def State.ptpError (s : State) (port word : Nat) : State :=
  (s.count64 (O.TIME_COUNTS port 0x0A)).report (0x7A0 + port / 16) (unitId 10 port)
    (detailS (leBytes 2 port ++ leBytes 4 word))

/-- Apply a host packet's time word (R277, R278): the frame's fate code, its bytes without the FCS. -/
def State.timeOp (s : State) (port : Nat) (p : Pkt) (dep : Nat) (b : List Byte) : Nat × List Byte × State :=
  let w := p.timeW
  let op := w % 16
  let slot := bits w 7 4
  let h := bits w 16 8
  let enc := bits w 18 17
  if op = 0 then (0, b, s)
  else if ptpBad b enc h then (0, b, s.ptpError port w)
  else
    let x := s.port port
    let held := x.slots.getD slot none
    let ts := mkTime (beAt b (h + 34) 6) (beAt b (h + 40) 4) 0
    let stamp := fun t b => patch b (h + 34) (beBytes 6 (timeSec t) ++ beBytes 4 (timeNs t))
    let done := fun (b' : List Byte) (s : State) => (0, udpRepair enc h b b', s)
    match op with
    | 1 => done (addCorrection (stamp dep b) h (timeFrac dep)) (s.count64 (O.TIME_COUNTS port 7))
    | 2 => done (addCorrection b h (timeDiff dep ts)) (s.count64 (O.TIME_COUNTS port 7))
    | 3 => done (addCorrection b h (timeDiff dep p.timeV)) (s.count64 (O.TIME_COUNTS port 7))
    | 4 =>
      let s := if held.isSome then s.count64 (O.TIME_COUNTS port 0x0B) else s
      (0, b, (s.putPort port { x with slots := x.slots.set slot (some dep) }).count64 (O.TIME_COUNTS port 8))
    | _ =>
      match held with
      | none => (0x84, b, s.count64 (O.TIME_COUNTS port 0x0C))
      | some t =>
        done (addCorrection (stamp t b) h (timeFrac t))
          ((s.putPort port { x with slots := x.slots.set slot none }).count64 (O.TIME_COUNTS port 9))

/-- The residence added to a forwarded PTP event message (R282). -/
def State.correction (s : State) (p : Pkt) (port dcOut : Nat) : Int :=
  let r : Int := ((dcOut + 2 ^ 64 - p.dcIn) % 2 ^ 64 : Nat)
  let r := r + (r * s.rateTotal (s.getP p.applied (O.TS_BASE p.inPort))) / (2 ^ 40 : Nat)
  if s.getP p.applied (O.TC_MODE port) = 2 then r + s.get (O.LINK_DELAY p.inPort) else r

/-- Transparent clock correction of the PTP header at `h` (R282); a header that cannot be changed leaves the frame as it is,
counted and reported (R277, R279). One whose first two bytes lie beyond the frame is such a header (log 116). -/
def State.transparent (s : State) (p : Pkt) (port dcOut enc h : Nat) (b : List Byte) : List Byte × State :=
  let mode := s.getP p.applied (O.TC_MODE port)
  let ty := byteAt b h % 16
  let listed := decide (mode = 1 ∧ ty ≤ 3) || decide (mode = 2 ∧ ty = 0)
  if mode = 0 then (b, s)
  else if b.length < h + 2 then (b, s.ptpError port 0)
  else if !listed || byteAt b (h + 1) % 16 != 2 then (b, s)
  else if ptpBad b enc h then (b, s.ptpError port 0)
  else (udpRepair enc h b (addCorrection b h (s.correction p port dcOut)), s.count64 (O.TIME_COUNTS port 6))

/-! ### Frames as they leave (R236, R277, R313) -/

/-- Move an offset of the received frame by a VLAN operation. -/
def shifted (off : Nat) (d : Int) : Nat := ((off : Int) + d).toNat

/-- A replica of a port queue, without its FCS: VLAN operation, transit slot, insertion, time operation or correction.
The first result is the code that spoils it, 0 for none. -/
def State.replicaBody (s : State) (p : Pkt) (h : Holder) (dcOut dep : Nat) : Nat × List Byte × State :=
  let port := h.queue / 16
  let b0 := p.bytes.take (p.bytes.length - 4)
  let d := if vlanOp h.vlan = 3 then s.draw 4 else (0, s)
  let s := d.2
  let sh := vlanShift h.vlan b0
  let b := vlanApply h.vlan d.1 b0
  let ip := shifted p.ipOff sh
  let tr := match s.hint p (O.INT_HINT_OFFSET p.tile) with
    | some (_, o) => s.intTransit p h b (shifted o sh) ip dcOut
    | none => (0, b)
  let s := if tr.1 = 0 then s else s.count64 (O.INT_COUNTS tr.1)
  let l := s.insertLen p h
  let b := if l = 0 then tr.2 else s.intInsert p h tr.2 ip dcOut l
  let s := if !p.act.insert then s
    else if l = 0 then s.count64 (O.INT_COUNTS 9)
    else (s.putPkt { p with inserted := true }).count64 (O.INT_COUNTS 6)
  match p.src with
  | .port _ =>
    match s.hint p (O.PTP_HINT_OFFSET p.tile) with
    | some (enc, o) =>
      let r := s.transparent p port dcOut enc (shifted o sh + l) b
      (0, r.1, r.2)
    | none => (0, b, s)
  | _ => s.timeOp port p dep b

/-- A mirror copy without its FCS (R313). -/
def State.mirrorBody (s : State) (p : Pkt) (h : Holder) : List Byte × State :=
  let m := h.queue - 8320
  let g := fun r => s.getP p.applied r
  let hdr := ((List.range (g (O.MIRROR_HEADER_LEN m))).map fun i => nb (s.getP p.applied (O.MIRROR_HEADER m) i))
  let d := if vlanOp h.vlan = 3 then s.draw 4 else (0, s)
  let b := vlanApply h.vlan d.1 (p.bytes.take (p.bytes.length - 4))
  let n := g (O.MIRROR_TRUNCATE m)
  let b := hdr ++ (if n = 0 then b else b.take n)
  let o := g (O.MIRROR_IP_OFFSET m)
  (if o = 0xFF ∨ b.length < o + 20 then b else fillIpv4 b o false, d.2)

/-- The frame of a holder as its MAC sends it, FCS included, for a complete packet. -/
def State.finalFrame (s : State) (p : Pkt) (h : Holder) (dcOut dep : Nat) : Nat × List Byte × State :=
  if 8320 ≤ h.queue then
    let r := s.mirrorBody p h
    (0, r.1 ++ fcs r.1, r.2)
  else
    let r := s.replicaBody p h dcOut dep
    (r.1, r.2.1 ++ fcs r.2.1, r.2.2)

/-- An FCS that cannot be valid (R23). -/
def spoilFcs (f : List Byte) : List Byte :=
  f.take (f.length - 4) ++ (f.drop (f.length - 4)).map fun b => b ^^^ 0xFF

/-- The length of a holder's frame as it leaves, from the packet's length `n` (R236). -/
def State.lengthFrom (s : State) (p : Pkt) (h : Holder) (n : Nat) : Nat :=
  let v := ((n : Int) + vlanShift h.vlan p.bytes).toNat
  if 8320 ≤ h.queue then
    let m := h.queue - 8320
    let t := s.getP p.applied (O.MIRROR_TRUNCATE m)
    s.getP p.applied (O.MIRROR_HEADER_LEN m) + (if t = 0 then v - 4 else min t (v - 4)) + 4
  else v + s.insertLen p h

/-- F of a holder: the length its frame leaves with, provisional while the packet's end is not known (R236, R237). -/
def State.frameLen (s : State) (p : Pkt) (h : Holder) : Nat :=
  if p.ended then s.lengthFrom p h p.bytes.length
  else match p.src with
    | .port _ => s.maxFrameOf p
    | _ => 16383

end Sys2Proof.Machine
end

