-- ==== Sys2Proof/Machine/Sched.lean ====
section
/-!
DEFINITION. Sys2Proof/Machine/Sched.lean: scheduling lengths (R236-R238), virtual finish times (R239), shapers (R241),
policers (R242-R244), and the correction of provisional charges (R237).
-/
namespace Sys2Proof.Machine

/-! ### Members of a scheduler (R232) -/

/-- The packets of a queue, head first. -/
def State.queue (s : State) (g : Nat) : List (Nat × Nat) := look [] s.buf.queues g

/-- The scheduler that takes a packet of queue `g`, by the settings of its epoch (R44): `none` of a host queue or of a
mirror queue without a port. -/
def State.portFor (s : State) (applied : List Nat) (g : Nat) : Option Nat :=
  if 8192 ≤ g ∧ g < 8320 then none else let p := s.queuePort applied g; if p = 0xFFFF then none else some p

/-- The scheduler a queue belongs to now: that of its head packet, or of the next to come. -/
def State.schedPort (s : State) (g : Nat) : Option Nat :=
  s.portFor (match (s.queue g).head?.bind fun e => s.pkt? e.1 with
    | some p => p.applied
    | none => s.dict.commits.map (·.id)) g

/-- The mirror queues that port `p` serves. -/
def State.mirrorsOf (s : State) (p : Nat) : List Nat := ((List.range 64).map (8320 + ·)).filter fun g => s.schedPort g == some p

/-- The member set of port `p`, by member index: its queues, then its mirror queues. -/
def State.members (s : State) (p : Nat) : List Nat := (List.range 16).map (p * 16 + ·) ++ s.mirrorsOf p

/-- A launch-mode queue (R254); mirror queues have no launch mode (R258). -/
def State.launchQueue (s : State) (g : Nat) : Bool := decide (g < 8192) && s.flag (O.LAUNCH_MODE g)

/-- A strict queue (R234). -/
def State.strictQueue (s : State) (g : Nat) : Bool :=
  decide (g < 8192) &&
  (let n := s.get (O.STRICT_QUEUES (g / 16))
   (g % 16 == 15 && n != 0) || (g % 16 == 14 && n == 2))

/-- A fair-queueing member (R232, R234). -/
def State.fairQueue (s : State) (g : Nat) : Bool := !s.launchQueue g && !s.strictQueue g

/-- The member's gate and preemption bit (R232). -/
def gateBit (g : Nat) : Nat := if g < 8192 then g % 16 else 16

/-- Scheduling length of F bytes at port `p` (R236). -/
def State.schedLen (s : State) (p f : Nat) : Nat := (max 1 ((f : Int) + s.geti (O.OVERHEAD p))).toNat

/-! ### Virtual finish times (R239) -/

/-- `cost` of R239. -/
def tagCost (l w : Nat) : Nat := (l * 65536 + max w 1 - 1) / max w 1
/-- `earlier` of R239. -/
def earlier (a b : Nat) : Bool := decide (2 ^ 47 ≤ (a + 2 ^ 48 - b) % 2 ^ 48)

def State.tagAdd (s : State) (g : Nat) (d : Int) : State :=
  s.set (O.FINISH_TAG g) (((s.get (O.FINISH_TAG g) : Int) + d) % (2 ^ 48 : Nat)).toNat

/-- A packet of length `l` arrives at a member that holds no packet. -/
def State.tagArrival (s : State) (p g l : Nat) : State :=
  if s.fairQueue g then
    s.set (O.FINISH_TAG g) ((s.get (O.VIRTUAL_TIME p) + tagCost l (s.get (O.WEIGHT g))) % 2 ^ 48)
  else s

/-- A fair-queueing pick of member `g`; `next` is the length of a further packet it holds. -/
def State.tagPick (s : State) (p g : Nat) (next : Option Nat) : State :=
  let v := s.get (O.FINISH_TAG g)
  let s := s.set (O.VIRTUAL_TIME p) v
  let s := match next with
    | some l => s.tagAdd g (tagCost l (s.get (O.WEIGHT g)))
    | none => s
  s.each (s.members p) fun s r =>
    let f := s.get (O.FINISH_TAG r)
    if r ≠ g ∧ s.fairQueue r = true ∧ s.queue r ≠ [] ∧ earlier f v = true ∧ 2 ^ 32 ≤ (v + 2 ^ 48 - f) % 2 ^ 48 then
      s.set (O.FINISH_TAG r) ((v + 2 ^ 48 - 2 ^ 32) % 2 ^ 48)
    else s

/-- Queue `g` has emptied: its frames that started owe its finish tag nothing more (R239). -/
def State.settled (s : State) (g : Nat) : State :=
  s.mapPkts fun p => { p with holders := p.holders.map fun h =>
    if h.queue = g ∧ h.started = true then { h with tagLp := 0, owes := false } else h }

/-- The frame of a token still owes its queue's finish tag its charges (R239). -/
def State.tagOwed (s : State) (fid tok : Nat) : Bool :=
  (((s.pkt? fid).bind fun p => p.holders.find? (·.tok == tok)).map (·.owes)).getD false

/-- A continuation of a fragment of member `g` (R238, R239). -/
def State.tagFragment (s : State) (g : Nat) : State :=
  if s.fairQueue g ∧ s.queue g ≠ [] then s.tagAdd g (tagCost 24 (s.get (O.WEIGHT g))) else s

/-- A provisional length `lp` becomes `l` (R239): `queued` says the packet still waits. -/
def State.tagCorrect (s : State) (g fid tok lp l : Nat) (queued : Bool) : State :=
  let w := s.get (O.WEIGHT g)
  let d : Int := (tagCost lp w : Int) - tagCost l w
  let head := (s.queue g).head? == some (fid, tok)
  if s.fairQueue g && (if queued then head else s.queue g != []) then s.tagAdd g (-d) else s

/-! ### Shapers (R241) -/

/-- The tokens of a queue in 2^-16 byte: held at the burst while it is unshaped. -/
def State.tokens (s : State) (g : Nat) : Int :=
  if s.get (O.SHAPE_RATE g) = 0 then s.get (O.SHAPE_BURST g) * 65536 else (s.bucket g).tok

/-- One refill of a shaped queue; a queue with a packet that is still short counts a held tick. -/
def State.refill (s : State) (g : Nat) : State :=
  let rate := s.get (O.SHAPE_RATE g)
  let b := s.bucket g
  let acc := b.rem + rate * 65536
  let cap : Int := s.get (O.SHAPE_BURST g) * 65536
  let tok : Int := min (b.tok + (acc / 600000 : Nat)) cap
  let s := s.putBucket g ⟨tok, acc % 600000⟩
  if tok < 0 ∧ s.queue g ≠ [] then s.count64 (O.SCHED_COUNTS g 5) else s

/-- Change a shaped queue's tokens by whole bytes. -/
def State.tokensAdd (s : State) (g : Nat) (bytes : Int) : State :=
  if s.get (O.SHAPE_RATE g) = 0 then s
  else let b := s.bucket g; s.putBucket g { b with tok := b.tok + bytes * 65536 }

/-- The scheduling objects of queue `g` change at a commit (R241): the remainder is kept and the tokens, which an unshaped
queue holds at its old burst, are clipped to the new one. -/
def State.shaperCommit (s : State) (g oldRate oldBurst : Nat) : State :=
  let b := s.bucket g
  let tok : Int := if oldRate = 0 then oldBurst * 65536 else b.tok
  s.putBucket g { b with tok := min tok (s.get (O.SHAPE_BURST g) * 65536) }

/-! ### Policers (R242-R244) -/

/-- Ticks of 32 core clocks (R242). -/
def State.policerTick (s : State) : Nat := s.coreClocks / 32 % 2 ^ 32

/-- A policer row (R242): profile with reserved bits, fill, last update, levels. -/
structure PolRow where
  prof : Nat
  fill : Bool
  last : Nat
  c    : Int
  pk   : Int
deriving DecidableEq, Repr

def polRead (v : Nat) : PolRow := ⟨v % 2 ^ 15, bit v 15, bits v 47 16, toSigned 40 (bits v 87 48), toSigned 40 (bits v 127 88)⟩
def polWrite (r : PolRow) : Nat :=
  r.prof + 2 ^ 15 * b01 r.fill + 2 ^ 16 * r.last + 2 ^ 48 * ofSigned 40 r.c + 2 ^ 88 * ofSigned 40 r.pk

/-- `police` of R243: the code, 0 for a pass. A disabled profile changes nothing. -/
def State.police (s : State) (x lk : Nat) : Nat × State :=
  let r := polRead (s.get O.POLICER_STATE x)
  let p := r.prof % 4096
  let mode := s.get (O.POLICER_MODE p)
  if mode = 0 then (0, s)
  else
    let now := s.policerTick
    let dt := (now + 2 ^ 32 - r.last) % 2 ^ 32
    let cbs : Int := s.get (O.CBS p) * 65536
    let pbs : Int := s.get (O.PBS p) * 65536
    let c := if r.fill then cbs else r.c
    let pk := if r.fill then pbs else r.pk
    let c := min (c + (dt * s.get (O.CIR p) * 65536 / 600000 : Nat)) cbs
    let pk := if mode = 2 then min (pk + (dt * s.get (O.PIR p) * 65536 / 600000 : Nat)) pbs else pk
    let need : Int := lk * 65536
    let code := if mode = 2 ∧ pk < need then 0x16 else if c < need then 0x15 else 0
    let r' : PolRow := ⟨r.prof, false, now, if code = 0 then c - need else c,
      if code = 0 ∧ mode = 2 then pk - need else pk⟩
    (code, s.set O.POLICER_STATE (polWrite r') x)

/-- A packet at its policer (R243): the result is counted at the profile (R259). -/
def State.policePacket (s : State) (x lk : Nat) : Nat × State :=
  let p := (polRead (s.get O.POLICER_STATE x)).prof % 4096
  let r := s.police x lk
  if s.get (O.POLICER_MODE p) = 0 then r
  else (r.1, r.2.count64 (O.POLICER_COUNTS p (if r.1 = 0 then 6 else if r.1 = 0x15 then 7 else 8)))

/-- The bytes of a passed frame that were unknown when it passed, deducted from the levels it was charged to (R243). -/
def State.policeRest (s : State) (k : Policed) (len : Nat) : State :=
  let r := polRead (s.get O.POLICER_STATE k.row)
  let d : Int := (len - k.known : Nat) * 65536
  s.set O.POLICER_STATE (polWrite { r with c := r.c - d, pk := if k.peak then r.pk - d else r.pk }) k.row

/-! ### Provisional lengths become true (R237) -/

/-- Correct the provisional lengths that one holder was charged, when the packet's end is known (R239, R241). -/
def State.correctHolder (s : State) (p : Pkt) (h : Holder) : State :=
  match s.portFor p.applied h.queue with
  | none => s
  | some q =>
    let l := s.schedLen q (s.frameLen p h)
    let s := if h.tagLp = 0 then s else s.tagCorrect h.queue p.fid h.tok h.tagLp l (!h.started)
    if h.tokLp = 0 then s else s.tokensAdd h.queue ((h.tokLp : Int) - l)

/-- Everything charged to an unfinished packet is corrected at its end: admission, tags, shapers, its policer (R217, R237,
R239, R241, R243). -/
def State.correctAll (s : State) (fid : Nat) : State :=
  match s.pkt? fid with
  | none => s
  | some p =>
    let n := p.bytes.length
    let s := match p.policed with
      | some k => s.policeRest k n
      | none => s
    if !p.enq then s
    else
      let s := s.each p.holders fun s h => s.correctHolder p h
      if p.exact then s else s.recharge p (cellsFor n)

/-! ### Meanings -/

/-- SHAPER_TICK (R241): every shaped queue of a member set is refilled. -/
def execShaperTick (s : State) : Out := live s fun s =>
  let gs := (s.dict.objs.filter fun e => e.1.ref.idx == 0x7001 && e.1.ref.sub == 2).map (·.1.ref.inst)
  s.each (gs.dedup.filter fun g => s.hasInst .schedQueues g) State.refill

/-- POLICER_REFRESH (R244): the update with lk = 0. -/
def execPolicerRefresh (x : Policer) (s : State) : Out := live s fun s => (s.police x 0).2

end Sys2Proof.Machine
end

