-- ==== Sys2Proof/Machine/Ingress.lean ====
section
/-!
DEFINITION. Sys2Proof/Machine/Ingress.lean: frames arriving at an ingress MAC (R107, R108, R112, R118, R124, R201): cells,
reassembly, the ingress filter, MAC control frames, the end of a frame (R23).
-/
namespace Sys2Proof.Machine

/-! ### A new frame -/

/-- An action set with no action. -/
def ActSet.none : ActSet :=
  ⟨0, 0, 0, false, 0, Option.none, Option.none, Option.none, 0, false, false, Option.none, false, false, false, 0⟩

/-- A frame that has just opened, without a byte. -/
def Pkt.fresh (fid : Nat) (src : Src) (tile : Nat) : Pkt :=
  { fid := fid, src := src, tile := tile, pre := false, bytes := [], ended := false, bad := 0, filtered := false, cells := [],
    phase := .arriving, pale := false, mono := false, dflt := false, applied := [], dcIn := 0, tsIn := 0, stamps := [],
    member := 0xFFFF, toHost := none, ctx := [], seenF := false, act := ActSet.none, policed := none, enq := false,
    handle := 0, gen := 0, issued := 0, holders := [], ext := false, pools := 0, cls := 0, hroom := false, charge := 0,
    exact := false, judged := [], extNo := 0, fcsBad := false, poison := false, lost := false, started := false, notFwd := 0, fwd := 0, lastPort := 0xFFFF, timeW := 0,
    timeV := 0, launch := false, spoilt := 0, cutThru := false, inserted := false, mirrored := false, occAll := 0 }

/-- Put a new packet into the buffer's list; it takes the next frame number. -/
def State.addPkt (s : State) (p : Pkt) : State :=
  { s with buf := { s.buf with pkts := s.buf.pkts ++ [p], nextFid := s.buf.nextFid + 1 } }

/-- The ingress times of a frame that starts on port `q` now: the value of every base, the adjustment of R269 taken off. -/
def State.rxStamps (s : State) (q : Nat) : List Nat :=
  (List.range 8).map fun n => unitsTime ((s.tbUnits n : Int) - psUnits (s.geti (O.RX_DELAY_ADJ_PS q)))

/-! ### Failing frames (R23, R108) -/

/-- A frame fails as a whole: before enqueue it is discarded; with no copy started every token ends with its code;
afterwards it is recorded with 0x06, copies not started end so, and started ones are spoiled (R23, R108). -/
def State.failPacket (s : State) (p : Pkt) (code : Nat) : State :=
  if p.phase = .returning then s
  else if !p.enq then s.discardArrival p code
  else
    let s := (s.putPkt p).countFate p code
    if !p.started then s.releaseAll p.fid code
    else
      let s := s.putPkt { p with spoilt := 0x06 }
      s.each ((p.holders.filter fun h => !h.started).map (·.tok)) fun s t => s.releaseAt p.fid t 0x06 0

/-! ### Cells of an arriving frame (R107, R195, R201, R226) -/

/-- Grant the cells an arriving frame lacks: `ok` false when its owner's limit stops it (0x40) or no cell is free (0x4A);
the first result is that code, 0 when every cell was granted. -/
def State.grantFor (s : State) (p : Pkt) : Nat → Nat × Pkt × State
  | 0 => (0, p, s)
  | n + 1 =>
    let limit := match p.src with
      | .port _ => decide (s.get (O.ARRIVAL_USED p.tile) + 1 ≤ s.get (O.ARRIVAL_CELLS p.tile))
      | _ => decide (s.hostArrival + 1 ≤ s.get O.HOST_ARRIVAL_CELLS)
    if !p.enq && !limit then (0x40, p, s)
    else match s.grantCell with
      | none => (0x4A, p, s)
      | some (c, s) =>
        let s := s.linkWritten p.cells.getLast?
        let p := { p with cells := p.cells ++ [c] }
        let s := if p.enq then s else s.arrivalAdd p 1
        (s.putPkt p).grantFor p n

/-- Bytes of a frame arrive: writing stops at MAX_FRAME + 1 bytes; a frame the filter refused takes no cell. -/
def State.arrive (s : State) (fid : Nat) (bs : List Byte) : State :=
  match s.pkt? fid with
  | none => s
  | some p =>
    let room := s.maxFrameOf p + 1 - p.bytes.length
    let p := { p with bytes := p.bytes ++ bs.take room }
    if p.filtered && p.bad != 0 then s.putPkt p
    else
      let r := (s.putPkt p).grantFor p (cellsFor p.bytes.length - p.cells.length)
      if r.1 = 0 then r.2.2.putPkt r.2.1
      else
        let p := { r.2.1 with bytes := p.bytes.take (256 * r.2.1.cells.length) }
        (r.2.2.putPkt p).failPacket p r.1

/-! ### The ingress filter (R124) -/

/-- The EtherType after up to two VLAN tags (R124). -/
def etherType (b : List Byte) : Nat :=
  if tagged b then (if isTpid (beAt b 16 2) then beAt b 20 2 else beAt b 16 2) else beAt b 12 2

/-- A MAC control frame (R107). -/
def isMacControl (b : List Byte) : Bool := beAt b 12 2 == 0x8808

/-- The level of a port's broadcast bucket now, in 1/1,250,000,000 packet. -/
def State.bcastLevel (s : State) (q : Nat) : Nat :=
  let x := s.port q
  min (64 * 1250000000) (x.bucket + s.get (O.BCAST_RATE_PPS q) * (s.now - x.bucketAt))

/-- Item 5: a group-addressed frame at the bucket. -/
def State.bcastTake (s : State) (q : Nat) : Nat × State :=
  if s.get (O.BCAST_RATE_PPS q) = 0 then (0, s)
  else
    let l := s.bcastLevel q
    let ok := decide (1250000000 ≤ l)
    let x := s.port q
    (if ok then 0 else 0x0B, s.putPort q { x with bucket := if ok then l - 1250000000 else l, bucketAt := s.now })

/-- Items 2 to 4 of the filter, by the values tile `q / 16` applies now: a fate code, 0 for none, and the host queue of
item 2. -/
def State.judge (s : State) (q : Nat) (b : List Byte) : Nat × Option Nat :=
  let g := fun r => s.getT (q / 16) r
  let dst := beAt b 0 6
  let et := etherType b
  let l2cp := decide (0x0180C2000000 ≤ dst ∧ dst ≤ 0x0180C200000F ∧ dst ≠ 0x0180C2000001)
  let act := g (O.L2CP_ACTION q)
  let allow := (List.range 8).map fun i => s.getT (q / 16) (O.ETHERTYPE_ALLOW q) i
  let group := dst / 2 ^ 40 % 2 == 1
  let nd := decide (dst = 0x333300000001) || decide (dst / 2 ^ 24 = 0x3333FF)
  let refused := g (O.BCAST_POLICY q) == 1 && group &&
    !(if dst = 0xFFFFFFFFFFFF then et == 0x0806 else et == 0x86DD && nd)
  if l2cp && act == 0 then (0x0C, none)
  else if l2cp && act == 1 then (0, some (g (O.L2CP_HOST_QUEUE q)))
  else if allow.any (· != 0) && !allow.contains et then (0x08, none)
  else if refused then (0x09, none)
  else (0, none)

/-- The filter's verdict on a frame: a fate code, 0 for none, and the host queue of item 2. -/
def State.filter (s : State) (q : Nat) (b : List Byte) : Nat × Option Nat × State :=
  let v := s.judge q b
  if !s.flag (O.ADMIN_UP q) then (0x04, none, s)
  else if v.1 = 0 ∧ v.2 = none ∧ beAt b 0 6 / 2 ^ 40 % 2 = 1 then let r := s.bcastTake q; (r.1, none, r.2)
  else (v.1, v.2, s)

/-- A frame the filter refuses gives its cells back and waits for its end, where the first code of R107 is settled. -/
def State.refuseFrame (s : State) (p : Pkt) (code : Nat) : State :=
  ((s.arrivalSub p p.cells.length).returnCells p.cells).putPkt { p with cells := [], bad := code, phase := .arriving }

/-- Run the filter once its 128 bytes are there, or the frame has ended. The frame remembers the epochs it was judged by
(R44). -/
def State.runFilter (s : State) (fid : Nat) : State :=
  match s.pkt? fid with
  | none => s
  | some p =>
    if p.filtered || (p.bytes.length < 128 && !p.ended) || isMacControl p.bytes then s
    else
      let r := s.filter p.inPort p.bytes
      let p := { p with filtered := true, toHost := r.2.1, judged := s.tagsAt p.tile }
      if r.1 = 0 then r.2.2.putPkt p else r.2.2.refuseFrame p r.1

/-! ### MAC control frames (R111, R112, R114) -/

/-- The queues a paused priority stops; 8 is a pause of the whole port. -/
def State.pauseMask (s : State) (q k : Nat) : Nat :=
  if k = 8 then 0xFFFF
  else
    let ps := bitsOf (s.get (O.PFC_PRIORITIES q)) 8
    if ps.head? = some k then s.get (O.PFC_QUEUES_LO q) else if ps.contains k then s.get (O.PFC_QUEUES_HI q) else 0

/-- Show the paused queues. -/
def State.showPause (s : State) (q : Nat) : State :=
  s.set (O.PAUSED_NOW q) ((s.port q).paused.foldl (fun a e => a ||| s.pauseMask q e.1) 0)

/-- Queue bit `n` of port `q` is paused now (R112). -/
def State.pausedQueue (s : State) (q n : Nat) : Bool :=
  decide (n < 16) && (s.port q).paused.any fun e => decide (e.2 ≤ s.now) && bit (s.pauseMask q e.1) n

/-- Start, or end, a pause of a key: it is in force from 100 ns after the frame (R112). -/
def State.setPause (s : State) (q k quanta : Nat) : State :=
  let x := s.port q
  let l := if quanta = 0 then del k x.paused
    else if x.paused.any (·.1 == k) then x.paused else ins ltN k (s.now + ticksOfNs 100) x.paused
  (s.putPort q { x with paused := l }).showPause q

/-- What a MAC control frame does; one the port's mode does not use does nothing (R111, R112, R114). -/
def State.macControl (s : State) (q : Nat) (b : List Byte) : State :=
  let mode := s.get (O.FLOW_CTRL q)
  let op := beAt b 14 2
  if !(s.port q).up then s
  else if mode = 1 ∧ op = 0x0001 then (s.count64 (O.PAUSE_COUNTS q 1)).setPause q 8 (beAt b 16 2)
  else if mode = 2 ∧ op = 0x0101 then
    let ks := (List.range 8).filter fun k => bit (beAt b 16 2) k && bit (s.get (O.PFC_PRIORITIES q)) k
    s.each ks fun s k =>
      let s := s.count64 (O.PFC_COUNTS q 3) 1 k
      if (s.port q).ignored.contains k then s else s.setPause q k (beAt b (18 + 2 * k) 2)
  else s

/-! ### Frames on the receive MAC (R104, R107, R118) -/

/-- A port whose MAC takes frames: UP, or DISABLED (R104). -/
def State.macOpen (s : State) (q : Nat) : Bool := s.isPort q && ((s.port q).up || !s.flag (O.ADMIN_UP q))

/-- A reassembly error discards the open preemptable frame (R118). -/
def State.reassemblyError (s : State) (q : Nat) : State :=
  let x := s.port q
  let s := s.putPort q { x with rxPre := none, rxCount := 0 }
  match x.rxPre.bind s.pkt? with
  | some p => s.failPacket { p with ended := true } 0x0D
  | none => s

/-- A frame opens on port `q` with its first bytes (R107, R269, R287). -/
def State.openFrame (s : State) (q : Nat) (pre : Bool) (bs : List Byte) : State :=
  let fid := s.buf.nextFid
  let t := q / 16
  let p := { Pkt.fresh fid (.port q) t with
    pre := pre, dcIn := s.rxDc q, tsIn := s.rxTime q, stamps := s.rxStamps q, member := s.getT t (O.MEMBER_ID q),
    mono := s.getT t (O.TILE_PROFILE t) == 1 && !s.dispatchesPale t, pale := s.dispatchesPale t }
  let s := (s.openRecord (.port q)).addPkt p
  let x := s.port q
  let s := s.putPort q (if pre then { x with rxPre := some fid, rxCount := 0 } else { x with rxWhole := some fid })
  let s := (s.count64 (O.MAC_COUNTS q 1)).count64 (O.MAC_COUNTS q 2) bs.length
  (s.arrive fid bs).runFilter fid

/-- Bytes that continue a frame: its octets count even when the frame is gone (R107). -/
def State.moreBytes (s : State) (q : Nat) (fid : Option Nat) (bs : List Byte) : State :=
  let s := s.count64 (O.MAC_COUNTS q 2) bs.length
  match fid with
  | none => s
  | some f => (s.arrive f bs).runFilter f

/-- The first code of R107's table that applies to a complete frame. A preemptable frame whose final check fails meets both
0x05 and 0x0D: it takes the code of its own rule, 0x0D (R118; DESIGN CHOICE, log 78). -/
def State.frameCode (s : State) (p : Pkt) (pre rxErr : Bool) : Nat :=
  let n := p.bytes.length
  if n < 64 then 0x01
  else if s.maxFrameOf p < n then 0x02
  else if rxErr then 0x03
  else if !fcsOk p.bytes then (if pre then 0x0D else 0x05)
  else if isMacControl p.bytes then 0x0A
  else p.bad

/-- The end of a frame (R23, R107, R108, R217, R237): charges are corrected, then the frame fails or stands. -/
def State.endFrame (s : State) (fid : Nat) (pre rxErr : Bool) : State :=
  match s.pkt? fid with
  | none => s
  | some p =>
    let s := ((s.linkWritten p.cells.getLast?).putPkt { p with ended := true }).runFilter fid
    match s.pkt? fid with
    | none => s
    | some p =>
      let code := s.frameCode p pre rxErr
      let s := if code = 0x0A then s.macControl p.inPort p.bytes else s
      let s := s.correctAll fid
      if code = 0 then s
      else
        match s.pkt? fid with
        | some p => s.failPacket { p with fcsBad := code == 0x05 || code == 0x0D } code
        | none => s

end Sys2Proof.Machine
end

