-- ==== Sys2Proof/Machine/OchreCode.lean ====
section
/-!
DEFINITION. Sys2Proof/Machine/OchreCode.lean: the 32-bit words of Ochre programs (R134, R135): the decoder, total on every
word, and the encoder, both written from the format table of R134 and the code column of R135.
-/
namespace Sys2Proof.Machine

/-- A working word number at bit `lo` of an instruction word. -/
def wordReg (w lo : Nat) : WReg := Fin.ofNat 16 (w / 2 ^ lo)

/-- The address field of format L (R134). -/
def wordAddr (w : Nat) : WinAddr := ⟨bit w 17, wordReg w 18, BitVec.ofNat 9 w⟩

/-- The instruction a program word holds; `none` for an illegal one: an unused code, condition 11-15, size 3, MFS of a
value above 4, or a reserved field that is not 0 (R134, R135, R137). -/
def ochreDecode (t : Tile) (c : Core) (w : Nat) : Option Instr :=
  let d := wordReg w 22
  let a := wordReg w 18
  let b := wordReg w 14
  let imm : BitVec 16 := BitVec.ofNat 16 w
  let tgt : BitVec 14 := BitVec.ofNat 14 w
  let zero := fun (hi lo : Nat) => bits w hi lo == 0
  let fmtR := zero 13 0
  let fmtI := zero 17 16
  let onlyIf := fun (ok : Bool) (i : Instr) => if ok then some i else none
  match w / 2 ^ 26 with
  | 0x00 => onlyIf (zero 25 0) (.nop t c)
  | 0x01 => onlyIf fmtR (.add t c d a b)
  | 0x02 => onlyIf fmtR (.sub t c d a b)
  | 0x03 => onlyIf fmtR (.and_ t c d a b)
  | 0x04 => onlyIf fmtR (.or_ t c d a b)
  | 0x05 => onlyIf fmtR (.xor_ t c d a b)
  | 0x06 => onlyIf fmtR (.shl t c d a b)
  | 0x07 => onlyIf fmtR (.shr t c d a b)
  | 0x08 => onlyIf (fmtI && zero 21 18) (.movi t c d imm)
  | 0x09 => onlyIf (fmtI && zero 21 18) (.movhi t c d imm)
  | 0x0A => onlyIf fmtI (.addi t c d a imm)
  | 0x0B => onlyIf fmtI (.andi t c d a imm)
  | 0x0C => onlyIf fmtI (.ori t c d a imm)
  | 0x0D => onlyIf fmtI (.xori t c d a imm)
  | 0x0E => onlyIf (zero 17 5) (.shli t c d a (BitVec.ofNat 5 w))
  | 0x0F => onlyIf (zero 17 5) (.shri t c d a (BitVec.ofNat 5 w))
  | 0x10 => onlyIf (zero 7 0) (.ext t c d a (BitVec.ofNat 5 (w / 2 ^ 13)) (BitVec.ofNat 5 (w / 2 ^ 8)))
  | 0x11 => onlyIf (fmtR && zero 25 22) (.cmp t c a b)
  | 0x12 => onlyIf (fmtI && zero 25 22) (.cmpi t c a imm)
  | 0x14 => onlyIf (zero 16 9) (.ldb t c d (wordAddr w))
  | 0x15 => onlyIf (zero 16 9) (.ldh t c d (wordAddr w))
  | 0x16 => onlyIf (zero 16 9) (.ldw t c d (wordAddr w))
  | 0x18 => onlyIf (zero 21 18 && zero 15 6 && bits w 17 16 != 3)
      (.ldc t c d (Fin.ofNat 3 (bits w 17 16)) (BitVec.ofNat 6 w))
  | 0x19 => onlyIf (zero 21 18 && zero 15 6 && bits w 17 16 != 3)
      (.stc t c d (Fin.ofNat 3 (bits w 17 16)) (BitVec.ofNat 6 w))
  | 0x1C => onlyIf (zero 21 14 && decide (bits w 25 22 < 11)) (.bcc t c (Fin.ofNat 11 (bits w 25 22)) tgt)
  | 0x1D => onlyIf (zero 25 14) (.call t c tgt)
  | 0x1E => onlyIf (zero 25 0) (.ret t c)
  | 0x1F => onlyIf (fmtR && zero 25 22 && zero 17 14) (.jr t c a)
  | 0x20 => onlyIf (fmtR && zero 17 14) (.hsy4 t c d a)
  | 0x21 => onlyIf (fmtR && zero 17 14) (.hsy6 t c d a)
  | 0x22 => onlyIf fmtR (.hash t c d a b)
  | 0x24 => onlyIf fmtI (.amb t c d a imm)
  | 0x25 => onlyIf (fmtR && zero 21 14) (.amw t c d)
  | 0x28 => onlyIf (zero 21 4 && decide (bits w 3 0 < 5)) (.mfs t c d (Fin.ofNat 5 (bits w 3 0)))
  | 0x3E => onlyIf (zero 25 3) (.drop t c (BitVec.ofNat 3 w))
  | 0x3F => onlyIf (zero 25 0) (.end_ t c)
  | _ => none

/-- A word with its code and its fields [25:22], [21:18] and [17:0] (R134). -/
def ochreWord (op d a low : Nat) : Nat := op * 2 ^ 26 + d * 2 ^ 22 + a * 2 ^ 18 + low

/-- The low field of format R. -/
def lowB (b : WReg) : Nat := b.val * 2 ^ 14
/-- A load's word: format L. -/
def loadWord (op : Nat) (d : WReg) (x : WinAddr) : Nat :=
  ochreWord op d.val x.a.val ((if x.based then 2 ^ 17 else 0) + x.off.toNat)

/-- The word of an Ochre instruction; `none` for a command that is none. -/
def ochreEncode : Instr → Option Nat
  | .nop _ _ => some 0
  | .add _ _ d a b => some (ochreWord 0x01 d.val a.val (lowB b))
  | .sub _ _ d a b => some (ochreWord 0x02 d.val a.val (lowB b))
  | .and_ _ _ d a b => some (ochreWord 0x03 d.val a.val (lowB b))
  | .or_ _ _ d a b => some (ochreWord 0x04 d.val a.val (lowB b))
  | .xor_ _ _ d a b => some (ochreWord 0x05 d.val a.val (lowB b))
  | .shl _ _ d a b => some (ochreWord 0x06 d.val a.val (lowB b))
  | .shr _ _ d a b => some (ochreWord 0x07 d.val a.val (lowB b))
  | .movi _ _ d imm => some (ochreWord 0x08 d.val 0 imm.toNat)
  | .movhi _ _ d imm => some (ochreWord 0x09 d.val 0 imm.toNat)
  | .addi _ _ d a imm => some (ochreWord 0x0A d.val a.val imm.toNat)
  | .andi _ _ d a imm => some (ochreWord 0x0B d.val a.val imm.toNat)
  | .ori _ _ d a imm => some (ochreWord 0x0C d.val a.val imm.toNat)
  | .xori _ _ d a imm => some (ochreWord 0x0D d.val a.val imm.toNat)
  | .shli _ _ d a n => some (ochreWord 0x0E d.val a.val n.toNat)
  | .shri _ _ d a n => some (ochreWord 0x0F d.val a.val n.toNat)
  | .ext _ _ d a pos lenM1 => some (ochreWord 0x10 d.val a.val (pos.toNat * 2 ^ 13 + lenM1.toNat * 2 ^ 8))
  | .cmp _ _ a b => some (ochreWord 0x11 0 a.val (lowB b))
  | .cmpi _ _ a imm => some (ochreWord 0x12 0 a.val imm.toNat)
  | .ldb _ _ d x => some (loadWord 0x14 d x)
  | .ldh _ _ d x => some (loadWord 0x15 d x)
  | .ldw _ _ d x => some (loadWord 0x16 d x)
  | .ldc _ _ d size off => some (ochreWord 0x18 d.val 0 (size.val * 2 ^ 16 + off.toNat))
  | .stc _ _ d size off => some (ochreWord 0x19 d.val 0 (size.val * 2 ^ 16 + off.toNat))
  | .bcc _ _ cond tgt => some (ochreWord 0x1C cond.val 0 tgt.toNat)
  | .call _ _ tgt => some (ochreWord 0x1D 0 0 tgt.toNat)
  | .ret _ _ => some (ochreWord 0x1E 0 0 0)
  | .jr _ _ a => some (ochreWord 0x1F 0 a.val 0)
  | .hsy4 _ _ d a => some (ochreWord 0x20 d.val a.val 0)
  | .hsy6 _ _ d a => some (ochreWord 0x21 d.val a.val 0)
  | .hash _ _ d a n => some (ochreWord 0x22 d.val a.val (lowB n))
  | .amb _ _ start stop mask => some (ochreWord 0x24 start.val stop.val mask.toNat)
  | .amw _ _ d => some (ochreWord 0x25 d.val 0 0)
  | .mfs _ _ d n => some (ochreWord 0x28 d.val 0 n.val)
  | .drop _ _ code => some (ochreWord 0x3E 0 0 code.toNat)
  | .end_ _ _ => some (ochreWord 0x3F 0 0 0)
  | _ => none

end Sys2Proof.Machine
end

