-- ==== Sys2Proof/Machine/Ochre.lean ====
section
/-!
DEFINITION. Sys2Proof/Machine/Ochre.lean: the parse stage of a tile (R127-R153): dispatch, the pre-decoder, the Ochre
cores and their instructions, exceptions, the budget, the ROM program, the Amber matcher, the hand-off.
-/
namespace Sys2Proof.Machine

/-! ### Flow hashes (R150, R151) -/

/-- One word's part of `mix`: the hash so far turned left by 5 bits, and the word (R151). -/
def mixWord (h k : Nat) : Nat := (h * 32 % 2 ^ 32 + h / 2 ^ 27) ^^^ k

/-- `mix` of R151. -/
def mix (seed : Nat) (ks : List Nat) : Nat :=
  let h := ks.foldl mixWord seed
  let h := h * 0x9E3779B1 % 2 ^ 32
  h ^^^ (h / 2 ^ 15)

/-- The ordering of HSY4 and HSY6: lower address, higher address, port word (R151). -/
def endpoints (sa da pw : Nat) (f : Bool) : Nat × Nat × Nat :=
  let sp := if f then 0 else pw / 2 ^ 16
  let dp := if f then 0 else pw % 2 ^ 16
  if sa < da ∨ (sa = da ∧ sp ≤ dp) then (sa, da, sp * 2 ^ 16 + dp) else (da, sa, dp * 2 ^ 16 + sp)

/-- The four words of a 128-bit number, most significant first. -/
def words4 (n : Nat) : List Nat := [n / 2 ^ 96 % 2 ^ 32, n / 2 ^ 64 % 2 ^ 32, n / 2 ^ 32 % 2 ^ 32, n % 2 ^ 32]

def hsy4 (seed sa da pw pr : Nat) (f : Bool) : Nat :=
  let e := endpoints sa da pw f
  mix seed [e.1, e.2.1, e.2.2, pr % 256 * 2 ^ 24]

def hsy6 (seed sa da pw pr : Nat) (f : Bool) : Nat :=
  let e := endpoints sa da pw f
  mix seed (words4 e.1 ++ words4 e.2.1 ++ [e.2.2, pr % 256 * 2 ^ 24])

/-! ### The header window (R130, R131, R133) -/

/-- A byte of the frame: `none` while it has not arrived; 0 beyond a known end. -/
def Pkt.byte? (p : Pkt) (i : Nat) : Option Nat :=
  if i < p.bytes.length then some (byteAt p.bytes i) else if p.ended then some 0 else none

/-- `n` bytes in network order, reading each with `rd`. -/
def readBytes (rd : Nat → Option Nat) (i : Nat) : Nat → Option Nat
  | 0 => some 0
  | n + 1 => do
    let hi ← rd i
    let lo ← readBytes rd (i + 1) n
    pure (hi * 256 ^ n + lo)

/-- What the pre-decoder finds: offset of the outer IP header (0 none), F, the fragment horizon. -/
structure Walk where
  ip      : Nat
  f       : Bool
  horizon : Nat
deriving DecidableEq, Repr

/-- The walk over up to `fuel` IPv6 extension headers; one counts while its first eight bytes lie in the window. -/
def walkV6 (rd : Nat → Option Nat) (ip : Nat) : Nat → Nat → Nat → Option Walk
  | 0, _, _ => some ⟨ip, false, 0⟩
  | fuel + 1, nh, at_ =>
    if 512 < at_ + 8 then some ⟨ip, false, 0⟩
    else if nh = 44 then some ⟨ip, true, at_ + 8⟩
    else if nh = 0 ∨ nh = 43 ∨ nh = 60 then do
      let next ← rd at_
      let len ← rd (at_ + 1)
      walkV6 rd ip fuel next (at_ + (len + 1) * 8)
    else some ⟨ip, false, 0⟩

/-- The pre-decoder (R130); `none` while a byte it needs has not arrived. -/
def preDecode (rd : Nat → Option Nat) : Option Walk := do
  let t0 ← readBytes rd 12 2
  let o := if isTpid t0 then 16 else 12
  let t1 ← readBytes rd o 2
  let o := if isTpid t0 && isTpid t1 then 20 else o
  let et ← readBytes rd o 2
  let ip := o + 2
  if et = 0x0800 then do
    let v ← rd ip
    let fr ← readBytes rd (ip + 6) 2
    let f := decide (fr % 0x4000 ≠ 0)
    pure ⟨ip, f, if f then ip + 4 * (v % 16) else 0⟩
  else if et = 0x86DD then do
    let nh ← rd (ip + 6)
    walkV6 rd ip 4 nh (ip + 40)
  else pure ⟨0, false, 0⟩

/-- A window byte as the core reads it: 0 at or beyond the fragment horizon while F is set (R131). -/
def windowByte (p : Pkt) (x : CoreX) (i : Nat) : Option Nat :=
  if x.f && decide (x.horizon ≤ i) then some 0 else p.byte? i

/-! ### Packet contexts (R133) -/

/-- The dispatcher's context bytes 0-5 (R133). -/
def dispatchCtx (p : Pkt) : List Byte :=
  beBytes 2 p.inPort ++ beBytes 2 p.member ++ [nb (2 * b01 p.pale), nb (p.tile + 32 * b01 p.mono)] ++ zeros 58

/-- The walk's results in the context. -/
def walkCtx (ctx : List Byte) (w : Walk) : List Byte :=
  patch (patch ctx 4 [nb (byteAt ctx 4 / 2 * 2 + b01 w.f)]) 6 (beBytes 2 w.ip)

/-- The ROM program's context bytes 8-31 (R142); bytes 12-15 and 32-63 are zero. The rule does not say what stands for
the protocol where an IPv6 packet has extension headers: the model takes the fixed header's Next Header and looks for
ports at the end of the fixed header alone (DESIGN CHOICE, log 119). -/
def romCtx (p : Pkt) (x : CoreX) (seed : Nat) : List Byte :=
  let rd := fun i n => ((readBytes (windowByte p x) i n).getD 0)
  let t0 := isTpid (rd 12 2)
  let o := if t0 then (if isTpid (rd 16 2) then 20 else 16) else 12
  let ip := o + 2
  let et := rd o 2
  let ports := fun pr => pr == 6 || pr == 17 || pr == 132
  let hash :=
    if et = 0x0800 then
      let pr := rd (ip + 9) 1
      hsy4 seed (rd (ip + 12) 4) (rd (ip + 16) 4)
        (if ports pr && !x.f then rd (ip + 4 * (rd ip 1 % 16)) 4 else 0) pr x.f
    else if et = 0x86DD then
      let pr := rd (ip + 6) 1
      hsy6 seed (rd (ip + 8) 16) (rd (ip + 24) 16) (if ports pr && !x.f then rd (ip + 40) 4 else 0) pr x.f
    else 0
  beBytes 4 hash ++ zeros 4 ++ beBytes 6 (rd 0 6) ++ beBytes 6 (rd 6 6) ++
    beBytes 2 (if t0 then rd 14 2 % 4096 else 0) ++ beBytes 2 et ++ zeros 32

/-- The ROM program's cycles: 12 for an untagged frame that is not IP, 30 for two tags and an IPv6 header whose ports it
reads (R141); the manual gives no number between, so that is a free value from 12 to 30 (log 4). -/
def State.romCycles (s : State) (p : Pkt) (x : CoreX) : Nat × State :=
  let rd := fun i n => ((readBytes (windowByte p x) i n).getD 0)
  let et := rd 12 2
  let two := isTpid et && isTpid (rd 16 2)
  let pr := rd 28 1
  if !isTpid et ∧ et ≠ 0x0800 ∧ et ≠ 0x86DD then (12, s)
  else if two ∧ rd 20 2 = 0x86DD ∧ !x.f ∧ (pr = 6 ∨ pr = 17 ∨ pr = 132) then (30, s)
  else let d := s.draw 16; (12 + d.1 % 19, d.2)

/-! ### The end of a packet's parse (R129, R138, R143, R153) -/

/-- A core's packet is discarded. -/
def State.parseDiscard (s : State) (t c : Nat) (p : Pkt) (x : CoreX) (code : Nat) : State :=
  (s.putCore t c x).discardArrival p code

/-- The oldest frame of port `q` that has not entered the match stages (R21): frames that the ingress filter refused, and
MAC control frames, hold back none. -/
def State.matchHead (s : State) (q : Nat) : Option Pkt :=
  s.buf.pkts.find? fun p => p.src == .port q && !p.enq && p.phase != .matched && p.bad == 0 && !isMacControl p.bytes

/-- The packet is the next of its port to enter the match stages (R21). -/
def State.isNext (s : State) (p : Pkt) : Bool := (s.matchHead p.inPort).map (·.fid) == some p.fid

/-- The reorder buffer of tile `t` has room for a context (R129): fewer than 256 wait. With 256 that all wait for earlier
packets of their ports, none of them could ever leave: then, and only then, the next packet of its port passes (R21,
log 86). -/
def State.reorderRoom (s : State) (t : Nat) (p : Pkt) : Bool :=
  let held := (s.tile t).reorder
  decide (held.length < 256) || (s.isNext p && !held.any fun f => ((s.pkt? f).map s.isNext).getD false)

/-- Hand a context to the reorder buffer, or wait for room with what the program made of it (R129). -/
def State.handOff (s : State) (t c : Nat) (p : Pkt) (x : CoreX) : State :=
  let y := s.tile t
  if !s.reorderRoom t p then (s.putPkt p).putCore t c { x with ended := true }
  else
    let s := (s.parseEnd t p x).count64 (O.PARSE_COUNTS t 2)
    ((s.putTile t { y with reorder := y.reorder ++ [p.fid] }).freeCore t c).putPkt { p with phase := .reorder }

/-- The ROM program runs (R141, R142); `mark` is what it sets of context bits 4[2:1]. -/
def State.runRom (s : State) (t c : Nat) (p : Pkt) (x : CoreX) (mark : Nat) : State :=
  let ctx := p.ctx.take 8 ++ romCtx p x (s.getP p.applied (O.HASH_SEED t))
  let ctx := patch ctx 4 [nb (byteAt ctx 4 % 2 + mark)]
  let r := s.romCycles p x
  r.2.handOff t c { p with ctx := ctx, dflt := true } { x with rom := true, romCyc := r.1 }

/-- A packet ends with an exception (R137). -/
def State.exception (s : State) (t c : Nat) (p : Pkt) (x : CoreX) (kind : Nat) : State :=
  let blob := leBytes 2 x.pc ++ [nb kind, nb c] ++ leBytes 2 p.inPort ++ zeros 2
  let s := (s.count64 (O.EXCEPTION_KINDS t) 1 kind).count64 (O.PARSE_COUNTS t 5)
  let s := s.count64 (O.PORT_PARSE_COUNTS p.inPort 3)
  let s := (s.setAll (O.LAST_EXCEPTION t) (blob.map bn)).report (0x200 + t) (unitId 2 t) (detailS blob)
  s.parseDiscard t c p x 0x13

/-! ### Dispatch (R127, R128, R130) -/

/-- The pre-decoder has walked, or waits for a byte; with the walk done, the program may issue, and a Pale packet's ROM
program runs. -/
def State.walk (s : State) (t c : Nat) (p : Pkt) (x : CoreX) : State :=
  match preDecode p.byte? with
  | none => (s.putPkt p).putCore t c { x with walking := true }
  | some w =>
    let p := { p with ctx := walkCtx p.ctx w, seenF := w.f }
    let x := { x with walking := false, f := w.f, horizon := w.horizon }
    let s := if w.f then s.count64 (O.PARSE_COUNTS t 12) else s
    if p.pale then s.runRom t c p x 2 else (s.putPkt p).putCore t c x

/-- The lowest-numbered free core (R128). -/
def State.nextCore (s : State) (t : Nat) : Option Nat := firstFrom (fun c => (s.core? t c).isNone) 0 128

/-- A core as dispatch sets it up (R128), its program counter of 14 bits (R132). -/
def CoreX.fresh (fid entry : Nat) : CoreX :=
  { fid := fid, w := List.replicate 16 0, pc := entry % 2 ^ 14, stack := [], z := false, c := false, a := false, f := false,
    horizon := 0, charged := 0, stalls := 0, qstalls := 0, scan := none, ended := false, rom := false, overrun := false,
    romCyc := 0, walking := false, stalled := false }

/-- The oldest frame of port `q`'s express or preemptable path whose dispatch point is reached (R127). -/
def State.atDispatchPoint (s : State) (q : Nat) (pre : Bool) : Option Pkt :=
  s.buf.pkts.find? fun p => p.src == .port q && p.pre == pre && p.phase == .arriving && p.filtered && p.bad == 0 &&
    !p.enq && (p.ended || decide (256 ≤ p.bytes.length)) && !isMacControl p.bytes

/-- DISPATCH_POINT (R127). -/
def execDispatchPoint (p : Port) (preemptable : Bool) (s : State) : Out := live s fun s =>
  match s.atDispatchPoint p preemptable with
  | none => s
  | some k =>
    let t := k.tile
    let y := s.tile t
    if 128 ≤ y.dq.length then
      ((s.count64 (O.PARSE_COUNTS t 3)).count64 (O.PORT_PARSE_COUNTS p 1)).discardArrival k 0x12
    else (s.putTile t { y with dq := y.dq ++ [k.fid] }).putPkt { k with phase := .queued }

/-- A tile's boundary fell between a frame's filter and its dispatch: what the filter says of it by the set it is dispatched
under, so that it sees no other (R44, R124; DEDUCED, log 124). The bucket is not asked again. -/
def State.rejudge (s : State) (p : Pkt) : Nat × Option Nat :=
  if p.judged = s.tagsAt p.tile then (0, p.toHost) else s.judge p.inPort p.bytes

/-- CORE_DISPATCH (R128, R130, R133): the dispatch cycle of a free core. -/
def execCoreDispatch (t : Tile) (s : State) : Out := live s fun s =>
  let y := s.tile t
  match s.nextCore t, y.dq with
  | some c, fid :: rest =>
    match s.pkt? fid with
    | none => s
    | some p =>
      let tags := s.tagsAt t
      let pale := s.dispatchesPale t
      let p := { p with
        phase := .parsing, pale := pale, dflt := pale, applied := tags,
        mono := s.getT t (O.TILE_PROFILE t) == 1 && !pale, member := s.getT t (O.MEMBER_ID p.inPort) }
      let v := s.rejudge p
      let s := s.putTile t { y with dq := rest }
      if v.1 ≠ 0 then if p.ended then s.failPacket p v.1 else s.refuseFrame p v.1
      else
      let p := { p with toHost := v.2 }
      let s := s.count64 (O.PARSE_COUNTS t 1)
      s.walk t c { p with ctx := dispatchCtx p } (CoreX.fresh fid (s.getP tags (O.ENTRY_POINT t)))
  | _, _ => s

/-- ARRIVAL_STALL_END (R130, R133, R138): further bytes of the frame arrive; the cycles waited are stall cycles, and the
walk or the instruction goes on. -/
def execArrivalStallEnd (t : Tile) (c : Core) (bytes : List Byte) (cycles : BitVec 16) (s : State) : Out :=
  live s fun s =>
    match s.core? t c with
    | none => s
    | some x =>
      if !(x.walking || x.stalled) then s
      else
        let s := s.putCore t c { x with stalls := x.stalls + cycles.toNat, stalled := false }
        let s := match s.pkt? x.fid with
          | some p => if p.ended then s else s.moreBytes p.inPort (some x.fid) bytes
          | none => s
        match s.core? t c, s.pkt? x.fid with
        | some x, some p => if x.walking then s.walk t c p x else s
        | _, _ => s

/-! ### Issue (R137, R138, R140, R141) -/

/-- What an instruction does when it issues: wait for bytes; wait for a scan's result; raise an exception; change the
core and the context at a charge, with an effect outside them; or end the packet, handing off or discarding. -/
inductive Issue where
  | wait
  | hold
  | exc (kind : Nat)
  | ok (x : CoreX) (ctx : List Byte) (cost : Nat) (fx : State → State)
  | fin (drop : Option Nat)

/-- The budget of a packet (R141). -/
def State.budget (s : State) (t : Nat) (p : Pkt) : Nat :=
  if p.mono then 96 else s.getP p.applied (O.PARSE_BUDGET t)

/-- An instruction's charge reaches the budget: the core stops, the instruction writes nothing, a scan is cancelled
(R141). -/
def CoreX.stop (x : CoreX) (budget : Nat) : CoreX := { x with charged := budget, overrun := true, scan := none }

/-- Carry out what an instruction does. -/
def State.carry (s : State) (t c : Nat) (p : Pkt) (x : CoreX) (r : Issue) : State :=
  let b := s.budget t p
  match r with
  | .wait => s.putCore t c { x with stalled := true }
  | .hold => s
  | .exc k => s.exception t c p x k
  | .ok y ctx cost fx =>
    if b ≤ x.charged + cost then s.putCore t c (x.stop b)
    else fx ((s.putPkt { p with ctx := ctx }).putCore t c { y with charged := x.charged + cost })
  | .fin d =>
    if b ≤ x.charged + 1 then s.putCore t c (x.stop b)
    else
      let x := { x with charged := x.charged + 1 }
      match d with
      | none => s.handOff t c p x
      | some k =>
        let s := (s.count64 (O.PARSE_COUNTS t 6)).count64 (O.PORT_PARSE_COUNTS p.inPort 4)
        s.parseDiscard t c p x (0x18 + k)

/-- A core that can issue now. -/
def CoreX.ready (x : CoreX) : Bool := !(x.walking || x.ended || x.rom || x.overrun || x.stalled)

/-- Core `c` of tile `t` fetches the word at its program counter and issues it (R139, R140). Where the word holds another
instruction than the one commanded, that instruction does not issue (log 6). -/
def State.issue (s : State) (t : Tile) (c : Core) (i : Instr) (f : Pkt → CoreX → Issue) : State :=
  match s.core? t c with
  | none => s
  | some x =>
    match s.pkt? x.fid with
    | none => s
    | some p =>
      if !x.ready then s
      else if s.getP p.applied (O.PROGRAM_LENGTH t) ≤ x.pc then s.exception t c p x 5
      else
        let r := s.readWord (0x220 + t) (0x240 + t) (unitId 2 t) (unitId 2 t) x.pc 1
        if r.1 then r.2.parseDiscard t c p x 0xC1
        else
          match ochreDecode t c (s.get (O.PROGRAM t) x.pc) with
          | none => r.2.exception t c p x 1
          | some j => if i = j then r.2.carry t c p x (f p x) else s

/-! ### Registers -/

def CoreX.reg (x : CoreX) (r : WReg) : Nat := x.w.getD r.val 0
/-- Words w[a] … w[a + n - 1]. -/
def CoreX.regs (x : CoreX) (a n : Nat) : List Nat := (List.range n).map fun i => x.w.getD (a + i) 0
def CoreX.setReg (x : CoreX) (r : WReg) (v : Nat) : CoreX := { x with w := x.w.set r.val (v % 2 ^ 32) }
/-- The next instruction. -/
def CoreX.next (x : CoreX) : CoreX := { x with pc := (x.pc + 1) % 2 ^ 14 }

/-- An instruction that writes one word at a charge. -/
def wr (p : Pkt) (x : CoreX) (d : WReg) (v cost : Nat) : Issue := .ok ((x.setReg d v).next) p.ctx cost id

/-- A shift by the low five bits of an amount; modulo 2^32 (R132, R135). -/
def shlW (a n : Nat) : Nat := a * 2 ^ (n % 32) % 2 ^ 32
def shrW (a n : Nat) : Nat := a / 2 ^ (n % 32)

/-- A window load of `n` bytes (R131, R133). -/
def loadW (p : Pkt) (x : CoreX) (d : WReg) (addr : WinAddr) (n : Nat) : Issue :=
  let a := (if addr.based then x.reg addr.a else 0) + addr.off.toNat
  if 512 < a + n then .exc 2
  else match readBytes (windowByte p x) a n with
    | none => .wait
    | some v => wr p x d v 1

/-! ### Instructions (R135) -/

/-- NOP. -/
def execNop (t : Tile) (c : Core) (s : State) : Out := live s fun s =>
  s.issue t c (.nop t c) fun p x => .ok x.next p.ctx 1 id

/-- ADD. -/
def execAdd (t : Tile) (c : Core) (d a b : WReg) (s : State) : Out := live s fun s =>
  s.issue t c (.add t c d a b) fun p x => wr p x d (x.reg a + x.reg b) 1

/-- SUB. -/
def execSub (t : Tile) (c : Core) (d a b : WReg) (s : State) : Out := live s fun s =>
  s.issue t c (.sub t c d a b) fun p x => wr p x d (x.reg a + 2 ^ 32 - x.reg b) 1

/-- AND. -/
def execAnd (t : Tile) (c : Core) (d a b : WReg) (s : State) : Out := live s fun s =>
  s.issue t c (.and_ t c d a b) fun p x => wr p x d (x.reg a &&& x.reg b) 1

/-- OR. -/
def execOr (t : Tile) (c : Core) (d a b : WReg) (s : State) : Out := live s fun s =>
  s.issue t c (.or_ t c d a b) fun p x => wr p x d (x.reg a ||| x.reg b) 1

/-- XOR. -/
def execXor (t : Tile) (c : Core) (d a b : WReg) (s : State) : Out := live s fun s =>
  s.issue t c (.xor_ t c d a b) fun p x => wr p x d (x.reg a ^^^ x.reg b) 1

/-- SHL by wb[4:0]. -/
def execShl (t : Tile) (c : Core) (d a b : WReg) (s : State) : Out := live s fun s =>
  s.issue t c (.shl t c d a b) fun p x => wr p x d (shlW (x.reg a) (x.reg b)) 1

/-- SHR by wb[4:0]. -/
def execShr (t : Tile) (c : Core) (d a b : WReg) (s : State) : Out := live s fun s =>
  s.issue t c (.shr t c d a b) fun p x => wr p x d (shrW (x.reg a) (x.reg b)) 1

/-- MOVI. -/
def execMovi (t : Tile) (c : Core) (d : WReg) (imm : BitVec 16) (s : State) : Out := live s fun s =>
  s.issue t c (.movi t c d imm) fun p x => wr p x d imm.toNat 1

/-- MOVHI: the low half is kept. -/
def execMovhi (t : Tile) (c : Core) (d : WReg) (imm : BitVec 16) (s : State) : Out := live s fun s =>
  s.issue t c (.movhi t c d imm) fun p x => wr p x d (imm.toNat * 2 ^ 16 + x.reg d % 2 ^ 16) 1

/-- ADDI. -/
def execAddi (t : Tile) (c : Core) (d a : WReg) (imm : BitVec 16) (s : State) : Out := live s fun s =>
  s.issue t c (.addi t c d a imm) fun p x => wr p x d (x.reg a + imm.toNat) 1

/-- ANDI. -/
def execAndi (t : Tile) (c : Core) (d a : WReg) (imm : BitVec 16) (s : State) : Out := live s fun s =>
  s.issue t c (.andi t c d a imm) fun p x => wr p x d (x.reg a &&& imm.toNat) 1

/-- ORI. -/
def execOri (t : Tile) (c : Core) (d a : WReg) (imm : BitVec 16) (s : State) : Out := live s fun s =>
  s.issue t c (.ori t c d a imm) fun p x => wr p x d (x.reg a ||| imm.toNat) 1

/-- XORI. -/
def execXori (t : Tile) (c : Core) (d a : WReg) (imm : BitVec 16) (s : State) : Out := live s fun s =>
  s.issue t c (.xori t c d a imm) fun p x => wr p x d (x.reg a ^^^ imm.toNat) 1

/-- SHLI. -/
def execShli (t : Tile) (c : Core) (d a : WReg) (amount : BitVec 5) (s : State) : Out := live s fun s =>
  s.issue t c (.shli t c d a amount) fun p x => wr p x d (shlW (x.reg a) amount.toNat) 1

/-- SHRI. -/
def execShri (t : Tile) (c : Core) (d a : WReg) (amount : BitVec 5) (s : State) : Out := live s fun s =>
  s.issue t c (.shri t c d a amount) fun p x => wr p x d (shrW (x.reg a) amount.toNat) 1

/-- EXT: `len` bits from `pos`. -/
def execExt (t : Tile) (c : Core) (d a : WReg) (pos lenM1 : BitVec 5) (s : State) : Out := live s fun s =>
  s.issue t c (.ext t c d a pos lenM1) fun p x =>
    wr p x d (x.reg a / 2 ^ pos.toNat % 2 ^ (lenM1.toNat + 1)) 1

/-- CMP. -/
def execCmp (t : Tile) (c : Core) (a b : WReg) (s : State) : Out := live s fun s =>
  s.issue t c (.cmp t c a b) fun p x => .ok (x.compare (x.reg a) (x.reg b)).next p.ctx 1 id

/-- CMPI. -/
def execCmpi (t : Tile) (c : Core) (a : WReg) (imm : BitVec 16) (s : State) : Out := live s fun s =>
  s.issue t c (.cmpi t c a imm) fun p x => .ok (x.compare (x.reg a) imm.toNat).next p.ctx 1 id

/-- LDB. -/
def execLdb (t : Tile) (c : Core) (d : WReg) (addr : WinAddr) (s : State) : Out := live s fun s =>
  s.issue t c (.ldb t c d addr) fun p x => loadW p x d addr 1

/-- LDH. -/
def execLdh (t : Tile) (c : Core) (d : WReg) (addr : WinAddr) (s : State) : Out := live s fun s =>
  s.issue t c (.ldh t c d addr) fun p x => loadW p x d addr 2

/-- LDW. -/
def execLdw (t : Tile) (c : Core) (d : WReg) (addr : WinAddr) (s : State) : Out := live s fun s =>
  s.issue t c (.ldw t c d addr) fun p x => loadW p x d addr 4

/-- LDC: context bytes in network order (R133). -/
def execLdc (t : Tile) (c : Core) (d : WReg) (size : Fin 3) (off : BitVec 6) (s : State) : Out := live s fun s =>
  s.issue t c (.ldc t c d size off) fun p x =>
    let n := 2 ^ size.val
    if 64 < off.toNat + n then .exc 3 else wr p x d (beAt p.ctx off.toNat n) 1

/-- STC: bytes 0-7 are the dispatcher's (R135). -/
def execStc (t : Tile) (c : Core) (r : WReg) (size : Fin 3) (off : BitVec 6) (s : State) : Out := live s fun s =>
  s.issue t c (.stc t c r size off) fun p x =>
    let n := 2 ^ size.val
    if 64 < off.toNat + n ∨ off.toNat < 8 then .exc 3
    else .ok x.next (patch p.ctx off.toNat (beBytes n (x.reg r))) 1 id

/-- Bcc (R136). -/
def execBcc (t : Tile) (c : Core) (cond : CondCode) (target : BitVec 14) (s : State) : Out := live s fun s =>
  s.issue t c (.bcc t c cond target) fun p x =>
    if x.holds cond then .ok { x with pc := target.toNat } p.ctx 2 id else .ok x.next p.ctx 1 id

/-- CALL. -/
def execCall (t : Tile) (c : Core) (target : BitVec 14) (s : State) : Out := live s fun s =>
  s.issue t c (.call t c target) fun p x =>
    if 4 ≤ x.stack.length then .exc 4
    else .ok { x with pc := target.toNat, stack := (x.pc + 1) % 2 ^ 14 :: x.stack } p.ctx 2 id

/-- RET. -/
def execRet (t : Tile) (c : Core) (s : State) : Out := live s fun s =>
  s.issue t c (.ret t c) fun p x =>
    match x.stack with
    | [] => .exc 4
    | a :: r => .ok { x with pc := a, stack := r } p.ctx 2 id

/-- JR. -/
def execJr (t : Tile) (c : Core) (a : WReg) (s : State) : Out := live s fun s =>
  s.issue t c (.jr t c a) fun p x => .ok { x with pc := x.reg a % 2 ^ 14 } p.ctx 2 id

/-- HSY4 (R151). -/
def execHsy4 (t : Tile) (c : Core) (d a : WReg) (s : State) : Out := live s fun s =>
  s.issue t c (.hsy4 t c d a) fun p x =>
    if 15 < a.val + 3 then .exc 7
    else
      let k := fun i => x.w.getD (a.val + i) 0
      wr p x d (hsy4 (s.getP p.applied (O.HASH_SEED t)) (k 0) (k 1) (k 2) (k 3) x.f) 3

/-- HSY6 (R151). -/
def execHsy6 (t : Tile) (c : Core) (d a : WReg) (s : State) : Out := live s fun s =>
  s.issue t c (.hsy6 t c d a) fun p x =>
    if 15 < a.val + 9 then .exc 7
    else
      let k := fun i => x.w.getD (a.val + i) 0
      let wide := fun i => ((k i * 2 ^ 32 + k (i + 1)) * 2 ^ 32 + k (i + 2)) * 2 ^ 32 + k (i + 3)
      wr p x d (hsy6 (s.getP p.applied (O.HASH_SEED t)) (wide 0) (wide 4) (k 8) (k 9) x.f) 5

/-- HASH (R151): 1 + ceil(n / 4) cycles. -/
def execHash (t : Tile) (c : Core) (d a nM1 : WReg) (s : State) : Out := live s fun s =>
  s.issue t c (.hash t c d a nM1) fun p x =>
    let n := nM1.val + 1
    if 15 < a.val + nM1.val then .exc 7
    else wr p x d (mix (s.getP p.applied (O.HASH_SEED t)) (x.regs a.val n)) (1 + (n + 3) / 4)

/-! ### Amber (R144-R149) -/

/-- The profile's limit (R147). -/
def amberLimit (p : Pkt) : Nat := if p.mono then 128 else 512

/-- The end of a scan: w[end], the profile limit, and the frame's length once it is known. -/
def Scan.endIn (n : Scan) (p : Pkt) : Nat :=
  let e := min n.stop (amberLimit p)
  if p.ended then min e p.bytes.length else e

/-- Bit 29 of the result (R146): the profile limit is the least of the three values that end the range. While the
frame's end is not known the limit counts as less than it, and where the two are equal the bit is 0 (DESIGN CHOICE, log
121). -/
def Scan.clipped (n : Scan) (p : Pkt) : Nat :=
  b01 (n.clip && (!p.ended || decide (amberLimit p < p.bytes.length))) * 2 ^ 29

/-- L of R147 for a scan whose range has arrived. -/
def Scan.latency (n : Scan) (p : Pkt) : Nat :=
  let len := n.endIn p - n.start
  if len = 0 then 2 else 7 + (len + 63) / 64

/-- AMB (R147): with F set, or an empty range, there is no scan and the result, no hit, takes two cycles. -/
def execAmb (t : Tile) (c : Core) (start stop : WReg) (mask : BitVec 16) (s : State) : Out := live s fun s =>
  s.issue t c (.amb t c start stop mask) fun p x =>
    if x.scan.isSome then .exc 6
    else
      let n : Scan := ⟨x.reg start, x.reg stop, mask.toNat, decide (amberLimit p < x.reg stop), x.charged, 2, 0, true⟩
      let none_ := x.f || decide (n.endIn p ≤ n.start)
      let n := if none_ then { n with result := n.clipped p } else { n with lat := 0, ready := false }
      .ok { x.next with scan := some n } p.ctx 1 fun s => s.count64 (O.PARSE_COUNTS t 10)

/-- The bytes of a scan's range have arrived (R147). -/
def Scan.arrived (n : Scan) (p : Pkt) : Bool := p.ended || decide (n.endIn p ≤ p.bytes.length)

/-- AMW (R135, R138): it waits for the result; with its AMB it is charged the latency L, less what was charged in between,
at least 1. The charge is counted in charged cycles, so that it does not depend on arrival (R141, log 15); where it reaches
the budget the core stops while the scan runs, and the scan is cancelled. -/
def execAmw (t : Tile) (c : Core) (d : WReg) (s : State) : Out := live s fun s =>
  s.issue t c (.amw t c d) fun p x =>
    match x.scan with
    | none => .exc 6
    | some n =>
      let cost := max 1 (n.at_ + (if n.ready then n.lat else n.latency p) - x.charged)
      if !n.ready && !n.arrived p then .wait
      else if !n.ready && decide (x.charged + cost < s.budget t p) then .hold
      else .ok { (x.setReg d n.result).next with a := bit n.result 31, scan := none } p.ctx cost id

/-- One pattern row (R144). -/
structure Pattern where
  row    : Nat
  bytes  : List Byte
  care   : Nat
  len    : Nat
  flags  : Nat
  offset : Nat
  group  : Nat
deriving DecidableEq, Repr

def patternOf (row v : Nat) : Pattern :=
  let b := leBytes 80 v
  ⟨row, b.take 64, leAt b 64 8, byteAt b 72, byteAt b 73, leAt b 74 2, byteAt b 76⟩

/-- An enabled row whose group is in the mask. A length of 0 or above 64 and a group above 15, which R144 does not name,
are stored and their row is never considered (DESIGN CHOICE, log 120). -/
def Pattern.considered (a : Pattern) (mask : Nat) : Bool :=
  decide (1 ≤ a.len) && decide (a.len ≤ 64) && bit a.flags 3 && decide (a.group < 16) && bit mask a.group

/-- Bytes that compare equal, with case folding of letters (R145). -/
def sameByte (fold : Bool) (x y : Nat) : Bool :=
  let letter := fun n => (0x41 ≤ n && n ≤ 0x5A) || (0x61 ≤ n && n ≤ 0x7A)
  x == y || (fold && letter x && letter y && x % 32 == y % 32)

/-- The row matches at window position `q` (R145). -/
def Pattern.matchesAt (a : Pattern) (p : Pkt) (start stop q : Nat) : Bool :=
  let anchor := a.flags % 4
  decide (start ≤ q) && decide (q + a.len ≤ stop) &&
  (anchor == 0 || (anchor == 1 && q == start) || (anchor == 2 && q == a.offset) || (anchor == 3 && q + a.len == stop)) &&
  (List.range a.len).all fun i => bit a.care i || sameByte (bit a.flags 2) (byteAt a.bytes i) (byteAt p.bytes (q + i))

/-- The lowest position at which a row matches. -/
def Pattern.first (a : Pattern) (p : Pkt) (start stop : Nat) : Option Nat :=
  firstFrom (a.matchesAt p start stop) start (stop - start)

/-- The rows of an image, rising. -/
def State.patterns (s : State) (t image : Nat) : List Pattern :=
  let r := if image = 0 then O.AMBER_IMAGE_0 t else O.AMBER_IMAGE_1 t
  (s.dict.objs.filter fun e => e.1.ref == r).map fun e => patternOf e.1.el e.2

/-- The result word of a scan and the group of its row (R145, R146, R149): uncorrectable rows are skipped. -/
def State.amberScan (s : State) (t : Nat) (p : Pkt) (n : Scan) : Nat × Option Nat × State :=
  let image := s.getP p.applied (O.AMBER_IMAGE t)
  let stop := n.endIn p
  let rows := (s.patterns t image).filter fun a => a.considered n.mask
  let r := rows.foldl (fun (acc : Bool × Option (Pattern × Nat) × State) a =>
    let w := acc.2.2.readWord (0x260 + t) (0x280 + t) (unitId 2 t) (unitId 2 t) (image * 4096 + a.row) 1
    if w.1 then (true, acc.2.1, w.2)
    else match acc.2.1 with
      | some h => (acc.1, some h, w.2)
      | none => (acc.1, (a.first p n.start stop).map fun q => (a, q), w.2)) (false, none, s)
  let flags := b01 r.1 * 2 ^ 30 + n.clipped p
  match r.2.1 with
  | none => (flags, none, r.2.2)
  | some (a, q) => (2 ^ 31 + flags + (q + a.len) * 2 ^ 16 + a.row, some a.group, r.2.2)

/-- AMBER_SCAN_DONE (R147, R148): the result is ready L cycles after its range has arrived, and after its engine queue
wait. -/
def execAmberScanDone (t : Tile) (c : Core) (queueStall : BitVec 16) (s : State) : Out := live s fun s =>
  match s.core? t c with
  | none => s
  | some x =>
    match x.scan, s.pkt? x.fid with
    | some n, some p =>
      if n.ready || !n.arrived p then s
      else
        let len := n.endIn p - n.start
        let r := if len = 0 then (n.clipped p, none, s) else s.amberScan t p n
        let n := { n with ready := true, result := r.1, lat := n.latency p }
        let s := r.2.2.putCore t c { x with scan := some n, qstalls := x.qstalls + queueStall.toNat }
        match r.2.1 with
        | some g => s.count64 (O.AMBER_GROUP_HITS t) 1 g
        | none => s
    | _, _ => s

/-! ### Special values and the end (R136, R137, R141) -/

/-- MFS. -/
def execMfs (t : Tile) (c : Core) (d : WReg) (k : Fin 5) (s : State) : Out := live s fun s =>
  s.issue t c (.mfs t c d k) fun p x =>
    match k.val with
    | 0 => wr p x d (min p.bytes.length 512 + 2 ^ 31 * b01 p.ended) 1
    | 1 => if p.ended then wr p x d p.bytes.length 1 else .wait
    | 2 => wr p x d (if x.f then x.horizon else 0) 1
    | 3 => wr p x d (x.charged + 1) 1
    | _ => wr p x d (s.getP p.applied (O.HASH_SEED t)) 1

/-- DROP. -/
def execDrop (t : Tile) (c : Core) (code : BitVec 3) (s : State) : Out := live s fun s =>
  s.issue t c (.drop t c code) fun _ x => if x.scan.isSome then .exc 6 else .fin (some code.toNat)

/-- END. -/
def execEnd (t : Tile) (c : Core) (s : State) : Out := live s fun s =>
  s.issue t c (.end_ t c) fun _ x => if x.scan.isSome then .exc 6 else .fin none

/-- BUDGET_OVERRUN (R141). -/
def execBudgetOverrun (t : Tile) (c : Core) (s : State) : Out := live s fun s =>
  match s.core? t c with
  | none => s
  | some x =>
    match s.pkt? x.fid with
    | none => s
    | some p =>
      if !x.overrun || x.rom then s
      else
        let s := (s.count64 (O.PARSE_COUNTS t 4)).count64 (O.PORT_PARSE_COUNTS p.inPort 2)
        if s.getP p.applied (O.OVERRUN_ACTION t) = 0 then s.parseDiscard t c p x 0x11 else s.runRom t c p x 6

/-- REORDER_HANDOFF (R129): room has appeared for a context whose END waited. -/
def execReorderHandoff (t : Tile) (c : Core) (waited : BitVec 16) (s : State) : Out := live s fun s =>
  match s.core? t c with
  | none => s
  | some x =>
    match s.pkt? x.fid with
    | none => s
    | some p =>
      if x.ended = false ∨ s.reorderRoom t p = false then s
      else (s.count64 (O.PARSE_COUNTS t 13) waited.toNat).handOff t c p x

/-- PMEM_SCRUB (R140). -/
def execPmemScrub (t : Tile) (row : BitVec 14) (f : Ecc) (s : State) : Out := live s fun s =>
  ((s.found (0x220 + t) row.toNat f).readWord (0x220 + t) (0x240 + t) (unitId 2 t) (unitId 2 t) row.toNat 2).2

/-- AMBER_SCRUB (R149): the word address counts the rows of image 0, then those of image 1. -/
def execAmberScrub (t : Tile) (image : Fin 2) (row : BitVec 12) (f : Ecc) (s : State) : Out := live s fun s =>
  let a := image.val * 4096 + row.toNat
  ((s.found (0x260 + t) a f).readWord (0x260 + t) (0x280 + t) (unitId 2 t) (unitId 2 t) a 2).2

end Sys2Proof.Machine
end

