-- ==== Sys2Proof/Machine/Store.lean ====
section
/-!
DEFINITION. Sys2Proof/Machine/Store.lean: the table store (R154-R179, R193): declarations, reads and writes of its 16-byte
units, exact-match, direct-index and longest-prefix lookups, action references and action sets.
-/
namespace Sys2Proof.Machine

/-! ### Declarations (R158, R159) -/

/-- The declaration that a packet sees (R44). -/
def State.declP (s : State) (p : Pkt) (n : Nat) : Decl := declOf (fun r e => s.getP p.applied r e) n

/-- TABLE_STATE (R159). -/
def State.tableState (s : State) (n : Nat) : Nat :=
  if s.get (O.TABLE_KIND n) = 0 then 0
  else if (List.range 32).any fun t => !s.isPale t && (List.range 8).any fun i => s.get (O.PLAN t) (8 * i) == n then 2
  else 1

/-- The action table, if one is declared. -/
def actionTable (kind : Nat → Nat) : Option Nat := firstFrom (fun n => kind n == 5) 0 64

/-! ### Units of the store (R162, R193) -/

/-- Partition of a unit. -/
def unitPart (u : Nat) : Nat := u / 524288 % 16

/-- A unit's value. -/
def State.unit (s : State) (u : Nat) : Nat := look 0 s.lookup.store u
/-- A unit's bytes. -/
def State.unitBytes (s : State) (u : Nat) : List Byte := leBytes 16 (s.unit u)
/-- A unit's word, unless it has an error that its ECC cannot correct (R193). -/
def State.readable (s : State) (u : Nat) : Bool :=
  match s.damaged (0x300 + unitPart u) u with
  | some d => d.bits == 1
  | none => true

/-- Write a unit. -/
def State.putUnit (s : State) (u v : Nat) : State :=
  let x := unitPart u
  let s := { s with lookup := { s.lookup with store := putN 0 u v s.lookup.store } }
  s.wordWrittenAs (0x300 + x) (0x310 + x) (unitId 4 x) u (u / 4)

/-- Read a unit for table `n`: `false` where it cannot be corrected, which its counter counts (R193); `access` is R376's. -/
def State.readUnit (s : State) (n u : Nat) (access : Nat := 1) : Bool × State :=
  let x := unitPart u
  let r := s.readWordAs (0x300 + x) (0x310 + x) (unitId 4 x) (unitId 4 x) u (u / 4) access
  if r.1 then (false, r.2.count64 (O.TABLE_COUNTS n 13)) else (true, r.2)

/-- The engine or the scanner reads units of table `n`. -/
def State.readAll (s : State) (n : Nat) (us : List Nat) : State := s.each us fun s u => (s.readUnit n u).2

/-! ### Entries of exact-match tables (R162, R163) -/

def entryKey (v : Nat) : Nat := v % 2 ^ 80
def entryAction (v : Nat) : Nat := bits v 103 80
def entryStamp (v : Nat) : Nat := bits v 119 104
def entryFlags (v : Nat) : Nat := bits v 127 120
def entryValid (v : Nat) : Bool := bit v 120
def entryStatic (v : Nat) : Bool := bit v 121
def mkEntry (key action stamp flags : Nat) : Nat := key + action * 2 ^ 80 + stamp * 2 ^ 104 + flags * 2 ^ 120
/-- A key as an entry holds it: bytes beyond KEY_BYTES are 0. -/
def Decl.key (d : Decl) (b : List Byte) : Nat := leNat ((b.take d.keyBytes).take 10)
/-- The bytes of a stored key. -/
def Decl.keyOf (d : Decl) (k : Nat) : List Byte := leBytes d.keyBytes k
/-- The two candidate buckets of a key, within the table (R163). -/
def Decl.buckets (d : Decl) (k : Nat) : Nat × Nat :=
  (crcMsb 0x04C11DB7 d.seed1 (d.keyOf k) % max d.size 1, crcMsb 0x1EDC6F41 d.seed2 (d.keyOf k) % max d.size 1)
/-- The units of a bucket. -/
def Decl.slots (d : Decl) (b : Nat) : List Nat := (List.range 4).map fun i => (d.base + b) * 4 + i
/-- The units a key can lie in, in search order. -/
def Decl.candidates (d : Decl) (k : Nat) : List Nat :=
  let b := d.buckets k
  d.slots b.1 ++ (if b.1 = b.2 then [] else d.slots b.2)

/-- What a step's lookup answers. -/
inductive Hit where
  | miss
  | bad
  | hit (v : Nat)
deriving DecidableEq, Repr

/-- The copies of a table in its engine's move stash. -/
def State.stashOf (s : State) (n : Nat) (d : Decl) : List Nat :=
  (((s.lookup.engs.getD d.partition EngX.reset).stash.filter (·.table == n)).map (·.entry))

/-- Count a lookup's result (R194). -/
def State.countHit (s : State) (n : Nat) (h : Hit) : State :=
  let s := s.count64 (O.TABLE_COUNTS n 1)
  match h with
  | .hit _ => s.count64 (O.TABLE_COUNTS n 2)
  | .miss => s.count64 (O.TABLE_COUNTS n 3)
  | .bad => s

/-- An exact-match lookup (R164, R193): the stash copy before a bucket's; a slot that cannot be read leaves a miss open. -/
def State.exactLookup (s : State) (n : Nat) (d : Decl) (key : Nat) : Hit × State :=
  let fits := fun v => entryValid v && entryKey v == key
  let r := (d.candidates key).foldl (fun (a : Option Nat × Bool × State) u =>
    let w := a.2.2.readUnit n u
    let v := s.unit u
    (if a.1 = none ∧ w.1 = true ∧ fits v = true then some v else a.1, a.2.1 || !w.1, w.2)) (none, false, s)
  let h := match (s.stashOf n d).find? fits, r.1 with
    | some v, _ => Hit.hit v
    | none, some v => Hit.hit v
    | none, none => if r.2.1 then Hit.bad else Hit.miss
  (h, r.2.2.countHit n h)

/-- A direct-index or action row (R173, R175). -/
def State.rowLookup (s : State) (n : Nat) (d : Decl) (row : Nat) : Hit × State :=
  if d.size ≤ row then (.miss, s.countHit n .miss)
  else
    let u := d.base * 4 + row
    let r := s.readUnit n u
    let h := if r.1 then Hit.hit (s.unit u) else Hit.bad
    (h, r.2.countHit n h)

/-! ### Longest prefix (R176-R178) -/

/-- The records of table `n`. -/
def State.recsOf (s : State) (n : Nat) : List LRec := s.lookup.recs.filter (·.table == n)
/-- Prefix `x` covers an address. -/
def LRec.covers (x : LRec) (w a : Nat) : Bool := a / 2 ^ (w - x.len) == x.addr / 2 ^ (w - x.len)
/-- The longest record that covers an address. -/
def bestRec (rs : List LRec) (w a : Nat) : Option LRec :=
  (rs.filter (·.covers w a)).foldl (fun b x => match b with
    | none => some x
    | some y => if y.len < x.len then some x else some y) none

/-- The ranges of `bits` address bits that hold a longer prefix, rising: each needs one array at the next level (R178). -/
def ranges (rs : List LRec) (w bits : Nat) : List Nat :=
  (rs.filter fun x => decide (bits < x.len)).foldl (fun l x => insNat (x.addr / 2 ^ (w - bits)) l) []

/-- The first address bit of the index of level `k`, counted from 1 (R176). -/
def Decl.lo (d : Decl) (k : Nat) : Nat := if k ≤ 1 then 0 else d.cum.getD (k - 2) 0
/-- The address bits that level `k` and those before it index. -/
def Decl.hi (d : Decl) (k : Nat) : Nat := d.cum.getD (k - 1) 0
/-- Entries of an array of level `k`. -/
def Decl.arrayLen (d : Decl) (k : Nat) : Nat := 2 ^ (d.hi k - d.lo k)
/-- The unit and the place in it of entry `i` of array `a` of level `k`. -/
def Decl.levelAt (d : Decl) (k a i : Nat) : Nat × Nat :=
  let e := a * d.arrayLen k + i
  (((d.regions.getD k (0, 0)).1 * 4 + e / 4) % 8388608, e % 4)
/-- A level entry (R176). -/
def State.levelEntry (s : State) (d : Decl) (k a i : Nat) : Nat :=
  let x := d.levelAt k a i
  s.unit x.1 / 2 ^ (32 * x.2) % 2 ^ 32

/-- The walk of a lookup from array `a` of level `k` (R177): a kind 3, and a pointer in the last level, are no route
(log 16). -/
def State.walkLevels (s : State) (n : Nat) (d : Decl) (addr k a : Nat) : Nat → Hit × State
  | 0 => (.miss, s)
  | fuel + 1 =>
    let i := addr / 2 ^ (d.width - d.hi k) % d.arrayLen k
    let r := s.readUnit n (d.levelAt k a i).1
    let e := s.levelEntry d k a i
    if !r.1 then (.bad, r.2)
    else if e / 2 ^ 30 = 1 then (.hit (e % 2 ^ 24), r.2)
    else if e / 2 ^ 30 = 2 then r.2.walkLevels n d addr (k + 1) (e % 2 ^ 30) fuel
    else (.miss, r.2)

/-- A longest-prefix lookup (R177, R193): it answers an action reference. -/
def State.lpmLookup (s : State) (n : Nat) (d : Decl) (a : Nat) : Hit × State :=
  let r := s.walkLevels n d a 1 0 d.cum.length
  (r.1, r.2.countHit n r.1)

/-! ### Action references and rows (R173, R174) -/

/-- A row of a direct-index or action table as an action set. -/
def rowActions (v : Nat) : ActSet :=
  let b := leBytes 16 v
  let k := byteAt b 0 % 16
  let val := leAt b 2 2
  let pol := leAt b 4 3
  let fl := byteAt b 12
  { ActSet.none with
    kind := k, queue := byteAt b 1 % 16, value := val, fate := if k = 4 then val % 256 else 0,
    eqValid := bit (byteAt b 13) 4, eq := byteAt b 13 % 16,
    policer := if bit pol 23 then some (pol % 2 ^ 20) else none,
    mirA := if bit (byteAt b 7) 7 then some (byteAt b 7 % 64) else none,
    mirB := if bit (byteAt b 8) 7 then some (byteAt b 8 % 64) else none,
    vlan := vlanCode (byteAt b 9) (leAt b 10 2 % 2 ^ 15),
    postcard := bit fl 0, insert := bit fl 1, noLearn := bit fl 3,
    copyTo := if bit fl 2 then some (leAt b 14 2) else none }

/-- A row that TABLE_DATA refuses: a reserved code, or a value outside its range (R174). -/
def rowBad (b : List Byte) : Bool :=
  let k := byteAt b 0 % 16
  let v := leAt b 2 2
  let c := leAt b 14 2
  decide (5 < k) || (k == 1 && decide (511 < v)) || (k == 3 && (decide (v < 8192) || decide (8319 < v))) ||
  (k == 4 && (decide (v % 256 < 0x22) || decide (0x27 < v % 256))) ||
  (bit (byteAt b 12) 2 && (decide (c < 8192) || decide (8319 < c)))

/-- An action reference without its reserved bits (R12, R173). -/
def keepRef (r : Nat) : Nat :=
  match bits r 23 22 with
  | 1 => r - bits r 8 0
  | 2 => r - bits r 21 16 * 2 ^ 16
  | _ => r

/-- The action reference of forms 1 to 3 (R173). A discard code outside 0x22-0x27 and the reserved immediate are no action
(log 17). -/
def refActions (r : Nat) : ActSet :=
  match bits r 23 22 with
  | 1 => { ActSet.none with kind := 1, value := bits r 21 13, queue := bits r 12 9 }
  | 2 => { ActSet.none with kind := 2, value := r % 2 ^ 16 }
  | 3 =>
    let c := r % 256
    match bits r 21 20 with
    | 1 => if 0x22 ≤ c ∧ c ≤ 0x27 then { ActSet.none with kind := 4, value := c, fate := c } else ActSet.none
    | 2 => { ActSet.none with kind := 3, value := 8192 + r % 128 }
    | _ => ActSet.none
  | _ => ActSet.none

/-- An action reference's action set; form 0 reads the action table, where a row beyond it is no action; `none` where the
row cannot be read (R173, R193). A table with INDIRECT FALSE whose entries use form 0 all the same is resolved no
differently: DESIGN CHOICE, log 110. -/
def State.resolve (s : State) (p : Pkt) (r : Nat) : Option ActSet × State :=
  if bits r 23 22 ≠ 0 then (some (refActions r), s)
  else
    match actionTable fun n => s.getP p.applied (O.TABLE_KIND n) with
    | none => (some ActSet.none, s)
    | some n =>
      let h := s.rowLookup n (s.declP p n) (r % 2 ^ 22)
      match h.1 with
      | .hit v => (some (rowActions v), h.2)
      | .miss => (some ActSet.none, h.2)
      | .bad => (none, h.2)

/-! ### Overflow lists (R171, R172) -/

/-- A row of an overflow list: key in bytes 0-9, bit 0 of byte 10 valid. -/
def overflowRow (key : Nat) : Nat := key + 2 ^ 80
/-- The row that holds a key. -/
def State.overflowAt (s : State) (n key : Nat) : Option Nat :=
  firstFrom (fun i => s.get (O.OVERFLOW_LIST n) i == overflowRow key) 0 256
def State.inOverflow (s : State) (n key : Nat) : Bool := (s.overflowAt n key).isSome
/-- A key leaves the list. -/
def State.overflowDrop (s : State) (n key : Nat) : State :=
  match s.overflowAt n key with
  | some i => s.set (O.OVERFLOW_LIST n) 0 i
  | none => s

/-! ### Views of tables (R160, R194) -/

/-- ENTRIES: valid entries or prefixes. -/
def State.entries (s : State) (n : Nat) : Nat :=
  let d := s.decl n
  if d.isLpm then (s.recsOf n).length
  else if d.kind = 1 then
    (s.lookup.store.filter fun e => d.base * 4 ≤ e.1 && e.1 < (d.base + d.size) * 4 && entryValid e.2).length
  else 0

/-- Rows of TABLE_DATA and the bytes of each (R160). -/
def Decl.dataRows (d : Decl) : Nat × Nat :=
  if d.kind = 1 then (d.size, 64)
  else if d.kind = 2 ∨ d.kind = 5 then (d.size, 16)
  else if d.isLpm then ((d.regions.getD 0 (0, 0)).2 * 64 / d.recBytes, d.recBytes)
  else (0, 16)

/-- The units of TABLE_DATA from a byte offset; both are multiples of 16. -/
def State.dataUnits (s : State) (n off len : Nat) : List Nat :=
  let d := s.decl n
  let first := (if d.isLpm then (d.regions.getD 0 (0, 0)).1 else d.base) * 4
  (List.range (len / 16)).map fun i => first + off / 16 + i

/-- Write TABLE_DATA, one row at a time (R38, R160). -/
def State.tableWrite (s : State) (n off : Nat) (data : List Byte) : State :=
  let d := s.decl n
  s.each (List.range (data.length / 16)) fun s i =>
    s.putUnit (d.base * 4 + off / 16 + i) (leNat (slice data (16 * i) 16))

end Sys2Proof.Machine
end

