-- ==== Sys2Proof/Machine/Engine.lean ====
section
/-!
DEFINITION. Sys2Proof/Machine/Engine.lean: the insert engines (R165-R171, R178, R179), learn events (R188), aging
(R189-R191), and the store's scrubbing (R193).
-/
namespace Sys2Proof.Machine

/-! ### Learn events (R188) -/

/-- The 48 bytes of an event. -/
def eventBytes (seq time key type flags port member prev table tile first : Nat) : List Byte :=
  leBytes 8 seq ++ leBytes 12 time ++ leBytes 10 key ++ [nb type, nb flags] ++ leBytes 2 port ++ leBytes 2 member ++
  leBytes 2 prev ++ [nb table, nb tile] ++ leBytes 8 first

/-- Issue an event: it takes the next sequence number; one that finds the queue full, or no channel named, is lost. -/
def State.learnEvent (s : State) (time key type flags port member prev table tile first : Nat) : State :=
  let seq := (s.get O.LEARN_SEQ + 1) % 2 ^ 64
  let s := s.set O.LEARN_SEQ seq
  let flags := if s.ledger.evLost then flags + 8 else flags
  let r := s.pushRec true (eventBytes seq time key type flags port member prev table tile first)
  if r.1 then { r.2 with ledger := { r.2.ledger with evLost := false } }
  else
    let s := { r.2 with ledger := { r.2.ledger with evLost := true } }
    (s.count64 (O.LEARN_COUNTS 7)).report 0x3C0 (unitId 1 0) (detailS (leBytes 4 1))

/-- The time of an event that no packet made (R188). -/
def State.learnTime (s : State) : Nat := s.tb (s.get O.LEARN_TIME_BASE)

/-- AGED (3) or EVICTED (4) of an entry (R188). -/
def State.entryEvent (s : State) (n type v : Nat) (deleted : Bool) : State :=
  s.learnEvent s.learnTime (entryKey v) type (2 * b01 (entryStatic v) + 16 * b01 deleted) 0xFFFF 0xFFFF 0xFFFF n 0xFF 0

/-! ### Engines -/

def State.eng (s : State) (x : Nat) : EngX := s.lookup.engs.getD x EngX.reset
def State.putEng (s : State) (x : Nat) (e : EngX) : State :=
  { s with lookup := { s.lookup with engs := slots 16 s.eng x e } }

/-- A unit that the engine finds free; one it cannot read is neither free nor any key's (log 89). -/
def State.isFree (s : State) (u : Nat) : Bool := s.readable u && !entryValid (s.unit u)
/-- A key's unit, if an entry of it is in the table. -/
def State.findKey (s : State) (d : Decl) (key : Nat) : Option Nat :=
  (d.candidates key).find? fun u => s.readable u && entryValid (s.unit u) && entryKey (s.unit u) == key
/-- The first free unit of a key's buckets. -/
def State.freeUnit (s : State) (d : Decl) (key : Nat) : Option Nat := (d.candidates key).find? s.isFree
/-- A key's copy in the move stash (R164, R167). -/
def State.stashed (s : State) (n : Nat) (d : Decl) (key : Nat) : Option Nat :=
  (s.stashOf n d).find? fun v => entryValid v && entryKey v == key
/-- A change of a key's entry reaches its copy in the stash too, so that every later lookup sees it (R169); 0 deletes. -/
def State.stashPut (s : State) (n : Nat) (d : Decl) (key v : Nat) : State :=
  let e := s.eng d.partition
  let swap := fun (c : StashE) => if c.table = n ∧ entryValid c.entry ∧ entryKey c.entry = key then ⟨n, v⟩ else c
  s.putEng d.partition { e with stash := e.stash.map swap }
/-- Write the entry of a key that is in a unit, and in the stash where it has a copy. -/
def State.putEntry (s : State) (n : Nat) (d : Decl) (key u v : Nat) : State := (s.putUnit u v).stashPut n d key v

/-! ### Relocation (R167, R168) -/

/-- A node of the search: the occupant's unit, its bucket, the buckets on its path, the units of its path, itself first. -/
structure Node where
  at_    : Nat
  bucket : Nat
  path   : List Nat
  chain  : List Nat
deriving DecidableEq, Repr

/-- The alternate bucket of a node's occupant; none where it has none, the path already holds it, or the occupant cannot be
read. -/
def State.alternate (s : State) (d : Decl) (x : Node) : Option Nat :=
  let b := d.buckets (entryKey (s.unit x.at_))
  let a := if b.1 = x.bucket then b.2 else b.1
  if b.1 = b.2 ∨ x.path.contains a = true ∨ s.readable x.at_ = false then none else some a

/-- A node whose alternate bucket has a free unit: that unit. -/
def State.opening (s : State) (d : Decl) (x : Node) : Option Nat :=
  (s.alternate d x).bind fun a => (d.slots a).find? s.isFree

/-- The children of a node. -/
def State.children (s : State) (d : Decl) (x : Node) : List Node :=
  match s.alternate d x with
  | none => []
  | some a => (d.slots a).map fun u => ⟨u, a, a :: x.path, u :: x.chain⟩

/-- The nodes of a level up to the first whose alternate bucket has a free unit. -/
def State.upTo (s : State) (d : Decl) : List Node → List Node
  | [] => []
  | x :: r => if (s.opening d x).isSome then [x] else x :: s.upTo d r

/-- Breadth-first search over at most `fuel` levels: the moves to make, last first, and the units it reads. -/
def State.search (s : State) (d : Decl) : Nat → List Node → List (Nat × Nat) × List Nat
  | 0, _ => ([], [])
  | fuel + 1, level =>
    let read := (s.upTo d level).flatMap fun x => ((s.alternate d x).map d.slots).getD []
    match level.findSome? fun x => (s.opening d x).map fun u => (x, u) with
    | some (x, u) => (x.chain.zip (u :: x.chain), read)
    | none => let r := s.search d fuel (level.flatMap (s.children d)); (r.1, read ++ r.2)

/-- What an insert of `key` plans once it has read its buckets (R167): the relocation path, with no moves where it needs
none or there is none, and the units read for it. -/
def State.pathFor (s : State) (n : Nat) (d : Decl) (key : Nat) : List (Nat × Nat) × List Nat :=
  if (s.findKey d key).isSome ∨ (s.stashed n d key).isSome ∨ (s.freeUnit d key).isSome then ([], [])
  else
    let b := d.buckets key
    let node := fun b u => (⟨u, b, [b], [u]⟩ : Node)
    s.search d 4 ((d.slots b.1).map (node b.1) ++ (if b.1 = b.2 then [] else (d.slots b.2).map (node b.2)))

/-- Make the moves of the operation at the front while the engine has a stash entry for each (R168). -/
def State.runMoves (s : State) (x : Nat) : List (Nat × Nat) → State
  | [] => s
  | (a, b) :: rest =>
    let e := s.eng x
    match e.jobs with
    | [] => s
    | j :: js =>
      if 4 ≤ e.stash.length then s
      else
        let v := s.unit a
        let e := { e with stash := e.stash ++ [⟨j.table, v⟩], jobs := { j with moves := rest, made := j.made + 1 } :: js }
        (((s.putEng x e).putUnit b v).putUnit a 0).runMoves x rest

/-- An aging deletion stands before the operation at the front (R165). -/
def EngX.deleteDue (e : EngX) : Bool := e.deletes.any (·.ahead == 0)

/-- Start the operation at the front of an engine, unless an aging deletion stands before it (R165): an operation of an
exact-match table reads its key's buckets, and an insert that finds no free slot plans its moves. -/
def State.engStart (s : State) (x : Nat) : State :=
  let e := s.eng x
  match e.jobs with
  | [] => s
  | j :: js =>
    if j.started || e.deleteDue then s
    else
      let d := s.decl j.table
      let key := d.key (slice j.record 4 10)
      let op := byteAt j.record 0
      let s := if d.kind = 1 ∧ 1 ≤ op ∧ op ≤ 4 then s.readAll j.table (d.candidates key) else s
      let p := if d.kind = 1 ∧ op = 1 then s.pathFor j.table d key else ([], [])
      let s := s.readAll j.table p.2
      (s.putEng x { e with jobs := { j with started := true, moves := p.1 } :: js }).runMoves x p.1

/-- Give an operation to its engine (R165). One of ENTRY_OP that finds 64 waiting waits behind them, as a channel's does:
DESIGN CHOICE, log 88. -/
def State.engSubmit (s : State) (n : Nat) (record : List Byte) (chan : Option Nat) : State :=
  let x := (s.decl n).partition
  let e := s.eng x
  (s.putEng x { e with jobs := e.jobs ++ [⟨n, padTo 32 record, chan, false, [], 0⟩] }).engStart x

/-! ### The end of an operation (R166, R170, R171, R178) -/

/-- The 32 bytes of a result record: outcome, moves, slot, bucket, b2, entry image. -/
def resultBytes (outcome moves slot bucket b2 : Nat) (image : List Byte) : List Byte :=
  [nb outcome, nb moves, nb slot, 0] ++ leBytes 4 bucket ++ leBytes 4 b2 ++ padTo 16 image ++ zeros 4

/-- A result that names the unit of an entry. -/
def Decl.resultAt (d : Decl) (outcome moves u : Nat) (image : List Byte) : List Byte :=
  resultBytes outcome moves (u % 4) (u / 4 - d.base) 0 image

/-- The Fibonacci register's step (R170). -/
def lfsrStep (v : Nat) : Nat :=
  (v * 2 + (b01 (bit v 31) + b01 (bit v 21) + b01 (bit v 1) + v) % 2) % 2 ^ 32

/-- An entry's age in ticks of its table (R189); with aging off every age is 0 (R191). -/
def State.ageOf (s : State) (n v : Nat) : Nat :=
  if s.get (O.AGE_TICK n) = 0 then 0 else (s.get (O.AGE_CLOCK n) + 2 ^ 16 - entryStamp v) % 2 ^ 16

/-- The victim of an eviction among the occupants of a key's buckets: none where all are static (R170). The Bool says that
the register chose. -/
def State.victim (s : State) (n : Nat) (d : Decl) (key : Nat) : Option Nat × Bool :=
  let us := (d.candidates key).filter fun u => s.readable u && !entryStatic (s.unit u)
  match us with
  | [] => (none, false)
  | u0 :: _ =>
    if d.evict = 0 then (us[(s.eng d.partition).lfsr % us.length]?, true)
    else (some (us.foldl (fun b u => if s.ageOf n (s.unit b) < s.ageOf n (s.unit u) then u else b) u0), false)

/-- An insert that fails (R170, R171). -/
def State.insertFails (s : State) (n key : Nat) : State :=
  (s.count64 (O.TABLE_COUNTS n 9)).report (0x320 + n) (unitId 20 n) (detailS (leBytes 10 key))

/-- The key of a failed insert goes into the overflow list of a protected table (R171). -/
def State.overflowAdd (s : State) (n key : Nat) : State :=
  if s.inOverflow n key then s
  else
    match firstFrom (fun i => s.get (O.OVERFLOW_LIST n) i == 0) 0 256 with
    | some i => s.set (O.OVERFLOW_LIST n) (overflowRow key) i
    | none => s.report (0x360 + n) (unitId 20 n) (detailS (leBytes 10 key))

/-- The insert of an absent key once its moves are made (R167, R170, R171): result and state. -/
def State.insertNew (s : State) (n : Nat) (d : Decl) (key entry made : Nat) : List Byte × State :=
  let counted := fun (s : State) =>
    ((s.count64 (O.TABLE_COUNTS n 4)).count64 (O.TABLE_COUNTS n 7) made).count64 (O.DEPTH_HISTOGRAM n) 1 made
  match s.freeUnit d key with
  | some u => (d.resultAt 0 made u [], counted ((s.putUnit u entry).overflowDrop n key))
  | none =>
    if d.prot then (resultBytes 6 0 0 0 0 [], (s.insertFails n key).overflowAdd n key)
    else
      match s.victim n d key with
      | (none, _) => (resultBytes 6 0 0 0 0 [], s.insertFails n key)
      | (some u, r) =>
        let old := s.unit u
        let e := s.eng d.partition
        let s := if r then s.putEng d.partition { e with lfsr := lfsrStep e.lfsr } else s
        let s := ((s.putUnit u entry).stashPut n d (entryKey old) 0).count64 (O.TABLE_COUNTS n 8)
        (d.resultAt 2 0 u (leBytes 16 old), counted ((s.entryEvent n 4 old false).overflowDrop n key))

/-- An operation on a key whose only copy lies in the move stash (R167, R169): it acts there. The spec names no slot, so
bucket and slot of the result are free values (log 87). -/
def State.stashOp (s : State) (n : Nat) (d : Decl) (op fl key v entry : Nat) : List Byte × State :=
  let a := s.draw 32
  let b := a.2.draw 2
  let res := fun (o : Nat) (image : List Byte) => resultBytes o 0 b.1 a.1 0 image
  let s := b.2
  match op with
  | 4 => (res 4 (leBytes 16 v), s)
  | 3 => (res 3 (leBytes 16 v), ((s.stashPut n d key 0).count64 (O.TABLE_COUNTS n 6)).overflowDrop n key)
  | 1 =>
    if bit fl 1 then (res 7 [], s)
    else (res 1 [], ((s.stashPut n d key entry).count64 (O.TABLE_COUNTS n 5)).overflowDrop n key)
  | _ => (res 1 [], (s.stashPut n d key entry).count64 (O.TABLE_COUNTS n 5))

/-- An operation of an exact-match table (R166). -/
def State.exactOp (s : State) (n : Nat) (d : Decl) (r : List Byte) (made : Nat) : List Byte × State :=
  let op := byteAt r 0
  let fl := byteAt r 1
  let key := d.key (slice r 4 10)
  let entry := mkEntry key (keepRef (leAt r 20 3)) (s.get (O.AGE_CLOCK n)) (1 + 2 * (fl % 2))
  let b := d.buckets key
  match op, s.findKey d key, s.stashed n d key with
  | 5, _, _ => (resultBytes 8 0 0 b.1 b.2 [], s)
  | 4, some u, _ => (d.resultAt 4 0 u (leBytes 16 (s.unit u)), s)
  | 3, some u, _ =>
    (d.resultAt 3 0 u (leBytes 16 (s.unit u)),
      ((s.putEntry n d key u 0).count64 (O.TABLE_COUNTS n 6)).overflowDrop n key)
  | 1, some u, _ =>
    if bit fl 1 then (d.resultAt 7 0 u [], s)
    else (d.resultAt 1 0 u [], ((s.putEntry n d key u entry).count64 (O.TABLE_COUNTS n 5)).overflowDrop n key)
  | 2, some u, _ => (d.resultAt 1 0 u [], (s.putEntry n d key u entry).count64 (O.TABLE_COUNTS n 5))
  | _, none, some v => s.stashOp n d op fl key v entry
  | 3, none, none => (resultBytes 5 0 0 0 0 [], s.overflowDrop n key)
  | 1, none, none => s.insertNew n d key entry made
  | _, _, _ => (resultBytes 5 0 0 0 0 [], s)

/-! ### The trie (R176-R179) -/

/-- The array of level `k` that holds a range of the address bits before it, as the level entries lead to it. -/
def State.arrayOf (s : State) (d : Decl) : Nat → Nat → Option Nat
  | 0, _ => none
  | 1, _ => some 0
  | k + 2, r =>
    match s.arrayOf d (k + 1) (r / d.arrayLen (k + 1)) with
    | none => none
    | some a =>
      let e := s.levelEntry d (k + 1) a (r % d.arrayLen (k + 1))
      if e / 2 ^ 30 = 2 then some (e % 2 ^ 30) else none

/-- The arrays of level `k` that the prefixes `rs` use, with their ranges. -/
def State.arraysOf (s : State) (d : Decl) (rs : List LRec) (k : Nat) : List (Nat × Nat) :=
  if k = 1 then [(0, 0)]
  else (ranges rs d.width (d.lo k)).filterMap fun r => (s.arrayOf d k r).map fun a => (r, a)

/-- The entry of level `k` for the range `v` of its address bits, under the prefixes `rs` (R176, R179): a pointer where a
longer prefix lies under it, whose array `num` gives, else the best match. -/
def Decl.entryFor (d : Decl) (rs : List LRec) (num : Nat → Nat → Nat) (k v : Nat) : Nat :=
  let c := d.hi k
  if k < d.cum.length ∧ (ranges rs d.width c).contains v = true then 2 ^ 31 + num (k + 1) v
  else
    match bestRec (rs.filter fun x => decide (x.len ≤ c)) d.width (v * 2 ^ (d.width - c)) with
    | some x => 2 ^ 30 + x.action
    | none => 0

/-- Write a level entry. -/
def State.putLevel (s : State) (d : Decl) (k a i v : Nat) : State :=
  let x := d.levelAt k a i
  let old := s.levelEntry d k a i
  s.putUnit x.1 (s.unit x.1 + v * 2 ^ (32 * x.2) - old * 2 ^ (32 * x.2))

/-- The entries of an array of level `k` for the range `r` that a prefix of `len` bits can change: first, and how many. -/
def Decl.touched (d : Decl) (addr len k r : Nat) : Nat × Nat :=
  let lo := d.lo k
  let at_ := addr / 2 ^ (d.width - d.hi k) % d.arrayLen k
  if len ≤ lo then (if r / 2 ^ (lo - len) = addr / 2 ^ (d.width - len) then (0, d.arrayLen k) else (0, 0))
  else if r ≠ addr / 2 ^ (d.width - lo) then (0, 0)
  else (at_, if len ≤ d.hi k then 2 ^ (d.hi k - len) else 1)

/-- The engine's rewrite after a change of the prefix `addr`/`len` from the records `old` to `new` (R179): each new
array, in the lowest free place of its level's region (log 16), is filled completely, the deepest first; then every
other entry whose value changes, the deepest level first. -/
def State.rewriteTrie (s : State) (d : Decl) (old new : List LRec) (addr len : Nat) : State :=
  let w := d.width
  let levels := (List.range d.cum.length).map (d.cum.length - ·)
  let at_ := fun k => addr / 2 ^ (w - d.lo k)
  let fresh := (levels.filter fun k => decide (1 < k) && (ranges new w (d.lo k)).contains (at_ k) &&
    !(s.arraysOf d old k).any (·.1 == at_ k)).map fun k =>
      let used := (s.arraysOf d old k).map (·.2)
      (k, (firstFrom (fun a => !used.contains a) 0 (used.length + 1)).getD 0)
  let num := fun k v =>
    match fresh.find? fun f => f.1 == k && v == at_ k with
    | some f => f.2
    | none => (s.arrayOf d k v).getD 0
  let kept := levels.flatMap fun k => (s.arraysOf d old k).map fun a => (k, a)
  let t := s.each fresh fun s f => s.each (List.range (d.arrayLen f.1 / 4)) fun s i =>
    let es := (List.range 4).flatMap fun j => leBytes 4 (d.entryFor new num f.1 (at_ f.1 * d.arrayLen f.1 + 4 * i + j))
    s.putUnit (d.levelAt f.1 f.2 (4 * i)).1 (leNat es)
  t.each kept fun t a =>
    let m := d.touched addr len a.1 a.2.1
    t.each (List.range m.2) fun t i =>
      let v := d.entryFor new num a.1 (a.2.1 * d.arrayLen a.1 + m.1 + i)
      if t.levelEntry d a.1 a.2.2 (m.1 + i) = v then t else t.putLevel d a.1 a.2.2 (m.1 + i) v

/-- The units of a prefix record in region 0, and its bytes (R178). -/
def Decl.recUnits (d : Decl) (slot : Nat) : List Nat :=
  (List.range (d.recBytes / 16)).map fun i => (d.regions.getD 0 (0, 0)).1 * 4 + slot * (d.recBytes / 16) + i
def Decl.recImage (d : Decl) (x : LRec) : List Byte :=
  padTo d.recBytes (beBytes (d.width / 8) x.addr ++ [nb x.len] ++ leBytes 3 x.action)

/-- Write a record's bytes. -/
def State.putRec (s : State) (d : Decl) (slot : Nat) (b : List Byte) : State :=
  s.each (d.recUnits slot).zipIdx fun s x => s.putUnit x.1 (leNat (slice b (16 * x.2) 16))

/-- The engine changes a prefix: its record, the records it keeps, and the level entries (R178, R179). -/
def State.putPrefix (s : State) (d : Decl) (x : LRec) (image : List Byte) (recs : List LRec) : State :=
  let old := s.recsOf x.table
  let s := { (s.putRec d x.slot image) with lookup := { (s.putRec d x.slot image).lookup with recs := recs } }
  s.rewriteTrie d old (s.recsOf x.table) x.addr x.len

/-- Records and arrays suffice for the prefixes `rs` (R178). -/
def Decl.roomFor (d : Decl) (rs : List LRec) : Bool :=
  let region := fun k => (d.regions.getD k (0, 0)).2 * 64
  decide (rs.length * d.recBytes ≤ region 0) &&
  (List.range d.cum.length).all fun k =>
    let lo := if k = 0 then 0 else d.cum.getD (k - 1) 0
    let arrays := if k = 0 then 1 else (ranges rs d.width lo).length
    decide (arrays * 2 ^ (d.cum.getD k 0 - lo) * 4 ≤ region (k + 1))

/-- Where a result names a prefix's record: its bucket within region 0, its slot there, its image (log 16). -/
def Decl.recResult (d : Decl) (outcome : Nat) (x : LRec) : List Byte :=
  let byte := x.slot * d.recBytes
  resultBytes outcome 0 (byte % 64 / 16) (byte / 64) 0
    ((beBytes (d.width / 8) x.addr ++ zeros 10).take 10 ++ leBytes 3 x.action ++ [0, 0, 1])

/-- An operation of a longest-prefix table (R166, R178, R179). An insert that records or arrays have no room for changes
nothing but its count: only R170 and R171 raise LKP_INSERT_FAIL (R383). A read finds the record of exactly its address
and the length in byte 2: DESIGN CHOICE, log 111. -/
def State.lpmOp (s : State) (n : Nat) (d : Decl) (r : List Byte) : List Byte × State :=
  let op := byteAt r 0
  let len := byteAt r 2
  let addr := beAt r 4 (d.width / 8)
  let recs := s.lookup.recs
  if (if d.kind = 3 then 32 else 64) < len ∨ addr % 2 ^ (d.width - len) ≠ 0 then (resultBytes 9 0 0 0 0 [], s)
  else
    match op, recs.find? fun x => x.table == n && x.addr == addr && x.len == len with
    | 4, some x => (d.recResult 4 x, s.readAll n (d.recUnits x.slot))
    | 7, some x => (d.recResult 3 x, (s.putPrefix d x [] (recs.filter (· != x))).count64 (O.TABLE_COUNTS n 6))
    | 6, some x =>
      if bit (byteAt r 1) 1 then (d.recResult 7 x, s)
      else
        let y := { x with action := keepRef (leAt r 20 3) }
        (d.recResult 1 y,
          (s.putPrefix d y (d.recImage y) (recs.map fun z => if z = x then y else z)).count64 (O.TABLE_COUNTS n 5))
    | 6, none =>
      let rs := s.recsOf n
      let slot := ((List.range (rs.length + 1)).find? fun i => !rs.any (·.slot == i)).getD 0
      let x : LRec := ⟨n, slot, addr, len, keepRef (leAt r 20 3)⟩
      if d.roomFor (x :: rs) then
        (d.recResult 0 x, (s.putPrefix d x (d.recImage x) (recs ++ [x])).count64 (O.TABLE_COUNTS n 4))
      else (resultBytes 6 0 0 0 0 [], s.count64 (O.TABLE_COUNTS n 9))
    | _, _ => (resultBytes 5 0 0 0 0 [], s)

/-- Carry out an operation: its last write, and its result record. -/
def State.entryOp (s : State) (n : Nat) (r : List Byte) (made : Nat) : List Byte × State :=
  let d := s.decl n
  let op := byteAt r 0
  if d.kind = 1 ∧ 1 ≤ op ∧ op ≤ 5 then s.exactOp n d r made
  else if d.isLpm = true ∧ (op = 4 ∨ op = 6 ∨ op = 7) then s.lpmOp n d r
  else (resultBytes 9 0 0 0 0 [], s)

/-- The operation at the front of an engine ends: its result. The next one starts, unless refreshes wait for the engine to
stand between operations; then it starts when its turn to complete comes (R165, R190, log 90). -/
def State.engFinish (s : State) (x : Nat) : Option (EngJob × List Byte) × State :=
  match (s.eng x).jobs with
  | [] => (none, s)
  | j :: _ =>
    if !j.started || j.moves != [] then (none, s)
    else
      let r := s.entryOp j.table j.record j.made
      let e := r.2.eng x
      let s := r.2.putEng x { e with jobs := e.jobs.tail, deletes := e.deletes.map fun q => { q with ahead := q.ahead - 1 } }
      (some (j, r.1), if e.refresh = [] then s.engStart x else s)

/-- Post an operation's result (R166): to the table's ENTRY_OP, or to the channel that fed the record; 512 stands for a
channel that has stopped since. -/
def State.engPost (s : State) (j : EngJob) (r : List Byte) : State :=
  match j.chan with
  | none => s.cmdDone (O.ENTRY_OP j.table) r
  | some c => if c < 512 then s.modChan c fun y => { y with res := y.res ++ r } else s

/-- An engine that is between operations (R190, R191). -/
def State.engIdle (s : State) (x : Nat) : Bool := ((s.eng x).jobs.take 1).all fun j => !j.started

/-! ### Aging and refresh (R189-R191) -/

/-- Queue a refresh of an entry whose stamp differs from the clock (R190). -/
def State.refreshEntry (s : State) (n : Nat) (d : Decl) (v : Nat) : State :=
  let x := d.partition
  let e := s.eng x
  let k := (n, entryKey v)
  if entryStamp v = s.get (O.AGE_CLOCK n) then s
  else if 1024 ≤ e.refresh.length then s.count64 (O.TABLE_COUNTS n 12)
  else s.putEng x { e with refresh := e.refresh ++ [k] }

/-- The aging scanner at one entry (R191). -/
def State.ageVisit (s : State) (n : Nat) (d : Decl) (u : Nat) : State :=
  let v := s.unit u
  let ok := s.readable u
  let s := (s.readUnit n u).2
  if !ok || !entryValid v || entryStatic v || decide (s.ageOf n v < s.get (O.AGE_LIMIT n)) then s
  else if s.get (O.AGE_ACTION n) = 0 then
    if bit v 122 then s
    else ((s.putUnit u (v + 2 ^ 122)).count64 (O.TABLE_COUNTS n 10)).entryEvent n 3 v false
  else
    let e := s.eng d.partition
    if e.deletes.any fun q => q.table == n && q.key == entryKey v then s
    else s.putEng d.partition { e with deletes := e.deletes ++ [⟨n, entryKey v, e.jobs.length⟩] }

/-! ### Meanings -/

/-- ENTRY_OP_COMPLETE (R165, R166, R168): the operation that table `n`'s engine executes is done, and its result posted. -/
def execEntryOpComplete (n : Table) (s : State) : Out := live s fun s =>
  let x := (s.decl n).partition
  match (s.eng x).jobs with
  | j :: _ =>
    if j.table ≠ n.val then s
    else
      match (s.engStart x).engFinish x with
      | (some (j, r), s) => s.engPost j r
      | (none, s) => s
  | [] => s

/-- STASH_WAIT_END (R168): the move that waited starts; the wait is counted at the operation's table. -/
def execStashWaitEnd (x : Partition) (clocks : BitVec 16) (s : State) : Out := live s fun s =>
  let e := s.eng x
  match e.jobs with
  | j :: _ =>
    if j.moves = [] ∨ 4 ≤ e.stash.length then s
    else (s.count64 (O.STASH_WAITS j.table) clocks.toNat).runMoves x j.moves
  | [] => s

/-- STASH_RELEASE (R168): the oldest stash entry is released. -/
def execStashRelease (x : Partition) (s : State) : Out := live s fun s =>
  let e := s.eng x
  s.putEng x { e with stash := e.stash.tail }

/-- AGE_TICK (R189). -/
def execAgeTick (n : Table) (s : State) : Out := live s fun s =>
  if s.get (O.AGE_TICK n) = 0 ∨ s.get (O.TABLE_KIND n) ≠ 1 then s
  else s.set (O.AGE_CLOCK n) ((s.get (O.AGE_CLOCK n) + 1) % 2 ^ 16)

/-- AGE_SCAN (R191): the scanner visits the next bucket of the table. -/
def execAgeScan (n : Table) (s : State) : Out := live s fun s =>
  let d := s.decl n
  if s.get (O.AGE_TICK n) = 0 ∨ d.kind ≠ 1 then s
  else
    let b := look 0 s.lookup.scanAt n % max d.size 1
    let s := { s with lookup := { s.lookup with scanAt := putN 0 n ((b + 1) % max d.size 1) s.lookup.scanAt } }
    s.each (d.slots b) fun s u => s.ageVisit n d u

/-- AGE_DELETE (R165, R191): the engine performs its oldest request, once the operations that came before it are done, on
the entry where it then lies, if it is still aged. -/
def execAgeDelete (n : Table) (s : State) : Out := live s fun s =>
  let d := s.decl n
  let x := d.partition
  let e := s.eng x
  match e.deletes with
  | [] => s
  | q :: rest =>
    if q.table ≠ n.val ∨ q.ahead ≠ 0 ∨ s.engIdle x = false then s
    else
      let s := (s.putEng x { e with deletes := rest }).readAll n (d.candidates q.key)
      let s := match s.findKey d q.key with
        | none => s
        | some u =>
          let v := s.unit u
          if entryStatic v ∨ s.ageOf n v < s.get (O.AGE_LIMIT n) then s
          else ((s.putEntry n d q.key u 0).count64 (O.TABLE_COUNTS n 10)).entryEvent n 3 v true
      s.engStart x

/-- AGE_REFRESH (R190): the oldest refresh of an engine is applied between operations. -/
def execAgeRefresh (x : Partition) (s : State) : Out := live s fun s =>
  let e := s.eng x
  match e.refresh with
  | [] => s
  | k :: rest =>
    if !s.engIdle x then s
    else
      let d := s.decl k.1
      let s := (s.putEng x { e with refresh := rest }).readAll k.1 (d.candidates k.2)
      match s.findKey d k.2 with
      | none => s
      | some u =>
        let v := s.unit u
        s.putEntry k.1 d k.2 u
          (mkEntry (entryKey v) (entryAction v) (s.get (O.AGE_CLOCK k.1)) (entryFlags v - 4 * b01 (bit v 122)))

/-- The declared table whose bucket spans hold a unit. -/
def State.tableAt (s : State) (u : Nat) : Option Nat :=
  firstFrom (fun n => (s.decl n).spans.any fun p => p.1 * 4 ≤ u && u < (p.1 + p.2) * 4) 0 64

/-- TABLE_STORE_SCRUB (R193): one 16-byte unit of the visited bucket. -/
def execTableStoreScrub (x : Partition) (bucket : Fin 131072) (slot : Fin 4) (f : Ecc) (s : State) : Out :=
  live s fun s =>
    let u := (x.val * 131072 + bucket.val) * 4 + slot.val
    let s := s.found (0x300 + x) u f
    let r := s.readWordAs (0x300 + x) (0x310 + x) (unitId 4 x) (unitId 4 x) u (u / 4) 2
    match r.1, s.tableAt u with
    | true, some n => r.2.count64 (O.TABLE_COUNTS n 13)
    | _, _ => r.2

/-- The level and the place in its region of a unit. -/
def Decl.levelOf (d : Decl) (u : Nat) : Option (Nat × Nat) :=
  ((List.range d.cum.length).map (· + 1)).findSome? fun k =>
    let r := d.regions.getD k (0, 0)
    if r.1 * 4 ≤ u ∧ u < (r.1 + r.2) * 4 then some (k, (u - r.1 * 4) * 4) else none

/-- LEVEL_ENTRY_REBUILD (R193): the engine rewrites a damaged unit of level entries from the prefix records; an array
that no prefix needs gets no routes. -/
def execLevelEntryRebuild (bucket : Fin 2097152) (slot : Fin 4) (s : State) : Out := live s fun s =>
  let u := bucket.val * 4 + slot.val
  match s.tableAt u with
  | none => s
  | some n =>
    let d := s.decl n
    match if d.isLpm && !s.readable u then d.levelOf u else none with
    | none => s
    | some (k, e) =>
      let rs := s.recsOf n
      let a := e / d.arrayLen k
      let es := (List.range 4).flatMap fun j =>
        match (s.arraysOf d rs k).find? (·.2 == a) with
        | some r => leBytes 4 (d.entryFor rs (fun k v => (s.arrayOf d k v).getD 0) k (r.1 * d.arrayLen k + e % d.arrayLen k + j))
        | none => zeros 4
      s.putUnit u (leNat es)

end Sys2Proof.Machine
end

