-- ==== Sys2Proof/Machine/Match.lean ====
section
/-!
DEFINITION. Sys2Proof/Machine/Match.lean: the match stages (R154-R157, R180-R186, R192), the policer call (R243), the
learn cache (R187), and what combines their results.
-/
namespace Sys2Proof.Machine

/-! ### The plan (R154) -/

/-- One used step. -/
structure PlanStep where
  table : Nat
  role  : Nat
  a     : Nat
  aLen  : Nat
  b     : Nat
  bLen  : Nat
  prec  : Nat
  miss  : Nat
deriving DecidableEq, Repr

/-- The used steps of a plan read with `g`, in order. -/
def planOf (g : Nat → Nat) : List PlanStep :=
  ((List.range 8).map fun i =>
    let e := fun k => g (8 * i + k)
    (⟨e 0, e 1, e 2, e 3, e 4, e 5, e 6 % 16, e 6 / 16⟩ : PlanStep)).filter (·.table != 0xFF)

/-- The plan a packet sees. -/
def State.planP (s : State) (p : Pkt) : List PlanStep := planOf fun i => s.getP p.applied (O.PLAN p.tile) i

/-- A step's key in the packet's context. -/
def PlanStep.key (x : PlanStep) (ctx : List Byte) : List Byte := slice ctx x.a x.aLen ++ slice ctx x.b x.bLen

/-! ### What the steps give -/

/-- A contribution to the combination: precedence and action set. -/
structure Contrib where
  prec : Nat
  set  : ActSet
deriving DecidableEq, Repr

/-- What the match stages have gathered: a step that could not resolve; a source-lock miss; what the learn step says of the
sighting (`none`: no learn step ran); that the sighting ends at the table, or is not offered as the learn step cannot
resolve (R186, R193); the domain's flood destination; the contributions, in step order. -/
structure Gather where
  bad     : Bool
  locked  : Bool
  learned : Option (Option (Nat × Bool))
  ended   : Bool
  blind   : Bool
  domain  : Option ActSet
  sets    : List Contrib
deriving DecidableEq, Repr

def Gather.none : Gather := ⟨false, false, Option.none, false, false, Option.none, []⟩

/-- The action set of a step's miss action (R183). -/
def State.missActions (s : State) (p : Pkt) (x : PlanStep) (lpm : Bool) : ActSet :=
  match x.miss with
  | 1 => { ActSet.none with kind := 5 }
  | 2 => let f := if lpm then 0x20 else 0x21; { ActSet.none with kind := 4, value := f, fate := f }
  | 3 => { ActSet.none with kind := 3, value := s.getP p.applied (O.MISS_HOST_QUEUE p.tile) }
  | _ => ActSet.none

/-- A step's lookup: its answer, the action set of a hit (`none`: it cannot be read), the entry hit (R173-R177, R190). -/
def State.stepLookup (s : State) (p : Pkt) (x : PlanStep) : Hit × Option ActSet × State :=
  let d := s.declP p x.table
  let key := x.key p.ctx
  if d.kind = 1 then
    let h := s.exactLookup x.table d (d.key key)
    match h.1 with
    | .hit v =>
      if x.role = 2 then (h.1, some ActSet.none, h.2)
      else
        let s := if d.refresh = 1 then h.2.refreshEntry x.table d v else h.2
        let r := s.resolve p (entryAction v)
        (h.1, r.1, r.2)
    | _ => (h.1, none, h.2)
  else if d.isLpm then
    let h := s.lpmLookup x.table d (beNat key)
    match h.1 with
    | .hit a => let r := h.2.resolve p a; (h.1, r.1, r.2)
    | _ => (h.1, none, h.2)
  else
    let h := s.rowLookup x.table d (beNat key)
    match h.1 with
    | .hit v => (h.1, some (rowActions v), h.2)
    | _ => (h.1, none, h.2)

/-- The learn step's entry on the packet's own port: only its age is refreshed (R186, R190). -/
def State.learnHit (s : State) (p : Pkt) (x : PlanStep) (v : Nat) (g : Gather) : Gather × State :=
  let d := s.declP p x.table
  let a := entryAction v
  let port := bits a 21 13
  let own := bits a 23 22 != 1 || port == p.inPort
  let refresh := d.refresh == 1 || (bits a 23 22 == 1 && port == p.inPort)
  let s := if refresh then s.refreshEntry x.table d v else s
  ({ g with ended := own, learned := some (if own then none else some (port, entryStatic v)) }, s)

/-- Run one step (R155, R172, R183, R186). -/
def State.runStep (s : State) (p : Pkt) (g : Gather) (x : PlanStep) : Gather × State :=
  let d := s.declP p x.table
  if x.role = 1 ∧ s.getP p.applied (O.SA_LOCK p.inPort) = 0 then (g, s)
  else
    let r := s.stepLookup p x
    let s := r.2.2
    if x.role = 2 then
      match r.1 with
      | .hit v => s.learnHit p x v g
      | .miss => ({ g with learned := some none }, s)
      | .bad => ({ g with blind := true }, s)
    else
      match r.1, r.2.1 with
      | .hit _, some a =>
        let g := if x.role = 3 then { g with domain := some a } else g
        let a := if x.role = 3 then { a with kind := 0 } else a
        ({ g with sets := g.sets ++ [⟨x.prec, a⟩] }, s)
      | .miss, _ =>
        let listed := d.kind = 1 ∧ d.prot = true ∧ s.inOverflow x.table (d.key (x.key p.ctx)) = true ∧ x.role ≠ 3
        let s := if listed then s.count64 (O.TABLE_COUNTS x.table 11) else s
        if x.role = 1 then ({ g with locked := true }, s)
        else
          let a := if listed then { ActSet.none with kind := 5, overflow := true } else s.missActions p x d.isLpm
          ({ g with sets := g.sets ++ [⟨x.prec, a⟩] }, s)
      | _, _ => ({ g with bad := true }, s)

def State.runSteps (s : State) (p : Pkt) (g : Gather) : List PlanStep → Gather × State
  | [] => (g, s)
  | x :: r => let y := s.runStep p g x; y.2.runSteps p y.1 r

/-! ### The associative search (R180-R182) -/

/-- A row of the image: value, mask, action reference, enabled. -/
structure MamRow where
  row    : Nat
  value  : Nat
  mask   : Nat
  action : Nat
  on     : Bool
deriving DecidableEq, Repr

def mamRow (row v : Nat) : MamRow := ⟨row, v % 2 ^ 320, v / 2 ^ 320 % 2 ^ 320, v / 2 ^ 640 % 2 ^ 24, bit v 664⟩

/-- A row of the active image (R181). -/
def mamActive (split : Bool) (half row : Nat) : Bool := !split || row / 2048 == half

/-- The search: the row hit, the fault entries that lie above it or stand alone, and whether one was met. A selector of
64 to 254, which names no context byte, gives a key byte of 0 (DESIGN CHOICE, log 122). -/
def State.mamSearch (s : State) (p : Pkt) : Option MamRow × Bool :=
  let t := p.tile
  let g := fun r e => s.getP p.applied r e
  let act := mamActive (g (O.MAM_SPLIT t) 0 != 0) (g (O.MAM_HALF t) 0)
  let key := leNat ((List.range 40).map fun i =>
    let k := g (O.MAM_KEY_SELECT t) i
    if k = 0xFF then 0 else nb (byteAt p.ctx k))
  let bad := (s.faults.damage.filter fun d => d.source == 0x3A0 + t && act d.addr).map (·.addr)
  let rows := (s.dict.objs.filter fun e => e.1.ref == O.MAM_IMAGE t && act e.1.el && !bad.contains e.1.el).map fun e =>
    mamRow e.1.el e.2
  let hit := rows.find? fun r => r.on && ((key ^^^ r.value) &&& r.mask) == 0
  (hit, bad.any fun b => match hit with | some r => decide (b < r.row) | none => true)

/-! ### Combining (R183) -/

/-- The winning contribution of a group: highest precedence, the earlier on a tie. -/
def winner (sets : List Contrib) (f : ActSet → Bool) : Option ActSet :=
  ((sets.filter fun c => f c.set).foldl (fun b c => match b with
    | none => some c
    | some x => if x.prec < c.prec then some c else some x) none).map (·.set)

/-- The field groups of all contributions. -/
def combine (sets : List Contrib) : ActSet :=
  let w := winner sets
  let d := (w fun a => a.kind != 0).getD ActSet.none
  { ActSet.none with
    kind := d.kind, queue := d.queue, value := d.value, eqValid := d.eqValid, eq := d.eq, fate := d.fate,
    overflow := d.overflow,
    policer := (w fun a => a.policer.isSome).bind (·.policer),
    mirA := (w fun a => a.mirA.isSome).bind (·.mirA),
    mirB := (w fun a => a.mirB.isSome).bind (·.mirB),
    vlan := ((w fun a => a.vlan % 8 != 0).map (·.vlan)).getD 0,
    copyTo := (w fun a => a.copyTo.isSome).bind (·.copyTo),
    postcard := sets.any (·.set.postcard), insert := sets.any (·.set.insert), noLearn := sets.any (·.set.noLearn) }

/-- Item 5: the destination settled; the first result is a discard code, 0 for none. A flood takes its own egress queue
where byte 13 names one, else the domain's (R174, log 91). -/
def settleDest (a : ActSet) (domain : Option ActSet) : Nat × ActSet :=
  match a.kind with
  | 0 => (0x2B, a)
  | 4 => (a.fate, a)
  | 5 =>
    match domain with
    | some d =>
      if d.kind = 2 then
        let q := if a.eqValid then a else d
        (0, { a with kind := 2, value := d.value, eqValid := q.eqValid, eq := q.eq, flood := true })
      else (0x29, a)
    | none => (0x29, a)
  | _ => (0, a)

/-! ### The learning bridge (R192) -/

/-- The learn cache's entry of an address and VID. -/
def State.cached (s : State) (key : Nat) : Option LearnE := s.lookup.cache.find? (·.key == key)

/-- Forwarding on the default path. -/
def State.bridge (s : State) (p : Pkt) : Nat × ActSet :=
  let dst := beAt p.ctx 16 6
  let hit := if dst / 2 ^ 40 % 2 = 1 then none else s.cached (dst * 2 ^ 16 + beAt p.ctx 28 2)
  match hit with
  | some e => if e.port = p.inPort then (0x2A, ActSet.none) else (0, { ActSet.none with kind := 1, value := e.port })
  | none => (0, { ActSet.none with kind := 2, value := s.getP p.applied O.PALE_FLOOD_GROUP, flood := true })

/-! ### A packet in the match stages -/

/-- A search checks the parity of every entry: one that fails is reported once, and waits for its repair (R182, R382). -/
def State.mamCheck (s : State) (t : Nat) : State :=
  let bad := s.faults.damage.filter fun d => d.source == 0x3A0 + t && !d.told
  s.each bad fun s d =>
    let s := s.reportR ⟨0x3A0 + t, unitId 2 t, unitId 2 t, detailM d.addr 0 1 1, d.injected⟩
    (s.disarm (0x3A0 + t) d.addr).damage { d with injected := false, told := true }

/-- The associative search, counted: its contribution (`none`: it cannot be read), and whether a fault entry decides
(R180, R182). -/
def State.mamStep (s : State) (p : Pkt) : Option ActSet × Bool × State :=
  let t := p.tile
  let m := s.mamSearch p
  let fault := m.2 && s.getP p.applied (O.MAM_FAULT_ACTION t) == 0
  let s := if m.2 then s.count64 (O.MATCH_COUNTS t 3) else s
  let s := s.mamCheck t
  match m.1 with
  | none => (some ActSet.none, fault, s)
  | some h =>
    let r := (s.count64 (O.MAM_HITS t) 1 h.row).resolve p h.action
    (r.1, fault, r.2)

/-- Settle a packet from what the steps and the search gave, in the order of R183. -/
def decide183 (g : Gather) (m : Option ActSet) (fault : Bool) (prec : Nat) : Nat × ActSet :=
  let a := combine (g.sets ++ [⟨prec, m.getD ActSet.none⟩])
  if g.bad || m == none then (0xC3, a)
  else if fault then (0xC2, a)
  else if g.locked then (0x07, a)
  else settleDest a g.domain

/-- The full plan and the associative search (R157, R183): fate code, action set, gathered results. -/
def State.fullMatch (s : State) (p : Pkt) : Nat × ActSet × Gather × State :=
  let r := s.runSteps p Gather.none (s.planP p)
  let m := r.2.mamStep p
  let d := decide183 r.1 m.1 m.2.1 (s.getP p.applied (O.MAM_PRECEDENCE p.tile))
  (d.1, d.2, r.1, m.2.2)

/-- The default path (R192): of the plan only a source-lock step runs; a Pale tile has no tables, so SA_LOCK 2 discards
there (R125). -/
def State.defaultMatch (s : State) (p : Pkt) : Nat × ActSet × Gather × State :=
  let s := s.count64 (O.MATCH_COUNTS p.tile 2)
  if p.pale then
    if s.getP p.applied (O.SA_LOCK p.inPort) = 2 then (0x07, ActSet.none, Gather.none, s)
    else let b := s.bridge p; (b.1, b.2, Gather.none, s)
  else
    let r := s.runSteps p Gather.none ((s.planP p).filter (·.role == 1))
    if r.1.bad then (0xC3, ActSet.none, r.1, r.2)
    else if r.1.locked then (0x07, ActSet.none, r.1, r.2)
    else let b := r.2.bridge p; (b.1, b.2, r.1, r.2)

/-- The learn table of a plan; 0xFF for Pale service. -/
def State.learnTable (s : State) (p : Pkt) : Option Nat :=
  if p.pale then some 0xFF else ((s.planP p).find? (·.role == 2)).map (·.table)

/-- Offer a sighting (R185, R186): one per tile and core clock. -/
def State.offer (s : State) (p : Pkt) (code : Nat) (a : ActSet) (g : Gather) : State :=
  match s.learnTable p with
  | none => s
  | some table =>
    let src := beAt p.ctx 22 6
    if !s.flag (O.LEARN_PORT p.inPort) || src / 2 ^ 40 % 2 == 1 || a.noLearn || code == 0xC2 || code == 0xC3 || g.blind then s
    else if (s.tile p.tile).offered = some s.coreClocks then s.count64 (O.MATCH_COUNTS p.tile 5)
    else
      let s := (s.modTile p.tile fun y => { y with offered := some s.coreClocks }).count64 (O.MATCH_COUNTS p.tile 4)
      if g.ended then s
      else
        let on := g.learned.getD none
        let time := p.stamps.getD (s.get O.LEARN_TIME_BASE) 0
        let y : Sighting := ⟨src * 2 ^ 16 + beAt p.ctx 28 2, p.inPort, p.member, p.tile, time, on.map (·.1),
          (on.map (·.2)).getD false, code == 0x07, table⟩
        { s with lookup := { s.lookup with offered := s.lookup.offered ++ [y] } }

/-- The policer of a packet with a destination (R243, R244). -/
def State.matchPolice (s : State) (p : Pkt) (a : ActSet) : Nat × Pkt × State :=
  match a.policer with
  | none => (0, p, s)
  | some x =>
    let n := p.bytes.length
    let lk := ((n : Int) + s.geti (O.OVERHEAD p.inPort)).toNat
    let mode := s.get (O.POLICER_MODE ((polRead (s.get O.POLICER_STATE x)).prof % 4096))
    let r := s.policePacket x lk
    (r.1, if r.1 = 0 && !p.ended && mode != 0 then { p with policed := some ⟨x, n, mode == 2⟩ } else p, r.2)

/-- The match stages run on a packet. -/
def State.matchPacket (s : State) (p : Pkt) : State :=
  let t := p.tile
  let y := s.tile t
  let s := (s.putTile t { y with reorder := y.reorder.filter (· != p.fid) }).count64 (O.MATCH_COUNTS t 1)
  match p.toHost with
  | some q =>
    let s := if p.dflt then s.count64 (O.MATCH_COUNTS t 2) else s
    s.putPkt { p with phase := .matched, act := { ActSet.none with kind := 3, value := q } }
  | none =>
    let r := if p.dflt then s.defaultMatch p else s.fullMatch p
    let code := r.1
    let a := r.2.1
    let s := if code = 0x07 then r.2.2.2.count64 (O.MATCH_COUNTS t 6) else r.2.2.2
    let pol := if code = 0 ∧ p.dflt = false then s.matchPolice p a else (0, p, s)
    let s := pol.2.2.offer p code a r.2.2.1
    let p := { pol.2.1 with phase := .matched, act := a }
    let code := if code = 0 then pol.1 else code
    if code = 0 then s.putPkt p else (s.putPkt p).discardArrival p code

/-! ### The learn cache (R187) -/

/-- An entry's window is open. -/
def State.windowOpen (s : State) (e : LearnE) : Bool := decide (s.now < e.opened + s.get O.SUPPRESS_US * 1250)

def State.putCache (s : State) (l : List LearnE) : State := { s with lookup := { s.lookup with cache := l } }

/-- Make room for a new entry: of several seen last at the same time the first in the cache goes (DESIGN CHOICE, log
123). -/
def State.cacheRoom (s : State) : State :=
  match s.lookup.cache with
  | [] => s
  | e0 :: _ =>
    if s.lookup.cache.length < 16384 then s
    else
      let old := s.lookup.cache.foldl (fun b e => if e.lastSeen < b.lastSeen then e else b) e0
      let s := if s.windowOpen old then s.count64 (O.LEARN_COUNTS 8) else s
      s.putCache (s.lookup.cache.filter (·.key != old.key))

/-- The event of a sighting; its sequence number is LEARN_SEQ afterwards. -/
def State.sightingEvent (s : State) (y : Sighting) (type : Nat) (contested : Bool) (prev first : Nat) : State :=
  s.learnEvent y.time (leNat (beBytes 8 y.key)) type (b01 contested + 2 * b01 y.static + 4 * b01 y.locked) y.port y.member
    prev y.table y.tile first

/-- One sighting at the cache. -/
def State.sight (s : State) (y : Sighting) : State :=
  let s := s.count64 (O.LEARN_COUNTS 1)
  let fresh := fun (s : State) =>
    let s := match y.prev with
      | none => (s.sightingEvent y 1 false 0xFFFF 0).count64 (O.LEARN_COUNTS 3)
      | some q => (s.sightingEvent y 2 false q 0).count64 (O.LEARN_COUNTS 4)
    let e : LearnE := ⟨y.key, y.port, s.get O.LEARN_SEQ, s.now, s.now, false⟩
    s.putCache (s.lookup.cache.filter (·.key != y.key) ++ [e])
  match s.cached y.key with
  | none => fresh s.cacheRoom
  | some e =>
    let put := fun (s : State) (e : LearnE) => s.putCache (s.lookup.cache.map fun x => if x.key = e.key then e else x)
    if !s.windowOpen e then fresh s
    else if e.port = y.port then (put s { e with lastSeen := s.now }).count64 (O.LEARN_COUNTS 2)
    else if !e.contested then
      let s := (s.sightingEvent y 2 true e.port e.seq).count64 (O.LEARN_COUNTS 4)
      (put s { e with contested := true }).count64 (O.LEARN_COUNTS 5)
    else s.count64 (O.LEARN_COUNTS 6)

/-! ### Meanings -/

/-- LEARN_SIGHTING (R187): the oldest sighting offered reaches the cache. -/
def execLearnSighting (s : State) : Out := live s fun s =>
  match s.lookup.offered with
  | [] => s
  | y :: r => ({ s with lookup := { s.lookup with offered := r } }).sight y

/-- MAM_SCRUB (R182): a parity check sees an odd number of bits in error. -/
def execMamScrub (t : Tile) (row : BitVec 12) (f : Ecc) (s : State) : Out := live s fun s =>
  if f = .one then s.found (0x3A0 + t) row.toNat .one else s

/-- MAM_ENTRY_REPAIR (R182, R376): the entry is rewritten from the shadow; one that no search has met is reported as the
scrubber's. -/
def execMamEntryRepair (t : Tile) (row : BitVec 12) (s : State) : Out := live s fun s =>
  match s.damaged (0x3A0 + t) row.toNat with
  | none => s
  | some d =>
    let r : Report := ⟨0x3A0 + t, unitId 2 t, unitId 2 t, detailM row.toNat 0 2 1, d.injected⟩
    (if d.told then s else s.reportR r).mend (0x3A0 + t) row.toNat

end Sys2Proof.Machine
end

