-- ==== Sys2Proof/Machine/Enqueue.lean ====
section
/-!
DEFINITION. Sys2Proof/Machine/Enqueue.lean: the enqueue interface (R202-R207, R214-R222, R231, R312), what a queue does
with a packet that reaches it (R105, R254, R283), releases by command (R209, R210), descriptor reads, and the postcard
builder's frames (R308, R309).
-/
namespace Sys2Proof.Machine

/-! ### Destinations (R207, R214, R215, R312) -/

/-- A group's row and a member's, as the enqueue interface reads them. -/
def State.groupRow (s : State) (g : Nat) : Nat × State := s.storeRow (2 ^ 24 + g) (s.get O.MCAST_GROUPS g)
def State.memberRow (s : State) (m : Nat) : Nat × State := s.storeRow (2 ^ 25 + m) (s.get O.MCAST_MEMBERS m)

/-- The valid members among some member rows: port and queue, in list order. -/
def State.memberRows (s : State) : List Nat → List (Nat × Nat) × State
  | [] => ([], s)
  | m :: r =>
    let x := s.memberRow m
    let y := x.2.memberRows r
    (if bit x.1 13 then (x.1 % 512, bits x.1 12 9) :: y.1 else y.1, y.2)

/-- The members of a multicast group whose row is `w`. -/
def State.groupMembers (s : State) (w : Nat) : List (Nat × Nat) × State :=
  if bit w 28 then (s.allPorts.map fun p => (p, 0), s)
  else s.memberRows ((List.range (bits w 27 18)).map (w % 2 ^ 18 + ·))

/-- The egress replicas of a packet; a member whose port is not in the active map is counted with 0x48. -/
def State.egressDests (s : State) (p : Pkt) : List Dest × Pkt × State :=
  let a := p.act
  if a.kind = 1 then ([⟨a.value * 16 + a.queue, .egress, a.vlan⟩], p, s)
  else if a.kind = 2 then
    let w := s.groupRow a.value
    let incl := bit w.1 29 && !a.flood
    let l := w.2.groupMembers w.1
    let s := l.2
    let ms := l.1.filter fun m => incl || p.src != .port m.1
    let q := fun m : Nat × Nat => m.1 * 16 + (if a.eqValid then a.eq else m.2)
    let absent := ms.filter fun m => !s.isPort m.1
    let s' := s.each absent fun s m => (s.outcome p (q m) 0x48 false 0).count64 (O.BUF_COUNTS 10)
    ((ms.filter fun m => s.isPort m.1).map fun m => ⟨q m, .egress, a.vlan⟩,
      { p with notFwd := p.notFwd + absent.length }, s')
  else ([], p, s)

/-- Offer a packet to mirror session `m`: it copies the first of every MIRROR_SAMPLE. -/
def State.mirrorSample (s : State) (p : Pkt) (m : Nat) : Bool × State :=
  if s.getP p.applied (O.MIRROR_PORT m) = 0xFFFF then (false, s)
  else
    let n := s.getP p.applied (O.MIRROR_SAMPLE m)
    let k := look 0 s.ledger.mirSeen m
    let next := if k + 1 < n then k + 1 else 0
    (k == 0, { s with ledger := { s.ledger with mirSeen := putN 0 m next s.ledger.mirSeen } })

/-- The ingress copies that the action set's mirror sessions ask for, A then B. -/
def State.mirrorDests (s : State) (p : Pkt) : List Nat → List Dest × State
  | [] => ([], s)
  | m :: r =>
    let x := s.mirrorSample p m
    let y := x.2.mirrorDests p r
    (if x.1 then ⟨8320 + m, .mirror, 0⟩ :: y.1 else y.1, y.2)

/-- Every destination of a matched packet in token order (R207). -/
def State.destinations (s : State) (p : Pkt) : List Dest × Pkt × State :=
  let e := s.egressDests p
  let m := e.2.2.mirrorDests p (p.act.mirA.toList ++ p.act.mirB.toList)
  let host := (if p.act.kind = 3 then [p.act.value] else []) ++ p.act.copyTo.toList
  (e.1 ++ m.1 ++ host.map fun q => ⟨q, .host, 0⟩, e.2.1, m.2)

/-! ### Admission of a packet (R202, R217, R218, R221, R336) -/

/-- What admission answered for a destination. -/
structure Verdict where
  dest : Dest
  code : Nat
  acct : Acct
  occ  : Nat
deriving DecidableEq, Repr

/-- Admit destinations in token order; an unbound host queue refuses in place of admission (R336). -/
def State.admitAll (s : State) (p : Pkt) : List Dest → List Verdict × Pkt × State
  | [] => ([], p, s)
  | d :: r =>
    if d.kind = .host ∧ s.get (O.HOSTQ_CHANNEL d.queue) = 0xFFFF then
      let x := s.admitAll p r
      (⟨d, 0xF6, .shared, 0⟩ :: x.1, x.2)
    else
      let a := s.admitTo p d
      let x := a.2.2.2.2.admitAll a.2.2.2.1 r
      (⟨d, a.1, a.2.1, a.2.2.1⟩ :: x.1, x.2)

/-- The cells a destination is charged (R217): exact at the frame's end, before that for the longest frame. -/
def State.chargeOf (s : State) (p : Pkt) : Nat :=
  if p.ended then cellsFor p.bytes.length
  else match p.src with
    | .port _ => (s.maxFrameOf p + 1 + 255) / 256
    | _ => 64

/-- The lossless class (R221), by the queue number of the first egress replica; a packet with none has no queue number. -/
def State.classOf (s : State) (p : Pkt) (ds : List Dest) : Nat :=
  match p.src with
  | .port i => s.lossless p.applied i (((ds.find? (·.kind == .egress)).map (·.queue % 16)).getD 32)
  | _ => 0

/-- Refuse a packet as a whole (R202): every destination is counted with its code, the record takes `code`. -/
def State.refuseAll (s : State) (p : Pkt) (vs : List (Dest × Nat)) (code : Nat) : State :=
  let s := s.each vs fun s v => s.refuse p v.1.queue v.2
  s.discardArrival { p with notFwd := p.notFwd + vs.length } code

/-! ### A packet reaches its queues (R105, R239, R254, R283) -/

/-- A launch time within the port's window and horizon (R254). -/
def State.launchOk (s : State) (p : Pkt) (port : Nat) : Bool :=
  let now := s.tbUnits (bits p.timeW 22 20)
  let at_ := timeUnits p.timeV
  p.launch && decide (at_ ≤ now + s.get (O.LAUNCH_HORIZON_MS port) * 1000000 * nsU) &&
    decide (now ≤ at_ + s.get (O.LAUNCH_WINDOW_NS port) * nsU)

/-- A port that discards what its queues hold: removed, or not UP with FLUSH_ON_DOWN (R102, R105). -/
def State.flushing (s : State) (port : Nat) : Bool :=
  !s.isPort port || (!(s.port port).up && s.flag (O.FLUSH_ON_DOWN port))

/-- The code a queue discards an arriving packet with; 0 where it keeps it. -/
def State.arrivalCode (s : State) (p : Pkt) (g : Nat) : Nat :=
  match s.portFor p.applied g with
  | none => 0
  | some port =>
    if s.flushing port then 0x90
    else if s.launchQueue g && !s.launchOk p port then 0x83
    else 0

/-- Discard one holder of a packet in a queue, counted at the queue as a scheduling discard where it is one (R256). -/
def State.discardHolder (s : State) (fid tok g code : Nat) : State :=
  let s := match code with
    | 0x80 => s.count64 (O.SCHED_COUNTS g 7)
    | 0x81 | 0x83 => s.count64 (O.SCHED_COUNTS g 8)
    | 0x82 => s.count64 (O.SCHED_COUNTS g 9)
    | 0x91 => s.count64 (O.MAC_COUNTS ((s.schedPort g).getD 0) 13)
    | _ => s
  s.releaseAt fid tok code 0

/-- Write the queue entry of a holder: the first packet of a member starts its finish tag, and what its last packet still
owed is dropped (R239). -/
def State.queueUp (s : State) (fid : Nat) (h : Holder) : State :=
  let l := s.queue h.queue
  let s := if l = [] then s.settled h.queue else s
  let e := s.takeEntry
  let s := e.2
  let s := match s.pkt? fid with
    | none => s
    | some p =>
      let first := fun (s : State) (lp : Nat) => s.putPkt (p.modHolder h.tok fun x => { x with alone := l == [], tagLp := lp, entry := e.1 })
      match s.portFor p.applied h.queue with
      | some port =>
        let n := s.schedLen port (s.frameLen p h)
        if l = [] then first (s.tagArrival port h.queue n) (if p.ended then 0 else n) else first s 0
      | none => first s 0
  { s with buf := { s.buf with queues := putN [] h.queue (l ++ [(fid, h.tok)]) s.buf.queues } }

/-- Every holder of a new packet reaches its queue, which may discard it there and then. -/
def State.deliver (s : State) (fid : Nat) (hs : List Holder) : State :=
  let s := s.each hs fun s h => s.queueUp fid h
  s.each hs fun s h =>
    match s.pkt? fid with
    | some p => let c := s.arrivalCode p h.queue; if c = 0 then s else s.discardHolder fid h.tok h.queue c
    | none => s

/-! ### Enqueue (R202) -/

/-- The holders of admitted destinations, tokens consecutive from 0. -/
def holdersOf (now : Nat) (vs : List Verdict) : List Holder :=
  (vs.filter (·.code == 0)).zipIdx.map fun (v, i) =>
    ⟨i, v.dest.kind, v.dest.queue, v.acct, v.occ, false, now, false, v.dest.vlan, 0, 0, 0, true, 0⟩

/-- The packet comes into being: `s` already carries its admission charges and its descriptor. -/
def State.makePacket (s : State) (p : Pkt) (h g : Nat) (vs : List Verdict) : State :=
  let hs := holdersOf s.now vs
  let no := vs.filter (·.code != 0)
  let p : Pkt := { p with
    enq := true, phase := .enqueued, handle := h, gen := g, issued := hs.length, holders := hs,
    ext := decide (64 < hs.length), exact := p.ended, notFwd := p.notFwd + no.length, occAll := s.buf.used.length,
    mirrored := hs.any (·.kind == .mirror) }
  let x : Nat × State := if p.ext then s.takeExt else (0, s)
  let p : Pkt := { p with extNo := x.1 }
  let s := (x.2.arrivalSub p p.cells.length).putPkt p
  let s := (s.lower O.QUEUE_ENTRIES_FREE hs.length).count64 (O.BUF_COUNTS 1)
  let s := if p.cls = 0 then s
    else (s.higher (O.CLASS_CELLS p.inPort) p.charge (p.cls - 1)).pfcCheck p.inPort p.cls
  let s := s.each no fun s v => s.refuse p v.dest.queue v.code
  let s := s.each (hs.filter (·.kind == .mirror)) fun s h => s.count64 (O.MIRROR_COPIES (h.queue - 8320))
  s.deliver p.fid hs

/-- Enqueue a packet to its destinations: the code is 0, or the code its record closed with. -/
def State.enqueueTo (s : State) (p : Pkt) (ds : List Dest) : Nat × State :=
  let p := { p with charge := s.chargeOf p, cls := s.classOf p ds }
  match s.allocDesc with
  | none => (0x41, s.refuseAll p (ds.map fun d => (d, 0x41)) 0x41)
  | some (h, g, s1) =>
    let r := s1.admitAll p ds
    let n := (r.1.filter (·.code == 0)).length
    let whole := fun c => r.1.map fun v => (v.dest, if v.code = 0 then c else v.code)
    let s := s1.freeDesc h
    if n = 0 then
      let c := ((r.1.head?).map (·.code)).getD 0x47
      (c, s.refuseAll p (whole c) c)
    else if 64 < n ∧ s.get O.EXTENSIONS_FREE = 0 then (0x45, s.refuseAll p (whole 0x45) 0x45)
    else if s.get O.QUEUE_ENTRIES_FREE < n then (0x46, s.refuseAll p (whole 0x46) 0x46)
    else (0, r.2.2.makePacket r.2.1 h g r.1)

/-- Enqueue a matched packet. -/
def State.enqueuePkt (s : State) (p : Pkt) : State :=
  let d := s.destinations p
  if d.1 = [] then d.2.2.discardArrival d.2.1 0x47 else (d.2.2.enqueueTo d.2.1 d.1).2

/-! ### Postcards (R308, R309) -/

/-- Arrival cells for a device-made frame: the lowest banks in turn, as for any write (R197). -/
def State.deviceFrame (s : State) (t : Nat) (bytes : List Byte) : Option (Pkt × State) :=
  let r := s.grantCells (cellsFor bytes.length)
  if r.1.length < cellsFor bytes.length then none
  else
    let p := { Pkt.fresh s.buf.nextFid (.device t) t with
      bytes := bytes, ended := true, filtered := true, cells := r.1, phase := .matched, dcIn := s.dc, tsIn := s.ledgerTime,
      applied := s.tagsAt t }
    some (p, r.2.addPkt p)

/-- Count records lost at a builder (R308). -/
def State.postcardLost (s : State) (t n : Nat) : State :=
  let x := s.tile t
  let s := (s.putTile t { x with postLost := x.postLost + n }).count64 (O.LEDGER_COUNTS 6) n
  s.report (0x820 + t) (unitId 2 t) (detailS (leBytes 4 (x.postLost + n)))

/-- A postcard frame of `n` records of tile `t`'s builder: header, message, headers filled in, FCS. -/
def State.postcardFrame (s : State) (t n : Nat) : List Byte :=
  let x := s.tile t
  let hdr := (s.getAll O.POSTCARD_HEADER (s.get O.HEADER_LEN)).map nb
  let rs := x.postRecs.take n
  let b := hdr ++ exportHeader 3 rs.length 48 (x.postSeq + 1) s.ledgerTime t x.postLost ++ rs.flatten
  let o := s.get O.POSTCARD_IP_OFFSET
  let b := if o = 0xFF ∨ b.length < o + 20 then b
    else if byteAt b o / 16 = 6 then fillIpv6 b o else fillIpv4 b o true
  b ++ fcs b

/-- The builder makes a frame of its first records, up to 24, and gives it to POSTCARD_QUEUE; without cells for it the
records wait (log 40). -/
def State.postcard (s : State) (t : Nat) : State :=
  let x := s.tile t
  let n := min 24 x.postRecs.length
  if n = 0 then s
  else
    let frame := s.postcardFrame t n
    let took := s.putTile t { x with postRecs := x.postRecs.drop n, postSeq := x.postSeq + 1, postLost := 0 }
    let q := s.get O.POSTCARD_QUEUE
    let kind := if q < 8192 then HKind.egress else HKind.host
    match took.deviceFrame t frame with
    | none => s
    | some (p, s) =>
      let r := s.enqueueTo p [⟨q, kind, 0⟩]
      if r.1 = 0 then r.2.count64 (O.LEDGER_COUNTS 5) else r.2.postcardLost t n

/-- A builder holds 1,024 records: what finds it full is lost (R308). -/
def State.builderKeeps (s : State) (t : Nat) : State :=
  let n := (s.tile t).postRecs.length
  if n ≤ 1024 then s
  else (s.modTile t fun x => { x with postRecs := x.postRecs.take 1024 }).postcardLost t (n - 1024)

/-- Every builder makes a frame of each 24 records it holds, at once (R308). -/
def State.postcardsDue (s : State) : State :=
  s.each ((s.tiles.filter fun e => 24 ≤ e.2.postRecs.length).map (·.1)) fun s t =>
    (s.each (List.range ((s.tile t).postRecs.length / 24)) fun s _ => s.postcard t).builderKeeps t

/-! ### Meanings -/

/-- ENQUEUE (R202): the oldest matched packet of port `p` on tile `t`. -/
def execEnqueue (t : Tile) (p : Port) (s : State) : Out := live s fun s =>
  match s.buf.pkts.find? fun k => k.src == .port p && k.phase == .matched && k.tile == t.val with
  | some k => (s.enqueuePkt k).postcardsDue
  | none => s.postcardsDue

/-- The unit that a refused release names (R431). -/
def State.releasingUnit (s : State) : Sender → Nat
  | .queue q =>
    if 8192 ≤ q.val ∧ q.val < 8320 then
      let c := s.get (O.HOSTQ_CHANNEL q)
      if c = 0xFFFF then unitId 6 0 else unitId 15 c
    else match s.schedPort q with
      | some p => unitId 10 p
      | none => unitId 6 0
  | .enqueue t => unitId 2 t
  | .channel c => unitId 15 c
  | .store => unitId 6 0

/-- TOKEN_RELEASE (R209, R210, R228): a unit says it has finished with a packet; a foreign or double release changes
nothing, and the release of a lost packet's token is absorbed. -/
def execTokenRelease (hw : BitVec 27) (tok : BitVec 10) (sender : Sender) (s : State) : Out := live s fun s =>
  let h := hw.toNat % 2 ^ 21
  let k := tok.toNat
  let unit := s.releasingUnit sender
  match s.byHandle h with
  | none => s.refusedRelease 0x640 hw.toNat k unit
  | some p =>
    let d := s.useDesc p
    let s := d.2
    if d.1 then (s.releaseAt p.fid k 0xC6 0).postcardsDue
    else if p.gen ≠ hw.toNat / 2 ^ 21 ∨ p.issued ≤ k then s.refusedRelease 0x640 hw.toNat k unit
    else
      match p.holders.find? (·.tok == k) with
      | none => s.refusedRelease 0x641 hw.toNat k unit
      | some x => (s.releaseTok p x (if p.act.overflow then 0x2C else 0x00) (s.frameLen p x)).postcardsDue

/-- POSTCARD_FLUSH_TIMEOUT (R308). -/
def execPostcardFlushTimeout (t : Tile) (s : State) : Out := live s fun s => s.postcard t

end Sys2Proof.Machine
end

