-- ==== Sys2Proof/Machine/Arrive.lean ====
section
/-!
DEFINITION. Sys2Proof/Machine/Arrive.lean: the meanings of frames that reach an ingress MAC (R23, R104, R107, R111, R112,
R118) and of packets that enter the match stages (R21, R129, R157). Records that these close may complete a postcard frame
(R308).
-/
namespace Sys2Proof.Machine

/-- FRAME_RECEIVE (R104, R107, R118): a start delimiter opens a frame; a continuation adds to the one being reassembled,
once the mCRC of the fragment before it was valid (else that fragment ended the frame, FRAME_RECEIVE_END). A port in
another state has no MAC to reach. A continuation with no frame open counts in .06, every other reassembly error in .05,
and .03 counts the continuations (DESIGN CHOICE, log 78). -/
def execFrameReceive (p : Port) (smd : Smd) (bytes : List Byte) (s : State) : Out := live s fun s =>
  if !s.macOpen p then s
  else
    match smd with
    | .whole => if (s.port p).rxWhole.isSome then s else s.openFrame p false bytes
    | .start =>
      let s := if (s.port p).rxPre.isSome then s.reassemblyError p else s
      (s.openFrame p true bytes).postcardsDue
    | .cont k =>
      let x := s.port p
      match x.rxPre with
      | none => s.count64 (O.PREEMPT_COUNTS p 6)
      | some fid =>
        if x.rxCount % 4 ≠ k.val then ((s.moreBytes p none bytes).reassemblyError p).postcardsDue
        else
          let s := s.putPort p { x with rxCount := x.rxCount + 1 }
          let s := s.count64 (O.PREEMPT_COUNTS p 3)
          (s.moreBytes p (some fid) bytes).postcardsDue

/-- FRAME_RECEIVE_END (R23): the last bytes of the frame on the express or the preemptable receive path, and whether the
PCS found an error within it. -/
def execFrameReceiveEnd (p : Port) (preemptable : Bool) (bytes : List Byte) (rxError : Bool) (s : State) : Out :=
  live s fun s =>
    let x := s.port p
    match (if preemptable then x.rxPre else x.rxWhole) with
    | none => s
    | some fid =>
      let s := s.putPort p (if preemptable then { x with rxPre := none, rxCount := 0 } else { x with rxWhole := none })
      let s := s.moreBytes p (some fid) bytes
      let alive := match s.pkt? fid with | some q => q.phase != .returning | none => false
      let s := s.endFrame fid preemptable rxError
      let good := alive && (match s.pkt? fid with | some q => q.spoilt == 0 | none => false)
      let s := if preemptable && x.rxCount != 0 && good then s.count64 (O.PREEMPT_COUNTS p 4) else s
      s.postcardsDue

/-- PAUSE_FRAME_RECEIVE (R111, R112): a whole MAC control frame arrives and is consumed. -/
def execPauseFrameReceive (p : Port) (bytes : List Byte) (s : State) : Out := live s fun s =>
  if !s.macOpen p || (s.port p).rxWhole.isSome then s
  else
    let fid := s.buf.nextFid
    let s := s.openFrame p false bytes
    (s.modPort p fun x => { x with rxWhole := none }).endFrame fid false false

/-- MATCH_START (R21, R129, R157): the port's oldest frame enters the match stages once its context is there. -/
def execMatchStart (t : Tile) (p : Port) (s : State) : Out := live s fun s =>
  match s.matchHead p with
  | none => s
  | some k => if k.tile = t.val ∧ k.phase = .reorder then (s.matchPacket k).postcardsDue else s

end Sys2Proof.Machine
end

