-- ==== Sys2Proof/Machine/Egress.lean ====
section
/-!
DEFINITION. Sys2Proof/Machine/Egress.lean: picking a frame (R233-R235, R247-R250, R254, R255, R257), its start and its
end at the egress MAC (R22, R208, R213, R224), fragments and tails (R117, R119, R121, R248), and adding a holder (R212,
R312).
-/
namespace Sys2Proof.Machine

/-! ### Heads of members -/

/-- The head packet of a queue, with its holder. -/
def State.head (s : State) (g : Nat) : Option (Pkt × Holder) :=
  match s.queue g with
  | [] => none
  | (fid, tok) :: _ =>
    match s.pkt? fid with
    | none => none
    | some p => (p.holders.find? (·.tok == tok)).map fun h => (p, h)

/-- A packet of member `g` takes the preemptable MAC now, by the settings of its epoch (R44, R115); a launch-mode queue is
express (R254). -/
def State.preemptable (s : State) (port g : Nat) (p : Pkt) : Bool :=
  s.flag (O.PREEMPT_ACTIVE port) && bit (s.getP p.applied (O.PREEMPT_QUEUES port)) (gateBit g) && !s.launchQueue g

/-- The packet may go cut-through from port `port` (R22). -/
def State.cutThroughOk (s : State) (port : Nat) (p : Pkt) (h : Holder) : Bool :=
  match p.src with
  | .port i => s.getP p.applied (O.CUT_THROUGH port) != 0 && decide (s.get (O.SPEED_ACTIVE port) ≤ s.get (O.SPEED_ACTIVE i)) && h.alone
  | _ => false

/-- Ready: complete, or it may go cut-through. -/
def State.ready (s : State) (port : Nat) (p : Pkt) (h : Holder) : Bool := p.ended || s.cutThroughOk port p h

/-- The first legal cut's data and overhead: 64 × (1 + a) (R117). -/
def State.firstCut (s : State) (port : Nat) (p : Pkt) : Nat := 64 * (1 + s.getP p.applied (O.ADD_FRAG_SIZE port))

/-- `n` bytes after `from_`, with the guard margin, lie within `until_`, in units: exact, the speed multiplied out
(R247). -/
def State.fits (s : State) (port from_ until_ n : Nat) : Bool :=
  let sp := s.get (O.SPEED_ACTIVE port)
  decide ((from_ + s.get (O.GUARD_MARGIN_NS port) * nsU) * sp + n * 8 * nsU ≤ until_ * sp)

/-- The guard band test of a packet of `f` bytes (R247, R248): t0 and Tc count from now. -/
def State.guardOk (s : State) (port g f : Nat) (p : Pkt) : Bool :=
  let t0 := s.leadU port
  match s.nextClose port (gateBit g) t0 with
  | none => true
  | some tc =>
    s.fits port t0 tc (f + 8) ||
    (s.preemptable port g p && decide (s.firstCut port p + 59 < f) && s.fits port t0 tc (8 + s.firstCut port p))

/-- A head frame that no open span of its gate can take (R250). -/
def State.neverFits (s : State) (port g f : Nat) (p : Pkt) : Bool :=
  match s.longestSpan port (gateBit g) (s.leadU port) with
  | none => false
  | some span => !s.fits port 0 span (if s.preemptable port g p then 8 + s.firstCut port p else f + 8)

/-- A launch head is due when t0 reaches its launch time (R254, R283, R284). -/
def State.launchDue (s : State) (port : Nat) (p : Pkt) : Bool :=
  p.launch && decide (timeUnits p.timeV ≤ timeUnits (s.txTime port (bits p.timeW 22 20)))

/-- A launch head that has not started by its launch time plus LAUNCH_WINDOW_NS (R254, R265): a pick now would start it
later. -/
def State.launchLate (s : State) (port : Nat) (p : Pkt) : Bool :=
  p.launch && decide (timeUnits p.timeV + s.get (O.LAUNCH_WINDOW_NS port) * nsU < timeUnits (s.txTime port (bits p.timeW 22 20)))

/-- A head past its queue's residence limit (R255). -/
def State.tooOld (s : State) (g : Nat) (h : Holder) : Bool :=
  let us := s.get (O.MAX_RESIDENCE_US g)
  us != 0 && decide (h.since + us * 1250 < s.now)

/-! ### Discards at a pick (R250, R254, R255, R257) -/

/-- The code a pick discards a member's head with; 0 where it stays. A head without a launch time, which was queued before a
commit made its queue a launch-mode queue, leaves as one that arrives there does (R283, log 114). -/
def State.headCode (s : State) (port g : Nat) : Nat :=
  match s.head g with
  | none => 0
  | some (p, h) =>
    if s.tooOld g h then 0x82
    else if s.launchQueue g && !p.launch then 0x83
    else if s.launchQueue g && s.launchLate port p then 0x81
    else if s.neverFits port g (s.frameLen p h) p then 0x80 else 0

/-- Every member's head is looked at once; a member that loses its head waits for the next pick. -/
def State.sweepHeads (s : State) (port : Nat) : List Nat → List Nat × State
  | [] => ([], s)
  | g :: r =>
    let c := s.headCode port g
    match s.head g with
    | none => s.sweepHeads port r
    | some (p, h) =>
      if c = 0 then let x := s.sweepHeads port r; (g :: x.1, x.2)
      else (s.discardHolder p.fid h.tok g c).sweepHeads port r

/-! ### Eligibility and choice (R233, R234) -/

/-- Every condition of R233 for a member on a path, but the guard band. -/
def State.mayGo (s : State) (port : Nat) (pre : Bool) (g : Nat) : Bool :=
  match s.head g with
  | none => false
  | some (p, h) =>
    s.preemptable port g p == pre && s.ready port p h && !(decide (g < 8192) && s.pausedQueue port (g % 16)) &&
    bit (s.openIn port (s.leadU port)) (gateBit g) && decide (0 ≤ s.tokens g) &&
    (!s.launchQueue g || s.launchDue port p)

/-- The guard band test of a member's head. -/
def State.headGuard (s : State) (port g : Nat) : Bool :=
  match s.head g with
  | none => false
  | some (p, h) => s.guardOk port g (s.frameLen p h) p

/-- The fair member with the earliest finish tag; ties go to the one listed first. -/
def State.earliest (s : State) (gs : List Nat) : Option Nat :=
  gs.foldl (fun b g => match b with
    | none => some g
    | some x => if earlier (s.get (O.FINISH_TAG g)) (s.get (O.FINISH_TAG x)) then some g else some x) none

/-- The member picked of those eligible, in member order (R234). -/
def State.choose (s : State) (gs : List Nat) : Option Nat :=
  match gs.find? s.launchQueue with
  | some g => some g
  | none =>
    match (gs.filter s.strictQueue).getLast? with
    | some g => some g
    | none => s.earliest (gs.filter s.fairQueue)

/-! ### Cells read by a holder (R223, R224) -/

/-- A unit reads a cell: whether it cannot be corrected. The data is corrected, the cell is not rewritten; the reader
reports its bank (R223, R371). `access` is the code of R376. -/
def State.readCell (s : State) (reader access c : Nat) : Bool × State :=
  let k := bankOfCell c
  let r := s.checkWord (0x400 + k) (0x4C0 + k) (unitId 3 k) reader c c access
  (decide (1 < r.1), if r.1 = 0 then r.2 else r.2.count64 (O.BANK_ERRORS k) 1 (r.1 - 1))

/-- The cells of a packet, without its first, that hold its bytes from `lo` up to `hi`; the first is read at the frame's
start. -/
def cellsWithin (p : Pkt) (lo hi : Nat) : List Nat :=
  (p.cells.zipIdx.filter fun e => decide (0 < e.2) && decide (lo ≤ 256 * e.2) && decide (256 * e.2 < hi)).map (·.1)

/-- The byte at which the `k`th cell of those starts. -/
def cellStart (lo k : Nat) : Nat := 256 * (max 1 ((lo + 255) / 256) + k)

/-- The egress tile of port `port` reads cells in order: whether one of them cannot be corrected, and how many come before
the first that cannot. -/
def State.readRun (s : State) (port : Nat) (cs : List Nat) : Bool × Nat × State :=
  cs.foldl (fun a c =>
    let r := a.2.2.readCell (unitId 2 (port / 16)) 1 c
    (a.1 || r.1, if a.1 || r.1 then a.2.1 else a.2.1 + 1, r.2)) (false, 0, s)
def State.readCells (s : State) (port : Nat) (cs : List Nat) : Bool × State :=
  ((s.readRun port cs).1, (s.readRun port cs).2.2)

/-! ### Adding a holder (R212, R312) -/

/-- A copy that is not made is counted at the mirror queue; the packet counts one destination more not forwarded. -/
def State.refuseAdd (s : State) (p : Pkt) (m code : Nat) : State :=
  let s := match code with
    | 0x49 => s.count64 (O.BUF_COUNTS 9)
    | 0x45 => s.count64 (O.BUF_COUNTS 3)
    | _ => s
  (s.refuse p (8320 + m) code).putPkt { p with notFwd := p.notFwd + 1 }

/-- Add a holder of mirror session `m` to a packet; the copy carries the VLAN operation of the holder that asks. -/
def State.addHolder (s : State) (p : Pkt) (x : Holder) (m : Nat) : State :=
  let o := s.mirrorSample p m
  let s := o.2
  if !o.1 then s
  else if 1024 ≤ p.issued then s.refuseAdd p m 0x49
  else if 64 ≤ p.issued ∧ p.ext = false ∧ s.get O.EXTENSIONS_FREE = 0 then s.refuseAdd p m 0x45
  else
    let a := s.admitTo p ⟨8320 + m, .mirror, x.vlan⟩
    if a.1 ≠ 0 then s.refuseAdd p m a.1
    else
      let p := a.2.2.2.1
      let s := a.2.2.2.2
      let h : Holder := ⟨p.issued, .mirror, 8320 + m, a.2.1, a.2.2.1, false, s.now, false, x.vlan, 0, 0, 0, true, 0⟩
      let ext := decide (64 ≤ p.issued) && !p.ext
      let y := if ext then s.takeExt else (p.extNo, s)
      let s := y.2.putPkt { p with
        issued := p.issued + 1, holders := p.holders ++ [h], ext := p.ext || ext, extNo := y.1, mirrored := true }
      let s := (s.lower O.QUEUE_ENTRIES_FREE 1).count64 (O.BUF_COUNTS 5)
      (s.count64 (O.MIRROR_COPIES m)).deliver p.fid [h]

/-! ### The start of a frame -/

/-- What the pick charges: the queue entry goes, tokens, finish tags and the queue's counts follow (R239, R241, R259). A
further packet that is charged a provisional length is marked with it (R237). -/
def State.chargePick (s : State) (port g : Nat) (p : Pkt) (h : Holder) : State :=
  let l := s.schedLen port (s.frameLen p h)
  let s := s.unqueue g p.fid h.tok
  let s := ((s.count64 (O.SCHED_COUNTS g 3)).count64 (O.SCHED_COUNTS g 4) l).tokensAdd g (-l)
  if !s.fairQueue g then s
  else match s.head g with
    | none => s.tagPick port g none
    | some (q, k) =>
      let n := s.schedLen port (s.frameLen q k)
      let s := s.tagPick port g (some n)
      if q.ended then s else s.putPkt (q.modHolder k.tok fun x => { x with tagLp := n })

/-- A frame's timestamp point and first bit become known: it starts on the wire now, or after `gap` bytes; the final stage
works on it once all its bytes are known (R22, R269, R276). -/
def State.stampTx (s : State) (port gap : Nat) (t : Tx) : Tx × State :=
  match s.pkt? t.fid with
  | none => (t, s)
  | some p =>
    let t := { t with
      dcOut := s.txDc port gap, dep := s.txTime port (bits p.timeW 22 20) gap,
      first := s.dcU + s.leadU port + s.bytesU port gap, waits := false }
    match p.holders.find? (·.tok == t.tok) with
    | some h => if p.ended then let r := s.finalFrame p h t.dcOut t.dep; ({ t with frame := some r.2.1, code := r.1 }, r.2.2) else (t, s)
    | none => (t, s)

/-- A path of a port carries a frame. -/
def PortX.putTx (x : PortX) (pre : Bool) (t : Option Tx) : PortX := if pre then { x with txPre := t } else { x with txExp := t }

/-- The other MAC has ended a frame or a fragment: a frame of this path that waits for it starts after the gap of 12 bytes
(R117, R254). -/
def State.wireFree (s : State) (port : Nat) (pre : Bool) : State :=
  let x := s.port port
  match (if pre then x.txPre else x.txExp) with
  | none => s
  | some t => if t.waits then let r := s.stampTx port 12 t; r.2.modPort port (·.putTx pre (some r.1)) else s

/-- Start a member's head frame on its path; while the other MAC has a frame under way it waits for that one's end, or for
its cut (R235, R254). -/
def State.startFrame (s : State) (port : Nat) (pre : Bool) (g : Nat) (p : Pkt) (h : Holder) : State :=
  let l := s.schedLen port (s.frameLen p h)
  let s := s.chargePick port g p h
  let p := { p.modHolder h.tok fun h => { h with started := true, tokLp := if p.ended then 0 else l } with
    started := true, cutThru := p.cutThru || !p.ended }
  let s := s.putPkt p
  let m := s.getP p.applied (O.EGRESS_MIRROR port)
  let s := if g < 8192 ∧ m < 64 then s.addHolder p h m else s
  let x := s.port port
  let t : Tx := ⟨p.fid, h.tok, g, 0, 0, none, 0, 0, 0, 0, true⟩
  let r := if (if pre then x.txExp else x.txPre).isSome then (t, s) else s.stampTx port 0 t
  r.2.modPort port (·.putTx pre (some r.1))

/-- The member picked meets what its packet has: a lost descriptor, a poisoned packet or first cell, a length beyond the
port's MAX_FRAME; or its frame starts (R107, R213, R224). -/
def State.goHead (s : State) (port : Nat) (pre : Bool) (g : Nat) : State :=
  match s.head g with
  | none => s
  | some (p, h) =>
    let d := s.useDesc p
    if d.1 then d.2.discardHolder p.fid h.tok g 0xC6
    else
      let r := d.2.readCells port (p.cells.take 1)
      if p.poison || r.1 then r.2.discardHolder p.fid h.tok g 0xC5
      else if p.ended && decide (s.getP p.applied (O.MAX_FRAME port) < s.frameLen p h) then r.2.discardHolder p.fid h.tok g 0x91
      else r.2.startFrame port pre g p h

/-! ### Tails (R119, R235, R238, R248) -/

/-- Charge a continuation to the frame's queue (R238, R239). -/
def State.chargeContinuation (s : State) (t : Tx) : State :=
  (if s.tagOwed t.fid t.tok then s.tagFragment t.queue else s).tokensAdd t.queue (-24)

/-- A tail may put bits on the wire now: its gate is open, and its rest, or its first legal cut, ends before the gate closes
(R248, R253, log 115). -/
def State.tailFits (s : State) (port : Nat) (t : Tx) : Bool :=
  bit (s.openIn port (s.leadU port)) (gateBit t.queue) &&
  (match s.pkt? t.fid with
  | none => true
  | some p =>
    match p.holders.find? (·.tok == t.tok) with
    | some h => s.guardOk port t.queue (s.frameLen p h - t.sent) p
    | none => true)

/-- A tail resumes before any other preemptable frame, once no express member may go, no hold is in force and its gate
lets it; the tail of a lost packet is discarded (R228). -/
def State.resumeTail (s : State) (port : Nat) (t : Tx) : State :=
  let x := s.port port
  let express := (s.members port).any fun g => s.mayGo port false g && s.headGuard port g
  if x.txExp.isSome || express || !s.tailFits port t || (s.gate port).held then s
  else
    let d := match s.pkt? t.fid with
      | some p => s.useDesc p
      | none => (false, s)
    if d.1 then (d.2.putPort port { x with tail := none, tailHeld := false }).releaseAt t.fid t.tok 0xC6 0
    else (d.2.chargeContinuation t).putPort port { x with tail := none, tailHeld := false, txPre := some { t with first := s.dcU + s.leadU port } }

/-- One pick of a path of a port (R233-R235, R257). -/
def State.pick (s : State) (port : Nat) (pre : Bool) : State :=
  let x := s.port port
  if !x.up || (!pre && x.txExp.isSome) || (pre && ((!s.flag (O.PREEMPT_ACTIVE port) && x.tail.isNone) || x.txPre.isSome)) then s
  else
    match (if pre then x.tail else none) with
    | some t => s.resumeTail port t
    | none =>
      if pre && (s.gate port).held then s
      else
        let w := s.sweepHeads port (s.members port)
        let s := w.2
        let can := w.1.filter fun g => s.mayGo port pre g
        let go := can.filter fun g => s.headGuard port g
        let s := s.each (can.filter fun g => !go.contains g) fun s g => s.count64 (O.SCHED_COUNTS g 6)
        match s.choose go with
        | some g => s.goHead port pre g
        | none => s

/-! ### Fragments -/

/-- The length a frame under way leaves with, as far as it is known. -/
def State.txLen (s : State) (t : Tx) : Nat :=
  match t.frame with
  | some f => f.length
  | none =>
    match s.pkt? t.fid with
    | none => 0
    | some p =>
      match p.holders.find? (·.tok == t.tok) with
      | some h => s.lengthFrom p h p.bytes.length
      | none => 0

/-- A fragment's count: none for the first, which opens with SMD-S; continuations count from 0 modulo 4 (R117). -/
def Tx.fragCount (t : Tx) : Option Nat := if t.frags = 0 then none else some ((t.frags - 1) % 4)

/-- The frame's bytes up to `n`, with a check of them spoiled by `x`; the check runs over the whole frame so far, as
IEEE 802.3br has it (PRESUMED, log 77). -/
def checked (frame : List Byte) (sent n x : Nat) : List Byte :=
  (frame.take n).drop sent ++ leBytes 4 (crc32 (frame.take n) ^^^ x)

/-- What is known of the frame under way: its final bytes, or what the final stage makes of those that have come. -/
def State.txBytes (s : State) (t : Tx) : List Byte :=
  match t.frame with
  | some f => f
  | none =>
    match s.pkt? t.fid with
    | none => []
    | some p =>
      match p.holders.find? (·.tok == t.tok) with
      | some h => (s.finalFrame p h t.dcOut t.dep).2.1
      | none => []

/-- A frame in the preemptable MAC meets a cell that cannot be corrected: its fragment ends at byte `n` with a check that is
neither an mCRC nor an FCS, and its token releases (R121). -/
def State.endBad (s : State) (port : Nat) (t : Tx) (n : Nat) : State :=
  let s := s.emit (.fragment port t.fragCount (checked (s.txBytes t) t.sent n 0xFFFF0000))
  let s := (s.modPort port fun x => { x with txPre := none }).count64 (O.MAC_COUNTS port 8)
  let s := (s.count64 (O.MAC_COUNTS port 9) n).count64 (O.PREEMPT_COUNTS port 9)
  s.releaseAt t.fid t.tok 0xC4 n

/-- A fragment of `d` data bytes leaves: its cells are read, and one that cannot be corrected, or that the scrubber has
found so, ends the frame (R121, R224). -/
def State.fragmentCells (s : State) (port : Nat) (t : Tx) (d : Nat) : Option Nat × State :=
  match s.pkt? t.fid with
  | none => (none, s)
  | some p =>
    let r := s.readRun port (cellsWithin p t.sent (t.sent + d))
    (if r.1 then some (min (t.sent + d) (cellStart t.sent r.2.1)) else if p.poison then some (t.sent + d) else none, r.2.2)

/-- A non-final fragment of `d` data bytes goes out whole, with its mCRC: the holder passes to the MAC (R117, R119). -/
def State.passTail (s : State) (port : Nat) (t : Tx) (d : Nat) (held : Bool) : State :=
  let s := s.emit (.fragment port t.fragCount (checked (s.txBytes t) t.sent (t.sent + d) 0x0000FFFF))
  let s := s.modPort port fun x =>
    { x with txPre := none, tail := some { t with sent := t.sent + d, frags := t.frags + 1 }, tailHeld := held }
  let s := s.count64 (O.PREEMPT_COUNTS port 1)
  match s.pkt? t.fid with
  | none => s
  | some p =>
    if p.holders.any fun h => h.tok == t.tok && h.kind == .tail then s
    else (s.putPkt (p.modHolder t.tok fun h => { h with kind := .tail })).count64 (O.PREEMPT_COUNTS port 2)

/-- End a fragment of `d` data bytes: a non-final one, or the last of a frame with a bad cell (R117, R119, R121). -/
def State.endFragment (s : State) (port : Nat) (t : Tx) (d : Nat) (held : Bool) : State :=
  let r := s.fragmentCells port t d
  (match r.1 with
  | some n => r.2.endBad port t n
  | none => r.2.passTail port t d held).wireFree port false

/-- The legal data counts of a non-final fragment (R117). -/
def State.legalCut (s : State) (port : Nat) (t : Tx) (d : Nat) : Bool :=
  match s.pkt? t.fid with
  | none => false
  | some p => d % 4 == 0 && decide (s.firstCut port p ≤ d + 4) && decide (t.sent + d + 64 ≤ s.txLen t)

/-! ### The end of a frame (R208, R213, R224) -/

/-- The fate of a frame whose last byte leaves: a lost packet, a cell that cannot be corrected, the packet's failure, the
final stage's verdict, or forwarded (R121, R172, R224, R228, R278). -/
def frameFate (t : Tx) (p : Pkt) (bad : Bool) (code : Nat) (cut : Bool) : Nat :=
  if p.lost then 0xC6
  else if bad then (if cut then 0xC4 else 0xC5)
  else if p.spoilt ≠ 0 then p.spoilt
  else if t.code ≠ 0 then t.code
  else if code ≠ 0 then code
  else if p.act.overflow then 0x2C else 0x00

/-- The last bytes of a frame: the whole frame on the express path; on the preemptable one, which only runs with preemption
active, the final fragment, which a frame that was never cut opens with SMD-S (R115, R117). -/
def State.putOut (s : State) (port : Nat) (pre : Bool) (t : Tx) (frame : List Byte) : State :=
  if pre then s.emit (.fragment port t.fragCount (frame.drop t.sent)) else s.emit (.wire port frame)

/-- The last byte of a frame leaves the MAC and its holder releases. -/
def State.lastByte (s : State) (port : Nat) (pre : Bool) (t : Tx) (p : Pkt) (h : Holder) : State :=
  let d := s.useDesc p
  let p := (d.2.pkt? t.fid).getD p
  let r := d.2.readRun port (cellsWithin p t.sent (256 * p.cells.length))
  let f := match t.frame with
    | some f => (0, f, r.2.2)
    | none => r.2.2.finalFrame p h t.dcOut t.dep
  let p := (f.2.2.pkt? t.fid).getD p
  let code := frameFate t p (r.1 || p.poison) f.1 pre
  if code = 0xC4 then
    f.2.2.endBad port { t with frame := some f.2.1 } (if r.1 then min f.2.1.length (cellStart t.sent r.2.1) else t.sent)
  else
    let out := if isForwarded code then f.2.1 else spoilFcs f.2.1
    let s := ((f.2.2.putOut port pre t out).count64 (O.MAC_COUNTS port 8)).count64 (O.MAC_COUNTS port 9) out.length
    s.releaseAt t.fid t.tok code out.length

/-- TRANSMIT_END of a path; a frame whose bytes have not all come yet, or that waits for the other MAC, goes on. -/
def State.transmitEnd (s : State) (port : Nat) (pre : Bool) : State :=
  let x := s.port port
  match (if pre then x.txPre else x.txExp) with
  | none => s
  | some t =>
    let s' := s.putPort port (if pre then { x with txPre := none } else { x with txExp := none })
    match s.pkt? t.fid with
    | none => s'
    | some p =>
      if !p.ended || t.waits then s
      else match p.holders.find? (·.tok == t.tok) with
        | none => s'
        | some h => (s'.lastByte port pre t p h).wireFree port !pre

/-! ### A step of a time base and the frames on their way (R265, R285) -/

/-- A frame on its way out whose timestamp point lies at or after now takes the new value of base `n`, which has stepped by
`o`: what its time operation wrote, or captured, is written anew. -/
def State.restampTx (s : State) (port n : Nat) (o : Int) (pre : Bool) : State :=
  let x := s.port port
  match (if pre then x.txPre else x.txExp) with
  | none => s
  | some t =>
    match s.pkt? t.fid with
    | none => s
    | some p =>
      let op := p.timeW % 16
      let k := bits p.timeW 7 4
      if t.waits || t.frags != 0 || op == 0 || decide (4 < op) || bits p.timeW 22 20 != n ||
          decide (t.first + s.bytesU port 8 < s.dcU) then s
      else
        let dep := unitsTime ((timeUnits t.dep : Int) + o)
        let whole := match p.holders.find? (·.tok == t.tok) with
          | some h => (s.finalFrame p h t.dcOut dep).2.1
          | none => []
        let mine := op == 4 && x.slots.getD k none == some t.dep
        s.putPort port { x.putTx pre (some { t with dep := dep, frame := t.frame.map fun _ => whole }) with
          slots := if mine then x.slots.set k (some dep) else x.slots }

/-- A step of a base reaches every frame on its way out. -/
def State.restamp (s : State) (x : PendStep) : State :=
  s.each (s.ports.map (·.1)) fun s p => (s.restampTx p x.base x.offset true).restampTx p x.base x.offset false

/-- One tick of the time domain: the clocks advance, the steps that wait take effect, and the timestamp points at or after
this instant take the new values (R260, R263, R265). -/
def State.timeTick (s : State) : State := s.tick.time.steps.foldl State.restamp s.tick.stepsDue

/-! ### Meanings -/

/-- PICK (R233). -/
def execPick (p : Port) (preemptable : Bool) (s : State) : Out := live s fun s => (s.pick p preemptable).postcardsDue

/-- TRANSMIT_END (R208, R213). -/
def execTransmitEnd (p : Port) (preemptable : Bool) (s : State) : Out := live s fun s =>
  (s.transmitEnd p preemptable).postcardsDue

/-- FRAGMENT_END (R117, R119, R235, R249): for an express frame that waits, or under a hold, the preemptable MAC ends a
fragment of `sent` data bytes at a legal cut. -/
def execFragmentEnd (p : Port) (sent : Fin 16384) (s : State) : Out := live s fun s =>
  let x := s.port p
  match x.txPre with
  | some t =>
    if s.flag (O.PREEMPT_ACTIVE p) && (x.txExp.isSome || (s.gate p).held) && !t.waits && s.legalCut p t sent then
      s.endFragment p t sent false
    else s
  | none => s

/-- The bytes that the present fragment of a frame may still put on the wire, its first 8 of preamble and start delimiter
included, before the gate of the frame's queue closes, less the guard margin (R248); `none` while no close lies ahead. -/
def State.guardRoom (s : State) (port : Nat) (t : Tx) : Option Nat :=
  if !bit (s.openIn port 0) (gateBit t.queue) then none
  else (s.nextClose port (gateBit t.queue) 0).map fun tc =>
    (s.dcU + tc - s.get (O.GUARD_MARGIN_NS port) * nsU - t.first) * s.get (O.SPEED_ACTIVE port) / (8 * nsU)

/-- GATE_GUARD_CUT (R248): a preemptable frame under way that cannot end in time ends its fragment after `data` data bytes,
the largest legal count whose mCRC ends by Tc − GUARD_MARGIN_NS, and the tail is held. -/
def execGateGuardCut (p : Port) (data : Fin 16384) (s : State) : Out := live s fun s =>
  match (s.port p).txPre with
  | none => s
  | some t =>
    match s.guardRoom p t with
    | none => s
    | some room =>
      let rest := s.txLen t - t.sent
      let d := min (room - 12) (rest - 64) / 4 * 4
      if s.flag (O.PREEMPT_ACTIVE p) && !t.waits && decide (room < 8 + rest) && decide (data.val = d) && s.legalCut p t d then
        s.endFragment p t d true
      else s

/-- LAUNCH_WINDOW_MISS (R254). -/
def execLaunchWindowMiss (p : Port) (q : Fin 16) (s : State) : Out := live s fun s =>
  let g := p.val * 16 + q.val
  match s.head g with
  | none => s
  | some (k, h) =>
    if s.launchQueue g && s.launchLate p k then (s.discardHolder k.fid h.tok g 0x81).postcardsDue else s

/-- RESIDENCE_CHECK (R255). -/
def execResidenceCheck (q : Queue) (s : State) : Out := live s fun s =>
  match s.head q with
  | none => s
  | some (k, h) =>
    if s.hasInst .schedQueues q && s.tooOld q h then (s.discardHolder k.fid h.tok q 0x82).postcardsDue else s

/-- HOLDER_ADD (R212): a holder asks for a mirror copy of session `m` of its own packet. -/
def execHolderAdd (hw : BitVec 27) (tok : BitVec 10) (m : Fin 64) (s : State) : Out := live s fun s =>
  match s.byHandle (hw.toNat % 2 ^ 21) with
  | none => s
  | some p =>
    match p.holders.find? (·.tok == tok.toNat) with
    | none => s
    | some x => if p.gen = hw.toNat / 2 ^ 21 then s.addHolder p x m else s

end Sys2Proof.Machine
end

