-- ==== Sys2Proof/Machine/Bank.lean ====
section
/-!
DEFINITION. Sys2Proof/Machine/Bank.lean: isolation, remap and restoration of buffer banks (R225-R227), the orphan sweep
(R228), descriptor reads (R204) and the buffer's snapshot (R230).
-/
namespace Sys2Proof.Machine

namespace BankSt
abbrev inService := 0
abbrev remapping := 1
abbrev isolated := 2
abbrev restoring := 3
end BankSt

/-- Take a bank out of service (R225, item 1). -/
def State.bankIsolate (s : State) (k : Nat) : State := (s.set (O.BUF_BANK_STATE k) BankSt.remapping).recarve

/-- A packet is poisoned by the remap engine: holders that have not started are discarded with 0xC7 (R225). -/
def State.remapPoison (s : State) (p : Pkt) : State :=
  let s := s.putPkt { p with poison := true }
  s.each ((p.holders.filter fun h => !h.started).map (·.tok)) fun s t => s.releaseAt p.fid t 0xC7 0

/-- Point a frame at the copy `n` of its cell `c`: the link word of `c` is read and the copy's written, and then, in one
write, the predecessor's, or the descriptor; an uncorrectable link word loses the packet (R225, R228). -/
def State.relink (s : State) (p : Pkt) (c n : Nat) : State :=
  let i := p.cells.idxOf c
  let linked := p.ended || decide (i + 1 < p.cells.length)
  let a := if p.enq then (p.handle, s) else s.draw 32
  let r := if linked then a.2.readWordAs 0x642 0x643 (unitId 6 0) (unitId 6 0) (2 ^ 21 + c) a.1 4 else (false, a.2)
  let s := if linked then r.2.linkWritten (some n) else r.2
  let s := if i ≠ 0 then s.linkWritten p.cells[i - 1]? else if p.enq then s.storeWritten p.handle p.handle else s
  if r.1 then s.mapPkts fun q => if q.fid = p.fid then { q with lost := true } else q else s

/-- Copy one allocated cell into a cell granted elsewhere and relink it (R225, item 2). -/
def State.remapCell (s : State) (c : Nat) : State :=
  match s.grantCell with
  | none => s
  | some (n, s) =>
    let s := match s.buf.pkts.find? fun p => p.cells.contains c with
      | some p => s.relink p c n
      | none => s
    let r := s.readCell (unitId 3 (bankOfCell c)) 4 c
    let swap := fun l : List Nat => l.map fun x => if x = c then n else x
    let owner := r.2.buf.pkts.find? fun p => p.cells.contains c
    let b := r.2.buf
    let s := { r.2 with buf := { b with
      used := delNat c b.used, doomed := delNat c b.doomed, dropped := insNat c b.dropped,
      pkts := b.pkts.map fun (p : Pkt) => { p with cells := swap p.cells } } }
    let s := s.count64 O.CELLS_REMAPPED
    match r.1, owner.bind fun p => s.pkt? p.fid with
    | true, some p => s.remapPoison p
    | _, _ => s

/-- A sweep starts: it will free every lost packet whose frame has ended (R228). -/
def State.sweepStart (s : State) : State :=
  { s with sys := { s.sys with sweepNext := (s.buf.pkts.filter fun p => p.lost && p.enq && p.ended && p.cells != []).map (·.fid) } }

/-- The sweep returns a lost packet's cells, with the charges of the packet as a whole, and frees its handle; entries that
still name it discard their holders at their next use. -/
def State.sweepPkt (s : State) (p : Pkt) : State :=
  let s := s.cellReturn p
  let s := s.count64 O.ORPHAN_CELLS p.cells.length
  if p.phase = .returning then s
  else
    { s with buf := { s.buf with
        pkts := s.buf.pkts ++ [{ p with cells := [], pools := 0, cls := 0, hroom := false, ext := false }] } }

/-- A sweep ends. -/
def State.sweepEnd (s : State) : State :=
  let s := s.each s.sys.sweepNext fun s f =>
    match s.pkt? f with
    | some p => s.sweepPkt p
    | none => s
  let s := { s with sys := { s.sys with sweepNext := [] } }
  if s.cmdRunning O.ORPHAN_SWEEP then s.cmdDone O.ORPHAN_SWEEP else s

/-- The 32 bytes of a descriptor that holds no packet: no holders, no token bit, no extension, reserved bits 0 (R12, R204,
R209); its generation; and for the rest what `v` says. -/
def freeDescBytes (v gen : Nat) : List Byte :=
  let f := fun lo n => v / 2 ^ lo % 2 ^ n
  leBytes 3 (f 0 21) ++ leBytes 3 (f 24 21) ++ leBytes 2 (f 48 16) ++ [nb (f 64 7), nb (gen + 64 * f 78 2)] ++
  leBytes 2 (f 80 11) ++ zeros 2 ++ leBytes 2 (f 112 15) ++ zeros 8 ++ leBytes 2 (f 192 15) ++
  [nb (f 208 8), nb (f 216 3), nb (f 224 7), 0, 0, 0]

/-- DESCRIPTOR_READ (R204): what a descriptor that holds no packet keeps of its last one is a free value (log 4). -/
def State.descriptorRead (s : State) (h : Nat) : List Byte × State :=
  match s.byHandle h with
  | some p => (descBytes p, (s.useDesc p).2)
  | none =>
    let d := s.draw 256
    (freeDescBytes d.1 (look 0 s.buf.gens h), d.2)

/-- The 80 bytes of SNAPSHOT_DATA (R230). -/
def State.snapshotBytes (s : State) : List Byte :=
  (List.range 8).flatMap (fun x => leBytes 4 (s.get (O.POOL_SHARED_USED x))) ++
  (List.range 8).flatMap (fun x => leBytes 4 (s.get (O.POOL_CAP_EFFECTIVE x))) ++
  leBytes 4 s.cellsFree ++ leBytes 4 (s.get O.DESCRIPTORS_FREE) ++
  leBytes 4 (sumL ((List.range 32).map fun t => s.get (O.ARRIVAL_USED t))) ++ zeros 4

/-- SNAPSHOT (R230). -/
def State.snapshot (s : State) : State :=
  s.setAll O.SNAPSHOT_DATA ((List.range 20).map fun i => leAt s.snapshotBytes (4 * i) 4)

/-! ### Meanings -/

/-- REMAP_CELL (R225): the bank's lowest allocated cell. -/
def execRemapCell (k : BufBank) (s : State) : Out := live s fun s =>
  if s.get (O.BUF_BANK_STATE k) ≠ BankSt.remapping then s
  else
    match s.buf.used.find? fun c => bankOfCell c == k.val with
    | some c => (s.remapCell c).postcardsDue
    | none => s

/-- BANK_REMAP_DONE (R225, R226). -/
def execBankRemapDone (k : BufBank) (s : State) : Out := live s fun s =>
  if s.get (O.BUF_BANK_STATE k) = BankSt.remapping ∧ (s.buf.used.any fun c => bankOfCell c == k.val) = false then
    let s := (s.set (O.BUF_BANK_STATE k) BankSt.isolated).raise (0x580 + k)
    let s := s.recarve
    if s.cmdRunning (O.BANK_ISOLATE k) then s.cmdDone (O.BANK_ISOLATE k) else s
  else s

/-- BANK_RESTORE_DONE (R227): every cell passed, or one failed. -/
def execBankRestoreDone (k : BufBank) (pass : Bool) (s : State) : Out := live s fun s =>
  if s.get (O.BUF_BANK_STATE k) ≠ BankSt.restoring then s
  else if pass then
    let out := fun l : List Nat => l.filter fun c => bankOfCell c != k.val
    let s := { s with
      buf := { s.buf with quar := out s.buf.quar, dropped := out s.buf.dropped },
      faults := { s.faults with
        damage := s.faults.damage.filter (fun d => d.source != 0x400 + k.val),
        armed := s.faults.armed.filter (fun a => a.at_.map Prod.fst != some (0x400 + k.val)) } }
    let s := ((s.set (O.BUF_BANK_STATE k) BankSt.inService).set (O.BANK_QUARANTINED k) 0).recarve
    s.cmdDone (O.BANK_RESTORE k)
  else (s.set (O.BUF_BANK_STATE k) BankSt.isolated).cmdFail (O.BANK_RESTORE k) Err.state

/-- ORPHAN_SWEEP_TIMEOUT (R228): 10 ms after a descriptor was lost. -/
def execOrphanSweepTimeout (s : State) : Out := live s State.sweepStart

/-- ORPHAN_SWEEP_DONE (R228). -/
def execOrphanSweepDone (s : State) : Out := live s State.sweepEnd

end Sys2Proof.Machine
end

