-- ==== Sys2Proof/Machine/LineCode.lean ====
section
/-!
DEFINITION. Sys2Proof/Machine/LineCode.lean: what a G4 port puts on its lanes (R76, R78, R81, R84, R87): codeword streams and
their Reed-Solomon code, interleave, PAM4 levels and precoding, alignment markers, exchange blocks, training frames.
-/
namespace Sys2Proof.Machine

/-! ### Transcoding and scrambling (R76, items 1 and 2)

The spec takes both from the IEEE 802.3 PCS for 400 Gb/s and above; their inner layout and their order are that standard's
(PRESUMED, log 71). -/

/-- A 66-bit block of the PCS: whether its header says data, and its 64 bits, first sent first. -/
structure PcsBlock where
  isData  : Bool
  payload : List Bool
deriving DecidableEq, Repr

/-- The payloads of a group of blocks; the first control block leaves out the second half of its type byte. -/
def shortened : List PcsBlock → List Bool
  | [] => []
  | b :: r =>
    if b.isData then b.payload ++ shortened r
    else b.payload.take 4 ++ b.payload.drop 8 ++ r.flatMap (·.payload)

/-- Four 66-bit blocks as one of 257 bits: a 1 and the data, or a 0, the four headers and the shortened payloads. -/
def transcode (g : List PcsBlock) : List Bool :=
  if g.all (·.isData) then true :: g.flatMap (·.payload) else false :: g.map (·.isData) ++ shortened g

/-- The scrambler 1 + x^39 + x^58 after the 58 bits `sent`, last sent first. -/
def scramble (sent : List Bool) : List Bool → List Bool
  | [] => []
  | b :: r =>
    let x := (b != sent.getD 38 false) != sent.getD 57 false
    x :: scramble (x :: sent.take 57) r

/-- The scrambled 257-bit blocks of `n` groups of four blocks. -/
def pcsBlocks : Nat → List Bool → List PcsBlock → List (List Bool)
  | 0, _, _ => []
  | n + 1, sent, bs =>
    let x := scramble sent (transcode (bs.take 4))
    x :: pcsBlocks n ((x.reverse ++ sent).take 58) (bs.drop 4)

/-! ### From blocks to lanes (R76, items 3 to 5) -/

/-- Multiply in GF(2^10); the field is that of IEEE 802.3, modulo x^10 + x^3 + 1 (PRESUMED, log 71). -/
def gfMul (a b : Nat) : Nat :=
  (List.range 10).reverse.foldl (fun r k =>
    let r := if 2 ^ 9 ≤ r then (r * 2) ^^^ 0x409 else r * 2
    if bit b k then r ^^^ a else r) 0

/-- The thirty lower coefficients of the generator polynomial, highest first: the product of x - α^k for k from 0 to 29,
α = 2, as IEEE 802.3 has it (PRESUMED, log 71). -/
def rsGenerator : List Nat :=
  ((List.range 30).foldl (fun (g : List Nat × Nat) _ =>
    (List.zipWith (fun u v => u ^^^ gfMul g.2 v) (g.1 ++ [0]) (0 :: g.1), gfMul g.2 2)) ([1], 1)).1.drop 1

/-- The thirty parity symbols of RS(544,514) for a message of 514 symbols, first sent first. -/
def rsParity (msg : List Nat) : List Nat :=
  msg.foldl (fun r m =>
    let f := m ^^^ r.headD 0
    List.zipWith (fun u v => u ^^^ gfMul f v) (r.drop 1 ++ [0]) rsGenerator) (List.replicate 30 0)

/-- Ten bits, first sent first, as a symbol whose lowest bit is sent first (PRESUMED as IEEE 802.3 has it, log 71). -/
def symbolOf (b : List Bool) : Nat := b.foldr (fun x a => b01 x + 2 * a) 0
def symbolBits (v : Nat) : List Bool := (List.range 10).map (bit v)

/-- The codewords of one stream of bits: each run of 5,140 bits is 514 symbols and their parity. -/
def codewords : Nat → List Bool → List (List Nat)
  | 0, _ => []
  | n + 1, b =>
    let msg := (List.range 514).map fun k => symbolOf ((b.drop (10 * k)).take 10)
    (msg ++ rsParity msg) :: codewords n (b.drop 5140)

/-- Codeword stream `j` of a port of `n` lanes: its marker, then the blocks dealt to it. -/
def streamBits (n j : Nat) (marker : List Bool) (blocks : List (List Bool)) : List Bool :=
  marker ++ ((List.range blocks.length).filter fun k => k % (4 * n) == j).flatMap fun k => blocks.getD k []

/-- Lane `i`'s symbols: its four streams of codewords symbol by symbol. -/
def laneSymbols (streams : List (List Nat)) (i : Nat) : List Nat :=
  let own := (List.range 4).map fun m => streams.getD (4 * i + m) []
  (List.range (4 * (own.headD []).length)).map fun k => (own.getD (k % 4) []).getD (k / 4) 0

/-! ### PAM4 levels (R76, items 6 and 7) -/

/-- The Gray level of two bits, the first sent the more significant. -/
def grayLevel (a b : Bool) : Nat := if a then (if b then 2 else 3) else b01 b
def grayLevels : List Bool → List Nat
  | a :: b :: r => grayLevel a b :: grayLevels r
  | _ => []

/-- Precoded levels, from the level sent before. -/
def precoded (last : Nat) : List Nat → List Nat
  | [] => []
  | g :: r => let p := (g + 4 - last) % 4; p :: precoded p r

/-- What lane `i` of a port of `n` lanes sends for the 66-bit blocks of a marker period, from the scrambler's last bits
`sent`: the levels of `count` codewords of each of its streams. -/
def laneLevels (n i count : Nat) (markers : Nat → List Bool) (sent : List Bool) (pcs : List PcsBlock) (precode : Bool) :
    List Nat :=
  let blocks := pcsBlocks (pcs.length / 4) sent pcs
  let streams := (List.range (4 * n)).map fun j => (codewords count (streamBits n j (markers j) blocks)).flatten
  let g := grayLevels ((laneSymbols streams i).flatMap symbolBits)
  if precode then precoded 0 g else g

/-! ### Alignment markers (R78) -/

/-- Even parity by bit position over bytes. -/
def bip8 (g : Nat → Byte) (n : Nat) : Byte := (List.range n).foldl (fun x k => x ^^^ g k) 0

/-- Bytes of a codeword stream between two of its markers: 1,024 codewords of 5,440 bits less one marker of 120. -/
def streamBytes : Nat := 1024 * 680 - 15

/-- BIP-8 of stream `m` over the bits sent in a marker period, which are free values (log 71). -/
def streamParity (period m : Nat) : Nat := (bip8 (Config.lineByte period m) streamBytes).toNat

/-- The pattern that opens a marker. -/
def markerPattern : List Byte := [0x5A, 0x3C, 0x96, 0xA5, 0xC3, 0x69]

/-- Marker `m` of the group of lane index `i`. -/
def marker (m i tag bip status count : Nat) : List Byte :=
  let own := [nb (64 * m + i), nb tag, nb bip]
  markerPattern ++ own ++ own.map (~~~ ·) ++ [nb status] ++ beBytes 2 (count % 2 ^ 16)

/-- A received marker of 15 bytes is accepted. -/
def markerOk (b : List Byte) : Bool :=
  let off := List.zipWith (fun x y => popcount (x ^^^ y).toNat 8) (b.take 6) markerPattern
  b.length == 15 && decide (sumL off ≤ 4) && (b.drop 9).take 3 == ((b.drop 6).take 3).map (~~~ ·)

/-- Every marker of a received group is accepted. -/
def groupOk (b : List Byte) : Bool := b.length == 60 && (List.range 4).all fun m => markerOk (slice b (15 * m) 15)

/-! ### Training frames and exchange blocks (R81, R84, R87) -/

/-- CRC-16 of R84 over `n` bits of `v`, most significant first. -/
def crc16Bits (v : Nat) : Nat → Nat
  | 0 => 0xFFFF
  | n + 1 =>
    let c := crc16Bits (v / 2) n
    let top := c / 2 ^ 15 != v % 2
    let c := c * 2 % 2 ^ 16
    if top then c ^^^ 0x8005 else c

/-- Symbols 32-239 of a training frame as bits: control, status, capability words 0-3, CRC. -/
def trainingFields (control status caps : Nat) : Nat :=
  let v := (control * 2 ^ 32 + status) * 2 ^ 128 + caps
  v * 2 ^ 16 + crc16Bits v 192

/-- The levels of symbols 0-239: the frame marker, then one bit per symbol at levels 0 and 3. -/
def trainingLevels (fields : Nat) : List Nat :=
  List.replicate 16 3 ++ List.replicate 16 0 ++ (List.range 208).map fun k => if bit fields (207 - k) then 3 else 0

/-- Capability words 0-3 (R87). -/
def capWords (index width : Nat) (precode ready ack : Bool) (modes tag : Nat) : Nat :=
  let w0 := 2 ^ 24 + index * 2 ^ 16 + width * 2 ^ 8 + 8 * b01 precode + 4 * b01 ready + 2 * b01 ack
  w0 * 2 ^ 96 + modes * 2 ^ 64 + tag * 2 ^ 48

/-- The 32 bytes of an exchange block (R81). -/
def exchangeBlock (count caps : Nat) : List Byte := [0xE5, nb count, 0, 0] ++ beBytes 16 caps ++ zeros 12

end Sys2Proof.Machine
end

