-- ==== Sys2Proof/Machine/Down.lean ====
section
/-!
DEFINITION. Sys2Proof/Machine/Down.lean: the markers of a lane and the faults of a port (R78, R104), and a port leaving UP
(R102, R104-R106, R120, R122).
-/
namespace Sys2Proof.Machine

namespace Stage
abbrev off := 0
abbrev detect := 1
abbrev train := 2
abbrev lock := 3
abbrev exchange := 4
abbrev active := 5
end Stage

abbrev State.stage (s : State) (l : Nat) : Nat := s.get (O.STAGE l)

/-! ### Markers and faults (R78, R104) -/

/-- The ready level of a rate in 1/256 dB: 18.5 dB at 212.5 GBd, 17.0 dB at 106.25 GBd (R80); 0 where R80 gives none. -/
def readyLevel (rate : Nat) : Nat := if rate = 5 then 4736 else if rate = 4 then 4352 else 0

/-- The port signals Remote fault: it is in LOCAL_FAULT, and not DISABLED, whose ports send idle (R104). -/
def State.faultSent (s : State) (p : Nat) : Bool := s.flag (O.ADMIN_UP p) && (s.port p).fault.contains 1

/-- Byte 12 of the lane's markers: a port in LOCAL_FAULT sets both fault bits (log 72). -/
def State.linkStatus (s : State) (l : Nat) : Nat :=
  let f := match s.portOfLane l with
    | some p => s.faultSent p
    | none => false
  3 * b01 f + 4 * b01 (decide (s.get (O.SNR l) < readyLevel 5))

/-- The lane's marker group of this period, 65,536 ticks long. BIP-8 is the parity of the bits the lane has sent in the
stream since its last marker, which are free (log 71); an injection armed for the lane inverts it (R382). -/
def State.sendMarkers (s : State) (l : Nat) : State :=
  let d := s.draw 0
  let a := d.2.markerArmed l
  let s := a.2
  let i := l - (s.portOfLane l).getD l
  let count := (s.now - (s.lane l).lockAt) / 65536
  s.emit (.markers l ((List.range 4).flatMap fun m =>
    marker m i (s.get (O.PORT_CHECK_TAG l) % 256) ((streamParity d.2.free m) ^^^ (255 * b01 a.1)) (s.linkStatus l) count))

/-- The lanes of a port that run at 425 Gb/s and are ACTIVE send their next marker groups. -/
def State.portMarkers (s : State) (p : Nat) : State :=
  s.each ((s.portLanes p).filter fun l => s.get (O.RATE_ACTIVE l) == 5 && s.stage l == 5) State.sendMarkers

/-- What the port signals has changed since `was`: its ordered sets, and byte 12 of its markers (R78, R104). -/
def State.signalled (s : State) (p : Nat) (was : Bool) : State :=
  if was = s.faultSent p then s else (s.emit (.remoteFault p (s.faultSent p))).portMarkers p

/-- The faults of a port are these now. -/
def State.setFault (s : State) (p : Nat) (f : List Nat) : State :=
  (s.modPort p fun x => { x with fault := f }).signalled p (s.faultSent p)

/-! ### Leaving UP (R102, R105, R106, R120, R122) -/

/-- The state verification rests in: 1 initial, 0 where it is not used (R106, R116). -/
def State.verifyRest (s : State) (p : Nat) : Nat :=
  if s.flag (O.PREEMPT_ENABLE p) && !s.flag (O.VERIFY_DISABLE p) then 1 else 0

/-- Discard everything a port's queues hold with 0x90 (R102, R105). -/
def State.flushQueues (s : State) (p : Nat) : State :=
  s.each (s.members p) fun s g => s.each (s.queue g) fun s e => s.discardHolder e.1 e.2 g 0x90

/-- The frames in a MAC when its port leaves UP: a preempted tail takes 0x93, any other 0x92 (R105, R120, R122). -/
def State.loseTx (s : State) (p : Nat) (t : Option Tx) (tail : Bool) : State :=
  match t with
  | none => s
  | some t =>
    if tail || t.frags ≠ 0 then (s.count64 (O.PREEMPT_COUNTS p 8)).releaseAt t.fid t.tok 0x93 0
    else (s.count64 (O.MAC_COUNTS p 11)).releaseAt t.fid t.tok 0x92 0

/-- A port leaves UP (R105, R106, R120). PORT_LINK_DOWN waits DOWN_HOLD_MS. -/
def State.portDown (s : State) (p cause : Nat) : State :=
  let x := s.port p
  if !x.up then s
  else
    let hold := s.get (O.DOWN_HOLD_MS p) != 0
    let s := s.putPort p { x with
      up := false, holding := hold, attempts := 0, paused := [], ignored := [], txExp := none, txPre := none,
      tail := none, tailHeld := false, slots := List.replicate 16 none }
    let s := if (s.gate p).held then s.putGate p { s.gate p with held := false } else s
    let s := (s.count32 (O.LINK_CHANGES p)).set (O.LAST_DOWN_CAUSE p) cause
    let s := ((s.showPause p).set (O.VERIFY_STATUS p) (s.verifyRest p)).set (O.PREEMPT_ACTIVE p) 0
    let s := if hold then s else s.raise (0x100 + p / 16)
    let s := ((s.loseTx p x.tail true).loseTx p x.txPre false).loseTx p x.txExp false
    (if s.flag (O.FLUSH_ON_DOWN p) then s.flushQueues p else s).postcardsDue

/-- Lane `l` has left ACTIVE: its port leaves UP in the same clock, and its PCS reports nothing more (R104, R105). -/
def State.laneLeft (s : State) (l : Nat) : State :=
  match s.portOfLane l with
  | some p => (s.portDown p 1).setFault p []
  | none => s

end Sys2Proof.Machine
end

