-- ==== Sys2Proof/Machine/Lane.lean ====
section
/-!
DEFINITION. Sys2Proof/Machine/Lane.lean: the lane banks (R70-R97): reference inputs, the bring-up stages, G4 training, the
receiver, the detectors, the monitors, and the meanings of their events. Durations are the events' own conditions; what
the analogue side finds (skews, SNR, the partner's words) comes with the event, and what adaptation reaches is free.
-/
namespace Sys2Proof.Machine

/-! ### Reports, receiver settings -/

/-- A lane's own report: source family `src`, detail of class L (R376). -/
def State.reportLane (s : State) (src l : Nat) : State :=
  s.report (src + l / 64) (unitId 9 l)
    (detailL l (s.stage l) (s.get (O.LAST_EXIT l)) ((s.portOfLane l).getD 0xFFFF))

/-- A signed 16-bit FFE tap (R88). -/
def State.ffeTap (s : State) (l i : Nat) : Int :=
  toSigned 16 (s.get (O.FFE_TAPS l) (2 * i) + 256 * s.get (O.FFE_TAPS l) (2 * i + 1))

/-- Put the 36 taps: the cursor is held at 256, every other tap is clamped to the bound, each clamp counted (R88). -/
def State.putTaps (s : State) (l : Nat) (taps : List Int) : State :=
  let b : Int := s.get (O.FFE_BOUND l)
  let cur := s.get (O.FFE_CURSOR l)
  s.each taps.zipIdx fun s (v, i) =>
    let w := if i = cur then 256 else max (-b) (min b v)
    let s := if i ≠ cur ∧ w ≠ v then s.count32 (O.CLAMP_COUNT l) else s
    let n := ofSigned 16 w
    (s.set (O.FFE_TAPS l) (n % 256) (2 * i)).set (O.FFE_TAPS l) (n / 256) (2 * i + 1)

/-- The taps in use. -/
def State.ffeTaps (s : State) (l : Nat) : List Int := (List.range 36).map (s.ffeTap l)

/-- Put the DFE tap, clamped and counted (R88). -/
def State.putDfe (s : State) (l : Nat) (v : Int) : State :=
  let w := max 0 (min (s.get (O.DFE_BOUND l) : Int) v)
  (if w = v then s else s.count32 (O.CLAMP_COUNT l)).set (O.DFE_TAP l) (ofSigned 32 w)

/-- A bound or the cursor changed: the coefficients obey it at once (R83, R88). -/
def State.reclamp (s : State) (l : Nat) : State :=
  (s.putTaps l (s.ffeTaps l)).putDfe l (s.geti (O.DFE_TAP l))

/-- `n` free values of `w` bits. -/
def State.drawMany (s : State) (w : Nat) : Nat → List Nat × State
  | 0 => ([], s)
  | n + 1 =>
    let r := s.draw w
    let q := r.2.drawMany w n
    (r.1 :: q.1, q.2)

/-- Decisions the sequence detector has overturned, adapting or not: a free count (R88, log 4). -/
def State.overturned (s : State) (l : Nat) : State :=
  if s.flag (O.SEQDET_ENABLE l) then
    let k := s.draw 64
    k.2.count64 (O.SEQDET_CORRECTIONS l) k.1
  else s

/-- What adaptation has reached: free coefficients within the bounds of R88 and a free count of clamps (log 4); nothing with
ADAPT_ENABLE FALSE. -/
def State.adaptTaps (s : State) (l : Nat) : State :=
  if !s.flag (O.ADAPT_ENABLE l) then s
  else
    let b := s.get (O.FFE_BOUND l)
    let r := s.drawMany 16 36
    let s := r.2.putTaps l (r.1.map fun v => (v % (2 * b + 1) : Nat) - (b : Int))
    let d := s.draw 8
    let s := d.2.putDfe l ((d.1 % (s.get (O.DFE_BOUND l) + 1) : Nat) : Int)
    let c := s.draw 32
    c.2.count32 (O.CLAMP_COUNT l) c.1

/-- The receiver has worked for a time in TRAIN, LOCK or ACTIVE (R88). -/
def State.adapt (s : State) (l : Nat) : State := (s.adaptTaps l).overturned l

/-- Adaptation runs where the lane is not frozen; the sequence detector works in any case (R88, R93, R94). -/
def State.adaptLive (s : State) (l : Nat) : State := if s.flag (O.FROZEN l) then s.overturned l else s.adapt l

/-! ### What a lane sends (R78, R81, R84, R85, R87) -/

/-- The lane's own capability words; G4 is not listed while it is withheld (R87, R103). -/
def State.ownCaps (s : State) (l : Nat) : Nat :=
  let x := s.lane l
  let p := (s.portOfLane l).getD l
  capWords (l - p) (s.portWidth p) x.precode x.ready x.ackSeen (if x.g4Held then 15 else 31) (s.get (O.PORT_CHECK_TAG l))

/-- The training frame the lane sends now: its request and phase field, its answer and ready bit, its words. -/
def State.sendTraining (s : State) (l : Nat) : State :=
  let x := s.lane l
  let control := x.reqCtl + 2 ^ 9 * b01 x.phaseOut + 2 ^ 16 * x.reqSeq
  let status := x.result + 64 * b01 x.ready + 2 ^ 16 * x.appliedSeq.getD 0
  s.emit (.training l (trainingFields control status (s.ownCaps l)))

/-- The lane's next exchange block. -/
def State.sendExchange (s : State) (l : Nat) : State :=
  (s.emit (.exchange l (exchangeBlock (s.lane l).exCount (s.ownCaps l)))).modLane l fun x =>
    { x with exCount := (x.exCount + 1) % 256 }

/-! ### Stage changes (R79, R82, R90, R94) -/

/-- G4 training starts from phase A, with nothing heard of the partner and no ack (R80, R85, R87). Its own request numbers
start at 0, and 0 stands in the answer until a request has been applied: DESIGN CHOICE, log 112. -/
def LaneX.retrained (x : LaneX) (precode : Bool) : LaneX :=
  { x with locked := false, mismatch := false, ackSeen := false, ready := false, precode := precode, partnerG4 := false, partnerReady := 0, phaseOut := false,
           phaseSeen := 0, reqSeq := 0, reqCtl := 0, appliedSeq := none, result := 0 }

/-- A lane is about to enter stage `st`: leaving ACTIVE fails an eye scan, thaws the lane and takes its port down (R94, R95,
R105). -/
def State.stageLeave (s : State) (l st : Nat) : State :=
  if s.stage l ≠ Stage.active ∨ st = Stage.active then s
  else
    let s := if s.cmdRunning (O.EYE_SCAN l) then s.cmdFail (O.EYE_SCAN l) Err.state else s
    ((s.set (O.FROZEN l) 0).modLane l fun x => { x with degraded := 0 }).laneLeft l

/-- The mode code in use while a lane comes up: a mode-5 lane trains first at 106.25 GBd, which reads 4 (R73, R80, R97). -/
def startRate (mode : Nat) : Nat := if mode = 5 then 4 else mode

/-- Training starts anew: phase A, its rate, the partner unheard (R80, R97). -/
def State.trainFresh (s : State) (l : Nat) : State :=
  ((s.set (O.TRAIN_PHASE l) 0).set (O.RATE_ACTIVE l) (startRate (s.get (O.LANE_MODE l)))).modLane l
    (·.retrained (s.get (O.PRECODE l) == 1))

/-- A lane enters a stage, with the reason it left the last one. Loss of signal counts as asserted on leaving OFF only
(R90); in DETECT the lane waits for 1 ms of signal from its entry (log 73). -/
def State.stageEnter (s : State) (l st why : Nat) : State :=
  let fromOff := s.stage l == Stage.off
  let s := (s.set (O.STAGE l) st).set (O.LAST_EXIT l) why
  let g4 := s.get (O.LANE_MODE l) == 5
  match st with
  | 0 => ((s.set (O.RATE_ACTIVE l) 0).set (O.TRAIN_PHASE l) 0).modLane l fun x =>
      { x with los := true, good := false, locked := false, mismatch := false, ackSeen := false }
  | 1 =>
    let s := (s.modLane l fun x => { x with los := x.los || fromOff, good := false }).trainFresh l
    let s := (s.putTaps l (List.replicate 36 0)).putDfe l 0
    if g4 then s.sendTraining l else s
  | 2 =>
    let s := (s.trainFresh l).set (O.TX_FIR l) (s.get (O.TX_FIR_INIT l))
    if g4 then s.sendTraining l else s
  | 3 =>
    let s := s.modLane l fun x =>
      { x with locked := false, deskew := false, lockAt := s.now, mismatch := false, ackSeen := false }
    if s.get (O.RATE_ACTIVE l) = 5 then s.sendMarkers l else s
  | 4 => (s.modLane l fun x => { x with mismatch := false, ackSeen := false, exCount := 0 }).sendExchange l
  | _ => s

/-- A lane changes its stage; the lanes of a bank whose microsequencer has lost its memory hold theirs (R383). -/
def State.laneGo (s : State) (l st why : Nat) : State :=
  if s.sys.seqDown.contains (bankOfLane l) then s else (s.stageLeave l st).stageEnter l st why

/-! ### Speed and FEC (R99, R103, R109) -/

/-- Speed of a port of `n` lanes in a mode; 0 where R99 has no such port. -/
def speedOf (mode n : Nat) (sub10 : Bool) : Nat :=
  match mode with
  | 1 => if n = 1 then (if sub10 then 10 else 25) else if n = 4 then 100 else 0
  | 2 => 50 * n
  | 3 => 100 * n
  | 4 => 200 * n
  | 5 => 400 * n
  | _ => 0

/-- The FEC modes R99 allows, in its order. -/
def fecAllowed (mode n : Nat) (sub10 : Bool) : List Nat :=
  match mode with
  | 1 => if n = 1 then (if sub10 then [0, 1] else [0, 1, 2]) else [0, 2]
  | 5 => [4]
  | _ => [3]

/-- The FEC mode in use (R109); a G4 port running at n x 200 Gb/s uses the FEC of that speed (R103). -/
def fecActive (mode n : Nat) (sub10 : Bool) (fec : Nat) (g4 : Bool) : Nat :=
  if mode = 5 then (if g4 then 4 else 3)
  else if fec ≠ 7 then fec
  else if mode = 1 ∧ n = 1 ∧ !sub10 then 2
  else (fecAllowed mode n sub10).headD 0

/-- Every lane of a mode-5 port runs at 425 Gb/s (R103). -/
def State.allG4 (s : State) (p : Nat) : Bool := (s.portLanes p).all fun l => s.get (O.RATE_ACTIVE l) == 5

/-- The lane mode of a port. -/
def State.portMode (s : State) (p : Nat) : Nat := s.get (O.LANE_MODE p)

/-- SPEED_ACTIVE and FEC_ACTIVE report the speed and FEC in use, from when every lane of the port runs at a rate (R103). -/
def State.portShow (s : State) (p : Nat) : State :=
  if (s.portLanes p).all (fun l => s.get (O.RATE_ACTIVE l) != 0) then
    let mode := s.portMode p
    let n := s.portWidth p
    let sub10 := s.flag (O.SUBRATE_10G p)
    let g4 := s.allG4 p
    (s.set (O.SPEED_ACTIVE p) (if mode = 5 ∧ !g4 then 200 * n else speedOf mode n sub10)).set (O.FEC_ACTIVE p)
      (fecActive mode n sub10 (s.get (O.FEC_MODE p)) g4)
  else s

/-- The port of a lane shows what it runs at. -/
def State.ratesShown (s : State) (l : Nat) : State :=
  match s.portOfLane l with
  | some p => s.portShow p
  | none => s

/-! ### Leaving DETECT, losing the reference (R71, R72) -/

/-- The next stage of the bring-up: LAST_EXIT is the reason of the last exit, which a forward step leaves as it is. -/
def State.laneOn (s : State) (l st : Nat) : State := s.laneGo l st (s.get (O.LAST_EXIT l))

/-- A lane may leave DETECT: its reference input is healthy and the bank has a transmit reference (R71, R72). -/
def State.laneClocked (s : State) (l : Nat) : Bool :=
  s.flag (O.REF_HEALTHY (l / 16)) && s.get (O.BANK_STATE (l / 64)) == 1

/-- A lane in DETECT with signal and reference goes on, unless its bank's microsequencer holds it (R79, R90, R383). -/
def State.laneAdvance (s : State) (l : Nat) : State :=
  if s.stage l ≠ Stage.detect ∨ !(s.lane l).good ∨ !s.laneClocked l ∨ s.sys.seqDown.contains (bankOfLane l) then s
  else if s.flag (O.TRAIN_ENABLE l) then s.laneOn l Stage.train
  else ((s.set (O.RATE_ACTIVE l) (s.get (O.LANE_MODE l))).laneOn l Stage.lock).ratesShown l

/-- Lanes lose their reference: those beyond DETECT report their own loss and go to DETECT (R71, R72). -/
def State.lanesLoseRef (s : State) (ls : List Nat) : State :=
  s.each ls fun s l =>
    let st := s.stage l
    if st ≤ Stage.detect then s
    else (s.reportLane (if st = Stage.active then 0x038 else 0x030) l).laneGo l Stage.detect 7

/-- The healthy inputs of a bank, rising. -/
def State.healthyRefs (s : State) (b : Nat) : List Nat :=
  (List.range 4).filter fun r => s.flag (O.REF_HEALTHY (b * 4 + r))

/-- The input the bank transmit PLL takes when it has none (R71). -/
def State.refToTake (s : State) (b : Nat) : Option Nat :=
  let sel := s.get (O.TX_REF_SELECT b)
  if (s.healthyRefs b).contains sel then some sel
  else if s.flag (O.REF_FAILOVER b) then (s.healthyRefs b).head?
  else none

/-- The lanes of a port that lane `l` belongs to; itself alone where no port covers it. -/
def State.lanesWith (s : State) (l : Nat) : List Nat :=
  match s.portOfLane l with
  | some p => s.portLanes p
  | none => [l]

/-- The spread of the skews of some lanes, ps. -/
def spread (l : List Nat) : Nat :=
  match l with
  | [] => 0
  | v :: r => r.foldl max v - r.foldl min v

/-- The deskew limit, ps (R89). -/
def skewLimit : Nat := 180000

/-- The skews of the lanes of `l`'s port that take part in deskew, against the earliest lane's 0: its own, and those of the
lanes beyond LOCK. -/
def State.skewsWith (s : State) (l own : Nat) : List Nat :=
  0 :: own :: (((s.lanesWith l).filter fun k => k != l && decide (Stage.lock < s.stage k)).map fun k => s.get (O.SKEW_PS k))

/-! ### Rate split (R103) and retraining by the device (R75, R398) -/

/-- Lanes beyond TRAIN's start go back to TRAIN, G4 offered or withheld (R75, R103, R398). -/
def State.laneRetrain (s : State) (ls : List Nat) (hold : Bool) : State :=
  s.each ls fun s l =>
    let s := s.modLane l fun x => { x with g4Held := hold }
    if Stage.train ≤ s.stage l then s.laneGo l Stage.train 9 else s

/-- A mode-5 port with one lane trained at 212.5 Gb/s: its 425 Gb/s lanes train again without G4 (R103). -/
def State.rateSplit (s : State) (p : Nat) : State :=
  let ls := s.portLanes p
  let done := ls.filter fun l => decide (Stage.lock ≤ s.stage l) && s.get (O.LANE_MODE l) == 5
  let slow := done.any fun l => s.get (O.RATE_ACTIVE l) == 4
  let fast := done.filter fun l => s.get (O.RATE_ACTIVE l) == 5
  if slow && !fast.isEmpty then
    let s := if (s.port p).split then s
      else (s.modPort p fun x => { x with split := true }).report (0x140 + p / 16) (unitId 10 p) (detailS (leBytes 2 p))
    let others := ls.filter fun l => !fast.contains l
    let s := s.each others fun s l => s.modLane l fun x => { x with g4Held := true }
    s.laneRetrain fast true
  else s

/-- G4 is offered again on every lane of a port (R103). -/
def State.offerG4 (s : State) (p : Nat) : State :=
  let s := s.modPort p fun x => { x with split := false }
  s.each (s.portLanes p) fun s l => s.modLane l fun x => { x with g4Held := false }

/-! ### Commit and write hooks (R71, R83, R88, R90) -/

/-- A lane whose mode, polarity, training, precoding, initial FIR or check tag changed at a commit (R83). Without the
microsequencer code of a firmware body every lane stays OFF (R392). -/
def State.laneReconf (s : State) (l : Nat) : State :=
  s.laneGo l (if s.get (O.LANE_MODE l) = 0 ∨ s.sys.ucode = false then Stage.off else Stage.detect) 6

/-- A commit changed TX_REF_SELECT: the bank moves to the selected input if it is healthy; it stays where it is otherwise,
whatever REF_FAILOVER is (R71; the spec does not say, log 74). -/
def State.refSelect (s : State) (b : Nat) : State :=
  let sel := s.get (O.TX_REF_SELECT b)
  if s.get (O.BANK_STATE b) = 1 ∧ s.flag (O.REF_HEALTHY (b * 4 + sel)) then s.set (O.TX_REF_ACTIVE b) sel else s

/-- FFE_LOAD, once accepted (R88): 36 I16, tap 0 first. -/
def State.ffeLoad (s : State) (l : Nat) (d : List Byte) : State :=
  s.putTaps l ((List.range 36).map fun i => toSigned 16 (leAt d (2 * i) 2))

/-- RETRAIN on a lane in TRAIN or beyond (R82, R103). -/
def State.retrain (s : State) (l : Nat) : State :=
  let s := match s.portOfLane l with
    | some p => s.offerG4 p
    | none => s.modLane l fun x => { x with g4Held := false }
  s.laneGo l Stage.train 4

/-! ### FIR requests (R85, R86) -/

/-- The taps of an encoded FIR: pre, main, post. -/
def firTaps (v : Nat) : Int × Int × Int := (toSigned 8 v, toSigned 8 (v / 256), toSigned 8 (v / 65536))
/-- The encoding of R86. -/
def firWord (t : Int × Int × Int) : Nat := ofSigned 8 t.1 + 256 * ofSigned 8 t.2.1 + 65536 * ofSigned 8 t.2.2
/-- A tap within its own bounds: 0 pre, 1 main, 2 post. -/
def tapBound (k : Nat) (v : Int) : Bool :=
  match k with
  | 0 => decide (-20 ≤ v ∧ v ≤ 0)
  | 1 => decide (24 ≤ v ∧ v ≤ 64)
  | _ => decide (-24 ≤ v ∧ v ≤ 0)
/-- The two joint rules. -/
def tapJoint (t : Int × Int × Int) : Bool :=
  decide ((t.1.natAbs : Int) + t.2.1 + t.2.2.natAbs ≤ 64) && decide (16 ≤ t.2.1 - t.1.natAbs - t.2.2.natAbs)
/-- A legal FIR (R86). -/
def firOk (v : Nat) : Bool :=
  let t := firTaps v
  tapBound 0 t.1 && tapBound 1 t.2.1 && tapBound 2 t.2.2 && tapJoint t && decide (v < 2 ^ 24)
/-- Presets 1-3 (R86); other codes load nothing. -/
def preset (n : Nat) : Option Nat :=
  match n with
  | 1 => some 0x00004000
  | 2 => some 0x00F832FA
  | 3 => some 0x00F42AF6
  | _ => none
def tapGet (t : Int × Int × Int) (k : Nat) : Int := if k = 0 then t.1 else if k = 1 then t.2.1 else t.2.2
def tapSet (t : Int × Int × Int) (k : Nat) (v : Int) : Int × Int × Int :=
  if k = 0 then (v, t.2) else if k = 1 then (t.1, v, t.2.2) else (t.1, t.2.1, v)

/-- One request for tap `k`: result code 0 not updated, 1 updated, 2 at limit, 3 refused; the new taps. -/
def tapStep (t : Int × Int × Int) (k req : Nat) : Nat × (Int × Int × Int) :=
  if req = 1 ∨ req = 2 then
    let v := tapGet t k + (if req = 1 then 1 else -1)
    if !tapBound k v then (2, t)
    else if !tapJoint (tapSet t k v) then (3, t)
    else (1, tapSet t k v)
  else (0, t)

/-- The requests of a control field applied in the order pre, main, post: the result bits [5:0] and the taps. -/
def tapRequests (fir control : Nat) : Nat × Nat :=
  match preset (bits control 8 6) with
  | some v => (0b010101, v)
  | none =>
    let a := tapStep (firTaps fir) 0 (bits control 1 0)
    let b := tapStep a.2 1 (bits control 3 2)
    let c := tapStep b.2 2 (bits control 5 4)
    (a.1 + 4 * b.1 + 16 * c.1, firWord c.2)

/-- The partner's request is applied once per sequence number and answered (R85, R86). -/
def State.trainRequest (s : State) (l control : Nat) : State :=
  let seq := bits control 31 16
  if (s.lane l).appliedSeq = some seq then s
  else
    let r := if s.get (O.TX_FIR_MODE l) = 1 then (0, s.get (O.TX_FIR l)) else tapRequests (s.get (O.TX_FIR l)) control
    (s.set (O.TX_FIR l) r.2).modLane l fun x => { x with appliedSeq := some seq, result := r.1 }

/-- The lane's own requests: a new one only once the partner's status echoes the last. What adaptation asks for, and
whether it asks, is free (R85, log 4). -/
def State.ownRequest (s : State) (l status : Nat) : State :=
  if bits status 31 16 ≠ (s.lane l).reqSeq then s
  else
    let d := s.draw 16
    let v := d.1
    if bit v 15 then
      d.2.modLane l fun x => { x with
        reqSeq := (x.reqSeq + 1) % 2 ^ 16
        reqCtl := bits v 1 0 % 3 + 4 * (bits v 3 2 % 3) + 16 * (bits v 5 4 % 3) + 64 * bits v 7 6 }
    else d.2

/-- Write the partner's capability words as received, network order (R87, R97). -/
def State.putCaps (s : State) (l caps : Nat) : State := s.setAll (O.PARTNER_CAPS l) ((beBytes 16 caps).map bn)

/-- The ready level supervision compares with; for the slower rates, which R80 gives none, a free value (log 4). -/
def State.superviseLevel (s : State) (rate : Nat) : Nat × State :=
  if rate = 4 ∨ rate = 5 then (readyLevel rate, s) else s.draw 16

/-- A lane that trains at 425 Gb/s if the partner can: both list G4, the tile is not in Pale service (R75, R80). -/
def State.g4Possible (s : State) (l : Nat) : Bool :=
  s.get (O.LANE_MODE l) == 5 && (s.lane l).partnerG4 && !(s.lane l).g4Held && !s.isPale (l / 16)

/-- The rate training ends at; `none` while it cannot end. G4 training ends with its own receiver ready and the partner's
ready bit seen in 3 consecutive frames, so a lane whose partner sends none never leaves TRAIN (R73, R79, R80). -/
def State.trainedRate (s : State) (l : Nat) : Option Nat :=
  let m := s.get (O.LANE_MODE l)
  let x := s.lane l
  if m ≠ 5 then some m
  else if !x.ready || decide (x.partnerReady < 3) then none
  else if s.get (O.TRAIN_PHASE l) = 1 then some 5
  else if s.g4Possible l then none
  else some 4

/-- What a lane learns of a training frame: the partner lists G4, its receiver is ready, its phase field is 1. -/
def LaneX.heard (x : LaneX) (g4 ready phase : Bool) : LaneX :=
  { x with partnerG4 := g4, partnerReady := if ready then min 3 (x.partnerReady + 1) else 0,
           phaseSeen := if phase then min 16 (x.phaseSeen + 1) else 0 }

/-- The receiver's SNR over the last 1 ms against the ready level of the phase; when phase A is ready, PRECODE 0 settles by
SNR whether precoding is requested, by a criterion the spec does not give (free, log 4), and with both ends ready and G4
possible the phase field goes to 1 (R80, R97). -/
def State.measure (s : State) (l snr : Nat) : State :=
  let b := s.get (O.TRAIN_PHASE l) == 1
  let ok := decide (readyLevel (if b then 5 else 4) ≤ snr)
  let s := s.set (O.SNR l) snr
  let s := if ok && !b && !(s.lane l).ready && s.get (O.PRECODE l) == 0 then
      let d := s.draw 1
      d.2.modLane l fun x => { x with precode := d.1 == 1 }
    else s
  let g4 := s.g4Possible l
  s.modLane l fun x => { x with ready := ok, phaseOut := x.phaseOut || (ok && !b && g4 && decide (0 < x.partnerReady)) }

/-- The partner's capability words match the lane's own (R81, R87). -/
def State.capsMatch (s : State) (l caps : Nat) : Bool :=
  let w0 := caps / 2 ^ 96
  let w2 := bits caps 63 32
  match s.portOfLane l with
  | none => false
  | some p => bits w0 15 8 == s.portWidth p && bits w0 7 4 == 0 && bits w2 31 16 == s.get (O.PORT_CHECK_TAG l) &&
      bits w0 23 16 == l - p

/-! ### Meanings: reference inputs (R70-R72) -/

/-- REFCLK_LOSS (R71, R72). The measured error is a free value (log 4). -/
def execRefclkLoss (n : RefInput) (s : State) : Out := live s fun s =>
  if !s.flag (O.REF_HEALTHY n) then s
  else
    let b := n.val / 4
    let e := s.draw 32
    let s := ((e.2.set (O.REF_FREQ_ERR n) e.1).set (O.REF_HEALTHY n) 0).count32 (O.REF_LOSS_COUNT n)
    let own := (List.range 16).map (n.val * 16 + ·)
    if s.get (O.BANK_STATE b) = 1 ∧ s.get (O.TX_REF_ACTIVE b) = n.val % 4 then
      match s.refToTake b with
      | some r =>
        ((s.set (O.TX_REF_ACTIVE b) r).report n.val (unitId 8 n) (detailS (leBytes 4 e.1))).lanesLoseRef own
      | none =>
        ((s.set (O.BANK_STATE b) 2).report (0x020 + b) (unitId 7 b) (detailS [nb (n.val % 4)])).lanesLoseRef
          ((List.range 64).map (b * 64 + ·))
    else (s.report n.val (unitId 8 n) (detailS (leBytes 4 e.1))).lanesLoseRef own

/-- REFCLK_HEALTHY (R72): the measured error is a free value within 500 ppm (log 4). -/
def execRefclkHealthy (n : RefInput) (s : State) : Out := live s fun s =>
  if s.flag (O.REF_HEALTHY n) then s
  else
    let e := s.draw 32
    let s := (e.2.set (O.REF_FREQ_ERR n) (ofSigned 32 ((e.1 % 1000001 : Nat) - (500000 : Int)))).set (O.REF_HEALTHY n) 1
    s.each ((List.range 16).map (n.val * 16 + ·)) State.laneAdvance

/-- TX_PLL_LOCK (R71): a bank without a transmit reference locks to the input it takes, and its lanes go on. -/
def execTxPllLock (b : LaneBank) (s : State) : Out := live s fun s =>
  if s.get (O.BANK_STATE b) = 1 then s
  else
    match s.refToTake b with
    | none => s
    | some r =>
      let s := (s.set (O.TX_REF_ACTIVE b) r).set (O.BANK_STATE b) 1
      s.each ((List.range 64).map (b.val * 64 + ·)) State.laneAdvance

/-- DIE_TO_DIE_LINK_LOSS (R425): every lane of the bank goes to DETECT. Which LAST_EXIT it records is a free value
(log 4). -/
def execDieToDieLinkLoss (b : LaneBank) (linkLanes : BitVec 32) (s : State) : Out := live s fun s =>
  let s := s.report (0x028 + b.val) (unitId 7 b) (detailS (leBytes 4 linkLanes.toNat))
  s.each ((List.range 64).map (b.val * 64 + ·)) fun s l =>
    if s.stage l = Stage.off then s
    else
      let e := s.draw 16
      e.2.laneGo l Stage.detect (e.1 % 10)

/-! ### Meanings: signal and training (R79-R86, R90) -/

/-- LOS_ASSERT (R90): the detector runs only while the lane is out of OFF. -/
def execLosAssert (l : Lane) (s : State) : Out := live s fun s =>
  if s.stage l = Stage.off ∨ (s.lane l).los then s
  else
    let s := (s.count32 (O.LANE_EVENTS l 1)).reportLane 0x030 l
    let s := s.modLane l fun x => { x with los := true, good := false }
    if s.stage l = Stage.detect then s else s.laneGo l Stage.detect 1

/-- LOS_DEASSERT (R79, R90): 1 ms of signal has been seen; the lane leaves DETECT in this clock. -/
def execLosDeassert (l : Lane) (s : State) : Out := live s fun s =>
  if s.stage l = Stage.off then s else (s.modLane l fun x => { x with los := false, good := true }).laneAdvance l

/-- TRAINING_FRAME_RECEIVE (R80, R84-R87): the fields are symbols 32-239, most significant first: control, status,
capability words 0-3, CRC; the SNR is the least of the receiver over the last 1 ms. A frame whose CRC fails is ignored. -/
def execTrainingFrameReceive (l : Lane) (x : TrainingSeen) (s : State) : Out := live s fun s =>
  let v := x.fields.toNat
  if s.stage l ≠ Stage.train ∨ s.get (O.LANE_MODE l) ≠ 5 ∨ crc16Bits (v / 2 ^ 16) 192 ≠ v % 2 ^ 16 then s
  else
    let caps := bits v 143 16
    let control := v / 2 ^ 176
    let status := bits v 175 144
    let s := (s.putCaps l caps).modLane l (·.heard (bit (bits caps 95 64) 4) (bit status 6) (bit control 9))
    (((s.trainRequest l control).ownRequest l status).measure l x.snr.toNat).sendTraining l

/-- TRAIN_PHASE_B_SWITCH (R75, R80): 16 frames with the phase field at 1 are sent and seen. Each phase has its own ready
condition. -/
def execTrainPhaseBSwitch (l : Lane) (s : State) : Out := live s fun s =>
  let x := s.lane l
  if s.stage l = Stage.train ∧ s.get (O.TRAIN_PHASE l) = 0 ∧ s.g4Possible l ∧ x.phaseOut ∧ 16 ≤ x.phaseSeen then
    (((s.set (O.TRAIN_PHASE l) 1).set (O.RATE_ACTIVE l) 5).modLane l fun x => { x with ready := false, partnerReady := 0 }).sendTraining l
  else s

/-- TRAIN_COMPLETE (R73, R79, R80, R103): the training ends; the FIR is held. In modes 1-4, whose procedure is that of IEEE
802.3, the SNR reached is free (log 4). -/
def execTrainComplete (l : Lane) (s : State) : Out := live s fun s =>
  if s.stage l ≠ Stage.train ∨ s.sys.seqDown.contains (bankOfLane l) then s
  else
    match s.trainedRate l with
    | none => s
    | some r =>
      let s := s.adapt l
      let s := if s.get (O.LANE_MODE l) = 5 then s else let d := s.draw 16; d.2.set (O.SNR l) d.1
      let s := ((s.set (O.RATE_ACTIVE l) r).laneOn l Stage.lock).ratesShown l
      match s.portOfLane l with
      | some p => s.rateSplit p
      | none => s

/-- TRAIN_TIMEOUT (R79). -/
def execTrainTimeout (l : Lane) (s : State) : Out := live s fun s =>
  if s.stage l ≠ Stage.train then s
  else ((s.count32 (O.LANE_EVENTS l 3)).reportLane 0x040 l).laneGo l Stage.detect 5

/-! ### Meanings: lock, deskew, exchange (R78-R82, R89, R91) -/

/-- MARKER_LOCK (R78, R79): the marker group received is at 425 Gb/s four accepted markers. A period passes: adaptation
goes on and the lane sends its own. -/
def execMarkerLock (x : MarkerSeen) (s : State) : Out := live s fun s =>
  let l := x.lane
  if s.stage l ≠ Stage.lock then s
  else if s.get (O.RATE_ACTIVE l) ≠ 5 then (s.adapt l).modLane l fun x => { x with locked := true }
  else if groupOk x.group then
    ((s.adapt l).modLane l fun y => { y with locked := true, link := byteAt x.group 12 }).sendMarkers l
  else s

/-- A lane locked in LOCK, or beyond it. -/
def State.laneLocked (s : State) (l : Nat) : Bool :=
  decide (Stage.lock < s.stage l) || (s.stage l == Stage.lock && (s.lane l).locked)

/-- LOCK_HOLD_COMPLETE (R79, R89): `skewPs` is this lane's skew against the port's earliest. -/
def execLockHoldComplete (l : Lane) (skewPs : BitVec 32) (s : State) : Out := live s fun s =>
  if s.stage l ≠ Stage.lock ∨ !(s.lanesWith l).all s.laneLocked ∨ skewLimit < spread (s.skewsWith l skewPs.toNat) then s
  else
    ((s.adapt l).set (O.SKEW_PS l) skewPs.toNat).laneOn l
      (if s.get (O.RATE_ACTIVE l) = 5 then Stage.exchange else Stage.active)

/-- LOCK_TIMEOUT (R79, R89): LAST_EXIT is 8 where the port's deskew has failed since the lane entered LOCK, else 5; the
spec does not say when it is 8 (log 75). -/
def execLockTimeout (l : Lane) (s : State) : Out := live s fun s =>
  if s.stage l ≠ Stage.lock then s
  else ((s.count32 (O.LANE_EVENTS l 4)).reportLane 0x048 l).laneGo l Stage.train (if (s.lane l).deskew then 8 else 5)

/-- DESKEW_FAIL (R89): the measured skews of port `p`'s lanes; its lanes stay in LOCK. -/
def execDeskewFail (p : Port) (skews : List (BitVec 32)) (s : State) : Out := live s fun s =>
  let ls := s.portLanes p
  let ks := skews.map (·.toNat)
  if ks.length ≠ ls.length ∨ spread ks ≤ skewLimit ∨ !ls.all s.laneLocked ∨ !ls.any (s.stage · == Stage.lock) then s
  else
    let s := s.each (ls.zip ks) fun s (l, k) =>
      (s.set (O.SKEW_PS l) (k - ks.foldl min (ks.headD 0))).modLane l fun x => { x with deskew := true }
    s.reportLane 0x058 p

/-- EXCHANGE_BLOCK_RECEIVE (R81): matching words with the partner's ack make the lane ACTIVE. -/
def execExchangeBlockReceive (l : Lane) (caps : BitVec 128) (s : State) : Out := live s fun s =>
  if s.stage l ≠ Stage.exchange then s
  else
    let v := caps.toNat
    let s := s.putCaps l v
    if s.capsMatch l v then
      let s := (s.modLane l fun x => { x with ackSeen := true }).sendExchange l
      if bit v 97 then s.laneOn l Stage.active else s
    else
      let s := if (s.lane l).mismatch then s else s.reportLane 0x050 l
      (s.modLane l fun x => { x with mismatch := true, ackSeen := false }).sendExchange l

/-- EXCHANGE_TIMEOUT (R79). -/
def execExchangeTimeout (l : Lane) (s : State) : Out := live s fun s =>
  if s.stage l = Stage.exchange then s.laneGo l Stage.lock 5 else s

/-- LOCK_LOSS (R82, R91, R94): in LOCK the same conditions only keep the hold from completing. -/
def execLockLoss (l : Lane) (s : State) : Out := live s fun s =>
  if s.stage l = Stage.active then ((s.count32 (O.LANE_EVENTS l 2)).reportLane 0x038 l).laneGo l Stage.lock 2
  else if s.stage l = Stage.lock then s.modLane l fun x => { x with locked := false }
  else s

/-- PARTNER_TRAINING_DETECT (R82): to LOCK, and from LOCK to TRAIN. -/
def execPartnerTrainingDetect (l : Lane) (s : State) : Out := live s fun s =>
  if s.stage l = Stage.active then (s.laneGo l Stage.lock 3).laneGo l Stage.train 3 else s

/-! ### Meanings: freeze, eye scan, supervision (R92-R96) -/

/-- A low-information window: only idle control blocks, or too few of the 16 level-to-level transitions (R92). -/
def State.lowWindow (s : State) (l : Nat) (w : Bool × Fin 17) : Bool := w.1 || decide (w.2.val < s.get (O.VARIETY_MIN l))

/-- ADAPTATION_FREEZE (R92, R93): for that many microseconds without a break every window has been low-information. -/
def execAdaptationFreeze (x : WindowsSeen) (s : State) : Out := live s fun s =>
  let l := x.lane
  if s.stage l = Stage.active ∧ s.flag (O.FREEZE_ENABLE l) ∧ !s.flag (O.FROZEN l) ∧ s.get (O.FREEZE_AFTER_US l) ≤ x.us.toNat ∧
      x.windows ≠ [] ∧ x.windows.all (s.lowWindow l) then
    ((s.adapt l).set (O.FROZEN l) 1).count32 (O.LANE_EVENTS l 5)
  else s

/-- ADAPTATION_THAW (R92, R93): for that many microseconds without a break no window has been low-information. -/
def execAdaptationThaw (x : WindowsSeen) (s : State) : Out := live s fun s =>
  let l := x.lane
  if s.get (O.THAW_AFTER_US l) ≤ x.us.toNat ∧ x.windows ≠ [] ∧ x.windows.all (!s.lowWindow l ·) then s.set (O.FROZEN l) 0
  else s

/-- The eyes a scan selects (R95). -/
def eyesOf (sel : Nat) : List Nat := if sel = 3 then [0, 1, 2] else [sel]

/-- Start an eye scan: an error code of R67 and the state (R95). A value above 3, and any but 0 on an NRZ lane, is
refused with ERR_RANGE (the spec gives no code, log 76). -/
def State.eyeScan (s : State) (l sel : Nat) : Nat × State :=
  if s.stage l ≠ Stage.active then (Err.state, s)
  else (Err.ok, (s.cmdRun (O.EYE_SCAN l)).modLane l fun x => { x with eyeSel := sel })

/-- EYE_SCAN_DONE (R95): `result` is 6 bytes per eye scanned: height, width, offset. -/
def execEyeScanDone (l : Lane) (result : List Byte) (s : State) : Out := live s fun s =>
  if !s.cmdRunning (O.EYE_SCAN l) then s
  else
    let es := eyesOf (s.lane l).eyeSel
    let r := (padTo (6 * es.length) result).take (6 * es.length)
    let blob := zeros (6 * es.headD 0) ++ r
    (s.cmdDone (O.EYE_SCAN l) r).setAll (O.EYE_RESULT l) (((padTo 18 blob).take 18).map bn)

/-- AUTO_RETRAIN written FALSE: the firmware no longer reads the bank's lanes, and no reading stands (R96). -/
def State.supervisionOff (s : State) (b : Nat) : State :=
  s.each ((s.lanes.map (·.1)).filter fun l => bankOfLane l == b) fun s l => s.modLane l fun x => { x with degraded := 0 }

/-- SNR_SUPERVISION (R96): the firmware's reading of one lane, once a second; 10 in a row more than 1 dB below its ready
level make it write RETRAIN. Nothing while the firmware is being replaced, or with AUTO_RETRAIN FALSE. -/
def execSnrSupervision (l : Lane) (snr : BitVec 16) (s : State) : Out := live s fun s =>
  let s := if Stage.train ≤ s.stage l then s.set (O.SNR l) snr.toNat else s
  let s := if s.stage l = Stage.active then s.adaptLive l else s
  if s.stage l ≠ Stage.active ∨ !s.flag (O.AUTO_RETRAIN (l.val / 64)) ∨ s.fwUp = false then s
  else
    let r := s.superviseLevel (s.get (O.RATE_ACTIVE l))
    let s := r.2
    let low := decide (snr.toNat + 256 < r.1)
    let n := if low then (s.lane l).degraded + 1 else 0
    if 10 ≤ n then
      ((s.modLane l fun x => { x with degraded := 0 }).count32 (O.LANE_EVENTS l 6)).retrain l
    else s.modLane l fun x => { x with degraded := n }

end Sys2Proof.Machine
end

