-- ==== Sys2Proof/Machine/Ports.lean ====
section
/-!
DEFINITION. Sys2Proof/Machine/Ports.lean: the ports (R98-R122): speed and FEC, entering and leaving UP, flushing, pause
and PFC timers, FEC statistics, preemption verification, and what a commit does to a port.
-/
namespace Sys2Proof.Machine

/-! ### Preemption verification (R115, R116) -/

/-- Send a verify mPacket (R116). -/
def State.verifySend (s : State) (p : Nat) : State :=
  ((s.modPort p fun x => { x with attempts := x.attempts + 1 }).count64 (O.PREEMPT_COUNTS p 7)).emit (.mpacket p false)

/-- Begin preemption as the port's settings say: verification, at once with VERIFY_DISABLE, or not at all (R115, R116). -/
def State.preemptStart (s : State) (p : Nat) : State :=
  let s := s.modPort p fun x => { x with attempts := 0 }
  let on := s.flag (O.PREEMPT_ENABLE p) && s.flag (O.VERIFY_DISABLE p)
  let s := s.set (O.PREEMPT_ACTIVE p) (b01 on)
  if s.verifyRest p = 1 then (s.set (O.VERIFY_STATUS p) 2).verifySend p else s.set (O.VERIFY_STATUS p) 0

/-! ### Entering UP (R99, R104, R105, R116) -/

/-- Every condition the device itself knows of: the port exists, ADMIN_UP, all its lanes ACTIVE (R104). -/
def State.mayComeUp (s : State) (p : Nat) : Bool :=
  s.isPort p && !(s.port p).up && s.flag (O.ADMIN_UP p) && (s.portLanes p).all (s.stage · == Stage.active)

/-- A port enters UP. -/
def State.portUp (s : State) (p lead : Nat) : State :=
  let back := (s.port p).holding
  let s := ((s.modPort p fun x => { x with up := true, holding := false }).setFault p []).portShow p
  let s := (s.set (O.EGRESS_LEAD_NS p) lead).count32 (O.LINK_CHANGES p)
  (if back then s else s.raise (0x120 + p / 16)).preemptStart p

/-! ### What a commit does (R101-R103) -/

/-- Objects of areas 3 and 6 that a port owns and that start from their defaults when it is created; what live charges
count stays (R101, R220). -/
def ownedBy (p : Nat) (k : OKey) : Bool :=
  (k.ref.idx / 4096 == 3 && k.ref.idx != 0x3000 && k.ref.inst == p) ||
  (k.ref.idx == 0x6020 && decide (k.ref.inst < 8192) && k.ref.inst / 16 == p) ||
  (k.ref.idx == 0x6021 && decide (k.ref.inst < 8192) && k.ref.inst / 16 == p && decide (3 ≤ k.ref.sub)) ||
  (k.ref.idx == 0x6030 && k.ref.inst == p && k.ref.sub != 6 && k.ref.sub != 7)

/-- The value PORT_MAC of port `p` starts from: the base of a valid device data region + p, else 0 (R430). -/
def State.portMac (s : State) (p : Nat) : Nat :=
  match s.sys.macBase with
  | some b => (b + p) % 2 ^ 48
  | none => 0

/-- A frame that a port is receiving ends there, with an error (R101, R107, log 113). -/
def State.cutReceive (s : State) (f : Option Nat) : State :=
  match f.bind s.pkt? with
  | some k => s.failPacket { k with ended := true } 0x03
  | none => s

/-- A port the new map does not have: the frames it is receiving end with it, its objects cease to exist, and a
PORT_LINK_DOWN that waits for DOWN_HOLD_MS still comes (R101, R105). -/
def State.portGone (s : State) (p : Nat) : State :=
  let x := s.port p
  let s := (s.cutReceive x.rxWhole).cutReceive x.rxPre
  let s := s.putPort p { PortX.reset with holding := x.holding, bucketAt := s.now }
  let s : State := { s with dict := { s.dict with objs := s.dict.objs.filter fun e => !ownedBy p e.1 } }
  s.set (O.PORT_MAC p) (s.portMac p)

/-- A port of the old map that a commit removed or changed in width, mode, FEC mode or SUBRATE_10G (R102, R103). -/
def State.portReconf (s : State) (p : Nat) : State :=
  let s := ((s.portDown p 6).flushQueues p).postcardsDue
  if s.isPort p then (s.offerG4 p).portShow p else s.portGone p

/-- SUBRATE_10G changed: the lane's signalling changes too (R102). -/
def State.subrateChanged (s : State) (p : Nat) : State :=
  if s.stage p = Stage.off then s else s.laneGo p Stage.detect 6

/-- PREEMPT_ENABLE or VERIFY_DISABLE of a port changed at a commit: an UP port begins again with it (R115, R116). -/
def State.preemptChanged (s : State) (p : Nat) : State :=
  if (s.port p).up then s.preemptStart p else s.set (O.VERIFY_STATUS p) (s.verifyRest p)

/-- PFC or pause settings changed: pauses of a priority the port no longer uses end, and so do lossless classes it no longer
has; the others are held against their thresholds (R111, R113, R221). -/
def State.flowChanged (s : State) (p : Nat) : State :=
  let mode := s.get (O.FLOW_CTRL p)
  let keep := fun k => if k = 8 then mode == 1 else mode == 2 && bit (s.get (O.PFC_PRIORITIES p)) k
  let s := (s.modPort p fun x => { x with
    paused := x.paused.filter (keep ·.1), ignored := x.ignored.filter keep, xoff := x.xoff.filter (s.classLive p) }).showPause p
  (s.pfcCheck p 1).pfcCheck p 2

/-! ### Write hooks (R104, R105, R124) -/

/-- ADMIN_UP written: FALSE takes an UP port down with cause 5, and a DISABLED port signals no fault; `was` is what it
signalled before (R104). -/
def State.adminWritten (s : State) (p : Nat) (was : Bool) : State :=
  (if s.flag (O.ADMIN_UP p) then s else s.portDown p 5).signalled p was

/-- FLUSH_ON_DOWN written: TRUE on a port that is not UP discards what waits (R105). -/
def State.flushWritten (s : State) (p : Nat) : State :=
  if s.flag (O.FLUSH_ON_DOWN p) ∧ !(s.port p).up then (s.flushQueues p).postcardsDue else s

/-- BCAST_RATE_PPS written with another value: the bucket is full (R124). -/
def State.bcastWritten (s : State) (p : Nat) : State :=
  s.modPort p fun x => { x with bucket := 64 * 1250000000, bucketAt := s.now }

/-! ### Meanings -/

/-- PORT_UP (R104): block lock, alignment and deskew stand and no fault is signalled; `egressLead` is the lead the path
of this configuration has (R270). -/
def execPortUp (p : Port) (egressLead : BitVec 32) (s : State) : Out := live s fun s =>
  if s.mayComeUp p then s.portUp p egressLead.toNat else s

/-- PORT_LEAVE_UP (R104, R105): a condition of the port fails, whether it is UP or not; a fault stands until the port's
conditions clear, and one needs lanes that are ACTIVE. A port whose lanes are not all ACTIVE, or whose PCS has not aligned
them, is DOWN, and its PCS reports no fault. -/
def execPortLeaveUp (p : Port) (cause : DownCause) (s : State) : Out := live s fun s =>
  let s := s.portDown p (match cause with | .laneLeft => 1 | .alignment => 2 | .localFault => 3 | .remoteFault => 4)
  let f := (s.port p).fault
  let on := s.isPort p && (s.portLanes p).all (s.stage · == Stage.active)
  match cause with
  | .localFault => if on then s.setFault p (insNat 1 f) else s
  | .remoteFault => if on then s.setFault p (insNat 2 f) else s
  | _ => s.setFault p []

/-- DOWN_HOLD_EXPIRE (R105). -/
def execDownHoldExpire (p : Port) (s : State) : Out := live s fun s =>
  if (s.port p).holding then (s.modPort p fun x => { x with holding := false }).raise (0x100 + p.val / 16) else s

/-- PAUSE_EXPIRE (R112): the quanta of a priority, or of the whole port in mode 1, have elapsed. -/
def execPauseExpire (p : Port) (prio : Fin 8) (s : State) : Out := live s fun s =>
  let k := if s.get (O.FLOW_CTRL p) = 1 then 8 else prio.val
  (s.modPort p fun x => { x with paused := del k x.paused }).showPause p

/-- PFC_REPEAT (R113): the class is still over XOFF. -/
def execPfcRepeat (p : Port) (high : Bool) (s : State) : Out := live s fun s =>
  let cls := if high then 2 else 1
  if s.classLive p cls && (s.port p).xoff.contains cls then s.sendPause p cls (s.get (O.XOFF_QUANTA p)) else s

/-- PFC_WATCHDOG_TRIP (R114). -/
def execPfcWatchdogTrip (p : Port) (prio : Fin 8) (s : State) : Out := live s fun s =>
  if s.get (O.WATCHDOG_MS p) = 0 ∨ s.get (O.FLOW_CTRL p) ≠ 2 ∨ !(s.port p).paused.any (·.1 == prio.val) then s
  else
    let s := s.modPort p fun x => { x with paused := del prio.val x.paused, ignored := insNat prio.val x.ignored }
    ((s.showPause p).count32 (O.WATCHDOG_TRIPS p)).report (0x180 + p.val / 16) (unitId 10 p)
      (detailS (leBytes 2 p ++ [nb prio.val]))

/-- PFC_RECOVER_EXPIRE (R114). -/
def execPfcRecoverExpire (p : Port) (prio : Fin 8) (s : State) : Out := live s fun s =>
  s.modPort p fun x => { x with ignored := delNat prio.val x.ignored }

/-- FEC_DEGRADE_WINDOW (R110): one second of a port's codewords, by number of corrected symbols; BASE-R FEC counts blocks
and no symbols, and a port without FEC counts nothing. -/
def execFecDegradeWindow (p : Port) (bins : List (BitVec 32)) (uncorrectable symbols : BitVec 32) (s : State) : Out :=
  live s fun s =>
    let fec := s.get (O.FEC_ACTIVE p)
    if !s.isPort p ∨ fec = 0 then s
    else
      let b := (List.range 16).map fun k => (bins.getD k 0).toNat
      let s := (s.count64 (O.FEC_COUNTS p 1) (sumL (b.drop 1))).count64 (O.FEC_COUNTS p 2) uncorrectable.toNat
      let s := if fec = 1 then s
        else s.each b.zipIdx fun s (n, k) =>
          s.count64 (O.FEC_HISTOGRAM p) (n + if k = 15 then uncorrectable.toNat else 0) k
      let s := if fec = 1 then s else s.count64 (O.FEC_COUNTS p 3) symbols.toNat
      let bad := decide (s.get (O.DEGRADE_LIMIT p) < sumL (b.drop 12))
      let n := if bad then 0 else (s.port p).clean + 1
      let s := s.modPort p fun x => { x with clean := n }
      if bad then (s.set (O.FEC_DEGRADED p) 1).report (0x160 + p.val / 16) (unitId 10 p) (detailS (leBytes 2 p))
      else if 10 ≤ n then s.set (O.FEC_DEGRADED p) 0
      else s

/-- VERIFY_REQUEST_RECEIVE (R116): answered whatever the port's own setting. -/
def execVerifyRequestReceive (p : Port) (s : State) : Out := live s fun s =>
  if (s.port p).up then s.emit (.mpacket p true) else s

/-- VERIFY_RESPONSE_RECEIVE (R115, R116). -/
def execVerifyResponseReceive (p : Port) (s : State) : Out := live s fun s =>
  if (s.port p).up ∧ s.get (O.VERIFY_STATUS p) = 2 then (s.set (O.VERIFY_STATUS p) 3).set (O.PREEMPT_ACTIVE p) 1 else s

/-- VERIFY_TIMEOUT (R116). -/
def execVerifyTimeout (p : Port) (s : State) : Out := live s fun s =>
  if !(s.port p).up ∨ s.get (O.VERIFY_STATUS p) ≠ 2 then s
  else if (s.port p).attempts < 3 then s.verifySend p
  else (s.set (O.VERIFY_STATUS p) 4).report (0x1A0 + p.val / 16) (unitId 10 p) (detailS (leBytes 2 p))

end Sys2Proof.Machine
end

