-- ==== Sys2Proof/Machine/Host.lean ====
section
/-!
DEFINITION. Sys2Proof/Machine/Host.lean: the host attachment's DMA (R318-R349): the page map, channel states, prefetch,
the engines' choice, packets to and from the host, completions and notifications, legacy rings. The host's memory is
the world's: reads leave with a tag and return as a command; writes leave as outputs.
-/
namespace Sys2Proof.Machine

namespace Ch
abbrev disabled := 0
abbrev idle := 1
abbrev running := 2
abbrev parked := 3
abbrev halted := 4
abbrev stopped := 5
end Ch

def m32 : Nat := 2 ^ 32
def State.chSt (s : State) (c : Nat) : Nat := s.get (O.CH_STATE c)
def State.chKind (s : State) (c : Nat) : Nat := s.get (O.CH_KIND c)
/-- A legacy ring's channel (R347). -/
def State.isLegacy (s : State) (c : Nat) : Bool := s.chKind c == 6 || s.chKind c == 7
def State.isChain (s : State) (c : Nat) : Bool := !s.isLegacy c && s.get (O.CH_MODE c) == 1
/-- The ring size of a channel. -/
def State.ringSize (s : State) (c : Nat) : Nat :=
  max 1 (if s.isLegacy c then s.get (O.LEGACY_RING_SIZE (c / 16)) else s.get (O.CH_RING_SIZE c))
/-- Bytes of a descriptor. -/
def State.descLen (s : State) (c : Nat) : Nat := if s.isLegacy c then 16 else 32

/-! ### Translation (R321-R324) -/

/-- A translated bus address, or `none` where the segment faults (R321); an uncorrectable row acts as invalid (R383). -/
def State.translate (s : State) (ma : Nat) (wr : Bool) : Option Nat × State :=
  let e2 := s.get O.PM_SPLIT_2M
  let e1 := s.get O.PM_SPLIT_1G
  let (row, off, first, limit) :=
    if ma < 0x10000000000 then (ma / 2 ^ 12, ma % 2 ^ 12, 0, e2)
    else if ma < 0x800000000000 then ((ma - 0x10000000000) / 2 ^ 21, ma % 2 ^ 21, e2, e1)
    else ((ma - 0x800000000000) / 2 ^ 30, ma % 2 ^ 30, e1, 65536)
  let n := first + row
  if limit ≤ n then (none, s)
  else
    let r := s.readWord 0xB08 0xB09 (unitId 13 0) (unitId 13 0) n 3
    let v := r.2.get O.HOST_PAGE_MAP n
    if r.1 || !bit v 0 || (wr && !bit v 1) || (!wr && !bit v 2) then (none, r.2)
    else (some (v / 2 ^ 12 * 2 ^ 12 + off), r.2)

/-- A channel's bus address: legacy addresses are not translated (R347). -/
def State.busOf (s : State) (c ma : Nat) (wr : Bool) : Option Nat × State :=
  if s.isLegacy c then (some ma, s) else s.translate (ma % 2 ^ 48) wr

/-- A segment faults: its channel parks, and its engine turns away (R324). -/
def State.park (s : State) (c ma : Nat) (wr : Bool) (at_ : Nat) : State :=
  let s := s.setAll (O.CH_FAULT c) ((leBytes 8 ma ++ [nb (b01 wr), 0, 0, 0] ++ leBytes 4 at_).map bn)
  let s := (s.count64 O.PM_FAULTS).count64 (O.CH_COUNTS c 0x12)
  let s := (s.set (O.CH_STATE c) Ch.parked).raise (0x880 + c)
  let e := s.engine (c / 16)
  if e.cur = some c then s.putEngine (c / 16) { e with cur := none } else s

/-! ### Reads and their tags (R325) -/

/-- The requests that may be out at once, by the tag enables of configuration space (R318). -/
def HostX.tagLimit (h : HostX) : Nat := if h.tags10 then 768 else if h.tagsExt then 256 else 32

/-- The lowest free read tag an engine may take (R318, R325); in D3hot the function issues no request (log 103). -/
def State.freeTag (s : State) (e : Nat) : Option Nat :=
  if s.host.d3hot || decide (96 ≤ (s.host.reads.filter fun r => r.ch / 16 == e).length) then none
  else firstFrom (fun t => !s.host.reads.any (·.tag == t)) 0 s.host.tagLimit

/-- Issue one read of the host bus; `none` where no tag is free. -/
def State.issueRead (s : State) (c : Nat) (why : Purpose) (at_ ma bus len : Nat) : Option State :=
  (s.freeTag (c / 16)).map fun t =>
    let r : ReadReq := ⟨t, c, why, at_, ma, bus, len⟩
    State.emit { s with host := { s.host with reads := s.host.reads ++ [r] } } (.hostRead t bus len)

/-- The length of the segment at a map address: it crosses no 4 KiB boundary and exceeds no limit (R323). -/
def segLen (ma left limit : Nat) : Nat := min left (min (4096 - ma % 4096) limit)

/-- The reads of a channel that are still out. -/
def State.readsOf (s : State) (c : Nat) : List ReadReq := s.host.reads.filter (·.ch == c)

/-! ### States (R327, R344) -/

/-- What a ring channel has still to complete. -/
def State.ringLeft (s : State) (c : Nat) : Bool :=
  let x := s.chan c
  if s.isLegacy c then s.get (O.LEGACY_HEAD (c / 16)) != x.tail else x.head != x.producer

/-- IDLE or RUNNING, as there are descriptors to act on (R327). -/
def State.chRefresh (s : State) (c : Nat) : State :=
  let st := s.chSt c
  if (st = Ch.idle ∨ st = Ch.running) ∧ !s.isChain c then
    s.set (O.CH_STATE c) (if s.ringLeft c || (s.chan c).cur.isSome then Ch.running else Ch.idle)
  else s

/-- Tables that a copy descriptor touches (R342). -/
def State.copyTables (s : State) (b : List Byte) : List Nat :=
  let n := leAt b 12 4
  let hits := fun a (sp : Nat × Nat) => decide (a < (sp.1 + sp.2) * 64) && decide (sp.1 * 64 < a + n)
  (List.range 64).filter fun t => (s.decl t).spans.any fun sp => hits (leAt b 0 4) sp || hits (leAt b 8 4) sp

/-- The objects a current descriptor keeps busy (R39, R340, R342). -/
def State.busyOf (s : State) (c : Nat) (b : List Byte) : List Ref :=
  match s.chKind c with
  | 3 => [⟨leAt b 12 2, leAt b 16 3, byteAt b 14⟩]
  | 5 => (s.copyTables b).map O.TABLE_DATA
  | _ => []

def State.busyAdd (s : State) (l : List Ref) : State := { s with dict := { s.dict with busyTabs := s.dict.busyTabs ++ l } }
def State.busySub (s : State) (l : List Ref) : State :=
  { s with dict := { s.dict with busyTabs := l.foldl (fun a r => a.erase r) s.dict.busyTabs } }

/-- What a descriptor in progress leaves behind when it ends. -/
def ChanX.rest (x : ChanX) : ChanX :=
  { x with cur := none, asked := 0, got := [], res := [], outb := [], wrote := 0, fin := none, last := 0, done := 0 }

/-- The releases of a stopping channel (R339): the copy it holds with `code`, a packet partly written with 0xF0. -/
def State.chDrop (s : State) (c code : Nat) : State :=
  let x := s.chan c
  let s := match x.copying with
    | some k => (s.releaseAt k.fid k.tok code 0).count64 (O.CH_COUNTS c 0x15)
    | none => s
  let s := match x.build.bind (·.fid) with
  | some f =>
    match s.pkt? f with
    | some p => (s.discardArrival p 0xF0).count64 (O.CH_COUNTS c 0x15)
    | none => s
  | none => s
  s.postcardsDue

/-- A channel stops (R343, R344): nothing more is issued, data in the engine is discarded, holders are released. -/
def State.chStop (s : State) (c code st err : Nat) : State :=
  let s := match (s.chan c).cur with
    | some d => s.busySub (s.busyOf c d.body)
    | none => s
  let s := s.chDrop c code
  let s := s.modChan c fun x =>
    { x.rest with
      pre := [], next := none, build := none, copying := none, notify := 0, timing := false, reEnable := false,
      lastErr := if err = 0 then x.lastErr else err }
  let orphan := fun (j : EngJob) => if j.chan = some c then { j with chan := some 512 } else j
  let jobs := fun (l : List EngJob) => (l.filter fun j => j.started || j.chan != some c).map orphan
  let engs := s.lookup.engs.map fun (e : EngX) => { e with jobs := jobs e.jobs }
  let s : State := { s with lookup := { s.lookup with engs := engs } }
  let e := s.engine (c / 16)
  let s := if e.cur = some c then s.putEngine (c / 16) { e with cur := none } else s
  s.set (O.CH_STATE c) st

/-- Halt a channel alone (R330, R333): structural error (1, DMA_DESC_ERROR) or chain limit (2, DMA_CHAIN_LIMIT). A receive
channel holds no packet then, since the descriptors of a packet are checked before it is handed over (R343). -/
def State.chHalt (s : State) (c src ma err : Nat) : State :=
  (s.chStop c 0xF3 Ch.halted err).report (src + c / 16) (unitId 15 c) (detailD c ma err)

/-- A doorbell or acknowledgement out of range (R332). -/
def State.doorbellError (s : State) (c : Nat) : State :=
  (s.count64 (O.CH_COUNTS c 0x13)).report (0xAC0 + c / 16) (unitId 15 c) (detailD c 0 0)

/-- Stop an engine (R343, R379): every channel of it. -/
def State.engineStop (s : State) (e kind ma bus ch : Nat) : State :=
  let s := s.setAll (O.ENGINE_BUS_ERROR e) ((leBytes 8 ma ++ leBytes 8 bus ++ [nb kind, nb ch] ++ zeros 6).map bn)
  let s := (s.set (O.ENGINE_STATE e) 1).count32 (O.ENGINE_STOPS e)
  let s := s.each ((List.range 16).map (e * 16 + ·)) fun s c => s.chStop c 0xF3 Ch.stopped 3
  s.putEngine e { s.engine e with cur := none }

/-- Read the configuration and enter IDLE (R344); an invalid one leaves the channel DISABLED with error 4. -/
def State.chEnable (s : State) (c : Nat) : State :=
  let k := s.chKind c
  let size := s.ringSize c
  let pow := (List.range 17).any fun i => 2 ^ i == size
  let mode := s.get (O.CH_MODE c) = 0 ∨ k = 3 ∨ k = 5
  let ok := k ≠ 0 ∧ pow = true ∧ (s.isLegacy c = true ∨ (mode ∧ s.get (O.CH_RING_BASE c) % (32 * size) = 0))
  if ok then
    let s := s.modChan c fun x => { ChanX.reset with enabled := true, chainLo := x.chainLo, chainHi := x.chainHi }
    let s := if s.isLegacy c then s.set (O.LEGACY_HEAD (c / 16)) 0 else s
    s.set (O.CH_STATE c) Ch.idle
  else s.modChan c fun x => { x with lastErr := 4, enabled := false }

/-! ### Descriptors (R329, R330, R348) -/

def allZero (b : List Byte) (from_ len : Nat) : Bool := (List.range len).all fun i => byteAt b (from_ + i) == 0

/-- A native descriptor that is structurally wrong for its channel; `later` for a host-to-packet descriptor after the
first of its run (R330, R338). -/
def State.badNative (s : State) (c : Nat) (later : Bool) (b : List Byte) : Bool :=
  let k := s.chKind c
  let ty := byteAt b 31
  let fl := byteAt b 30
  if s.isChain c && ty == 0x00 then !allZero b 0 30 || decide (3 < fl)
  else if s.isChain c && ty == 0x0F then !allZero b 6 24 || decide (3 < fl) || leAt b 0 6 % 32 != 0
  else if ty != k || decide (7 < fl) || (k != 2 && decide (3 < fl)) then true
  else
    match k with
    | 1 => !allZero b 6 2 || !allZero b 10 20 || decide (leAt b 8 2 < s.get (O.CH_BUF_SIZE c))
    | 2 => !allZero b 6 2 || !allZero b 28 2 || decide (2 ^ 14 ≤ leAt b 8 2) || decide (2 ^ 14 ≤ leAt b 10 2) || decide (2 ^ 23 ≤ leAt b 12 4) || (later && !allZero b 10 18)
    | 3 => !allZero b 6 2 || decide (2 < byteAt b 15) || !allZero b 19 1 || !allZero b 24 6
    | 4 => !allZero b 6 2 || decide (leAt b 8 4 < 4128) || !allZero b 12 18
    | _ => !allZero b 4 4 || decide (2 ^ 27 ≤ leAt b 0 4) || decide (2 ^ 27 ≤ leAt b 8 4) ||
        decide (2 ^ 25 ≤ leAt b 12 4) || !allZero b 16 14

/-- Valid bytes of a legacy descriptor's buffer (R348). -/
def legacyBytes (b : List Byte) : Nat := 4 * (leAt b 8 2 % 2 ^ 12) - (4 - popcount (leAt b 8 2 / 2 ^ 12) 4)

/-- A legacy descriptor that breaks R347 or R348. -/
def State.badLegacy (s : State) (c : Nat) (b : List Byte) : Bool :=
  let a := leAt b 0 8
  let w := leAt b 8 2
  a % 4 != 0 || decide (2 ^ 48 ≤ a) || decide (w % 2 ^ 12 = 0) || decide (3 < byteAt b 10) || !allZero b 11 5 ||
  (s.chKind c == 7 && !([1, 3, 7, 15].contains (w / 2 ^ 12))) || (s.chKind c == 6 && bit (byteAt b 10) 1)

/-- A structural error of a prefetched descriptor. -/
def State.badDesc (s : State) (c : Nat) (later : Bool) (b : List Byte) : Bool :=
  if s.isLegacy c then s.badLegacy c b || s.get (O.LEGACY_RING_BASE (c / 16)) % 4096 != 0 else s.badNative c later b

/-- Where a ring descriptor lies. -/
def State.ringAddr (s : State) (c k : Nat) : Nat :=
  if s.isLegacy c then s.get (O.LEGACY_RING_BASE (c / 16)) + k % s.ringSize c * 16
  else s.get (O.CH_RING_BASE c) + k % s.ringSize c * 32

/-- The map address of a descriptor. -/
def State.descAddr (s : State) (c : Nat) (d : Desc) : Nat := if s.isChain c then d.at_ else s.ringAddr c d.at_

/-- A channel whose next descriptor is structurally wrong halts once it has come to it (R330). -/
def State.settleBad (s : State) (c : Nat) : State :=
  let x := s.chan c
  match x.cur, x.pre with
  | none, d :: _ =>
    if d.body ≠ [] ∧ s.badDesc c x.build.isSome d.body then s.chHalt c 0xAA0 (s.descAddr c d) 1 else s
  | _, _ => s

/-! ### Prefetch (R325, R333) -/

/-- Descriptors prefetched, or being fetched, by channels of a range. -/
def State.prefetched (s : State) (lo hi : Nat) : Nat :=
  sumL ((s.host.chans.filter fun e => lo ≤ e.1 && e.1 < hi).map (·.2.pre.length))

/-- The host queues of a channel, in the order it serves them. -/
def State.hostQueues (s : State) (c : Nat) : List Nat :=
  let qs := ((List.range 128).map (8192 + ·)).filter fun h => s.get (O.HOSTQ_CHANNEL h) == c
  let at_ := (s.chan c).hostqAt
  qs.filter (at_ < ·) ++ qs.filter (· ≤ at_)

/-- Native buffers a packet takes (R337). -/
def State.spanOf (s : State) (c : Nat) (p : Pkt) : Nat :=
  (p.bytes.length - 4 + s.get (O.CH_BUF_SIZE c) - 1) / max 1 (s.get (O.CH_BUF_SIZE c))

/-- Room for another prefetched descriptor (R325). -/
def State.prefetchRoom (s : State) (c : Nat) : Bool :=
  let e := c / 16
  decide ((s.chan c).pre.length < s.get (O.CH_PREFETCH c)) && decide (s.prefetched (e * 16) (e * 16 + 16) < 256) &&
  decide (s.prefetched 0 512 < 8192)

/-- The descriptors a channel has at hand: fetched, and so checked, without a gap from its next one (R330). -/
def ChanX.ready (x : ChanX) : List Desc := x.pre.takeWhile (·.body != [])

/-- The next descriptor a channel would fetch: its index or address, and where it lies. -/
def State.nextFetch (s : State) (c : Nat) : Option (Nat × Nat) :=
  let x := s.chan c
  if s.isChain c then
    if x.pre.all (·.body != []) then x.next.map fun a => (a, a) else none
  else
    let last := if s.isLegacy c then x.tail else x.producer
    if x.fetched = last then none else some (x.fetched, s.ringAddr c x.fetched)

/-- Fetch one descriptor: a chain at its limit halts instead (R333), a translation that faults parks (R324). -/
def State.prefetch (s : State) (c : Nat) : State :=
  let x := s.chan c
  let live := s.chSt c = Ch.idle ∨ s.chSt c = Ch.running
  if !live || s.flag (O.ENGINE_STATE (c / 16)) || !s.prefetchRoom c || (s.freeTag (c / 16)).isNone then s
  else
    match s.nextFetch c with
    | none => s
    | some (k, ma) =>
      if s.isChain c ∧ s.get (O.CH_CHAIN_LIMIT c) ≤ x.chainN then
        if x.pre = [] ∧ x.cur = none then s.chHalt c 0xA80 ma 2 else s
      else
        let b := s.busOf c ma false
        match b.1 with
        | none => b.2.park c ma false k
        | some bus =>
          match b.2.issueRead c .prefetch k ma bus (s.descLen c) with
          | none => b.2
          | some s =>
            let size := s.ringSize c
            let on := if s.isLegacy c then (k + 1) % size else (k + 1) % m32
            s.modChan c fun x =>
              { x with
                pre := x.pre ++ [⟨k, []⟩], fetched := if s.isChain c then x.fetched else on,
                next := none, chainN := x.chainN + b01 (s.isChain c) }

/-- A prefetched descriptor arrives: a chain learns where it goes on (R333). -/
def State.prefetchDone (s : State) (c k : Nat) (b : List Byte) : State :=
  let on := fun (x : ChanX) =>
    if !s.isChain c then x.next
    else if byteAt b 31 = 0x00 ∨ s.badDesc c x.build.isSome b then none
    else if byteAt b 31 = 0x0F then some (leAt b 0 6)
    else some ((k + 32) % 2 ^ 48)
  let s := s.modChan c fun x =>
    { x with next := on x, pre := x.pre.map fun (d : Desc) => if d.at_ = k ∧ d.body = [] then { d with body := b } else d }
  s.settleBad c

/-! ### Data reads of the current descriptor (R323, R325) -/

/-- Where a descriptor's data begins. -/
def State.bufOf (s : State) (c : Nat) (b : List Byte) : Nat := if s.isLegacy c then leAt b 0 8 else leAt b 0 6

/-- Data bytes the current descriptor reads from the host. -/
def State.needs (s : State) (c : Nat) (b : List Byte) : Nat :=
  match s.chKind c with
  | 2 => if ((s.chan c).build.map (·.code)).getD 0 ≠ 0 then 0 else leAt b 8 2
  | 3 => if byteAt b 15 = 1 then 0 else leAt b 8 4
  | 7 => if ((s.chan c).build.map (·.code)).getD 0 ≠ 0 then 0 else legacyBytes b
  | _ => 0

/-- Issue the data reads of a channel's current descriptor as far as tags allow. -/
def State.issueReads (s : State) (c : Nat) : Nat → State
  | 0 => s
  | n + 1 =>
    let x := s.chan c
    match x.cur with
    | none => s
    | some d =>
      let left := s.needs c d.body - x.asked
      if left = 0 ∨ (s.freeTag (c / 16)).isNone then s
      else
        let ma := s.bufOf c d.body + x.asked
        let len := segLen ma left s.host.maxRead
        let b := s.busOf c ma false
        match b.1 with
        | none => b.2.park c ma false d.at_
        | some bus =>
          match b.2.issueRead c (.data x.asked) d.at_ ma bus len with
          | none => b.2
          | some s => (s.modChan c fun x => { x with asked := x.asked + len }).issueReads c n

/-- The data returned so far without a gap. -/
def gathered (l : List (Nat × List Byte)) : List Byte :=
  (sortOn (·.1) l).foldl (fun a e => if a.length = e.1 then a ++ e.2 else a) []

/-- All data of the current descriptor has returned. -/
def State.dataIn (s : State) (c : Nat) (b : List Byte) : Bool := decide (s.needs c b ≤ (gathered (s.chan c).got).length)

/-! ### Notification (R335, R347) -/

/-- Send a channel's MSI-X message. -/
def State.notifyNow (s : State) (c : Nat) : State :=
  (s.modChan c fun x => { x with notify := 0, timing := false }).sendMsix (s.get (O.CH_MSIX c))

/-- A completion with flag [0] has been written on a ring channel. -/
def State.notifyOne (s : State) (c : Nat) : State :=
  if s.get (O.CH_MSIX c) = 0xFFFF ∨ s.isChain c then s
  else
    let s := s.modChan c fun x => { x with notify := x.notify + 1, timing := true }
    if s.get (O.CH_MOD_COUNT c) ≤ (s.chan c).notify ∨ s.get (O.CH_MOD_TIME_US c) = 0 then s.notifyNow c else s

/-! ### Completions (R331, R332, R334, R348) -/

/-- Write the bytes a descriptor has for the host, from where it stands, with relaxed ordering where the host has
enabled it; a fault parks the channel (R323, R324, R334). In D3hot nothing is written, and the descriptor waits (log
103). -/
def State.writeOut (s : State) (c : Nat) (d : Desc) : Nat → Bool × State
  | 0 => (true, s)
  | n + 1 =>
    let x := s.chan c
    let left := x.outb.length - x.wrote
    if left = 0 then (true, s)
    else if s.host.d3hot then (false, s)
    else
      let ma := s.bufOf c d.body + x.wrote
      let len := segLen ma left s.host.maxPay
      let b := s.busOf c ma true
      match b.1 with
      | none => (false, b.2.park c ma true d.at_)
      | some bus =>
        let s := b.2.emit (.hostWrite bus (slice x.outb x.wrote len) s.host.relaxed)
        (s.modChan c fun x => { x with wrote := x.wrote + len }).writeOut c d n

/-- Write a completion record at `ma`, in segments as R323 cuts them and with relaxed ordering clear (R334), from where it
stands: ChanX.wrote counts on past the descriptor's own bytes. -/
def State.writeCpl (s : State) (c : Nat) (d : Desc) (ma : Nat) (bytes : List Byte) : Nat → Bool × State
  | 0 => (true, s)
  | n + 1 =>
    let off := (s.chan c).wrote - (s.chan c).outb.length
    let left := bytes.length - off
    if left = 0 then (true, s)
    else if s.host.d3hot then (false, s)
    else
      let len := segLen (ma + off) left s.host.maxPay
      let b := s.busOf c (ma + off) true
      match b.1 with
      | none => (false, b.2.park c (ma + off) true d.at_)
      | some bus =>
        let s := b.2.emit (.hostWrite bus (slice bytes off len) false)
        (s.modChan c fun x => { x with wrote := x.wrote + len }).writeCpl c d ma bytes n

/-- The last-address read (R334): `true` once it is not wanted or has returned. -/
def State.lastRead_ (s : State) (c : Nat) (d : Desc) : Bool × State :=
  let x := s.chan c
  if s.isLegacy c || !bit (byteAt d.body 30) 1 || x.outb == [] || x.last == 2 then (true, s)
  else if x.last = 1 then (false, s)
  else
    let ma := (s.bufOf c d.body + x.outb.length - 1) / 4 * 4
    let b := s.busOf c ma false
    match b.1 with
    | none => (false, b.2.park c ma false d.at_)
    | some bus =>
      match b.2.issueRead c .last d.at_ ma bus 4 with
      | none => (false, b.2)
      | some s => (false, s.modChan c fun x => { x with last := 1 })

/-- A native completion record (R331). -/
def State.cplBytes (s : State) (c : Nat) (d : Desc) (f : Cpl) : List Byte :=
  leBytes 4 d.at_ ++ (padTo 24 f.mid).take 24 ++
    [nb f.code, 0, nb f.status, nb (1 - (s.chan c).head / s.ringSize c % 2)]

/-- What ends with a descriptor: a copy's token after its last buffer (R337), a run of host descriptors after its end of
packet (R338), the objects that were busy (R39). -/
def State.descAfter (s : State) (c : Nat) (d : Desc) (f : Cpl) : State :=
  let s := s.busySub (s.busyOf c d.body)
  match s.chKind c with
  | 1 | 6 =>
    match (s.chan c).copying with
    | none => s
    | some k =>
      let lastBuf := if s.isLegacy c then bit (byteAt f.mid 2) 1 else bit (byteAt f.mid 2) 5
      if !lastBuf then s
      else
        let s := (s.modChan c fun x => { x with copying := none }).count64 (O.CH_COUNTS c (if f.code = 0 then 0x14 else 0x15))
        (s.releaseAt k.fid k.tok f.code (((s.pkt? k.fid).map (·.bytes.length)).getD 0)).postcardsDue
  | 2 => if bit (byteAt d.body 30) 2 then s.modChan c fun x => { x with build := none } else s
  | 7 => if bit (byteAt d.body 10) 1 then s.modChan c fun x => { x with build := none } else s
  | _ => s

/-- A descriptor ends: data it asked for that is still out is dropped when it returns. -/
def State.dropReads (s : State) (c : Nat) : State :=
  let late := fun (r : ReadReq) => match r.why with
    | .data _ => r.ch == c
    | _ => false
  { s with host := { s.host with reads := s.host.reads.map fun r => if late r then { r with why := .gone } else r } }

/-- Bring a decided descriptor to its completion record, and its channel past it. -/
def State.finishDesc (s : State) (c : Nat) : State :=
  let x := s.chan c
  match x.cur, x.fin with
  | some d, some f =>
    let w := s.writeOut c d (x.outb.length + 1)
    if !w.1 then w.2
    else
      let l := w.2.lastRead_ c d
      if !l.1 then l.2
      else
        let s := l.2
        let leg := s.isLegacy c
        let ma := if leg then s.ringAddr c d.at_ else s.get (O.CH_CMPL_BASE c) + x.head % s.ringSize c * 32
        let bytes := if leg then d.body.take 8 ++ (padTo 8 f.mid).take 8 else s.cplBytes c d f
        let w := s.writeCpl c d ma bytes 2
        if !w.1 then w.2
        else
          let s := w.2.count64 (O.CH_COUNTS c 0x10)
          let s := (s.descAfter c d f).dropReads c
          let s := s.modChan c fun x => { x.rest with head := if leg then x.head else (x.head + 1) % m32 }
          let s := if leg then s.set (O.LEGACY_HEAD (c / 16)) ((d.at_ + 1) % s.ringSize c) else s
          let e := s.engine (c / 16)
          let s := if e.cur = some c then s.putEngine (c / 16) { e with cur := none } else s
          let s := if leg then (if bit (byteAt d.body 10) 0 then s.raise (0xB00 + c / 16) else s)
            else if bit (byteAt d.body 30) 0 then s.notifyOne c else s
          (s.chRefresh c).settleBad c
  | _, _ => s

/-! ### Packets to the host (R336, R337, R348) -/

/-- Bytes that the next descriptors at hand of a legacy receive ring hold, 16 at most (R348). -/
def State.legacyRoom (s : State) (c : Nat) : Nat :=
  sumL (((s.chan c).ready.take 16).map fun d => 4 * (leAt d.body 8 2 % 2 ^ 12))

/-- The code the head of a host queue is discarded with when its channel picks it; 0 for none (R224, R228, R337, R348). -/
def State.hostHeadCode (s : State) (c : Nat) (p : Pkt) : Nat :=
  if p.lost then 0xC6
  else if p.poison then 0xC5
  else if !p.ended then 0
  else if s.isLegacy c then
    (if 16 ≤ (s.chan c).ready.length ∧ s.legacyRoom c + 4 < p.bytes.length then 0xF5 else 0)
  else if s.get (O.CH_MAX_SPAN c) < s.spanOf c p then 0xF5
  else 0

/-- Discard the heads of host queue `h` that its channel cannot take, over the entries of the queue. -/
def State.sweepHost (s : State) (c h : Nat) : List (Nat × Nat) → State
  | [] => s
  | e :: r =>
    match s.pkt? e.1 with
    | none => s
    | some q =>
      let s := (s.useDesc q).2
      let p := (s.pkt? e.1).getD q
      let code := s.hostHeadCode c p
      if code = 0 then s
      else ((s.discardHolder e.1 e.2 h code).count64 (O.CH_COUNTS c 0x15)).sweepHost c h r

/-- Descriptors suffice for a whole packet, all of them at hand: one that needs more than CH_PREFETCH waits (R325, R330,
R336, R343; DEDUCED, log 104). -/
def State.descsFor (s : State) (c : Nat) (p : Pkt) : Bool :=
  if s.isLegacy c then decide (p.bytes.length ≤ s.legacyRoom c + 4)
  else decide (s.spanOf c p ≤ (s.chan c).ready.length)

/-- The packet a receive channel takes next: host queue, packet, token. -/
def State.hostNext (s : State) (c : Nat) : Option (Nat × Pkt × Nat) :=
  (s.hostQueues c).findSome? fun h =>
    match s.queue h with
    | [] => none
    | e :: _ => (s.pkt? e.1).bind fun p => if p.ended && s.descsFor c p then some (h, p, e.2) else none

/-- A structural error among the descriptors the next packet would use: the channel halts before it is handed over. -/
def State.badAhead (s : State) (c : Nat) : Option Desc :=
  (s.hostQueues c).findSome? fun h =>
    match s.queue h with
    | [] => none
    | e :: _ => (s.pkt? e.1).bind fun p =>
        if !p.ended then none
        else ((s.chan c).pre.take (if s.isLegacy c then 16 else s.spanOf c p)).find? fun d =>
          d.body != [] && s.badDesc c false d.body

/-- Take a packet: its holder passes to the channel as the copy starts (R208). -/
def State.takePacket (s : State) (c h : Nat) (p : Pkt) (tok : Nat) : State :=
  let s := (s.unqueue h p.fid tok).putPkt
    (p.modHolder tok fun x => { x with kind := .dma, started := true, ch := c })
  s.modChan c fun x => { x with hostqAt := h, copying := some ⟨p.fid, tok, h, 0, 0⟩ }

/-- Bytes 8-27 of a packet-to-host record: ingress time, port and tile, member, flow hash (R331). -/
def rxMid (p : Pkt) : List Byte :=
  leBytes 12 p.tsIn ++ leBytes 2 (p.inPort % 2 ^ 10 + p.tile % 32 * 2 ^ 10) ++ leBytes 2 p.member ++ leBytes 4 p.hash

/-- Channel `c` reads the bytes of a frame that lie in some of its cells, between two offsets, up to a cell that cannot be
read: the bytes, and whether one was met. -/
def State.copyBytes (s : State) (c : Nat) (p : Pkt) (lo hi : Nat) : List Nat → List Byte × Bool × State
  | [] => ([], false, s)
  | i :: r =>
    let bad := if p.poison then (true, s) else
      match p.cells[i]? with
      | some k => s.readCell (unitId 15 c) 3 k
      | none => (false, s)
    if bad.1 then ([], true, bad.2)
    else
      let q := bad.2.copyBytes c p lo hi r
      let a := max lo (256 * i)
      (slice p.bytes a (min hi (256 * (i + 1)) - a) ++ q.1, q.2)

/-- The outcome of one receive buffer: fill it, and decide its completion (R337, R348). -/
def State.receive (s : State) (c : Nat) (d : Desc) : State :=
  match (s.chan c).copying with
  | none => s
  | some k =>
    match s.pkt? k.fid with
    | none => s
    | some p =>
      let leg := s.isLegacy c
      let body := p.bytes.length - 4
      let room := if leg then 4 * (leAt d.body 8 2 % 2 ^ 12) else s.get (O.CH_BUF_SIZE c)
      let want := min room (body - k.at_)
      let cells := (List.range ((want + k.at_ % 256 + 255) / 256)).map (k.at_ / 256 + ·)
      let u := s.useDesc p
      let r := if u.1 then ([], true, u.2) else u.2.copyBytes c p k.at_ (k.at_ + want) cells
      let n := r.1.length
      let past := leg && k.bufs == 15 && decide (k.at_ + n < body) && !r.2.1
      let fin := r.2.1 || past || decide (body ≤ k.at_ + n)
      let code := if u.1 then 0xC6 else if r.2.1 then 0xC5 else if past then 0xF5 else 0
      let words := (n + 3) / 4
      let mid :=
        if leg then
          leBytes 2 (words + (2 ^ (n - 4 * (words - 1)) - 1) * 2 ^ 12) ++
            [nb (byteAt d.body 10 % 2 + 2 * b01 fin), nb code] ++ leBytes 2 (1 + 2 * b01 (code != 0)) ++ leBytes 2 (p.inPort)
        else
          leBytes 2 n ++ [nb (k.bufs % 16 + 16 * b01 (k.bufs == 0) + 32 * b01 fin), nb (k.queue - 8192)] ++ rxMid p
      (r.2.2.count64 (O.CH_COUNTS c 0x11) n).modChan c fun x =>
        { x with
          outb := r.1, fin := some ⟨mid, code, if code = 0 then 0 else 2⟩,
          copying := some { k with at_ := k.at_ + n, bufs := k.bufs + 1 } }

/-! ### Packets from the host (R201, R276, R338) -/

/-- The code a packet is refused with before any data is read (R338). -/
def State.buildCode (s : State) (total q tw : Nat) : Nat :=
  let op := tw % 16
  if 16379 < total ∨ 5 < op ∨ bits tw 18 17 = 3 ∨ (op = 3 ∧ bit tw 19) ∨ 8319 < q then 0xF0
  else if q < 8192 ∧ !s.isPort (q / 16) then 0xF1
  else 0

/-- The epochs a packet that enters at no tile is tagged with: those every tile has passed (R44). -/
def State.tagsNow (s : State) : List Nat := (s.dict.commits.filter (·.phase == .retiring)).map (·.id)

/-- A packet of channel `c` as it opens (R271, R287). -/
def State.hostPkt (s : State) (c : Nat) (b : Build) : Pkt :=
  { Pkt.fresh s.buf.nextFid (.host c) 0 with
    filtered := true, applied := s.tagsNow, dcIn := s.dc, tsIn := s.ledgerTime, timeW := b.timeW, timeV := b.timeV,
    launch := bit b.timeW 19 }

/-- A packet is discarded before, or while, it is built: its record opens and closes (R287, R338). -/
def State.buildFail (s : State) (c : Nat) (b : Build) (code : Nat) : State :=
  let s := match b.fid.bind s.pkt? with
    | some p => s.discardArrival p code
    | none =>
      let p := s.hostPkt c b
      ((s.openRecord (.host c)).addPkt p).discardArrival p code
  (s.modChan c fun x => { x with build := some { b with fid := none, code := code } }).count64 (O.CH_COUNTS c 0x15)

/-- The run a descriptor belongs to: its first opens it, and each adds its bytes; checks come before any read (R338). -/
def State.buildOpen (s : State) (c : Nat) (d : Desc) : State :=
  let leg := s.isLegacy c
  let n := if leg then legacyBytes d.body else leAt d.body 8 2
  let b := match (s.chan c).build with
    | some b => { b with total := b.total + n }
    | none =>
      if leg then ⟨none, n, s.get (O.LEGACY_TX_QUEUE (c / 16)), 0, 0, 0⟩
      else ⟨none, n, leAt d.body 10 2, leAt d.body 12 4, leAt d.body 16 12, 0⟩
  let s := s.modChan c fun x => { x with build := some b }
  let code := s.buildCode b.total b.queue b.timeW
  if b.code = 0 ∧ code ≠ 0 then s.buildFail c b code else s

/-- Bytes of a host-to-packet packet are written into cells (R201): the code that ends it, 0 for none. -/
def State.hostArrive (s : State) (fid : Nat) (bs : List Byte) : Nat × State :=
  match s.pkt? fid with
  | none => (0, s)
  | some p =>
    let p := { p with bytes := p.bytes ++ bs }
    let r := (s.putPkt p).grantFor p (cellsFor p.bytes.length - p.cells.length)
    (r.1, r.2.2.putPkt r.2.1)

/-- The packet of a build, opened if this is its first data (R287). -/
def State.buildPkt (s : State) (c : Nat) (b : Build) : Nat × State :=
  match b.fid with
  | some f => (f, s)
  | none =>
    let p := s.hostPkt c b
    (p.fid, ((s.openRecord (.host c)).addPkt p).modChan c fun x => { x with build := some { b with fid := some p.fid } })

/-- Enqueue a finished packet: the admission code and the handle word (R338). -/
def State.buildEnd (s : State) (fid q : Nat) : Nat × Nat × State :=
  match s.pkt? fid with
  | none => (0xF0, 0x7FFFFFF, s)
  | some p =>
    let p := { p with ended := true, phase := .matched }
    let s := s.linkWritten p.cells.getLast?
    let r := (s.putPkt p).enqueueTo p [⟨q, if q < 8192 then .egress else .host, 0⟩]
    match r.2.pkt? fid with
    | some k => (r.1, if r.1 = 0 then k.handle + k.gen % 64 * 2 ^ 21 else 0x7FFFFFF, r.2)
    | none => (r.1, 0x7FFFFFF, r.2)

/-- The outcome of one transmit descriptor whose data has returned (R338, R348). -/
def State.transmit (s : State) (c : Nat) (d : Desc) : State :=
  match (s.chan c).build with
  | none => s
  | some b =>
    let leg := s.isLegacy c
    let eop := if leg then bit (byteAt d.body 10) 1 else bit (byteAt d.body 30) 2
    let fin := fun (s : State) hw code status =>
      let mid := if leg then slice d.body 8 3 ++ [nb code] ++ leBytes 2 (1 + 2 * b01 (status != 0)) ++ [0, 0]
        else leBytes 4 hw
      s.modChan c fun x => { x with fin := some ⟨mid, code, status⟩ }
    if b.code ≠ 0 then fin s 0x7FFFFFF b.code 1
    else
      let data := (gathered (s.chan c).got).take (s.needs c d.body)
      let s := s.count64 (O.CH_COUNTS c 0x11) data.length
      let o := s.buildPkt c b
      let have_ := ((o.2.pkt? o.1).map (·.bytes)).getD []
      let whole := padTo 60 (have_ ++ data)
      let r := o.2.hostArrive o.1 (if eop then (whole ++ fcs whole).drop have_.length else data)
      if r.1 ≠ 0 then
        let b := ((r.2.chan c).build).getD b
        fin (r.2.buildFail c b r.1) 0x7FFFFFF r.1 1
      else if eop then
        let e := r.2.buildEnd o.1 b.queue
        fin (e.2.2.count64 (O.CH_COUNTS c (if e.1 = 0 then 0x14 else 0x15))) e.2.1 e.1 0
      else fin r.2 0x7FFFFFF 0 0

/-! ### The engine's choice (R326) -/

/-- A native channel may write its next completion (R332). -/
def State.cplRoom (s : State) (c : Nat) : Bool :=
  let x := s.chan c
  s.isLegacy c || decide ((x.head + m32 - x.ack) % m32 < s.ringSize c)

/-- The message an export channel would write: `true` for the learn stream (R341). -/
def State.exportNext (s : State) (c : Nat) : Option Bool :=
  if s.get O.LEARN_CHANNEL = c ∧ s.ledger.learn.msgs ≠ [] then some true
  else if s.get O.FLOW_CHANNEL = c ∧ s.ledger.flow.msgs ≠ [] then some false
  else none

/-- A RUNNING channel that holds a descriptor and can act on it (R326). -/
def State.canAct (s : State) (c : Nat) : Bool :=
  let x := s.chan c
  s.chSt c == Ch.running && (x.cur.isSome ||
    match x.pre with
    | [] => false
    | d :: _ =>
      d.body != [] && !(s.isChain c && (byteAt d.body 31 == 0x00 || byteAt d.body 31 == 0x0F)) && s.cplRoom c &&
      match s.chKind c with
      | 1 | 6 => x.copying.isSome || (s.hostNext c).isSome
      | 4 => (s.exportNext c).isSome
      | _ => true)

/-- Receive channels look at their queues before the choice. -/
def State.lookQueues (s : State) (c : Nat) : State :=
  if s.chSt c ≠ Ch.running ∨ (s.chan c).copying.isSome ∨ (s.chKind c ≠ 1 ∧ s.chKind c ≠ 6) then s
  else
    let s := (s.each (s.hostQueues c) fun s h => s.sweepHost c h (s.queue h)).postcardsDue
    match s.badAhead c with
    | some d => s.chHalt c 0xAA0 (s.descAddr c d) 1
    | none => s

/-- The next channel of an engine, and whether it is urgent. -/
def State.nextChannel (s : State) (e : Nat) : Option (Nat × Bool) :=
  let x := s.engine e
  let can := (List.range 16).filter fun i => s.canAct (e * 16 + i)
  let urg := can.filter fun i => s.get (O.CH_CLASS (e * 16 + i)) == 1
  let nrm := can.filter fun i => s.get (O.CH_CLASS (e * 16 + i)) != 1
  let after := fun l last => ((l.filter (last < ·)) ++ l.filter (· ≤ last)).head?
  match after urg x.lastUrg, after nrm x.lastNrm with
  | some u, some n => if 8 ≤ x.urgRun then some (n, false) else some (u, true)
  | some u, none => some (u, true)
  | none, some n => some (n, false)
  | none, none => none

/-- A channel begins its next descriptor, or goes on with the one it holds. -/
def State.beginDesc (s : State) (c : Nat) : State :=
  let x := s.chan c
  match x.cur, x.pre with
  | some _, _ => s.issueReads c 96
  | none, [] => s
  | none, d :: r =>
    let s := if (s.chKind c = 1 ∨ s.chKind c = 6) ∧ x.copying.isNone then
        match s.hostNext c with
        | some (h, p, tok) => s.takePacket c h p tok
        | none => s
      else s
    let s := s.modChan c fun x => { x with cur := some d, pre := r }
    let s := if s.chKind c = 2 ∨ s.chKind c = 7 then s.buildOpen c d else s
    (s.busyAdd (s.busyOf c d.body)).issueReads c 96

/-- One choice of an engine that is running. -/
def State.enginePick (s : State) (e : Nat) : State :=
  if s.flag (O.ENGINE_STATE e) then s
  else
    match (s.engine e).cur with
    | some c => s.beginDesc c
    | none =>
      let s := s.each ((List.range 16).map (e * 16 + ·)) State.lookQueues
      match s.nextChannel e with
      | none => s
      | some (i, u) =>
        let x := s.engine e
        let x := if u then { x with cur := some (e * 16 + i), lastUrg := i, urgRun := x.urgRun + 1 }
          else { x with cur := some (e * 16 + i), lastNrm := i, urgRun := 0 }
        (s.putEngine e x).beginDesc (e * 16 + i)

/-- The current descriptor of the engine's current channel, of one of some kinds. -/
def State.current (s : State) (c : Nat) (kinds : List Nat) : Option Desc :=
  if (s.engine (c / 16)).cur = some c ∧ kinds.contains (s.chKind c) then (s.chan c).cur else none

/-! ### Meanings: registers (R320, R332, R333, R344, R346, R349) -/

/-- A write of CH_DOORBELL (R332, R333, R347). -/
def State.chDoorbell (s : State) (c v : Nat) : State :=
  let x := s.chan c
  if s.isLegacy c then s.doorbellError c
  else if s.isChain c then
    if s.chSt c = Ch.idle then
      (s.modChan c fun x => { x with next := some ((x.chainLo + x.chainHi % 2 ^ 16 * m32) / 32 * 32), chainN := 0 }).set
        (O.CH_STATE c) Ch.running
    else s.count64 (O.CH_COUNTS c 0x13)
  else
    let size := s.get (O.CH_RING_SIZE c)
    if (v + m32 - x.producer) % m32 ≤ size ∧ (v + m32 - x.head) % m32 ≤ size then
      (s.modChan c fun x => { x with producer := v }).chRefresh c
    else s.doorbellError c

/-- A write of CH_CMPL_ACK (R332). -/
def State.chAck (s : State) (c v : Nat) : State :=
  let x := s.chan c
  if (v + m32 - x.ack) % m32 ≤ (x.head + m32 - x.ack) % m32 then s.modChan c fun x => { x with ack := v }
  else s.doorbellError c

/-- ENABLE 1 (R344): it takes effect once no read of the channel's last life is out. -/
def State.chEnableWrite (s : State) (c : Nat) : State :=
  if s.chSt c ≠ Ch.disabled then s
  else if (s.chan c).draining then s.modChan c fun x => { x with reEnable := true }
  else s.chEnable c

/-- ENABLE 0 (R344): the indices are free values from then on (log 4); a STOPPED channel stays so (R327). -/
def State.chDisable (s : State) (c : Nat) : State :=
  let st := s.chSt c
  let s := s.modChan c fun x => { x with reEnable := false, enabled := false }
  if st = Ch.disabled ∨ st = Ch.stopped then s
  else
    let s := s.chStop c 0xF2 Ch.disabled 0
    let a := s.draw 32
    let b := a.2.draw 32
    b.2.modChan c fun x => { x with producer := a.1, head := b.1, draining := (s.readsOf c) != [] }

/-- RESUME 1 (R324): only a parked channel hears it. -/
def State.chResume (s : State) (c : Nat) : State :=
  if s.chSt c = Ch.parked then (s.set (O.CH_STATE c) Ch.running).chRefresh c else s

/-- The legacy doorbell (R349). -/
def State.legacyDoorbell (s : State) (v : Nat) : State :=
  let c := bits v 14 12 * 16 + 15
  let tail := v % 2 ^ 12
  if !s.isLegacy c ∨ s.ringSize c ≤ tail then s.count64 (O.CH_COUNTS c 0x13)
  else (s.modChan c fun x => { x with tail := tail }).chRefresh c

/-- CH_DOORBELL. -/
def execChDoorbell (c : Channel) (v : BitVec 32) (s : State) : Out := live s fun s => s.chDoorbell c v.toNat

/-- CH_CMPL_ACK. -/
def execChCmplAck (c : Channel) (v : BitVec 32) (s : State) : Out := live s fun s => s.chAck c v.toNat

/-- CHANNEL_ENABLE: CH_CONTROL with ENABLE 1. -/
def execChannelEnable (c : Channel) (s : State) : Out := live s fun s => s.chEnableWrite c

/-- CHANNEL_DISABLE: CH_CONTROL with ENABLE 0, whatever RESUME says (R346). -/
def execChannelDisable (c : Channel) (s : State) : Out := live s fun s => s.chDisable c

/-- CHANNEL_RESUME: CH_CONTROL with ENABLE 1 and RESUME 1 on an enabled channel. -/
def execChannelResume (c : Channel) (s : State) : Out := live s fun s => s.chResume c

/-- CHANNEL_DRAIN_END (R344). -/
def execChannelDrainEnd (c : Channel) (s : State) : Out := live s fun s =>
  let x := s.chan c
  if !x.draining || (s.readsOf c) != [] then s
  else
    let s := s.modChan c fun x => { x with draining := false, reEnable := false }
    if x.reEnable && s.chSt c == Ch.disabled then s.chEnable c else s

/-- LEGACY_DOORBELL (R349). -/
def execLegacyDoorbell (v : BitVec 32) (s : State) : Out := live s fun s => s.legacyDoorbell v.toNat

/-! ### Meanings: engines -/

/-- DESCRIPTOR_PREFETCH (R325). -/
def execDescriptorPrefetch (c : Channel) (s : State) : Out := live s fun s => s.prefetch c

/-- ENGINE_CHANNEL_PICK (R326): an engine with a current channel issues the reads it still lacks. -/
def execEngineChannelPick (e : Engine) (s : State) : Out := live s fun s => s.enginePick e

/-- PACKET_TO_HOST_DESCRIPTOR (R337, R348). -/
def execPacketToHostDescriptor (c : Channel) (s : State) : Out := live s fun s =>
  match s.current c [1, 6] with
  | some d => (if (s.chan c).fin.isSome then s else s.receive c d).finishDesc c
  | none => s

/-- HOST_TO_PACKET_DESCRIPTOR (R338, R348): once the descriptor's data has been read. -/
def execHostToPacketDescriptor (c : Channel) (s : State) : Out := live s fun s =>
  match s.current c [2, 7] with
  | some d =>
    if (s.chan c).fin.isSome then (s.finishDesc c).postcardsDue
    else if s.dataIn c d.body then ((s.transmit c d).finishDesc c).postcardsDue
    else s.issueReads c 96
  | none => s

/-- EXPORT_DESCRIPTOR (R341): one message from byte 0 of the buffer. -/
def execExportDescriptor (c : Channel) (s : State) : Out := live s fun s =>
  match s.current c [4] with
  | none => s
  | some _ =>
    if (s.chan c).fin.isSome then s.finishDesc c
    else
      match s.exportNext c with
      | none => s
      | some learn =>
        let x := s.stream learn
        match x.msgs with
        | [] => s
        | m :: rest =>
          let e := (s.putStream learn { x with msgs := rest }).exportMsg c learn m
          let s := e.2.modChan c fun y =>
            { y with outb := e.1, fin := some ⟨leBytes 4 e.1.length ++ [nb (if learn then 2 else 1)], 0, 0⟩ }
          (s.count64 (O.CH_COUNTS c 0x11) e.1.length).finishDesc c

/-- Write 16 bytes of the table store as a copy does: region 0 of a longest-prefix table holds its records (R178, R342). -/
def State.putRaw (s : State) (u : Nat) (b : List Byte) : State :=
  let hit := (List.range 64).find? fun n =>
    let r := (s.decl n).regions.getD 0 (0, 0)
    (s.decl n).isLpm && decide (r.1 * 4 ≤ u) && decide (u < (r.1 + r.2) * 4)
  match hit with
  | none => s.putUnit u (leNat b)
  | some n =>
    let d := s.decl n
    let slot := (u - (d.regions.getD 0 (0, 0)).1 * 4) * 16 / d.recBytes
    let s := s.putUnit u (leNat b)
    let new := (d.recUnits slot).flatMap s.unitBytes
    let w := d.width / 8
    let rs := s.lookup.recs.filter fun x => !(x.table == n && x.slot == slot)
    let r : LRec := ⟨n, slot, beAt new 0 w, byteAt new w, leAt new (w + 1) 3⟩
    { s with lookup := { s.lookup with recs := if new.all (· == 0) then rs else rs ++ [r] } }

/-- A copy within the table store (R342): the code it is refused with, 0 for none, and the store after it. -/
def State.copyStore (s : State) (b : List Byte) : Nat × State :=
  let src := leAt b 0 4
  let dst := leAt b 8 4
  let n := leAt b 12 4
  if src % 16 ≠ 0 ∨ dst % 16 ≠ 0 ∨ n % 16 ≠ 0 ∨ n < 16 ∨ 16777216 < n ∨ 2 ^ 27 < src + n ∨ 2 ^ 27 < dst + n then
    (Err.range, s)
  else if (s.copyTables b).any fun t => s.tableState t != 1 then (Err.state, s)
  else
    let data := (List.range (n / 16)).map fun i => s.unitBytes (src / 16 + i)
    (0, s.each data.zipIdx fun s (v, i) => s.putRaw (dst / 16 + i) v)

/-- COPY_DESCRIPTOR (R342). -/
def execCopyDescriptor (c : Channel) (s : State) : Out := live s fun s =>
  match s.current c [5] with
  | none => s
  | some d =>
    if (s.chan c).fin.isSome then s.finishDesc c
    else
      let r := s.copyStore d.body
      let n := if r.1 = 0 then leAt d.body 12 4 else 0
      let s := r.2.modChan c fun x => { x with fin := some ⟨leBytes 4 n, r.1, b01 (r.1 != 0)⟩ }
      (s.count64 (O.CH_COUNTS c 0x11) n).finishDesc c

/-- The chain descriptor of type `ty` a channel has come to. -/
def State.chainHead (s : State) (c ty : Nat) : Bool :=
  let x := s.chan c
  s.chSt c == Ch.running && s.isChain c && x.cur.isNone &&
    match x.pre with
    | d :: _ => d.body != [] && byteAt d.body 31 == ty
    | [] => false

/-- LINK_DESCRIPTOR (R333): the fetch already goes on at its address. -/
def execLinkDescriptor (c : Channel) (s : State) : Out := live s fun s =>
  if s.chainHead c 0x0F then (s.modChan c fun x => { x with pre := x.pre.tail }).settleBad c else s

/-- END_DESCRIPTOR (R333). -/
def execEndDescriptor (c : Channel) (s : State) : Out := live s fun s =>
  if s.chainHead c 0x00 then (s.modChan c fun x => { x with pre := x.pre.tail, next := none }).set (O.CH_STATE c) Ch.idle
  else s

/-- The read of a tag returns; a channel that has stopped since drops its data (R344), and so does one that has gone on past
the descriptor that asked for it. -/
def State.readDone (s : State) (r : ReadReq) (data : List Byte) : State :=
  let c := r.ch
  let b := (padTo r.len data).take r.len
  let st := s.chSt c
  if st ≠ Ch.idle ∧ st ≠ Ch.running ∧ st ≠ Ch.parked then s
  else
    match r.why with
    | .prefetch => s.prefetchDone c r.at_ b
    | .data off => s.modChan c fun x => { x with got := x.got ++ [(off, b)] }
    | .gone => s
    | .last =>
      let s := s.modChan c fun x => { x with last := 2 }
      if st = Ch.parked then s else s.finishDesc c

/-- Take a read out of the pool. -/
def State.freeRead (s : State) (tag : Nat) : State :=
  { s with host := { s.host with
      reads := s.host.reads.filter (·.tag != tag), fence := s.host.fence.filter (· != tag) } }

/-- PCIE_READ_COMPLETION (R325). -/
def execPcieReadCompletion (tag : Fin 768) (data : List Byte) (s : State) : Out := live s fun s =>
  match s.host.reads.find? (·.tag == tag.val) with
  | some r => (s.freeRead tag).readDone r data
  | none => s

/-- BUS_ERROR (R343): a read of an engine fails, and every channel of it stops. With completion timeouts disabled in
configuration space none occurs (R318). -/
def execBusError (tag : Fin 768) (kind : BusErr) (s : State) : Out := live s fun s =>
  match (if kind = .timeout ∧ s.host.noTimeout = true then none else s.host.reads.find? (·.tag == tag.val)) with
  | none => s
  | some r =>
    let s := s.freeRead tag
    let e := r.ch / 16
    let k := match kind with | .unsupported => 1 | .abort => 2 | .timeout => 3 | .poisoned => 4
    if s.flag (O.ENGINE_STATE e) then s
    else (s.report (0xAE0 + e) (unitId 14 e) (detailD r.ch r.map k)).engineStop e k r.map r.bus (r.ch % 16)

/-- NOTIFY_TIMEOUT (R335). -/
def execNotifyTimeout (c : Channel) (s : State) : Out := live s fun s =>
  if (s.chan c).timing && (s.chan c).notify != 0 then s.notifyNow c else s

/-- ENGINE_RESTART as a command of the dictionary (R344): an error code, and the state. -/
def State.engineRestart (s : State) (e : Nat) : Nat × State :=
  if s.flag (O.ENGINE_STATE e) then (Err.ok, s.cmdRun (O.ENGINE_RESTART e)) else (Err.state, s)

/-- ENGINE_RESTART_DONE (R344). -/
def execEngineRestartDone (e : Engine) (s : State) : Out := live s fun s =>
  if !s.cmdRunning (O.ENGINE_RESTART e) || s.host.reads.any (·.ch / 16 == e.val) then s
  else
    let s := s.each ((List.range 16).map (e.val * 16 + ·)) fun s c =>
      (s.modChan c fun x => { x with enabled := false, reEnable := false, draining := false }).set (O.CH_STATE c) Ch.disabled
    (s.set (O.ENGINE_STATE e) 0).cmdDone (O.ENGINE_RESTART e)

/-- PM_FENCE as a command of the dictionary (R323): it waits for the reads that are out. -/
def State.pmFence (s : State) : State :=
  State.cmdRun { s with host := { s.host with fence := s.host.reads.map fun (r : ReadReq) => r.tag } } O.PM_FENCE

/-- PM_FENCE_DONE (R323). -/
def execPmFenceDone (s : State) : Out := live s fun s =>
  if s.cmdRunning O.PM_FENCE && s.host.fence == [] then s.cmdDone O.PM_FENCE else s

/-! ### Commit and write hooks (R322, R323, R328, R336, R350) -/

/-- A commit unbound host queue `h`: its waiting packets are discarded (R336). -/
def State.unbound (s : State) (h : Nat) : State :=
  if s.get (O.HOSTQ_CHANNEL h) = 0xFFFF then (s.each (s.queue h) fun s e => s.discardHolder e.1 e.2 h 0xF6).postcardsDue else s

/-- A page map row that R322 refuses. -/
def State.mapRowBad (s : State) (row v : Nat) : Bool :=
  let page := if row < s.get O.PM_SPLIT_2M then 2 ^ 12 else if row < s.get O.PM_SPLIT_1G then 2 ^ 21 else 2 ^ 30
  bits v 11 3 != 0 || v / 2 ^ 12 * 2 ^ 12 % page != 0

/-- Every native channel is DISABLED (R323). -/
def State.nativeIdle (s : State) : Bool :=
  (s.dict.objs.filter fun e => e.1.ref.idx == 0xA100 && e.1.ref.sub == 14).all fun e => s.isLegacy e.1.ref.inst || e.2 == 0

/-- The part of a reset of the host attachment that the DMA takes (R345): holders 0xF4, registers at their reset values,
every page map row invalid. -/
def State.dmaReset (s : State) : State :=
  let s := s.each (List.range 512) fun s c =>
    if s.chSt c = Ch.disabled then s.putChan c ChanX.reset
    else (s.chStop c 0xF4 Ch.disabled 0).putChan c ChanX.reset
  let s := s.each (List.range 32) fun s e =>
    let s := if s.cmdRunning (O.ENGINE_RESTART e) then s.cmdDone (O.ENGINE_RESTART e) else s
    (s.set (O.ENGINE_STATE e) 0).putEngine e EngineX.reset
  let s := if s.cmdRunning O.PM_FENCE then s.cmdDone O.PM_FENCE else s
  State.count32 { s with
    dict := { s.dict with objs := s.dict.objs.filter fun e => e.1.ref != O.HOST_PAGE_MAP },
    host := { s.host with reads := [], fence := [] } } O.PCIE_RESETS

end Sys2Proof.Machine
end

