-- ==== Sys2Proof/Machine/Service.lean ====
section
/-!
DEFINITION. Sys2Proof/Machine/Service.lean: tile service (R397-R401), escalation (R377-R379), temperature (R425), adaptive
voltage (R387), the two-wire and MDIO masters (R420-R423), and the fault commands.
-/
namespace Sys2Proof.Machine

/-! ### Tile service (R397-R401) -/

/-- Group 0xD0 + k of tile `t`. -/
def tileGroup (t : Nat) : Nat := 0xD0 + t / 2

/-- The commit under way that ends the reload of tile `t` (R400). -/
def State.reloadCommit (s : State) (t : Nat) : Option Commit :=
  if s.getS (O.TILE_FULL t) = 1 ∧ s.get (O.TILE_FULL t) = 0 then
    s.dict.commits.find? fun c => c.groups.contains (tileGroup t) && c.phase != .retiring
  else none

/-- A tile picks its boundary and enters ENTERING (R398); the cause goes to LAST_DOWN_CAUSE. -/
def State.enterPale (s : State) (t cause : Nat) : State :=
  (s.set (O.TILE_SERVICE t) 1).modTile t fun x => { x with cause := cause, queued := false }

/-- TILE_RELOAD (R398): an error code, and the state. The command is done once the boundary is chosen. -/
def State.tileReload (s : State) (t : Nat) : Nat × State :=
  if s.get (O.TILE_SERVICE t) ≠ 2 then (Err.state, s)
  else (Err.ok, ((s.enterPale t 7).count64 (O.TILE_COUNTS t 5)).cmdDone (O.TILE_RELOAD t))

/-- Note an escalation with a commit that is VALIDATING (R399 rule 4, R401). -/
def State.notePaled (s : State) (c : Commit) (t : Nat) : State :=
  { s with dict := { s.dict with
      commits := s.dict.commits.map fun d => if d.id = c.id then { d with paled := insNat t d.paled } else d } }

/-- The escalation of a tile to Pale service (R379, R401). A commit that names the tile's group and is VALIDATING notes it,
whatever it does to the tile (R399 rule 4). -/
def State.escalateTile (s : State) (t : Nat) : State :=
  let s := s.count64 (O.TILE_COUNTS t 6)
  let reload := s.reloadCommit t
  let s := s.each (s.dict.commits.filter fun c => c.groups.contains (tileGroup t) && c.phase == .validating)
    fun s c => s.notePaled c t
  match reload with
  | some c => if c.phase = .validating then s else s.modTile t fun x => { x with queued := true }
  | none => if s.get (O.TILE_SERVICE t) = 2 then s.enterPale t 8 else s

/-- The mode-5 lanes of a tile that run, or train to run, at 425 Gb/s. -/
def State.g4Lanes (s : State) (t : Nat) : List Nat :=
  ((List.range 16).map (t * 16 + ·)).filter fun l =>
    s.get (O.LANE_MODE l) == 5 &&
    ((decide (Stage.lock ≤ s.stage l) && s.get (O.RATE_ACTIVE l) == 5) ||
     (s.stage l == Stage.train && s.get (O.TRAIN_PHASE l) == 1))

/-- No packet dispatched before the boundary is left in the cores and the match stages, which a packet leaves at its enqueue
(R157, R398). -/
def State.tileDrained (s : State) (t : Nat) : Bool :=
  !s.buf.pkts.any fun p => p.tile == t && !p.pale &&
    (p.phase == .parsing || p.phase == .reorder || (p.phase == .matched && (match p.src with | .port _ => true | _ => false)))

/-- The tile is PALE (R398): its gates open, its 425 Gb/s lanes train again without G4 and their ports are down. -/
def State.becomePale (s : State) (t : Nat) : State :=
  let cause := (s.tile t).cause
  let s := (s.set (O.TILE_SERVICE t) 0).set (O.TILE_FULL t) 0
  let s := s.each (s.tilePorts t) fun s p =>
    ((s.putGate p GateX.reset).modPort p fun x => { x with tailHeld := false }).showGates p
  let ls := s.g4Lanes t
  let ps := (s.tilePorts t).filter fun p => (s.portLanes p).any ls.contains
  let s := s.each ps fun s p => s.portDown p cause
  s.laneRetrain ls true

/-- A tile is FULL from its flip (R397, R400): G4 is offered again and its lanes retrain to it (R75, R103), its gate
lists start (R251). -/
def State.leavePale (s : State) (t : Nat) : State :=
  let s := (s.set (O.TILE_SERVICE t) 2).count64 (O.TILE_COUNTS t 7)
  let lanes := (List.range 16).map (t * 16 + ·)
  let s := s.each (s.tilePorts t) fun s p => s.modPort p fun x => { x with split := false }
  let s := s.each lanes fun s l => s.modLane l fun x => { x with g4Held := false }
  s.laneRetrain (lanes.filter fun l => s.get (O.LANE_MODE l) == 5 && s.get (O.RATE_ACTIVE l) == 4 &&
    (s.lane l).partnerG4 && decide (Stage.lock ≤ s.stage l)) false

/-- What waits for the end of a flip: gate lists of the tile's ports, and an escalation (R251, R401). -/
def State.afterFull (s : State) (t : Nat) : State :=
  let s := s.each ((s.tilePorts t).filter fun p => s.flag (O.GATE_ENABLE p)) State.gateCommit
  if (s.tile t).queued then s.enterPale t 8 else s

/-- TILE_PALE (R398). While a commit that ends a reload of the tile flips, its flip completes first (R401). -/
def execTilePale (t : Tile) (s : State) : Out := live s fun s =>
  if s.get (O.TILE_SERVICE t) = 1 ∧ s.tileDrained t = true ∧ (s.reloadCommit t).isNone = true then s.becomePale t else s

/-! ### Escalation (R377-R381) -/

/-- A tile whose active plan names a table that `f` picks. -/
def State.planUses (s : State) (t : Nat) (f : Nat → Bool) : Bool :=
  (planOf fun i => s.get (O.PLAN t) i).any fun x => f x.table

/-- A table lies, in part, in partition `x`. -/
def State.tableInPart (s : State) (n x : Nat) : Bool :=
  (s.decl n).spans.any fun sp => decide (sp.1 / 131072 ≤ x) && decide (x ≤ (sp.1 + sp.2 - 1) / 131072)

/-- The lanes of a lane domain: a bank, a reference group, a lane, a port (R372). -/
def State.unitLanes (s : State) (kind i : Nat) : List Nat :=
  match kind with
  | 7 => (List.range 64).map (i * 64 + ·)
  | 8 => (List.range 16).map (i * 16 + ·)
  | 9 => [i]
  | 10 => s.portLanes i
  | _ => []

/-- The action of R379 on a unit. A unit that is already in the state the action leads to is left alone (R378). -/
def State.domainAction (s : State) (u : Nat) : State :=
  let kind := u / 2 ^ 24
  let i := u % 2 ^ 24
  match kind with
  | 3 => if s.get (O.BUF_BANK_STATE i) = BankSt.inService then s.bankIsolate i else s
  | 7 | 8 | 9 | 10 =>
    let ls := s.unitLanes kind i
    s.each (s.allPorts.filter fun p => (s.portLanes p).any ls.contains) fun s p => (s.set (O.ADMIN_UP p) 0).portDown p 8
  | 2 => s.escalateTile i
  | 4 => s.each ((List.range 32).filter fun t => s.planUses t fun n => s.tableInPart n i) State.escalateTile
  | 20 => s.each ((List.range 32).filter fun t => s.planUses t fun n => n == i) State.escalateTile
  | 14 => if s.flag (O.ENGINE_STATE i) then s else s.engineStop i 0 0 0 0xFF
  | 15 => if s.flag (O.ENGINE_STATE (i / 16)) then s else s.engineStop (i / 16) 0 0 0 (i % 16)
  | _ => s

/-- REACTION_TIMEOUT (R377, R379). -/
def execReactionTimeout (n : Source) (s : State) : Out := live s fun s =>
  if s.get (O.FAULT_STATE n) ≠ FState.severe then s
  else if s.get (O.SRC_CLASS n) = 1 ∧ s.flag (O.ESCALATE n) = true then
    let u := s.get (O.SEVERE_UNIT n)
    let kind := u / 2 ^ 24
    let s := (s.set (O.FAULT_STATE n) FState.escalated).count64 (O.FAULT_COUNTS n 13)
    let s := if s.get (O.DOMAIN_ACTION kind) = 1 then (s.domainAction u).count64 (O.DOMAIN_ESCALATIONS kind) else s
    s.raise n
  else s.set (O.FAULT_STATE n) FState.handled

/-- FAULT_ACK (R377): an error code, and the state. -/
def State.faultAck (s : State) (n : Nat) : Nat × State :=
  if s.get (O.FAULT_STATE n) ≠ FState.severe then (Err.state, s)
  else (Err.ok, ((s.set (O.FAULT_STATE n) FState.handled).count64 (O.FAULT_COUNTS n 12)).cmdDone (O.FAULT_ACK n))

/-! ### Temperature and voltage (R387, R425) -/

/-- TEMP_SAMPLE (R425): the sensor's reading in 1/16 °C, two's complement. -/
def execTempSample (n : Sensor) (sixteenths : BitVec 32) (s : State) : Out := live s fun s =>
  let v := toSigned 32 sixteenths.toNat
  let s := s.set (O.TEMP n) sixteenths.toNat
  let s := if s.geti (O.TEMP_PEAK n) < v then s.set (O.TEMP_PEAK n) sixteenths.toNat else s
  let d := detailS (leBytes 2 n ++ leBytes 4 (ofSigned 32 (v / 16)))
  let s := if 16 * s.geti (O.TEMP_WARN n) < v then s.report (0xC00 + n) (unitId 0 0) d else s
  let s := if 16 * 105 < v then s.report 0xC40 (unitId 0 0) d else s
  if 16 * 120 ≤ v then { s with sys := { s.sys with thermtrip := true } } else s

/-- A setpoint within the range of R387, mV. -/
def avsClamp (mv : Nat) : Nat := max 650 (min 750 mv)

/-- ARRAY_INIT_DONE (R387, R394): the dictionary answers; the adaptive voltage code is read from the fuses. The rails'
readings are the world's: free values (log 4). -/
def execArrayInitDone (fusedMv : BitVec 16) (s : State) : Out := live s fun s =>
  if s.sys.initDone then s
  else
    let v := avsClamp fusedMv.toNat
    let s : State := { s with sys := { s.sys with initDone := true, avsTarget := v } }
    let r := s.drawMany 16 7
    let s := (r.2.set O.AVS_SETPOINT_MV v).setAll O.RAIL_MV r.1
    if !s.sys.perst && !bit (s.get O.STRAPS) 3 then { s with host := { s.host with training := true } } else s

/-- AVS_STEP (R387): the last request was confirmed; the next moves at most 5 mV towards the setpoint, which the on-die
monitors move. -/
def execAvsStep (targetMv : BitVec 16) (s : State) : Out := live s fun s =>
  if !s.sys.initDone then s
  else
    let t := avsClamp targetMv.toNat
    let from_ := s.sys.avsAsked
    let next := if from_ < t then min t (from_ + 5) else max t (from_ - 5)
    let s : State := { s with sys := { s.sys with avsTarget := t, avsOk := from_, avsAsked := next, avsOut := true } }
    (s.set O.AVS_SETPOINT_MV t).emit (.avs next)

/-- AVS_TIMEOUT (R387): the request is not confirmed, be it for the value confirmed last; that value stays. -/
def execAvsTimeout (s : State) : Out := live s fun s =>
  if !s.sys.avsOut then s
  else
    let asked := s.sys.avsAsked
    State.report { s with sys := { s.sys with avsAsked := s.sys.avsOk, avsOut := false } } 0xC44 (unitId 1 0) (detailS (leBytes 2 asked))

/-! ### Two-wire and MDIO masters (R420-R423) -/

/-- Keep the data of a command that runs on a master. -/
def State.putBus (s : State) (k : Nat) (d : List Byte) : State :=
  { s with sys := { s.sys with busOps := putN [] k d s.sys.busOps } }

/-- TW_XFER (R420, R421): an error code, and the state; reserved bits of its data are ignored (R12). -/
def State.twXfer (s : State) (i : Nat) (d : List Byte) : Nat × State :=
  let d := nb (byteAt d 0 % 128) :: nb (byteAt d 1) :: nb (byteAt d 2) :: nb (byteAt d 3 % 2) :: d.drop 4
  if i = 15 then (Err.state, s) else (Err.ok, ((s.cmdRun (O.TW_XFER i)).putBus i d).emit (.twoWire i d))

/-- TW_XFER_DONE (R420): cause 0 is success; `recovered` that SDA was low and the bus was cleared first, as it was tried
to no avail where the cause is 4. -/
def execTwXferDone (i : Fin 16) (cause : Fin 6) (recovered : Bool) (written : Byte) (data : List Byte) (s : State) : Out :=
  live s fun s =>
    if !s.cmdRunning (O.TW_XFER i) then s
    else
      let d := look [] s.sys.busOps i.val
      let s := s.putBus i []
      let s := if recovered || cause.val == 4 then s.count64 (O.TW_COUNTS i) 1 1 else s
      if cause.val = 0 then
        s.cmdDone (O.TW_XFER i) ([0, nb (byteAt d 1)] ++ (padTo (byteAt d 2) data).take (byteAt d 2))
      else
        (s.count64 (O.TW_COUNTS i)).setCmd (O.TW_XFER i) 3 Err.state [nb cause.val, nb (min (bn written) (byteAt d 1))]

/-- The data of MDIO_XFER lies in its range (R422). -/
def mdioOk (d : List Byte) : Bool :=
  (byteAt d 0 == 22 || byteAt d 0 == 45) && byteAt d 1 ≤ 31 && byteAt d 2 ≤ 31 && byteAt d 3 ≤ 3 &&
    (byteAt d 0 == 45 || byteAt d 3 ≤ 1)

/-- MDIO_XFER (R422) on data in range. -/
def State.mdioXfer (s : State) (j : Nat) (d : List Byte) : State :=
  (((s.cmdRun (O.MDIO_XFER j)).putBus (16 + j) d).count64 (O.MDIO_COUNTS j)).emit
    (.mdio j (byteAt d 0 == 45) (byteAt d 1) (byteAt d 2) (byteAt d 3) (leAt d 4 2))

/-- MDIO_XFER_DONE (R422): the value a port answered a read with, if one did. -/
def execMdioXferDone (j : Fin 4) (answer : Option (BitVec 16)) (s : State) : Out := live s fun s =>
  if !s.cmdRunning (O.MDIO_XFER j) then s
  else
    let op := byteAt (look [] s.sys.busOps (16 + j.val)) 3
    let s := s.putBus (16 + j.val) []
    if op = 1 ∨ op = 2 then s.cmdDone (O.MDIO_XFER j) [0, 0]
    else
      match answer with
      | some v => s.cmdDone (O.MDIO_XFER j) (leBytes 2 v.toNat)
      | none => (s.count64 (O.MDIO_COUNTS j) 1 1).cmdDone (O.MDIO_XFER j) [0xFF, 0xFF]

end Sys2Proof.Machine
end

