-- ==== Sys2Proof/Machine/Check.lean ====
section
/-!
DEFINITION. Sys2Proof/Machine/Check.lean: the consistency rules of the commit groups (R46): what a COMMIT checks against the
values that will be active after it.
-/
namespace Sys2Proof.Machine

/-- An element as it will be after a commit of groups `gs` (R46). -/
def State.after (s : State) (gs : List Nat) (r : Ref) (e : Nat := 0) : Nat :=
  match groupOf r with
  | some g => if gs.contains g then s.getS r e else s.get r e
  | none => s.get r e

/-- An element of an object that a commit of `gs` changes. -/
def State.changes (s : State) (gs : List Nat) (r : Ref) (e : Nat := 0) : Bool := s.after gs r e != s.get r e

/-- The width of port `p` after a commit of `gs`; 0 where no port starts there. -/
def State.widthAfter (s : State) (gs : List Nat) (p : Nat) : Nat :=
  let n := s.after gs (O.PORT_MAP (p / 16)) (p % 16)
  if p < 512 ∧ (n = 1 ∨ n = 2 ∨ n = 4 ∨ n = 8) then n else 0

/-- The ports of tile `t` after a commit. -/
def State.portsAfter (s : State) (gs : List Nat) (t : Nat) : List Nat :=
  ((List.range 16).map (t * 16 + ·)).filter fun p => s.widthAfter gs p != 0

/-- A queue of R230 that will exist after a commit. -/
def State.queueAfter (s : State) (gs : List Nat) (q : Nat) : Bool :=
  if q < 8192 then s.widthAfter gs (q / 16) != 0 else decide (q < 8384)

/-- Instances of an object that are stored or staged. -/
def State.touched (s : State) (idx sub : Nat) : List Nat :=
  ((s.dict.objs ++ s.dict.shadow).filter fun e => e.1.ref.idx == idx && e.1.ref.sub == sub).foldl
    (fun l e => insNat e.1.ref.inst l) []

/-! ### Management (R69) -/

/-- An address, prefix and gateway of `w` bits (R69). -/
def addrOk (w most addr pre gw : Nat) : Bool :=
  let host := 2 ^ (w - pre)
  let inside := addr == 0 || (decide (1 ≤ pre) && decide (pre ≤ most) && addr % host != 0 && addr % host != host - 1)
  inside && (gw == 0 || (addr != 0 && gw / host == addr / host && gw != addr))

/-- Groups 0x10 and 0x11. -/
def State.ruleMgmt (s : State) (gs : List Nat) (m : Nat) : Bool :=
  let v6 := fun (r : Ref) => beNat ((List.range 16).map fun e => nb (s.after gs r e))
  addrOk 32 30 (s.after gs (O.IPV4_ADDR m)) (s.after gs (O.IPV4_PREFIX m)) (s.after gs (O.IPV4_GATEWAY m)) &&
  addrOk 128 127 (v6 (O.IPV6_ADDR m)) (s.after gs (O.IPV6_PREFIX m)) (v6 (O.IPV6_GATEWAY m))

/-! ### Lanes and ports (R83, R99, R100, R111) -/

/-- Group 0x20 + b (R83). -/
def State.ruleLanes (s : State) (gs : List Nat) (b : Nat) : Bool :=
  ((List.range 64).map (b * 64 + ·)).all fun l =>
    (s.after gs (O.LANE_MODE l) != 5 || s.after gs (O.TRAIN_ENABLE l) == 1) && firOk (s.after gs (O.TX_FIR_INIT l))

/-- Rule 1 of R100: a tile's map. -/
def State.mapOk (s : State) (gs : List Nat) (t : Nat) : Bool :=
  let b := fun i => s.after gs (O.PORT_MAP t) i
  (List.range 16).all fun i =>
    b i == 0 || ([1, 2, 4, 8].contains (b i) && i % b i == 0 && (List.range (b i - 1)).all fun d => b (i + 1 + d) == 0)

/-- The flow-control rules of R111. -/
def State.flowOk (s : State) (gs : List Nat) (p : Nat) : Bool :=
  let n := popcount (s.after gs (O.PFC_PRIORITIES p)) 8
  let lo := s.after gs (O.PFC_QUEUES_LO p)
  let hi := s.after gs (O.PFC_QUEUES_HI p)
  s.after gs (O.FLOW_CTRL p) != 2 ||
  ((n == 1 || n == 2) && lo != 0 && ((hi != 0) == (n == 2)) && !((List.range 16).any fun q => bit lo q && bit hi q))

/-- Rules 2 to 5 of R100 for a port. -/
def State.portOk (s : State) (gs : List Nat) (p : Nat) : Bool :=
  let n := s.widthAfter gs p
  let mode := s.after gs (O.LANE_MODE p)
  let train := s.after gs (O.TRAIN_ENABLE p)
  let sub10 := s.after gs (O.SUBRATE_10G p) == 1
  let fec := s.after gs (O.FEC_MODE p)
  mode != 0 &&
  ((List.range n).all fun d => s.after gs (O.LANE_MODE (p + d)) == mode && s.after gs (O.TRAIN_ENABLE (p + d)) == train) &&
  speedOf mode n sub10 != 0 && (!sub10 || (mode == 1 && n == 1 && train == 0)) &&
  (fec == 7 || (fecAllowed mode n sub10).contains fec) && s.flowOk gs p

/-- Group 0x30 + b (R100). -/
def State.rulePorts (s : State) (gs : List Nat) (b : Nat) : Bool :=
  ((List.range 4).map (b * 4 + ·)).all fun t =>
    let ps := s.portsAfter gs t
    let covered := ps.flatMap fun p => (List.range (s.widthAfter gs p)).map (p + ·)
    s.mapOk gs t && (ps.all fun p => s.portOk gs p) &&
    (((List.range 16).map (t * 16 + ·)).all fun l => covered.contains l || s.after gs (O.LANE_MODE l) == 0)

/-! ### Parsing and lookup (R153-R161) -/

/-- A commit ends the reload of tile `t` (R400). -/
def State.endsReload (s : State) (gs : List Nat) (t : Nat) : Bool :=
  s.after gs (O.TILE_FULL t) == 1 && s.get (O.TILE_FULL t) == 0

/-- R153 for a tile. -/
def State.parseOk (s : State) (gs : List Nat) (t : Nat) : Bool :=
  let n := s.after gs (O.PROGRAM_LENGTH t)
  (n == 0 || decide (s.after gs (O.ENTRY_POINT t) < n)) && (!s.changes gs (O.PROGRAM_LENGTH t) || s.endsReload gs t)

/-- The declaration of a table after a commit. -/
def State.declAfter (s : State) (gs : List Nat) (n : Nat) : Decl := declOf (fun r e => s.after gs r e) n

/-- The accesses of one step in each partition (R161): the partitions, one entry per access. -/
def accesses (x : PlanStep) (d : Decl) (action : Option Decl) : List Nat :=
  let parts := fun (sp : Nat × Nat) =>
    if sp.2 = 0 then [] else (List.range 16).filter fun k => sp.1 / 131072 ≤ k && k ≤ (sp.1 + sp.2 - 1) / 131072
  let own :=
    if d.kind = 1 then d.spans.flatMap parts ++ d.spans.flatMap parts
    else if d.isLpm then ((d.regions.drop 1).take d.cum.length).flatMap parts
    else d.spans.flatMap parts
  let more := match action with
    | some a => if (d.kind = 1 ∨ d.isLpm = true) ∧ d.indirect = true then a.spans.flatMap parts else []
    | none => []
  if x.table = 0xFF then [] else own ++ more

/-- Rules 1 to 3 of R156 and R155 for a step. -/
def stepOk (x : PlanStep) (d : Decl) : Bool :=
  let fits := match x.role with
    | 0 => d.kind == 1 || d.kind == 2 || d.isLpm
    | 1 | 2 => d.kind == 1
    | 3 => d.kind == 2
    | _ => false
  let key := if d.kind = 1 then x.aLen + x.bLen == d.keyBytes
    else if d.kind = 2 then decide (1 ≤ x.aLen) && decide (x.aLen ≤ 3) && x.bLen == 0
    else x.aLen == d.width / 8 && x.bLen == 0
  decide (x.table < 64) && fits && key && decide (x.miss ≤ 3) && decide (x.a + x.aLen ≤ 64) && decide (x.b + x.bLen ≤ 64)

/-- R156 for a tile. -/
def State.planOk (s : State) (gs : List Nat) (t : Nat) : Bool :=
  let steps := (planOf fun i => s.after gs (O.PLAN t) i).filter (·.table != 0xFF)
  let action := (actionTable fun n => s.after gs (O.TABLE_KIND n)).map (s.declAfter gs)
  let acc := steps.flatMap fun x => accesses x (s.declAfter gs x.table) action
  let m := if s.after gs (O.TILE_PROFILE t) = 1 then 4 else 2
  let moved := ((List.range 64).any fun i => s.changes gs (O.PLAN t) i) ||
    ((List.range 40).any fun i => s.changes gs (O.MAM_KEY_SELECT t) i)
  (steps.all fun x => stepOk x (s.declAfter gs x.table)) &&
  ([1, 2, 3].all fun r => decide ((steps.filter (·.role == r)).length ≤ 1)) &&
  ((List.range 16).all fun k => decide ((acc.filter (· == k)).length * m ≤ 8)) && (!moved || s.endsReload gs t)

/-- An AGE_TICK code in µs (R189). -/
def ageTickUs (code : Nat) : Nat := [0, 1000, 10000, 100000, 1000000].getD code 0

/-- The aging bound of R191: no entry wraps to look young. -/
def ageOk (size tick limit rate : Nat) : Bool :=
  tick == 0 || decide (size ≤ (65536 - limit) * ageTickUs tick * rate)

/-- Rules 3 of R159 for one declaration. -/
def Decl.ok (d : Decl) : Bool :=
  let fits := d.spans.all fun sp => decide (sp.1 + sp.2 ≤ 2097152)
  match d.kind with
  | 1 => (List.range 22).any (fun i => 6 ≤ i && 2 ^ i == d.size) && d.base % max d.size 1 == 0 && fits
  | 2 => decide (1 ≤ d.size) && decide (d.size ≤ 16777216) && decide (d.keyBytes ≤ 3) && fits
  | 5 => decide (1 ≤ d.size) && decide (d.size ≤ 4194304) && fits
  | _ => fits

/-- No two spans of a list share a bucket. -/
def spansApart : List (Nat × Nat) → Bool
  | [] => true
  | a :: r => (r.all fun b => decide (a.1 + a.2 ≤ b.1) || decide (b.1 + b.2 ≤ a.1)) && spansApart r

/-- Group 0x58 (R159). -/
def State.ruleTables (s : State) (gs : List Nat) : Bool :=
  let ds := (List.range 64).map (s.declAfter gs)
  spansApart (ds.flatMap Decl.spans) && decide ((ds.filter (·.kind == 5)).length ≤ 1) && ds.all Decl.ok &&
  ((List.range 64).all fun n => s.declAfter gs n == s.decl n || s.tableState n != 2) &&
  ((List.range 64).all fun n => s.after gs (O.TABLE_KIND n) != 1 ||
    ageOk (s.after gs (O.TABLE_SIZE n)) (s.get (O.AGE_TICK n)) (s.get (O.AGE_LIMIT n)) (s.get (O.SCAN_RATE n)))

/-! ### Buffer (R220) -/

/-- The carve-out sum after a commit: the left side of rule 1 of R220. Queues and ports that will not exist hold
nothing. -/
def State.carvedAfter (s : State) (gs : List Nat) : Nat :=
  let v := fun r => s.after gs r
  sumL ((List.range 32).map fun t => v (O.ARRIVAL_CELLS t)) + v O.HOST_ARRIVAL_CELLS +
  sumL (((s.touched 0x6020 2).filter (s.queueAfter gs)).map fun q => v (O.QUEUE_RESERVE q)) +
  sumL ((List.range 8).map fun x => v (O.POOL_CAP x)) +
  sumL (((s.touched 0x6030 1).filter fun p => s.widthAfter gs p != 0).map fun p => v (O.HEADROOM_LO p)) +
  sumL (((s.touched 0x6030 2).filter fun p => s.widthAfter gs p != 0).map fun p => v (O.HEADROOM_HI p))

/-- Group 0x60 (R220). -/
def State.ruleBuffer (s : State) (gs : List Nat) : Bool :=
  let v := fun r => s.after gs r
  let ports := ((List.range 32).flatMap (s.portsAfter gs))
  decide (s.carvedAfter gs + 8192 * v O.BANK_SPARE ≤ 1572864) &&
  (((s.touched 0x6020 3).filter (s.queueAfter gs)).all fun q =>
    let m := v (O.QUEUE_MAX q)
    m == 0 || (decide (64 ≤ m) && decide (v (O.QUEUE_RESERVE q) ≤ m))) &&
  (ports.all fun p =>
    let fc := v (O.FLOW_CTRL p)
    let n := popcount (v (O.PFC_PRIORITIES p)) 8
    (v (O.HEADROOM_LO p) == 0 || fc == 1 || (fc == 2 && decide (1 ≤ n))) &&
    (v (O.HEADROOM_HI p) == 0 || (fc == 2 && n == 2)) &&
    decide (v (O.XON_OFFSET p) < v (O.XOFF_LO p)) && decide (v (O.XON_OFFSET p) < v (O.XOFF_HI p)))

/-! ### Scheduling (R258) -/

/-- Rule 1 of R258 for a port, with the profile after the commit. -/
def State.gateLengthOk (s : State) (gs : List Nat) (p : Nat) : Bool :=
  let n := s.after gs (O.GATE_LENGTH p)
  let most := if s.after gs (O.TILE_PROFILE (p / 16)) = 1 then 64 else 256
  s.after gs (O.GATE_ENABLE p) == 0 || (decide (1 ≤ n) && decide (n ≤ most))

/-- A gate list row within R245. -/
def gateRowOk (r : Nat) : Bool :=
  let iv := r % 2 ^ 32
  decide (32 ≤ iv) && decide (iv ≤ 1000000000) && bits r 50 49 != 3 && bits r 63 51 == 0

/-- Rules of group 0x70 + b for a port. -/
def State.schedOk (s : State) (gs : List Nat) (p : Nat) : Bool :=
  let v := fun r => s.after gs r
  let cyc := v (O.GATE_CYCLE_NS p)
  let img := if v (O.GATE_IMAGE p) = 0 then O.GATE_LIST_0 p else O.GATE_LIST_1 p
  let strict := fun q => if v (O.STRICT_QUEUES p) = 1 then q == 15 else v (O.STRICT_QUEUES p) == 2 && decide (14 ≤ q)
  s.gateLengthOk gs p &&
  (v (O.GATE_ENABLE p) == 0 || (decide (256 ≤ cyc) && decide (cyc ≤ 1000000000) &&
    (List.range (v (O.GATE_LENGTH p))).all fun i => gateRowOk (s.get img i))) &&
  ((s.gate p).next.isNone || !([2, 3, 4, 5, 6].any fun k => s.changes gs ⟨0x7100, p, k⟩)) &&
  ((List.range 16).all fun q =>
    v (O.LAUNCH_MODE (p * 16 + q)) == 0 || (!bit (v (O.PREEMPT_QUEUES p)) q && !strict q))

/-- Group 0x70 + b. -/
def State.ruleSched (s : State) (gs : List Nat) (b : Nat) : Bool :=
  (((List.range 4).map (b * 4 + ·)).flatMap (s.portsAfter gs)).all (s.schedOk gs)

/-- Group 0x78: policer profiles. -/
def State.rulePolicers (s : State) (gs : List Nat) : Bool :=
  (s.touched 0x7200 1).all fun x =>
    let m := s.after gs (O.POLICER_MODE x)
    let cir := s.after gs (O.CIR x)
    m == 0 || (cir != 0 && (m == 1 || decide (cir ≤ s.after gs (O.PIR x))))

/-! ### The other groups (R313, R336, R353, R399) -/

/-- Group 0x91: mirror sessions (R313). -/
def State.ruleMirrors (s : State) (gs : List Nat) : Bool :=
  (List.range 64).all fun m =>
    let p := s.after gs (O.MIRROR_PORT m)
    let n := s.after gs (O.MIRROR_TRUNCATE m)
    let o := s.after gs (O.MIRROR_IP_OFFSET m)
    (p == 0xFFFF || s.widthAfter gs p != 0) && (n == 0 || (decide (60 ≤ n) && decide (n ≤ 16379))) &&
    (o == 0xFF || decide (o + 20 ≤ s.after gs (O.MIRROR_HEADER_LEN m)))

/-- Group 0xA0: host queue binding (R336). -/
def State.ruleHostQueues (s : State) (gs : List Nat) : Bool :=
  let bound := (((List.range 128).map (8192 + ·)).map fun h => s.after gs (O.HOSTQ_CHANNEL h)).filter (· != 0xFFFF)
  bound.all fun c =>
    let n := (bound.filter (· == c)).length
    (s.chKind c == 1 && decide (n ≤ 16)) || (s.chKind c == 6 && decide (n ≤ 1))

/-- Group 0xB0 + k: interrupt sources (R353). -/
def State.ruleSources (s : State) (gs : List Nat) (k : Nat) : Bool :=
  ((s.touched 0xB100 2 ++ s.touched 0xB100 3).filter fun n => n / 256 == k).all fun n =>
    let f := s.after gs (O.SRC_FALLBACK n)
    f == 0xFF || f != s.after gs (O.SRC_TARGET n)

/-- R399 for a tile; `paled` holds the tiles that escalation has met meanwhile. The profile changes at the commit that
ends the tile's reload alone (R400). -/
def State.serviceOk (s : State) (gs paled : List Nat) (t : Nat) : Bool :=
  let full := s.after gs (O.TILE_FULL t) == 1
  let moved := s.changes gs (O.TILE_PROFILE t) || s.changes gs (O.TILE_FULL t)
  (!moved || s.get (O.TILE_SERVICE t) == 0) &&
  (!s.changes gs (O.TILE_PROFILE t) || s.endsReload gs t) && (full || s.get (O.TILE_FULL t) == 0) &&
  (!full || (s.after gs (O.PROGRAM_LENGTH t) != 0 && s.parseOk gs t && s.planOk gs t)) &&
  ((s.portsAfter gs t).all (s.gateLengthOk gs)) && !paled.contains t

/-- The consistency rules of one group named by a commit of `gs`. -/
def State.ruleOk (s : State) (gs paled : List Nat) (g : Nat) : Bool :=
  let k := g % 16
  match g / 16 with
  | 0x1 => decide (2 ≤ k) || s.ruleMgmt gs k
  | 0x2 => s.ruleLanes gs k && (gs.contains (0x30 + k) || s.rulePorts gs k)
  | 0x3 => s.rulePorts gs k
  | 0x4 => ([2 * k, 2 * k + 1].all fun t => s.parseOk gs t)
  | 0x5 => if k = 8 then s.ruleTables gs else ((List.range 4).map (4 * k + ·)).all (s.planOk gs)
  | 0x6 => s.ruleBuffer gs
  | 0x7 => if k < 8 then s.ruleSched gs k else if k = 8 then s.rulePolicers gs else true
  | 0x9 => k != 1 || s.ruleMirrors gs
  | 0xA => s.ruleHostQueues gs
  | 0xB => s.ruleSources gs k
  | 0xD => ([2 * k, 2 * k + 1].all fun t => s.serviceOk gs paled t)
  | _ => true

/-- The first group, in rising order, whose rules a commit breaks (R46). -/
def State.firstBad (s : State) (gs paled : List Nat) : Option Nat := gs.find? fun g => !s.ruleOk gs paled g

end Sys2Proof.Machine
end

