-- ==== Sys2Proof/Machine/Firm.lean ====
section
/-!
DEFINITION. Sys2Proof/Machine/Firm.lean: the serial flash, firmware images and the firmware commands of the dictionary
(R390, R391, R402-R404, R406, R430).
-/
namespace Sys2Proof.Machine

/-! ### Byte regions kept sparse -/

/-- `n` bytes from address `a` of a rising list of cells; an unlisted byte is 0. -/
def readRegion : Nat → Nat → List (Nat × Nat) → List Byte
  | 0, _, _ => []
  | n + 1, a, m =>
    match m.dropWhile fun e => e.1 < a with
    | [] => zeros (n + 1)
    | (k, v) :: r => if k = a then nb v :: readRegion n (a + 1) r else 0 :: readRegion n (a + 1) ((k, v) :: r)

/-- Write bytes from address `a`: the list keeps its canonical form. -/
def writeRegion (a : Nat) (d : List Byte) (m : List (Nat × Nat)) : List (Nat × Nat) :=
  (m.filter fun e => e.1 < a) ++ ((d.zipIdx.map fun (b, i) => (a + i, bn b)).filter fun e => e.2 != 0) ++
  m.filter fun e => a + d.length ≤ e.1

def State.flashRead (s : State) (a n : Nat) : List Byte := readRegion n a s.sys.flash
def State.flashWrite (s : State) (a : Nat) (d : List Byte) : State :=
  { s with sys := { s.sys with flash := writeRegion a d s.sys.flash } }

/-- Where a firmware slot and a startup image lie (R390). -/
def slotAt (k : Nat) : Nat := k * 0x800000
def imageAt (k : Nat) : Nat := 0x1010000 + k * 0x400000
def pointerAt : Nat := 0x1810000

/-! ### Firmware images (R390, R391) -/

/-- A header that makes its slot a candidate (R391): magic, key index, security version. -/
def State.candidate (s : State) (h : List Byte) : Bool :=
  leAt h 0 4 == 0x51A7E4F1 && decide (byteAt h 10 ≤ 3) && !Config.keyRevoked (byteAt h 10) &&
  decide (s.get O.FW_SVN_FUSED ≤ leAt h 8 2)

/-- Bytes of a body; 0 where the header's length is outside its range. -/
def bodyLen (h : List Byte) : Nat := if 64 ≤ leAt h 12 4 ∧ leAt h 12 4 ≤ 8388352 then leAt h 12 4 else 0

/-- Signature and digest pass (R391). -/
def imageSound (h body : List Byte) : Bool :=
  bodyLen h != 0 && Config.signatureOk (byteAt h 10) (h.take 64) (slice h 64 96) && sha384 body == slice h 16 48

/-- An image as it is kept: where it came from, its versions, header and body. -/
def mkImage (slot : Nat) (h body : List Byte) : Image := ⟨slot, leAt h 4 4, leAt h 8 2, h ++ body⟩

/-- A region that holds an image that passes every check (R391). -/
def State.checkImage (s : State) (slot : Nat) (a : Nat) (m : List (Nat × Nat)) : Option Image :=
  let h := readRegion 256 a m
  if !s.candidate h then none
  else
    let b := readRegion (bodyLen h) (a + 256) m
    if imageSound h b then some (mkImage slot h b) else none

/-! ### Startup images (R393) -/

/-- The records of a startup image whose header and CRC are right, and their count. -/
def startupRecords (a : Nat) (m : List (Nat × Nat)) : Option (Nat × List Byte) :=
  let h := readRegion 16 a m
  let n := leAt h 8 4
  if leAt h 0 2 ≠ 0x5D1A ∨ leAt h 2 2 ≠ 1 ∨ 0x400000 - 16 < n then none
  else
    let r := readRegion n (a + 16) m
    if crc32 r = leAt h 12 4 then some (leAt h 4 4, r) else none

/-- The active startup image by the pointer; `none` of a pointer whose CRC fails. -/
def State.startupActive (s : State) : Option Nat :=
  let p := s.flashRead pointerAt 5
  if crc32 (p.take 1) = leAt p 1 4 ∧ byteAt p 0 ≤ 1 then some (byteAt p 0) else none

/-- The bytes of a pointer. -/
def pointerBytes (k : Nat) : List Byte := nb k :: leBytes 4 (crc32 [nb k])

/-! ### Commands (R402-R404, R406) -/

/-- FW_VERIFY: an error code, and the state. While the cores boot or change images it is refused. -/
def State.fwVerify (s : State) : Nat × State :=
  if s.sys.fw ≠ .running ∧ s.sys.fw ≠ .noImage then (Err.state, s)
  else
    match s.checkImage 2 0 s.sys.upload with
    | none => (Err.state, s.cmdFail O.FW_VERIFY Err.state)
    | some i =>
      let s : State := { s with sys := { s.sys with waiting := some i } }
      (Err.ok, (s.set O.FW_STATE 1).cmdDone O.FW_VERIFY)

/-- FW_ACTIVATE: the running firmware stops; without one the image simply starts (R392, R402). -/
def State.fwActivate (s : State) : Nat × State :=
  if s.get O.FW_STATE ≠ 1 then (Err.state, s)
  else
    let s : State := { s with sys := { s.sys with
      previous := s.sys.image, fw := .switching, slateDown := [],
      pauseAt := if s.sys.slateDown = [] then s.now else s.sys.pauseAt } }
    (Err.ok, (s.set O.FW_STATE 2).cmdRun O.FW_ACTIVATE)

/-- The verified image a store writes: the one that waits, or the uploaded one that runs. -/
def State.storable (s : State) : Option Image :=
  match s.sys.waiting with
  | some i => some i
  | none => s.sys.image.filter (·.slot == 2)

/-- FW_STORE: data U8, [0] slot, [7] raises the fused security version. -/
def State.fwStore (s : State) (d : List Byte) : Nat × State :=
  match s.storable with
  | none => (Err.state, s)
  | some i =>
    let s : State := { s with sys := { s.sys with
      storing := byteAt d 0 % 2, storeImg := some i, storeSvn := bit (byteAt d 0) 7 } }
    (Err.ok, s.cmdRun O.FW_STORE)

/-- STARTUP_STORE: the uploaded image's CRC is checked first. -/
def State.startupStore (s : State) : Nat × State :=
  match startupRecords 0 s.sys.startUp with
  | none => (Err.state, s.cmdFail O.STARTUP_STORE Err.state)
  | some _ =>
    let s : State := { s with sys := { s.sys with storeStart := some s.sys.startUp } }
    (Err.ok, s.cmdRun O.STARTUP_STORE)

/-- FW_STORE_DONE (R402). -/
def execFwStoreDone (s : State) : Out := live s fun s =>
  if !s.cmdRunning O.FW_STORE then s
  else
    match s.sys.storeImg with
    | none => s
    | some i =>
      let s := s.flashWrite (slotAt s.sys.storing) i.bytes
      let s := if s.sys.storeSvn then s.set O.FW_SVN_FUSED (max (s.get O.FW_SVN_FUSED) i.svn) else s
      let s : State := { s with sys := { s.sys with storing := 2, storeImg := none, storeSvn := false } }
      s.cmdDone O.FW_STORE

/-- STARTUP_STORE_DONE (R406): the inactive region, then the pointer. -/
def execStartupStoreDone (s : State) : Out := live s fun s =>
  match s.sys.storeStart with
  | none => s
  | some m =>
    if !s.cmdRunning O.STARTUP_STORE then s
    else
      let k := match s.startupActive with
        | some a => 1 - a
        | none => 0
      let s := s.flashWrite (imageAt k) (readRegion 0x400000 0 m)
      let s := s.flashWrite pointerAt (pointerBytes k)
      let s : State := { s with sys := { s.sys with storeStart := none } }
      s.cmdDone O.STARTUP_STORE

end Sys2Proof.Machine
end

