-- ==== Sys2Proof/Machine/View.lean ====
section
/-!
DEFINITION. Sys2Proof/Machine/View.lean: what a read of an object returns (R29, R37, R38, R40, R42): the stored elements, and
the objects that show another part of the state.
-/
namespace Sys2Proof.Machine

/-! ### Objects that show other state -/

/-- The timers of sessions and leases run: the firmware is not being replaced or restarted (R403, R404). -/
def State.timersRun (s : State) : Bool := !(s.sys.fw == .switching || s.sys.slateDown != [])

/-- The instant that leases and session timers count from: they stand still while the firmware is replaced (R403). -/
def State.timerNow (s : State) : Nat :=
  if s.timersRun then s.now else s.sys.pauseAt

/-- Whole seconds from now to a deadline, rounded up. -/
def State.secondsTo (s : State) (deadline : Nat) : Nat := (deadline - s.timerNow + 1249999999) / 1250000000

/-- An open session. -/
def State.session? (s : State) (k : Nat) : Option Sess := (s.dict.sessions.find? (·.1 == k)).map (·.2)

/-- The deadline of a lease on an area. -/
def State.lease? (s : State) (a : Nat) : Option Nat := (s.dict.leases.find? (·.1 == a)).map (·.2)

/-- PORT_STATE (R104, R105). -/
def State.portState (s : State) (p : Nat) : Nat :=
  if (s.port p).up || (s.port p).holding then 2
  else if !s.flag (O.ADMIN_UP p) then 0
  else if (s.portLanes p).any fun l => s.stage l != Stage.active then 1
  else if (s.port p).fault.contains 1 then 3
  else if (s.port p).fault.contains 2 then 4
  else 1

/-- PROGRAM_CRC (R139). -/
def State.programCrc (s : State) (t : Nat) : Nat :=
  crc32 ((s.getAll (O.PROGRAM t) 16384).flatMap (leBytes 4))

/-- An I32 that saturates, as stored. -/
def i32Sat (v : Int) : Nat := ofSigned 32 (max (-2147483648) (min 2147483647 v))

/-- SRC_STATE (R383). -/
def State.srcState (s : State) (n : Nat) : Nat :=
  match (s.isrc n).st with
  | .idle => 0
  | .pending => if (s.isrc n).redir then 2 else 1
  | .inService => 3

/-- TARGET_STATE. -/
def State.targetState (s : State) (t : Nat) : Nat :=
  if (s.itgt t).fault then 2 else if s.undeliverable t then 1 else 0

/-- The value of element `e` of an object as a READ shows it. -/
def State.view (s : State) (r : Ref) (e : Nat) : Nat :=
  let n := r.inst
  match r.idx, r.sub with
  | 0x1020, 4 => match s.session? n with
    | some x => s.secondsTo x.deadline
    | none => 0
  | 0x1040, 2 => match s.lease? n with
    | some d => s.secondsTo d
    | none => 0
  | 0x1050, 3 => s.oldPackets n
  | 0x3001, 1 => s.portState n
  | 0x4001, 2 => s.programCrc n
  | 0x5003, 1 => s.tableState n
  | 0x5003, 5 => s.entries n
  | 0x5200, 5 => s.lookup.cache.length
  | 0x6000, 5 => s.cellsFree
  | 0x6002, 2 => s.bankFree n
  | 0x7101, _ => s.get r e % 2 ^ 51
  | 0x7002, 2 => i32Sat ((s.tokens n) / 65536)
  | 0x8000, 1 => s.tb n
  | 0x8000, 9 => i32Sat (Int.tdiv (s.base n).slew (5 * 2 ^ 48))
  | 0x8001, 1 => s.dc
  | 0xA000, 5 => s.host.reads.length
  | 0xB001, 1 => s.maskWord n
  | 0xB001, 2 => s.pendingWord n
  | 0xB100, 5 => s.srcState n
  | 0xB100, 6 =>
    if e = 5 then b01 ((s.isrc n).st == .pending) + 256 * b01 ((s.isrc n).st == .inService) else s.get r e
  | 0xB200, 3 => s.targetState n
  | 0xB200, 4 => (s.running n).getD 0xFF
  | 0xB200, 5 => (((s.itgt n).stack.map (·.1)).getD e 0xFFFF)
  | 0xC000, 5 => s.faults.held.length
  | 0xD300, 2 => if n = 15 then 1 else s.get r e
  | 0xE050, _ => bn (Config.diagByte 0 0xE050 n e)
  | _, _ => if r.idx / 4096 = 0xE ∧ r.idx ≠ 0xE000 ∧ 0 < s.sys.diagRuns then bn (Config.diagByte (s.now + 1) r.idx n e) else s.get r e

/-- The staged value of an element, else what a READ shows (R42). -/
def State.viewS (s : State) (r : Ref) (e : Nat) : Nat := (s.staged? ⟨r, e⟩).getD (s.view r e)

/-! ### Extents and bytes (R38) -/

/-- Bytes of a BLOB, or of a TABLE with its row size; TABLE_DATA follows its table's declaration (R160). -/
def State.extent (s : State) (o : ObjRow) (n : Nat) : Nat × Nat :=
  if o.idx = 0x5003 ∧ o.subLo = 2 then
    let d := (s.decl n).dataRows
    (d.1 * d.2, d.2)
  else if o.ty = .table then (o.size * o.el, o.el)
  else (o.size, 1)

/-- A BLOB or TABLE access within the object, in whole rows (R38); `most` is what the path carries. An access longer than
that is refused with ERR_OFFSET too: DESIGN CHOICE, log 82. -/
def State.extentOk (s : State) (o : ObjRow) (n most off len : Nat) : Bool :=
  let x := s.extent o n
  decide (len ≤ most) && decide (off + len ≤ x.1) && off % x.2 == 0 && len % x.2 == 0

/-- `len` bytes at an offset of an object whose elements `g` gives, each `el` bytes wide. -/
def bytesAt (g : Nat → Nat) (el off len : Nat) : List Byte :=
  let lo := off / el
  let hi := (off + len + el - 1) / el
  slice ((List.range (hi - lo)).flatMap fun i => leBytes el (g (lo + i))) (off - lo * el) len

/-- The bytes of BLOB or TABLE bytes as elements: an element only partly covered keeps its other bytes. Pairs of element
number and value. -/
def elements (g : Nat → Nat) (el off : Nat) (d : List Byte) : List (Nat × Nat) :=
  let lo := off / el
  let hi := (off + d.length + el - 1) / el
  (List.range (hi - lo)).map fun i =>
    let at_ := (lo + i) * el
    let old := leBytes el (g (lo + i))
    let b := if at_ < off then patch old (off - at_) d else patch old 0 (slice d (at_ - off) el)
    (lo + i, leNat b)

/-- The bytes a READ (or READ_STAGED) of a value returns. -/
def State.valueBytes (s : State) (o : ObjRow) (r : Ref) (staged : Bool) (off len : Nat) : List Byte :=
  let g := fun e => if staged then s.viewS r e else s.view r e
  match o.ty with
    | .blob | .table => bytesAt g o.el off len
    | .string => (List.range 8).map fun e => nb (g e)
    | _ => leBytes o.size (g 0)

/-- A row of an array with ECC is read by software (R140, R149, R323): true where it cannot be corrected; `access` says by
which way (R376). -/
def State.eccRow (s : State) (r : Ref) (row access : Nat) : Bool × State :=
  let n := r.inst
  match r.idx with
  | 0x4001 => s.readWord (0x220 + n) (0x240 + n) (unitId 2 n) (unitId 2 n) row access
  | 0x4200 => s.readWord (0x260 + n) (0x280 + n) (unitId 2 n) (unitId 2 n) ((r.sub - 1) * 4096 + row) access
  | 0x6100 => s.storeCheck (2 ^ 24 + row) access
  | 0x6101 => s.storeCheck (2 ^ 25 + row) access
  | 0xA010 => s.readWord 0xB08 0xB09 (unitId 13 0) (unitId 13 0) row access
  | _ => (false, s)

/-- Words read through their ECC: `read` answers whether a word cannot be corrected, and then its `n` bytes are free values
(log 92); else `bytes` gives them. -/
def State.readWords (s : State) (n : Nat) (read : State → Nat → Bool × State) (bytes : State → Nat → List Byte) :
    List Nat → List Byte × State
  | [] => ([], s)
  | u :: rest =>
    let r := read s u
    let d := r.2.draw (8 * n)
    let b := if r.1 then leBytes n d.1 else bytes s u
    let y := (if r.1 then d.2 else r.2).readWords n read bytes rest
    (b ++ y.1, y.2)

/-- The bytes a READ of a value returns, and what reading them meets in the arrays (R193). -/
def State.readValue (s : State) (o : ObjRow) (r : Ref) (staged : Bool) (off len : Nat) (access : Nat := 1) :
    List Byte × State :=
  if o.idx = 0x5003 ∧ o.subLo = 2 then
    s.readWords 16 (fun s u => let x := s.readUnit r.inst u access; (!x.1, x.2)) (fun s u => s.unitBytes u) (s.dataUnits r.inst off len)
  else if o.ty = .table then
    s.readWords o.el (fun s i => s.eccRow r i access) (fun s i => leBytes o.el (s.view r i))
      ((List.range (len / o.el)).map (off / o.el + ·))
  else (s.valueBytes o r staged off len, s)

/-- A READ of an RC object clears it: to 0, but TEMP_PEAK starts again from the present reading (R14, R40, R425). -/
def State.readClear (s : State) (o : ObjRow) (r : Ref) : State :=
  if o.acc ≠ .rc then s
  else if o.idx = 0xD200 then s.set r (s.get (O.TEMP r.inst))
  else s.set r 0

/-- The type and access codes of R37 and R40. -/
def typeCode : OType → Nat
  | .u8 => 1 | .u16 => 2 | .u32 => 3 | .u64 => 4 | .i32 => 5 | .bool => 6 | .enum => 7 | .bits32 => 8 | .time96 => 9
  | .string => 10 | .blob => 11 | .table => 12 | .cmd => 13
def accessCode : Access → Nat
  | .ro => 0 | .rw => 1 | .rws => 2 | .wo => 3 | .rc => 4 | .w1c => 5 | .cmd => 6

/-- The answer to a DESCRIBE. Its fields, like LEASE's, are little-endian on every path, a Bolsy frame too: DESIGN CHOICE,
log 83. -/
def State.describe (s : State) (o : ObjRow) (n : Nat) : List Byte :=
  let x := s.extent o n
  let size := match o.ty with
    | .table => x.1 / x.2
    | .string => 8
    | _ => o.size
  [nb (typeCode o.ty), nb (accessCode o.acc), nb ((grpOf o.grp n).getD 0xFF), 0] ++ leBytes 4 size ++
  leBytes 2 (if o.ty = .table then x.2 else 0) ++ [0, 0]

end Sys2Proof.Machine
end

