-- ==== Sys2Proof/Machine/Groups.lean ====
section
/-!
DEFINITION. Sys2Proof/Machine/Groups.lean: leases and the end of sessions (R59, R62-R65), and the commit groups: staging,
DISCARD, COMMIT, validation, the epoch flip, and what each block does at the instant its groups enter RETIRING
(R41-R46, R429).
-/
namespace Sys2Proof.Machine

/-! ### Holders (R51, R63, R64) -/

/-- The lease holder a path acts as; the firmware of its own accord is under no lease. -/
def holderOf : Path → Option Nat
  | .window _ => some 8
  | .bolsy s => some s
  | .startup => some 9
  | .slate => none

/-- A lease on an area held by another holder. -/
def State.leasedAway (s : State) (p : Path) (area : Nat) : Bool :=
  match holderOf p with
  | none => false
  | some h => (s.lease? area).isSome && s.get (O.LEASE_HOLDER area) != h

/-! ### Shadows (R42, R43) -/

/-- Group states (R43). -/
def gClean : Nat := 0
def gDirty : Nat := 1
def gValidating : Nat := 2
def gFlipping : Nat := 3
def gRetiring : Nat := 4

def State.groupSt (s : State) (g : Nat) : Nat := s.get (O.GROUP_STATE g)

/-- A group that refuses staged writes and DISCARD now. -/
def State.groupBusy (s : State) (g : Nat) : Bool := s.groupSt g == gValidating || s.groupSt g == gFlipping

/-- Stage an element's value; the group becomes DIRTY, or holds a new shadow while RETIRING (R43). -/
def State.stageEl (s : State) (k : OKey) (v : Nat) : State :=
  { s with dict := { s.dict with shadow := ins ltKey k v s.dict.shadow } }

def State.groupStaged (s : State) (g : Nat) : State :=
  if s.groupSt g = gRetiring then s.set (O.GROUP_SHADOW_DIRTY g) 1 else s.set (O.GROUP_STATE g) gDirty

/-- Empty the shadow of a group. -/
def State.emptyShadow (s : State) (g : Nat) : State :=
  { s with dict := { s.dict with shadow := s.dict.shadow.filter fun e => groupOf e.1.ref != some g } }

/-- A DIRTY group is discarded; OBJ_STAGE_DISCARDED (R43). -/
def State.discardGroup (s : State) (g : Nat) : State := ((s.emptyShadow g).set (O.GROUP_STATE g) gClean).raise 0xBA4

/-! ### The end of leases and sessions (R59, R65) -/

/-- What the end of a lease does to one group of its area (R65). -/
def State.leaseGroup (s : State) (g : Nat) : State :=
  let st := s.groupSt g
  if st = gDirty then s.discardGroup g
  else if st = gRetiring then
    if s.hasShadow g = true then ((s.emptyShadow g).set (O.GROUP_SHADOW_DIRTY g) 0).raise 0xBA4 else s
  else if st = gClean then s
  else
    let cs := s.dict.commits.map fun (c : Commit) =>
      if c.groups.contains g ∧ c.phase ≠ .retiring then { c with toDrop := insNat g c.toDrop } else c
    { s with dict := { s.dict with commits := cs } }

/-- A lease ends: BOLSY_LEASE_ENDED, and the groups of its area (R65). -/
def State.leaseEnd (s : State) (a : Nat) : State :=
  if (s.lease? a).isNone then s
  else
    let s : State := { s with dict := { s.dict with leases := s.dict.leases.filter (·.1 != a) } }
    let s := (s.set (O.LEASE_HOLDER a) 0xFF).raise 0xBC3
    s.each (((List.range 16).map (a * 16 + ·)).filter isGroup) State.leaseGroup

/-- Every lease of a holder ends (R51, R59). -/
def State.holderEnd (s : State) (h : Nat) : State :=
  s.each ((s.dict.leases.map (·.1)).filter fun a => s.get (O.LEASE_HOLDER a) == h) State.leaseEnd

/-- A session ends, and its leases with it (R59): BOLSY_SESSION_CLOSED. -/
def State.sessionEnd (s : State) (k : Nat) : State :=
  if (s.session? k).isNone then s
  else
    let s : State := { s with dict := { s.dict with sessions := s.dict.sessions.filter (·.1 != k) } }
    let s := ((s.set (O.SESSION_STATE k) 0).set (O.SESSION_MANAGER k) 0xFF).set (O.SESSION_HIGHEST k) 0
    (s.raise 0xBC2).holderEnd k

/-- LEASE (R62): an error code, the data, the state; the lease is looked at before the length and the seconds (R34). Its
U16 fields are little-endian on every path (log 83). -/
def State.leaseOp (s : State) (p : Path) (d : List Byte) : Nat × List Byte × State :=
  let a := byteAt d 0
  let secs := leAt d 2 2
  if 1 ≤ a ∧ a ≤ 13 ∧ s.leasedAway p a = true then (Err.leased, [], s)
  else if d.length ≠ 4 then (Err.type, [], s)
  else if a = 0 ∨ 13 < a ∨ secs = 0 ∨ 600 < secs then (Err.range, [], s)
  else
    match holderOf p with
    | none => (Err.range, [], s)
    | some h =>
      if h = 9 then (Err.range, [], s)
      else
        let n := min secs (s.get O.LEASE_MAX)
        let s : State := { s with dict := { s.dict with leases := ins ltN a (s.timerNow + ticksOfS n) s.dict.leases } }
        (Err.ok, leBytes 2 n, s.set (O.LEASE_HOLDER a) h)

/-- RELEASE (R62). The firmware's own path is no holder: its RELEASE is answered OK and has no effect, whoever holds the
lease: DESIGN CHOICE, log 27. -/
def State.releaseOp (s : State) (p : Path) (d : List Byte) : Nat × State :=
  let a := byteAt d 0
  if 1 ≤ a ∧ a ≤ 13 ∧ s.leasedAway p a = true then (Err.leased, s)
  else if d.length ≠ 1 then (Err.type, s)
  else if a = 0 ∨ 13 < a then (Err.range, s)
  else if holderOf p = none then (Err.ok, s)
  else (Err.ok, s.leaseEnd a)

/-! ### DISCARD and COMMIT (R43, R46) -/

/-- DISCARD: an error code, and the state. -/
def State.discardOp (s : State) (p : Path) (d : List Byte) : Nat × State :=
  let g := byteAt d 0
  if d.length ≠ 1 then (Err.type, s)
  else if !isGroup g then (Err.range, s)
  else if s.leasedAway p (g / 16) then (Err.leased, s)
  else if s.groupBusy g then (Err.commitBusy, s)
  else if s.groupSt g = gDirty then (Err.ok, s.discardGroup g)
  else if s.groupSt g = gRetiring then (Err.ok, (s.emptyShadow g).set (O.GROUP_SHADOW_DIRTY g) 0)
  else (Err.ok, s)

/-- The groups a bitmap names, rising. -/
def namedIn (d : List Byte) : List Nat := (List.range 256).filter fun g => bit (byteAt d (g / 8)) (g % 8)

/-- Note the code of a refused COMMIT in every group it named. -/
def State.lastError (s : State) (gs : List Nat) (err : Nat) : State :=
  s.each (gs.filter isGroup) fun s g => s.set (O.GROUP_LAST_ERROR g) err

/-- COMMIT (R46): an error code, or `none` where its groups begin VALIDATING and the answer comes later. -/
def State.commitOp (s : State) (p : Path) (d : List Byte) (direct : Bool) : Option Nat × State :=
  let gs := namedIn d
  if d.length ≠ 32 then (some Err.type, s)
  else if gs.any (!isGroup ·) then (some Err.range, s.lastError gs Err.range)
  else if gs.any fun g => s.leasedAway p (g / 16) then (some Err.leased, s.lastError gs Err.leased)
  else if gs.any fun g => s.groupBusy g || s.groupSt g == gRetiring then (some Err.commitBusy, s.lastError gs Err.commitBusy)
  else
    let dirty := gs.filter fun g => s.groupSt g == gDirty
    if dirty = [] then (some Err.ok, s)
    else
      let c : Commit := ⟨s.dict.nextId, gs, dirty, .validating, [], [], p, [], [], direct⟩
      let s : State := { s with dict := { s.dict with commits := s.dict.commits ++ [c], nextId := s.dict.nextId + 1 } }
      (none, s.each dirty fun s g => s.set (O.GROUP_STATE g) gValidating)

/-- Replace a commit under way. -/
def State.putCommit (s : State) (c : Commit) : State :=
  { s with dict := { s.dict with commits := s.dict.commits.map fun d => if d.id = c.id then c else d } }
def State.dropCommit (s : State) (c : Commit) : State :=
  { s with dict := { s.dict with commits := s.dict.commits.filter fun d => d.id != c.id } }

/-! ### The instant groups enter RETIRING (R44) -/

/-- A changed element: its key and the value it had. -/
abbrev Change := OKey × Nat

/-- The instances of an object index that changed, of the sub-indices that `f` picks, rising. -/
def changedAt (cs : List Change) (idx : Nat) (f : Nat → Bool) : List Nat :=
  (cs.filter fun c => c.1.ref.idx == idx && f c.1.ref.sub).foldl (fun l c => insNat c.1.ref.inst l) []

/-- The value an element had before. -/
def wasAt (cs : List Change) (r : Ref) (now : Nat) : Nat :=
  match cs.find? fun c => c.1 == ⟨r, 0⟩ with
  | some c => c.2
  | none => now

/-- Lane objects (R71, R83, R86, R88). -/
def State.flipLanes (s : State) (cs : List Change) : State :=
  let again := (changedAt cs 0x2110 (· == 2)).foldl (fun l n => insNat n l) (changedAt cs 0x2100 fun _ => true)
  let s := s.each again State.laneReconf
  let s := s.each (changedAt cs 0x2110 fun k => k == 2 || k == 3) fun s l =>
    if s.get (O.TX_FIR_MODE l) = 1 then s.set (O.TX_FIR l) (s.get (O.TX_FIR_INIT l)) else s
  let s := s.each (changedAt cs 0x2120 (· == 2)) State.reclamp
  s.each (changedAt cs 0x2000 (· == 2)) State.refSelect

/-- Port objects (R101-R103, R111, R115): `old` gives the ports and widths of the map before. -/
def State.flipPorts (s : State) (cs : List Change) (old : List (Nat × Nat)) : State :=
  let mode := changedAt cs 0x2100 (· == 1)
  let fec := changedAt cs 0x3002 (· == 2)
  let sub := changedAt cs 0x3002 (· == 3)
  let hit := old.filter fun o =>
    s.portWidth o.1 != o.2 || fec.contains o.1 || sub.contains o.1 ||
    (List.range o.2).any fun d => mode.contains (o.1 + d)
  let s := s.each (hit.map (·.1)) State.portReconf
  let fresh := s.allPorts.filter fun p => !(old.map (·.1)).contains p
  let s := s.each fresh State.offerG4
  let s := s.each (sub.filter s.isPort) State.subrateChanged
  let s := s.each ((changedAt cs 0x3040 fun k => k == 1 || k == 4).filter s.isPort) State.preemptChanged
  let flow := (changedAt cs 0x6030 fun k => 3 ≤ k && k ≤ 5).foldl (fun l n => insNat n l) (changedAt cs 0x3030 fun k => k ≤ 4)
  s.each (flow.filter s.isPort) State.flowChanged

/-- A declaration that now describes other contents: no prefix records, an empty overflow list. -/
def State.tableFresh (s : State) (n : Nat) : State :=
  let look_ : Lookup := { s.lookup with
    recs := s.lookup.recs.filter (·.table != n), scanAt := s.lookup.scanAt.filter (·.1 != n) }
  let objs := s.dict.objs.filter fun e => e.1.ref != O.OVERFLOW_LIST n
  let spans := if (s.decl n).isLpm then (s.decl n).spans else []
  let kept := s.lookup.store.filter fun e => !spans.any fun p => p.1 * 4 ≤ e.1 && e.1 < (p.1 + p.2) * 4
  let look_ := { look_ with store := kept }
  { s with lookup := look_, dict := { s.dict with objs := objs } }

/-- Scheduling objects (R241, R251). A tile in Pale service starts no list; one whose reload ends starts them all. -/
def State.flipSched (s : State) (cs : List Change) (full : List Nat) : State :=
  let s := s.each (changedAt cs 0x7001 fun k => k == 2 || k == 3) fun s g =>
    s.shaperCommit g (wasAt cs (O.SHAPE_RATE g) (s.get (O.SHAPE_RATE g))) (wasAt cs (O.SHAPE_BURST g) (s.get (O.SHAPE_BURST g)))
  let ports := (changedAt cs 0x7100 fun _ => true).filter fun p =>
    s.isPort p && !full.contains (p / 16) && (s.gatesAct p || !s.flag (O.GATE_ENABLE p))
  s.each ports State.gateCommit

/-- What the other blocks do at the flip (R59, R159, R226, R306, R336, R363): `cs` are the elements that changed with their
old values, `ws` all that the commit wrote. -/
def State.flipRest (s : State) (gs : List Nat) (cs ws : List Change) : State :=
  let tabs := (changedAt cs 0x5001 fun _ => true).foldl (fun l n => insNat n l) (changedAt cs 0x5000 fun k => k ≤ 4)
  let s := s.each tabs State.tableFresh
  let s := if gs.any fun g => g == 0x60 || g / 16 == 3 then s.recarve else s
  let s := if (changedAt cs 0x9050 (· == 7)) != [] then s.ipfixNewTemplate else s
  let s := s.each (changedAt cs 0xA400 fun _ => true) State.unbound
  let s := s.each (changedAt ws 0xB100 (· == 2)) State.retargeted
  let off := (changedAt cs 0x1011 (· == 1)).filter fun i => !s.flag (O.MANAGER_ENABLE i)
  s.each ((s.dict.sessions.map (·.1)).filter fun k => off.contains (s.get (O.SESSION_MANAGER k))) State.sessionEnd

/-- The port whose existence an element of area 3 or 6 depends on (R101, R220). -/
def portOfKey (k : OKey) : Option Nat :=
  let r := k.ref
  if r.idx / 4096 = 3 ∧ r.idx ≠ 0x3000 then some r.inst
  else if r.idx = 0x6030 then some r.inst
  else if r.idx = 0x6020 ∧ r.inst < 8192 then some (r.inst / 16)
  else none

/-- An element's instance exists after a commit of `gs`. -/
def State.livesAfter (s : State) (gs : List Nat) (k : OKey) : Bool :=
  match portOfKey k with
  | some p => s.widthAfter gs p != 0
  | none => true

/-- The groups of a commit enter RETIRING (R43, R44): the shadow becomes active, every block takes the new values, and
groups that no tile uses leave RETIRING at once (R429). GROUP_EPOCH stops at its largest value (R14). -/
def State.enterRetiring (s : State) (c : Commit) : State :=
  let mine := s.dict.shadow.filter fun e => match groupOf e.1.ref with
    | some g => c.groups.contains g && s.livesAfter c.groups e.1
    | none => false
  let cs : List Change := (mine.map fun e => (e.1, s.getK e.1)).filter fun x => s.staged? x.1 != some x.2
  let ports := s.allPorts.map fun p => (p, s.portWidth p)
  let full := (List.range 32).filter fun t => c.groups.contains (tileGroup t) && s.getS (O.TILE_FULL t) == 1 &&
    s.get (O.TILE_FULL t) == 0
  let s := s.each mine fun s e => s.setK e.1 e.2
  let s := s.each c.groups fun s g =>
    ((s.emptyShadow g).set (O.GROUP_STATE g) gRetiring).set (O.GROUP_EPOCH g) (min (s.get (O.GROUP_EPOCH g) + 1) (2 ^ 32 - 1))
  let s := s.putCommit { c with phase := .retiring, old := cs, groups := c.groups.filter tileUsed }
  let s := ((s.flipPorts cs ports).flipLanes cs).flipSched cs full
  let s := (s.flipRest c.groups cs mine).each full State.afterFull
  let s := s.each (c.groups.filter fun g => !tileUsed g) State.groupRetired
  s.retire

/-- The answer a COMMIT gets, with its commit. -/
abbrev Answer := Commit × Nat × List Byte

/-- VALIDATING ends (R43, R46, R65): the answer, where there is one yet. -/
def State.validated (s : State) (c : Commit) : Option Answer × State :=
  match s.firstBad c.named c.paled with
  | some g =>
    let s := (s.dropCommit c).lastError c.named Err.inconsistent
    let s := s.each c.groups fun s g => if c.toDrop.contains g then s.discardGroup g else s.set (O.GROUP_STATE g) gDirty
    (some (c, Err.inconsistent, [nb g]), s.raise 0xBA5)
  | none =>
    let c := { c with phase := .flipping }
    let s := (s.putCommit c).each c.groups fun s g => s.set (O.GROUP_STATE g) gFlipping
    if c.groups.any tileUsed then (none, s) else (some (c, Err.ok, []), s.enterRetiring c)

/-- Tile `t` reaches its boundary (R44): with the last tile the groups enter RETIRING and the COMMIT is answered. -/
def State.tileFlips (s : State) (t : Nat) (c : Commit) : Option Answer × State :=
  if c.flipped.contains t then (none, s)
  else
    let ends := c.groups.contains (tileGroup t) && s.getS (O.TILE_FULL t) == 1 && s.get (O.TILE_FULL t) == 0
    let c := { c with flipped := insNat t c.flipped }
    let s := s.putCommit c
    let s := if ends then s.leavePale t else s
    if c.flipped.length < 32 then (none, s) else (some (c, Err.ok, []), s.enterRetiring c)

/-- The commit under way in a phase that flips a group. -/
def State.commitIn (s : State) (ph : CPhase) (g : Nat) : Option Commit :=
  s.dict.commits.find? fun c => c.phase == ph && c.groups.contains g

end Sys2Proof.Machine
end

