-- ==== Sys2Proof/Machine/Write.lean ====
section
/-!
DEFINITION. Sys2Proof/Machine/Write.lean: what a write of an object is checked against beside its type (R12, R34 steps 7 and
8), what it does, and the commands of the dictionary (R40).
-/
namespace Sys2Proof.Machine

/-! ### Reserved bits and ranges (R12, R34, R37) -/

/-- An element without its reserved bits, which a write ignores (R12). The rows of a gate list keep theirs for the rule
that judges them at a commit (R258); a read of them shows 0. -/
def keepBits (idx sub e v : Nat) : Nat :=
  match idx, sub with
  | 0x2110, 2 => v % 2 ^ 24
  | 0x3002, 7 => v % 2 ^ 48
  | 0x3030, 2 => v % 2 ^ 8
  | 0x3030, 3 | 0x3030, 4 => v % 2 ^ 16
  | 0x3040, 2 => v % 2 ^ 17
  | 0x4200, _ => v % 2 ^ 588 + bits v 615 592 * 2 ^ 592
  | 0x5100, 1 => if e % 8 = 7 then 0 else v
  | 0x5101, 1 | 0x5102, 1 => v % 2 ^ 640 + keepRef (bits v 663 640) * 2 ^ 640 + bits v 664 664 * 2 ^ 664
  | 0x6100, 1 => v % 2 ^ 30
  | 0x6101, 1 => v % 2 ^ 14
  | 0x9070, 1 | 0x9070, 4 => v % 2 ^ 24
  | 0x7201, 1 => v - bits v 14 12 * 2 ^ 12
  | _, _ => v

/-- A row of TABLE_DATA without its reserved bits (R162, R173, R174). -/
def keepRow (kind : Nat) (b : List Byte) : List Byte :=
  let low := fun i n => nb (byteAt b i % n)
  if kind = 1 then patch (patch b 10 (leBytes 3 (keepRef (leAt b 10 3)))) 15 [low 15 8]
  else
    let b := patch b 0 [low 0 16, low 1 16]
    let b := patch b 6 [nb (byteAt b 6 - bits (byteAt b 6) 6 4 * 16), nb (byteAt b 7 - bits (byteAt b 7) 6 6 * 64),
                        nb (byteAt b 8 - bits (byteAt b 8) 6 6 * 64), low 9 8]
    let b := patch b 11 [low 11 128, low 12 16, low 13 32]
    b

/-- A value lies in its object's range (R34 step 7, R37). -/
def inRange (o : ObjRow) (v : Nat) : Bool :=
  let i : Int := if o.ty = .i32 then toSigned 32 v else v
  (o.rng == [] || o.rng.any fun x => decide (x.1 ≤ i) && decide (i ≤ x.2)) &&
  (o.ty != .time96 || decide (timeNs v < 1000000000))

/-- A power of two up to 2^20. -/
def isPow2 (v : Nat) : Bool := (List.range 21).any fun k => 2 ^ k == v

/-- The aging bound of a table for a write of AGE_TICK, AGE_LIMIT or SCAN_RATE (R191). -/
def State.agesOk (s : State) (n tick limit rate : Nat) : Bool :=
  s.get (O.TABLE_KIND n) != 1 || ageOk (s.get (O.TABLE_SIZE n)) tick limit rate

/-- What a chapter asks of an immediate write's value beside its range (R90, R191, R274, R321, R328, R353, R377). -/
def State.valueOk (s : State) (r : Ref) (v : Nat) : Bool :=
  let n := r.inst
  match r.idx, r.sub with
  | 0x2130, 1 => decide (v < s.get (O.LOS_DEASSERT_MV n))
  | 0x2130, 2 => decide (s.get (O.LOS_ASSERT_MV n) < v)
  | 0x5002, 1 => s.agesOk n v (s.get (O.AGE_LIMIT n)) (s.get (O.SCAN_RATE n))
  | 0x5002, 2 => s.agesOk n (s.get (O.AGE_TICK n)) v (s.get (O.SCAN_RATE n))
  | 0x5002, 4 => s.agesOk n (s.get (O.AGE_TICK n)) (s.get (O.AGE_LIMIT n)) v
  | 0x8030, 2 => v != n
  | 0xA010, 2 => decide (v ≤ s.get O.PM_SPLIT_1G)
  | 0xA010, 3 => decide (s.get O.PM_SPLIT_2M ≤ v)
  | 0xA100, 1 => decide (v < 6) || (n % 16 == 15 && decide (n / 16 < 8))
  | 0xA100, 4 | 0xA300, 2 => isPow2 v
  | 0xB100, 2 => v != s.get (O.SRC_FALLBACK n)
  | 0xB100, 3 => v == 0xFF || v != s.get (O.SRC_TARGET n)
  | 0xC100, 5 => v == 0 || s.get (O.SRC_CLASS n) == 1
  | 0xC200, 1 => v == 0 || [2, 3, 4, 7, 8, 9, 10, 14, 15, 20].contains n
  | _, _ => true

/-- The rows a chapter refuses with ERR_RANGE (R174, R322). -/
def State.rowOk (s : State) (r : Ref) (row : Nat) (b : List Byte) : Bool :=
  match r.idx, r.sub with
  | 0x5003, 2 => (s.decl r.inst).kind == 1 || !rowBad b
  | 0xA010, 1 => !s.mapRowBad row (leNat b)
  | _, _ => true

/-! ### The block's state (R34 step 8) -/

/-- An Amber image that may not be written (R144): the active one, or the other until every packet that sees it has been
handed off. -/
def State.amberBusy (s : State) (t image : Nat) : Bool :=
  s.get (O.AMBER_IMAGE t) == image || s.getT t (O.AMBER_IMAGE t) == image ||
  s.buf.pkts.any fun p => p.tile == t && p.phase == .parsing && s.getP p.applied (O.AMBER_IMAGE t) == image

/-- A half of the associative search that may not be written (R181): the active one, or the other while a packet that
sees it has not left the match stages. -/
def State.mamBusy (s : State) (t half : Nat) : Bool :=
  let uses := fun (g : Ref → Nat) => g (O.MAM_SPLIT t) == 0 || g (O.MAM_HALF t) == half
  (s.get (O.MAM_SPLIT t) == 1 && (s.get (O.MAM_HALF t) == half || s.getT t (O.MAM_HALF t) == half ||
    s.buf.pkts.any fun p => p.tile == t && (p.phase == .parsing || p.phase == .reorder || p.phase == .matched) &&
      uses fun r => s.getP p.applied r))

/-- The halves that rows `lo` to `hi - 1` lie in. -/
def halves (lo hi : Nat) : List Nat := (if lo < 2048 then [0] else []) ++ (if 2048 < hi then [1] else [])

/-- Tiles that take broadcast rows (R181). -/
def State.sharers (s : State) : List Nat := (List.range 32).filter fun t => s.flag (O.MAM_SHARED t)

/-- The block accepts an immediate write now. -/
def State.writeState (s : State) (r : Ref) (off len : Nat) : Bool :=
  let n := r.inst
  match r.idx with
  | 0x1011 => !s.flag (O.MANAGER_ENABLE n)
  | 0x2120 => r.sub != 9 || !s.flag (O.ADAPT_ENABLE n)
  | 0x4001 => s.isPale n
  | 0x4200 => !s.amberBusy n (r.sub - 1)
  | 0x5101 => (halves (off / 96) ((off + len) / 96)).all fun h => !s.mamBusy n h
  | 0x5102 => s.sharers.all fun t => (halves (off / 96) ((off + len) / 96)).all fun h => !s.mamBusy t h
  | 0x5003 => (s.decl n).kind != 1 || s.tableState n == 1
  | 0x7101 => !s.gateImageInUse n (r.sub - 1)
  | 0x8000 => r.sub != 3 || s.get (O.SERVO_OWNER n) == 0
  | 0xA010 => (r.sub != 2 && r.sub != 3) || s.nativeIdle
  | 0xA100 =>
    decide (9 < r.sub) || (s.chSt n == Ch.disabled && (r.sub != 1 ||
      ((List.range 128).all fun h => s.get (O.HOSTQ_CHANNEL (8192 + h)) != n)))
  | 0xA300 => s.chSt (n * 16 + 15) == Ch.disabled
  | 0xB200 => r.sub != 1 || (s.itgt n).stack == []
  | 0xD300 => n != 15 || r.sub != 2
  | _ => true

/-! ### The effect of an immediate write -/

/-- Write a scalar; some take effect at once beyond their value (R88, R96, R104, R105, R124, R261, R275, R352, R363,
R365). -/
def State.writeScalar (s : State) (r : Ref) (v : Nat) : State :=
  let n := r.inst
  let moved := s.get r != v
  let t := s.set r v
  match r.idx, r.sub with
  | 0x2120, 3 | 0x2120, 5 => t.reclamp n
  | 0x2000, 5 => if v = 0 then t.supervisionOff n else t
  | 0x3002, 1 => t.adminWritten n (s.faultSent n)
  | 0x3002, 6 => t.flushWritten n
  | 0x3060, 5 => if moved then t.bcastWritten n else t
  | 0x8000, 15 | 0x8030, 1 => t.servoWritten n
  | 0x8010, 1 => if moved then t.refSelected else t
  | 0xB000, 1 => s.event v
  | 0xB001, 1 => s.writeMask n v
  | 0xB100, 2 => t.retargeted n
  | _, _ => t

/-- A row of an ECC or parity array written by software is clean (R139, R149, R182, R323). -/
def State.arrayWritten (s : State) (r : Ref) (row : Nat) : State :=
  let n := r.inst
  match r.idx with
  | 0x4001 => s.wordWritten (0x220 + n) (0x240 + n) (unitId 2 n) row
  | 0x4200 => s.wordWritten (0x260 + n) (0x280 + n) (unitId 2 n) ((r.sub - 1) * 4096 + row)
  | 0x5101 => s.wordWritten (0x3A0 + n) (0x3A0 + n) (unitId 2 n) row
  | 0x6100 => s.storeWritten (2 ^ 24 + row) (2 ^ 32)
  | 0x6101 => s.storeWritten (2 ^ 25 + row) (2 ^ 32)
  | 0xA010 => s.wordWritten 0xB08 0xB09 (unitId 13 0) row
  | _ => s

/-- Write elements, in ascending order. -/
def State.writeEls (s : State) (r : Ref) (es : List (Nat × Nat)) : State :=
  s.each es fun s e => (s.set r (keepBits r.idx r.sub e.1 e.2) e.1).arrayWritten r e.1

/-- Write BLOB or TABLE bytes (R38). -/
def State.writeBytes (s : State) (o : ObjRow) (r : Ref) (off : Nat) (d : List Byte) : State :=
  match r.idx, r.sub with
  | 0x2120, 9 =>
    let old := (s.ffeTaps r.inst).flatMap fun v => leBytes 2 (ofSigned 16 v)
    s.ffeLoad r.inst (patch old off d)
  | 0x5003, 2 =>
    let k := (s.decl r.inst).kind
    let d := (List.range (d.length / 16)).flatMap fun i => keepRow k (slice d (16 * i) 16)
    s.tableWrite r.inst off d
  | 0x5102, 1 =>
    let es := elements (fun _ => 0) 96 off d
    s.each s.sharers fun s t => s.writeEls (O.MAM_IMAGE t) es
  | 0xD010, 1 => { s with sys := { s.sys with upload := writeRegion off d s.sys.upload } }
  | 0xD011, 1 => { s with sys := { s.sys with startUp := writeRegion off d s.sys.startUp } }
  | _, _ => s.writeEls r (elements (fun e => s.get r e) o.el off d)

/-! ### Commands (R40) -/

/-- The data length of a command's write fits it (R37). TW_XFER carries as many bytes as it writes after its four. -/
def cmdFits (r : Ref) (most : Nat) (d : List Byte) : Bool :=
  match r.idx, r.sub with
  | 0xD300, 1 => decide (4 ≤ d.length) && d.length == 4 + byteAt d 1 && decide (d.length ≤ most)
  | 0xE000, 2 => decide (d.length ≤ most)
  | _, _ => d.length == most

/-- The data of a command's write lies in its range, which no state of its block changes (R34 step 7). A scan of
EYE_SCAN above 3, or of an upper eye in NRZ, is out of it (log 76). -/
def State.cmdRange (s : State) (r : Ref) (d : List Byte) : Bool :=
  let n := r.inst
  match r.idx, r.sub with
  | 0x2150, 1 => byteAt d 0 ≤ 3 && (s.get (O.LANE_MODE n) != 1 || byteAt d 0 == 0)
  | 0x6040, 4 => leNat d < 2097152
  | 0x8000, 4 => timeNs (leNat d) < 1000000000
  | 0x8000, 6 => byteAt d 0 ≤ 1
  | 0xC000, 4 => s.injectCheck (leAt d 0 2) (leAt d 2 2) (leAt d 4 4) != Err.range
  | 0xD300, 1 => byteAt d 2 ≤ 64
  | 0xD310, 1 => mdioOk d
  | _, _ => true

/-- TB_SET and TB_ADJUST (R264, R268): a jump beyond the threshold starts and then fails. -/
def State.tbMove (s : State) (r : Ref) (o : Int) : Nat × State :=
  if s.get (O.SERVO_OWNER r.inst) = 1 then (Err.state, s)
  else
    let x := s.adjust r.inst o
    if x.1 = Err.ok then (Err.ok, x.2.cmdDone r)
    else if x.1 = Err.range then (Err.range, x.2.cmdFail r Err.range)
    else x

/-- TIME_SNAPSHOT (R286): every base and the device clock at one instant. -/
def State.timeSnapshot (s : State) : State :=
  s.cmdDone O.TIME_SNAPSHOT ((List.range 8).flatMap (fun n => leBytes 12 (s.tb n)) ++ leBytes 8 s.dc)

/-- DIAG_UNLOCK accepted (R10): the session opens; in an open one it is a command of the vendor's diagnostics, after which
the contents of their objects, zeros by default, are free (log 5). -/
def State.diagUnlock (s : State) : State :=
  if s.get O.DIAG_STATE = 0 then s.set O.DIAG_STATE 1
  else { s with sys := { s.sys with diagRuns := s.sys.diagRuns + 1 } }

/-- A command of a block whose data fits and lies in range: an error code of R67, and the state. A refused command leaves
its status as it was. -/
def State.command (s : State) (r : Ref) (d : List Byte) : Nat × State :=
  let n := r.inst
  match r.idx, r.sub with
  | 0x1020, 5 => (Err.ok, (s.sessionEnd n).cmdDone r)
  | 0x2101, 5 => if Stage.train ≤ s.stage n then (Err.ok, (s.retrain n).cmdDone r) else (Err.state, s)
  | 0x2150, 1 => s.eyeScan n (byteAt d 0)
  | 0x5003, 4 => (Err.ok, (s.cmdRun r).engSubmit n d none)
  | 0x5200, 7 => (Err.ok, State.cmdDone { s with lookup := { s.lookup with cache := [] } } r)
  | 0x6002, 4 =>
    if s.get (O.BUF_BANK_STATE n) = BankSt.inService then (Err.ok, (s.cmdRun r).bankIsolate n) else (Err.state, s)
  | 0x6002, 5 =>
    if s.get (O.BUF_BANK_STATE n) = BankSt.isolated then
      (Err.ok, (s.cmdRun r).set (O.BUF_BANK_STATE n) BankSt.restoring)
    else (Err.state, s)
  | 0x6040, 4 => let x := s.descriptorRead (leNat d); (Err.ok, x.2.cmdDone r x.1)
  | 0x6040, 5 => (Err.ok, (s.cmdRun r).sweepStart)
  | 0x6050, 1 => (Err.ok, s.snapshot.cmdDone r)
  | 0x8000, 4 => s.tbMove r (timeDiff (leNat d) (s.tb n))
  | 0x8000, 5 => s.tbMove r (toSigned 64 (leNat d))
  | 0x8000, 6 => let x := s.rearm n (byteAt d 0); if x.1 = Err.ok then (Err.ok, x.2.cmdDone r) else x
  | 0x8050, 1 => (Err.ok, s.timeSnapshot)
  | 0x9010, 4 => (Err.ok, (s.portSnapshot n).cmdDone r)
  | 0x9030, 2 => if s.bankCleared then (Err.ok, (s.cmdRun r).matrixSwap) else (Err.state, s)
  | 0x9030, 6 => (Err.ok, (s.cmdRun r).matrixClear)
  | 0x9040, 5 => (Err.ok, s.flowFlush.cmdDone r)
  | 0xA010, 4 => (Err.ok, s.pmFence)
  | 0xA200, 2 => s.engineRestart n
  | 0xB100, 7 => (Err.ok, (s.withdraw n).cmdDone r)
  | 0xB200, 6 => (Err.ok, (s.stackReset n).cmdDone r)
  | 0xC000, 4 =>
    let e := s.injectCheck (leAt d 0 2) (leAt d 2 2) (leAt d 4 4)
    if e = Err.ok then (Err.ok, (s.inject (leAt d 0 2) (leAt d 2 2) (leAt d 4 4) (leAt d 8 4)).cmdDone r) else (e, s)
  | 0xC100, 7 => s.faultAck n
  | 0xD010, 2 => s.fwVerify
  | 0xD010, 3 => s.fwActivate
  | 0xD010, 4 => s.fwStore d
  | 0xD011, 2 => s.startupStore
  | 0xD100, 4 => s.tileReload n
  | 0xD300, 1 => s.twXfer n d
  | 0xD310, 1 => (Err.ok, s.mdioXfer n d)
  | 0xE000, 2 => if Config.diagUnlockAccepts d then (Err.ok, s.diagUnlock.cmdDone r) else (Err.state, s)
  | _, _ => (Err.state, s)

end Sys2Proof.Machine
end

