-- ==== Sys2Proof/Machine/Dict.lean ====
section
/-!
DEFINITION. Sys2Proof/Machine/Dict.lean: the dictionary's operations (R34-R47, R62-R65), the same for every path, and the
rows of the command table that are one dictionary operation each.
-/
namespace Sys2Proof.Machine

/-! ### Finding an object (R8, R34, R101, R220) -/

/-- The U8 at sub-index 00 of an object without a value there (R8). -/
def highestRow (rows : List ObjRow) : Option ObjRow :=
  match rows with
  | [] => none
  | o :: _ => some ⟨o.idx, 0, 0, .u8, .ro, 1, 1, o.insts, .none, []⟩

/-- The row of a sub-index among its index's rows. -/
def rowOf (rows : List ObjRow) (sub : Nat) : Option ObjRow :=
  match rows.find? fun r => r.subLo ≤ sub && sub ≤ r.subHi with
  | some o => some o
  | none => if sub = 0 then highestRow rows else none

/-- An instance exists for an operation; a staged one in areas 3 and 6 also reaches the ports of the shadow map. -/
def State.reachable (s : State) (staged : Bool) (r : Ref) (i : Insts) : Bool :=
  s.hasInst i r.inst ||
  (staged && (r.idx / 4096 == 3 || r.idx / 4096 == 6) &&
    match i with
    | .ports => s.widthAfter [0x30 + r.inst / 64] r.inst != 0
    | .queues => decide (r.inst < 8192) && s.widthAfter [0x30 + r.inst / 1024] (r.inst / 16) != 0
    | _ => false)

/-- Steps 1 to 3 of R34: the object's row, or the error. -/
def State.locate (s : State) (staged : Bool) (r : Ref) : Nat × Option ObjRow :=
  match indexRows r.idx with
  | [] => (Err.noObject, none)
  | o :: rest =>
    if !s.reachable staged r o.insts then (Err.noInstance, none)
    else
      match rowOf (o :: rest) r.sub with
      | none => (Err.noSubindex, none)
      | some x => if r.idx = 0x7001 ∧ r.sub = 4 ∧ 8192 ≤ r.inst then (Err.noSubindex, none) else (Err.ok, some x)

/-- The value at sub-index 00 of an object without a value there. -/
def highestOf (idx : Nat) : Nat := maxL ((indexRows idx).map (·.subHi))

/-- A sub-index 00 of that kind. -/
def ObjRow.isHighest (o : ObjRow) : Bool := o.subHi == 0 && (objRow o.idx 0).isNone

/-! ### READ and READ_STAGED (R38-R42) -/

/-- The most bytes an operation of a path carries (R38). -/
def pathMost : Path → Nat
  | .window _ => 256
  | .bolsy _ => 1024
  | _ => 2 ^ 32

/-- Area E answers a READ of DIAG_STATE and a DESCRIBE; anything else needs a diagnostic session (R10). -/
def State.diagRefuses (s : State) (r : Ref) (isRead : Bool) : Bool :=
  r.idx / 4096 == 0xE && s.get O.DIAG_STATE == 0 && !(isRead && r == O.DIAG_STATE)

/-- The controller notes a path's read of a pending word (R366). -/
def State.noteView (s : State) (p : Path) (r : Ref) : State :=
  if r.idx = 0xB001 ∧ r.sub = 2 then
    match p with
    | .window _ => s.noteRead 8 r.inst
    | .bolsy k => s.noteRead k r.inst
    | _ => s
  else s

/-- READ, and READ_STAGED with `staged`. -/
def State.readOp (s : State) (p : Path) (staged : Bool) (r : Ref) (off len : Nat) (access : Nat := 1) :
    Nat × List Byte × State :=
  match s.locate staged r with
  | (e, none) => (e, [], s)
  | (_, some o) =>
    if o.acc = .wo then (Err.writeOnly, [], s)
    else if o.isHighest then
      if s.diagRefuses r (!staged) then (Err.state, [], s) else (Err.ok, [nb (highestOf o.idx)], s)
    else if (o.ty = .blob ∨ o.ty = .table) ∧ s.extentOk o r.inst (pathMost p) off len = false then (Err.offset, [], s)
    else if s.dict.busyTabs.contains r then (Err.tableBusy, [], s)
    else if s.diagRefuses r (!staged) then (Err.state, [], s)
    else if o.ty = .cmd then
      let c := s.cmd r
      (Err.ok, nb c.status :: nb c.err :: c.result, s)
    else
      let b := s.readValue o r staged off len access
      (Err.ok, b.1, if staged then b.2 else (b.2.noteView p r).readClear o r)

/-! ### WRITE and WRITE_STAGED (R38-R43) -/

/-- The error of an access right for an immediate write (R40); prefix records are never written through TABLE_DATA
(R160). -/
def State.writeRight (s : State) (o : ObjRow) (r : Ref) : Nat :=
  match o.acc with
  | .ro | .rc => Err.readOnly
  | .rws => Err.stagedOnly
  | _ => if r.idx = 0x5003 ∧ r.sub = 2 ∧ (s.decl r.inst).isLpm = true then Err.readOnly else Err.ok

/-- The rows or elements of a BLOB or TABLE write, with their numbers. -/
def rowsIn (gran off : Nat) (d : List Byte) : List (Nat × List Byte) :=
  (List.range (d.length / max gran 1)).map fun i => (off / max gran 1 + i, slice d (i * gran) gran)

/-- Step 6 of R34 for a value: its length fits the type, or its bytes lie in the object. -/
def State.dataFits (s : State) (p : Path) (o : ObjRow) (r : Ref) (off : Nat) (d : List Byte) : Nat :=
  match o.ty with
  | .blob | .table => if s.extentOk o r.inst (pathMost p) off d.length then Err.ok else Err.offset
  | .string => if d.length ≤ 256 then Err.ok else Err.type
  | _ => if d.length = o.size then Err.ok else Err.type

/-- The group of an object refuses an immediate write now (R40). -/
def State.rwBusy (s : State) (o : ObjRow) (r : Ref) : Bool :=
  match grpOf o.grp r.inst with
  | some g => s.groupBusy g
  | none => false

/-- A write of a command (R34 steps 6 to 8, R40): its length, its range, whether a DMA operation is using it (R340), its
status, then its block. -/
def State.cmdOp (s : State) (o : ObjRow) (r : Ref) (d : List Byte) : Nat × State :=
  if !cmdFits r o.size d then (Err.type, s)
  else if !s.cmdRange r d then (Err.range, s)
  else if s.dict.busyTabs.contains r then (Err.tableBusy, s)
  else if s.cmdRunning r then (Err.cmdBusy, s)
  else if s.diagRefuses r false ∧ r ≠ O.DIAG_UNLOCK then (Err.state, s)
  else s.command r d

/-- An immediate write that has passed steps 1 to 6 of R34. -/
def State.writeValue (s : State) (o : ObjRow) (r : Ref) (off : Nat) (d : List Byte) : Nat × State :=
  let wide := o.ty == .blob || o.ty == .table
  let v := keepBits r.idx r.sub 0 (leNat d)
  let range :=
    if wide then (rowsIn (s.extent o r.inst).2 off d).all fun x => s.rowOk r x.1 x.2
    else inRange o v && s.valueOk r v
  if !range then (Err.range, s)
  else if s.dict.busyTabs.contains r then (Err.tableBusy, s)
  else if s.rwBusy o r then (Err.commitBusy, s)
  else if !s.writeState r off d.length then (Err.state, s)
  else (Err.ok, if wide then s.writeBytes o r off d else s.writeScalar r v)

/-- A transaction of the same board master runs: a second one is refused with ERR_CMD_BUSY before any lease (R423). -/
def State.masterBusy (s : State) (r : Ref) : Bool :=
  ((r.idx == 0xD300 || r.idx == 0xD310) && r.sub == 1) && s.cmdRunning r

/-- WRITE (R40). -/
def State.writeOp (s : State) (p : Path) (r : Ref) (off : Nat) (d : List Byte) : Nat × State :=
  match s.locate false r with
  | (e, none) => (e, s)
  | (_, some o) =>
    let e := s.writeRight o r
    if e ≠ Err.ok then (e, s)
    else if s.leasedAway p (r.idx / 4096) then (if s.masterBusy r then Err.cmdBusy else Err.leased, s)
    else if o.acc = .cmd then s.cmdOp o r d
    else
      let f := s.dataFits p o r off d
      if f ≠ Err.ok then (f, s) else s.writeValue o r off d

/-- Put a staged value into its group's shadow (R38): of a BLOB the whole, so that it is what the commit will make
active. -/
def State.stageValue (s : State) (o : ObjRow) (r : Ref) (off : Nat) (d : List Byte) : State :=
  if o.ty = .blob then
    let n := o.size / o.el
    let es := elements (fun e => s.getS r e) o.el off d
    let whole := (List.range n).map fun e => (e, ((es.find? (·.1 == e)).map (·.2)).getD (s.getS r e))
    s.each whole fun s e => s.stageEl ⟨r, e.1⟩ (keepBits r.idx r.sub e.1 e.2)
  else s.stageEl ⟨r, 0⟩ (keepBits r.idx r.sub 0 (leNat d))

/-- WRITE_STAGED (R40, R43). -/
def State.stageOp (s : State) (p : Path) (r : Ref) (off : Nat) (d : List Byte) : Nat × State :=
  match s.locate true r with
  | (e, none) => (e, s)
  | (_, some o) =>
    if o.acc = .ro ∨ o.acc = .rc then (Err.readOnly, s)
    else
      match (if o.acc = .rws ∨ o.acc = .rw then grpOf o.grp r.inst else none) with
      | none => (Err.notStageable, s)
      | some g =>
        if s.leasedAway p (r.idx / 4096) then (Err.leased, s)
        else
          let f := s.dataFits p o r off d
          if f ≠ Err.ok then (f, s)
          else if o.ty ≠ .blob ∧ inRange o (keepBits r.idx r.sub 0 (leNat d)) = false then (Err.range, s)
          else if s.dict.busyTabs.contains r then (Err.tableBusy, s)
          else if s.groupBusy g then (Err.commitBusy, s)
          else (Err.ok, (s.stageValue o r off d).groupStaged g)

/-! ### The operation codes (R47) -/

/-- An operation on the dictionary: its error code and data, or `none` where a COMMIT answers later; and the state. -/
def State.dictOp (s : State) (p : Path) (code : Nat) (r : Ref) (off len : Nat) (d : List Byte) (direct : Bool) :
    Option (Nat × List Byte) × State :=
  match code with
  | 1 => let x := s.readOp p false r off len; (some (x.1, x.2.1), x.2.2)
  | 2 => let x := s.readOp p true r off len; (some (x.1, x.2.1), x.2.2)
  | 3 => let x := s.writeOp p r off d; (some (x.1, []), x.2)
  | 4 => let x := s.stageOp p r off d; (some (x.1, []), x.2)
  | 5 => let x := s.discardOp p d; (some (x.1, []), x.2)
  | 6 =>
    let x := s.commitOp p d direct
    (x.1.map fun e => (e, []), x.2)
  | 7 => let x := s.leaseOp p d; (some (x.1, x.2.1), x.2.2)
  | 8 => let x := s.releaseOp p d; (some (x.1, []), x.2)
  | 9 =>
    match s.locate false r with
    | (e, none) => (some (e, []), s)
    | (_, some o) => (some (Err.ok, s.describe o r.inst), s)
  | 10 => (some (if d.length ≤ 64 then (Err.ok, d) else (Err.type, [])), s)
  | _ => (some (Err.range, []), s)

/-! ### Rows of one operation each -/

/-- The host can reach the device: with STRAP_PCIE_OFF its attachment stays in electrical idle (R389). -/
def State.hostReaches (s : State) : Bool := !bit (s.get O.STRAPS) 3

/-- A path reaches the dictionary: it answers from the end of array initialisation (R394), a window only where the host
reaches the device (R389). -/
def State.pathOpen (s : State) (p : Path) : Bool :=
  s.sys.initDone && match p with
    | .window _ => s.hostReaches
    | _ => true

/-- A dictionary operation by itself: its answer is put out. -/
def State.direct (s : State) (p : Path) (code : Nat) (r : Ref) (off len : Nat) (d : List Byte) : State :=
  if !s.pathOpen p then s
  else
    let x := s.dictOp p code r off len d true
    match x.1 with
    | some a => x.2.emit (.answer p a.1 a.2)
    | none => x.2

/-- A WRITE of a CMD object by itself. -/
def State.doCmd (s : State) (p : Path) (r : Ref) (d : List Byte) : State := s.direct p 3 r 0 0 d

/-- READ (R42). -/
def execRead (p : Path) (a : Ref) (off len : Nat) (s : State) : Out := live s fun s => s.direct p 1 a off len []
/-- READ_STAGED (R42). -/
def execReadStaged (p : Path) (a : Ref) (off len : Nat) (s : State) : Out := live s fun s => s.direct p 2 a off len []
/-- WRITE (R40). -/
def execWrite (p : Path) (a : Ref) (off : Nat) (data : List Byte) (s : State) : Out :=
  live s fun s => s.direct p 3 a off 0 data
/-- WRITE_STAGED (R40). -/
def execWriteStaged (p : Path) (a : Ref) (off : Nat) (data : List Byte) (s : State) : Out :=
  live s fun s => s.direct p 4 a off 0 data
/-- DISCARD (R43). -/
def execDiscard (p : Path) (data : List Byte) (s : State) : Out := live s fun s => s.direct p 5 ⟨0, 0, 0⟩ 0 0 data
/-- COMMIT (R46). -/
def execCommit (p : Path) (bitmap : List Byte) (s : State) : Out := live s fun s => s.direct p 6 ⟨0, 0, 0⟩ 0 0 bitmap
/-- LEASE (R62). -/
def execLease (p : Path) (data : List Byte) (s : State) : Out := live s fun s => s.direct p 7 ⟨0, 0, 0⟩ 0 0 data
/-- RELEASE (R62). -/
def execRelease (p : Path) (data : List Byte) (s : State) : Out := live s fun s => s.direct p 8 ⟨0, 0, 0⟩ 0 0 data
/-- DESCRIBE (R47). -/
def execDescribe (p : Path) (a : Ref) (s : State) : Out := live s fun s => s.direct p 9 a 0 0 []
/-- ECHO (R47). -/
def execEcho (p : Path) (data : List Byte) (s : State) : Out := live s fun s => s.direct p 10 ⟨0, 0, 0⟩ 0 0 data

/-- LEASE_EXPIRE (R65, R403, log 66). -/
def execLeaseExpire (area : Fin 16) (s : State) : Out := live s fun s =>
  match s.lease? area with
  | some _ => if s.timersRun then s.leaseEnd area else s
  | none => s

/-- SESSION_CLOSE (R59). -/
def execSessionClose (p : Path) (k : Session) (s : State) : Out := live s fun s => s.doCmd p (O.SESSION_CLOSE k) []
/-- RETRAIN (R82). -/
def execRetrain (p : Path) (l : Lane) (s : State) : Out := live s fun s => s.doCmd p (O.RETRAIN l) []
/-- EYE_SCAN (R95). -/
def execEyeScan (p : Path) (l : Lane) (sel : Byte) (s : State) : Out := live s fun s => s.doCmd p (O.EYE_SCAN l) [sel]
/-- FFE_LOAD (R88). -/
def execFfeLoad (p : Path) (l : Lane) (taps : List Byte) (s : State) : Out :=
  live s fun s => s.direct p 3 (O.FFE_LOAD l) 0 0 taps
/-- CACHE_FLUSH (R187). -/
def execCacheFlush (p : Path) (s : State) : Out := live s fun s => s.doCmd p O.CACHE_FLUSH []
/-- DESCRIPTOR_READ (R204). -/
def execDescriptorRead (p : Path) (data : List Byte) (s : State) : Out := live s fun s => s.doCmd p O.DESCRIPTOR_READ data
/-- ORPHAN_SWEEP (R228). -/
def execOrphanSweep (p : Path) (s : State) : Out := live s fun s => s.doCmd p O.ORPHAN_SWEEP []
/-- BANK_ISOLATE (R225). -/
def execBankIsolate (p : Path) (k : BufBank) (s : State) : Out := live s fun s => s.doCmd p (O.BANK_ISOLATE k) []
/-- BANK_RESTORE (R227). -/
def execBankRestore (p : Path) (k : BufBank) (s : State) : Out := live s fun s => s.doCmd p (O.BANK_RESTORE k) []
/-- SNAPSHOT (R230). -/
def execSnapshot (p : Path) (s : State) : Out := live s fun s => s.doCmd p O.SNAPSHOT []
/-- TB_SET (R264). -/
def execTbSet (p : Path) (n : TimeBase) (data : List Byte) (s : State) : Out := live s fun s => s.doCmd p (O.TB_SET n) data
/-- TB_ADJUST (R264). -/
def execTbAdjust (p : Path) (n : TimeBase) (data : List Byte) (s : State) : Out :=
  live s fun s => s.doCmd p (O.TB_ADJUST n) data
/-- TB_REARM with data 0 (R264). -/
def execTbRearmArm (p : Path) (n : TimeBase) (s : State) : Out := live s fun s => s.doCmd p (O.TB_REARM n) [0]
/-- TB_REARM with data 1 (R264). -/
def execTbRearmTrack (p : Path) (n : TimeBase) (s : State) : Out := live s fun s => s.doCmd p (O.TB_REARM n) [1]
/-- TIME_SNAPSHOT (R286). -/
def execTimeSnapshot (p : Path) (s : State) : Out := live s fun s => s.doCmd p O.TIME_SNAPSHOT []
/-- PORT_SNAPSHOT (R294). -/
def execPortSnapshot (p : Path) (port : Port) (s : State) : Out := live s fun s => s.doCmd p (O.PORT_SNAPSHOT port) []
/-- MATRIX_SWAP (R299). -/
def execMatrixSwap (p : Path) (s : State) : Out := live s fun s => s.doCmd p O.MATRIX_SWAP []
/-- MATRIX_CLEAR (R299). -/
def execMatrixClear (p : Path) (s : State) : Out := live s fun s => s.doCmd p O.MATRIX_CLEAR []
/-- FLOW_FLUSH (R303). -/
def execFlowFlush (p : Path) (s : State) : Out := live s fun s => s.doCmd p O.FLOW_FLUSH []
/-- ENGINE_RESTART (R344). -/
def execEngineRestart (p : Path) (e : Engine) (s : State) : Out := live s fun s => s.doCmd p (O.ENGINE_RESTART e) []
/-- PM_FENCE (R323). -/
def execPmFence (p : Path) (s : State) : Out := live s fun s => s.doCmd p O.PM_FENCE []
/-- IRQ_RAISE (R352). -/
def execIrqRaise (p : Path) (v : BitVec 16) (s : State) : Out :=
  live s fun s => s.direct p 3 O.IRQ_RAISE 0 0 (leBytes 2 v.toNat)
/-- STACK_RESET (R361). -/
def execStackReset (p : Path) (t : Target) (s : State) : Out := live s fun s => s.doCmd p (O.STACK_RESET t) []
/-- SRC_WITHDRAW (R354). -/
def execSrcWithdraw (p : Path) (n : Source) (s : State) : Out := live s fun s => s.doCmd p (O.SRC_WITHDRAW n) []
/-- FAULT_ACK (R377). -/
def execFaultAck (p : Path) (n : Source) (s : State) : Out := live s fun s => s.doCmd p (O.FAULT_ACK n) []

/-- The data of FAULT_INJECT (R382). -/
def injectData (n mode unit addr : Nat) : List Byte := leBytes 2 n ++ leBytes 2 mode ++ leBytes 4 unit ++ leBytes 4 addr
/-- FAULT_INJECT, mode 1 (R382). -/
def execFaultInjectEccSingle (p : Path) (n : Source) (unit addr : BitVec 32) (s : State) : Out :=
  live s fun s => s.doCmd p O.FAULT_INJECT (injectData n 1 unit.toNat addr.toNat)
/-- FAULT_INJECT, mode 2 (R382). -/
def execFaultInjectEccDouble (p : Path) (n : Source) (unit addr : BitVec 32) (s : State) : Out :=
  live s fun s => s.doCmd p O.FAULT_INJECT (injectData n 2 unit.toNat addr.toNat)
/-- FAULT_INJECT, mode 3 (R382). -/
def execFaultInjectParity (p : Path) (n : Source) (unit addr : BitVec 32) (s : State) : Out :=
  live s fun s => s.doCmd p O.FAULT_INJECT (injectData n 3 unit.toNat addr.toNat)
/-- FAULT_INJECT, mode 4 (R382). -/
def execFaultInjectReport (p : Path) (n : Source) (unit addr : BitVec 32) (s : State) : Out :=
  live s fun s => s.doCmd p O.FAULT_INJECT (injectData n 4 unit.toNat addr.toNat)

/-- TILE_RELOAD (R398). -/
def execTileReload (p : Path) (t : Tile) (s : State) : Out := live s fun s => s.doCmd p (O.TILE_RELOAD t) []
/-- FW_VERIFY (R402). -/
def execFwVerify (p : Path) (s : State) : Out := live s fun s => s.doCmd p O.FW_VERIFY []
/-- FW_ACTIVATE (R402). -/
def execFwActivate (p : Path) (s : State) : Out := live s fun s => s.doCmd p O.FW_ACTIVATE []
/-- FW_STORE (R402). -/
def execFwStore (p : Path) (data : Byte) (s : State) : Out := live s fun s => s.doCmd p O.FW_STORE [data]
/-- STARTUP_STORE (R393). -/
def execStartupStore (p : Path) (s : State) : Out := live s fun s => s.doCmd p O.STARTUP_STORE []
/-- TW_XFER (R420). -/
def execTwXfer (p : Path) (i : Fin 16) (data : List Byte) (s : State) : Out := live s fun s => s.doCmd p (O.TW_XFER i) data

/-- The data of MDIO_XFER (R422). -/
def mdioData (c45 : Bool) (port dev : BitVec 5) (op v : Nat) : List Byte :=
  [nb (if c45 then 45 else 22), nb port.toNat, nb dev.toNat, nb op] ++ leBytes 2 v
/-- MDIO_XFER, operation 0 (R422). -/
def execMdioRead (p : Path) (j : Fin 4) (clause45 : Bool) (port dev : BitVec 5) (s : State) : Out :=
  live s fun s => s.doCmd p (O.MDIO_XFER j) (mdioData clause45 port dev 0 0)
/-- MDIO_XFER, operation 1 (R422). -/
def execMdioWrite (p : Path) (j : Fin 4) (clause45 : Bool) (port dev : BitVec 5) (v : BitVec 16) (s : State) : Out :=
  live s fun s => s.doCmd p (O.MDIO_XFER j) (mdioData clause45 port dev 1 v.toNat)
/-- MDIO_XFER, operation 2 (R422). -/
def execMdioAddress (p : Path) (j : Fin 4) (port dev : BitVec 5) (v : BitVec 16) (s : State) : Out :=
  live s fun s => s.doCmd p (O.MDIO_XFER j) (mdioData true port dev 2 v.toNat)
/-- MDIO_XFER, operation 3 (R422). -/
def execMdioReadIncrement (p : Path) (j : Fin 4) (port dev : BitVec 5) (s : State) : Out :=
  live s fun s => s.doCmd p (O.MDIO_XFER j) (mdioData true port dev 3 0)
/-- DIAG_UNLOCK (R10). -/
def execDiagUnlock (p : Path) (data : List Byte) (s : State) : Out := live s fun s => s.doCmd p O.DIAG_UNLOCK data

/-! ### Entry operations (R166) -/

/-- The 32 bytes of an operation record: code, flags, prefix length, key or address, action reference. -/
def opRecord (op flags plen : Nat) (key : List Byte) (action : Nat) : List Byte :=
  [nb op, nb flags, nb plen, 0] ++ (padTo 16 key).take 16 ++ leBytes 3 action ++ zeros 9

/-- Insert (R166). -/
def execInsert (p : Path) (n : Table) (flags : Byte) (key : List Byte) (action : BitVec 24) (s : State) : Out :=
  live s fun s => s.doCmd p (O.ENTRY_OP n) (opRecord 1 flags.toNat 0 key action.toNat)
/-- Replace (R166). -/
def execReplace (p : Path) (n : Table) (flags : Byte) (key : List Byte) (action : BitVec 24) (s : State) : Out :=
  live s fun s => s.doCmd p (O.ENTRY_OP n) (opRecord 2 flags.toNat 0 key action.toNat)
/-- Delete (R166). -/
def execDelete (p : Path) (n : Table) (key : List Byte) (s : State) : Out :=
  live s fun s => s.doCmd p (O.ENTRY_OP n) (opRecord 3 0 0 key 0)
/-- Read, of an entry or of a prefix record (R166). -/
def execEntryRead (p : Path) (n : Table) (plen : Byte) (key : List Byte) (s : State) : Out :=
  live s fun s => s.doCmd p (O.ENTRY_OP n) (opRecord 4 0 plen.toNat key 0)
/-- Probe (R166). -/
def execProbe (p : Path) (n : Table) (key : List Byte) (s : State) : Out :=
  live s fun s => s.doCmd p (O.ENTRY_OP n) (opRecord 5 0 0 key 0)
/-- Prefix insert (R166). -/
def execPrefixInsert (p : Path) (n : Table) (flags plen : Byte) (addr : List Byte) (action : BitVec 24) (s : State) : Out :=
  live s fun s => s.doCmd p (O.ENTRY_OP n) (opRecord 6 flags.toNat plen.toNat addr action.toNat)
/-- Prefix delete (R166). -/
def execPrefixDelete (p : Path) (n : Table) (plen : Byte) (addr : List Byte) (s : State) : Out :=
  live s fun s => s.doCmd p (O.ENTRY_OP n) (opRecord 7 0 plen.toNat addr 0)

end Sys2Proof.Machine
end

