-- ==== Sys2Proof/Machine/Bolsy.lean ====
section
/-!
DEFINITION. Sys2Proof/Machine/Bolsy.lean: the host object windows (R49-R51), Bolsy (R52-R61, R66), what a path does with the
answer of an operation, and the commits' events (R43, R44).
-/
namespace Sys2Proof.Machine

/-! ### Frames (R54, R57) -/

/-- ASCII text as bytes. -/
def ascii (l : List Nat) : List Byte := l.map nb
/-- "BOLSY m2d" and "BOLSY d2m" (R57). -/
def labelM2d : List Byte := ascii [66, 79, 76, 83, 89, 32, 109, 50, 100]
def labelD2m : List Byte := ascii [66, 79, 76, 83, 89, 32, 100, 50, 109]

/-- The largest payload (R54). -/
def maxPayload : Nat := 1352

/-- A frame without its tag (R54). -/
def bolsyBody (type flags sess seq : Nat) (payload : List Byte) : List Byte :=
  [nb 0xB0, nb 0x15, nb 1, nb type, nb flags, nb sess] ++ beBytes 2 payload.length ++ beBytes 8 seq ++ payload

/-- A frame with its tag under a key. -/
def sealed (key body : List Byte) : List Byte := body ++ (hmac key body).take 16

/-- The tag of a received frame holds under a key. -/
def tagOk (key frame : List Byte) : Bool :=
  frame.drop (frame.length - 16) == (hmac key (frame.take (frame.length - 16))).take 16

/-- A manager's key. -/
def State.managerKey (s : State) (i : Nat) : List Byte := (s.getAll (O.MANAGER_KEY i) 32).map nb

/-- Kmd and Kdm of a pair of nonces (R57). -/
def sessionKeys (k nm nd : List Byte) : List Byte × List Byte := (hmac k (labelM2d ++ nm ++ nd), hmac k (labelD2m ++ nm ++ nd))

/-- The cookie of a HELLO under the `k`-th secret (R57): the address in its 4 or 16 network-order bytes. -/
def cookie (k : Nat) (f : Udp) (mid : Nat) (nm : List Byte) : List Byte :=
  (hmac (Config.secret k) (nm ++ [nb mid] ++ beBytes (if f.v6 then 16 else 4) f.srcAddr ++ beBytes 2 f.srcPort)).take 16

/-- Answer a datagram (R52). -/
def State.reply (s : State) (m : Nat) (f : Udp) (payload : List Byte) : State :=
  s.emit (.udp m f.v6 f.dstAddr f.dstPort f.srcAddr f.srcPort payload)

/-- Drop a frame and count it (R66); a failed tag or cookie raises BOLSY_AUTH_FAIL, once a second at most (R383). -/
def State.bolsyDrop (s : State) (k : Nat) : State :=
  let s := s.count64 (O.BOLSY_DROPS k)
  if k = 2 ∧ s.dict.authSec ≤ s.now then
    State.raise { s with dict := { s.dict with authSec := s.now + ticksOfS 1 } } 0xBC0
  else s

/-- A manager id that is enabled. -/
def State.managerOn (s : State) (i : Nat) : Bool := decide (i < 16) && s.flag (O.MANAGER_ENABLE i)

/-! ### Sessions (R57-R59) -/

def State.modSess (s : State) (k : Nat) (f : Sess → Sess) : State :=
  { s with dict := { s.dict with sessions := s.dict.sessions.map fun e => if e.1 = k then (e.1, f e.2) else e } }

/-- HELLO (R57, R66). -/
def State.hello (s : State) (m : Nat) (f : Udp) : State :=
  let body := f.payload.drop 16
  let mid := byteAt body 0
  let nm := slice body 4 16
  let recent := s.dict.hellos.filter fun h => decide (s.now < h.2 + ticksOfS 1)
  let s : State := { s with dict := { s.dict with hellos := recent } }
  if s.get O.HELLO_RATE ≤ (recent.filter (·.1 == m)).length then s.bolsyDrop 6
  else
    let s : State := { s with dict := { s.dict with hellos := recent ++ [(m, s.now)] } }
    if !s.managerOn mid then s.bolsyDrop 3
    else
      let nd := cookie s.dict.secretNow f mid nm
      let ks := sessionKeys (s.managerKey mid) nm nd
      s.reply m f (sealed ks.2 (bolsyBody 2 0 0xFF 0 ([nb mid, 0, 0, 0] ++ nm ++ nd)))

/-- The idle timeout granted (R59). -/
def State.grantIdle (s : State) (asked : Nat) : Nat :=
  if asked = 0 then s.get O.IDLE_DEFAULT else max 10 (min asked 3600)

/-- The payload of an ACCEPT (R57). -/
def acceptPayload (sess idle : Nat) : List Byte := [nb sess, 0, 0, 0] ++ beBytes 2 idle ++ beBytes 2 maxPayload

/-- OPEN (R57, R58, R66). The header of an ACCEPT names the session it opens, or 0xFF where it opens none: DESIGN CHOICE,
log 108. -/
def State.open_ (s : State) (m : Nat) (f : Udp) : State :=
  let body := f.payload.drop 16
  let mid := byteAt body 0
  let nm := slice body 4 16
  let nd := slice body 20 16
  if !s.managerOn mid then s.bolsyDrop 3
  else
    let ks := sessionKeys (s.managerKey mid) nm nd
    let fresh := nd == cookie s.dict.secretNow f mid nm || nd == cookie s.dict.secretOld f mid nm
    if !fresh || !tagOk ks.1 f.payload then s.bolsyDrop 2
    else
      match s.dict.sessions.find? fun e => e.2.nm == nm && e.2.nd == nd with
      | some e => s.reply m f e.2.accept
      | none =>
        let idle := s.grantIdle (beAt body 36 2)
        match firstFrom (fun k => (s.session? k).isNone) 0 8 with
        | none => (s.reply m f (sealed ks.2 (bolsyBody 4 0 0xFF 0 (acceptPayload 0xFF idle)))).bolsyDrop 8
        | some k =>
          let acc := sealed ks.2 (bolsyBody 4 0 k 0 (acceptPayload k idle))
          let x : Sess := ⟨nm, nd, ks.1, ks.2, idle, s.timerNow + ticksOfS idle, acc, [], []⟩
          let s : State := { s with dict := { s.dict with sessions := ins ltN k x s.dict.sessions } }
          let s := ((s.set (O.SESSION_STATE k) 1).set (O.SESSION_MANAGER k) mid).set (O.SESSION_HIGHEST k) 0
          ((s.noteRef k).raise 0xBC1).reply m f acc

/-! ### Requests (R55, R56, R60, R61) -/

/-- Data follows an operation's header unless it only reads. -/
def carriesData (code : Nat) : Bool := !(code == 1 || code == 2 || code == 9)

/-- The operations of a REQUEST payload after its head; `none` where they do not fill it exactly. -/
def parseOps : Nat → List Byte → Option (List BOp)
  | 0, b => if b = [] then some [] else none
  | n + 1, b =>
    if b.length < 16 then none
    else
      let code := byteAt b 0
      let len := beAt b 2 2
      let have_ := if carriesData code then len else 0
      let rest := b.drop 16
      let step := (have_ + 3) / 4 * 4
      if 1024 < len ∨ rest.length < step then none
      else
        let op : BOp := ⟨code, ⟨beAt b 4 2, beAt b 9 3, byteAt b 6⟩, beAt b 12 4, len, rest.take have_⟩
        (parseOps n (rest.drop step)).map (op :: ·)

/-- A RESPONSE's payload (R55). -/
def responsePayload (rs : List (Nat × List Byte)) : List Byte :=
  [nb rs.length, 0, 0, 0] ++
  rs.flatMap fun r => [nb r.1, 0] ++ beBytes 2 r.2.length ++ padTo ((r.2.length + 3) / 4 * 4) r.2

/-- An answer of `n` bytes fits in the response beside those before it and an entry for each operation after it (R54). -/
def answerFits (j : BJob) (rest : List BOp) (n : Nat) : Bool :=
  (responsePayload j.done).length + 4 + (n + 3) / 4 * 4 + 4 * rest.length ≤ maxPayload

/-- The response of a request goes out and into the session's cache (R60). -/
def State.respond (s : State) (k : Nat) (x : Sess) (j : BJob) : State :=
  let body := bolsyBody 0x11 0 k j.seq (responsePayload j.done)
  let keep := decide (s.get (O.SESSION_HIGHEST k) ≤ j.seq + 63)
  let s := s.modSess k fun y => { y with jobs := y.jobs.drop 1, cache := if keep then y.cache ++ [(j.seq, body)] else y.cache }
  s.reply j.mport j.frame (sealed x.kdm body)

/-- Replace the request at work of a session. -/
def State.putJob (s : State) (k : Nat) (j : BJob) : State := s.modSess k fun y => { y with jobs := j :: y.jobs.drop 1 }

/-- Carry out a session's requests, in order, until none is left or a COMMIT answers later (R36, R56). An operation whose
answer the largest payload has no room for is not executed and answers ERR_NOT_EXECUTED: DESIGN CHOICE, log 28. -/
def State.runJobs (s : State) (k : Nat) : Nat → State
  | 0 => s
  | fuel + 1 =>
    match s.session? k with
    | none => s
    | some x =>
      match x.jobs with
      | [] => s
      | j :: _ =>
        match j.todo with
        | [] => (s.respond k x j).runJobs k fuel
        | op :: rest =>
          if (j.done.getLast?.map (·.1)).getD 0 ≠ 0 then
            (s.putJob k { j with todo := rest, done := j.done ++ [(Err.notExecuted, [])] }).runJobs k fuel
          else
            let r := s.dictOp (.bolsy (Fin.ofNat 8 k)) op.code op.ref op.off op.len op.data false
            if !answerFits j rest (match r.1 with | some a => a.2.length | none => 1) then
              (s.putJob k { j with todo := rest, done := j.done ++ [(Err.notExecuted, [])] }).runJobs k fuel
            else
              match r.1 with
              | none => r.2.putJob k { j with todo := rest }
              | some a => (r.2.putJob k { j with todo := rest, done := j.done ++ [a] }).runJobs k fuel

/-- Steps that carry out everything a session has. -/
def Sess.fuel (x : Sess) : Nat := sumL (x.jobs.map fun j => j.todo.length + 1) + 1
def State.runSession (s : State) (k : Nat) : State :=
  match s.session? k with
  | some x => s.runJobs k x.fuel
  | none => s

/-- REQUEST and CLOSE (R59-R61, R66). -/
def State.request (s : State) (m : Nat) (f : Udp) : State :=
  let k := byteAt f.payload 5
  let n := beAt f.payload 8 8
  match s.session? k with
  | none => s.bolsyDrop 7
  | some x =>
    let h := s.get (O.SESSION_HIGHEST k)
    if !tagOk x.kmd f.payload then s.bolsyDrop 2
    else if byteAt f.payload 3 = 0x20 then
      if n ≤ h then s.bolsyDrop 4 else (s.reply m f (sealed x.kdm (bolsyBody 0x21 0 k n []))).sessionEnd k
    else
      let s := s.modSess k fun y => { y with deadline := s.timerNow + ticksOfS y.idle }
      if n = 0 ∨ n + 63 < h then s.bolsyDrop 4
      else if x.jobs.any (·.seq == n) then s.bolsyDrop 5
      else
        match x.cache.find? (·.1 == n) with
        | some c => s.reply m f (sealed x.kdm (patch c.2 4 [1]))
        | none =>
          let body := (f.payload.drop 16).take (f.payload.length - 32)
          let count := byteAt body 0
          match if 1 ≤ count ∧ count ≤ 16 then parseOps count (body.drop 4) else none with
          | none => s.bolsyDrop 1
          | some ops =>
            let h := max h n
            let s := (s.set (O.SESSION_HIGHEST k) h).modSess k fun y =>
              { y with jobs := y.jobs ++ [⟨m, f, n, ops, []⟩], cache := y.cache.filter fun c => decide (h ≤ c.1 + 63) }
            if x.jobs = [] then s.runSession k else s

/-- The checks of R54 and R66 on any frame that reaches the Bolsy port. A HELLO, an OPEN and a CLOSE whose payload is not
of 20, 40 or 0 bytes is malformed: DESIGN CHOICE, log 109. -/
def frameFits (b : List Byte) : Bool :=
  let t := byteAt b 3
  let n := beAt b 6 2
  let tag := if t = 1 then 0 else 16
  decide (16 ≤ b.length) && beAt b 0 2 == 0xB015 && byteAt b 2 == 1 && n % 4 == 0 && decide (n ≤ maxPayload) &&
  b.length == 16 + n + tag &&
  ((t == 1 && n == 20) || (t == 3 && n == 40) || (t == 0x10 && decide (4 ≤ n)) || (t == 0x20 && n == 0))

/-- A frame of the Bolsy port is acted on. -/
def State.bolsyTake (s : State) (m : Nat) (f : Udp) : State :=
  if !frameFits f.payload then s.bolsyDrop 1
  else
    match byteAt f.payload 3 with
    | 1 => s.hello m f
    | 3 => s.open_ m f
    | _ => s.request m f

/-- The address of management port `m`; 0 for none. -/
def State.mgmtAddr (s : State) (m : Nat) (v6 : Bool) : Nat :=
  if v6 then beNat ((s.getAll (O.IPV6_ADDR m) 16).map nb) else s.get (O.IPV4_ADDR m)

/-- The firmware has been started and a replacement or restart has stopped it for a time (R403). -/
def State.fwPaused (s : State) : Bool := s.sys.fw == .switching || s.sys.slateDown != []

/-- A UDP datagram arrives at a management port (R52, R53, R403, R430). -/
def State.bolsyFrame (s : State) (m : Nat) (f : Udp) : State :=
  if !s.flag (O.MGMT_ENABLE m) then s
  else if s.get (O.MGMT_MAC m) = 0 ∨ s.mgmtAddr m f.v6 = 0 ∨ f.dstAddr ≠ s.mgmtAddr m f.v6 ∨ f.dstPort ≠ s.get O.BOLSY_UDP_PORT ∨
      (s.sys.fw ≠ .running ∧ s.sys.fw ≠ .switching) then s.bolsyDrop 9
  else if s.fwPaused then
    if (s.dict.held.filter (·.1 == m)).length < 256 then { s with dict := { s.dict with held := s.dict.held ++ [(m, f)] } }
    else s.count64 O.FW_BOLSY_DROPS
  else s.bolsyTake m f

/-! ### Object windows (R49-R51) -/

def State.win (s : State) (w : Nat) : Win := s.dict.wins.getD w Win.reset
def State.putWin (s : State) (w : Nat) (x : Win) : State := { s with dict := { s.dict with wins := slots 4 s.win w x } }

/-- A write of a window register that is not BUSY; `wide` writes two words of OW_DATA. -/
def State.winWrite (s : State) (w off v : Nat) (wide : Bool) : State :=
  let x := s.win w
  if x.op.isSome then s.putWin w { x with overrun := true }
  else if 0x100 ≤ off ∧ off < 0x200 then
    s.putWin w { x with data := patch (padTo 256 x.data) (off - 0x100) (leBytes (if wide then 8 else 4) v) }
  else if off = 0x000 then s.putWin w { x with index := v / 65536 * 65536 + v % 256 }
  else if off = 0x004 then s.putWin w { x with inst := v % 2 ^ 24 }
  else if off = 0x008 then s.putWin w { x with offset := v }
  else if off = 0x00C then s.putWin w { x with length := v % 512 }
  else if off = 0x010 then
    let s := s.putWin w { x with overrun := false, op := some ⟨v % 16, v / 65536, bit v 8, false, none⟩ }
    { s with dict := { s.dict with winOrder := s.dict.winOrder ++ [w] } }
  else s

/-- A window operation reaches the dictionary. -/
def State.winExec (s : State) (w : Nat) : State :=
  let x := s.win w
  match x.op with
  | none => s
  | some o =>
    let r : Ref := ⟨x.index / 65536, x.inst, x.index % 256⟩
    let d := (padTo 512 x.data).take x.length
    let a := s.dictOp (.window (Fin.ofNat 4 w)) o.code r x.offset x.length d false
    a.2.putWin w { a.2.win w with op := some { o with sent := true, answer := a.1 } }

/-- Window operations reach the dictionary in the order of their OW_CMD writes, up to that of `w` (R50). -/
def State.winDrain (s : State) (w : Nat) : Nat → State
  | 0 => s
  | fuel + 1 =>
    match s.dict.winOrder with
    | [] => s
    | h :: rest =>
      let s := ({ s with dict := { s.dict with winOrder := rest } }).winExec h
      if h = w then s else s.winDrain w fuel

/-- An operation that returns data. -/
def returnsData (code : Nat) : Bool := [1, 2, 6, 7, 9, 10].contains code

/-- A window operation finishes (R50). -/
def State.winDone (s : State) (w : Nat) : State :=
  let s := match (s.win w).op with
    | some o => if o.sent then s else s.winDrain w 4
    | none => s
  let x := s.win w
  match x.op with
  | none => s
  | some o =>
    match o.answer with
    | none => s
    | some a =>
      let x : Win := if returnsData o.code then
        { x with length := a.2.length, data := patch (padTo 256 x.data) 0 a.2 } else x
      let s := s.putWin w { x with err := a.1, tag := o.tag, op := none }
      if o.irq then s.raise (0xBA0 + w) else s

/-- OW_OPERATION_DONE. -/
def execOwOperationDone (w : Window) (s : State) : Out := live s fun s => s.winDone w

/-! ### The answer of a COMMIT (R43) -/

/-- The path that asked for a COMMIT gets its answer; the startup image goes on with `next`. -/
def State.answered (next : State → Nat → State) (s : State) (a : Answer) : State :=
  if a.1.direct then s.emit (.answer a.1.path a.2.1 a.2.2)
  else
    match a.1.path with
    | .window w =>
      let x := s.win w
      match x.op with
      | some o => if o.sent && o.answer.isNone then s.putWin w { x with op := some { o with answer := some a.2 } } else s
      | none => s
    | .bolsy k =>
      match s.session? k with
      | some x =>
        match x.jobs with
        | j :: _ => (s.putJob k { j with done := j.done ++ [a.2] }).runSession k
        | [] => s
      | none => s
    | .startup => next s a.2.1
    | .slate => s

/-! ### Meanings -/

/-- HELLO (R57): the frame's type decides what the device does with it. -/
def execHello (m : MgmtPort) (f : Udp) (s : State) : Out := live s fun s => s.bolsyFrame m f
/-- OPEN (R57, R58). -/
def execOpen (m : MgmtPort) (f : Udp) (s : State) : Out := live s fun s => s.bolsyFrame m f
/-- BOLSY_REQUEST (R60). -/
def execBolsyRequest (m : MgmtPort) (f : Udp) (s : State) : Out := live s fun s => s.bolsyFrame m f
/-- BOLSY_CLOSE (R59). -/
def execBolsyClose (m : MgmtPort) (f : Udp) (s : State) : Out := live s fun s => s.bolsyFrame m f

/-- SESSION_IDLE_TIMEOUT (R59, R403, log 66). -/
def execSessionIdleTimeout (k : Session) (s : State) : Out := live s fun s =>
  match s.session? k with
  | some _ => if s.timersRun then s.sessionEnd k else s
  | none => s

/-- BOLSY_SECRET_ROLLOVER (R57). -/
def execBolsySecretRollover (s : State) : Out := live s fun s =>
  { s with free := s.free + 1, dict := { s.dict with secretOld := s.dict.secretNow, secretNow := s.free + 1 } }

end Sys2Proof.Machine
end

