-- ==== Sys2Proof/Machine/Paths.lean ====
section
/-!
DEFINITION. Sys2Proof/Machine/Paths.lean: the host's other ways in: table descriptors (R340), writes of BAR0 registers (R48, R49,
R319, R320, R369), resets of the host attachment (R345, R368), configuration requests and the link (R318, R350, R395).
-/
namespace Sys2Proof.Machine

/-! ### Table descriptors (R340) -/

/-- The object a table descriptor names (R329). -/
def tableRef (b : List Byte) : Ref := ⟨leAt b 12 2, leAt b 16 3, byteAt b 14⟩

/-- One operation of a table descriptor, as the host: the object it keeps busy does not refuse it (R39). -/
def State.asTable (s : State) (r : Ref) (f : State → Nat × List Byte × State) : Nat × List Byte × State :=
  let busy := s.dict.busyTabs
  let x := f { s with dict := { s.dict with busyTabs := busy.filter (· != r) } }
  (x.1, x.2.1, { x.2.2 with dict := { x.2.2.dict with busyTabs := busy } })

/-- The WRITE and the READ of a table descriptor; an array that the read meets says DMA in its report (R376). -/
def State.loadRow (s : State) (r : Ref) (off : Nat) (d : List Byte) : Nat × List Byte × State :=
  s.asTable r fun s => let x := s.writeOp (.window 0) r off d; (x.1, [], x.2)
def State.unloadRow (s : State) (r : Ref) (off len : Nat) : Nat × List Byte × State :=
  s.asTable r fun s => s.readOp (.window 0) false r off len 3

/-- Bytes a table descriptor moves at a time: a row of a TABLE, 256 of a BLOB, any other value whole. -/
def State.pieceOf (s : State) (r : Ref) (len : Nat) : Nat :=
  match objRow r.idx r.sub with
  | some o => match o.ty with
    | .table => max 1 (s.extent o r.inst).2
    | .blob => 256
    | _ => max 1 len
  | none => max 1 len

/-- Load rows in ascending order: the error that stopped it, the bytes moved, the state. -/
def State.loadRows (s : State) (r : Ref) (row : Nat) : Nat → Nat → List Byte → Nat × Nat × State
  | 0, _, _ => (Err.ok, 0, s)
  | n + 1, off, d =>
    if d = [] then (Err.ok, 0, s)
    else
      let x := s.loadRow r off (d.take row)
      if x.1 ≠ Err.ok then (x.1, 0, x.2.2)
      else
        let y := x.2.2.loadRows r row n (off + row) (d.drop row)
        (y.1, y.2.1 + min row d.length, y.2.2)

/-- Unload rows in ascending order: the error that stopped it, the bytes read, the state. -/
def State.unloadRows (s : State) (r : Ref) (row : Nat) : Nat → Nat → Nat → Nat × List Byte × State
  | 0, _, _ => (Err.ok, [], s)
  | n + 1, off, left =>
    if left = 0 then (Err.ok, [], s)
    else
      let k := min row left
      let x := s.unloadRow r off k
      if x.1 ≠ Err.ok then (x.1, [], x.2.2)
      else
        let y := x.2.2.unloadRows r row n (off + k) (left - k)
        (y.1, x.2.1.take k ++ y.2.1, y.2.2)

/-- A table descriptor is decided: code, bytes moved, bytes for the host (R331). -/
def State.tableDone (s : State) (c code moved : Nat) (out : List Byte) : State :=
  let s := s.modChan c fun x => { x with outb := out, fin := some ⟨leBytes 4 moved, code, b01 (code != 0)⟩ }
  (s.count64 (O.CH_COUNTS c 0x11) moved).finishDesc c

/-- The current table descriptor of a channel, of one operation. -/
def State.tableDesc (s : State) (c op : Nat) : Option Desc := (s.current c [3]).filter fun d => byteAt d.body 15 == op

/-- HOST_PAGE_MAP is never reached by a table channel (R322). -/
def isPageMap (r : Ref) : Bool := r == O.HOST_PAGE_MAP

/-- TABLE_LOAD_DESCRIPTOR. -/
def execTableLoadDescriptor (c : Channel) (s : State) : Out := live s fun s =>
  match s.tableDesc c 0 with
  | none => s
  | some d =>
    let r := tableRef d.body
    let n := leAt d.body 8 4
    if (s.chan c).fin.isSome then s.finishDesc c
    else if isPageMap r then s.tableDone c Err.state 0 []
    else if !s.dataIn c d.body then s.issueReads c 96
    else
      let x := s.loadRows r (s.pieceOf r n) n (leAt d.body 20 4) ((gathered (s.chan c).got).take n)
      x.2.2.tableDone c x.1 x.2.1 []

/-- TABLE_UNLOAD_DESCRIPTOR. -/
def execTableUnloadDescriptor (c : Channel) (s : State) : Out := live s fun s =>
  match s.tableDesc c 1 with
  | none => s
  | some d =>
    let r := tableRef d.body
    let n := leAt d.body 8 4
    if (s.chan c).fin.isSome then s.finishDesc c
    else if isPageMap r then s.tableDone c Err.state 0 []
    else
      let x := s.unloadRows r (s.pieceOf r n) n (leAt d.body 20 4) n
      x.2.2.tableDone c x.1 x.2.1.length x.2.1

/-- The error of operation records for an object that is no ENTRY_OP, or not the host's to write. -/
def State.recordsErr (s : State) (r : Ref) : Nat :=
  match s.locate false r with
  | (e, none) => e
  | _ => if isPageMap r then Err.state else if r ≠ O.ENTRY_OP r.inst then Err.type else if s.leasedAway (.window 0) 5 then Err.leased else Err.ok

/-- Feed records to the engine while it has room for them: it holds 64 beside the one it executes (R165). -/
def State.feedRecords (s : State) (c t total : Nat) (data : List Byte) : Nat → State
  | 0 => s
  | n + 1 =>
    let k := (s.chan c).done
    if total ≤ k ∨ 65 ≤ ((s.eng (s.decl t).partition).jobs).length then s
    else
      let s := s.modChan c fun x => { x with done := k + 1 }
      (s.engSubmit t (slice data (32 * k) 32) (some c)).feedRecords c t total data n

/-- TABLE_RECORDS_DESCRIPTOR: it ends once every result has been posted. -/
def execTableRecordsDescriptor (c : Channel) (s : State) : Out := live s fun s =>
  match s.tableDesc c 2 with
  | none => s
  | some d =>
    let r := tableRef d.body
    let n := leAt d.body 8 4
    let e := if (s.chan c).done = 0 then s.recordsErr r else Err.ok
    if (s.chan c).fin.isSome then s.finishDesc c
    else if e ≠ Err.ok then s.tableDone c e 0 []
    else if !s.dataIn c d.body then s.issueReads c 96
    else
      let s := s.feedRecords c r.inst (n / 32) ((gathered (s.chan c).got).take n) 65
      let res := (s.chan c).res
      if res.length < n / 32 * 32 then s
      else s.tableDone c (if n % 32 = 0 then Err.ok else Err.type) (n / 32 * 32) res

/-! ### BAR0 (R319) -/

/-- Write word `k` of the MSI-X table; of a vector control word only the mask bit is kept (R335, R357). -/
def State.msixWrite (s : State) (k v : Nat) : State :=
  let d := if k % 4 = 3 then 1 else 0
  let s : State := { s with host := { s.host with msix := putN d k (if k % 4 = 3 then v % 2 else v) s.host.msix } }
  s.flushMsix

/-- A register of an object window (R49). -/
def isWinReg (off : Nat) : Bool := decide (off < 0x18) || (decide (0x100 ≤ off) && decide (off < 0x200))

/-- A write of a window's register; 64 bits only in OW_DATA. -/
def State.winReg (s : State) (w off v : Nat) (wide : Bool) : State :=
  if !isWinReg off || (wide && decide (off < 0x100)) then s else s.winWrite w off v wide

/-- A write of a channel register (R320, R346). -/
def State.chanReg (s : State) (c off v : Nat) : State :=
  if off = 0x00 then s.chDoorbell c v
  else if off = 0x0C then s.chAck c v
  else if off = 0x10 then
    if !bit v 0 then s.chDisable c
    else
      let s := s.chEnableWrite c
      if bit v 1 then s.chResume c else s
  else if off = 0x18 then s.modChan c fun x => { x with chainLo := v }
  else if off = 0x1C then s.modChan c fun x => { x with chainHi := v % 2 ^ 16 }
  else s

/-- A write of an interrupt controller register (R365, R369). -/
def State.irqReg (s : State) (off v : Nat) : State :=
  let t := (off - 0x1000) / 0x20
  let k := off % 0x20
  if off = 0 then
    let n := v % 4096
    if isSoft n then s.event n else s.count64 O.DOORBELL_REFUSED
  else if 0x400 ≤ off ∧ off < 0x600 then s.writeMask ((off - 0x400) / 4) v
  else if 0x600 ≤ off ∧ off < 0x800 then s.writePending ((off - 0x600) / 4) v
  else if off < 0x1000 ∨ 64 ≤ t then s
  else if k = 0x04 then s.complete t (v % 4096)
  else if k = 0x10 ∧ bit v 0 = true then s.stackReset t
  else s

/-- A write at offset `off` of BAR0. -/
def State.barWrite (s : State) (off v : Nat) (wide : Bool) : State :=
  if off % (if wide then 8 else 4) ≠ 0 then s
  else if 0x20000 ≤ off ∧ off < 0x24000 then s.winReg ((off - 0x20000) / 0x1000) (off % 0x1000) v wide
  else if 0x40000 ≤ off ∧ off < 0x48000 then
    let k := (off - 0x40000) / 4
    let s := s.msixWrite k (v % m32)
    if wide then s.msixWrite (k + 1) (v / m32) else s
  else if wide then s
  else if off = 0x8000 then s.legacyDoorbell v
  else if 0x10000 ≤ off ∧ off < 0x20000 then s.irqReg (off - 0x10000) v
  else if 0x80000 ≤ off ∧ off < 0x88000 then s.chanReg ((off - 0x80000) / 0x40) (off % 0x40) v
  else s

/-- The answer to a BAR0 read. -/
def State.barAnswer (s : State) (v : Nat) : State := s.emit (.bar (some v))

/-- The answer to a read that the spec gives no value: a write-only register, or an access of a size or alignment that a
register does not take (log 4). -/
def State.barFree (s : State) (wide : Bool) : State :=
  let r := s.draw (if wide then 64 else 32)
  r.2.barAnswer r.1

/-- CH_STATUS (R320): the state, the draining bit, the last error. -/
def State.chStatus (s : State) (c : Nat) : Nat :=
  s.chSt c % 8 + 8 * b01 (s.chan c).draining + 256 * ((s.chan c).lastErr % 256)

/-- A channel register as it reads (R320); `none` for CH_DOORBELL. -/
def State.chanRead (s : State) (c off : Nat) : Option Nat :=
  let x := s.chan c
  match off with
  | 0x00 => none
  | 0x04 => some x.producer
  | 0x08 => some x.head
  | 0x0C => some x.ack
  | 0x10 => some (b01 (x.enabled || x.reEnable))
  | 0x14 => some (s.chStatus c)
  | 0x18 => some x.chainLo
  | 0x1C => some x.chainHi
  | _ => some 0

/-- OW_STATUS (R49). -/
def Win.status (x : Win) : Nat := b01 x.op.isSome + 2 * b01 x.overrun + 256 * (x.err % 256) + 65536 * x.tag

/-- A register of an object window as it reads (R49); `none` for OW_CMD. -/
def State.winRead (s : State) (w off : Nat) (wide : Bool) : Option Nat :=
  let x := s.win w
  if 0x100 ≤ off ∧ off < 0x200 then some (leAt (padTo 256 x.data) (off - 0x100) (if wide then 8 else 4))
  else match off with
    | 0x000 => some x.index
    | 0x004 => some x.inst
    | 0x008 => some x.offset
    | 0x00C => some x.length
    | 0x010 => none
    | 0x014 => some x.status
    | _ => some 0

/-- Word `k` of the MSI-X table: a vector control word is masked after a reset (R335, R357). -/
def State.msixWord (s : State) (k : Nat) : Nat := look (if k % 4 = 3 then 1 else 0) s.host.msix k

/-- Word `k` of the MSI-X pending bit array (R335). -/
def State.pbaWord (s : State) (k : Nat) : Nat :=
  sumL ((List.range 32).map fun b => if s.host.pba.contains (32 * k + b) then 2 ^ b else 0)

/-- A read of an interrupt controller register (R358, R362, R365, R366, R369): a claim claims, a pending word is noted. -/
def State.irqRead (s : State) (off : Nat) : State :=
  let t := (off - 0x1000) / 0x20
  if off = 0 then s.barFree false
  else if 0x400 ≤ off ∧ off < 0x600 then s.barAnswer (s.maskWord ((off - 0x400) / 4))
  else if 0x600 ≤ off ∧ off < 0x800 then
    let w := (off - 0x600) / 4
    (s.noteRead 8 w).barAnswer (s.pendingWord w)
  else if off < 0x1000 ∨ 64 ≤ t then s.barAnswer 0
  else match off % 0x20 with
    | 0x00 => s.claim t
    | 0x04 | 0x10 => s.barFree false
    | 0x08 => s.barAnswer (s.stackTop t)
    | 0x0C => s.barAnswer (s.targetStatus t)
    | _ => s.barAnswer 0

/-- An offset of BAR0 that no register, table or buffer takes (R49, R319, R320). -/
def barReserved (off : Nat) : Bool :=
  if 0x20000 ≤ off ∧ off < 0x24000 then !isWinReg (off % 0x1000)
  else if 0x80000 ≤ off ∧ off < 0x88000 then decide (0x20 ≤ off % 0x40)
  else !((decide (0x8000 ≤ off) && decide (off < 0x8004)) || (decide (0x10000 ≤ off) && decide (off < 0x20000)) ||
    (decide (0x40000 ≤ off) && decide (off < 0x48100)))

/-- A read at offset `off` of BAR0 (R319): a reserved range reads 0, whatever the access. -/
def State.barRead (s : State) (off : Nat) (wide : Bool) : State :=
  let free := fun (v : Option Nat) => match v with
    | some v => s.barAnswer v
    | none => s.barFree wide
  if barReserved off then s.barAnswer 0
  else if off % (if wide then 8 else 4) ≠ 0 then s.barFree wide
  else if 0x20000 ≤ off ∧ off < 0x24000 then
    let r := off % 0x1000
    if wide ∧ ¬ (0x100 ≤ r ∧ r < 0x200) then s.barFree true else free (s.winRead ((off - 0x20000) / 0x1000) r wide)
  else if 0x40000 ≤ off ∧ off < 0x48000 then
    let k := (off - 0x40000) / 4
    s.barAnswer (s.msixWord k + (if wide then s.msixWord (k + 1) * m32 else 0))
  else if wide then s.barFree true
  else if off = 0x8000 then s.barFree false
  else if 0x10000 ≤ off ∧ off < 0x20000 then s.irqRead (off - 0x10000)
  else if 0x48000 ≤ off ∧ off < 0x48100 then s.barAnswer (s.pbaWord ((off - 0x48000) / 4))
  else if 0x80000 ≤ off ∧ off < 0x88000 then free (s.chanRead ((off - 0x80000) / 0x40) (off % 0x40))
  else s.barAnswer 0

/-- REGISTER_WRITE (R49, R319): a write; the table has no row for a read of BAR0, so a read is this command too (DESIGN
CHOICE, log 105). In D3hot the function takes neither (log 103), and with STRAP_PCIE_OFF no host reaches it (R389). -/
def execRegisterWrite (off : Fin 1048576) (wide : Bool) (a : BarAccess) (s : State) : Out := live s fun s =>
  if !s.sys.initDone || !s.hostReaches || s.host.d3hot then s
  else
    match a with
    | .write v => s.barWrite off (if wide then v.toNat else v.toNat % m32) wide
    | .read => s.barRead off wide

/-! ### Resets of the host attachment (R51, R345, R368) -/

/-- A commit of a window that is reset goes on, and its answer goes nowhere (R51). -/
def Commit.unwindowed (c : Commit) : Commit :=
  match c.path with
  | .window _ => if c.direct then c else { c with path := .slate }
  | _ => c

/-- What every reset of the host attachment does; a function-level one keeps the payload size (log 18). -/
def State.hostReset (s : State) (flr : Bool) : State :=
  let s := s.dmaReset.irqHostReset
  let h : HostX := { s.host with
    msix := [], msixOn := false, msixMask := false, pba := [], relaxed := true,
    maxPay := if flr then s.host.maxPay else 128, maxRead := 512,
    tagsExt := false, tags10 := false, ecrcGen := false, ecrcChk := false, noTimeout := false, d3hot := false,
    bar := 0, cplRange := 0 }
  let d : Dict := { s.dict with
    commits := s.dict.commits.map Commit.unwindowed, wins := List.replicate 4 Win.reset, winOrder := [] }
  State.holderEnd { s with host := h, dict := d } 8

/-- The link is down. -/
def State.linkDown (s : State) : State :=
  ({ s with sys := { s.sys with pcieUp := false } }.set O.PCIE_SPEED 0).set O.PCIE_WIDTH 0

/-- The host attachment may train: arrays initialised, PCIE_PERST_N high, STRAP_PCIE_OFF clear (R389, R395). -/
def State.mayTrain (s : State) : Bool := s.sys.initDone && !s.sys.perst && s.hostReaches
def State.training (s : State) (b : Bool) : State := { s with host := { s.host with training := b } }

/-- PCIE_CONVENTIONAL_RESET: PCIE_PERST_N asserts (R388). -/
def execPcieConventionalReset (s : State) : Out := live s fun s =>
  if s.sys.perst then s
  else
    let s := ((s.hostReset false).linkDown).training false
    { s with sys := { s.sys with perst := true } }

/-- PCIE_HOT_RESET: the link trains again. -/
def execPcieHotReset (s : State) : Out := live s fun s =>
  let s := (s.hostReset false).linkDown
  s.training s.mayTrain

/-- FUNCTION_LEVEL_RESET: the link stays. -/
def execFunctionLevelReset (s : State) : Out := live s fun s => s.hostReset true

/-- PCIE_LINK_TRAINING_START: PCIE_PERST_N is high; before the arrays are initialised training waits for them (R395). -/
def execPcieLinkTrainingStart (s : State) : Out := live s fun s =>
  let s : State := { s with sys := { s.sys with perst := false } }
  s.training (s.mayTrain && !s.sys.pcieUp)

/-- PCIE_LINK_UP (R318, R350): speed code and lanes, no faster than PCIE_SPEED_LIMIT. -/
def execPcieLinkUp (speed : Fin 6) (width : Fin 17) (s : State) : Out := live s fun s =>
  if !s.host.training then s
  else
    let s := ((s.training false).set O.PCIE_SPEED (min speed.val (s.get O.PCIE_SPEED_LIMIT))).set O.PCIE_WIDTH width.val
    { s with sys := { s.sys with pcieUp := true } }

/-- A base address register as it reads (R318): BAR0 and BAR1 are one 64-bit, non-prefetchable memory range of 1 MiB;
BAR2 to BAR5 and the expansion ROM are absent and read 0. -/
def State.barWord (s : State) (n : Nat) : Nat :=
  match n with
  | 0 => s.host.bar % 2 ^ 32 + 4
  | 1 => s.host.bar / 2 ^ 32
  | _ => 0

/-- The base address after a write of one register: the 20 address bits within 1 MiB stay 0, which is how its size shows. -/
def barBase (bar n v : Nat) : Nat :=
  match n with
  | 0 => bar / 2 ^ 32 * 2 ^ 32 + v % 2 ^ 32 / 2 ^ 20 * 2 ^ 20
  | 1 => v % 2 ^ 32 * 2 ^ 32 + bar % 2 ^ 32
  | _ => bar

/-- Whether the function has a capability that the table of R318 decides: power management, MSI, PCI Express and MSI-X;
extended, AER, and those it names as not supported or not used. The numbers are PCI Express Base's (PRESUMED, log 103).
-/
def hasCapability (ext : Bool) (id : Nat) : Option Bool :=
  if ext then
    if id = 0x01 then some true
    else if [0x0F, 0x10, 0x13, 0x15, 0x17, 0x1B, 0x1E].contains id then some false
    else none
  else if [0x01, 0x10, 0x11].contains id then some true
  else if id = 0x05 then some false
  else none

/-- Bits written 1 clear in an AER status register. -/
def State.aerClear (s : State) (ue : Bool) (ones : Nat) : State :=
  let off := fun (v : Nat) => v - (v &&& ones)
  { s with host := if ue then { s.host with aerUe := off s.host.aerUe } else { s.host with aerCe := off s.host.aerCe } }

/-- CONFIG_REQUEST (R318, R357, R395). What the fields the spec does not name hold is a free value (log 4). -/
def execConfigRequest (q : CfgReq) (s : State) : Out := live s fun s =>
  if !s.sys.initDone || !s.hostReaches then s.emit (.bar none)
  else
    match q with
    | .msix en fm =>
      (State.flushMsix { s with host := { s.host with msixOn := en, msixMask := fm } }).emit (.bar (some 0))
    | .relaxedOrdering en => State.emit { s with host := { s.host with relaxed := en } } (.bar (some 0))
    | .maxPayload n => State.emit { s with host := { s.host with maxPay := 128 * 2 ^ n.val } } (.bar (some 0))
    | .maxReadRequest n => State.emit { s with host := { s.host with maxRead := 128 * 2 ^ n.val } } (.bar (some 0))
    | .tags ext ten => State.emit { s with host := { s.host with tagsExt := ext, tags10 := ten } } (.bar (some 0))
    | .errorControl gen chk off =>
      State.emit { s with host := { s.host with ecrcGen := gen, ecrcChk := chk, noTimeout := off } } (.bar (some 0))
    | .power d3 => (State.flushMsix { s with host := { s.host with d3hot := d3 } }).emit (.bar (some 0))
    | .readDeviceId => s.emit (.bar (some 0x2048))
    | .readClassCode => s.emit (.bar (some 0x028000))
    | .readHeaderType => s.emit (.bar (some 0))
    | .readBar n => s.barAnswer (s.barWord n)
    | .writeBar n v => State.emit { s with host := { s.host with bar := barBase s.host.bar n v.toNat } } (.bar (some 0))
    | .readInterruptPin => s.barAnswer 0
    | .capability ext id =>
      match hasCapability ext id.toNat with
      | some yes => s.barAnswer (b01 yes)
      | none => s.barFree false
    | .completionTimeout r => State.emit { s with host := { s.host with cplRange := r.val } } (.bar (some 0))
    | .readTimeoutRanges => s.barAnswer 0x1F
    | .readAer ue => s.barAnswer (if ue then s.host.aerUe else s.host.aerCe)
    | .clearAer ue ones => (s.aerClear ue ones.toNat).barAnswer 0
    | .other =>
      let r := s.draw 32
      r.2.emit (.bar (some r.1))

end Sys2Proof.Machine
end

