-- ==== Sys2Proof/Machine/Boot.lean ====
section
/-!
DEFINITION. Sys2Proof/Machine/Boot.lean: power and SYS_RESET_N (R386-R389), the boot ROM (R391, R392), the start of the firmware
and the startup image (R393, R394, R430), its replacement and restart (R402-R404), the ends of commits (R43, R44), and
the frames of a management port that are not Bolsy (R53).
-/
namespace Sys2Proof.Machine

/-! ### Power and reset (R33, R386-R389) -/

/-- What a store command had begun to write when power or reset cut it is no image any more (R404). -/
def State.flashAfter (s : State) : List (Nat × Nat) :=
  if s.cmdRunning O.FW_STORE then writeRegion (slotAt s.sys.storing) (zeros 4) s.sys.flash else s.sys.flash

/-- The whole device at its reset state; the flash, the fuses, the pins and what waits in the queue stay. -/
def State.cleared (s : State) (p : Power) (cause straps : Nat) : State :=
  let t := State.resetWith s.flashAfter
  let y : Sys := { t.sys with power := p, perst := s.sys.perst }
  let d : Dict := { t.dict with secretNow := s.free + 1, secretOld := s.free + 1 }
  let t : State := { t with pending := s.pending, free := s.free + 1, sys := y, dict := d }
  ((t.set O.FW_SVN_FUSED (s.get O.FW_SVN_FUSED)).set O.RESET_CAUSE cause).set O.STRAPS straps

/-- POWER_ON (R386): the supplies ramp with SYS_RESET_N asserted. -/
def execPowerOn (s : State) : Out := .next (if s.sys.power = .off then s.cleared .reset 0 0 else { s with out := [] })

/-- POWER_LOSS (R33). -/
def execPowerLoss (s : State) : Out := .next (if s.sys.power = .off then { s with out := [] } else s.cleared .off 0 0)

/-- SYS_RESET_ASSERT (R388). -/
def execSysResetAssert (s : State) : Out := .next (if s.sys.power = .run then s.cleared .reset 1 0 else { s with out := [] })

/-- SYS_RESET_RELEASE (R389): the rising edge latches the straps; the device comes up from it (R394). -/
def execSysResetRelease (straps : BitVec 4) (s : State) : Out :=
  .next (if s.sys.power = .reset then s.cleared .run (s.get O.RESET_CAUSE) straps.toNat else { s with out := [] })

/-! ### Boot ROM (R391, R392) -/

/-- The candidates among the slots, in the order the ROM tries them. -/
def State.bootOrder (s : State) : List Nat :=
  let h := fun k => s.flashRead (slotAt k) 256
  let cs := [0, 1].filter fun k => s.candidate (h k)
  let va := leAt (h 0) 4 4
  let vb := leAt (h 1) 4 4
  let bFirst := decide (va < vb) || (va == vb && bit (s.get O.STRAPS) 2)
  if bFirst then cs.reverse else cs

/-- Try candidates in order: the first sound image, and how many failed before it. -/
def State.tryBoot (s : State) : List Nat → Option Image × Nat
  | [] => (none, 0)
  | k :: r =>
    match s.checkImage k (slotAt k) s.sys.flash with
    | some i => (some i, 0)
    | none => let x := s.tryBoot r; (x.1, x.2 + 1)

/-- BOOT_ROM_VERIFY. -/
def execBootRomVerify (s : State) : Out := live s fun s =>
  if s.sys.fw ≠ .rom ∨ s.sys.initDone = false then s
  else
    let x := s.tryBoot s.bootOrder
    let s := s.set O.BOOT_FAILS x.2
    match x.1 with
    | some i => State.set { s with sys := { s.sys with image := some i, fw := .verified } } O.BOOT_STATE (1 + i.slot)
    | none => State.set { s with sys := { s.sys with fw := .noImage } } O.BOOT_STATE 3

/-! ### Startup image (R393) -/

/-- The records of a startup image from byte `at_`: the offset and the operation of each. A record that runs past the
end of the image has code 255. -/
def parseRecords : Nat → Nat → List Byte → List (Nat × BOp)
  | 0, _, _ => []
  | n + 1, at_, b =>
    let len := beAt b 2 2
    let step := 16 + (len + 3) / 4 * 4
    let op : BOp := ⟨byteAt b 0, ⟨beAt b 4 2, beAt b 9 3, byteAt b 6⟩, beAt b 12 4, len, slice b 16 len⟩
    if b.length < 16 ∨ b.length < step then [(at_, { op with code := 255 })]
    else (at_, op) :: parseRecords n (at_ + step) (b.drop step)

/-- The image ends: its status, and the groups it staged into that are left DIRTY are discarded, but for those of an area
that another holder leases (R63, log 27). -/
def State.startupEnd (s : State) (applied stage err at_ : Nat) : State :=
  let bytes := leBytes 4 applied ++ [nb err, nb stage, 0, 0] ++ leBytes 4 at_
  let s := s.setAll O.STARTUP_STATUS (bytes.map bn)
  let mine := (s.dict.startup.map (·.groups)).getD []
  let s : State := { s with dict := { s.dict with startup := none } }
  s.each (mine.filter fun g => s.groupSt g == gDirty && !s.leasedAway .startup (g / 16)) State.discardGroup

/-- Apply records in order until one fails, none is left, or a COMMIT answers later. -/
def State.startupGo (s : State) : Nat → State
  | 0 => s
  | n + 1 =>
    match s.dict.startup with
    | none => s
    | some x =>
      match x.todo with
      | [] => s.startupEnd x.applied 4 Err.ok 0
      | (at_, op) :: rest =>
        if op.code = 255 then s.startupEnd x.applied 3 Err.type at_
        else if !(decide (3 ≤ op.code) && decide (op.code ≤ 6)) then s.startupEnd x.applied 3 Err.range at_
        else
          let r := s.dictOp .startup op.code op.ref op.off op.len op.data false
          let put := fun (y : Startup) => ({ r.2 with dict := { r.2.dict with startup := some y } } : State)
          match r.1 with
          | none => put { x with at_ := at_ }
          | some a =>
            if a.1 ≠ Err.ok then r.2.startupEnd x.applied 3 a.1 at_
            else
              let own := if op.code = 4 then (groupOf op.ref).toList else []
              (put { x with todo := rest, applied := x.applied + 1, groups := own.foldl (fun l g => insNat g l) x.groups }).startupGo n

/-- The answer of a startup image's COMMIT. -/
def State.startupNext (s : State) (err : Nat) : State :=
  match s.dict.startup with
  | none => s
  | some x =>
    if err ≠ Err.ok then s.startupEnd x.applied 3 err x.at_
    else
      let y : Startup := { x with todo := x.todo.tail, applied := x.applied + 1 }
      State.startupGo { s with dict := { s.dict with startup := some y } } (y.todo.length + 1)

/-- Read and apply the active startup image. -/
def State.startupApply (s : State) : State :=
  if bit (s.get O.STRAPS) 1 then s.startupEnd 0 1 Err.ok 0
  else
    match s.startupActive.bind fun k => startupRecords (imageAt k) s.sys.flash with
    | none => s.startupEnd 0 2 Err.ok 0
    | some r =>
      let x : Startup := ⟨parseRecords r.1 16 r.2, 0, 0, []⟩
      State.startupGo { s with dict := { s.dict with startup := some x } } (x.todo.length + 1)

/-! ### The firmware starts (R394, R430) -/

/-- The device data region, if its CRC holds (R430). -/
def State.deviceData (s : State) : Option (List Byte) :=
  let b := s.flashRead 0x1000000 65536
  if crc32 (b.take 65532) = leAt b 65532 4 then some b else none

/-- MGMT_MAC and PORT_MAC from the device data; its layout is the maker's (log 4). -/
def State.loadMacs (s : State) : State :=
  match s.deviceData with
  | none => s
  | some b =>
    let mac := fun k => Config.deviceMac b k % 2 ^ 48
    let s := (s.set (O.MGMT_MAC 0) (mac 0)).set (O.MGMT_MAC 1) (mac 1)
    let s : State := { s with sys := { s.sys with macBase := some (mac 2) } }
    s.each (List.range 512) fun s p => s.set (O.PORT_MAC p) (s.portMac p)

/-- The firmware loads the lane microsequencers from its body: each bank's memory is written, and one that was lost runs
again (R383, R393, log 117). -/
def State.loadSeqs (s : State) : State :=
  let s : State := { s with sys := { s.sys with ucode := true, seqDown := [] } }
  s.each (List.range 8) fun s b =>
    let words := (s.faults.damage.filter (·.source == 0x60 + b)).map (·.addr)
    let asked := ((s.faults.armed.filter fun a => a.at_ == none && a.unit == unitId 7 b).map fun a => a.addr % 0xFFFFFFFF)
    s.each (words ++ asked).dedup fun s a => s.wordWritten (0x60 + b) (0x68 + b) (unitId 7 b) a

/-- Every lane whose mode is not off leaves OFF (R392, R394). -/
def State.startLanes (s : State) : State :=
  let s := s.loadSeqs
  s.each ((List.range 512).filter fun l => s.get (O.LANE_MODE l) != 0 && s.stage l == Stage.off) State.laneReconf

/-- Slate cores hear what waits for them (R357). -/
def State.coresReady (s : State) : State := s.each (List.range 4) State.slateReady

/-- The first image of this boot starts: the device data, the microsequencers, then the startup image. -/
def State.firmwareStart (s : State) : State :=
  let v := (s.sys.image.map (·.ver)).getD 0
  let s : State := { s with sys := { s.sys with fw := .running } }
  (((s.set O.FW_VERSION v).loadMacs).startLanes).coresReady.startupApply

/-- FIRMWARE_START. -/
def execFirmwareStart (s : State) : Out := live s fun s => if s.sys.fw = .verified then s.firmwareStart else s

/-! ### Replacement and restart (R402-R404) -/

/-- Timers that stood still since `pauseAt` go on (R403). -/
def State.resumeTimers (s : State) : State :=
  let k := s.now - s.sys.pauseAt
  let ss := s.dict.sessions.map fun (e : Nat × Sess) => (e.1, { e.2 with deadline := e.2.deadline + k })
  let ls := s.dict.leases.map fun (e : Nat × Nat) => (e.1, e.2 + k)
  { s with dict := { s.dict with sessions := ss, leases := ls } }

/-- Held Bolsy frames are answered, in arrival order (R403). -/
def State.takeHeld (s : State) : State :=
  let h := s.dict.held
  State.each { s with dict := { s.dict with held := [] } } h fun s e => s.bolsyTake e.1 e.2

/-- The firmware runs again, with image `i`. -/
def State.fwResume (s : State) (i : Image) : State :=
  let s := s.resumeTimers
  let s : State := { s with sys := { s.sys with fw := .running, slateDown := [], image := some i } }
  ((s.loadSeqs.set O.FW_VERSION i.ver).coresReady).takeHeld

/-- FW_READY: a new image, or restarted cores, report ready. -/
def execFwReady (s : State) : Out := live s fun s =>
  if s.sys.fw = .switching then
    match s.sys.waiting with
    | none => s
    | some i =>
      let first := s.sys.previous.isNone
      let s : State := { s with sys := { s.sys with waiting := none } }
      let s := ((s.set O.FW_STATE 0).set O.BOOT_STATE 4).cmdDone O.FW_ACTIVATE
      if first then State.firmwareStart { s.resumeTimers with sys := { s.sys with image := some i } } else s.fwResume i
  else if s.sys.fw = .running ∧ s.sys.slateDown ≠ [] then
    match s.sys.image with
    | some i => s.fwResume i
    | none => s
  else s

/-- FW_REVERT (R404, log 66): not ready within 1 s. Without a predecessor the cores are back in the boot ROM. -/
def execFwRevert (s : State) : Out := live s fun s =>
  if s.sys.fw ≠ .switching then s
  else
    let s := (s.set O.FW_STATE 3).cmdFail O.FW_ACTIVATE Err.state
    match s.sys.previous with
    | some i => s.fwResume i
    | none => { s.resumeTimers with sys := { s.sys with fw := .noImage } }

/-- SLATE_WATCHDOG_EXPIRE (R383): firmware silent for 100 ms. -/
def execSlateWatchdogExpire (k : Slate) (pc : BitVec 32) (s : State) : Out := live s fun s =>
  if !s.slateRuns k then s
  else (s.report (0xBB0 + k.val) (unitId 18 k) (detailS (leBytes 4 pc.toNat))).slateDown k

/-- SLATE_MEMORY_UE (R383). The address and syndrome of the word are the world's: free values (log 4). -/
def execSlateMemoryUe (k : Slate) (s : State) : Out := live s fun s =>
  if !s.slateRuns k then s
  else
    let a := s.draw 32
    a.2.seen (.slate k (BitVec.ofNat 32 a.1) .two)

/-! ### The ends of commits (R43, R44) -/

/-- The answer of a COMMIT goes to its path. -/
def State.deliverTo (x : Option Answer × State) : State :=
  match x.1 with
  | some a => x.2.answered State.startupNext a
  | none => x.2

/-- COMMIT_VALIDATION_DONE (R43). -/
def execCommitValidationDone (g : Fin 256) (s : State) : Out := live s fun s =>
  match s.commitIn .validating g with
  | some c => State.deliverTo (s.validated c)
  | none => s

/-- TILE_EPOCH_FLIP (R44). -/
def execTileEpochFlip (t : Tile) (g : Fin 256) (s : State) : Out := live s fun s =>
  match s.commitIn .flipping g with
  | some c => State.deliverTo (s.tileFlips t c)
  | none => s

/-! ### Other frames of a management port (R53, R430) -/

/-- A MAC address in its 6 network-order bytes. -/
def State.mgmtMac (s : State) (m : Nat) : List Byte := beBytes 6 (s.get (O.MGMT_MAC m))
def State.mgmtV6 (s : State) (m : Nat) : List Byte := (s.getAll (O.IPV6_ADDR m) 16).map nb

/-- Send an Ethernet frame of at least 60 bytes. -/
def State.mgmtSend (s : State) (m : Nat) (dst : List Byte) (type : Nat) (body : List Byte) : State :=
  s.emit (.mgmt m (padTo 60 (dst ++ s.mgmtMac m ++ beBytes 2 type ++ body)))

/-- The answer to an ARP request for the port's address (RFC 826, log 19). -/
def State.arpAnswer (s : State) (m : Nat) (b : List Byte) : Option (List Byte) :=
  let a := s.get (O.IPV4_ADDR m)
  if b.length < 28 ∨ b.take 8 ≠ [0, 1, 8, 0, 6, 4, 0, 1] ∨ a = 0 ∨ beAt b 24 4 ≠ a then none
  else some ([0, 1, 8, 0, 6, 4, 0, 2] ++ s.mgmtMac m ++ beBytes 4 a ++ slice b 8 10)

/-- The answer to an ICMP echo request over IPv4 (RFC 792, log 19): no fragment, sums right, for the port's address. -/
def State.echo4 (s : State) (m : Nat) (b : List Byte) : Option (List Byte) :=
  let a := s.get (O.IPV4_ADDR m)
  let hl := byteAt b 0 % 16 * 4
  let n := beAt b 2 2
  let icmp := slice b hl (n - hl)
  if byteAt b 0 / 16 ≠ 4 ∨ hl < 20 ∨ n < hl + 8 ∨ b.length < n ∨ beAt b 6 2 % 2 ^ 14 ≠ 0 ∨ byteAt b 9 ≠ 1 ∨ a = 0 ∨
      beAt b 16 4 ≠ a ∨ inetSum (b.take hl) ≠ 0 ∨ inetSum icmp ≠ 0 ∨ icmp.take 2 ≠ [8, 0] then none
  else
    let body := [0, 0, 0, 0] ++ icmp.drop 4
    let reply := patch body 2 (beBytes 2 (inetSum body))
    let head := [nb 0x45, 0] ++ beBytes 2 (20 + reply.length) ++ [0, 0, 0, 0, nb 64, 1, 0, 0] ++ beBytes 4 a ++ slice b 12 4
    some (patch head 10 (beBytes 2 (inetSum head)) ++ reply)

/-- An ICMPv6 message in its IPv6 header, with its sum (RFC 4443, log 19). -/
def icmp6 (hops : Nat) (src dst body : List Byte) : List Byte :=
  let z := patch body 2 [0, 0]
  let sum := inetSum (src ++ dst ++ beBytes 4 z.length ++ [0, 0, 0, nb 58] ++ z)
  [nb 0x60, 0, 0, 0] ++ beBytes 2 z.length ++ [nb 58, nb hops] ++ src ++ dst ++ patch z 2 (beBytes 2 sum)

/-- The answer to an ICMPv6 echo request, or to a neighbour solicitation for the port's address (RFC 4443, RFC 4861,
log 19). -/
def State.answer6 (s : State) (m : Nat) (b : List Byte) : Option (List Byte) :=
  let own := s.mgmtV6 m
  let n := beAt b 4 2
  let src := slice b 8 16
  let dst := slice b 24 16
  let msg := slice b 40 n
  let sumOk := inetSum (src ++ dst ++ beBytes 4 n ++ [0, 0, 0, nb 58] ++ msg) == 0
  let group := [nb 0xFF, 2] ++ zeros 9 ++ [1, nb 0xFF] ++ own.drop 13
  if byteAt b 0 / 16 ≠ 6 ∨ byteAt b 6 ≠ 58 ∨ b.length < 40 + n ∨ n < 8 ∨ own.all (· == 0) ∨ sumOk = false then none
  else if msg.take 2 = [nb 128, 0] ∧ dst = own then some (icmp6 64 own src ([nb 129, 0] ++ msg.drop 2))
  else if msg.take 2 = [nb 135, 0] ∧ byteAt b 7 = 255 ∧ 24 ≤ n ∧ slice msg 8 16 = own ∧ (dst = own ∨ dst = group) then
    let body := fun (flags : Nat) => [nb 136, 0, 0, 0, nb flags, 0, 0, 0] ++ own ++ [2, 1] ++ s.mgmtMac m
    if src.all (· == 0) then some (icmp6 255 own ([nb 0xFF, 2] ++ zeros 13 ++ [1]) (body 0x20))
    else some (icmp6 255 own src (body 0x60))
  else none

/-- Where the answer to a frame goes: its source, but all nodes for a solicitation from no address. -/
def mgmtDst (frame : List Byte) : List Byte :=
  if beAt frame 12 2 = 0x86DD ∧ (slice frame 22 16).all (· == 0) then [nb 0x33, nb 0x33, 0, 0, 0, 1] else slice frame 6 6

/-- The answer to a frame that is not Bolsy, of its EtherType. -/
def State.mgmtAnswer (s : State) (m : Nat) (frame : List Byte) : Option (List Byte) :=
  let b := frame.drop 14
  let dst := frame.take 6
  let own := dst == s.mgmtMac m
  if beAt frame 12 2 = 0x0806 ∧ (own ∨ dst = List.replicate 6 (nb 0xFF)) then s.arpAnswer m b
  else if beAt frame 12 2 = 0x0800 ∧ own then s.echo4 m b
  else if beAt frame 12 2 = 0x86DD ∧ (own ∨ dst = [nb 0x33, nb 0x33, nb 0xFF] ++ (s.mgmtV6 m).drop 13) then s.answer6 m b
  else none

/-- A frame that answers the device's own address resolution (R53): an ARP reply or a neighbour advertisement for it. What
the device asks and keeps is seen on the management segment alone (log 84). -/
def State.resolves (s : State) (m : Nat) (frame : List Byte) : Bool :=
  let b := frame.drop 14
  frame.take 6 == s.mgmtMac m &&
    ((beAt frame 12 2 == 0x0806 && b.take 8 == [0, 1, 8, 0, 6, 4, 0, 2] && s.get (O.IPV4_ADDR m) != 0 &&
        beAt b 24 4 == s.get (O.IPV4_ADDR m)) ||
     (beAt frame 12 2 == 0x86DD && byteAt b 6 == 58 && byteAt b 40 == 136 && slice b 24 16 == s.mgmtV6 m))

/-- MGMT_FRAME_RECEIVE: a frame without its FCS. The device answers while its firmware is being replaced, too: R403 holds
back Bolsy frames alone. -/
def execMgmtFrameReceive (m : MgmtPort) (bytes : List Byte) (s : State) : Out := live s fun s =>
  if !s.flag (O.MGMT_ENABLE m) then s
  else if s.get (O.MGMT_MAC m) = 0 ∨ (s.sys.fw ≠ .running ∧ s.sys.fw ≠ .switching) then s.bolsyDrop 9
  else
    match s.mgmtAnswer m bytes with
    | some b => s.mgmtSend m (mgmtDst bytes) (beAt bytes 12 2) b
    | none => if s.resolves m bytes then s else s.bolsyDrop 9

end Sys2Proof.Machine
end

