-- ==== Sys2Proof/Machine/Dispatch.lean ====
section
/-!
DEFINITION. Sys2Proof/Machine/Dispatch.lean: one arm per command, each one call of its meaning.
-/
namespace Sys2Proof.Machine

def exec (i : Instr) (s : State) : Host.Outcome State Fault Refusal :=
  match i with
  | .read p a off len => Sys2Proof.Machine.execRead p a off len s
  | .readStaged p a off len => Sys2Proof.Machine.execReadStaged p a off len s
  | .write p a off data => Sys2Proof.Machine.execWrite p a off data s
  | .writeStaged p a off data => Sys2Proof.Machine.execWriteStaged p a off data s
  | .discard p data => Sys2Proof.Machine.execDiscard p data s
  | .commit p bitmap => Sys2Proof.Machine.execCommit p bitmap s
  | .lease p data => Sys2Proof.Machine.execLease p data s
  | .release p data => Sys2Proof.Machine.execRelease p data s
  | .describe p a => Sys2Proof.Machine.execDescribe p a s
  | .echo p data => Sys2Proof.Machine.execEcho p data s
  | .commitValidationDone g => Sys2Proof.Machine.execCommitValidationDone g s
  | .tileEpochFlip t g => Sys2Proof.Machine.execTileEpochFlip t g s
  | .owOperationDone w => Sys2Proof.Machine.execOwOperationDone w s
  | .registerWrite off wide a => Sys2Proof.Machine.execRegisterWrite off wide a s
  | .hello m f => Sys2Proof.Machine.execHello m f s
  | .open_ m f => Sys2Proof.Machine.execOpen m f s
  | .bolsyRequest m f => Sys2Proof.Machine.execBolsyRequest m f s
  | .bolsyClose m f => Sys2Proof.Machine.execBolsyClose m f s
  | .sessionClose p n => Sys2Proof.Machine.execSessionClose p n s
  | .sessionIdleTimeout n => Sys2Proof.Machine.execSessionIdleTimeout n s
  | .leaseExpire area => Sys2Proof.Machine.execLeaseExpire area s
  | .bolsySecretRollover => Sys2Proof.Machine.execBolsySecretRollover s
  | .mgmtFrameReceive m bytes => Sys2Proof.Machine.execMgmtFrameReceive m bytes s
  | .refclkLoss n => Sys2Proof.Machine.execRefclkLoss n s
  | .refclkHealthy n => Sys2Proof.Machine.execRefclkHealthy n s
  | .txPllLock b => Sys2Proof.Machine.execTxPllLock b s
  | .losAssert l => Sys2Proof.Machine.execLosAssert l s
  | .losDeassert l => Sys2Proof.Machine.execLosDeassert l s
  | .trainingFrameReceive l x => Sys2Proof.Machine.execTrainingFrameReceive l x s
  | .trainPhaseBSwitch l => Sys2Proof.Machine.execTrainPhaseBSwitch l s
  | .trainComplete l => Sys2Proof.Machine.execTrainComplete l s
  | .trainTimeout l => Sys2Proof.Machine.execTrainTimeout l s
  | .markerLock x => Sys2Proof.Machine.execMarkerLock x s
  | .lockHoldComplete l skewPs => Sys2Proof.Machine.execLockHoldComplete l skewPs s
  | .lockTimeout l => Sys2Proof.Machine.execLockTimeout l s
  | .deskewFail p skews => Sys2Proof.Machine.execDeskewFail p skews s
  | .exchangeBlockReceive l caps => Sys2Proof.Machine.execExchangeBlockReceive l caps s
  | .exchangeTimeout l => Sys2Proof.Machine.execExchangeTimeout l s
  | .lockLoss l => Sys2Proof.Machine.execLockLoss l s
  | .partnerTrainingDetect l => Sys2Proof.Machine.execPartnerTrainingDetect l s
  | .retrain p l => Sys2Proof.Machine.execRetrain p l s
  | .adaptationFreeze x => Sys2Proof.Machine.execAdaptationFreeze x s
  | .adaptationThaw x => Sys2Proof.Machine.execAdaptationThaw x s
  | .eyeScan p l sel => Sys2Proof.Machine.execEyeScan p l sel s
  | .eyeScanDone l result => Sys2Proof.Machine.execEyeScanDone l result s
  | .ffeLoad p l taps => Sys2Proof.Machine.execFfeLoad p l taps s
  | .snrSupervision l snr => Sys2Proof.Machine.execSnrSupervision l snr s
  | .portUp p egressLead => Sys2Proof.Machine.execPortUp p egressLead s
  | .portLeaveUp p cause => Sys2Proof.Machine.execPortLeaveUp p cause s
  | .downHoldExpire p => Sys2Proof.Machine.execDownHoldExpire p s
  | .frameReceive p smd bytes => Sys2Proof.Machine.execFrameReceive p smd bytes s
  | .frameReceiveEnd p preemptable bytes rxError => Sys2Proof.Machine.execFrameReceiveEnd p preemptable bytes rxError s
  | .pauseFrameReceive p bytes => Sys2Proof.Machine.execPauseFrameReceive p bytes s
  | .pauseExpire p prio => Sys2Proof.Machine.execPauseExpire p prio s
  | .pfcRepeat p high => Sys2Proof.Machine.execPfcRepeat p high s
  | .pfcWatchdogTrip p prio => Sys2Proof.Machine.execPfcWatchdogTrip p prio s
  | .pfcRecoverExpire p prio => Sys2Proof.Machine.execPfcRecoverExpire p prio s
  | .fecDegradeWindow p bins uncorrectable symbols => Sys2Proof.Machine.execFecDegradeWindow p bins uncorrectable symbols s
  | .verifyRequestReceive p => Sys2Proof.Machine.execVerifyRequestReceive p s
  | .verifyResponseReceive p => Sys2Proof.Machine.execVerifyResponseReceive p s
  | .verifyTimeout p => Sys2Proof.Machine.execVerifyTimeout p s
  | .fragmentEnd p sent => Sys2Proof.Machine.execFragmentEnd p sent s
  | .gateGuardCut p data => Sys2Proof.Machine.execGateGuardCut p data s
  | .dispatchPoint p preemptable => Sys2Proof.Machine.execDispatchPoint p preemptable s
  | .coreDispatch t => Sys2Proof.Machine.execCoreDispatch t s
  | .arrivalStallEnd t c bytes cycles => Sys2Proof.Machine.execArrivalStallEnd t c bytes cycles s
  | .nop t c => Sys2Proof.Machine.execNop t c s
  | .add t c d a b => Sys2Proof.Machine.execAdd t c d a b s
  | .sub t c d a b => Sys2Proof.Machine.execSub t c d a b s
  | .and_ t c d a b => Sys2Proof.Machine.execAnd t c d a b s
  | .or_ t c d a b => Sys2Proof.Machine.execOr t c d a b s
  | .xor_ t c d a b => Sys2Proof.Machine.execXor t c d a b s
  | .shl t c d a b => Sys2Proof.Machine.execShl t c d a b s
  | .shr t c d a b => Sys2Proof.Machine.execShr t c d a b s
  | .movi t c d imm => Sys2Proof.Machine.execMovi t c d imm s
  | .movhi t c d imm => Sys2Proof.Machine.execMovhi t c d imm s
  | .addi t c d a imm => Sys2Proof.Machine.execAddi t c d a imm s
  | .andi t c d a imm => Sys2Proof.Machine.execAndi t c d a imm s
  | .ori t c d a imm => Sys2Proof.Machine.execOri t c d a imm s
  | .xori t c d a imm => Sys2Proof.Machine.execXori t c d a imm s
  | .shli t c d a amount => Sys2Proof.Machine.execShli t c d a amount s
  | .shri t c d a amount => Sys2Proof.Machine.execShri t c d a amount s
  | .ext t c d a pos lenM1 => Sys2Proof.Machine.execExt t c d a pos lenM1 s
  | .cmp t c a b => Sys2Proof.Machine.execCmp t c a b s
  | .cmpi t c a imm => Sys2Proof.Machine.execCmpi t c a imm s
  | .ldb t c d addr => Sys2Proof.Machine.execLdb t c d addr s
  | .ldh t c d addr => Sys2Proof.Machine.execLdh t c d addr s
  | .ldw t c d addr => Sys2Proof.Machine.execLdw t c d addr s
  | .ldc t c d size off => Sys2Proof.Machine.execLdc t c d size off s
  | .stc t c r size off => Sys2Proof.Machine.execStc t c r size off s
  | .bcc t c cond target => Sys2Proof.Machine.execBcc t c cond target s
  | .call t c target => Sys2Proof.Machine.execCall t c target s
  | .ret t c => Sys2Proof.Machine.execRet t c s
  | .jr t c a => Sys2Proof.Machine.execJr t c a s
  | .hsy4 t c d a => Sys2Proof.Machine.execHsy4 t c d a s
  | .hsy6 t c d a => Sys2Proof.Machine.execHsy6 t c d a s
  | .hash t c d a nM1 => Sys2Proof.Machine.execHash t c d a nM1 s
  | .amb t c start stop mask => Sys2Proof.Machine.execAmb t c start stop mask s
  | .amw t c d => Sys2Proof.Machine.execAmw t c d s
  | .amberScanDone t c queueStall => Sys2Proof.Machine.execAmberScanDone t c queueStall s
  | .mfs t c d n => Sys2Proof.Machine.execMfs t c d n s
  | .drop t c code => Sys2Proof.Machine.execDrop t c code s
  | .end_ t c => Sys2Proof.Machine.execEnd t c s
  | .budgetOverrun t c => Sys2Proof.Machine.execBudgetOverrun t c s
  | .reorderHandoff t c waited => Sys2Proof.Machine.execReorderHandoff t c waited s
  | .pmemScrub t row found => Sys2Proof.Machine.execPmemScrub t row found s
  | .amberScrub t image row found => Sys2Proof.Machine.execAmberScrub t image row found s
  | .matchStart t p => Sys2Proof.Machine.execMatchStart t p s
  | .learnSighting => Sys2Proof.Machine.execLearnSighting s
  | .enqueue t p => Sys2Proof.Machine.execEnqueue t p s
  | .insert p n flags key action => Sys2Proof.Machine.execInsert p n flags key action s
  | .replace p n flags key action => Sys2Proof.Machine.execReplace p n flags key action s
  | .delete p n key => Sys2Proof.Machine.execDelete p n key s
  | .entryRead p n plen key => Sys2Proof.Machine.execEntryRead p n plen key s
  | .probe p n key => Sys2Proof.Machine.execProbe p n key s
  | .prefixInsert p n flags plen addr action => Sys2Proof.Machine.execPrefixInsert p n flags plen addr action s
  | .prefixDelete p n plen addr => Sys2Proof.Machine.execPrefixDelete p n plen addr s
  | .entryOpComplete n => Sys2Proof.Machine.execEntryOpComplete n s
  | .stashWaitEnd x clocks => Sys2Proof.Machine.execStashWaitEnd x clocks s
  | .stashRelease x => Sys2Proof.Machine.execStashRelease x s
  | .ageTick n => Sys2Proof.Machine.execAgeTick n s
  | .ageScan n => Sys2Proof.Machine.execAgeScan n s
  | .ageDelete n => Sys2Proof.Machine.execAgeDelete n s
  | .ageRefresh x => Sys2Proof.Machine.execAgeRefresh x s
  | .mamScrub t row found => Sys2Proof.Machine.execMamScrub t row found s
  | .mamEntryRepair t row => Sys2Proof.Machine.execMamEntryRepair t row s
  | .tableStoreScrub x bucket slot found => Sys2Proof.Machine.execTableStoreScrub x bucket slot found s
  | .levelEntryRebuild bucket slot => Sys2Proof.Machine.execLevelEntryRebuild bucket slot s
  | .cacheFlush p => Sys2Proof.Machine.execCacheFlush p s
  | .tokenRelease hw tok sender => Sys2Proof.Machine.execTokenRelease hw tok sender s
  | .cellReturnDone h => Sys2Proof.Machine.execCellReturnDone h s
  | .holderAdd hw tok m => Sys2Proof.Machine.execHolderAdd hw tok m s
  | .descriptorRead p data => Sys2Proof.Machine.execDescriptorRead p data s
  | .orphanSweep p => Sys2Proof.Machine.execOrphanSweep p s
  | .orphanSweepTimeout => Sys2Proof.Machine.execOrphanSweepTimeout s
  | .cellScrub c found => Sys2Proof.Machine.execCellScrub c found s
  | .descriptorScrub w found => Sys2Proof.Machine.execDescriptorScrub w found s
  | .bankIsolate p k => Sys2Proof.Machine.execBankIsolate p k s
  | .remapCell k => Sys2Proof.Machine.execRemapCell k s
  | .bankRemapDone k => Sys2Proof.Machine.execBankRemapDone k s
  | .bankRestore p k => Sys2Proof.Machine.execBankRestore p k s
  | .bankRestoreDone k pass => Sys2Proof.Machine.execBankRestoreDone k pass s
  | .snapshot p => Sys2Proof.Machine.execSnapshot p s
  | .pick p preemptable => Sys2Proof.Machine.execPick p preemptable s
  | .transmitEnd p preemptable => Sys2Proof.Machine.execTransmitEnd p preemptable s
  | .shaperTick => Sys2Proof.Machine.execShaperTick s
  | .policerRefresh x => Sys2Proof.Machine.execPolicerRefresh x s
  | .gateListStart p => Sys2Proof.Machine.execGateListStart p s
  | .gateEntryStart p => Sys2Proof.Machine.execGateEntryStart p s
  | .launchWindowMiss p q => Sys2Proof.Machine.execLaunchWindowMiss p q s
  | .residenceCheck q => Sys2Proof.Machine.execResidenceCheck q s
  | .timeRefLoss freqErr => Sys2Proof.Machine.execTimeRefLoss freqErr s
  | .timeRefRecover freqErr => Sys2Proof.Machine.execTimeRefRecover freqErr s
  | .timeRefRampDone => Sys2Proof.Machine.execTimeRefRampDone s
  | .tbSet p n data => Sys2Proof.Machine.execTbSet p n data s
  | .tbAdjust p n data => Sys2Proof.Machine.execTbAdjust p n data s
  | .tbRearmArm p n => Sys2Proof.Machine.execTbRearmArm p n s
  | .tbRearmTrack p n => Sys2Proof.Machine.execTbRearmTrack p n s
  | .slewComplete n => Sys2Proof.Machine.execSlewComplete n s
  | .ppsInEdge => Sys2Proof.Machine.execPpsInEdge s
  | .ppsInLoss => Sys2Proof.Machine.execPpsInLoss s
  | .ppsOutEdge n => Sys2Proof.Machine.execPpsOutEdge n s
  | .ppsOutPulseEnd n => Sys2Proof.Machine.execPpsOutPulseEnd n s
  | .servoMeasure n => Sys2Proof.Machine.execServoMeasure n s
  | .timeSnapshot p => Sys2Proof.Machine.execTimeSnapshot p s
  | .portSnapshot p port => Sys2Proof.Machine.execPortSnapshot p port s
  | .matrixSwap p => Sys2Proof.Machine.execMatrixSwap p s
  | .matrixSwapDone => Sys2Proof.Machine.execMatrixSwapDone s
  | .matrixClear p => Sys2Proof.Machine.execMatrixClear p s
  | .matrixClearDone => Sys2Proof.Machine.execMatrixClearDone s
  | .flowScan set => Sys2Proof.Machine.execFlowScan set s
  | .flowFlush p => Sys2Proof.Machine.execFlowFlush p s
  | .exportFlushTimeout learn => Sys2Proof.Machine.execExportFlushTimeout learn s
  | .ipfixTemplateTimer => Sys2Proof.Machine.execIpfixTemplateTimer s
  | .postcardFlushTimeout t => Sys2Proof.Machine.execPostcardFlushTimeout t s
  | .counterScrub addr flow found => Sys2Proof.Machine.execCounterScrub addr flow found s
  | .chDoorbell c v => Sys2Proof.Machine.execChDoorbell c v s
  | .chCmplAck c v => Sys2Proof.Machine.execChCmplAck c v s
  | .channelEnable c => Sys2Proof.Machine.execChannelEnable c s
  | .channelDisable c => Sys2Proof.Machine.execChannelDisable c s
  | .channelResume c => Sys2Proof.Machine.execChannelResume c s
  | .channelDrainEnd c => Sys2Proof.Machine.execChannelDrainEnd c s
  | .descriptorPrefetch c => Sys2Proof.Machine.execDescriptorPrefetch c s
  | .engineChannelPick e => Sys2Proof.Machine.execEngineChannelPick e s
  | .packetToHostDescriptor c => Sys2Proof.Machine.execPacketToHostDescriptor c s
  | .hostToPacketDescriptor c => Sys2Proof.Machine.execHostToPacketDescriptor c s
  | .tableLoadDescriptor c => Sys2Proof.Machine.execTableLoadDescriptor c s
  | .tableUnloadDescriptor c => Sys2Proof.Machine.execTableUnloadDescriptor c s
  | .tableRecordsDescriptor c => Sys2Proof.Machine.execTableRecordsDescriptor c s
  | .exportDescriptor c => Sys2Proof.Machine.execExportDescriptor c s
  | .copyDescriptor c => Sys2Proof.Machine.execCopyDescriptor c s
  | .linkDescriptor c => Sys2Proof.Machine.execLinkDescriptor c s
  | .endDescriptor c => Sys2Proof.Machine.execEndDescriptor c s
  | .pcieReadCompletion tag data => Sys2Proof.Machine.execPcieReadCompletion tag data s
  | .busError tag kind => Sys2Proof.Machine.execBusError tag kind s
  | .notifyTimeout c => Sys2Proof.Machine.execNotifyTimeout c s
  | .engineRestart p e => Sys2Proof.Machine.execEngineRestart p e s
  | .engineRestartDone e => Sys2Proof.Machine.execEngineRestartDone e s
  | .pmFence p => Sys2Proof.Machine.execPmFence p s
  | .pmFenceDone => Sys2Proof.Machine.execPmFenceDone s
  | .legacyDoorbell v => Sys2Proof.Machine.execLegacyDoorbell v s
  | .pcieConventionalReset => Sys2Proof.Machine.execPcieConventionalReset s
  | .pcieHotReset => Sys2Proof.Machine.execPcieHotReset s
  | .functionLevelReset => Sys2Proof.Machine.execFunctionLevelReset s
  | .pcieLinkTrainingStart => Sys2Proof.Machine.execPcieLinkTrainingStart s
  | .configRequest q => Sys2Proof.Machine.execConfigRequest q s
  | .msixDeliverable t => Sys2Proof.Machine.execMsixDeliverable t s
  | .sourceDoorbell => Sys2Proof.Machine.execSourceDoorbell s
  | .irqDoorbell v => Sys2Proof.Machine.execIrqDoorbell v s
  | .irqRaise p v => Sys2Proof.Machine.execIrqRaise p v s
  | .deliveryMessage t => Sys2Proof.Machine.execDeliveryMessage t s
  | .irqClaim t => Sys2Proof.Machine.execIrqClaim t s
  | .irqComplete t v => Sys2Proof.Machine.execIrqComplete t v s
  | .irqStackReset t v => Sys2Proof.Machine.execIrqStackReset t v s
  | .stackReset p t => Sys2Proof.Machine.execStackReset p t s
  | .irqMaskWrite w v => Sys2Proof.Machine.execIrqMaskWrite w v s
  | .irqPendingWrite w v => Sys2Proof.Machine.execIrqPendingWrite w v s
  | .irqPendingRead w => Sys2Proof.Machine.execIrqPendingRead w s
  | .srcWithdraw p n => Sys2Proof.Machine.execSrcWithdraw p n s
  | .deliveryTimeout n => Sys2Proof.Machine.execDeliveryTimeout n s
  | .faultReport seen => Sys2Proof.Machine.execFaultReport s seen
  | .recordPublish => Sys2Proof.Machine.execRecordPublish s
  | .faultWindowExpire n => Sys2Proof.Machine.execFaultWindowExpire n s
  | .reactionTimeout n => Sys2Proof.Machine.execReactionTimeout n s
  | .quietExpire n => Sys2Proof.Machine.execQuietExpire n s
  | .faultAck p n => Sys2Proof.Machine.execFaultAck p n s
  | .faultInjectEccSingle p n unit addr => Sys2Proof.Machine.execFaultInjectEccSingle p n unit addr s
  | .faultInjectEccDouble p n unit addr => Sys2Proof.Machine.execFaultInjectEccDouble p n unit addr s
  | .faultInjectParity p n unit addr => Sys2Proof.Machine.execFaultInjectParity p n unit addr s
  | .faultInjectReport p n unit addr => Sys2Proof.Machine.execFaultInjectReport p n unit addr s
  | .powerOn => Sys2Proof.Machine.execPowerOn s
  | .powerLoss => Sys2Proof.Machine.execPowerLoss s
  | .sysResetAssert => Sys2Proof.Machine.execSysResetAssert s
  | .sysResetRelease straps => Sys2Proof.Machine.execSysResetRelease straps s
  | .arrayInitDone fusedMv => Sys2Proof.Machine.execArrayInitDone fusedMv s
  | .bootRomVerify => Sys2Proof.Machine.execBootRomVerify s
  | .firmwareStart => Sys2Proof.Machine.execFirmwareStart s
  | .avsStep targetMv => Sys2Proof.Machine.execAvsStep targetMv s
  | .avsTimeout => Sys2Proof.Machine.execAvsTimeout s
  | .tileReload p t => Sys2Proof.Machine.execTileReload p t s
  | .tilePale t => Sys2Proof.Machine.execTilePale t s
  | .fwVerify p => Sys2Proof.Machine.execFwVerify p s
  | .fwActivate p => Sys2Proof.Machine.execFwActivate p s
  | .fwReady => Sys2Proof.Machine.execFwReady s
  | .fwRevert => Sys2Proof.Machine.execFwRevert s
  | .fwStore p data => Sys2Proof.Machine.execFwStore p data s
  | .startupStore p => Sys2Proof.Machine.execStartupStore p s
  | .slateWatchdogExpire n pc => Sys2Proof.Machine.execSlateWatchdogExpire n pc s
  | .tempSample n sixteenths => Sys2Proof.Machine.execTempSample n sixteenths s
  | .twXfer p n data => Sys2Proof.Machine.execTwXfer p n data s
  | .twXferDone n cause recovered written data => Sys2Proof.Machine.execTwXferDone n cause recovered written data s
  | .mdioRead p j clause45 port dev => Sys2Proof.Machine.execMdioRead p j clause45 port dev s
  | .mdioWrite p j clause45 port dev v => Sys2Proof.Machine.execMdioWrite p j clause45 port dev v s
  | .mdioAddress p j port dev v => Sys2Proof.Machine.execMdioAddress p j port dev v s
  | .mdioReadIncrement p j port dev => Sys2Proof.Machine.execMdioReadIncrement p j port dev s
  | .mdioXferDone j answer => Sys2Proof.Machine.execMdioXferDone j answer s
  | .diagUnlock p data => Sys2Proof.Machine.execDiagUnlock p data s
  | .dieToDieLinkLoss b linkLanes => Sys2Proof.Machine.execDieToDieLinkLoss b linkLanes s
  | .orphanSweepDone => Sys2Proof.Machine.execOrphanSweepDone s
  | .fwStoreDone => Sys2Proof.Machine.execFwStoreDone s
  | .startupStoreDone => Sys2Proof.Machine.execStartupStoreDone s
  | .slateMemoryUe n => Sys2Proof.Machine.execSlateMemoryUe n s
  | .pcieLinkUp speed width => Sys2Proof.Machine.execPcieLinkUp speed width s

end Sys2Proof.Machine
end

