-- ==== Sys2Proof/Machine/Step.lean ====
section
/-!
DEFINITION. Sys2Proof/Machine/Step.lean: one step of the block: the command at the front of the queue runs; with an
empty queue one tick of the 1.25 GHz time clock passes.
-/
namespace Sys2Proof.Machine

/-- One step. On an empty queue the device idles for one tick of its time domain (R260, log 12). -/
def step (s : State) : Host.Outcome State Fault Refusal :=
  match s.pending with
  | [] => live s State.timeTick
  | c :: rest => exec c { s with pending := rest }

/-- The command a table word spells, put at the front of the queue; the opcode table gives no row any bits, so no word
spells one. -/
def State.withFetchWord (s : State) (nbits w : Nat) : State :=
  match Sys2Proof.decodeTableWord nbits w with
  | some c => { s with pending := c :: s.pending }
  | none => s

end Sys2Proof.Machine
end

