-- ==== Sys2Proof/Safety.lean ====
section
/-!
DEFINITION. Sys2Proof/Safety.lean: what counts as a good state, and the conditions and results statements name.
-/
namespace Sys2Proof

open Sys2Proof.Machine

/-! ### Good states -/

/-- A list of elements stands in its canonical form: keys rise, and no entry equals what its key reads as unlisted. -/
def objsCanonical (m : List (OKey × Nat)) : Bool :=
  rising ltKey m && m.all fun e => e.2 != objDefault e.1

/-- Every waiting command is well formed. -/
abbrev Waiting (s : State) : Prop := ∀ c ∈ s.pending, c.wf = true

/-- The device is powered and out of reset (R386). -/
abbrev Runs (s : State) : Prop := s.sys.power = .run

/-- Every object is at its default but the straps, the reset cause and the fused security version, and every block is at
its reset state (R388). -/
def Cleared (s : State) : Prop :=
  s.sys.initDone = false ∧ s.sys.fw = .rom ∧ s.sys.pcieUp = false ∧
  s.lanes = [] ∧ s.ports = [] ∧ s.gates = [] ∧ s.cores = [] ∧ s.tiles = [] ∧ s.buckets = [] ∧
  s.lookup = Lookup.reset ∧ s.buf = Buffer.reset ∧ s.time = TimeX.reset ∧ s.ledger = Ledger.reset ∧
  s.host = HostX.reset ∧ s.irq = Irq.reset ∧ s.faults = Faults.reset ∧
  ∀ r e, r ≠ O.RESET_CAUSE → r ≠ O.STRAPS → r ≠ O.FW_SVN_FUSED → s.get r e = objDefault ⟨r, e⟩

/-- A good state: its waiting commands are well formed, and while the device has no power or is in reset it stands cleared
(R33, R388). -/
def Good (s : State) : Prop := Waiting s ∧ (s.sys.power ≠ .run → Cleared s)

/-- The command answers a next state, and `P` holds of it. -/
def Does (i : Instr) (s : State) (P : State → Prop) : Prop := ∃ t, exec i s = .next t ∧ P t

/-- The state as a command finds it: the outputs of the command before it are gone. -/
abbrev fresh (s : State) : State := { s with out := [] }

/-- What a command leaves once its effect has made `u` of state `s`: the queue stays as it was, and the device stays
powered and out of reset (R33). -/
def ran (s u : State) : State := { u with pending := s.pending, sys := { u.sys with power := .run } }

/-! ### Ochre cores (R128, R132, R138-R141) -/

/-- Core `c` of tile `t` works as `x` on packet `p`; it can issue, its program counter lies in the program, the word there
is undamaged and holds `i`. -/
abbrev Issues (s : State) (t : Tile) (c : Core) (i : Instr) (x : CoreX) (p : Pkt) : Prop :=
  Runs s ∧ s.core? t c = some x ∧ s.pkt? x.fid = some p ∧ x.ready = true ∧
  x.pc < s.getP p.applied (O.PROGRAM_LENGTH t) ∧ s.damaged (0x220 + t) x.pc = none ∧
  ochreDecode t c (s.get (O.PROGRAM t) x.pc) = some i

/-- The instruction issues and its charge stays below the packet's budget (R141). -/
abbrev Affords (s : State) (t : Tile) (c : Core) (i : Instr) (x : CoreX) (p : Pkt) (cost : Nat) : Prop :=
  Issues s t c i x p ∧ x.charged + cost < s.budget t p

/-- Only core `c` of tile `t` changes, to `y`, with its packet, to `p`. -/
def coreStep (s : State) (t : Tile) (c : Core) (p : Pkt) (y : CoreX) : State := ((fresh s).putPkt p).putCore t c y

/-- A core after an instruction that writes word `d` at a charge: the word modulo 2^32, the next instruction. -/
def wrote (x : CoreX) (d : WReg) (v cost : Nat) : CoreX :=
  { x with w := x.w.set d.val (v % 2 ^ 32), pc := (x.pc + 1) % 2 ^ 14, charged := x.charged + cost }

/-- A core after an instruction that writes no word. -/
def passed (x : CoreX) (pc cost : Nat) : CoreX := { x with pc := pc, charged := x.charged + cost }

/-- The window byte at an offset once it is there: 0 beyond the frame's end, and at or beyond the fragment horizon while F
is set (R131). -/
def windowAt (p : Pkt) (x : CoreX) (i : Nat) : Nat := if x.f = true ∧ x.horizon ≤ i then 0 else byteAt p.bytes i

/-- None of the `n` window bytes from `i` keeps core `x` waiting: each has arrived, or lies at or beyond the fragment
horizon while F is set, or the frame has ended (R131, R133). -/
abbrev Arrived (p : Pkt) (x : CoreX) (i n : Nat) : Prop :=
  ∀ j, i ≤ j → j < i + n → (x.f = true ∧ x.horizon ≤ j) ∨ p.ended = true ∨ j < p.bytes.length

/-- The address of a window load (R135). -/
def loadAt (x : CoreX) (m : WinAddr) : Nat := (if m.based then x.reg m.a else 0) + m.off.toNat

/-- The report of a memory check's finding by a scrubber: its syndrome is a free value (R376, log 4). -/
def scrubReport (s : State) (src unit addr bits : Nat) : Report :=
  ⟨src, unit, unit, detailM addr (Config.freeNat s.free % 2 ^ 16) 2 bits, false⟩

/-! ### The dictionary (R34-R47) -/

/-- The device runs, and path `p` reaches its dictionary: it answers from the end of array initialisation (R394), a
window only where STRAP_PCIE_OFF is clear (R389). -/
abbrev Ready (s : State) (p : Path) : Prop := Runs s ∧ s.pathOpen p = true

/-- The state after a dictionary operation that is answered with error `e` and no data, its effect being `u`. -/
def answers (s : State) (p : Path) (e : Nat) (u : State) : State := ran s (u.emit (.answer p e []))

/-- A refused operation: answered with error `e`, nothing else changes (R34). -/
def refused (s : State) (p : Path) (e : Nat) : State := { fresh s with out := [.answer p e []] }

/-- A row of a number: not a BLOB, TABLE, STRING or CMD, and not the sub-index 00 that holds the highest sub-index. -/
def isNumber (o : ObjRow) : Bool :=
  [OType.u8, .u16, .u32, .u64, .i32, .bool, .enum, .bits32, .time96].contains o.ty && !o.isHighest &&
  !(o.idx == 0x5003 && o.subLo == 2)

/-- An operation on `a` finds its row. -/
abbrev Finds (s : State) (staged : Bool) (a : Ref) (o : ObjRow) : Prop := s.locate staged a = (Err.ok, some o)

/-- The command object `r` takes a write from path `p`: it is not running, no DMA operation uses it, and no other holder
leases its area (R40, R63, R340). -/
abbrev Takes (s : State) (p : Path) (r : Ref) : Prop :=
  Ready s p ∧ s.leasedAway p (r.idx / 4096) = false ∧ s.dict.busyTabs.contains r = false ∧ s.cmdRunning r = false

/-- A datagram for the device's Bolsy port, with the firmware at work and its frame well formed, of type `type`
(R52-R54, R66). -/
abbrev BolsyComes (s : State) (m : MgmtPort) (f : Udp) (type : Nat) : Prop :=
  Runs s ∧ s.flag (O.MGMT_ENABLE m) = true ∧ s.get (O.MGMT_MAC m) ≠ 0 ∧ s.mgmtAddr m f.v6 ≠ 0 ∧
  f.dstAddr = s.mgmtAddr m f.v6 ∧ f.dstPort = s.get O.BOLSY_UDP_PORT ∧ s.sys.fw = .running ∧ s.sys.slateDown = [] ∧
  frameFits f.payload = true ∧ byteAt f.payload 3 = type

/-! ### Longest prefix (R176) -/

/-- The level entries of table `n` stand as R176 has them for its prefixes, which are well formed: the array of each
range of address bits that the walk can reach gives, for each range within it, a pointer where a longer prefix lies
under it and the best match else. -/
def TrieHolds (s : State) (n : Nat) (d : Decl) : Prop :=
  (∀ x ∈ s.recsOf n, x.len ≤ d.hi d.cum.length ∧ x.addr < 2 ^ d.width ∧ x.action < 2 ^ 24) ∧
  ∀ k r a i, 1 ≤ k → k ≤ d.cum.length → r < 2 ^ d.lo k → s.arrayOf d k r = some a → i < d.arrayLen k →
    s.levelEntry d k a i =
      d.entryFor (s.recsOf n) (fun j v => (s.arrayOf d j v).getD 0) k (r * d.arrayLen k + i)

/-! ### Ports (R105, R106) -/

/-- A port that has left UP with a cause: nothing under way, no pause, no hold; the change counts, its event at once or
held. -/
def leftUp (s : State) (p cause : Nat) : State :=
  let hold := s.get (O.DOWN_HOLD_MS p) != 0
  let t := s.putPort p { s.port p with
    up := false, holding := hold, attempts := 0, paused := [], ignored := [], txExp := none, txPre := none,
    tail := none, tailHeld := false, slots := List.replicate 16 none }
  let t := if (s.gate p).held then t.putGate p { s.gate p with held := false } else t
  let t := ((t.count32 (O.LINK_CHANGES p)).set (O.LAST_DOWN_CAUSE p) cause).set (O.PAUSED_NOW p) 0
  let t := (t.set (O.VERIFY_STATUS p) (s.verifyRest p)).set (O.PREEMPT_ACTIVE p) 0
  if hold then t else t.raise (0x100 + p / 16)

/-- The LAST_DOWN_CAUSE code of an event (R122). -/
def downCode : DownCause → Nat
  | .laneLeft => 1
  | .alignment => 2
  | .localFault => 3
  | .remoteFault => 4

/-- A fragment of `d` data bytes of frame `t` has ended on port `p`: it is put out with its mCRC, and the rest is the port's
tail (R117, R119). -/
def cutAt (s : State) (p : Port) (t : Tx) (d : Nat) (held : Bool) : State :=
  (((fresh s).emit (.fragment p t.fragCount (checked ((fresh s).txBytes t) t.sent (t.sent + d) 0xFFFF))).putPort p
    { s.port p with
      txPre := none, tail := some { t with sent := t.sent + d, frags := t.frags + 1 }, tailHeld := held }).count64 (O.PREEMPT_COUNTS p 1)

end Sys2Proof
end

