-- ==== Sys2Proof/Certificates/Slice0/Obligations.lean ====
section
/-!
DEFINITION. Sys2Proof/Certificates/Slice0/Obligations.lean: the statements for the provers.
-/
open Sys2Proof Sys2Proof.Machine

/-- With command c at the front of the queue, a step is exec of c on the state with the rest of the queue. With an
empty queue (the model's choice, log 12) it is one tick of the time clock on a device that runs, and nothing on one
that does not. (01_architecture.) -/
def Obligations.StepRunsTheFrontCommand : Prop :=
  ∀ s : State,
    (∀ c rest, s.pending = c :: rest → step s = exec c { s with pending := rest }) ∧
    (s.pending = [] → Runs s → step s = .next (ran s (fresh s).timeTick)) ∧
    (s.pending = [] → ¬ Runs s → step s = .next (fresh s))

/-- After reset every element of every object reads its default; every tile is PALE, every lane OFF, every commit
group CLEAN, every time base ARMED at 0 s and the device clock 0; every interrupt source is IDLE and every target's
stack empty; no packet, command status, session, lease or record is held; the state is good and its list of elements
canonical. (14 R388, 14 R394, 02 R43, 09 R262, 09 R264, 12 R354, 14 R397.) -/
def Obligations.ResetLeavesDefaults : Prop :=
  (∀ r e, State.reset.get r e = objDefault ⟨r, e⟩) ∧
  (∀ t : Tile, State.reset.get (O.TILE_SERVICE t) = 0 ∧ State.reset.get (O.TILE_FULL t) = 0) ∧
  (∀ l : Lane, State.reset.stage l = Stage.off) ∧
  (∀ g : Fin 256, State.reset.groupSt g = gClean) ∧
  (∀ n : TimeBase, State.reset.get (O.TB_STATE n) = TbState.armed ∧ State.reset.tb n = 0) ∧
  State.reset.dc = 0 ∧
  (∀ n : Source, (State.reset.isrc n).st = .idle) ∧
  (∀ t : Target, State.reset.itgt t = ⟨[], false, false⟩) ∧
  State.reset.buf.pkts = [] ∧ State.reset.dict.cmds = [] ∧ State.reset.dict.sessions = [] ∧
  State.reset.dict.leases = [] ∧ State.reset.faults.held = [] ∧ State.reset.pending = [] ∧ State.reset.out = [] ∧
  Good State.reset ∧ objsCanonical State.reset.dict.objs = true

/-- For every 32-bit seed and words, the model's mix is R151's: per word a left turn by 5 bits and an exclusive or,
then the product with 0x9E3779B1 and the fold by 15 bits, all in 32 bits. HSY4 orders the two endpoints by address and
then port (the ports 0 with F set) and mixes lower address, higher address, port word and protocol word; HSY6 does so
with addresses of four words each, compared as 128-bit numbers, and mixes ten words. The instructions take these
operands from words a onward, with the tile's HASH_SEED, and HASH mixes its n words unchanged. With seed 0, HSY4 of
vector A, of A reversed, and of vector B with any port word gives the ordered words, the protocol word, the value of h
after each word, the value after the product, and the result that R152's table lists. (05 R151, 05 R152.) -/
def Obligations.HashInstructionsComputeTheRule : Prop :=
  let rule : BitVec 32 → List (BitVec 32) → BitVec 32 := fun seed ks =>
    let h := (ks.foldl (fun (h k : BitVec 32) => (h <<< 5 ||| h >>> 27) ^^^ k) seed) * 0x9E3779B1#32
    h ^^^ (h >>> 15)
  (∀ (seed : BitVec 32) (ks : List (BitVec 32)),
    mix seed.toNat (ks.map BitVec.toNat) = (rule seed ks).toNat) ∧
  (∀ (seed pw pr sp dp : BitVec 32) (f : Bool), sp = (if f then 0#32 else pw >>> 16) →
    dp = (if f then 0#32 else pw &&& 0xFFFF#32) →
    (∀ sa da : BitVec 32, hsy4 seed.toNat sa.toNat da.toNat pw.toNat pr.toNat f = (rule seed
      ((if sa < da ∨ (sa = da ∧ sp ≤ dp) then [sa, da, sp <<< 16 ||| dp] else [da, sa, dp <<< 16 ||| sp]) ++
        [(pr &&& 0xFF#32) <<< 24])).toNat) ∧
    (∀ a0 a1 a2 a3 b0 b1 b2 b3 : BitVec 32, ∀ sa da : BitVec 128, sa = a0 ++ a1 ++ a2 ++ a3 → da = b0 ++ b1 ++ b2 ++ b3 →
      hsy6 seed.toNat sa.toNat da.toNat pw.toNat pr.toNat f = (rule seed
        ((if sa < da ∨ (sa = da ∧ sp ≤ dp) then [a0, a1, a2, a3, b0, b1, b2, b3, sp <<< 16 ||| dp]
          else [b0, b1, b2, b3, a0, a1, a2, a3, dp <<< 16 ||| sp]) ++ [(pr &&& 0xFF#32) <<< 24])).toNat)) ∧
  (∀ (s : State) (t : Tile) (c : Core) (d a n : WReg) (x : CoreX) (p : Pkt),
    let seed := s.getP p.applied (O.HASH_SEED t)
    let k := fun i => x.w.getD (a.val + i) 0
    let addr := fun i => k i * 2 ^ 96 + k (i + 1) * 2 ^ 64 + k (i + 2) * 2 ^ 32 + k (i + 3)
    (Affords s t c (.hsy4 t c d a) x p 3 → a.val + 3 ≤ 15 →
      exec (.hsy4 t c d a) s =
        .next (coreStep s t c p (wrote x d (hsy4 seed (k 0) (k 1) (k 2) (k 3) x.f) 3))) ∧
    (Affords s t c (.hsy6 t c d a) x p 5 → a.val + 9 ≤ 15 →
      exec (.hsy6 t c d a) s =
        .next (coreStep s t c p (wrote x d (hsy6 seed (addr 0) (addr 4) (k 8) (k 9) x.f) 5))) ∧
    (Affords s t c (.hash t c d a n) x p (1 + (n.val + 4) / 4) → a.val + n.val ≤ 15 →
      exec (.hash t c d a n) s = .next (coreStep s t c p
        (wrote x d (mix seed ((List.range (n.val + 1)).map k)) (1 + (n.val + 4) / 4))))) ∧
  mixWord 0 0xC000020A = 0xC000020A ∧ mixWord 0xC000020A 0xC6336407 = 0xC633255F ∧
  mixWord 0xC633255F 0xC00001BB = 0x0664AA43 ∧ mixWord 0x0664AA43 0x06000000 = 0xCA954860 ∧
  0xCA954860 * 0x9E3779B1 % 2 ^ 32 = 0x6D0C6A60 ∧ 0x6D0C6A60 ^^^ (0x6D0C6A60 >>> 15) = 0x6D0CB078 ∧
  mixWord 0xC633255F 0 = 0xC664ABF8 ∧ mixWord 0xC664ABF8 0x11000000 = 0xDD957F18 ∧
  0xDD957F18 * 0x9E3779B1 % 2 ^ 32 = 0xFB973798 ∧ 0xFB973798 ^^^ (0xFB973798 >>> 15) = 0xFB96C0B6 ∧
  (6 % 256) <<< 24 = 0x06000000 ∧ (17 % 256) <<< 24 = 0x11000000 ∧
  mix 0 [0xC000020A, 0xC6336407, 0xC00001BB, 0x06000000] = 0x6D0CB078 ∧
  mix 0 [0xC000020A, 0xC6336407, 0, 0x11000000] = 0xFB96C0B6 ∧
  endpoints 0xC000020A 0xC6336407 0xC00001BB false = (0xC000020A, 0xC6336407, 0xC00001BB) ∧
  endpoints 0xC6336407 0xC000020A 0x01BBC000 false = (0xC000020A, 0xC6336407, 0xC00001BB) ∧
  hsy4 0 0xC000020A 0xC6336407 0xC00001BB 6 false = 0x6D0CB078 ∧
  hsy4 0 0xC6336407 0xC000020A 0x01BBC000 6 false = 0x6D0CB078 ∧
  ∀ pw, endpoints 0xC000020A 0xC6336407 pw true = (0xC000020A, 0xC6336407, 0) ∧
    hsy4 0 0xC000020A 0xC6336407 pw 17 true = 0xFB96C0B6

/-- The seven words that the worked example of the parsing chapter lists decode to LDW w1, 0; CMPI w3, 0x8100; BNE 15;
LDB w6, [w4+0]; HSY4 w11, w7; AMB w6, w13, 0x0003; and END. A reserved field that is not 0, an unused code, condition
11, size 3 and MFS of value 5 decode to none. (05 R134, 05 R135, 05 R136, 05 R137.) -/
def Obligations.ExampleProgramWords : Prop :=
  ∀ (t : Tile) (c : Core),
    ochreDecode t c 0x58400000 = some (.ldw t c 1 ⟨false, 0, 0⟩) ∧
    ochreDecode t c 0x480C8100 = some (.cmpi t c 3 0x8100) ∧
    ochreDecode t c 0x7080000F = some (.bcc t c 2 15) ∧
    ochreDecode t c 0x51920000 = some (.ldb t c 6 ⟨true, 4, 0⟩) ∧
    ochreDecode t c 0x82DC0000 = some (.hsy4 t c 11 7) ∧
    ochreDecode t c 0x91B40003 = some (.amb t c 6 13 0x0003) ∧
    ochreDecode t c 0xFC000000 = some (.end_ t c) ∧
    ochreDecode t c 0xFC000001 = none ∧ ochreDecode t c 0x4C000000 = none ∧ ochreDecode t c 0x72C0000F = none ∧
    ochreDecode t c 0x60030000 = none ∧ ochreDecode t c 0xA0000005 = none

/-- For every state in which core c of tile t issues the instruction and one cycle stays below the packet's budget,
ADD, SUB, AND, OR, XOR, SHL and SHR answer the state in which only that core changes: word d holds the result modulo
2^32 (a shift uses the low five bits of word b), the program counter is one more modulo 2^14, one cycle is charged.
The flags, the stack, every other core, every object, the packets and the rest of the device are as before. (05 R132,
05 R135, 05 R138, 05 R141.) -/
def Obligations.RegisterArithmeticWritesItsWord : Prop :=
  ∀ (s : State) (t : Tile) (c : Core) (d a b : WReg) (x : CoreX) (p : Pkt),
    (Affords s t c (.add t c d a b) x p 1 →
      exec (.add t c d a b) s = .next (coreStep s t c p (wrote x d (x.reg a + x.reg b) 1))) ∧
    (Affords s t c (.sub t c d a b) x p 1 →
      exec (.sub t c d a b) s = .next (coreStep s t c p (wrote x d (x.reg a + 2 ^ 32 - x.reg b) 1))) ∧
    (Affords s t c (.and_ t c d a b) x p 1 →
      exec (.and_ t c d a b) s = .next (coreStep s t c p (wrote x d (x.reg a &&& x.reg b) 1))) ∧
    (Affords s t c (.or_ t c d a b) x p 1 →
      exec (.or_ t c d a b) s = .next (coreStep s t c p (wrote x d (x.reg a ||| x.reg b) 1))) ∧
    (Affords s t c (.xor_ t c d a b) x p 1 →
      exec (.xor_ t c d a b) s = .next (coreStep s t c p (wrote x d (x.reg a ^^^ x.reg b) 1))) ∧
    (Affords s t c (.shl t c d a b) x p 1 →
      exec (.shl t c d a b) s = .next (coreStep s t c p (wrote x d (x.reg a * 2 ^ (x.reg b % 32)) 1))) ∧
    (Affords s t c (.shr t c d a b) x p 1 →
      exec (.shr t c d a b) s = .next (coreStep s t c p (wrote x d (x.reg a / 2 ^ (x.reg b % 32)) 1)))

/-- Where the instruction issues and one cycle stays below the budget, NOP only advances; MOVI, MOVHI (the low half
kept), ADDI, ANDI, ORI, XORI, SHLI, SHRI and EXT (len bits from pos) write word d modulo 2^32, the program counter is
one more modulo 2^14 and one cycle is charged; nothing else of the device changes. (05 R132, 05 R135, 05 R138, 05
R141.) -/
def Obligations.ImmediateInstructionsWriteTheirWord : Prop :=
  ∀ (s : State) (t : Tile) (c : Core) (d a : WReg) (imm : BitVec 16) (n len : BitVec 5) (x : CoreX) (p : Pkt),
    (Affords s t c (.nop t c) x p 1 →
      exec (.nop t c) s = .next (coreStep s t c p (passed x ((x.pc + 1) % 2 ^ 14) 1))) ∧
    (Affords s t c (.movi t c d imm) x p 1 →
      exec (.movi t c d imm) s = .next (coreStep s t c p (wrote x d imm.toNat 1))) ∧
    (Affords s t c (.movhi t c d imm) x p 1 →
      exec (.movhi t c d imm) s =
        .next (coreStep s t c p (wrote x d (imm.toNat * 2 ^ 16 + x.reg d % 2 ^ 16) 1))) ∧
    (Affords s t c (.addi t c d a imm) x p 1 →
      exec (.addi t c d a imm) s = .next (coreStep s t c p (wrote x d (x.reg a + imm.toNat) 1))) ∧
    (Affords s t c (.andi t c d a imm) x p 1 →
      exec (.andi t c d a imm) s = .next (coreStep s t c p (wrote x d (x.reg a &&& imm.toNat) 1))) ∧
    (Affords s t c (.ori t c d a imm) x p 1 →
      exec (.ori t c d a imm) s = .next (coreStep s t c p (wrote x d (x.reg a ||| imm.toNat) 1))) ∧
    (Affords s t c (.xori t c d a imm) x p 1 →
      exec (.xori t c d a imm) s = .next (coreStep s t c p (wrote x d (x.reg a ^^^ imm.toNat) 1))) ∧
    (Affords s t c (.shli t c d a n) x p 1 →
      exec (.shli t c d a n) s = .next (coreStep s t c p (wrote x d (x.reg a * 2 ^ n.toNat) 1))) ∧
    (Affords s t c (.shri t c d a n) x p 1 →
      exec (.shri t c d a n) s = .next (coreStep s t c p (wrote x d (x.reg a / 2 ^ n.toNat) 1))) ∧
    (Affords s t c (.ext t c d a n len) x p 1 →
      exec (.ext t c d a n len) s =
        .next (coreStep s t c p (wrote x d (x.reg a / 2 ^ n.toNat % 2 ^ (len.toNat + 1)) 1)))

/-- CMP and CMPI set Z on equality and C on unsigned lower and change no word. A Bcc whose condition (0 AL, 1 Z, 2 not
Z, 3 C, 4 not C, 5 C or Z, 6 neither, 7 F, 8 not F, 9 A, 10 not A) holds goes to its target for 2 cycles and otherwise
advances for 1. CALL with fewer than four entries pushes the next address; RET pops one; JR takes word a modulo 2^14;
each for 2 cycles. CALL with four entries held, and RET with none, raise exception 4. Where the exception is not
raised, nothing else of the device changes. (05 R132, 05 R135, 05 R136, 05 R137, 05 R138.) -/
def Obligations.CompareBranchCallAndReturn : Prop :=
  ∀ (s : State) (t : Tile) (c : Core) (a b : WReg) (imm : BitVec 16) (cond : CondCode) (tgt : BitVec 14) (x : CoreX)
    (p : Pkt),
    (Affords s t c (.cmp t c a b) x p 1 →
      exec (.cmp t c a b) s = .next (coreStep s t c p
        { passed x ((x.pc + 1) % 2 ^ 14) 1 with z := decide (x.reg a = x.reg b), c := decide (x.reg a < x.reg b) })) ∧
    (Affords s t c (.cmpi t c a imm) x p 1 →
      exec (.cmpi t c a imm) s = .next (coreStep s t c p
        { passed x ((x.pc + 1) % 2 ^ 14) 1 with
          z := decide (x.reg a = imm.toNat), c := decide (x.reg a < imm.toNat) })) ∧
    (∀ taken : Bool,
      ([true, x.z, !x.z, x.c, !x.c, x.c || x.z, !(x.c || x.z), x.f, !x.f, x.a, !x.a] : List Bool)[cond.val]? =
        some taken →
      Affords s t c (.bcc t c cond tgt) x p (if taken then 2 else 1) →
      exec (.bcc t c cond tgt) s = .next (coreStep s t c p
        (if taken then passed x tgt.toNat 2 else passed x ((x.pc + 1) % 2 ^ 14) 1))) ∧
    (Affords s t c (.call t c tgt) x p 2 → x.stack.length < 4 →
      exec (.call t c tgt) s = .next (coreStep s t c p
        { passed x tgt.toNat 2 with stack := (x.pc + 1) % 2 ^ 14 :: x.stack })) ∧
    (∀ r l, Affords s t c (.ret t c) x p 2 → x.stack = r :: l →
      exec (.ret t c) s = .next (coreStep s t c p { passed x r 2 with stack := l })) ∧
    (Affords s t c (.jr t c a) x p 2 →
      exec (.jr t c a) s = .next (coreStep s t c p (passed x (x.reg a % 2 ^ 14) 2))) ∧
    (Issues s t c (.call t c tgt) x p → 4 ≤ x.stack.length →
      exec (.call t c tgt) s = .next (ran s ((fresh s).exception t c p x 4))) ∧
    (Issues s t c (.ret t c) x p → x.stack = [] →
      exec (.ret t c) s = .next (ran s ((fresh s).exception t c p x 4)))

/-- A window load whose bytes lie within the first 512 and keep it waiting for none writes their big-endian value to
word d, for one cycle; a byte beyond the frame's known end reads 0, and so does, arrived or not, one at or beyond the
fragment horizon while F is set. Where LDB, LDH or LDW needs another byte that has not arrived, the core stalls and
the instruction does not issue; beyond byte 512 they raise exception 2. LDC reads 1, 2 or 4 context bytes; STC writes
the low bytes of its word into context bytes 8-63 in network order; beyond byte 64, or STC below byte 8, they raise
exception 3. Where no exception is raised, only the core and its packet's context change. (05 R131, 05 R133, 05 R135,
05 R136, 05 R137, 05 R138.) -/
def Obligations.WindowAndContextAccess : Prop :=
  ∀ (s : State) (t : Tile) (c : Core) (d : WReg) (m : WinAddr) (size : Fin 3) (off : BitVec 6) (x : CoreX) (p : Pkt),
    (Affords s t c (.ldb t c d m) x p 1 → loadAt x m + 1 ≤ 512 → Arrived p x (loadAt x m) 1 →
      exec (.ldb t c d m) s = .next (coreStep s t c p (wrote x d (windowAt p x (loadAt x m)) 1))) ∧
    (Affords s t c (.ldh t c d m) x p 1 → loadAt x m + 2 ≤ 512 → Arrived p x (loadAt x m) 2 →
      exec (.ldh t c d m) s = .next (coreStep s t c p
        (wrote x d (windowAt p x (loadAt x m) * 256 + windowAt p x (loadAt x m + 1)) 1))) ∧
    (Affords s t c (.ldw t c d m) x p 1 → loadAt x m + 4 ≤ 512 → Arrived p x (loadAt x m) 4 →
      exec (.ldw t c d m) s = .next (coreStep s t c p
        (wrote x d (((windowAt p x (loadAt x m) * 256 + windowAt p x (loadAt x m + 1)) * 256 +
          windowAt p x (loadAt x m + 2)) * 256 + windowAt p x (loadAt x m + 3)) 1))) ∧
    (∀ i n, (i, n) ∈ [(Instr.ldb t c d m, 1), (.ldh t c d m, 2), (.ldw t c d m, 4)] → Issues s t c i x p →
      loadAt x m + n ≤ 512 → ¬ Arrived p x (loadAt x m) n →
      exec i s = .next (ran s ((fresh s).putCore t c { x with stalled := true }))) ∧
    (Issues s t c (.ldb t c d m) x p → 512 < loadAt x m + 1 →
      exec (.ldb t c d m) s = .next (ran s ((fresh s).exception t c p x 2))) ∧
    (Issues s t c (.ldh t c d m) x p → 512 < loadAt x m + 2 →
      exec (.ldh t c d m) s = .next (ran s ((fresh s).exception t c p x 2))) ∧
    (Issues s t c (.ldw t c d m) x p → 512 < loadAt x m + 4 →
      exec (.ldw t c d m) s = .next (ran s ((fresh s).exception t c p x 2))) ∧
    (Affords s t c (.ldc t c d size off) x p 1 → off.toNat + 2 ^ size.val ≤ 64 →
      exec (.ldc t c d size off) s =
        .next (coreStep s t c p (wrote x d (beAt p.ctx off.toNat (2 ^ size.val)) 1))) ∧
    (Issues s t c (.ldc t c d size off) x p → 64 < off.toNat + 2 ^ size.val →
      exec (.ldc t c d size off) s = .next (ran s ((fresh s).exception t c p x 3))) ∧
    (Affords s t c (.stc t c d size off) x p 1 → off.toNat + 2 ^ size.val ≤ 64 → 8 ≤ off.toNat →
      exec (.stc t c d size off) s = .next (coreStep s t c
        { p with ctx := patch p.ctx off.toNat (beBytes (2 ^ size.val) (x.reg d)) }
        (passed x ((x.pc + 1) % 2 ^ 14) 1))) ∧
    (Issues s t c (.stc t c d size off) x p → (64 < off.toNat + 2 ^ size.val ∨ off.toNat < 8) →
      exec (.stc t c d size off) s = .next (ran s ((fresh s).exception t c p x 3)))

/-- HSY4 (3 cycles) and HSY6 (5 cycles) hash the endpoints, ports and protocol in words a to a+3 and a to a+9 with the
tile's HASH_SEED; HASH hashes n words for 1 + ceil(n/4) cycles; each raises exception 7 where its words reach beyond
w15. MFS reads the bytes present with the end-known bit, the frame length (waiting, as a stall, until the end is
known), the fragment horizon or 0, the charged cycles with its own, and HASH_SEED, for one cycle. (05 R132, 05 R135,
05 R136, 05 R137, 05 R151.) -/
def Obligations.HashInstructionsAndSpecialValues : Prop :=
  ∀ (s : State) (t : Tile) (c : Core) (d a n : WReg) (x : CoreX) (p : Pkt),
    let seed := s.getP p.applied (O.HASH_SEED t)
    let k := fun i => x.w.getD (a.val + i) 0
    let addr := fun i => k i * 2 ^ 96 + k (i + 1) * 2 ^ 64 + k (i + 2) * 2 ^ 32 + k (i + 3)
    (Affords s t c (.hsy4 t c d a) x p 3 → a.val + 3 ≤ 15 →
      exec (.hsy4 t c d a) s =
        .next (coreStep s t c p (wrote x d (hsy4 seed (k 0) (k 1) (k 2) (k 3) x.f) 3))) ∧
    (Issues s t c (.hsy4 t c d a) x p → 15 < a.val + 3 →
      exec (.hsy4 t c d a) s = .next (ran s ((fresh s).exception t c p x 7))) ∧
    (Affords s t c (.hsy6 t c d a) x p 5 → a.val + 9 ≤ 15 →
      exec (.hsy6 t c d a) s =
        .next (coreStep s t c p (wrote x d (hsy6 seed (addr 0) (addr 4) (k 8) (k 9) x.f) 5))) ∧
    (Issues s t c (.hsy6 t c d a) x p → 15 < a.val + 9 →
      exec (.hsy6 t c d a) s = .next (ran s ((fresh s).exception t c p x 7))) ∧
    (Affords s t c (.hash t c d a n) x p (1 + (n.val + 4) / 4) → a.val + n.val ≤ 15 →
      exec (.hash t c d a n) s = .next (coreStep s t c p
        (wrote x d (mix seed ((List.range (n.val + 1)).map k)) (1 + (n.val + 4) / 4)))) ∧
    (Issues s t c (.hash t c d a n) x p → 15 < a.val + n.val →
      exec (.hash t c d a n) s = .next (ran s ((fresh s).exception t c p x 7))) ∧
    (Affords s t c (.mfs t c d 0) x p 1 →
      exec (.mfs t c d 0) s = .next (coreStep s t c p
        (wrote x d (min p.bytes.length 512 + if p.ended then 2 ^ 31 else 0) 1))) ∧
    (Affords s t c (.mfs t c d 1) x p 1 → p.ended = true →
      exec (.mfs t c d 1) s = .next (coreStep s t c p (wrote x d p.bytes.length 1))) ∧
    (Issues s t c (.mfs t c d 1) x p → p.ended = false →
      exec (.mfs t c d 1) s = .next (ran s ((fresh s).putCore t c { x with stalled := true }))) ∧
    (Affords s t c (.mfs t c d 2) x p 1 →
      exec (.mfs t c d 2) s = .next (coreStep s t c p (wrote x d (if x.f then x.horizon else 0) 1))) ∧
    (Affords s t c (.mfs t c d 3) x p 1 →
      exec (.mfs t c d 3) s = .next (coreStep s t c p (wrote x d (x.charged + 1) 1))) ∧
    (Affords s t c (.mfs t c d 4) x p 1 →
      exec (.mfs t c d 4) s = .next (coreStep s t c p (wrote x d seed 1)))

/-- With no scan outstanding AMB records one over [w[start], w[end]) for the groups of its mask and counts it; with F
set or an empty range it is ready at once after 2 cycles, with no hit: its result is 0 but for bit 29, set where the
profile limit is what ends the range. AMBER_SCAN_DONE on a scan whose range has arrived makes it ready and adds the
engine wait to the Amber queue stalls: with a range that is not empty it has the result of the tile's patterns and L =
7 + ceil(n/64), with an empty one no hit and L = 2. AMW on a ready scan writes the result, sets A to its bit 31, ends
the scan and is charged the rest of L, at least 1; on one whose range has not arrived the core stalls, on one that
still runs and that the budget affords nothing changes, and where the charge reaches the budget the core stops and the
scan is gone. AMB with a scan outstanding, and AMW with none, raise exception 6. How the rest of L is charged to a
late AMW is the model's choice (log 15), and so is bit 29 while the frame's end is not known or where the limit equals
its length (log 121). (05 R135, 05 R137, 05 R138, 05 R146, 05 R147, 05 R148.) -/
def Obligations.AmberScans : Prop :=
  ∀ (s : State) (t : Tile) (c : Core) (d a b : WReg) (mask wait : BitVec 16) (x : CoreX) (p : Pkt),
    let limit := if p.mono then 128 else 512
    let stop := if p.ended then min (min (x.reg b) limit) p.bytes.length else min (x.reg b) limit
    let scan : Scan := ⟨x.reg a, x.reg b, mask.toNat, decide (limit < x.reg b), x.charged, 0, 0, false⟩
    let noHit := fun (n : Scan) =>
      if n.clip = true ∧ (p.ended = false ∨ limit < p.bytes.length) then 2 ^ 29 else 0
    let rest := fun (n : Scan) =>
      max 1 (n.at_ + (if n.endIn p - n.start = 0 then 2 else 7 + (n.endIn p - n.start + 63) / 64) - x.charged)
    (Affords s t c (.amb t c a b mask) x p 1 → x.scan = none → x.f = false → x.reg a < stop →
      exec (.amb t c a b mask) s = .next (ran s ((coreStep s t c p
        { passed x ((x.pc + 1) % 2 ^ 14) 1 with scan := some scan }).count64 (O.PARSE_COUNTS t 10)))) ∧
    (Affords s t c (.amb t c a b mask) x p 1 → x.scan = none → (x.f = true ∨ stop ≤ x.reg a) →
      exec (.amb t c a b mask) s = .next (ran s ((coreStep s t c p
        { passed x ((x.pc + 1) % 2 ^ 14) 1 with
          scan := some { scan with lat := 2, result := noHit scan, ready := true } }).count64 (O.PARSE_COUNTS t 10)))) ∧
    (Issues s t c (.amb t c a b mask) x p → x.scan.isSome = true →
      exec (.amb t c a b mask) s = .next (ran s ((fresh s).exception t c p x 6))) ∧
    (∀ n, Runs s → s.core? t c = some x → s.pkt? x.fid = some p → x.scan = some n → n.ready = false →
      n.arrived p = true → n.start < n.endIn p →
      Does (.amberScanDone t c wait) s fun u => u.core? t c = some
        { x with
          scan := some { n with
            ready := true, result := ((fresh s).amberScan t p n).1, lat := 7 + (n.endIn p - n.start + 63) / 64 }
          qstalls := x.qstalls + wait.toNat }) ∧
    (∀ n, Runs s → s.core? t c = some x → s.pkt? x.fid = some p → x.scan = some n → n.ready = false →
      n.arrived p = true → n.endIn p ≤ n.start →
      exec (.amberScanDone t c wait) s = .next (ran s ((fresh s).putCore t c
        { x with
          scan := some { n with ready := true, result := noHit n, lat := 2 }
          qstalls := x.qstalls + wait.toNat }))) ∧
    (∀ n, x.scan = some n → n.ready = false → Issues s t c (.amw t c d) x p →
      (n.arrived p = false →
        exec (.amw t c d) s = .next (ran s ((fresh s).putCore t c { x with stalled := true }))) ∧
      (n.arrived p = true → x.charged + rest n < s.budget t p → exec (.amw t c d) s = .next (fresh s)) ∧
      (n.arrived p = true → s.budget t p ≤ x.charged + rest n →
        exec (.amw t c d) s = .next (ran s ((fresh s).putCore t c
          { x with charged := s.budget t p, overrun := true, scan := none })))) ∧
    (∀ n, x.scan = some n → n.ready = true → Affords s t c (.amw t c d) x p (max 1 (n.at_ + n.lat - x.charged)) →
      exec (.amw t c d) s = .next (coreStep s t c p
        { wrote x d n.result (max 1 (n.at_ + n.lat - x.charged)) with a := n.result.testBit 31, scan := none })) ∧
    (Issues s t c (.amw t c d) x p → x.scan = none →
      exec (.amw t c d) s = .next (ran s ((fresh s).exception t c p x 6)))

/-- With no scan outstanding and room in the reorder buffer (fewer than 256 contexts; or, the model's choice of log
86, the packet is its port's next and none of those held is its port's), END puts the packet at the reorder buffer's
end, frees the core and counts the packet; without room the core waits with its packet. REORDER_HANDOFF does the same
for a core that waited, once there is room. DROP counts the packet and its port and discards it with fate 0x18 + code.
A charge that reaches the budget stops the core with the budget charged and the scan gone; BUDGET_OVERRUN then counts
it, and with OVERRUN_ACTION 0 discards it with 0x11, otherwise runs the ROM program on it. END and DROP with a scan
outstanding raise exception 6. (05 R128, 05 R129, 05 R137, 05 R138, 05 R141.) -/
def Obligations.ParseEndsWithHandOffDiscardOrOverrun : Prop :=
  ∀ (s : State) (t : Tile) (c : Core) (code : BitVec 3) (wait : BitVec 16) (x : CoreX) (p : Pkt),
    (Affords s t c (.end_ t c) x p 1 → x.scan = none →
      ((s.tile t).reorder.length < 256 ∨
        (s.isNext p = true ∧ ∀ f ∈ (s.tile t).reorder, ∀ q, s.pkt? f = some q → s.isNext q = false)) →
      Does (.end_ t c) s fun u => (u.tile t).reorder = (s.tile t).reorder ++ [p.fid] ∧ u.core? t c = none ∧
        u.get (O.PARSE_COUNTS t 2) = (s.get (O.PARSE_COUNTS t 2) + 1) % 2 ^ 64) ∧
    (Affords s t c (.end_ t c) x p 1 → x.scan = none → 256 ≤ (s.tile t).reorder.length →
      (s.isNext p = false ∨ ∃ f ∈ (s.tile t).reorder, ∃ q, s.pkt? f = some q ∧ s.isNext q = true) →
      exec (.end_ t c) s = .next (coreStep s t c p { x with charged := x.charged + 1, ended := true })) ∧
    (Runs s → s.core? t c = some x → s.pkt? x.fid = some p → x.ended = true →
      ((s.tile t).reorder.length < 256 ∨
        (s.isNext p = true ∧ ∀ f ∈ (s.tile t).reorder, ∀ q, s.pkt? f = some q → s.isNext q = false)) →
      Does (.reorderHandoff t c wait) s fun u =>
        (u.tile t).reorder = (s.tile t).reorder ++ [p.fid] ∧ u.core? t c = none ∧
        u.get (O.PARSE_COUNTS t 2) = (s.get (O.PARSE_COUNTS t 2) + 1) % 2 ^ 64 ∧
        u.get (O.PARSE_COUNTS t 13) = (s.get (O.PARSE_COUNTS t 13) + wait.toNat) % 2 ^ 64) ∧
    (Affords s t c (.drop t c code) x p 1 → x.scan = none →
      exec (.drop t c code) s = .next (ran s
        ((((fresh s).count64 (O.PARSE_COUNTS t 6)).count64 (O.PORT_PARSE_COUNTS p.inPort 4)).parseDiscard t c p
          { x with charged := x.charged + 1 } (0x18 + code.toNat)))) ∧
    (Issues s t c (.end_ t c) x p → x.scan.isSome = true →
      exec (.end_ t c) s = .next (ran s ((fresh s).exception t c p x 6))) ∧
    (Issues s t c (.drop t c code) x p → x.scan.isSome = true →
      exec (.drop t c code) s = .next (ran s ((fresh s).exception t c p x 6))) ∧
    (Issues s t c (.nop t c) x p → s.budget t p ≤ x.charged + 1 →
      exec (.nop t c) s = .next (ran s ((fresh s).putCore t c
        { x with charged := s.budget t p, overrun := true, scan := none }))) ∧
    (Runs s → s.core? t c = some x → s.pkt? x.fid = some p → x.overrun = true → x.rom = false →
      exec (.budgetOverrun t c) s = .next (ran s
        (let v := ((fresh s).count64 (O.PARSE_COUNTS t 4)).count64 (O.PORT_PARSE_COUNTS p.inPort 2)
         if s.getP p.applied (O.OVERRUN_ACTION t) = 0 then v.parseDiscard t c p x 0x11 else v.runRom t c p x 6)))

/-- A frame whose dispatch point is reached joins the end of its tile's dispatch queue while that holds fewer than
128; with 128 it is counted, per tile and per port, and discarded with 0x12. CORE_DISPATCH takes the head of the queue
to the lowest-numbered free core with sixteen words of 0, flags Z, C and A clear, an empty stack, nothing charged, and
counts it; outside Pale service its program counter is the low 14 bits of ENTRY_POINT, and for a packet dispatched in
Pale service the pre-decoder's walk goes on to the ROM program. A frame whose tile has passed a boundary since the
filter judged it is judged again by the set it is dispatched under (R44; the model's choice, log 124): where the
filter now refuses it, it goes to no core, and is discarded once it has ended. ARRIVAL_STALL_END on a core whose
instruction waits on a frame that has ended adds the cycles to its stalls and lets it issue again; where the frame has
not ended its further bytes arrive, and a walk that waited goes on. (05 R127, 05 R128, 05 R130, 05 R133, 05 R138.) -/
def Obligations.DispatchToACore : Prop :=
  ∀ (s : State) (t : Tile) (c : Core) (q : Port) (pre : Bool) (bytes : List Byte) (cycles : BitVec 16) (x : CoreX)
    (k p : Pkt) (fid : Nat) (rest : List Nat),
    (Runs s → s.atDispatchPoint q pre = some k → (s.tile k.tile).dq.length < 128 →
      Does (.dispatchPoint q pre) s fun u => (u.tile k.tile).dq = (s.tile k.tile).dq ++ [k.fid]) ∧
    (Runs s → s.atDispatchPoint q pre = some k → 128 ≤ (s.tile k.tile).dq.length →
      exec (.dispatchPoint q pre) s = .next (ran s
        ((((fresh s).count64 (O.PARSE_COUNTS k.tile 3)).count64 (O.PORT_PARSE_COUNTS q 1)).discardArrival k 0x12))) ∧
    (Runs s → s.nextCore t = some c.val → (s.tile t).dq = fid :: rest → s.pkt? fid = some p →
      p.judged = s.tagsAt p.tile → s.dispatchesPale t = false →
      Does (.coreDispatch t) s fun u => (u.tile t).dq = rest ∧
        u.get (O.PARSE_COUNTS t 1) = (s.get (O.PARSE_COUNTS t 1) + 1) % 2 ^ 64 ∧
        ∃ y, u.core? t c = some y ∧ y.fid = fid ∧ y.w = List.replicate 16 0 ∧ y.z = false ∧ y.c = false ∧
          y.a = false ∧ y.stack = [] ∧ y.charged = 0 ∧ y.pc = s.getP (s.tagsAt t) (O.ENTRY_POINT t) % 2 ^ 14) ∧
    (∀ v, Runs s → s.nextCore t = some c.val → (s.tile t).dq = fid :: rest → s.pkt? fid = some p →
      (p.judged = s.tagsAt p.tile → v = (0, p.toHost)) →
      (p.judged ≠ s.tagsAt p.tile → v = s.judge p.inPort p.bytes) →
      exec (.coreDispatch t) s = .next (ran s
        (let k := { p with
           phase := .parsing, pale := s.dispatchesPale t, dflt := s.dispatchesPale t, applied := s.tagsAt t,
           mono := s.getT t (O.TILE_PROFILE t) == 1 && !s.dispatchesPale t,
           member := s.getT t (O.MEMBER_ID p.inPort) }
         let w := (fresh s).putTile t { s.tile t with dq := rest }
         if v.1 ≠ 0 then (if p.ended then w.failPacket k v.1 else w.refuseFrame k v.1)
         else (w.count64 (O.PARSE_COUNTS t 1)).walk t c
           { k with toHost := v.2, ctx := dispatchCtx k } (CoreX.fresh fid (s.getP (s.tagsAt t) (O.ENTRY_POINT t)))))) ∧
    (Runs s → s.core? t c = some x → s.pkt? x.fid = some p → x.stalled = true → x.walking = false →
      p.ended = true →
      exec (.arrivalStallEnd t c bytes cycles) s = .next (ran s
        ((fresh s).putCore t c { x with stalls := x.stalls + cycles.toNat, stalled := false }))) ∧
    (Runs s → s.core? t c = some x → s.pkt? x.fid = some p → (x.walking || x.stalled) = true → p.ended = false →
      exec (.arrivalStallEnd t c bytes cycles) s = .next (ran s
        (let v := ((fresh s).putCore t c { x with stalls := x.stalls + cycles.toNat, stalled := false }).moreBytes
           p.inPort (some x.fid) bytes
         match v.core? t c, v.pkt? x.fid with
         | some y, some k => if y.walking then v.walk t c k y else v
         | _, _ => v)))

/-- A scrubber of the program memory, the Amber rows, the table store, the cells, the words of the descriptor store or
the counters that finds a word without damage and without error leaves the fault collector as it was. Where it finds
one wrong bit it sends one class M report under the array's _CE source, with the word's address (a link word's, and
any other but a descriptor's, the model's choice of log 93), a syndrome that is a free value (log 4) and one bit in
error, and the word reads clean; a word that held a one-bit error before is repaired and reported the same way. A two-
bit finding is reported under the _UE source and, but for a counter, which becomes 0 and clean, the word stays
damaged: an allocated cell poisons its packet, a free one is quarantined, a descriptor or link word loses its packet,
a unit of a table counts at the table. A damaged row of the associative array is rewritten by MAM_ENTRY_REPAIR, which
reports it as the scrubber's find unless a search has reported it; MAM_SCRUB only finds it. LEVEL_ENTRY_REBUILD
rewrites an unreadable unit of level entries, which then reads clean; no other unit changes. (05 R140, 05 R149, 06
R182, 06 R193, 07 R200, 07 R223, 07 R228, 10 R315, 13 R376.) -/
def Obligations.ScrubbersRepairAndReport : Prop :=
  ∀ (s : State) (t : Tile) (row : BitVec 14) (image : Fin 2) (r : BitVec 12) (x : Partition) (bucket : Fin 131072)
    (slot : Fin 4) (cell : Cell) (h : Handle) (w : StoreWord) (addr : Fin 67108864) (flow : Bool) (b : Fin 2097152),
    Runs s →
    let unit := (x.val * 131072 + bucket.val) * 4 + slot.val
    let bank := cell.val / 8192
    let ctr := if flow then 0x802 else 0x800
    let arrays : List ((Ecc → Instr) × Nat × Nat × Nat × Nat × Nat) := [
      (.pmemScrub t row, 0x220 + t, 0x240 + t, unitId 2 t, row.toNat, row.toNat),
      (.amberScrub t image r, 0x260 + t, 0x280 + t, unitId 2 t, image.val * 4096 + r.toNat, image.val * 4096 + r.toNat),
      (.tableStoreScrub x bucket slot, 0x300 + x, 0x310 + x, unitId 4 x, unit, unit / 4),
      (.cellScrub cell, 0x400 + bank, 0x4C0 + bank, unitId 3 bank, cell, cell),
      (.descriptorScrub (.descriptor h), 0x642, 0x643, unitId 6 0, h, h),
      (.counterScrub addr flow, ctr, ctr + 1, unitId 5 0, addr, addr)]
    (∀ i ce ue dom at_ shown, (i, ce, ue, dom, at_, shown) ∈ arrays →
      (s.damaged ce at_ = none →
        (Does (i .ok) s fun u => u.faults = s.faults) ∧
        (Does (i .one) s fun u => u.damaged ce at_ = none ∧
          u.faults.reports = s.faults.reports ++ [scrubReport s ce dom shown 1])) ∧
      (∀ d, s.damaged ce at_ = some d → d.bits = 1 →
        Does (i .ok) s fun u => u.damaged ce at_ = none ∧
          u.faults.reports = s.faults.reports ++ [{ scrubReport s ce dom shown 1 with injected := d.injected }]) ∧
      (s.damaged ce at_ = none →
        Does (i .two) s fun u => (scrubReport s ue dom shown 2) ∈ u.faults.reports ∧
          ((u.damaged ce at_).isSome = true ↔ ce ≠ ctr))) ∧
    (s.damaged (0x400 + bank) cell = none →
      (s.buf.used.contains cell.val = true → Does (.cellScrub cell .two) s fun u =>
        u.buf.doomed.contains cell.val = true ∧ ∀ p ∈ u.buf.pkts, cell.val ∈ p.cells → p.poison = true) ∧
      (s.buf.used.contains cell.val = false → s.cellFree cell = true → Does (.cellScrub cell .two) s fun u =>
        u.buf.quar.contains cell.val = true ∧
        u.get (O.BANK_QUARANTINED bank) = s.get (O.BANK_QUARANTINED bank) + 1)) ∧
    (s.damaged 0x642 (storeAddr w) = none →
      (Does (.descriptorScrub w .ok) s fun u => u.faults = s.faults) ∧
      (Does (.descriptorScrub w .one) s fun u => u.damaged 0x642 (storeAddr w) = none ∧ ∃ shown syn,
        u.faults.reports = s.faults.reports ++
          [⟨0x642, unitId 6 0, unitId 6 0, detailM shown syn 2 1, false⟩]) ∧
      (Does (.descriptorScrub w .two) s fun u => (u.damaged 0x642 (storeAddr w)).isSome = true ∧
        (∃ shown syn, u.faults.reports = s.faults.reports ++
          [⟨0x643, unitId 6 0, unitId 6 0, detailM shown syn 2 2, false⟩]) ∧
        ∀ p ∈ u.buf.pkts, (w = .descriptor h → p.enq = true → p.handle = h.val → p.lost = true) ∧
          (w = .link cell → cell.val ∈ p.cells → p.lost = true))) ∧
    (∀ n, s.damaged (0x300 + x) unit = none → s.tableAt unit = some n →
      Does (.tableStoreScrub x bucket slot .two) s fun u =>
        u.get (O.TABLE_COUNTS n 13) = (s.get (O.TABLE_COUNTS n 13) + 1) % 2 ^ 64) ∧
    (s.damaged (0x3A0 + t) r.toNat = none →
      (Does (.mamScrub t r .ok) s fun u => u.faults = s.faults) ∧
      Does (.mamScrub t r .one) s fun u => (u.damaged (0x3A0 + t) r.toNat).isSome = true ∧
        u.faults.reports = s.faults.reports) ∧
    (∀ d, s.damaged (0x3A0 + t) r.toNat = some d →
      Does (.mamEntryRepair t r) s fun u => u.damaged (0x3A0 + t) r.toNat = none ∧
        u.faults.reports = s.faults.reports ++ (if d.told then [] else
          [⟨0x3A0 + t, unitId 2 t, unitId 2 t, detailM r.toNat 0 2 1, d.injected⟩])) ∧
    (∀ n k e, s.faults.armed = [] → s.tableAt (b.val * 4 + slot.val) = some n → (s.decl n).isLpm = true →
      (s.decl n).levelOf (b.val * 4 + slot.val) = some (k, e) → s.readable (b.val * 4 + slot.val) = false →
      Does (.levelEntryRebuild b slot) s fun u => u.readable (b.val * 4 + slot.val) = true ∧
        ∀ v, v ≠ b.val * 4 + slot.val → u.unit v = s.unit v)

/-- Each of the 36 instructions of R135's table has, with every operand at every value, one 32-bit word: the operation
code in [31:26] and the fields of its format at R134's places, every reserved field 0. That word decodes to that
instruction on the tile and core that fetch it. No command of another row of the command table has a word. A word that
is the word of no instruction, among them each with a reserved field that is not 0, decodes to none. (05 R134.) -/
def Obligations.OchreDecodesWhatItEncodes : Prop :=
  let forms : Tile → Core → WReg → WReg → WReg → BitVec 16 → BitVec 5 → BitVec 5 → WinAddr → Fin 3 → BitVec 6 →
      CondCode → BitVec 14 → Fin 5 → BitVec 3 → List (Instr × Nat × Nat × Nat × Nat) :=
    fun t c d a b imm n m x size off cond tgt s code =>
     [(.nop t c, 0x00, 0, 0, 0), (.add t c d a b, 0x01, d.val, a.val, b.val * 2 ^ 14),
      (.sub t c d a b, 0x02, d.val, a.val, b.val * 2 ^ 14), (.and_ t c d a b, 0x03, d.val, a.val, b.val * 2 ^ 14),
      (.or_ t c d a b, 0x04, d.val, a.val, b.val * 2 ^ 14), (.xor_ t c d a b, 0x05, d.val, a.val, b.val * 2 ^ 14),
      (.shl t c d a b, 0x06, d.val, a.val, b.val * 2 ^ 14), (.shr t c d a b, 0x07, d.val, a.val, b.val * 2 ^ 14),
      (.movi t c d imm, 0x08, d.val, 0, imm.toNat), (.movhi t c d imm, 0x09, d.val, 0, imm.toNat),
      (.addi t c d a imm, 0x0A, d.val, a.val, imm.toNat), (.andi t c d a imm, 0x0B, d.val, a.val, imm.toNat),
      (.ori t c d a imm, 0x0C, d.val, a.val, imm.toNat), (.xori t c d a imm, 0x0D, d.val, a.val, imm.toNat),
      (.shli t c d a n, 0x0E, d.val, a.val, n.toNat), (.shri t c d a n, 0x0F, d.val, a.val, n.toNat),
      (.ext t c d a n m, 0x10, d.val, a.val, n.toNat * 2 ^ 13 + m.toNat * 2 ^ 8),
      (.cmp t c a b, 0x11, 0, a.val, b.val * 2 ^ 14), (.cmpi t c a imm, 0x12, 0, a.val, imm.toNat),
      (.ldb t c d x, 0x14, d.val, x.a.val, b01 x.based * 2 ^ 17 + x.off.toNat),
      (.ldh t c d x, 0x15, d.val, x.a.val, b01 x.based * 2 ^ 17 + x.off.toNat),
      (.ldw t c d x, 0x16, d.val, x.a.val, b01 x.based * 2 ^ 17 + x.off.toNat),
      (.ldc t c d size off, 0x18, d.val, 0, size.val * 2 ^ 16 + off.toNat),
      (.stc t c d size off, 0x19, d.val, 0, size.val * 2 ^ 16 + off.toNat),
      (.bcc t c cond tgt, 0x1C, cond.val, 0, tgt.toNat), (.call t c tgt, 0x1D, 0, 0, tgt.toNat),
      (.ret t c, 0x1E, 0, 0, 0), (.jr t c a, 0x1F, 0, a.val, 0), (.hsy4 t c d a, 0x20, d.val, a.val, 0),
      (.hsy6 t c d a, 0x21, d.val, a.val, 0), (.hash t c d a b, 0x22, d.val, a.val, b.val * 2 ^ 14),
      (.amb t c d a imm, 0x24, d.val, a.val, imm.toNat), (.amw t c d, 0x25, d.val, 0, 0),
      (.mfs t c d s, 0x28, d.val, 0, s.val), (.drop t c code, 0x3E, 0, 0, code.toNat), (.end_ t c, 0x3F, 0, 0, 0)]
  (∀ t c d a b imm n m x size off cond tgt s code,
    ∀ e ∈ forms t c d a b imm n m x size off cond tgt s code,
      let w := e.2.1 * 2 ^ 26 + e.2.2.1 * 2 ^ 22 + e.2.2.2.1 * 2 ^ 18 + e.2.2.2.2
      ochreEncode e.1 = some w ∧ w < 2 ^ 32 ∧ ochreDecode t c w = some e.1) ∧
  (∀ (i : Instr) (w : Nat), ochreEncode i = some w →
    ∃ t c d a b imm n m x size off cond tgt s code,
      i ∈ (forms t c d a b imm n m x size off cond tgt s code).map Prod.fst) ∧
  ∀ (t : Tile) (c : Core) (w : Nat), (∀ i, ochreEncode i ≠ some w) → ochreDecode t c w = none

/-- Whatever word a core decodes to an instruction, encoding that instruction gives back the whole word, so that no
bit of a legal word goes unread and no two words mean one instruction; and the instruction is that tile's and core's.
(05 R134, 05 R135, 05 R137, 05 R139.) -/
def Obligations.OchreWordsAreUnambiguous : Prop :=
  ∀ (t : Tile) (c : Core) (w : Nat) (i : Instr), ochreDecode t c w = some i →
    ochreEncode i = some w ∧ ∀ (t' : Tile) (c' : Core), ochreDecode t' c' w = some i → t' = t ∧ c' = c

/-- Of a good state (its waiting commands well formed; cleared while it has no power or is in reset) every step gives
a next state that is good, whose queue is the old one without its first command. The power state changes only where
that command is POWER_ON, POWER_LOSS, SYS_RESET_ASSERT or SYS_RESET_RELEASE; with any other command a device that does
not run changes nothing but its outputs and its queue. (01 R33, 14 R386, 14 R388, 14 R389.) -/
def Obligations.GoodStatesStayGood : Prop :=
  ∀ s : State, Good s → ∃ t, step s = .next t ∧ Good t ∧ t.pending = s.pending.tail ∧
    (t.sys.power ≠ s.sys.power → ∃ c, s.pending.head? = some c ∧
      (c = .powerOn ∨ c = .powerLoss ∨ c = .sysResetAssert ∨ ∃ v, c = .sysResetRelease v)) ∧
    (¬ Runs s → (∀ c, s.pending.head? = some c → c ≠ .powerOn ∧ c ≠ .powerLoss ∧ c ≠ .sysResetAssert ∧
      ∀ v, c ≠ .sysResetRelease v) → t = { s with pending := s.pending.tail, out := [] })

/-- The values of all objects are held as a list of elements whose keys rise strictly and of which none equals its
default. Whatever command waits in front, and with nothing waiting, a step from a state whose list stands in that form
gives a next state whose list does, so that equal values are always equal data. (02 R43, 02 R44, 14 R388, 14 R394.) -/
def Obligations.ObjectsStayCanonical : Prop :=
  ∀ s : State, objsCanonical s.dict.objs = true → ∃ t, step s = .next t ∧ objsCanonical t.dict.objs = true

/-- READ of a number that may be read answers OK with its active value in as many little-endian bytes as its type has;
no object changes, but an RC object (TEMP_PEAK apart) becomes 0. READ of a BLOB answers the bytes asked for, of a
STRING its 8 bytes, of a TABLE whose words are sound its rows, of a sub-index 00 without a value the highest sub-
index, of a CMD its status, error code and result: none of these changes anything. READ_STAGED answers the staged
value where there is one, else the active one, and changes nothing at all. DESCRIBE answers the object's type, right,
group and size. ECHO of up to 64 bytes answers the same bytes, of more is refused with ERR_TYPE, and changes nothing.
(02 R29, 02 R37, 02 R40, 02 R42, 02 R47.) -/
def Obligations.ReadAnswersTheValue : Prop :=
  ∀ (s : State) (p : Path) (a : Ref) (off len : Nat) (d : List Byte) (o : ObjRow), Ready s p →
    (Finds s false a o → isNumber o = true → o.acc ≠ .wo → s.dict.busyTabs.contains a = false →
      s.diagRefuses a true = false →
      Does (.read p a off len) s fun u => u.out = [.answer p Err.ok (leBytes o.size (s.view a 0))] ∧
        (∀ r e, r ≠ a → u.get r e = s.get r e) ∧ (o.acc ≠ .rc → u.dict = s.dict) ∧
        (o.acc = .rc → o.idx ≠ 0xD200 → u.get a = 0)) ∧
    (Finds s false a o → o.acc = .ro ∨ o.acc = .rw ∨ o.acc = .rws → s.dict.busyTabs.contains a = false →
      s.diagRefuses a true = false → o.isHighest = false → o.idx ≠ 0x5003 → a.idx ≠ 0xB001 →
      (o.ty = .blob → s.extentOk o a.inst (pathMost p) off len = true → exec (.read p a off len) s =
        .next { fresh s with out := [.answer p Err.ok (bytesAt (s.view a) o.el off len)] }) ∧
      (o.ty = .string → exec (.read p a off len) s =
        .next { fresh s with out := [.answer p Err.ok ((List.range 8).map fun e => nb (s.view a e))] }) ∧
      (o.ty = .table → s.faults.damage = [] → s.extentOk o a.inst (pathMost p) off len = true →
        exec (.read p a off len) s = .next { fresh s with out := [.answer p Err.ok
          ((List.range (len / o.el)).flatMap fun i => leBytes o.el (s.view a (off / o.el + i)))] })) ∧
    (Finds s false a o → o.isHighest = true → o.acc ≠ .wo → s.diagRefuses a true = false →
      exec (.read p a off len) s = .next { fresh s with out := [.answer p Err.ok [nb (highestOf o.idx)]] }) ∧
    (Finds s false a o → o.ty = .cmd → o.acc ≠ .wo → o.isHighest = false → s.dict.busyTabs.contains a = false →
      s.diagRefuses a true = false → exec (.read p a off len) s = .next { fresh s with
        out := [.answer p Err.ok (nb (s.cmd a).status :: nb (s.cmd a).err :: (s.cmd a).result)] }) ∧
    (Finds s true a o → isNumber o = true → o.acc ≠ .wo → s.dict.busyTabs.contains a = false →
      s.diagRefuses a false = false →
      exec (.readStaged p a off len) s =
        .next { fresh s with out := [.answer p Err.ok (leBytes o.size (s.viewS a 0))] }) ∧
    (Finds s false a o →
      exec (.describe p a) s = .next { fresh s with out := [.answer p Err.ok (s.describe o a.inst)] }) ∧
    (d.length ≤ 64 → exec (.echo p d) s = .next { fresh s with out := [.answer p Err.ok d] }) ∧
    (64 < d.length → exec (.echo p d) s = .next (refused s p Err.type))

/-- A WRITE that passes every check of R34 answers OK with the value, reserved bits taken off, in force; where the
object has no effect beyond its value, nothing else changes. A WRITE of BLOB or TABLE bytes that passes them answers
OK with the bytes written. A WRITE_STAGED that passes them answers OK: the value (of a BLOB, the whole) stands in the
shadow, the group is DIRTY unless it is RETIRING, and every other object's active value, the object's own included, is
as before. No object of the dictionary is write-one-to-clear, and no TABLE can be staged: a WRITE_STAGED of one that
may be written is refused with ERR_NOT_STAGEABLE. (02 R12, 02 R34, 02 R38, 02 R40, 02 R42, 02 R43.) -/
def Obligations.WriteAndWriteStaged : Prop :=
  ∀ (s : State) (p : Path) (a : Ref) (d : List Byte) (o : ObjRow) (g : Nat), Ready s p →
    s.leasedAway p (a.idx / 4096) = false →
    (isNumber o = true → d.length = o.size → inRange o (keepBits a.idx a.sub 0 (leNat d)) = true →
    (Finds s false a o → (o.acc = .rw ∨ o.acc = .wo) → (a.idx ≠ 0x5003 ∨ a.sub ≠ 2) →
      s.valueOk a (keepBits a.idx a.sub 0 (leNat d)) = true → s.dict.busyTabs.contains a = false →
      s.rwBusy o a = false → s.writeState a 0 d.length = true →
      exec (.write p a 0 d) s =
        .next (answers s p Err.ok ((fresh s).writeScalar a (keepBits a.idx a.sub 0 (leNat d)))) ∧
      ([0x2000, 0x2120, 0x3002, 0x3060, 0x8000, 0x8010, 0x8030, 0xB000, 0xB001, 0xB100].contains a.idx = false →
        exec (.write p a 0 d) s =
          .next (answers s p Err.ok ((fresh s).set a (keepBits a.idx a.sub 0 (leNat d))))))) ∧
    (∀ off e, Finds s false a e → (e.ty = .blob ∨ e.ty = .table) → (e.acc = .rw ∨ e.acc = .wo) →
      (a.idx ≠ 0x5003 ∨ a.sub ≠ 2 ∨ (s.decl a.inst).isLpm = false) →
      s.extentOk e a.inst (pathMost p) off d.length = true →
      (∀ x ∈ rowsIn (s.extent e a.inst).2 off d, s.rowOk a x.1 x.2 = true) → s.dict.busyTabs.contains a = false →
      s.rwBusy e a = false → s.writeState a off d.length = true →
      exec (.write p a off d) s = .next (answers s p Err.ok ((fresh s).writeBytes e a off d))) ∧
    (Finds s true a o → (o.acc = .rw ∨ o.acc = .rws) → grpOf o.grp a.inst = some g → s.groupBusy g = false →
      s.dict.busyTabs.contains a = false → isNumber o = true → d.length = o.size → inRange o (keepBits a.idx a.sub 0 (leNat d)) = true →
      Does (.writeStaged p a 0 d) s fun u => u.out = [.answer p Err.ok []] ∧
        u.staged? ⟨a, 0⟩ = some (keepBits a.idx a.sub 0 (leNat d)) ∧
        (s.groupSt g ≠ gRetiring → u.groupSt g = gDirty) ∧
        (∀ r e, r ≠ O.GROUP_STATE g → r ≠ O.GROUP_SHADOW_DIRTY g → u.get r e = s.get r e)) ∧
    (∀ off e, Finds s true a e → (e.acc = .rw ∨ e.acc = .rws) → grpOf e.grp a.inst = some g → s.groupBusy g = false →
      s.dict.busyTabs.contains a = false → e.ty = .blob → s.extentOk e a.inst (pathMost p) off d.length = true →
      Does (.writeStaged p a off d) s fun u => u.out = [.answer p Err.ok []] ∧
        (∀ k, k < e.size / e.el → (u.staged? ⟨a, k⟩).isSome = true) ∧
        (s.groupSt g ≠ gRetiring → u.groupSt g = gDirty) ∧
        (∀ r k, r ≠ O.GROUP_STATE g → r ≠ O.GROUP_SHADOW_DIRTY g → u.get r k = s.get r k)) ∧
    (∀ r ∈ indexRows a.idx, r.acc ≠ .w1c) ∧
    (∀ off e, Finds s true a e → e.ty = .table → e.acc ≠ .ro →
      exec (.writeStaged p a off d) s = .next (refused s p Err.notStageable))

/-- An operation on an index that no object has is answered ERR_NO_OBJECT; with an instance that does not exist,
ERR_NO_INSTANCE; without that sub-index, ERR_NO_SUBINDEX; then by the access right (ERR_READ_ONLY, ERR_STAGED_ONLY,
ERR_WRITE_ONLY, ERR_NOT_STAGEABLE); then ERR_LEASED; then ERR_TYPE for a number's or a command's length, ERR_RANGE for
its value; then, of a command, ERR_TABLE_BUSY while a DMA operation uses it, and ERR_CMD_BUSY while it runs. A second
TW_XFER or MDIO_XFER of a master that runs one is answered ERR_CMD_BUSY before any lease (R423). That a command's
length and range come before ERR_TABLE_BUSY, and that before ERR_CMD_BUSY, is the model's choice (log 23). A refused
operation changes nothing but its answer. (02 R34, 02 R40, 02 R63, 02 R67, 15 R423.) -/
def Obligations.RefusalsComeInTheOrderOfTheRules : Prop :=
  ∀ (s : State) (p : Path) (a : Ref) (off len : Nat) (d : List Byte) (o : ObjRow), Ready s p →
    (indexRows a.idx = [] → exec (.read p a off len) s = .next (refused s p Err.noObject) ∧
      exec (.write p a off d) s = .next (refused s p Err.noObject)) ∧
    (∀ r, (indexRows a.idx).head? = some r → s.hasInst r.insts a.inst = false →
      exec (.read p a off len) s = .next (refused s p Err.noInstance) ∧
      exec (.write p a off d) s = .next (refused s p Err.noInstance)) ∧
    (∀ r, (indexRows a.idx).head? = some r → s.hasInst r.insts a.inst = true → rowOf (indexRows a.idx) a.sub = none →
      exec (.read p a off len) s = .next (refused s p Err.noSubindex) ∧
      exec (.write p a off d) s = .next (refused s p Err.noSubindex)) ∧
    (Finds s false a o → o.acc = .wo → exec (.read p a off len) s = .next (refused s p Err.writeOnly)) ∧
    (Finds s false a o → (o.acc = .ro ∨ o.acc = .rc) →
      exec (.write p a off d) s = .next (refused s p Err.readOnly)) ∧
    (Finds s false a o → o.acc = .rws → exec (.write p a off d) s = .next (refused s p Err.stagedOnly)) ∧
    (Finds s true a o → (o.acc = .ro ∨ o.acc = .rc) →
      exec (.writeStaged p a off d) s = .next (refused s p Err.readOnly)) ∧
    (Finds s true a o → (o.acc = .wo ∨ o.acc = .w1c ∨ o.acc = .cmd) →
      exec (.writeStaged p a off d) s = .next (refused s p Err.notStageable)) ∧
    (Finds s false a o → (o.acc = .rw ∨ o.acc = .wo ∨ o.acc = .cmd) → (a.idx ≠ 0x5003 ∨ a.sub ≠ 2) →
      s.leasedAway p (a.idx / 4096) = true →
      ((a.idx ≠ 0xD300 ∧ a.idx ≠ 0xD310) ∨ a.sub ≠ 1 ∨ s.cmdRunning a = false →
        exec (.write p a off d) s = .next (refused s p Err.leased)) ∧
      ((a.idx = 0xD300 ∨ a.idx = 0xD310) → a.sub = 1 → s.cmdRunning a = true →
        exec (.write p a off d) s = .next (refused s p Err.cmdBusy))) ∧
    (Finds s false a o → (o.acc = .rw ∨ o.acc = .wo) → (a.idx ≠ 0x5003 ∨ a.sub ≠ 2) → isNumber o = true →
      s.leasedAway p (a.idx / 4096) = false → d.length ≠ o.size →
      exec (.write p a off d) s = .next (refused s p Err.type)) ∧
    (Finds s false a o → (o.acc = .rw ∨ o.acc = .wo) → (a.idx ≠ 0x5003 ∨ a.sub ≠ 2) → isNumber o = true →
      s.leasedAway p (a.idx / 4096) = false → d.length = o.size →
      inRange o (keepBits a.idx a.sub 0 (leNat d)) = false →
      exec (.write p a off d) s = .next (refused s p Err.range)) ∧
    (Finds s false a o → o.acc = .cmd → (a.idx ≠ 0x5003 ∨ a.sub ≠ 2) → s.leasedAway p (a.idx / 4096) = false →
      (cmdFits a o.size d = false → exec (.write p a off d) s = .next (refused s p Err.type)) ∧
      (cmdFits a o.size d = true → s.cmdRange a d = false → exec (.write p a off d) s = .next (refused s p Err.range)) ∧
      (cmdFits a o.size d = true → s.cmdRange a d = true → s.dict.busyTabs.contains a = true →
        exec (.write p a off d) s = .next (refused s p Err.tableBusy)) ∧
      (cmdFits a o.size d = true → s.cmdRange a d = true → s.dict.busyTabs.contains a = false → s.cmdRunning a = true →
        exec (.write p a off d) s = .next (refused s p Err.cmdBusy)))

/-- DISCARD of a DIRTY group makes it CLEAN with an empty shadow and raises OBJ_STAGE_DISCARDED; of a RETIRING one it
empties the shadow and the group stays RETIRING; of a CLEAN one it is answered OK and changes nothing; of a busy one
it is answered ERR_COMMIT_BUSY, of a number that is no group ERR_RANGE, with other than one byte ERR_TYPE. COMMIT puts
every named DIRTY group into VALIDATING with no answer yet; naming no DIRTY group it is answered OK and changes
nothing; naming a busy or RETIRING one it is answered ERR_COMMIT_BUSY, a number that is no group ERR_RANGE, and the
named groups note the code (for ERR_RANGE that is the model's choice, log 27); with other than 32 bytes ERR_TYPE.
VALIDATING ends in FLIPPING where every rule holds and a tile uses one of the groups, and where no tile does the
groups enter RETIRING at once and the COMMIT is answered OK; where a rule fails the COMMIT is answered
ERR_INCONSISTENT with the group's number, its groups are DIRTY again (discarded where their lease has ended) and
OBJ_COMMIT_REFUSED is raised. A tile that flips is noted in the commit, once, and leaves Pale service where the commit
ends its reload; with the last tile the groups enter RETIRING and the COMMIT is answered OK. (02 R42, 02 R43, 02 R44,
02 R46, 02 R63.) -/
def Obligations.GroupsDiscardCommitAndFlip : Prop :=
  ∀ (s : State) (p : Path) (g : Fin 256) (t : Tile) (d : List Byte) (c : Commit), Ready s p →
    (isGroup g = true → s.leasedAway p (g / 16) = false →
      (s.groupSt g = gDirty → Does (.discard p [nb g]) s fun u => u.out = [.answer p Err.ok []] ∧ u.groupSt g = gClean ∧
        u.irq.doorbells = s.irq.doorbells ++ [0xBA4] ∧ (∀ e ∈ u.dict.shadow, groupOf e.1.ref ≠ some g.val) ∧
        ∀ r e, r ≠ O.GROUP_STATE g → u.get r e = s.get r e) ∧
      (s.groupSt g = gRetiring → Does (.discard p [nb g]) s fun u => u.out = [.answer p Err.ok []] ∧
        u.groupSt g = gRetiring ∧ u.get (O.GROUP_SHADOW_DIRTY g) = 0 ∧ u.irq = s.irq ∧
        ∀ e ∈ u.dict.shadow, groupOf e.1.ref ≠ some g.val) ∧
      (s.groupSt g = gClean → exec (.discard p [nb g]) s = .next { fresh s with out := [.answer p Err.ok []] }) ∧
      (s.groupBusy g = true → exec (.discard p [nb g]) s = .next (refused s p Err.commitBusy))) ∧
    (isGroup g = false → exec (.discard p [nb g]) s = .next (refused s p Err.range)) ∧
    (d.length ≠ 1 → exec (.discard p d) s = .next (refused s p Err.type)) ∧
    (d.length = 32 → (∀ h ∈ namedIn d, isGroup h = true ∧ s.leasedAway p (h / 16) = false) →
      ((∀ h ∈ namedIn d, s.groupSt h = gClean ∨ s.groupSt h = gDirty) → (∃ h ∈ namedIn d, s.groupSt h = gDirty) →
        Does (.commit p d) s fun u => u.out = [] ∧
          (∀ h ∈ namedIn d, s.groupSt h = gDirty → u.groupSt h = gValidating) ∧
          (∀ h, ¬ (h ∈ namedIn d ∧ s.groupSt h = gDirty) → u.groupSt h = s.groupSt h) ∧
          u.dict.shadow = s.dict.shadow ∧ u.dict.commits = s.dict.commits ++
            [⟨s.dict.nextId, namedIn d, (namedIn d).filter fun h => s.groupSt h == gDirty, .validating, [], [], p, [], [],
              true⟩]) ∧
      ((∀ h ∈ namedIn d, s.groupSt h = gClean) →
        exec (.commit p d) s = .next { fresh s with out := [.answer p Err.ok []] }) ∧
      ((∃ h ∈ namedIn d, s.groupBusy h = true ∨ s.groupSt h = gRetiring) →
        exec (.commit p d) s =
          .next (answers s p Err.commitBusy ((fresh s).lastError (namedIn d) Err.commitBusy)))) ∧
    (d.length = 32 → (∃ h ∈ namedIn d, isGroup h = false) →
      exec (.commit p d) s = .next (answers s p Err.range ((fresh s).lastError (namedIn d) Err.range))) ∧
    (d.length ≠ 32 → exec (.commit p d) s = .next (refused s p Err.type)) ∧
    (s.commitIn .validating g = some c → ∀ k, s.firstBad c.named c.paled = some k →
      (exec (.commitValidationDone g) s = .next (ran s (State.answered State.startupNext
        (State.raise (State.each (((fresh s).dropCommit c).lastError c.named Err.inconsistent) c.groups fun u h =>
          if c.toDrop.contains h then u.discardGroup h else u.set (O.GROUP_STATE h) gDirty) 0xBA5)
        (c, Err.inconsistent, [nb k])))) ∧
      (c.direct = true → Does (.commitValidationDone g) s fun u => u.out = [.answer c.path Err.inconsistent [nb k]] ∧
        ∀ h ∈ c.groups, h ∉ c.toDrop → u.groupSt h = gDirty)) ∧
    (s.commitIn .validating g = some c → s.firstBad c.named c.paled = none →
      (c.groups.any tileUsed = true →
        Does (.commitValidationDone g) s fun u => u.out = [] ∧ (∀ h ∈ c.groups, u.groupSt h = gFlipping) ∧
          u.dict.shadow = s.dict.shadow) ∧
      (c.groups.any tileUsed = false →
        exec (.commitValidationDone g) s = .next (ran s (State.answered State.startupNext
          ((State.each ((fresh s).putCommit { c with phase := .flipping }) c.groups fun u h =>
            u.set (O.GROUP_STATE h) gFlipping).enterRetiring { c with phase := .flipping })
          ({ c with phase := .flipping }, Err.ok, []))))) ∧
    (s.commitIn .flipping g = some c →
      let k := { c with flipped := insNat t c.flipped }
      let v := if c.groups.contains (tileGroup t) = true ∧ s.getS (O.TILE_FULL t) = 1 ∧ s.get (O.TILE_FULL t) = 0
        then ((fresh s).putCommit k).leavePale t else (fresh s).putCommit k
      (c.flipped.contains t.val = true → exec (.tileEpochFlip t g) s = .next (fresh s)) ∧
      (c.flipped.contains t.val = false → k.flipped.length < 32 → exec (.tileEpochFlip t g) s = .next (ran s v)) ∧
      (c.flipped.contains t.val = false → 32 ≤ k.flipped.length →
        exec (.tileEpochFlip t g) s =
          .next (ran s (State.answered State.startupNext (v.enterRetiring k) (k, Err.ok, []))))) ∧
    (s.commitIn .flipping g = some c → c.flipped.contains t.val = false → c.groups.contains (tileGroup t) = false →
      (insNat t c.flipped).length < 32 →
      Does (.tileEpochFlip t g) s fun u => u.out = [] ∧ u.dict.objs = s.dict.objs ∧
        u.commitIn .flipping g = some { c with flipped := insNat t c.flipped })

/-- LEASE of an area 1-13 for 1-600 s by a holder, where no other holder leases it, grants the lesser of the seconds
asked for and LEASE_MAX: the lease ends that long from now, and the area's holder is the caller. By another holder it
is refused with ERR_LEASED, whatever else is wrong with it (R34 looks at leases before lengths and values). Of area 0,
14 or 15, or, where no other holder leases the area, for no second or for more than 600, it is refused with ERR_RANGE,
and with other than four bytes with ERR_TYPE. RELEASE by the holder and LEASE_EXPIRE end the lease: the area has no
lease and no holder, and a DIRTY group of it is CLEAN. RELEASE of an area without a lease is answered OK and changes
nothing, of one that another holder leases ERR_LEASED, of area 0, 14 or 15 ERR_RANGE, with other than one byte
ERR_TYPE. A DISCARD of a group of an area that another holder leases is refused with ERR_LEASED, and so is a COMMIT,
which the groups note. The model's choices: the seconds are little-endian on every path (log 83); the firmware and the
startup image take no lease and are answered ERR_RANGE, and RELEASE by the firmware is answered OK without effect (log
27). (02 R34, 02 R51, 02 R62, 02 R63, 02 R64, 02 R65.) -/
def Obligations.LeasesBeginAndEnd : Prop :=
  ∀ (s : State) (p : Path) (a : Fin 16) (h secs : Nat) (d : List Byte) (g : Fin 256), Ready s p →
    let leased := fun b : Nat => 1 ≤ b ∧ b ≤ 13 ∧ s.leasedAway p b = true
    (holderOf p = some h → h ≠ 9 → 1 ≤ a.val → a.val ≤ 13 → 1 ≤ secs → secs ≤ 600 → s.leasedAway p a = false →
      Does (.lease p ([nb a, 0] ++ leBytes 2 secs)) s fun u =>
        u.out = [.answer p Err.ok (leBytes 2 (min secs (s.get O.LEASE_MAX)))] ∧ u.get (O.LEASE_HOLDER a) = h ∧
        u.lease? a = some (s.timerNow + ticksOfS (min secs (s.get O.LEASE_MAX))) ∧
        ∀ r e, r ≠ O.LEASE_HOLDER a → u.get r e = s.get r e) ∧
    (leased (byteAt d 0) → exec (.lease p d) s = .next (refused s p Err.leased) ∧
      exec (.release p d) s = .next (refused s p Err.leased)) ∧
    (¬ leased (byteAt d 0) → d.length ≠ 4 → exec (.lease p d) s = .next (refused s p Err.type)) ∧
    (¬ leased (byteAt d 0) → d.length ≠ 1 → exec (.release p d) s = .next (refused s p Err.type)) ∧
    ((a.val = 0 ∨ 13 < a.val) → exec (.lease p ([nb a, 0] ++ leBytes 2 secs)) s = .next (refused s p Err.range) ∧
      exec (.release p [nb a]) s = .next (refused s p Err.range)) ∧
    (s.leasedAway p a = false → (secs = 0 ∨ 600 < secs) → secs < 2 ^ 16 →
      exec (.lease p ([nb a, 0] ++ leBytes 2 secs)) s = .next (refused s p Err.range)) ∧
    ((holderOf p = none ∨ holderOf p = some 9) → s.leasedAway p a = false →
      exec (.lease p ([nb a, 0] ++ leBytes 2 secs)) s = .next (refused s p Err.range)) ∧
    (holderOf p = some h → 1 ≤ a.val → a.val ≤ 13 → s.leasedAway p a = false → (s.lease? a).isSome = true →
      Does (.release p [nb a]) s fun u => u.out = [.answer p Err.ok []] ∧ u.lease? a = none ∧
        u.get (O.LEASE_HOLDER a) = 0xFF ∧ (g.val / 16 = a.val → isGroup g = true → s.groupSt g = gDirty →
          u.groupSt g = gClean)) ∧
    (1 ≤ a.val → a.val ≤ 13 → (s.lease? a = none ∨ holderOf p = none) →
      exec (.release p [nb a]) s = .next { fresh s with out := [.answer p Err.ok []] }) ∧
    ((s.lease? a).isSome = true → s.timersRun = true →
      Does (.leaseExpire a) s fun u => u.lease? a = none ∧ u.get (O.LEASE_HOLDER a) = 0xFF ∧
        (g.val / 16 = a.val → isGroup g = true → s.groupSt g = gDirty → u.groupSt g = gClean)) ∧
    (isGroup g = true → s.leasedAway p (g / 16) = true →
      exec (.discard p [nb g]) s = .next (refused s p Err.leased)) ∧
    (d.length = 32 → (∀ k ∈ namedIn d, isGroup k = true) → (∃ k ∈ namedIn d, s.leasedAway p (k / 16) = true) →
      exec (.commit p d) s = .next (answers s p Err.leased ((fresh s).lastError (namedIn d) Err.leased)))

/-- REGISTER_WRITE of a register, where the dictionary answers, the host reaches the device (STRAP_PCIE_OFF clear) and
the function is not in D3hot (the model's choice, log 103), has that register's effect; where not, it has none. A read
of OW_STATUS (log 105) answers BUSY, overrun, error code and tag. A write of OW_CMD of a window that is not BUSY
starts its operation with code [3:0], interrupt wish [8] and tag [31:16] and puts it last in the windows' order; of a
BUSY window it sets the overrun bit and nothing else changes. OW_OPERATION_DONE on an operation that has not reached
the dictionary carries it out first; on one that has its answer it frees the window and shows the error code, the tag
and the returned data, and raises the window's source if asked; a COMMIT not answered yet keeps it BUSY.
BOLSY_SECRET_ROLLOVER keeps the last secret as the old one. A frame to a management port that is not Bolsy is answered
where R53 has an answer, padded to 60 bytes, while the firmware is replaced too, and counted as dropped where it has
none and answers no address resolution of the device (log 84). Which accesses of 64 bits a register takes, and that a
window write after its operation began is lost, are the model's choices (log 30); so are the frame formats and the
padding (log 19). (02 R48, 02 R49, 02 R50, 02 R52, 02 R53, 02 R57, 02 R66.) -/
def Obligations.WindowsAndManagementFrames : Prop :=
  ∀ (s : State) (w : Window) (off : Fin 1048576) (v : BitVec 64) (m : MgmtPort) (bytes : List Byte), Runs s →
    (∀ wide, s.sys.initDone = true → s.hostReaches = true → s.host.d3hot = false →
      exec (.registerWrite off wide (.write v)) s =
        .next (ran s ((fresh s).barWrite off (if wide then v.toNat else v.toNat % 2 ^ 32) wide)) ∧
      exec (.registerWrite off wide .read) s = .next (ran s ((fresh s).barRead off wide))) ∧
    (∀ wide a, s.sys.initDone = false ∨ s.hostReaches = false ∨ s.host.d3hot = true → exec (.registerWrite off wide a) s = .next (fresh s)) ∧
    (s.sys.initDone = true → s.hostReaches = true → s.host.d3hot = false → off.val = 0x20000 + w.val * 0x1000 + 0x014 →
      exec (.registerWrite off false .read) s = .next { fresh s with
        out := [.bar (some ((if (s.win w).op.isSome then 1 else 0) + (if (s.win w).overrun then 2 else 0) +
          256 * ((s.win w).err % 256) + 65536 * (s.win w).tag))] }) ∧
    (s.sys.initDone = true → s.hostReaches = true → s.host.d3hot = false → off.val = 0x20000 + w.val * 0x1000 + 0x010 →
      v.toNat < 2 ^ 32 → (s.win w).op = none →
      Does (.registerWrite off false (.write v)) s fun u =>
        u.win w = { s.win w with
          overrun := false, op := some ⟨v.toNat % 16, v.toNat / 65536, bit v.toNat 8, false, none⟩ } ∧
        u.dict.winOrder = s.dict.winOrder ++ [w.val] ∧ u.dict.objs = s.dict.objs) ∧
    (s.sys.initDone = true → s.hostReaches = true → s.host.d3hot = false → off.val = 0x20000 + w.val * 0x1000 + 0x010 →
      (s.win w).op.isSome = true →
      exec (.registerWrite off false (.write v)) s =
        .next (ran s ((fresh s).putWin w { s.win w with overrun := true }))) ∧
    (∀ o v, (s.win w).op = some o → o.sent = false → s.dict.winOrder = [w.val] →
      let r : Ref := ⟨(s.win w).index / 65536, (s.win w).inst, (s.win w).index % 256⟩
      let d := (padTo 512 (s.win w).data).take (s.win w).length
      let x := State.dictOp { fresh s with dict := { s.dict with winOrder := [] } } (.window w) o.code r
        (s.win w).offset (s.win w).length d false
      (∀ a, x = (some a, v) → Does (.owOperationDone w) s fun u => (u.win w).op = none ∧ (u.win w).err = a.1 ∧
        (u.win w).tag = o.tag ∧ u.irq.doorbells = v.irq.doorbells ++ (if o.irq then [0xBA0 + w.val] else [])) ∧
      (x = (none, v) → Does (.owOperationDone w) s fun u =>
        (u.win w).op = some { o with sent := true, answer := none })) ∧
    (∀ o a, (s.win w).op = some o → o.sent = true → o.answer = some a →
      Does (.owOperationDone w) s fun u => (u.win w).op = none ∧ (u.win w).err = a.1 ∧ (u.win w).tag = o.tag ∧
        (returnsData o.code = true → a.2.length ≤ 256 →
          (u.win w).length = a.2.length ∧ (u.win w).data.take a.2.length = a.2) ∧
        u.irq.doorbells = s.irq.doorbells ++ (if o.irq then [0xBA0 + w.val] else [])) ∧
    (Does .bolsySecretRollover s fun u => u.dict.secretOld = s.dict.secretNow ∧ u.dict.objs = s.dict.objs) ∧
    (s.flag (O.MGMT_ENABLE m) = true → s.get (O.MGMT_MAC m) ≠ 0 → (s.sys.fw = .running ∨ s.sys.fw = .switching) →
      (∀ b, s.mgmtAnswer m bytes = some b →
        exec (.mgmtFrameReceive m bytes) s = .next { fresh s with out := [.mgmt m (padTo 60
          (mgmtDst bytes ++ s.mgmtMac m ++ beBytes 2 (beAt bytes 12 2) ++ b))] }) ∧
      (s.mgmtAnswer m bytes = none → s.resolves m bytes = false →
        Does (.mgmtFrameReceive m bytes) s fun u => u.out = [] ∧
          u.get (O.BOLSY_DROPS 9) = (s.get (O.BOLSY_DROPS 9) + 1) % 2 ^ 64))

/-- A HELLO within HELLO_RATE from an enabled manager is answered with a challenge sealed under Kdm. An OPEN with a
fresh cookie and a right tag opens the lowest free session, names its manager, raises BOLSY_SESSION_OPEN and is
answered with the accept frame. A request with a right tag that is still executing is counted and dropped, and so is
one of number 0 or below the 64-slot window; one whose response is cached is answered with that response, byte for
byte but for flag bit 0, which is set; a new one, with none executing, is entered as the session's highest and
executed. A CLOSE with a higher number is answered and ends the session; SESSION_CLOSE and SESSION_IDLE_TIMEOUT end
it, and with no lease held anywhere nothing but the session, its objects and BOLSY_SESSION_CLOSED changes. The model's
choices: the session and sequence fields of HELLO and OPEN are not checked, and the HELLOs of the last second count
for the rate (log 28); the Session byte of ACCEPT (log 108); a HELLO, OPEN or CLOSE of another payload length is
malformed (log 109). (02 R54, 02 R57, 02 R58, 02 R59, 02 R60, 02 R61, 02 R66.) -/
def Obligations.BolsySessions : Prop :=
  ∀ (s : State) (m : MgmtPort) (f : Udp) (p : Path) (k : Session) (x : Sess),
    (∀ mid nm nd, mid = byteAt (f.payload.drop 16) 0 → nm = slice (f.payload.drop 16) 4 16 →
      nd = cookie s.dict.secretNow f mid nm → BolsyComes s m f 1 → s.managerOn mid = true →
      ((s.dict.hellos.filter fun h => decide (s.now < h.2 + ticksOfS 1)).filter (·.1 == m.val)).length <
        s.get O.HELLO_RATE →
      Does (.hello m f) s fun u => u.out = [.udp m f.v6 f.dstAddr f.dstPort f.srcAddr f.srcPort
        (sealed (sessionKeys (s.managerKey mid) nm nd).2
          (bolsyBody 2 0 0xFF 0 ([nb mid, 0, 0, 0] ++ nm ++ nd)))] ∧ u.dict.objs = s.dict.objs) ∧
    (∀ mid nm nd, mid = byteAt (f.payload.drop 16) 0 → nm = slice (f.payload.drop 16) 4 16 →
      nd = slice (f.payload.drop 16) 20 16 → BolsyComes s m f 3 → s.managerOn mid = true →
      nd = cookie s.dict.secretNow f mid nm → tagOk (sessionKeys (s.managerKey mid) nm nd).1 f.payload = true →
      (∀ e ∈ s.dict.sessions, ¬ (e.2.nm = nm ∧ e.2.nd = nd)) →
      firstFrom (fun j => (s.session? j).isNone) 0 8 = some k.val →
      Does (.open_ m f) s fun u => (∃ y, u.session? k = some y ∧ y.nm = nm ∧ y.nd = nd ∧
          y.idle = s.grantIdle (beAt (f.payload.drop 16) 36 2) ∧ y.jobs = [] ∧
          u.out = [.udp m f.v6 f.dstAddr f.dstPort f.srcAddr f.srcPort y.accept]) ∧
        u.get (O.SESSION_STATE k) = 1 ∧ u.get (O.SESSION_MANAGER k) = mid ∧
        u.irq.doorbells = s.irq.doorbells ++ [0xBC1]) ∧
    (∀ n, n = beAt f.payload 8 8 → k.val = byteAt f.payload 5 → BolsyComes s m f 0x10 → s.session? k = some x →
      tagOk x.kmd f.payload = true → n ≠ 0 → s.get (O.SESSION_HIGHEST k) ≤ n + 63 →
      (x.jobs.any (·.seq == n) = true →
        Does (.bolsyRequest m f) s fun u => u.out = [] ∧
          u.get (O.BOLSY_DROPS 5) = (s.get (O.BOLSY_DROPS 5) + 1) % 2 ^ 64) ∧
      (∀ c, x.jobs.any (·.seq == n) = false → x.cache.find? (·.1 == n) = some c →
        Does (.bolsyRequest m f) s fun u => u.dict.objs = s.dict.objs ∧ u.out =
          [.udp m f.v6 f.dstAddr f.dstPort f.srcAddr f.srcPort (sealed x.kdm (patch c.2 4 [1]))]) ∧
      (∀ ops, x.jobs = [] → x.cache.find? (·.1 == n) = none → 1 ≤ byteAt f.payload 16 → byteAt f.payload 16 ≤ 16 →
        parseOps (byteAt f.payload 16) (((f.payload.drop 16).take (f.payload.length - 32)).drop 4) = some ops →
        exec (.bolsyRequest m f) s = .next (ran s (State.runSession
          ((((fresh s).modSess k fun y => { y with deadline := s.timerNow + ticksOfS y.idle }).set
              (O.SESSION_HIGHEST k) (max (s.get (O.SESSION_HIGHEST k)) n)).modSess k fun y =>
            { y with
              jobs := y.jobs ++ [⟨m, f, n, ops, []⟩]
              cache := y.cache.filter fun c => decide (max (s.get (O.SESSION_HIGHEST k)) n ≤ c.1 + 63) }) k)))) ∧
    (∀ n, n = beAt f.payload 8 8 → k.val = byteAt f.payload 5 → BolsyComes s m f 0x10 → s.session? k = some x →
      tagOk x.kmd f.payload = true → (n = 0 ∨ n + 63 < s.get (O.SESSION_HIGHEST k)) →
      Does (.bolsyRequest m f) s fun u => u.out = [] ∧
        u.get (O.BOLSY_DROPS 4) = (s.get (O.BOLSY_DROPS 4) + 1) % 2 ^ 64) ∧
    (∀ n, n = beAt f.payload 8 8 → k.val = byteAt f.payload 5 → BolsyComes s m f 0x20 → s.session? k = some x →
      tagOk x.kmd f.payload = true → s.get (O.SESSION_HIGHEST k) < n →
      exec (.bolsyClose m f) s = .next (ran s
        (((fresh s).reply m f (sealed x.kdm (bolsyBody 0x21 0 k n []))).sessionEnd k))) ∧
    (Takes s p (O.SESSION_CLOSE k) →
      exec (.sessionClose p k) s = .next (answers s p Err.ok (((fresh s).sessionEnd k).cmdDone (O.SESSION_CLOSE k)))) ∧
    (Runs s → s.session? k = some x → s.timersRun = true → s.dict.leases = [] →
      Does (.sessionIdleTimeout k) s fun u => u.session? k = none ∧ u.get (O.SESSION_STATE k) = 0 ∧
        u.get (O.SESSION_MANAGER k) = 0xFF ∧ u.irq.doorbells = s.irq.doorbells ++ [0xBC2] ∧
        ∀ r e, r ≠ O.SESSION_STATE k → r ≠ O.SESSION_MANAGER k → r ≠ O.SESSION_HIGHEST k → u.get r e = s.get r e)

/-- REFCLK_LOSS of a healthy input makes REF_HEALTHY FALSE and counts. If the input was its bank's transmit reference,
the bank moves to the input TX_REF_SELECT names if that is healthy, else with failover to the lowest healthy one, else
BANK_STATE is 2 and every lane of the bank beyond DETECT goes to DETECT with exit reason 7; if not, the reference
stays. The input's 16 lanes beyond DETECT go to DETECT in every case, lanes outside the bank keep their stage.
REFCLK_HEALTHY and TX_PLL_LOCK set the input or the reference, and lanes in DETECT that have seen 1 ms of signal and
have a reference go to TRAIN, or LOCK without training. DIE_TO_DIE_LINK_LOSS puts every lane of the bank that is out
of OFF in DETECT and is reported. This holds where no microsequencer concerned has lost its memory; the lanes of a
bank whose has keep their stage under each of these events, until a firmware reload. (03 R71, 03 R72, 03 R79, 13
R383.) -/
def Obligations.ReferenceInputsAndTransmitClocks : Prop :=
  ∀ (s : State) (n : RefInput) (b : LaneBank) (m : BitVec 32) (r : Nat), Runs s →
    (∀ c ∈ [Instr.refclkLoss n, .refclkHealthy n, .txPllLock b, .dieToDieLinkLoss b m], Does c s fun u =>
      ∀ l, s.sys.seqDown.contains (l / 64) = true → u.stage l = s.stage l) ∧
    (s.sys.seqDown.contains b.val = false → s.sys.seqDown.contains (n.val / 4) = false →
    (n.val / 4 = b.val → s.flag (O.REF_HEALTHY n) = true → s.get (O.BANK_STATE b) = 1 →
      s.get (O.TX_REF_ACTIVE b) = n.val % 4 →
      (let hs := (s.healthyRefs b).filter (· != n.val % 4)
       (r = s.get (O.TX_REF_SELECT b) ∧ r ∈ hs) ∨
       (s.get (O.TX_REF_SELECT b) ∉ hs ∧ s.flag (O.REF_FAILOVER b) = true ∧ hs.head? = some r)) →
      Does (.refclkLoss n) s fun u => u.get (O.REF_HEALTHY n) = 0 ∧
        u.get (O.REF_LOSS_COUNT n) = min (s.get (O.REF_LOSS_COUNT n) + 1) (2 ^ 32 - 1) ∧
        u.get (O.TX_REF_ACTIVE b) = r ∧ u.get (O.BANK_STATE b) = 1 ∧
        (∀ l, l / 16 = n.val → Stage.detect < s.stage l →
          u.stage l = Stage.detect ∧ u.get (O.LAST_EXIT l) = 7) ∧
        ∀ l, l / 16 ≠ n.val → u.stage l = s.stage l) ∧
    (n.val / 4 = b.val → s.flag (O.REF_HEALTHY n) = true → s.get (O.BANK_STATE b) = 1 →
      s.get (O.TX_REF_ACTIVE b) = n.val % 4 →
      s.get (O.TX_REF_SELECT b) ∉ (s.healthyRefs b).filter (· != n.val % 4) →
      (s.flag (O.REF_FAILOVER b) = false ∨ (s.healthyRefs b).filter (· != n.val % 4) = []) →
      Does (.refclkLoss n) s fun u => u.get (O.REF_HEALTHY n) = 0 ∧ u.get (O.BANK_STATE b) = 2 ∧
        (∀ l, l / 64 = b.val → Stage.detect < s.stage l →
          u.stage l = Stage.detect ∧ u.get (O.LAST_EXIT l) = 7) ∧
        ∀ l, l / 64 ≠ b.val → u.stage l = s.stage l) ∧
    (n.val / 4 = b.val → s.flag (O.REF_HEALTHY n) = true →
      (s.get (O.BANK_STATE b) ≠ 1 ∨ s.get (O.TX_REF_ACTIVE b) ≠ n.val % 4) →
      Does (.refclkLoss n) s fun u => u.get (O.REF_HEALTHY n) = 0 ∧ u.get (O.BANK_STATE b) = s.get (O.BANK_STATE b) ∧
        u.get (O.TX_REF_ACTIVE b) = s.get (O.TX_REF_ACTIVE b) ∧
        (∀ l, l / 16 = n.val → Stage.detect < s.stage l →
          u.stage l = Stage.detect ∧ u.get (O.LAST_EXIT l) = 7) ∧
        ∀ l, l / 16 ≠ n.val → u.stage l = s.stage l) ∧
    (s.flag (O.REF_HEALTHY n) = false → exec (.refclkLoss n) s = .next (fresh s)) ∧
    (s.flag (O.REF_HEALTHY n) = true → exec (.refclkHealthy n) s = .next (fresh s)) ∧
    (s.flag (O.REF_HEALTHY n) = false → Does (.refclkHealthy n) s fun u => u.get (O.REF_HEALTHY n) = 1 ∧
        (∀ l, l / 16 = n.val → s.stage l = Stage.detect → (s.lane l).good = true → s.get (O.BANK_STATE (l / 64)) = 1 →
          u.stage l = if s.flag (O.TRAIN_ENABLE l) then Stage.train else Stage.lock) ∧
        ∀ l, l / 16 ≠ n.val → u.stage l = s.stage l) ∧
    (s.get (O.BANK_STATE b) ≠ 1 → s.refToTake b = some r →
      Does (.txPllLock b) s fun u => u.get (O.BANK_STATE b) = 1 ∧ u.get (O.TX_REF_ACTIVE b) = r ∧
        (∀ l, l / 64 = b.val → s.stage l = Stage.detect → (s.lane l).good = true →
          s.flag (O.REF_HEALTHY (l / 16)) = true →
          u.stage l = if s.flag (O.TRAIN_ENABLE l) then Stage.train else Stage.lock) ∧
        ∀ l, l / 64 ≠ b.val → u.stage l = s.stage l) ∧
    (s.get (O.BANK_STATE b) ≠ 1 → s.refToTake b = none → exec (.txPllLock b) s = .next (fresh s)) ∧
    (Does (.dieToDieLinkLoss b m) s fun u =>
        (∀ l, l / 64 = b.val → s.stage l ≠ Stage.off → u.stage l = Stage.detect) ∧
        (∀ l, l / 64 ≠ b.val → u.stage l = s.stage l) ∧
        (s.faults.reports ++ [⟨0x028 + b, unitId 7 b, unitId 7 b, detailS (leBytes 4 m.toNat), false⟩]) <+:
          u.faults.reports))

/-- LOS_DEASSERT takes a lane in DETECT with reference to TRAIN, or LOCK without training; training starts in phase A,
at 106.25 GBd in mode 5 (code 4), with nothing of an earlier training left (that its request numbers start anew is the
model's choice, log 112). It notes the signal in any other stage out of OFF. A G4 training frame whose CRC holds shows
the partner's words and its ready and phase bits, its request is applied once per sequence number and echoed, the SNR
sets the lane's ready bit, and the lane's own frame is sent; with a wrong CRC, or outside TRAIN or mode 5, it changes
nothing. TRAIN_PHASE_B_SWITCH sets the phase to B, and the mode code in use to 5, where both ends list G4 and 16
frames with the phase field at 1 are sent and seen, else nothing. TRAIN_COMPLETE goes to LOCK at the trained rate, and
not before the training may end; where a mode-5 port has lanes trained at 212.5 Gb/s and at 425 Gb/s the latter train
again without G4. MARKER_LOCK on an accepted group notes the lock, and at 425 Gb/s the lane sends its own accepted
group. LOCK_HOLD_COMPLETE, all lanes of the port locked and skew within 180 ns, goes to EXCHANGE at 425 Gb/s, else to
ACTIVE, and shows the skew. EXCHANGE_BLOCK_RECEIVE with matching words sends the own block with ack, and goes to
ACTIVE if the partner's has it; with other words it is reported once per entry and the lane stays. Each is stated
where the bank's microsequencer has its memory (13 R383). No event but TRAIN_COMPLETE changes another lane's stage.
(03 R73, 03 R79, 03 R80, 03 R81, 03 R84, 03 R85, 03 R87, 03 R89, 03 R90, 04 R103, 03 R78.) -/
def Obligations.BringUpStageByStage : Prop :=
  ∀ (s : State) (l : Lane) (w : BitVec 208) (snr : BitVec 16) (skew : BitVec 32) (caps : BitVec 128)
    (group : List Byte), Runs s → s.sys.seqDown.contains (bankOfLane l) = false →
    (s.stage l = Stage.detect → s.laneClocked l = true →
      Does (.losDeassert l) s fun u => (u.lane l).los = false ∧ (u.lane l).good = true ∧
        u.stage l = (if s.flag (O.TRAIN_ENABLE l) then Stage.train else Stage.lock) ∧
        (s.flag (O.TRAIN_ENABLE l) = true → u.get (O.TX_FIR l) = s.get (O.TX_FIR_INIT l) ∧
          u.get (O.RATE_ACTIVE l) = (if s.get (O.LANE_MODE l) = 5 then 4 else s.get (O.LANE_MODE l)) ∧
          u.get (O.TRAIN_PHASE l) = 0 ∧ (u.lane l).ready = false ∧ (u.lane l).ackSeen = false ∧
          (u.lane l).appliedSeq = none) ∧
        (s.flag (O.TRAIN_ENABLE l) = false → u.get (O.RATE_ACTIVE l) = s.get (O.LANE_MODE l)) ∧
        ∀ k, k ≠ l.val → u.stage k = s.stage k ∧ u.lane k = s.lane k) ∧
    ((s.stage l = Stage.detect ∧ s.laneClocked l = false) ∨ Stage.detect < s.stage l →
      exec (.losDeassert l) s = .next (ran s ((fresh s).putLane l { s.lane l with los := false, good := true }))) ∧
    (s.stage l = Stage.off → exec (.losDeassert l) s = .next (fresh s)) ∧
    (s.stage l = Stage.train → s.get (O.LANE_MODE l) = 5 → crc16Bits (w.toNat / 2 ^ 16) 192 = w.toNat % 2 ^ 16 →
      let control := w.toNat / 2 ^ 176
      let status := bits w.toNat 175 144
      let seq := bits control 31 16
      Does (.trainingFrameReceive l ⟨w, snr⟩) s fun u => let x := s.lane l; let y := u.lane l
        y.appliedSeq = some seq ∧
        (x.appliedSeq = some seq → u.get (O.TX_FIR l) = s.get (O.TX_FIR l) ∧ y.result = x.result) ∧
        (x.appliedSeq ≠ some seq → s.get (O.TX_FIR_MODE l) = 1 →
          u.get (O.TX_FIR l) = s.get (O.TX_FIR l) ∧ y.result = 0) ∧
        (x.appliedSeq ≠ some seq → s.get (O.TX_FIR_MODE l) ≠ 1 →
          u.get (O.TX_FIR l) = (tapRequests (s.get (O.TX_FIR l)) control).2 ∧
          y.result = (tapRequests (s.get (O.TX_FIR l)) control).1) ∧
        (bits status 31 16 ≠ x.reqSeq → y.reqSeq = x.reqSeq ∧ y.reqCtl = x.reqCtl) ∧
        y.partnerG4 = bit (bits (bits w.toNat 143 16) 95 64) 4 ∧
        y.partnerReady = (if bit status 6 then min 3 (x.partnerReady + 1) else 0) ∧
        y.phaseSeen = (if bit control 9 then min 16 (x.phaseSeen + 1) else 0) ∧
        u.get (O.SNR l) = snr.toNat ∧
        y.ready = decide (readyLevel (if s.get (O.TRAIN_PHASE l) = 1 then 5 else 4) ≤ snr.toNat) ∧
        u.getAll (O.PARTNER_CAPS l) 16 = (beBytes 16 (bits w.toNat 143 16)).map bn ∧
        u.out = [.training l (trainingFields (y.reqCtl + 2 ^ 9 * b01 y.phaseOut + 2 ^ 16 * y.reqSeq)
          (y.result + 64 * b01 y.ready + 2 ^ 16 * seq) (u.ownCaps l))] ∧
        (∀ r e, r ≠ O.TX_FIR l → r ≠ O.PARTNER_CAPS l → r ≠ O.SNR l → u.get r e = s.get r e) ∧
        ∀ k, k ≠ l.val → u.lane k = s.lane k) ∧
    ((s.stage l ≠ Stage.train ∨ s.get (O.LANE_MODE l) ≠ 5 ∨ crc16Bits (w.toNat / 2 ^ 16) 192 ≠ w.toNat % 2 ^ 16) →
      exec (.trainingFrameReceive l ⟨w, snr⟩) s = .next (fresh s)) ∧
    (let go := s.stage l = Stage.train ∧ s.get (O.TRAIN_PHASE l) = 0 ∧ s.g4Possible l = true ∧
       (s.lane l).phaseOut = true ∧ 16 ≤ (s.lane l).phaseSeen
     (go → exec (.trainPhaseBSwitch l) s = .next (ran s
       (((((fresh s).set (O.TRAIN_PHASE l) 1).set (O.RATE_ACTIVE l) 5).putLane l { s.lane l with ready := false, partnerReady := 0 }).sendTraining
         l))) ∧
     (¬ go → exec (.trainPhaseBSwitch l) s = .next (fresh s))) ∧
    (∀ r, s.stage l = Stage.train → s.trainedRate l = some r →
      let slow := ∃ q, s.portOfLane l = some q ∧ ∃ j ∈ s.portLanes q, j ≠ l.val ∧ Stage.lock ≤ s.stage j ∧
        s.get (O.LANE_MODE j) = 5 ∧ s.get (O.RATE_ACTIVE j) = 4
      (Does (.trainComplete l) s fun u => u.get (O.RATE_ACTIVE l) = r ∧
        (s.get (O.LANE_MODE l) = 5 → u.get (O.SNR l) = s.get (O.SNR l)) ∧
        (r ≠ 5 ∨ ¬ slow → u.stage l = Stage.lock ∧ u.get (O.TX_FIR l) = s.get (O.TX_FIR l)) ∧
        (r = 5 → slow → u.stage l = Stage.train ∧ u.get (O.LAST_EXIT l) = 9)) ∧
      ((∀ k, s.portOfLane l = some k → ∀ j ∈ s.portLanes k, j ≠ l.val → s.stage j < Stage.lock) →
        Does (.trainComplete l) s fun u => ∀ k, k ≠ l.val → u.stage k = s.stage k) ∧
      (∀ q, r = 4 → s.get (O.LANE_MODE l) = 5 → s.portOfLane l = some q → Does (.trainComplete l) s fun u =>
        ∀ j ∈ s.portLanes q, j ≠ l.val → bankOfLane j = bankOfLane l → s.get (O.LANE_MODE j) = 5 → s.get (O.RATE_ACTIVE j) = 5 →
          Stage.lock ≤ s.stage j → u.stage j = Stage.train ∧ u.get (O.LAST_EXIT j) = 9 ∧ (u.lane j).g4Held = true)) ∧
    (s.stage l ≠ Stage.train ∨ s.trainedRate l = none → exec (.trainComplete l) s = .next (fresh s)) ∧
    (s.stage l = Stage.lock → (s.get (O.RATE_ACTIVE l) = 5 → groupOk group = true) →
      Does (.markerLock ⟨l, group⟩) s fun u => (u.lane l).locked = true ∧
        (s.get (O.RATE_ACTIVE l) = 5 → (u.lane l).link = byteAt group 12 ∧
          ∃ b, u.out = [.markers l b] ∧ groupOk b = true) ∧
        (s.get (O.RATE_ACTIVE l) ≠ 5 → u.out = []) ∧
        (∀ k, u.stage k = s.stage k) ∧ ∀ k, k ≠ l.val → u.lane k = s.lane k) ∧
    (s.stage l ≠ Stage.lock ∨ (s.get (O.RATE_ACTIVE l) = 5 ∧ groupOk group = false) →
      exec (.markerLock ⟨l, group⟩) s = .next (fresh s)) ∧
    (let go := s.stage l = Stage.lock ∧ (s.lanesWith l).all s.laneLocked = true ∧
       spread (s.skewsWith l skew.toNat) ≤ skewLimit
     (go → Does (.lockHoldComplete l skew) s fun u => u.get (O.SKEW_PS l) = skew.toNat ∧
        u.stage l = (if s.get (O.RATE_ACTIVE l) = 5 then Stage.exchange else Stage.active) ∧
        ∀ r e, r ≠ O.SKEW_PS l → r ≠ O.STAGE l → r ≠ O.FFE_TAPS l → r ≠ O.DFE_TAP l → r ≠ O.CLAMP_COUNT l →
          r ≠ O.SEQDET_CORRECTIONS l → u.get r e = s.get r e) ∧
     (¬ go → exec (.lockHoldComplete l skew) s = .next (fresh s))) ∧
    (s.stage l = Stage.exchange → s.capsMatch l caps.toNat = true →
      Does (.exchangeBlockReceive l caps) s fun u => (u.lane l).ackSeen = true ∧
        u.stage l = (if bit caps.toNat 97 then Stage.active else Stage.exchange) ∧
        u.out = [.exchange l (exchangeBlock (s.lane l).exCount (u.ownCaps l))] ∧
        (s.get (O.PORT_CHECK_TAG l) < 2 ^ 16 → bit (u.ownCaps l) 97 = true) ∧
        u.getAll (O.PARTNER_CAPS l) 16 = (beBytes 16 caps.toNat).map bn ∧ u.faults = s.faults) ∧
    (s.stage l = Stage.exchange → s.capsMatch l caps.toNat = false →
      Does (.exchangeBlockReceive l caps) s fun u => u.stage l = Stage.exchange ∧ (u.lane l).ackSeen = false ∧
        (u.lane l).mismatch = true ∧ u.out = [.exchange l (exchangeBlock (s.lane l).exCount (u.ownCaps l))] ∧
        u.getAll (O.PARTNER_CAPS l) 16 = (beBytes 16 caps.toNat).map bn ∧
        u.faults.reports.length = s.faults.reports.length + if (s.lane l).mismatch then 0 else 1) ∧
    (s.stage l ≠ Stage.exchange → exec (.exchangeBlockReceive l caps) s = .next (fresh s))

/-- LOS_ASSERT takes a lane that is beyond DETECT and has signal to DETECT with reason 1; it counts and reports it in
DETECT too; in OFF, or asserted already, it changes nothing. TRAIN_TIMEOUT goes to DETECT, LOCK_TIMEOUT to TRAIN (with
reason 8 where the port's deskew has failed since the lane entered LOCK, log 75, else 5), both counted and reported;
EXCHANGE_TIMEOUT goes to LOCK. LOCK_LOSS in ACTIVE goes to LOCK with reason 2 and keeps FIR and coefficients, counted
and reported; in LOCK it only ends the hold. PARTNER_TRAINING_DETECT in ACTIVE goes to TRAIN. A lane that leaves
ACTIVE takes its port out of UP in the same clock. DESKEW_FAIL shows the skews against the earliest lane, reports the
port's lowest lane and leaves every lane in its stage. RETRAIN in TRAIN or beyond answers OK and restarts TRAIN with
reason 4; in DETECT or OFF it is refused with ERR_STATE. No event changes another lane's stage. A bank whose
microsequencer has lost its memory holds its lanes in their stage under all of them. That PARTNER_TRAINING_DETECT
passes LOCK in the same instant, and the lane that DESKEW_FAIL reports, are the model's choices (log 32). (03 R79, 03
R82, 03 R89, 03 R90, 03 R91, 03 R94, 04 R105, 13 R383, 02 R40.) -/
def Obligations.LanesFallBack : Prop :=
  ∀ (s : State) (l : Lane) (p : Path) (q : Port) (ks : List (BitVec 32)), Runs s →
    (s.sys.seqDown.contains (bankOfLane l) = true →
      ∀ c ∈ [Instr.losAssert l, .trainTimeout l, .lockTimeout l, .exchangeTimeout l, .lockLoss l, .partnerTrainingDetect l,
        .retrain p l, .losDeassert l, .trainComplete l, .exchangeBlockReceive l 0], Does c s fun u => ∀ k, u.stage k = s.stage k) ∧
    (s.sys.seqDown.contains (bankOfLane l) = false →
    let sources := fun (u : State) => u.faults.reports.map (·.source)
    let portGone := fun (u : State) => s.stage l = Stage.active → ∀ k, s.portOfLane l = some k → (u.port k).up = false
    (s.stage l ≠ Stage.off → (s.lane l).los = false →
      Does (.losAssert l) s fun u => u.stage l = Stage.detect ∧ (u.lane l).los = true ∧
        (Stage.detect < s.stage l → u.get (O.LAST_EXIT l) = 1) ∧ portGone u ∧
        u.get (O.LANE_EVENTS l 1) = min (s.get (O.LANE_EVENTS l 1) + 1) (2 ^ 32 - 1) ∧
        (sources s ++ [0x030 + l.val / 64]) <+: sources u ∧ ∀ k, k ≠ l.val → u.stage k = s.stage k) ∧
    (s.stage l = Stage.off ∨ (s.lane l).los = true → exec (.losAssert l) s = .next (fresh s)) ∧
    (s.stage l = Stage.train →
      Does (.trainTimeout l) s fun u => u.stage l = Stage.detect ∧ u.get (O.LAST_EXIT l) = 5 ∧
        u.get (O.LANE_EVENTS l 3) = min (s.get (O.LANE_EVENTS l 3) + 1) (2 ^ 32 - 1) ∧
        sources u = sources s ++ [0x040 + l.val / 64] ∧ ∀ k, k ≠ l.val → u.stage k = s.stage k) ∧
    (s.stage l = Stage.lock →
      Does (.lockTimeout l) s fun u => u.stage l = Stage.train ∧
        u.get (O.LAST_EXIT l) = (if (s.lane l).deskew then 8 else 5) ∧
        u.get (O.LANE_EVENTS l 4) = min (s.get (O.LANE_EVENTS l 4) + 1) (2 ^ 32 - 1) ∧
        sources u = sources s ++ [0x048 + l.val / 64] ∧ ∀ k, k ≠ l.val → u.stage k = s.stage k) ∧
    (s.stage l = Stage.exchange →
      Does (.exchangeTimeout l) s fun u => u.stage l = Stage.lock ∧ u.get (O.LAST_EXIT l) = 5 ∧
        u.faults.reports = s.faults.reports ∧ ∀ k, k ≠ l.val → u.stage k = s.stage k) ∧
    (s.stage l = Stage.active →
      Does (.lockLoss l) s fun u => u.stage l = Stage.lock ∧ u.get (O.LAST_EXIT l) = 2 ∧ portGone u ∧
        u.get (O.LANE_EVENTS l 2) = min (s.get (O.LANE_EVENTS l 2) + 1) (2 ^ 32 - 1) ∧
        (sources s ++ [0x038 + l.val / 64]) <+: sources u ∧ u.get (O.TX_FIR l) = s.get (O.TX_FIR l) ∧
        (∀ e, u.get (O.FFE_TAPS l) e = s.get (O.FFE_TAPS l) e) ∧ u.get (O.DFE_TAP l) = s.get (O.DFE_TAP l) ∧
        u.get (O.FROZEN l) = 0 ∧ ∀ k, k ≠ l.val → u.stage k = s.stage k) ∧
    (s.stage l = Stage.lock →
      exec (.lockLoss l) s = .next (ran s ((fresh s).putLane l { s.lane l with locked := false }))) ∧
    (s.stage l = Stage.active →
      Does (.partnerTrainingDetect l) s fun u => u.stage l = Stage.train ∧ u.get (O.LAST_EXIT l) = 3 ∧ portGone u ∧
        ∀ k, k ≠ l.val → u.stage k = s.stage k) ∧
    (ks.length = s.portWidth q → skewLimit < spread (ks.map (·.toNat)) → (s.portLanes q).all s.laneLocked = true →
      (s.portLanes q).any (s.stage · == Stage.lock) = true →
      Does (.deskewFail q ks) s fun u => sources u = sources s ++ [0x058 + q.val / 64] ∧
        (∀ i, i < s.portWidth q → (u.lane (q.val + i)).deskew = true ∧ u.get (O.SKEW_PS (q.val + i)) =
          (ks.getD i 0).toNat - (ks.map (·.toNat)).foldl min ((ks.map (·.toNat)).headD 0)) ∧
        (∀ r e, r.idx ≠ 0x2101 ∨ r.sub ≠ 7 → u.get r e = s.get r e)) ∧
    (Takes s p (O.RETRAIN l) → Stage.train ≤ s.stage l →
      Does (.retrain p l) s fun u => u.out.getLast? = some (.answer p Err.ok []) ∧ u.stage l = Stage.train ∧
        u.get (O.LAST_EXIT l) = 4 ∧ portGone u ∧ (u.lane l).g4Held = false ∧ ∀ k, k ≠ l.val → u.stage k = s.stage k) ∧
    (Takes s p (O.RETRAIN l) → s.stage l ≤ Stage.detect → exec (.retrain p l) s = .next (refused s p Err.state)))

/-- ADAPTATION_FREEZE on an ACTIVE lane with FREEZE_ENABLE that is not frozen, after FREEZE_AFTER_US of low-
information windows alone (idle only, or fewer transitions than VARIETY_MIN), counts and sets FROZEN; ADAPTATION_THAW
after THAW_AFTER_US without one clears it; each otherwise changes nothing. EYE_SCAN of eye 0-3 on an ACTIVE lane
starts (eye 0 alone in NRZ, else ERR_RANGE, log 76); outside ACTIVE it is refused with ERR_STATE; EYE_SCAN_DONE ends
it with 6 bytes for each eye. FFE_LOAD while adaptation is off answers OK and puts every tap it carries but the
cursor, clamped to the bound, the cursor at 256; more than 72 bytes are refused with ERR_OFFSET, and any with
ERR_STATE while adaptation is on. SNR_SUPERVISION of a lane in TRAIN or beyond shows the reading, in ACTIVE adaptation
goes on unless frozen; the sequence detector counts what it overturns, adaptation on or off; ten readings in a row
more than 1 dB below the ready level make the firmware retrain the lane and count it; a better one starts the count
anew, and so does AUTO_RETRAIN written FALSE. The coefficients that freezing and supervision leave are the model's
choice (log 79), and so is an FFE_LOAD of fewer than 72 bytes (log 58). (03 R80, 03 R88, 03 R92, 03 R93, 03 R95, 03
R96, 02 R40.) -/
def Obligations.LaneMonitors : Prop :=
  ∀ (s : State) (l : Lane) (p : Path) (sel : Byte) (d : List Byte) (snr : BitVec 16) (us : BitVec 32)
    (windows : List (Bool × Fin 17)), Runs s →
    (let low := fun (w : Bool × Fin 17) => w.1 = true ∨ w.2.val < s.get (O.VARIETY_MIN l)
     let freezes := s.stage l = Stage.active ∧ s.flag (O.FREEZE_ENABLE l) = true ∧ s.flag (O.FROZEN l) = false ∧
       s.get (O.FREEZE_AFTER_US l) ≤ us.toNat ∧ windows ≠ [] ∧ ∀ w ∈ windows, low w
     let thaws := s.get (O.THAW_AFTER_US l) ≤ us.toNat ∧ windows ≠ [] ∧ ∀ w ∈ windows, ¬ low w
     (freezes → exec (.adaptationFreeze ⟨l, us, windows⟩) s =
        .next (ran s ((((fresh s).adapt l).set (O.FROZEN l) 1).count32 (O.LANE_EVENTS l 5)))) ∧
     (¬ freezes → exec (.adaptationFreeze ⟨l, us, windows⟩) s = .next (fresh s)) ∧
     (thaws → exec (.adaptationThaw ⟨l, us, windows⟩) s = .next (ran s ((fresh s).set (O.FROZEN l) 0))) ∧
     (¬ thaws → exec (.adaptationThaw ⟨l, us, windows⟩) s = .next (fresh s))) ∧
    (Takes s p (O.EYE_SCAN l) → s.stage l = Stage.active → sel.toNat ≤ 3 → (s.get (O.LANE_MODE l) = 1 → sel = 0) →
      Does (.eyeScan p l sel) s fun u => u.out = [.answer p Err.ok []] ∧ (u.cmd (O.EYE_SCAN l)).status = 1 ∧
        (u.lane l).eyeSel = sel.toNat ∧ u.dict.objs = s.dict.objs) ∧
    (Takes s p (O.EYE_SCAN l) → (3 < sel.toNat ∨ (s.get (O.LANE_MODE l) = 1 ∧ sel ≠ 0)) →
      exec (.eyeScan p l sel) s = .next (refused s p Err.range)) ∧
    (Takes s p (O.EYE_SCAN l) → s.stage l ≠ Stage.active → sel.toNat ≤ 3 → (s.get (O.LANE_MODE l) = 1 → sel = 0) →
      exec (.eyeScan p l sel) s = .next (refused s p Err.state)) ∧
    (s.cmdRunning (O.EYE_SCAN l) = true → d.length = 18 → (s.lane l).eyeSel = 3 →
      Does (.eyeScanDone l d) s fun u => (u.cmd (O.EYE_SCAN l)).status = 2 ∧ (u.cmd (O.EYE_SCAN l)).result = d ∧
        u.getAll (O.EYE_RESULT l) 18 = d.map bn ∧ u.lanes = s.lanes) ∧
    (s.cmdRunning (O.EYE_SCAN l) = true → d.length = 18 → (s.lane l).eyeSel < 3 →
      Does (.eyeScanDone l d) s fun u => (u.cmd (O.EYE_SCAN l)).status = 2 ∧
        (u.cmd (O.EYE_SCAN l)).result = d.take 6 ∧ u.lanes = s.lanes) ∧
    (Ready s p → s.leasedAway p 2 = false → s.dict.busyTabs.contains (O.FFE_LOAD l) = false →
      s.flag (O.ADAPT_ENABLE l) = false →
      (d.length = 72 → s.get (O.FFE_BOUND l) < 2 ^ 15 →
        Does (.ffeLoad p l d) s fun u => u.out = [.answer p Err.ok []] ∧
          (∀ i : Fin 36, u.ffeTap l i = if i.val = s.get (O.FFE_CURSOR l) then 256 else
            max (-(s.get (O.FFE_BOUND l) : Int)) (min (s.get (O.FFE_BOUND l)) (toSigned 16 (leAt d (2 * i) 2)))) ∧
          ∀ r e, r ≠ O.FFE_TAPS l → r ≠ O.CLAMP_COUNT l → u.get r e = s.get r e) ∧
      (d.length ≤ 72 → exec (.ffeLoad p l d) s = .next (answers s p Err.ok
        ((fresh s).ffeLoad l (patch ((s.ffeTaps l).flatMap fun v => leBytes 2 (ofSigned 16 v)) 0 d))))) ∧
    (Ready s p → s.leasedAway p 2 = false → 72 < d.length →
      exec (.ffeLoad p l d) s = .next (refused s p Err.offset)) ∧
    (Ready s p → s.leasedAway p 2 = false → s.dict.busyTabs.contains (O.FFE_LOAD l) = false →
      d.length ≤ 72 → s.flag (O.ADAPT_ENABLE l) = true →
      exec (.ffeLoad p l d) s = .next (refused s p Err.state)) ∧
    (Ready s p → s.leasedAway p 2 = false → s.dict.busyTabs.contains (O.AUTO_RETRAIN (l.val / 64)) = false →
      Does (.write p (O.AUTO_RETRAIN (l.val / 64)) 0 [0]) s fun u =>
        u.get (O.AUTO_RETRAIN (l.val / 64)) = 0 ∧ (u.lane l).degraded = 0) ∧
    (s.stage l < Stage.train → exec (.snrSupervision l snr) s = .next (fresh s)) ∧
    (Stage.train ≤ s.stage l → s.stage l ≠ Stage.active →
      exec (.snrSupervision l snr) s = .next (ran s ((fresh s).set (O.SNR l) snr.toNat))) ∧
    (s.stage l = Stage.active →
      let v := ((fresh s).set (O.SNR l) snr.toNat).adaptLive l
      (s.flag (O.AUTO_RETRAIN (l.val / 64)) = false ∨ s.fwUp = false →
        exec (.snrSupervision l snr) s = .next (ran s v)) ∧
      (s.flag (O.AUTO_RETRAIN (l.val / 64)) = true → s.fwUp = true →
        (s.get (O.RATE_ACTIVE l) = 4 ∨ s.get (O.RATE_ACTIVE l) = 5) →
        (readyLevel (s.get (O.RATE_ACTIVE l)) ≤ snr.toNat + 256 →
          exec (.snrSupervision l snr) s = .next (ran s (v.putLane l { s.lane l with degraded := 0 }))) ∧
        (snr.toNat + 256 < readyLevel (s.get (O.RATE_ACTIVE l)) → (s.lane l).degraded < 9 →
          exec (.snrSupervision l snr) s =
            .next (ran s (v.putLane l { s.lane l with degraded := (s.lane l).degraded + 1 }))) ∧
        (snr.toNat + 256 < readyLevel (s.get (O.RATE_ACTIVE l)) → 9 ≤ (s.lane l).degraded →
          s.sys.seqDown.contains (bankOfLane l) = false →
          Does (.snrSupervision l snr) s fun u => u.stage l = Stage.train ∧ u.get (O.LAST_EXIT l) = 4 ∧
            u.get (O.SNR l) = snr.toNat ∧ (u.lane l).degraded = 0 ∧
            u.get (O.LANE_EVENTS l 6) = min (s.get (O.LANE_EVENTS l 6) + 1) (2 ^ 32 - 1))))

/-- A port whose lanes are all ACTIVE and ADMIN_UP comes up: it shows speed and FEC (its lanes running at a rate) and
lead, counts the change, raises PORT_LINK_UP unless it returns within its hold, signals no fault any more (the lanes
at 425 Gb/s that are ACTIVE say so in byte 12 of their next markers), and begins preemption as its settings say,
sending a verify mPacket where it verifies. A port that may not come up does not. An UP port that leaves UP has
nothing under way, no pause, no hold, counts the change and the cause, its event at once or after DOWN_HOLD_MS; the
frames under way are lost with 0x92, a preempted one with 0x93; with FLUSH_ON_DOWN its queues are emptied with 0x90. A
fault the PCS reports stands, whether the port was UP or not, while its lanes are ACTIVE, and ends where a lane or the
alignment is gone; the port signals Remote fault while its own stands, but not while it is DISABLED. Both fault bits
of byte 12 standing for it are the model's choice (log 72). DOWN_HOLD_EXPIRE raises PORT_LINK_DOWN of a port that is
held, and only then. (04 R99, 04 R103, 04 R104, 04 R105, 04 R106, 04 R116, 04 R120, 04 R122.) -/
def Obligations.PortsComeUpAndLeaveUp : Prop :=
  ∀ (s : State) (p : Port) (lead : BitVec 32) (cause : DownCause), Runs s →
    (s.mayComeUp p = true →
      Does (.portUp p lead) s fun u =>
        ((∀ l ∈ s.portLanes p, s.get (O.RATE_ACTIVE l) ≠ 0) → u.get (O.SPEED_ACTIVE p) =
          (if s.portMode p = 5 ∧ s.allG4 p = false then 200 * s.portWidth p
           else speedOf (s.portMode p) (s.portWidth p) (s.flag (O.SUBRATE_10G p))) ∧
        u.get (O.FEC_ACTIVE p) = fecActive (s.portMode p) (s.portWidth p) (s.flag (O.SUBRATE_10G p))
          (s.get (O.FEC_MODE p)) (s.allG4 p)) ∧
        u.get (O.EGRESS_LEAD_NS p) = lead.toNat ∧
        u.get (O.LINK_CHANGES p) = min (s.get (O.LINK_CHANGES p) + 1) (2 ^ 32 - 1) ∧
        (u.port p).up = true ∧ (u.port p).holding = false ∧ (u.port p).fault = [] ∧
        u.irq.doorbells = s.irq.doorbells ++ (if (s.port p).holding then [] else [0x120 + p.val / 16]) ∧
        u.get (O.VERIFY_STATUS p) = (if s.verifyRest p = 1 then 2 else 0) ∧
        u.get (O.PREEMPT_ACTIVE p) = b01 (s.flag (O.PREEMPT_ENABLE p) && s.flag (O.VERIFY_DISABLE p)) ∧
        (∃ ms, u.out = (if (s.port p).fault.contains 1 then .remoteFault p false :: ms else []) ++
            (if s.verifyRest p = 1 then [.mpacket p false] else []) ∧
          ms.length = ((s.portLanes p).filter fun l => s.get (O.RATE_ACTIVE l) == 5).length ∧
          ((∀ l ∈ s.portLanes p, s.portOfLane l = some p.val) →
            ∀ o ∈ ms, ∃ l ∈ s.portLanes p, ∃ b, o = .markers l b ∧ byteAt b 12 % 4 = 0)) ∧
        ∀ q, q ≠ p.val → u.port q = s.port q) ∧
    (s.mayComeUp p = false → exec (.portUp p lead) s = .next (fresh s)) ∧
    (∀ d e, d = (if (s.port p).up then (((leftUp (fresh s) p (downCode cause)).loseTx p (s.port p).tail
          true).loseTx p (s.port p).txPre false).loseTx p (s.port p).txExp false else fresh s) →
      e = (if (s.port p).up then (if d.flag (O.FLUSH_ON_DOWN p) then d.flushQueues p else d).postcardsDue else d) →
      ((cause = .laneLeft ∨ cause = .alignment) → exec (.portLeaveUp p cause) s = .next (ran s (e.setFault p []))) ∧
      ((cause = .localFault ∨ cause = .remoteFault) → exec (.portLeaveUp p cause) s = .next (ran s
        (if e.isPort p && (e.portLanes p).all (e.stage · == Stage.active)
         then e.setFault p (insNat (if cause = .localFault then 1 else 2) (e.port p).fault) else e)))) ∧
    (∀ t, (s.port p).up = true → (s.port p).tail = none → (s.port p).txPre = none → (s.port p).txExp = some t →
      t.frags = 0 → cause = .laneLeft → (((leftUp (fresh s) p 1).count64 (O.MAC_COUNTS p 11)).releaseAt t.fid t.tok 0x92
        0).flag (O.FLUSH_ON_DOWN p) = false →
      exec (.portLeaveUp p cause) s = .next (ran s ((((leftUp (fresh s) p 1).count64
        (O.MAC_COUNTS p 11)).releaseAt t.fid t.tok 0x92 0).postcardsDue.setFault p []))) ∧
    ((s.port p).up = false → (cause = .laneLeft ∨ cause = .alignment) →
      Does (.portLeaveUp p cause) s fun u => (u.port p).fault = [] ∧ (∀ r e, u.get r e = s.get r e) ∧
        u.out.head? = if s.faultSent p then some (.remoteFault p false) else none) ∧
    ((s.port p).up = false → s.isPort p = true → (∀ l ∈ s.portLanes p, s.stage l = Stage.active) →
      Does (.portLeaveUp p .localFault) s fun u => (u.port p).fault.contains 1 = true ∧
        (∀ r e, u.get r e = s.get r e) ∧ u.out.head? =
          (if s.flag (O.ADMIN_UP p) = true ∧ s.faultSent p = false then some (.remoteFault p true) else none)) ∧
    ((s.port p).holding = true → exec (.downHoldExpire p) s =
      .next (ran s (((fresh s).putPort p { s.port p with holding := false }).raise (0x100 + p.val / 16)))) ∧
    ((s.port p).holding = false → exec (.downHoldExpire p) s = .next (fresh s))

/-- A complete pause frame on an UP port in mode 1 counts, starts the pause of the whole port (quanta 0 ends it) and
is consumed with fate 0x0A; any other complete MAC control frame does what the port's mode has for it and is consumed
so too. PAUSE_EXPIRE ends the pause of the priority, or in mode 1 of the port, and PAUSED_NOW follows. PFC_REPEAT of
an UP port sends the frame of a class its FLOW_CTRL has, again while it is over XOFF: a PFC frame of the class's
priority in mode 2, a pause frame in mode 1; else nothing. PFC_WATCHDOG_TRIP of a paused priority in mode 2 with a
watchdog ends the pause, ignores the priority, counts and reports; PFC_RECOVER_EXPIRE ends the ignoring. (04 R107, 04
R111, 04 R112, 04 R113, 04 R114.) -/
def Obligations.PauseAndPriorityFlowControl : Prop :=
  ∀ (s : State) (p : Port) (prio : Fin 8) (high : Bool) (bytes : List Byte), Runs s →
    (∀ t q, t = ((fresh s).openFrame p false bytes).modPort p (fun x => { x with rxWhole := none }) →
      s.macOpen p = true → (s.port p).rxWhole = none → t.pkt? s.buf.nextFid = some q → q.bytes = bytes →
      q.src = .port p.val → q.enq = false → q.policed = none → q.phase ≠ .returning → isMacControl bytes = true →
      t.frameCode q false false = 0x0A → ∀ w, w = (t.linkWritten q.cells.getLast?).putPkt { q with ended := true } →
      exec (.pauseFrameReceive p bytes) s = .next (ran s ((w.macControl p
        bytes).discardArrival { q with ended := true, fcsBad := false } 0x0A)) ∧
      ((s.port p).up = true → t.get (O.FLOW_CTRL p) = 1 → beAt bytes 14 2 = 0x0001 →
        exec (.pauseFrameReceive p bytes) s = .next (ran s
          (((w.count64 (O.PAUSE_COUNTS p 1)).setPause p 8 (beAt bytes 16 2)).discardArrival
            { q with ended := true, fcsBad := false } 0x0A)))) ∧
    (∀ k, k = (if s.get (O.FLOW_CTRL p) = 1 then 8 else prio.val) →
      exec (.pauseExpire p prio) s =
        .next (ran s (((fresh s).putPort p { s.port p with paused := del k (s.port p).paused }).showPause p)) ∧
      Does (.pauseExpire p prio) s fun u => (∀ e ∈ (u.port p).paused, e.1 ≠ k) ∧
        ∀ r e, r ≠ O.PAUSED_NOW p → u.get r e = s.get r e) ∧
    (∀ c, c = (if high then 2 else 1) →
      ((s.port p).up = true → s.get (O.FLOW_CTRL p) = 2 → c ≤ popcount (s.get (O.PFC_PRIORITIES p)) 8 →
        (s.port p).xoff.contains c = true → Does (.pfcRepeat p high) s fun u =>
          u.out = [.wire p (pauseFrame (s.get (O.PORT_MAC p)) 0x0101 (beBytes 2 (2 ^ s.classPrio p c) ++
            (List.range 8).flatMap fun k =>
              beBytes 2 (if k = s.classPrio p c then s.get (O.XOFF_QUANTA p) else 0)))] ∧
          u.get (O.MAC_COUNTS p 10) = (s.get (O.MAC_COUNTS p 10) + 1) % 2 ^ 64 ∧
          u.get (O.PFC_COUNTS p 4) (s.classPrio p c) = (s.get (O.PFC_COUNTS p 4) (s.classPrio p c) + 1) % 2 ^ 64 ∧
          ∀ r e, r ≠ O.MAC_COUNTS p 10 → r ≠ O.PFC_COUNTS p 4 → u.get r e = s.get r e) ∧
      ((s.port p).up = true → s.get (O.FLOW_CTRL p) = 1 → c = 1 → (s.port p).xoff.contains c = true →
        exec (.pfcRepeat p high) s = .next (ran s ((((fresh s).count64 (O.MAC_COUNTS p 10)).count64
          (O.PAUSE_COUNTS p 2)).emit (.wire p (pauseFrame (s.get (O.PORT_MAC p)) 1
            (beBytes 2 (s.get (O.XOFF_QUANTA p)))))))) ∧
      ((s.port p).up = false ∨ s.classLive p c = false ∨ (s.port p).xoff.contains c = false →
        exec (.pfcRepeat p high) s = .next (fresh s))) ∧
    (s.get (O.WATCHDOG_MS p) ≠ 0 → s.get (O.FLOW_CTRL p) = 2 → (s.port p).paused.any (·.1 == prio.val) = true →
      exec (.pfcWatchdogTrip p prio) s = .next (ran s (((((fresh s).putPort p { s.port p with
        paused := del prio.val (s.port p).paused, ignored := insNat prio.val (s.port p).ignored }).showPause p).count32
          (O.WATCHDOG_TRIPS p)).report (0x180 + p.val / 16) (unitId 10 p) (detailS (leBytes 2 p ++ [nb prio.val]))))) ∧
    (s.get (O.WATCHDOG_MS p) = 0 → exec (.pfcWatchdogTrip p prio) s = .next (fresh s)) ∧
    (exec (.pfcRecoverExpire p prio) s =
      .next (ran s ((fresh s).putPort p { s.port p with ignored := delNat prio.val (s.port p).ignored })))

/-- A window of a port with RS FEC adds its codewords to the corrected and uncorrectable counts, to the symbols and to
the histogram, whose last bin takes the uncorrectable ones too; more than DEGRADE_LIMIT codewords with 12 or more
corrected symbols set FEC_DEGRADED and are reported, the tenth clean window in a row clears it. BASE-R FEC counts
blocks only; without FEC nothing counts. A verify mPacket on an UP port is answered whatever its setting; a response
while verifying makes preemption active; a timeout sends again up to three attempts, then verification has failed and
is reported. (04 R110, 04 R115, 04 R116.) -/
def Obligations.FecStatisticsAndPreemptVerification : Prop :=
  ∀ (s : State) (p : Port) (bins : List (BitVec 32)) (unc sym : BitVec 32), Runs s →
    (s.isPort p = true → s.get (O.FEC_ACTIVE p) ≠ 0 → bins.length = 16 →
      Does (.fecDegradeWindow p bins unc sym) s fun u =>
        u.get (O.FEC_COUNTS p 1) = (s.get (O.FEC_COUNTS p 1) + sumL ((bins.map (·.toNat)).drop 1)) % 2 ^ 64 ∧
        u.get (O.FEC_COUNTS p 2) = (s.get (O.FEC_COUNTS p 2) + unc.toNat) % 2 ^ 64 ∧
        (s.get (O.FEC_ACTIVE p) ≠ 1 →
          u.get (O.FEC_COUNTS p 3) = (s.get (O.FEC_COUNTS p 3) + sym.toNat) % 2 ^ 64 ∧
          ∀ k : Fin 16, u.get (O.FEC_HISTOGRAM p) k = (s.get (O.FEC_HISTOGRAM p) k + ((bins.map (·.toNat)).getD k 0 +
            if k.val = 15 then unc.toNat else 0)) % 2 ^ 64) ∧
        (s.get (O.FEC_ACTIVE p) = 1 → u.get (O.FEC_COUNTS p 3) = s.get (O.FEC_COUNTS p 3) ∧
          ∀ k, u.get (O.FEC_HISTOGRAM p) k = s.get (O.FEC_HISTOGRAM p) k) ∧
        (s.get (O.DEGRADE_LIMIT p) < sumL ((bins.map (·.toNat)).drop 12) →
          u.get (O.FEC_DEGRADED p) = 1 ∧ (u.port p).clean = 0 ∧
          u.faults.reports.map (·.source) = s.faults.reports.map (·.source) ++ [0x160 + p.val / 16]) ∧
        (sumL ((bins.map (·.toNat)).drop 12) ≤ s.get (O.DEGRADE_LIMIT p) →
          (u.port p).clean = (s.port p).clean + 1 ∧ u.faults = s.faults ∧
          u.get (O.FEC_DEGRADED p) = if 9 ≤ (s.port p).clean then 0 else s.get (O.FEC_DEGRADED p))) ∧
    ((s.isPort p = false ∨ s.get (O.FEC_ACTIVE p) = 0) →
      exec (.fecDegradeWindow p bins unc sym) s = .next (fresh s)) ∧
    ((s.port p).up = true → exec (.verifyRequestReceive p) s = .next { fresh s with out := [.mpacket p true] }) ∧
    ((s.port p).up = false → exec (.verifyRequestReceive p) s = .next (fresh s)) ∧
    ((s.port p).up = true → s.get (O.VERIFY_STATUS p) = 2 → exec (.verifyResponseReceive p) s =
      .next (ran s (((fresh s).set (O.VERIFY_STATUS p) 3).set (O.PREEMPT_ACTIVE p) 1))) ∧
    ((s.port p).up = true → s.get (O.VERIFY_STATUS p) = 2 → (s.port p).attempts < 3 →
      exec (.verifyTimeout p) s = .next (ran s ((((fresh s).putPort p { s.port p with
        attempts := (s.port p).attempts + 1 }).count64 (O.PREEMPT_COUNTS p 7)).emit (.mpacket p false)))) ∧
    ((s.port p).up = true → s.get (O.VERIFY_STATUS p) = 2 → 3 ≤ (s.port p).attempts →
      exec (.verifyTimeout p) s = .next (ran s (((fresh s).set (O.VERIFY_STATUS p) 4).report (0x1A0 + p.val / 16)
        (unitId 10 p) (detailS (leBytes 2 p)))))

/-- A start delimiter on an open MAC opens a frame: frame and octet counts rise, the next frame number is the frame
being received on its path; a whole frame while one is open on that path does nothing. A port without an open MAC
takes nothing. A start while a preemptable frame is open first fails that frame; a continuation without one only
counts; a continuation out of order counts its octets and fails the frame; one in order counts and adds its bytes. On
either path the end of a filtered frame not yet enqueued that has a code by R107's table discards it with that code;
with none the frame stands complete, counted as reassembled where it came in fragments. An end without an open frame
does nothing. That a preemptable frame with a wrong check takes 0x0D is the model's choice (log 78). (04 R104, 04
R107, 04 R108, 04 R117, 04 R118, 07 R195, 07 R201.) -/
def Obligations.FramesArriveAtAPort : Prop :=
  ∀ (s : State) (p : Port) (k : Fin 4) (bytes : List Byte) (err : Bool), Runs s →
    (s.macOpen p = true → (s.port p).rxWhole = none →
      exec (.frameReceive p .whole bytes) s = .next (ran s ((fresh s).openFrame p false bytes)) ∧
      Does (.frameReceive p .whole bytes) s fun u => u.buf.nextFid = s.buf.nextFid + 1 ∧
        (u.port p).rxWhole = some s.buf.nextFid ∧
        u.get (O.MAC_COUNTS p 1) = (s.get (O.MAC_COUNTS p 1) + 1) % 2 ^ 64 ∧
        u.get (O.MAC_COUNTS p 2) = (s.get (O.MAC_COUNTS p 2) + bytes.length) % 2 ^ 64 ∧
        u.get (O.RECORDS_OPENED p) = (s.get (O.RECORDS_OPENED p) + 1) % 2 ^ 64) ∧
    (s.macOpen p = true → (s.port p).rxWhole.isSome = true →
      exec (.frameReceive p .whole bytes) s = .next (fresh s)) ∧
    (s.macOpen p = false → ∀ m, exec (.frameReceive p m bytes) s = .next (fresh s)) ∧
    (s.macOpen p = true → (s.port p).rxPre.isSome = true →
      exec (.frameReceive p .start bytes) s = .next (ran s (((fresh s).reassemblyError p).openFrame p true
        bytes).postcardsDue)) ∧
    (s.macOpen p = true → (s.port p).rxPre = none →
      exec (.frameReceive p .start bytes) s = .next (ran s ((fresh s).openFrame p true bytes).postcardsDue) ∧
      exec (.frameReceive p (.cont k) bytes) s = .next (ran s ((fresh s).count64 (O.PREEMPT_COUNTS p 6)))) ∧
    (∀ f, s.macOpen p = true → (s.port p).rxPre = some f → (s.port p).rxCount % 4 ≠ k.val →
      exec (.frameReceive p (.cont k) bytes) s =
        .next (ran s (((fresh s).count64 (O.MAC_COUNTS p 2) bytes.length).reassemblyError p).postcardsDue)) ∧
    (∀ f, s.macOpen p = true → (s.port p).rxPre = some f → (s.port p).rxCount % 4 = k.val →
      exec (.frameReceive p (.cont k) bytes) s = .next (ran s ((((((fresh s).putPort p { s.port p with
        rxCount := (s.port p).rxCount + 1 }).count64 (O.PREEMPT_COUNTS p 3)).count64 (O.MAC_COUNTS p 2)
          bytes.length).arrive f bytes).runFilter f).postcardsDue)) ∧
    (∀ pre, (if pre then (s.port p).rxPre else (s.port p).rxWhole) = none →
      exec (.frameReceiveEnd p pre bytes err) s = .next (fresh s)) ∧
    (∀ pre f t q c u, (if pre then (s.port p).rxPre else (s.port p).rxWhole) = some f →
      t = ((fresh s).putPort p (if pre then { s.port p with rxPre := none, rxCount := 0 }
        else { s.port p with rxWhole := none })).moreBytes p (some f) bytes →
      t.pkt? f = some q → q.enq = false → q.policed = none → q.phase ≠ .returning → q.filtered = true →
      c = t.frameCode q pre err → c ≠ 0x0A →
      u = (if c = 0 then (t.linkWritten q.cells.getLast?).putPkt { q with ended := true }
        else ((t.linkWritten q.cells.getLast?).putPkt { q with ended := true }).discardArrival { q with ended := true, fcsBad := c == 5 || c == 13 } c) →
      exec (.frameReceiveEnd p pre bytes err) s = .next (ran s
        (if pre = true ∧ (s.port p).rxCount ≠ 0 ∧ (u.pkt? f).any (·.spoilt == 0) = true
         then u.count64 (O.PREEMPT_COUNTS p 4) else u).postcardsDue))

/-- A PICK of a path of an UP port takes the member that R234 chooses among those that may go: its head starts on the
MAC, or is discarded, 0xC6 for a lost descriptor, 0xC5 for a packet or first cell that is poisoned, 0x91 beyond
MAX_FRAME. On a port that is not UP nothing starts. FRAGMENT_END at a legal data count, with preemption active and an
express frame waiting or a hold, reads the fragment's cells and puts it out with its mCRC, the rest being the tail,
or, where one cannot be corrected or was found so, ends the frame there with a check that is neither an mCRC nor an
FCS and 0xC4; GATE_GUARD_CUT of a frame that cannot end before its gate closes cuts at the largest legal count that
can and leaves the tail held by the gate. Where no cut is due or legal, nothing happens. TRANSMIT_END of a complete,
sound frame puts it on the wire, of a preemptable one the rest with its SMD (SMD-S where it was never cut), counts
frame and bytes, releases its token as forwarded, and a frame that waits for the wire may start; without a frame under
way, or while it waits, nothing happens. That FRAGMENT_END cuts only for a waiting express frame or a hold is the
model's choice (log 99), and so is what a fragment with a poisoned cell beyond those read so far carries (log 39). (01
R22, 04 R107, 04 R115, 04 R117, 04 R119, 04 R121, 07 R208, 07 R213, 07 R224, 08 R233, 08 R235, 08 R248.) -/
def Obligations.FramesLeaveAPort : Prop :=
  ∀ (s : State) (p : Port) (n : Fin 16384) (pre : Bool), Runs s →
    (∀ w v g q h, (s.port p).up = true → (s.port p).txExp = none → w = (fresh s).sweepHeads p ((fresh s).members p) →
      v = w.2.each ((w.1.filter (w.2.mayGo p false)).filter fun g =>
        !((w.1.filter (w.2.mayGo p false)).filter (w.2.headGuard p)).contains g) (fun s g => s.count64 (O.SCHED_COUNTS g 6)) →
      v.choose ((w.1.filter (w.2.mayGo p false)).filter (w.2.headGuard p)) = some g → v.head g = some (q, h) →
      ((v.useDesc q).1 = true →
        exec (.pick p false) s = .next (ran s (((v.useDesc q).2.discardHolder q.fid h.tok g 0xC6).postcardsDue))) ∧
      (∀ r, r = (v.useDesc q).2.readCells p (q.cells.take 1) → (v.useDesc q).1 = false →
        (q.poison = true ∨ r.1 = true →
          exec (.pick p false) s = .next (ran s ((r.2.discardHolder q.fid h.tok g 0xC5).postcardsDue))) ∧
        (q.poison = false → r.1 = false → q.ended = true →
          (v.useDesc q).2.getP q.applied (O.MAX_FRAME p) < (v.useDesc q).2.frameLen q h →
          exec (.pick p false) s = .next (ran s ((r.2.discardHolder q.fid h.tok g 0x91).postcardsDue))) ∧
        (q.poison = false → r.1 = false → (q.ended = true →
            (v.useDesc q).2.frameLen q h ≤ (v.useDesc q).2.getP q.applied (O.MAX_FRAME p)) →
          exec (.pick p false) s = .next (ran s ((r.2.startFrame p false g q h).postcardsDue))))) ∧
    ((s.port p).up = false → (∀ e ∈ s.tiles, e.2.postRecs.length < 24) →
      exec (.pick p pre) s = .next (fresh s)) ∧
    (∀ t r, (s.port p).txPre = some t → s.flag (O.PREEMPT_ACTIVE p) = true → t.waits = false → s.legalCut p t n = true →
      ((s.port p).txExp.isSome = true ∨ (s.gate p).held = true) → r = (fresh s).fragmentCells p t n →
      (∀ k, r.1 = some k → exec (.fragmentEnd p n) s = .next (ran s ((r.2.endBad p t k).wireFree p false)) ∧
        Does (.fragmentEnd p n) s fun u => (u.port p).txPre = none ∧ (u.port p).tail = (s.port p).tail ∧
          u.out.head? = some (.fragment p t.fragCount (checked (r.2.txBytes t) t.sent k 0xFFFF0000)) ∧
          u.get (O.PREEMPT_COUNTS p 9) = (s.get (O.PREEMPT_COUNTS p 9) + 1) % 2 ^ 64) ∧
      (r.1 = none → exec (.fragmentEnd p n) s = .next (ran s ((r.2.passTail p t n false).wireFree p false))) ∧
      (r = (none, fresh s) → (s.port p).txExp = none → Does (.fragmentEnd p n) s fun u => (u.port p).txPre = none ∧
        (u.port p).tailHeld = false ∧ (u.port p).tail = some { t with sent := t.sent + n, frags := t.frags + 1 } ∧
        u.out = [.fragment p t.fragCount (checked ((fresh s).txBytes t) t.sent (t.sent + n) 0xFFFF)] ∧
        u.get (O.PREEMPT_COUNTS p 1) = (s.get (O.PREEMPT_COUNTS p 1) + 1) % 2 ^ 64 ∧
        ∀ r e, r ≠ O.PREEMPT_COUNTS p 1 → r ≠ O.PREEMPT_COUNTS p 2 → u.get r e = s.get r e) ∧
      (∀ q, r = (none, fresh s) → (cutAt s p t n false).pkt? t.fid = some q → exec (.fragmentEnd p n) s = .next (ran s
        ((if (q.holders.any fun h => h.tok == t.tok && h.kind == .tail) = true then cutAt s p t n false
          else ((cutAt s p t n false).putPkt (q.modHolder t.tok fun h => { h with kind := .tail })).count64
            (O.PREEMPT_COUNTS p 2)).wireFree p false)))) ∧
    (∀ t q k, s.pkt? t.fid = some q → (∀ c ∈ cellsWithin q t.sent (t.sent + k), s.damaged (0x400 + bankOfCell c) c = none) →
      (fresh s).fragmentCells p t k = (if q.poison then some (t.sent + k) else none, fresh s)) ∧
    (∀ t, (s.port p).txPre = some t → s.flag (O.PREEMPT_ACTIVE p) = false ∨ t.waits = true ∨ s.legalCut p t n = false ∨
        ((s.port p).txExp = none ∧ (s.gate p).held = false) →
      exec (.fragmentEnd p n) s = .next (fresh s)) ∧
    (∀ t room rest d, (s.port p).txPre = some t → s.guardRoom p t = some room → rest = s.txLen t - t.sent →
      d = min (room - 12) (rest - 64) / 4 * 4 →
      (s.flag (O.PREEMPT_ACTIVE p) = true → t.waits = false → room < 8 + rest → n.val = d → s.legalCut p t d = true →
        ∀ r, r = (fresh s).fragmentCells p t d →
        (∀ k, r.1 = some k → exec (.gateGuardCut p n) s = .next (ran s ((r.2.endBad p t k).wireFree p false))) ∧
        (r.1 = none → exec (.gateGuardCut p n) s = .next (ran s ((r.2.passTail p t d true).wireFree p false))) ∧
        (r = (none, fresh s) → (s.port p).txExp = none → Does (.gateGuardCut p n) s fun u => (u.port p).txPre = none ∧
          (u.port p).tailHeld = true ∧ (u.port p).tail = some { t with sent := t.sent + d, frags := t.frags + 1 } ∧
          ∀ r e, r ≠ O.PREEMPT_COUNTS p 1 → r ≠ O.PREEMPT_COUNTS p 2 → u.get r e = s.get r e) ∧
        (∀ q, r = (none, fresh s) → (cutAt s p t d true).pkt? t.fid = some q → exec (.gateGuardCut p n) s = .next (ran s
          ((if (q.holders.any fun h => h.tok == t.tok && h.kind == .tail) = true then cutAt s p t d true
            else ((cutAt s p t d true).putPkt (q.modHolder t.tok fun h => { h with kind := .tail })).count64
              (O.PREEMPT_COUNTS p 2)).wireFree p false)))) ∧
      (8 + rest ≤ room ∨ n.val ≠ d → exec (.gateGuardCut p n) s = .next (fresh s))) ∧
    (∀ t q h f r v, (if pre then (s.port p).txPre else (s.port p).txExp) = some t → t.waits = false →
      s.pkt? t.fid = some q → q.ended = true → q.holders.find? (·.tok == t.tok) = some h → t.frame = some f → t.code = 0 →
      q.poison = false → q.spoilt = 0 → q.lost = false → q.act.overflow = false →
      v = (((fresh s).putPort p ((s.port p).putTx pre none)).useDesc q).2 → v.pkt? t.fid = some q →
      r = v.readRun p (cellsWithin q t.sent (256 * q.cells.length)) → r.1 = false → r.2.2.pkt? t.fid = some q →
      exec (.transmitEnd p pre) s = .next (ran s ((((((r.2.2.emit (if pre then .fragment p t.fragCount (f.drop t.sent)
        else .wire p f)).count64 (O.MAC_COUNTS p 8)).count64 (O.MAC_COUNTS p 9) f.length).releaseAt t.fid t.tok 0x00
          f.length).wireFree p !pre).postcardsDue))) ∧
    (∀ t, (s.port p).txExp = some t → t.waits = true → s.pkt? t.fid ≠ none → (∀ e ∈ s.tiles, e.2.postRecs.length < 24) →
      exec (.transmitEnd p false) s = .next (fresh s)) ∧
    ((s.port p).txExp = none → (∀ e ∈ s.tiles, e.2.postRecs.length < 24) →
      exec (.transmitEnd p false) s = .next (fresh s))

/-- GATE_LIST_START of a pending list whose start its base has reached, on a tile in service, makes it the running
one, counts and shows it; before, nothing. GATE_ENTRY_START shows the entry in force and its gates, and with
preemption active an operation starts or ends a hold. LAUNCH_WINDOW_MISS discards with 0x81 a launch head that would
leave, picked now, after its launch time plus its window (judged by a frame picked now: the model's choice, log 97),
else nothing; RESIDENCE_CHECK discards a head past its queue's limit with 0x82, else nothing. A shaper tick adds the
rate to a shaped queue's tokens, up to its burst. POLICER_REFRESH brings the row's levels and time up to date and
clears the fill bit; a disabled profile changes nothing. (08 R241, 08 R242, 08 R244, 08 R246, 08 R249, 08 R251, 08
R254, 08 R255, 08 R259.) -/
def Obligations.SchedulingTimeAndShaping : Prop :=
  ∀ (s : State) (p : Port) (q : Fin 16) (g : Nat) (v : Queue) (x : Policer), Runs s →
    (∀ l, (s.gate p).next = some l → s.gatesAct p = true → l.start ≤ s.tbUnits l.tb →
      Does (.gateListStart p) s fun u => (u.gate p).running = some l ∧ (u.gate p).next = none ∧
        u.get (O.GATE_STATE p) = 2 ∧ u.get (O.GATE_COUNTS p 6) = (s.get (O.GATE_COUNTS p 6) + 1) % 2 ^ 64 ∧
        ∀ r e, r.idx ≠ 0x7102 → u.get r e = s.get r e) ∧
    ((s.gate p).next = none → exec (.gateListStart p) s = .next (fresh s)) ∧
    (∀ l, (s.gate p).next = some l → s.tbUnits l.tb < l.start → exec (.gateListStart p) s = .next (fresh s)) ∧
    (∀ l i o op, (s.gate p).running = some l → s.gatesAct p = true →
      entryAt (s.gateEntries p l) (l.offsetU (s.tbUnits l.tb)) = some (i, o, op) →
      (s.flag (O.PREEMPT_ACTIVE p) = true → op ≠ 0 → exec (.gateEntryStart p) s = .next (ran s
        ((((fresh s).set (O.GATE_ENTRY p) i).set (O.GATE_OPEN p) o).putGate p { s.gate p with held := op == 1 }))) ∧
      ((s.flag (O.PREEMPT_ACTIVE p) = false ∨ op = 0) → exec (.gateEntryStart p) s = .next (ran s
        (((fresh s).set (O.GATE_ENTRY p) i).set (O.GATE_OPEN p) o)))) ∧
    (∀ k h, s.head (p.val * 16 + q.val) = some (k, h) → s.launchQueue (p.val * 16 + q.val) = true →
      (k.launch = true → timeUnits k.timeV + s.get (O.LAUNCH_WINDOW_NS p) * nsU < timeUnits (s.txTime p (bits k.timeW 22 20)) →
        exec (.launchWindowMiss p q) s = .next (ran s (((((fresh s).count64
          (O.SCHED_COUNTS (p.val * 16 + q.val) 8)).releaseAt k.fid h.tok 0x81 0)).postcardsDue))) ∧
      (k.launch = false ∨ timeUnits (s.txTime p (bits k.timeW 22 20)) ≤ timeUnits k.timeV + s.get (O.LAUNCH_WINDOW_NS p) * nsU →
        exec (.launchWindowMiss p q) s = .next (fresh s))) ∧
    (∀ k h, s.head v = some (k, h) → s.hasInst .schedQueues v = true →
      (s.tooOld v h = true → exec (.residenceCheck v) s = .next (ran s (((((fresh s).count64
          (O.SCHED_COUNTS v 9)).releaseAt k.fid h.tok 0x82 0)).postcardsDue))) ∧
      (s.tooOld v h = false → exec (.residenceCheck v) s = .next (fresh s))) ∧
    (s.get (O.SHAPE_RATE g) ≠ 0 → s.hasInst .schedQueues g = true →
      Does .shaperTick s fun u =>
        u.bucket g = ⟨min ((s.bucket g).tok + (((s.bucket g).rem + s.get (O.SHAPE_RATE g) * 65536) / 600000 : Nat))
            (s.get (O.SHAPE_BURST g) * 65536),
          ((s.bucket g).rem + s.get (O.SHAPE_RATE g) * 65536) % 600000⟩ ∧
        ∀ r e, r.idx ≠ 0x7002 → u.get r e = s.get r e) ∧
    (∀ r m dt c k, r = polRead (s.get O.POLICER_STATE x) → m = s.get (O.POLICER_MODE (r.prof % 4096)) → m ≠ 0 →
      dt = (s.policerTick + 2 ^ 32 - r.last) % 2 ^ 32 →
      c = (if r.fill then (s.get (O.CBS (r.prof % 4096)) * 65536 : Int) else r.c) →
      k = (if r.fill then (s.get (O.PBS (r.prof % 4096)) * 65536 : Int) else r.pk) →
      exec (.policerRefresh x) s = .next (ran s ((fresh s).set O.POLICER_STATE (polWrite ⟨r.prof, false, s.policerTick,
        min (c + (dt * s.get (O.CIR (r.prof % 4096)) * 65536 / 600000 : Nat)) (s.get (O.CBS (r.prof % 4096)) * 65536),
        if m = 2 then min (k + (dt * s.get (O.PIR (r.prof % 4096)) * 65536 / 600000 : Nat))
          (s.get (O.PBS (r.prof % 4096)) * 65536) else k⟩) x))) ∧
    (s.get (O.POLICER_MODE ((polRead (s.get O.POLICER_STATE x)).prof % 4096)) = 0 →
      exec (.policerRefresh x) s = .next (fresh s))

/-- A write of ENTRY_OP by INSERT, REPLACE, DELETE, READ, PROBE, PREFIX_INSERT or PREFIX_DELETE that the command
object takes answers OK, sets it running and puts a 32-byte record with its code, flags, prefix length, key and action
reference last in the engine of the partition that holds the table's first bucket. On an engine with no operation,
before which no aging deletion stands and whose store reads clean, an operation that needs no move has started, with
none left to make, and no object changes. While the table's own operation is outstanding a further one is refused with
ERR_CMD_BUSY, and with ERR_TABLE_BUSY while a descriptor uses ENTRY_OP. (02 R40, 06 R160, 06 R165, 06 R166, 06 R167.)
-/
def Obligations.EntryOperationsReachTheirEngine : Prop :=
  ∀ (s : State) (p : Path) (n : Table) (fl plen : Byte) (key : List Byte) (act : BitVec 24),
    (∀ i r, (i, r) ∈ [(Instr.insert p n fl key act, opRecord 1 fl.toNat 0 key act.toNat),
        (.replace p n fl key act, opRecord 2 fl.toNat 0 key act.toNat), (.delete p n key, opRecord 3 0 0 key 0),
        (.entryRead p n plen key, opRecord 4 0 plen.toNat key 0), (.probe p n key, opRecord 5 0 0 key 0),
        (.prefixInsert p n fl plen key act, opRecord 6 fl.toNat plen.toNat key act.toNat),
        (.prefixDelete p n plen key, opRecord 7 0 plen.toNat key 0)] →
      (Takes s p (O.ENTRY_OP n) →
        exec i s = .next (answers s p Err.ok (((fresh s).cmdRun (O.ENTRY_OP n)).engSubmit n r none))) ∧
      (Takes s p (O.ENTRY_OP n) → (s.eng (s.decl n).partition).jobs = [] → (s.eng (s.decl n).partition).deleteDue = false →
        s.faults.damage = [] → (byteAt r 0 = 1 → (s.pathFor n (s.decl n) ((s.decl n).key (slice r 4 10))).1 = []) →
        Does i s fun u => u.out = [.answer p Err.ok []] ∧ (u.cmd (O.ENTRY_OP n)).status = 1 ∧
          (u.eng (s.decl n).partition).jobs = [⟨n, r, none, true, [], 0⟩] ∧ u.dict.objs = s.dict.objs ∧
          u.lookup.store = s.lookup.store ∧ u.lookup.recs = s.lookup.recs) ∧
      (Ready s p → s.leasedAway p 5 = false → s.dict.busyTabs.contains (O.ENTRY_OP n) = true →
        exec i s = .next (refused s p Err.tableBusy)) ∧
      (Ready s p → s.leasedAway p 5 = false → s.dict.busyTabs.contains (O.ENTRY_OP n) = false →
        s.cmdRunning (O.ENTRY_OP n) = true → exec i s = .next (refused s p Err.cmdBusy)))

/-- The operation at the front of its engine ends and posts its result. Insert of an absent key takes the first free
slot (0), evicts where the table is not protected and no slot is free (2), else has no room (6) and is reported, a
protected table's key going to the overflow list; of a present key it replaces (1) or, asked to, refuses (7). Replace
writes a present key (1) or finds none (5). Delete empties the slot and returns the entry (3) or finds none (5). Read
returns the entry (4) or finds none (5). A key whose only copy is in the move stash is read, deleted or replaced
there. Deleting or replacing also reaches the stash copy of a key in a unit. Probe returns both buckets (8). Any other
operation is invalid (9). The action reference is stored without its reserved bits. Every other unit of the store
keeps its value. (06 R162, 06 R163, 06 R165, 06 R166, 06 R167, 06 R170, 06 R171, 06 R194.) -/
def Obligations.ExactMatchOperationsComplete : Prop :=
  ∀ (s : State) (n : Table) (j : EngJob) (d : Decl) (x key op e : Nat), Runs s → d = s.decl n → x = d.partition →
    (s.eng x).jobs = [j] → j.table = n.val → j.chan = none → j.started = true → j.moves = [] → d.kind = 1 →
    key = d.key (slice j.record 4 10) → op = byteAt j.record 0 →
    e = mkEntry key (keepRef (leAt j.record 20 3)) (s.get (O.AGE_CLOCK n)) (1 + 2 * (byteAt j.record 1 % 2)) →
    ((s.findKey d key = none → s.stashed n d key = none → op = 1 → ∀ w, s.freeUnit d key = some w →
      Does (.entryOpComplete n) s fun u => u.cmd (O.ENTRY_OP n) = ⟨2, 0, d.resultAt 0 j.made w []⟩ ∧
        u.unit w = e ∧ (∀ v, v ≠ w → u.unit v = s.unit v) ∧ (u.eng x).jobs = [] ∧
        u.get (O.TABLE_COUNTS n 4) = (s.get (O.TABLE_COUNTS n 4) + 1) % 2 ^ 64) ∧
    (s.findKey d key = none → s.stashed n d key = none → op = 1 → s.freeUnit d key = none → d.prot = true →
      Does (.entryOpComplete n) s fun u => u.cmd (O.ENTRY_OP n) = ⟨2, 0, resultBytes 6 0 0 0 0 []⟩ ∧
        u.lookup.store = s.lookup.store ∧ (u.eng x).jobs = [] ∧
        u.get (O.TABLE_COUNTS n 9) = (s.get (O.TABLE_COUNTS n 9) + 1) % 2 ^ 64 ∧
        (∀ i, s.inOverflow n key = false → firstFrom (fun i => s.get (O.OVERFLOW_LIST n) i == 0) 0 256 = some i →
          u.get (O.OVERFLOW_LIST n) i = overflowRow key)) ∧
    (∀ w r, s.findKey d key = none → s.stashed n d key = none → op = 1 → s.freeUnit d key = none → d.prot = false →
      s.victim n d key = (some w, r) →
      Does (.entryOpComplete n) s fun u => u.cmd (O.ENTRY_OP n) = ⟨2, 0, d.resultAt 2 0 w (leBytes 16 (s.unit w))⟩ ∧
        u.unit w = e ∧ (∀ v, v ≠ w → u.unit v = s.unit v) ∧ u.get O.LEARN_SEQ = (s.get O.LEARN_SEQ + 1) % 2 ^ 64 ∧
        u.get (O.TABLE_COUNTS n 8) = (s.get (O.TABLE_COUNTS n 8) + 1) % 2 ^ 64) ∧
    (∀ r, s.findKey d key = none → s.stashed n d key = none → op = 1 → s.freeUnit d key = none → d.prot = false → s.victim n d key = (none, r) →
      Does (.entryOpComplete n) s fun u => u.cmd (O.ENTRY_OP n) = ⟨2, 0, resultBytes 6 0 0 0 0 []⟩ ∧
        u.lookup.store = s.lookup.store) ∧
    (∀ w, s.findKey d key = some w → (op = 2 ∨ (op = 1 ∧ bit (byteAt j.record 1) 1 = false)) →
      Does (.entryOpComplete n) s fun u => u.cmd (O.ENTRY_OP n) = ⟨2, 0, d.resultAt 1 0 w []⟩ ∧
        u.unit w = e ∧ (∀ v, v ≠ w → u.unit v = s.unit v) ∧
        ((s.stashed n d key).isSome = true → u.stashed n d key = some e) ∧
        u.get (O.TABLE_COUNTS n 5) = (s.get (O.TABLE_COUNTS n 5) + 1) % 2 ^ 64) ∧
    (∀ w, s.findKey d key = some w → op = 1 → bit (byteAt j.record 1) 1 = true →
      Does (.entryOpComplete n) s fun u => u.cmd (O.ENTRY_OP n) = ⟨2, 0, d.resultAt 7 0 w []⟩ ∧
        u.lookup.store = s.lookup.store ∧ u.dict.objs = s.dict.objs) ∧
    (∀ w, s.findKey d key = some w → op = 3 →
      Does (.entryOpComplete n) s fun u => u.cmd (O.ENTRY_OP n) = ⟨2, 0, d.resultAt 3 0 w (leBytes 16 (s.unit w))⟩ ∧
        u.unit w = 0 ∧ (∀ v, v ≠ w → u.unit v = s.unit v) ∧ u.stashed n d key = none ∧
        u.get (O.TABLE_COUNTS n 6) = (s.get (O.TABLE_COUNTS n 6) + 1) % 2 ^ 64) ∧
    (∀ w, s.findKey d key = some w → op = 4 →
      Does (.entryOpComplete n) s fun u => u.cmd (O.ENTRY_OP n) = ⟨2, 0, d.resultAt 4 0 w (leBytes 16 (s.unit w))⟩ ∧
        u.lookup.store = s.lookup.store ∧ u.dict.objs = s.dict.objs) ∧
    (s.findKey d key = none → s.stashed n d key = none → (op = 2 ∨ op = 3 ∨ op = 4) →
      Does (.entryOpComplete n) s fun u => u.cmd (O.ENTRY_OP n) = ⟨2, 0, resultBytes 5 0 0 0 0 []⟩ ∧
        u.lookup.store = s.lookup.store) ∧
    (∀ y, s.findKey d key = none → s.stashed n d key = some y →
      (op = 4 → Does (.entryOpComplete n) s fun u => u.lookup.store = s.lookup.store ∧ ∃ slot bucket,
        u.cmd (O.ENTRY_OP n) = ⟨2, 0, resultBytes 4 0 slot bucket 0 (leBytes 16 y)⟩) ∧
      (op = 3 → Does (.entryOpComplete n) s fun u => u.lookup.store = s.lookup.store ∧ u.stashed n d key = none ∧
        u.get (O.TABLE_COUNTS n 6) = (s.get (O.TABLE_COUNTS n 6) + 1) % 2 ^ 64 ∧ ∃ slot bucket,
        u.cmd (O.ENTRY_OP n) = ⟨2, 0, resultBytes 3 0 slot bucket 0 (leBytes 16 y)⟩) ∧
      ((op = 2 ∨ (op = 1 ∧ bit (byteAt j.record 1) 1 = false)) → Does (.entryOpComplete n) s fun u =>
        u.lookup.store = s.lookup.store ∧ u.stashed n d key = some e ∧
        u.get (O.TABLE_COUNTS n 5) = (s.get (O.TABLE_COUNTS n 5) + 1) % 2 ^ 64 ∧ ∃ slot bucket,
        u.cmd (O.ENTRY_OP n) = ⟨2, 0, resultBytes 1 0 slot bucket 0 []⟩) ∧
      (op = 1 → bit (byteAt j.record 1) 1 = true → Does (.entryOpComplete n) s fun u =>
        u.lookup.store = s.lookup.store ∧ u.lookup.engs = ((fresh s).putEng x { s.eng x with
          jobs := [], deletes := (s.eng x).deletes.map fun q => { q with ahead := q.ahead - 1 } }).lookup.engs ∧
        ∃ slot bucket, u.cmd (O.ENTRY_OP n) = ⟨2, 0, resultBytes 7 0 slot bucket 0 []⟩)) ∧
    (op = 5 →
      Does (.entryOpComplete n) s fun u =>
        u.cmd (O.ENTRY_OP n) = ⟨2, 0, resultBytes 8 0 0 (d.buckets key).1 (d.buckets key).2 []⟩ ∧
        u.lookup.store = s.lookup.store ∧ u.dict.objs = s.dict.objs) ∧
    ((op = 0 ∨ 5 < op) →
      Does (.entryOpComplete n) s fun u => u.cmd (O.ENTRY_OP n) = ⟨2, 0, resultBytes 9 0 0 0 0 []⟩ ∧
        u.lookup.store = s.lookup.store ∧ u.dict.objs = s.dict.objs))

/-- On a longest-prefix table a prefix insert of a prefix that is not there adds a record where records and arrays
suffice (0), else there is no room (6); of one that is there it sets the action reference (1), or refuses if asked to
(7). A prefix delete takes the record away (3), a read returns it (4); where it is not there the outcome is 5. A
length beyond 32 (IPv4) or 64 (IPv6), an address with bits beyond its length, or any other operation is invalid (9).
The record takes the lowest free slot, which is the model's choice (log 16), and a read names exactly the address and
length of its record (log 111). The store changes in the record and in the level entries that the engine rewrites for
the prefix, and no other record changes. (06 R166, 06 R176, 06 R178, 06 R179, 06 R194.) -/
def Obligations.PrefixOperationsComplete : Prop :=
  ∀ (s : State) (n : Table) (j : EngJob) (d : Decl) (x addr len op : Nat), Runs s → d = s.decl n → x = d.partition →
    (s.eng x).jobs = [j] → j.table = n.val → j.chan = none → j.started = true → j.moves = [] → d.isLpm = true →
    addr = beAt j.record 4 (d.width / 8) → len = byteAt j.record 2 → op = byteAt j.record 0 →
    (len ≤ (if d.kind = 3 then 32 else 64) → addr % 2 ^ (d.width - len) = 0 →
      (∀ f, f = s.lookup.recs.find? (fun (y : LRec) => y.table == n.val && y.addr == addr && y.len == len) →
        (∀ k, f = none → op = 6 → k = ((List.range ((s.recsOf n).length + 1)).find? fun i =>
            !(s.recsOf n).any (·.slot == i)).getD 0 →
          (d.roomFor (⟨n, k, addr, len, keepRef (leAt j.record 20 3)⟩ :: s.recsOf n) = true →
            Does (.entryOpComplete n) s fun u =>
              u.lookup.recs = s.lookup.recs ++ [⟨n, k, addr, len, keepRef (leAt j.record 20 3)⟩] ∧
              u.cmd (O.ENTRY_OP n) = ⟨2, 0, d.recResult 0 ⟨n, k, addr, len, keepRef (leAt j.record 20 3)⟩⟩ ∧
              u.get (O.TABLE_COUNTS n 4) = (s.get (O.TABLE_COUNTS n 4) + 1) % 2 ^ 64 ∧
              u.lookup.store = ((fresh s).putPrefix d ⟨n, k, addr, len, keepRef (leAt j.record 20 3)⟩
                (d.recImage ⟨n, k, addr, len, keepRef (leAt j.record 20 3)⟩)
                (s.lookup.recs ++ [⟨n, k, addr, len, keepRef (leAt j.record 20 3)⟩])).lookup.store) ∧
          (d.roomFor (⟨n, k, addr, len, keepRef (leAt j.record 20 3)⟩ :: s.recsOf n) = false →
            Does (.entryOpComplete n) s fun u => u.lookup.recs = s.lookup.recs ∧
              u.cmd (O.ENTRY_OP n) = ⟨2, 0, resultBytes 6 0 0 0 0 []⟩ ∧ u.lookup.store = s.lookup.store ∧
              u.get (O.TABLE_COUNTS n 9) = (s.get (O.TABLE_COUNTS n 9) + 1) % 2 ^ 64 ∧
              u.faults.reports = s.faults.reports)) ∧
        (∀ y, f = some y → op = 6 → bit (byteAt j.record 1) 1 = false →
          Does (.entryOpComplete n) s fun u =>
            u.lookup.recs = s.lookup.recs.map (fun z => if z = y then { y with action := keepRef (leAt j.record 20 3) } else z) ∧
            u.cmd (O.ENTRY_OP n) = ⟨2, 0, d.recResult 1 { y with action := keepRef (leAt j.record 20 3) }⟩ ∧
            u.lookup.store = ((fresh s).putPrefix d { y with action := keepRef (leAt j.record 20 3) }
              (d.recImage { y with action := keepRef (leAt j.record 20 3) }) u.lookup.recs).lookup.store ∧
            u.get (O.TABLE_COUNTS n 5) = (s.get (O.TABLE_COUNTS n 5) + 1) % 2 ^ 64) ∧
        (∀ y, f = some y → op = 6 → bit (byteAt j.record 1) 1 = true →
          Does (.entryOpComplete n) s fun u => u.lookup.recs = s.lookup.recs ∧
            u.cmd (O.ENTRY_OP n) = ⟨2, 0, d.recResult 7 y⟩) ∧
        (∀ y, f = some y → op = 7 →
          Does (.entryOpComplete n) s fun u => u.lookup.recs = s.lookup.recs.filter (· != y) ∧
            u.cmd (O.ENTRY_OP n) = ⟨2, 0, d.recResult 3 y⟩ ∧
            u.lookup.store = ((fresh s).putPrefix d y [] (s.lookup.recs.filter (· != y))).lookup.store ∧
            u.get (O.TABLE_COUNTS n 6) = (s.get (O.TABLE_COUNTS n 6) + 1) % 2 ^ 64) ∧
        (∀ y, f = some y → op = 4 →
          Does (.entryOpComplete n) s fun u => u.lookup.recs = s.lookup.recs ∧ u.lookup.store = s.lookup.store ∧
            (s.faults.damage = [] → u.dict.objs = s.dict.objs) ∧ u.cmd (O.ENTRY_OP n) = ⟨2, 0, d.recResult 4 y⟩) ∧
        (f = none → (op = 4 ∨ op = 7) →
          Does (.entryOpComplete n) s fun u => u.lookup.recs = s.lookup.recs ∧ u.dict.objs = s.dict.objs ∧
            u.cmd (O.ENTRY_OP n) = ⟨2, 0, resultBytes 5 0 0 0 0 []⟩))) ∧
    (((if d.kind = 3 then 32 else 64) < len ∨ addr % 2 ^ (d.width - len) ≠ 0 ∨ (op ≠ 4 ∧ op ≠ 6 ∧ op ≠ 7)) →
      Does (.entryOpComplete n) s fun u => u.lookup.recs = s.lookup.recs ∧ u.dict.objs = s.dict.objs ∧
        u.cmd (O.ENTRY_OP n) = ⟨2, 0, resultBytes 9 0 0 0 0 []⟩)

/-- STASH_RELEASE frees the engine's oldest stash entry. STASH_WAIT_END, with an entry free, counts the wait and makes
the move: its entry is copied to the stash and to the free slot, and its old slot is empty; with all four held nothing
happens. AGE_TICK advances the clock of an exact-match table that ages. AGE_SCAN visits the next bucket; with nothing
aged there only its position moves. AGE_DELETE performs the engine's oldest request once no operation stands before
it: an entry that is still aged loses its slot, with an event; of one that is gone, static or no longer aged it only
ends the request, and a waiting operation starts; that a request waits for the operations that stood in the engine
before it is the model's choice (log 90). AGE_REFRESH gives the entry the clock's stamp and takes the aged flag off.
While the engine is at work the last two wait. What lies in damaged words is left to the statements of reads. (06
R168, 06 R189, 06 R190, 06 R191.) -/
def Obligations.MovesAndAging : Prop :=
  ∀ (s : State) (x : Partition) (n : Table) (w : BitVec 16), Runs s →
    (exec (.stashRelease x) s =
      .next (ran s ((fresh s).putEng x { s.eng x with stash := (s.eng x).stash.tail }))) ∧
    (∀ j a b, (s.eng x).jobs = [j] → j.moves = [(a, b)] → a ≠ b → (s.eng x).stash.length < 4 →
      Does (.stashWaitEnd x w) s fun u => u.unit b = s.unit a ∧ u.unit a = 0 ∧
        (∀ v, v ≠ a → v ≠ b → u.unit v = s.unit v) ∧ (u.eng x).stash = (s.eng x).stash ++ [⟨j.table, s.unit a⟩] ∧
        (u.eng x).jobs = [{ j with moves := [], made := j.made + 1 }] ∧
        u.get (O.STASH_WAITS j.table) = (s.get (O.STASH_WAITS j.table) + w.toNat) % 2 ^ 64) ∧
    (4 ≤ (s.eng x).stash.length → exec (.stashWaitEnd x w) s = .next (fresh s)) ∧
    (s.get (O.AGE_TICK n) ≠ 0 → s.get (O.TABLE_KIND n) = 1 →
      exec (.ageTick n) s =
        .next (ran s ((fresh s).set (O.AGE_CLOCK n) ((s.get (O.AGE_CLOCK n) + 1) % 2 ^ 16)))) ∧
    ((s.get (O.AGE_TICK n) = 0 ∨ s.get (O.TABLE_KIND n) ≠ 1) → exec (.ageTick n) s = .next (fresh s)) ∧
    (∀ d b, d = s.decl n → b = look 0 s.lookup.scanAt n % max d.size 1 → s.get (O.AGE_TICK n) ≠ 0 → d.kind = 1 →
      Does (.ageScan n) s fun u => look 0 u.lookup.scanAt n = (b + 1) % max d.size 1 ∧
        (∀ v, v ∉ d.slots b → u.unit v = s.unit v) ∧
        ((∀ v ∈ d.slots b, entryValid (s.unit v) = false ∨ entryStatic (s.unit v) = true ∨
            s.ageOf n (s.unit v) < s.get (O.AGE_LIMIT n)) →
          u.lookup.store = s.lookup.store ∧ (s.faults.damage = [] → u.dict.objs = s.dict.objs) ∧
          u.lookup.engs = s.lookup.engs)) ∧
    (∀ d q rest, d = s.decl n → (s.eng d.partition).deletes = q :: rest →
      (q.table ≠ n.val ∨ q.ahead ≠ 0 ∨ s.engIdle d.partition = false → exec (.ageDelete n) s = .next (fresh s)) ∧
      (∀ v, q.table = n.val → q.ahead = 0 → (s.eng d.partition).jobs = [] → s.findKey d q.key = some v →
        entryStatic (s.unit v) = false → s.get (O.AGE_LIMIT n) ≤ s.ageOf n (s.unit v) → s.faults.damage = [] →
        Does (.ageDelete n) s fun u => u.unit v = 0 ∧ (∀ y, y ≠ v → u.unit y = s.unit y) ∧
          (u.eng d.partition).deletes = rest ∧ u.stashed n d q.key = none ∧
          u.get (O.TABLE_COUNTS n 10) = (s.get (O.TABLE_COUNTS n 10) + 1) % 2 ^ 64 ∧
          u.get O.LEARN_SEQ = (s.get O.LEARN_SEQ + 1) % 2 ^ 64) ∧
      (q.table = n.val → q.ahead = 0 → s.engIdle d.partition = true → s.faults.damage = [] →
        (∀ v, s.findKey d q.key = some v →
          entryStatic (s.unit v) = true ∨ s.ageOf n (s.unit v) < s.get (O.AGE_LIMIT n)) →
        exec (.ageDelete n) s = .next (ran s (((fresh s).putEng d.partition
          { s.eng d.partition with deletes := rest }).engStart d.partition)))) ∧
    ((s.eng (s.decl n).partition).deletes = [] → exec (.ageDelete n) s = .next (fresh s)) ∧
    (∀ k rest, (s.eng x).refresh = k :: rest → s.engIdle x = true → s.faults.damage = [] →
      (∀ v, s.findKey (s.decl k.1) k.2 = some v →
        Does (.ageRefresh x) s fun u => (u.eng x).refresh = rest ∧ (∀ y, y ≠ v → u.unit y = s.unit y) ∧
          u.unit v = mkEntry (entryKey (s.unit v)) (entryAction (s.unit v)) (s.get (O.AGE_CLOCK k.1))
            (entryFlags (s.unit v) - 4 * b01 (bit (s.unit v) 122))) ∧
      (s.findKey (s.decl k.1) k.2 = none →
        exec (.ageRefresh x) s = .next (ran s ((fresh s).putEng x { s.eng x with refresh := rest })))) ∧
    ((s.engIdle x = false ∨ (s.eng x).refresh = []) → exec (.ageRefresh x) s = .next (fresh s))

/-- MATCH_START of a port's oldest frame with its context runs the plan, or the default path, and then its policer:
with a discard code the frame is discarded with it, a source lock's counted, else it stands matched with its action
set; a frame the filter sends to the host stands matched for that queue. A frame without its context waits. A sighting
of a new address enters the cache with a NEW or MOVE event; on the entry's own port it only refreshes the entry and
counts; on another port while the window is open it marks the entry contested, with a MOVE event naming the entry's
port, and if it is contested it only counts. CACHE_FLUSH answers OK and leaves the cache empty. On a store without
damage an exact-match step hits the copy in the move stash, else the entry of its key that comes first in the order of
R163's buckets, and misses where neither holds the key; a direct-index step gives the row's actions; a longest-prefix
step over level entries that stand as R176 has them hits the one longest prefix that covers the address, and misses
where none does. Of the results the destination, policer, mirrors, VLAN action and copy each come from the
contribution of the highest precedence that has one, the earlier on a tie, and the marks from all. A step that cannot
be read gives 0xC3, a fault entry that decides 0xC2, a source-lock miss 0x07, no destination 0x2B, a flood without a
domain's group 0x29, in this order. A search reports an entry whose parity fails once, until its repair. (04 R124, 06
R157, 06 R164, 06 R176, 06 R177, 06 R182, 06 R183, 06 R185, 06 R187, 06 R188, 06 R192, 02 R40.) -/
def Obligations.MatchStagesAndLearning : Prop :=
  ∀ (s : State) (t : Tile) (q : Port) (p : Path) (y : Sighting) (r : List Sighting), Runs s →
    (∀ k v, s.matchHead q = some k → k.tile = t.val → k.phase = .reorder →
      v = ((fresh s).putTile t { s.tile t with reorder := (s.tile t).reorder.filter (· != k.fid) }).count64
        (O.MATCH_COUNTS t 1) →
      (∀ g, k.toHost = some g → exec (.matchStart t q) s = .next (ran s ((if k.dflt then v.count64 (O.MATCH_COUNTS t 2)
        else v).putPkt { k with phase := .matched, act := { ActSet.none with kind := 3, value := g } }).postcardsDue)) ∧
      (∀ c a g u w, k.toHost = none → (if k.dflt then v.defaultMatch k else v.fullMatch k) = (c, a, g, u) → c ≠ 0 →
        w = (if c = 7 then u.count64 (O.MATCH_COUNTS t 6) else u).offer k c a g →
        exec (.matchStart t q) s = .next (ran s ((w.putPkt { k with phase := .matched, act := a }).discardArrival
          { k with phase := .matched, act := a } c).postcardsDue)) ∧
      (∀ a g u c l w, k.toHost = none → k.dflt = false → v.fullMatch k = (0, a, g, u) → u.matchPolice k a = (c, l, w) →
        exec (.matchStart t q) s = .next (ran s
          (if c = 0 then (w.offer k 0 a g).putPkt { l with phase := .matched, act := a }
           else ((w.offer k 0 a g).putPkt { l with phase := .matched, act := a }).discardArrival
             { l with phase := .matched, act := a } c).postcardsDue)) ∧
      (∀ a g u, k.toHost = none → k.dflt = true → v.defaultMatch k = (0, a, g, u) →
        exec (.matchStart t q) s = .next (ran s ((u.offer k 0 a g).putPkt { k with
          phase := .matched, act := a }).postcardsDue))) ∧
    (∀ k, s.matchHead q = some k → (k.tile ≠ t.val ∨ k.phase ≠ .reorder) →
      exec (.matchStart t q) s = .next (fresh s)) ∧
    (s.lookup.offered = y :: r →
      (s.cached y.key = none → s.lookup.cache.length < 16384 →
        Does .learnSighting s fun u => u.lookup.offered = r ∧
          u.get O.LEARN_SEQ = (s.get O.LEARN_SEQ + 1) % 2 ^ 64 ∧
          u.get (O.LEARN_COUNTS 1) = (s.get (O.LEARN_COUNTS 1) + 1) % 2 ^ 64 ∧
          u.lookup.cache = s.lookup.cache.filter (·.key != y.key) ++
            [⟨y.key, y.port, (s.get O.LEARN_SEQ + 1) % 2 ^ 64, s.now, s.now, false⟩]) ∧
      (∀ e, s.cached y.key = some e → s.windowOpen e = true → e.port = y.port →
        Does .learnSighting s fun u => u.lookup.offered = r ∧ u.get O.LEARN_SEQ = s.get O.LEARN_SEQ ∧
          u.get (O.LEARN_COUNTS 2) = (s.get (O.LEARN_COUNTS 2) + 1) % 2 ^ 64 ∧
          u.cached y.key = some { e with lastSeen := s.now }) ∧
      (∀ e, s.cached y.key = some e → s.windowOpen e = true → e.port ≠ y.port → e.contested = false →
        Does .learnSighting s fun u => u.lookup.offered = r ∧
          u.get O.LEARN_SEQ = (s.get O.LEARN_SEQ + 1) % 2 ^ 64 ∧
          u.get (O.LEARN_COUNTS 5) = (s.get (O.LEARN_COUNTS 5) + 1) % 2 ^ 64 ∧
          u.cached y.key = some { e with contested := true }) ∧
      (∀ e, s.cached y.key = some e → s.windowOpen e = true → e.port ≠ y.port → e.contested = true →
        Does .learnSighting s fun u => u.lookup.offered = r ∧ u.lookup.cache = s.lookup.cache ∧
          u.get (O.LEARN_COUNTS 6) = (s.get (O.LEARN_COUNTS 6) + 1) % 2 ^ 64)) ∧
    (Takes s p O.CACHE_FLUSH → Does (.cacheFlush p) s fun u => u.out = [.answer p Err.ok []] ∧ u.lookup.cache = [] ∧
      (u.cmd O.CACHE_FLUSH).status = 2 ∧ u.dict.objs = s.dict.objs) ∧
    (∀ (k : Pkt) (x : PlanStep) (d : Decl) (key : Nat), d = s.declP k x.table → s.faults.damage = [] →
      let mine := fun v => entryValid v = true ∧ entryKey v = key
      (d.kind = 1 → key = d.key (x.key k.ctx) →
        (∀ l v r, s.stashOf x.table d = l ++ v :: r → mine v → (∀ w ∈ l, ¬ mine w) → (s.stepLookup k x).1 = .hit v) ∧
        ((∀ v ∈ s.stashOf x.table d, ¬ mine v) →
          (∀ l w r, d.candidates key = l ++ w :: r → mine (s.unit w) → (∀ z ∈ l, ¬ mine (s.unit z)) →
            (s.stepLookup k x).1 = .hit (s.unit w) ∧
            (x.role ≠ 2 → bits (entryAction (s.unit w)) 23 22 ≠ 0 →
              (s.stepLookup k x).2.1 = some (refActions (entryAction (s.unit w))))) ∧
          ((∀ w ∈ d.candidates key, ¬ mine (s.unit w)) → (s.stepLookup k x).1 = .miss))) ∧
      ((d.kind = 2 ∨ d.kind = 5) → key = beNat (x.key k.ctx) →
        (key < d.size → (s.stepLookup k x).1 = .hit (s.unit (d.base * 4 + key)) ∧
          (s.stepLookup k x).2.1 = some (rowActions (s.unit (d.base * 4 + key)))) ∧
        (d.size ≤ key → (s.stepLookup k x).1 = .miss)) ∧
      (d.isLpm = true → key = beNat (x.key k.ctx) → key < 2 ^ d.width → TrieHolds s x.table d →
        (∀ e ∈ s.recsOf x.table, e.covers d.width key = true →
          (∀ z ∈ s.recsOf x.table, z.covers d.width key = true → z = e ∨ z.len < e.len) →
          (s.stepLookup k x).1 = .hit e.action) ∧
        ((∀ e ∈ s.recsOf x.table, e.covers d.width key = false) → (s.stepLookup k x).1 = .miss))) ∧
    (∀ (l m : List Contrib) (c : Contrib),
      let a := combine (l ++ c :: m)
      let wins := fun (f : ActSet → Bool) => f c.set = true ∧ (∀ e ∈ l, f e.set = true → e.prec < c.prec) ∧
        ∀ e ∈ m, f e.set = true → e.prec ≤ c.prec
      (wins (·.kind != 0) → a.kind = c.set.kind ∧ a.value = c.set.value ∧ a.queue = c.set.queue ∧
        a.eqValid = c.set.eqValid ∧ a.eq = c.set.eq ∧ a.fate = c.set.fate ∧ a.overflow = c.set.overflow) ∧
      ((∀ e ∈ l ++ c :: m, e.set.kind = 0) → a.kind = 0) ∧
      (wins (·.policer.isSome) → a.policer = c.set.policer) ∧ (wins (·.mirA.isSome) → a.mirA = c.set.mirA) ∧
      (wins (·.mirB.isSome) → a.mirB = c.set.mirB) ∧ (wins (·.vlan % 8 != 0) → a.vlan = c.set.vlan) ∧
      (wins (·.copyTo.isSome) → a.copyTo = c.set.copyTo) ∧
      (a.postcard = true ↔ ∃ e ∈ l ++ c :: m, e.set.postcard = true) ∧
      (a.insert = true ↔ ∃ e ∈ l ++ c :: m, e.set.insert = true) ∧
      (a.noLearn = true ↔ ∃ e ∈ l ++ c :: m, e.set.noLearn = true)) ∧
    (∀ (k : Pkt) (g : Gather) (m : Option ActSet) (fault : Bool) (v : State), g = (s.runSteps k Gather.none (s.planP k)).1 →
      (s.runSteps k Gather.none (s.planP k)).2.mamStep k = (m, fault, v) →
      let a := combine (g.sets ++ [⟨s.getP k.applied (O.MAM_PRECEDENCE k.tile), m.getD ActSet.none⟩])
      let c := (s.fullMatch k).1
      (g.bad = true ∨ m = none → c = 0xC3) ∧ (g.bad = false → m ≠ none →
        (fault = true → c = 0xC2) ∧ (fault = false → (g.locked = true → c = 0x07) ∧ (g.locked = false →
          (a.kind = 0 → c = 0x2B) ∧ (a.kind = 4 → c = a.fate) ∧
          ((a.kind = 1 ∨ a.kind = 2 ∨ a.kind = 3) → c = 0 ∧ (s.fullMatch k).2.1 = a) ∧
          (a.kind = 5 → (∀ d, g.domain = some d → d.kind = 2 → c = 0 ∧ (s.fullMatch k).2.1.kind = 2 ∧
              (s.fullMatch k).2.1.value = d.value) ∧
            ((∀ d, g.domain = some d → d.kind ≠ 2) → c = 0x29)))))) ∧
    (∀ d : Damage, s.faults.damage = [d] → d.source = 0x3A0 + t.val → d.told = false →
      (s.mamCheck t).faults.reports = s.faults.reports ++
        [⟨0x3A0 + t, unitId 2 t, unitId 2 t, detailM d.addr 0 1 1, d.injected⟩] ∧
      ((s.mamCheck t).mamCheck t).faults.reports = (s.mamCheck t).faults.reports)

/-- ENQUEUE of a matched packet without a destination closes it with 0x47; without a descriptor every destination and
the packet are refused with 0x41; with every destination refused the packet takes the first one's code; without an
extension for more than 64 holders, or queue entries, it is refused with 0x45 or 0x46; else the packet comes to be
with its admitted holders. A release that names no packet, another generation or a token never issued is counted and
reported as BUF_FOREIGN_FREE, one of a token already released as BUF_DOUBLE_FREE, by the descriptor unit, naming the
unit that sent it by R431's table, and changes nothing else; a release of a lost packet's token is absorbed with 0xC6;
a good one releases its token. The return of the last cell of a packet in cell return credits it; any other handle
changes nothing. HOLDER_ADD by a holder of the packet with its generation asks for a mirror copy; by any other nothing
happens. (07 R200, 07 R202, 07 R205, 07 R207, 07 R209, 07 R210, 07 R212, 07 R213, 07 R228, 13 R431.) -/
def Obligations.EnqueueAndRelease : Prop :=
  ∀ (s : State) (t : Tile) (q : Port) (hw : BitVec 27) (tok : BitVec 10) (sender : Sender) (h : Handle) (m : Fin 64),
    Runs s →
    (∀ k d, s.buf.pkts.find? (fun k => k.src == .port q && k.phase == .matched && k.tile == t.val) = some k →
      d = (fresh s).destinations k →
      (d.1 = [] → exec (.enqueue t q) s = .next (ran s ((d.2.2.discardArrival d.2.1 0x47).postcardsDue))) ∧
      (∀ v, d.1 ≠ [] → v = { d.2.1 with charge := d.2.2.chargeOf d.2.1, cls := d.2.2.classOf d.2.1 d.1 } →
        (d.2.2.allocDesc = none → exec (.enqueue t q) s =
          .next (ran s ((d.2.2.refuseAll v (d.1.map fun e => (e, 0x41)) 0x41).postcardsDue))) ∧
        (∀ i g z r, d.2.2.allocDesc = some (i, g, z) → r = z.admitAll v d.1 →
          (∀ x rest, r.1 = x :: rest → (∀ e ∈ r.1, e.code ≠ 0) → exec (.enqueue t q) s = .next (ran s
            (((z.freeDesc i).refuseAll v (r.1.map fun e => (e.dest, e.code)) x.code).postcardsDue))) ∧
          (64 < (r.1.filter (·.code == 0)).length → (z.freeDesc i).get O.EXTENSIONS_FREE = 0 →
            exec (.enqueue t q) s = .next (ran s (((z.freeDesc i).refuseAll v
              (r.1.map fun e => (e.dest, if e.code = 0 then 0x45 else e.code)) 0x45).postcardsDue))) ∧
          (1 ≤ (r.1.filter (·.code == 0)).length →
            ((r.1.filter (·.code == 0)).length ≤ 64 ∨ (z.freeDesc i).get O.EXTENSIONS_FREE ≠ 0) →
            (z.freeDesc i).get O.QUEUE_ENTRIES_FREE < (r.1.filter (·.code == 0)).length →
            exec (.enqueue t q) s = .next (ran s (((z.freeDesc i).refuseAll v
              (r.1.map fun e => (e.dest, if e.code = 0 then 0x46 else e.code)) 0x46).postcardsDue))) ∧
          (1 ≤ (r.1.filter (·.code == 0)).length →
            ((r.1.filter (·.code == 0)).length ≤ 64 ∨ (z.freeDesc i).get O.EXTENSIONS_FREE ≠ 0) →
            (r.1.filter (·.code == 0)).length ≤ (z.freeDesc i).get O.QUEUE_ENTRIES_FREE →
            exec (.enqueue t q) s = .next (ran s ((r.2.2.makePacket r.2.1 i g r.1).postcardsDue)))))) ∧
    (∀ i k, i = hw.toNat % 2 ^ 21 → k = tok.toNat →
      (s.byHandle i = none → exec (.tokenRelease hw tok sender) s = .next (ran s
        (((fresh s).count64 (O.BUF_COUNTS 4)).reportR ⟨0x640, s.releasingUnit sender, unitId 6 0, detailO hw.toNat k, false⟩))) ∧
      (∀ p v, s.byHandle i = some p → v = ((fresh s).useDesc p).2 →
        (((fresh s).useDesc p).1 = true → exec (.tokenRelease hw tok sender) s = .next (ran s
          (v.releaseAt p.fid k 0xC6 0).postcardsDue)) ∧
        (((fresh s).useDesc p).1 = false →
          (p.gen ≠ hw.toNat / 2 ^ 21 ∨ p.issued ≤ k → exec (.tokenRelease hw tok sender) s = .next (ran s
            ((v.count64 (O.BUF_COUNTS 4)).reportR ⟨0x640, s.releasingUnit sender, unitId 6 0, detailO hw.toNat k, false⟩))) ∧
          (p.gen = hw.toNat / 2 ^ 21 → k < p.issued → (∀ e ∈ p.holders, e.tok ≠ k) →
            exec (.tokenRelease hw tok sender) s = .next (ran s
              ((v.count64 (O.BUF_COUNTS 4)).reportR ⟨0x641, s.releasingUnit sender, unitId 6 0, detailO hw.toNat k, false⟩))) ∧
          (∀ x, p.gen = hw.toNat / 2 ^ 21 → k < p.issued → p.holders.find? (·.tok == k) = some x →
            exec (.tokenRelease hw tok sender) s = .next (ran s
              (v.releaseTok p x (if p.act.overflow then 0x2C else 0x00) (v.frameLen p x)).postcardsDue))))) ∧
    (∀ (e : Queue) (c : Channel), (e.val < 8192 → s.releasingUnit (.queue e) = unitId 10 (e.val / 16)) ∧
      (8192 ≤ e.val → e.val < 8320 → s.get (O.HOSTQ_CHANNEL e) = c.val → s.releasingUnit (.queue e) = unitId 15 c) ∧
      s.releasingUnit (.enqueue t) = unitId 2 t ∧ s.releasingUnit (.channel c) = unitId 15 c ∧
      s.releasingUnit .store = unitId 6 0) ∧
    (∀ p, s.byHandle h = some p → p.phase = .returning → p.lost = false →
      exec (.cellReturnDone h) s = .next (ran s ((fresh s).cellReturn p))) ∧
    (∀ p, s.byHandle h = some p → p.phase = .returning → p.lost = false → p.pools = 0 → p.cls = 0 → p.hroom = false →
      p.ext = false → (∀ c ∈ p.cells, s.bankUp (bankOfCell c) = true ∧ c ∉ s.buf.doomed) →
      Does (.cellReturnDone h) s fun u => (∀ c ∈ p.cells, c ∉ u.buf.used) ∧ u.buf.freed = s.buf.freed ++ [p.handle] ∧
        u.pkt? p.fid = none ∧ u.get O.DESCRIPTORS_FREE = s.get O.DESCRIPTORS_FREE + 1 ∧
        ∀ r e, r ≠ O.DESCRIPTORS_FREE → u.get r e = s.get r e) ∧
    (s.byHandle h = none → exec (.cellReturnDone h) s = .next (fresh s)) ∧
    (∀ p x, s.byHandle (hw.toNat % 2 ^ 21) = some p → p.holders.find? (·.tok == tok.toNat) = some x →
      p.gen = hw.toNat / 2 ^ 21 →
      exec (.holderAdd hw tok m) s = .next (ran s ((fresh s).addHolder p x m)) ∧
      (s.getP p.applied (O.MIRROR_PORT m) = 0xFFFF → exec (.holderAdd hw tok m) s = .next (fresh s))) ∧
    (s.byHandle (hw.toNat % 2 ^ 21) = none → exec (.holderAdd hw tok m) s = .next (fresh s))

/-- BANK_ISOLATE of a bank in service runs and starts its remap, of any other it is refused with ERR_STATE; REMAP_CELL
moves its lowest allocated cell, the packet that holds it naming the copy in its place; with none left BANK_REMAP_DONE
isolates it, raises its source and ends the command. BANK_RESTORE of an isolated bank runs; BANK_RESTORE_DONE puts it
back in service with no quarantined cell, or fails and leaves it isolated. ORPHAN_SWEEP and its timeout start a sweep
over the lost packets that have ended; ORPHAN_SWEEP_DONE with none of them ends it. DESCRIPTOR_READ answers a packet's
32 bytes, of a free handle its generation with no holder and reserved bits 0 (the rest free, log 4), above 2,097,151
ERR_RANGE, of another length ERR_TYPE. SNAPSHOT latches the counters. (07 R204, 07 R225, 07 R226, 07 R227, 07 R228, 07
R230, 02 R40, 02 R67.) -/
def Obligations.BanksSweepsAndReadOut : Prop :=
  ∀ (s : State) (p : Path) (k : BufBank) (d : List Byte), Runs s →
    (Takes s p (O.BANK_ISOLATE k) → s.get (O.BUF_BANK_STATE k) = BankSt.inService →
      Does (.bankIsolate p k) s fun u => u.out = [.answer p Err.ok []] ∧ u.get (O.BUF_BANK_STATE k) = BankSt.remapping ∧
        (u.cmd (O.BANK_ISOLATE k)).status = 1 ∧ u.buf.used = s.buf.used) ∧
    (Takes s p (O.BANK_ISOLATE k) → s.get (O.BUF_BANK_STATE k) ≠ BankSt.inService →
      exec (.bankIsolate p k) s = .next (refused s p Err.state)) ∧
    (∀ c, s.get (O.BUF_BANK_STATE k) = BankSt.remapping → s.buf.used.find? (bankOfCell · == k.val) = some c →
      exec (.remapCell k) s = .next (ran s (((fresh s).remapCell c).postcardsDue))) ∧
    (∀ c n v, s.get (O.BUF_BANK_STATE k) = BankSt.remapping → s.buf.used.find? (bankOfCell · == k.val) = some c →
      (fresh s).grantCell = some (n, v) → (∀ q ∈ s.buf.pkts, c ∉ q.cells) → (∀ e ∈ s.tiles, e.2.postRecs.length < 24) →
      s.damaged (0x400 + bankOfCell c) c = none →
      Does (.remapCell k) s fun u => c ∈ u.buf.dropped ∧
        u.get O.CELLS_REMAPPED = (s.get O.CELLS_REMAPPED + 1) % 2 ^ 64) ∧
    (∀ c n v, s.get (O.BUF_BANK_STATE k) = BankSt.remapping → s.buf.used.find? (bankOfCell · == k.val) = some c →
      (fresh s).grantCell = some (n, v) → s.faults.damage = [] → s.faults.armed = [] →
      (∀ e ∈ s.tiles, e.2.postRecs.length < 24) → Does (.remapCell k) s fun u => u.buf.pkts = s.buf.pkts.map fun q =>
        { q with cells := q.cells.map fun x => if x = c then n else x }) ∧
    (s.get (O.BUF_BANK_STATE k) = BankSt.remapping → (∀ c ∈ s.buf.used, bankOfCell c ≠ k.val) →
      Does (.bankRemapDone k) s fun u => u.get (O.BUF_BANK_STATE k) = BankSt.isolated ∧
        u.irq.doorbells = s.irq.doorbells ++ [0x580 + k.val] ∧ u.buf.used = s.buf.used ∧
        (s.cmdRunning (O.BANK_ISOLATE k) = true → (u.cmd (O.BANK_ISOLATE k)).status = 2)) ∧
    (Takes s p (O.BANK_RESTORE k) → s.get (O.BUF_BANK_STATE k) = BankSt.isolated →
      exec (.bankRestore p k) s = .next (answers s p Err.ok
        (((fresh s).cmdRun (O.BANK_RESTORE k)).set (O.BUF_BANK_STATE k) BankSt.restoring))) ∧
    (Takes s p (O.BANK_RESTORE k) → s.get (O.BUF_BANK_STATE k) ≠ BankSt.isolated →
      exec (.bankRestore p k) s = .next (refused s p Err.state)) ∧
    (s.get (O.BUF_BANK_STATE k) = BankSt.restoring →
      (Does (.bankRestoreDone k true) s fun u => u.get (O.BUF_BANK_STATE k) = BankSt.inService ∧
        u.get (O.BANK_QUARANTINED k) = 0 ∧ (∀ c ∈ u.buf.quar, bankOfCell c ≠ k.val) ∧
        (∀ c ∈ u.buf.dropped, bankOfCell c ≠ k.val) ∧ (u.cmd (O.BANK_RESTORE k)).status = 2) ∧
      exec (.bankRestoreDone k false) s = .next (ran s
        (((fresh s).set (O.BUF_BANK_STATE k) BankSt.isolated).cmdFail (O.BANK_RESTORE k) Err.state))) ∧
    (Takes s p O.ORPHAN_SWEEP → Does (.orphanSweep p) s fun u => u.out = [.answer p Err.ok []] ∧
      u.sys.sweepNext = (s.buf.pkts.filter fun q => q.lost && q.enq && q.ended && q.cells != []).map (·.fid) ∧
      (u.cmd O.ORPHAN_SWEEP).status = 1 ∧ u.buf = s.buf) ∧
    (Does .orphanSweepTimeout s fun u => u.buf = s.buf ∧ u.dict = s.dict ∧
      u.sys.sweepNext = (s.buf.pkts.filter fun q => q.lost && q.enq && q.ended && q.cells != []).map (·.fid)) ∧
    (s.sys.sweepNext = [] → s.cmdRunning O.ORPHAN_SWEEP = true →
      exec .orphanSweepDone s = .next (ran s ((fresh s).cmdDone O.ORPHAN_SWEEP))) ∧
    (∀ f q, s.sys.sweepNext = [f] → s.pkt? f = some q → s.cmdRunning O.ORPHAN_SWEEP = false →
      exec .orphanSweepDone s = .next (ran s (let v := (fresh s).sweepPkt q
        { v with sys := { v.sys with sweepNext := [] } }))) ∧
    (Takes s p O.DESCRIPTOR_READ → d.length = 4 →
      (∀ q, leNat d < 2097152 → s.byHandle (leNat d) = some q →
        exec (.descriptorRead p d) s = .next (answers s p Err.ok
          (((fresh s).useDesc q).2.cmdDone O.DESCRIPTOR_READ (descBytes q)))) ∧
      (leNat d < 2097152 → s.byHandle (leNat d) = none →
        Does (.descriptorRead p d) s fun u => u.out = [.answer p Err.ok []] ∧ (u.cmd O.DESCRIPTOR_READ).status = 2 ∧
          (∃ v < 2 ^ 256, (u.cmd O.DESCRIPTOR_READ).result = freeDescBytes v (look 0 s.buf.gens (leNat d))) ∧
          (u.cmd O.DESCRIPTOR_READ).result.length = 32 ∧ u.free = s.free + 1 ∧ u.buf = s.buf) ∧
      (2097152 ≤ leNat d → exec (.descriptorRead p d) s = .next (refused s p Err.range))) ∧
    (Takes s p O.DESCRIPTOR_READ → d.length ≠ 4 → exec (.descriptorRead p d) s = .next (refused s p Err.type)) ∧
    (Takes s p O.SNAPSHOT → Does (.snapshot p) s fun u => u.out = [.answer p Err.ok []] ∧
      (∀ i : Fin 20, u.get O.SNAPSHOT_DATA i = leAt s.snapshotBytes (4 * i) 4) ∧
      ∀ r e, r ≠ O.SNAPSHOT_DATA → u.get r e = s.get r e)

/-- An offset (TB_SET's target less the base, or TB_ADJUST's) makes an ARMED base TRACKING at once and steps it at the
next tick, before which its value stands; on a TRACKING base it adds to the slew if the sum is within the jump
threshold, else the base is HELD, the refusal is kept and reported, and the command fails with ERR_RANGE; on a HELD
base it is refused with ERR_STATE and counted. Where a servo owns the base both are refused with ERR_STATE, and a
TB_SET with a second's worth of ns with ERR_RANGE. TB_REARM 0 makes any base ARMED, 1 takes HELD to TRACKING alone,
and a REFUSED servo of a base whose state changes acquires anew. A slew that ends adds what remains. TIME_SNAPSHOT
answers all bases and the device clock. No other base changes. The start of a REFUSED servo (log 100), the counting of
refusals in HELD (log 42), and that a step waits for the next tick and sums with one that waits already (log 98) are
the model's choices. (09 R261, 09 R263, 09 R264, 09 R265, 09 R266, 09 R267, 09 R286, 02 R40.) -/
def Obligations.TimeBasesAreSetSlewedAndRearmed : Prop :=
  ∀ (s : State) (p : Path) (n : TimeBase) (d e : List Byte), Runs s → d.length = 12 → e.length = 8 →
    (∀ i r o, (i, r, o) ∈ [(Instr.tbSet p n d, O.TB_SET n, timeDiff (leNat d) (s.tb n)),
        (.tbAdjust p n e, O.TB_ADJUST n, toSigned 64 (leNat e))] → Takes s p r → timeNs (leNat d) < 1000000000 →
      (s.get (O.SERVO_OWNER n) = 1 → exec i s = .next (refused s p Err.state)) ∧
      (s.get (O.SERVO_OWNER n) ≠ 1 → s.get (O.TB_STATE n) = TbState.armed →
        exec i s = .next (answers s p Err.ok ((((fresh s).tracks n).askStep n o false).cmdDone r)) ∧
        Does i s fun u => u.get (O.TB_STATE n) = TbState.tracking ∧ u.base n = { s.base n with slew := 0 } ∧
          (u.cmd r).status = 2 ∧ (∀ k : TimeBase, k ≠ n → u.base k = s.base k) ∧
          (s.time.steps = [] → u.time.steps = [⟨n, o, false⟩] ∧
            (∀ k : TimeBase, k ≠ n → u.stepsDue.base k = s.base k) ∧
            ((((u.stepsDue.base n).sec * 1000000000 : Nat) : Int) * 2 ^ 48 + (u.stepsDue.base n).nsf) %
                (2 ^ 48 * 1000000000 * 2 ^ 48) =
              ((((s.base n).sec * 1000000000 : Nat) : Int) * 2 ^ 48 + (s.base n).nsf + o * 2 ^ 32) %
                (2 ^ 48 * 1000000000 * 2 ^ 48))) ∧
      (s.get (O.SERVO_OWNER n) ≠ 1 → s.get (O.TB_STATE n) = TbState.tracking →
        -((s.get (O.JUMP_THRESHOLD_NS n) * 2 ^ 48 * 5 : Nat) : Int) ≤ o * slewPerUnit + (s.base n).slew →
        o * slewPerUnit + (s.base n).slew ≤ ((s.get (O.JUMP_THRESHOLD_NS n) * 2 ^ 48 * 5 : Nat) : Int) →
        exec i s = .next (answers s p Err.ok ((((fresh s).putBase n { s.base n with
          slew := o * slewPerUnit + (s.base n).slew }).count64 (O.TB_COUNTS n 12)).cmdDone r))) ∧
      (s.get (O.SERVO_OWNER n) ≠ 1 → s.get (O.TB_STATE n) = TbState.tracking →
        (((s.get (O.JUMP_THRESHOLD_NS n) * 2 ^ 48 * 5 : Nat) : Int) < o * slewPerUnit + (s.base n).slew ∨
          o * slewPerUnit + (s.base n).slew < -((s.get (O.JUMP_THRESHOLD_NS n) * 2 ^ 48 * 5 : Nat) : Int)) →
        Does i s fun u => u.out = [.answer p Err.range []] ∧ u.get (O.TB_STATE n) = TbState.held ∧
          u.cmd r = ⟨3, Err.range, []⟩ ∧ u.time = s.time ∧
          u.get (O.TB_COUNTS n 13) = (s.get (O.TB_COUNTS n 13) + 1) % 2 ^ 64 ∧
          u.faults.reports.map (·.source) = s.faults.reports.map (·.source) ++ [0x788 + n.val]) ∧
      (s.get (O.SERVO_OWNER n) ≠ 1 → s.get (O.TB_STATE n) = TbState.held →
        exec i s = .next (answers s p Err.state ((fresh s).count64 (O.TB_COUNTS n 13))))) ∧
    (Takes s p (O.TB_SET n) → 1000000000 ≤ timeNs (leNat d) →
      exec (.tbSet p n d) s = .next (refused s p Err.range)) ∧
    (Takes s p (O.TB_REARM n) →
      (s.get (O.TB_STATE n) = TbState.armed →
        exec (.tbRearmArm p n) s = .next (answers s p Err.ok ((fresh s).cmdDone (O.TB_REARM n)))) ∧
      (∀ st v w, v = ((fresh s).set (O.TB_STATE n) st).count64 (O.TB_COUNTS n 14) →
        w = (if s.get (O.SERVO_STATE n) = Machine.Servo.refused
          then (v.putServo n { s.servo n with good := 0, bad := 0 }).set (O.SERVO_STATE n) Machine.Servo.acquiring
          else v) →
        (st = TbState.armed → s.get (O.TB_STATE n) ≠ TbState.armed → exec (.tbRearmArm p n) s =
          .next (answers s p Err.ok (w.cmdDone (O.TB_REARM n)))) ∧
        (st = TbState.tracking → s.get (O.TB_STATE n) = TbState.held → exec (.tbRearmTrack p n) s =
          .next (answers s p Err.ok (w.cmdDone (O.TB_REARM n))))) ∧
      (s.get (O.TB_STATE n) ≠ TbState.held → exec (.tbRearmTrack p n) s = .next (refused s p Err.state))) ∧
    ((s.base n).slew ≠ 0 → -(1024 * slewUnits (s.get (O.SLEW_MAX_PPB n)) : Int) ≤ (s.base n).slew →
      (s.base n).slew ≤ (1024 * slewUnits (s.get (O.SLEW_MAX_PPB n)) : Int) →
      Does (.slewComplete n) s fun u => (u.base n).slew = 0 ∧ (∀ k : TimeBase, k ≠ n → u.base k = s.base k) ∧
        u.dict = s.dict) ∧
    (Takes s p O.TIME_SNAPSHOT → exec (.timeSnapshot p) s = .next (answers s p Err.ok ((fresh s).cmdDone O.TIME_SNAPSHOT
      ((List.range 8).flatMap (fun k => leBytes 12 (s.tb k)) ++ leBytes 8 s.dc))))

/-- TIME_REF_LOSS shows the error, counts, and where the reference is selected makes TIME_REF_STATE 2 with a report;
TIME_REF_RECOVER shows the error and starts the ramp; TIME_REF_RAMP_DONE ends it, with TIME_REF_STATE 1 where
selected. PPS_IN_EDGE, enabled, counts, captures every base, raises its source, and the ARMED bases that align step to
the nearest second at the next tick, where no command of this tick steps them. PPS_IN_LOSS, enabled, reports, and with
the firmware up puts the servos that follow the input in HOLDOVER. PPS_OUT_EDGE of a base that ran past an edge
instant in the last tick raises the pin; PPS_OUT_PULSE_END drops it once the base has reached its width. SERVO_MEASURE
writes offset and rate, corrects the base, and counts or is REFUSED; a servo on a HELD source goes to HOLDOVER; one
not ready does nothing. That a command's step comes before that of an edge of the same instant is the model's choice
(log 98). (09 R261, 09 R264, 09 R272, 09 R273, 09 R274, 09 R275.) -/
def Obligations.TimeReferencePpsAndServos : Prop :=
  ∀ (s : State) (n : TimeBase) (err : BitVec 32), Runs s →
    (Does (.timeRefLoss err) s fun u => u.time.refOk = false ∧ u.time.ramping = false ∧
      u.get O.TIME_REF_FREQ_ERR = err.toNat ∧ u.get O.TIME_REF_LOSSES = min (s.get O.TIME_REF_LOSSES + 1) (2 ^ 32 - 1) ∧
      (s.get O.TIME_REF_SELECT = 1 → u.get O.TIME_REF_STATE = 2 ∧
        u.faults.reports.map (·.source) = s.faults.reports.map (·.source) ++ [0x780]) ∧
      (s.get O.TIME_REF_SELECT ≠ 1 → u.get O.TIME_REF_STATE = s.get O.TIME_REF_STATE ∧ u.faults = s.faults)) ∧
    (Does (.timeRefRecover err) s fun u => u.time = { s.time with
        refOk := true, ramping := s.time.ramping || s.get O.TIME_REF_SELECT == 1 } ∧
      u.get O.TIME_REF_FREQ_ERR = err.toNat ∧ ∀ r e, r ≠ O.TIME_REF_FREQ_ERR → u.get r e = s.get r e) ∧
    (s.time.ramping = true → Does .timeRefRampDone s fun u => u.time = { s.time with ramping := false } ∧
      u.get O.TIME_REF_STATE = (if s.get O.TIME_REF_SELECT = 1 then 1 else s.get O.TIME_REF_STATE)) ∧
    (s.flag O.PPS_IN_ENABLE = true →
      Does .ppsInEdge s fun u => u.get O.PPS_IN_COUNT = min (s.get O.PPS_IN_COUNT + 1) (2 ^ 32 - 1) ∧
        u.irq.doorbells = s.irq.doorbells ++ [0x790] ∧
        (∀ k : TimeBase, ((u.getAll O.PPS_IN_CAPTURE 112).drop (12 * k)).take 12 =
          (leBytes 12 (s.ppsCapture k)).map bn) ∧
        (∀ k : TimeBase, u.base k = s.base k ∧ u.get (O.TB_STATE k) = s.get (O.TB_STATE k)) ∧
        ∀ (k : TimeBase) x, s.get (O.TB_STATE k) = TbState.armed → s.flag (O.PPS_ALIGN k) = true →
          (∀ y ∈ s.time.steps, y.base = k.val → y.edge = true) → x = timeUnits (s.ppsCapture k) →
          ⟨k, ((x + secondU / 2) / secondU * secondU : Nat) - (x : Int), true⟩ ∈ u.time.steps ∧
          u.stepsDue.get (O.TB_STATE k) = TbState.tracking) ∧
    (s.flag O.PPS_IN_ENABLE = false → exec .ppsInEdge s = .next (fresh s)) ∧
    (Does .ppsInLoss s fun u => (s.fwUp = true →
      ∀ k : TimeBase, s.get (O.SERVO_OWNER k) = 1 → s.get (O.SERVO_MODE k) = 1 →
        s.get (O.SERVO_STATE k) ≠ Machine.Servo.refused → u.get (O.SERVO_STATE k) = Machine.Servo.holdover) ∧
      (s.flag O.PPS_IN_ENABLE = true → (⟨0x791, unitId 11 0, unitId 11 0, zeros 20, false⟩ : Report) ∈ u.faults.reports)) ∧
    (s.flag (O.PPS_OUT_ENABLE n) = true → s.ppsPast n < s.time.ran.getD n 0 → s.ppsHigh? n = none →
      Does (.ppsOutEdge n) s fun u => u.out = [.pps n true] ∧ u.ppsHigh? n = some (s.tbUnits n - s.ppsPast n) ∧
        u.dict = s.dict) ∧
    ((s.flag (O.PPS_OUT_ENABLE n) = false ∨ s.time.ran.getD n 0 ≤ s.ppsPast n) →
      exec (.ppsOutEdge n) s = .next (fresh s)) ∧
    (∀ e, s.ppsHigh? n = some e →
      (e + s.get (O.PPS_OUT_WIDTH_NS n) * nsU ≤ s.tbUnits n → Does (.ppsOutPulseEnd n) s fun u =>
        u.out = [.pps n false] ∧ u.ppsHigh? n = none ∧ u.dict = s.dict) ∧
      (s.tbUnits n < e + s.get (O.PPS_OUT_WIDTH_NS n) * nsU → exec (.ppsOutPulseEnd n) s = .next (fresh s))) ∧
    (s.servoReady n = true → s.get (O.SERVO_MODE n) = 2 → s.get (O.TB_STATE (s.get (O.SERVO_SOURCE n))) = TbState.held →
      exec (.servoMeasure n) s = .next (ran s ((fresh s).servoTo n Machine.Servo.holdover))) ∧
    (∀ o rate, s.servoReady n = true → ¬ (s.get (O.SERVO_MODE n) = 2 ∧
        s.get (O.TB_STATE (s.get (O.SERVO_SOURCE n))) = TbState.held) → o = s.servoOffset n →
      rate = (s.servo n).integ + s.get (O.SERVO_KP n) * o → s.get (O.TB_STATE n) = TbState.tracking →
      -((s.get (O.JUMP_THRESHOLD_NS n) * 2 ^ 48 * 5 : Nat) : Int) ≤ o * nsU * slewPerUnit + (s.base n).slew →
      o * nsU * slewPerUnit + (s.base n).slew ≤ ((s.get (O.JUMP_THRESHOLD_NS n) * 2 ^ 48 * 5 : Nat) : Int) →
      Does (.servoMeasure n) s fun u => u.get (O.SERVO_OFFSET n) = ofSigned 32 o ∧
        u.get (O.TB_RATE n) = (if -549755813 ≤ rate ∧ rate ≤ 549755813 then ofSigned 32 rate else s.get (O.TB_RATE n)) ∧
        (u.servo n).integ = (s.servo n).integ + s.get (O.SERVO_KI n) * o ∧
        u.base n = { s.base n with slew := o * nsU * slewPerUnit + (s.base n).slew }) ∧
    (s.servoReady n = false → exec (.servoMeasure n) s = .next (fresh s))

/-- A time base's TIME96 value is its seconds, its whole nanoseconds and bits [47:32] of its u80. Each tick, where no
step of it waits, it advances by the accumulator of R263 with TB_RATE plus the slew term, where the slew does not end
within the tick; the remainder is kept and a full second carries. Over five ticks without slew it advances 4 ns times
1 plus the rate times 2^-40, exactly, and its remainder returns. A slew term of 10 ppb is 10,995 units. That a tick is
a step with nothing waiting is the model's choice (log 12). (09 R263, 09 R267.) -/
def Obligations.TimeBasesAdvanceEachTick : Prop :=
  (∀ (s : State) (n : TimeBase) (acc : Int) (nsf : Nat), Runs s → s.pending = [] →
    (∀ x ∈ s.time.steps, x.base ≠ n.val) →
    ((s.base n).slew = 0 ∨ (1024 * slewUnits (s.get (O.SLEW_MAX_PPB n)) : Int) ≤ (s.base n).slew ∨
      (s.base n).slew ≤ -(1024 * slewUnits (s.get (O.SLEW_MAX_PPB n)) : Int)) →
    acc = (s.base n).rem + 0x4000000000000 + 1024 * s.rateTotal n → 0 ≤ acc →
    nsf = (s.base n).nsf + (acc / 5).toNat → ∃ t, step s = .next t ∧
      (t.base n).rem = (acc % 5).toNat ∧
      (1000000000 * 2 ^ 48 ≤ nsf → (t.base n).nsf = nsf - 1000000000 * 2 ^ 48 ∧
        (t.base n).sec = ((s.base n).sec + 1) % 2 ^ 48) ∧
      (nsf < 1000000000 * 2 ^ 48 → (t.base n).nsf = nsf ∧ (t.base n).sec = (s.base n).sec)) ∧
  (∀ (s : State) (n : TimeBase), (s.base n).sec < 2 ^ 48 → (s.base n).nsf < 1000000000 * 2 ^ 48 →
    timeSec (s.tb n) = (s.base n).sec ∧ timeNs (s.tb n) = (s.base n).nsf / 2 ^ 48 ∧
    timeFrac (s.tb n) = (s.base n).nsf / 2 ^ 32 % 2 ^ 16) ∧
  (∀ (b u : Base) (rate : Int) (term : Nat), b.slew = 0 → b.rem < 5 → b.sec < 2 ^ 48 → b.nsf < 1000000000 * 2 ^ 48 →
    -549755813 ≤ rate → rate ≤ 549755813 →
    u = ((((b.tick rate term).tick rate term).tick rate term).tick rate term).tick rate term →
    u.rem = b.rem ∧ (((u.sec * (1000000000 * 2 ^ 48) + u.nsf : Nat) : Int) -
      (b.sec * (1000000000 * 2 ^ 48) + b.nsf : Nat) - (4 * 2 ^ 48 + 4 * 2 ^ 48 * rate / 2 ^ 40)) %
        ((2 ^ 48 * (1000000000 * 2 ^ 48) : Nat) : Int) = 0) ∧
  slewUnits 10 = 10995

/-- A write of TB_RATE outside plus or minus 549,755,813 is refused with ERR_RANGE and changes nothing; one within is
taken where no servo owns the base, and the base's next tick uses it in units of 2^-40 (a tick being a step with
nothing waiting, the model's choice, log 12). (09 R266.) -/
def Obligations.RateWritesActAtTheNextTick : Prop :=
  ∀ (s : State) (p : Path) (n : TimeBase) (v : Int) (d : List Byte), Ready s p → s.leasedAway p 8 = false →
    s.dict.busyTabs.contains (O.TB_RATE n) = false → -(2 ^ 31) ≤ v → v < 2 ^ 31 → d = leBytes 4 (ofSigned 32 v) →
    ((v < -549755813 ∨ 549755813 < v) → exec (.write p (O.TB_RATE n) 0 d) s = .next (refused s p Err.range)) ∧
    (-549755813 ≤ v → v ≤ 549755813 → s.get (O.SERVO_OWNER n) = 0 → Does (.write p (O.TB_RATE n) 0 d) s fun u =>
      u.out = [.answer p Err.ok []] ∧ u.geti (O.TB_RATE n) = v ∧ (∀ r e, r ≠ O.TB_RATE n → u.get r e = s.get r e) ∧
      u.time = s.time ∧ ((∀ x ∈ s.time.steps, x.base ≠ n.val) → ∀ t, step { u with pending := [] } = .next t → t.base n =
        (s.base n).tick v (slewUnits (s.get (O.SLEW_MAX_PPB n)))))

/-- PORT_SNAPSHOT latches a port's records opened and open and its 256 pairs of fates, all as they stand. MATRIX_SWAP
with the other bank cleared makes it active, notes the time and runs until MATRIX_SWAP_DONE; without, it is refused
with ERR_STATE. Neither bank counts as cleared after a swap. MATRIX_CLEAR runs, the bank not cleared, until
MATRIX_CLEAR_DONE, which leaves the inactive bank all zeros and cleared. FLOW_SCAN exports an idle record with reason
1 and frees its row, exports an active one with reason 2 and restarts its counts, and leaves other rows of the set as
they are. FLOW_FLUSH exports every valid record with reason 4, in row order, and frees it. An exported record joins
the flow stream and is counted, or is lost and counted so where no export channel takes it or 4,096 wait.
EXPORT_FLUSH_TIMEOUT closes the stream's open message, which gets its channel's next number when the channel takes it;
IPFIX_TEMPLATE_TIMER sends the template with IPFIX on; POSTCARD_FLUSH_TIMEOUT makes a frame of what its builder holds;
that the records wait where no cells are free for it is the model's choice (log 40). (10 R294, 10 R299, 10 R303, 10
R304, 10 R306, 10 R308, 02 R40.) -/
def Obligations.LedgerReadOutAndExports : Prop :=
  ∀ (s : State) (p : Path) (q : Port) (f : FlowSet) (t : Tile), Runs s →
    (Takes s p (O.PORT_SNAPSHOT q) → s.isPort q = true →
      Does (.portSnapshot p q) s fun u => u.out = [.answer p Err.ok []] ∧ (u.cmd (O.PORT_SNAPSHOT q)).status = 2 ∧
        u.get (O.PORT_SNAPSHOT_DATA q) 0 = s.get (O.RECORDS_OPENED q) % 2 ^ 64 ∧
        u.get (O.PORT_SNAPSHOT_DATA q) 1 = s.get (O.RECORDS_OPEN q) % 2 ^ 64 ∧
        (∀ i : Fin 512, u.get (O.PORT_SNAPSHOT_DATA q) (i + 2) = s.get (O.PORT_FATES q) i % 2 ^ 64) ∧
        ∀ r e, r ≠ O.PORT_SNAPSHOT_DATA q → u.get r e = s.get r e) ∧
    (Takes s p (O.PORT_SNAPSHOT q) → s.isPort q = false →
      exec (.portSnapshot p q) s = .next (refused s p Err.noInstance)) ∧
    (Takes s p O.MATRIX_SWAP → s.bankCleared = true →
      Does (.matrixSwap p) s fun u => u.out = [.answer p Err.ok []] ∧ (u.cmd O.MATRIX_SWAP).status = 1 ∧
        u.get O.MATRIX_ACTIVE = 1 - s.get O.MATRIX_ACTIVE ∧ u.get O.MATRIX_SWAP_TIME = s.ledgerTime ∧
        u.bankCleared = false ∧
        ∀ r e, r ≠ O.MATRIX_ACTIVE → r ≠ O.MATRIX_SWAP_TIME → u.get r e = s.get r e) ∧
    (Takes s p O.MATRIX_SWAP → s.bankCleared = false → exec (.matrixSwap p) s = .next (refused s p Err.state)) ∧
    (s.cmdRunning O.MATRIX_SWAP = true →
      exec .matrixSwapDone s = .next (ran s ((fresh s).cmdDone O.MATRIX_SWAP))) ∧
    (Takes s p O.MATRIX_CLEAR →
      exec (.matrixClear p) s = .next (answers s p Err.ok ((fresh s).cmdRun O.MATRIX_CLEAR).matrixClear) ∧
      Does (.matrixClear p) s fun u => (u.cmd O.MATRIX_CLEAR).status = 1 ∧ u.bankCleared = false) ∧
    (s.cmdRunning O.MATRIX_CLEAR = true →
      Does .matrixClearDone s fun u => (u.cmd O.MATRIX_CLEAR).status = 2 ∧ u.bankCleared = true ∧
        (s.get O.MATRIX_ACTIVE = 0 → ∀ e, u.get O.MATRIX_BANK_1 e = 0) ∧
        (s.get O.MATRIX_ACTIVE = 1 → ∀ e, u.get O.MATRIX_BANK_0 e = 0) ∧
        ∀ r e, r ≠ O.MATRIX_BANK_0 → r ≠ O.MATRIX_BANK_1 → u.get r e = s.get r e) ∧
    ((∀ w : Fin 4, (s.flowRow (f.val * 4 + w)).valid = false) → exec (.flowScan f) s = .next (fresh s)) ∧
    (∀ w : Fin 4, (∀ v : Fin 4, v ≠ w → (s.flowRow (f.val * 4 + v)).valid = false) →
      (s.flowRow (f.val * 4 + w)).valid = true →
      s.get O.FLOW_IDLE_S * 1000 ≤ (s.ledgerMs + 2 ^ 32 - (s.flowRow (f.val * 4 + w)).last) % 2 ^ 32 →
      exec (.flowScan f) s = .next (ran s ((((fresh s).exportFlow (s.flowRow (f.val * 4 + w)) 1).set O.FLOW_CACHE 0
        (f.val * 4 + w)).count64 (O.FLOW_COUNTS 9)))) ∧
    (let idle := fun (x : FlowRec) => x.valid = true ∧ s.get O.FLOW_IDLE_S * 1000 ≤ (s.ledgerMs + 2 ^ 32 - x.last) % 2 ^ 32
     let active := fun (x : FlowRec) => x.valid = true ∧ ¬ idle x ∧ s.get O.FLOW_ACTIVE_S ≠ 0 ∧
       s.get O.FLOW_ACTIVE_S * 1000 ≤ (s.ledgerMs + 2 ^ 32 - x.first) % 2 ^ 32
     let again := fun (x : FlowRec) =>
       { x with pkts := 0, bytes := 0, nofwd := 0, first := s.ledgerMs, flags := x.flags % 4 }
     Does (.flowScan f) s (fun u => (∀ row, row / 4 ≠ f.val → u.flowRow row = s.flowRow row) ∧
       ∀ (w : Fin 4) (x : FlowRec), x = s.flowRow (f.val * 4 + w) →
         (idle x → (u.flowRow (f.val * 4 + w)).valid = false) ∧ (active x → u.flowRow (f.val * 4 + w) = again x) ∧
         (¬ idle x → ¬ active x → u.flowRow (f.val * 4 + w) = x)) ∧
     ∀ (w : Fin 4) (x : FlowRec), x = s.flowRow (f.val * 4 + w) →
       (∀ v : Fin 4, v ≠ w → ¬ idle (s.flowRow (f.val * 4 + v)) ∧ ¬ active (s.flowRow (f.val * 4 + v))) → active x →
       exec (.flowScan f) s = .next (ran s ((((fresh s).exportFlow x 2).count64 (O.FLOW_COUNTS 10)).putFlow
         (f.val * 4 + w) (again x)))) ∧
    (let all := fun (x : Stream) => x.msgs.flatMap (·.recs) ++ x.recs
     (∀ x r, s.exportOpen false = true → s.ledger.flow.waiting < 4096 →
       all ((fresh s).exportFlow x r).ledger.flow = all s.ledger.flow ++ [flowExport x r] ∧
       ((fresh s).exportFlow x r).get (O.FLOW_COUNTS 11) = (s.get (O.FLOW_COUNTS 11) + 1) % 2 ^ 64) ∧
     (∀ x r, s.exportOpen false = false ∨ 4096 ≤ s.ledger.flow.waiting →
       all ((fresh s).exportFlow x r).ledger.flow = all s.ledger.flow ∧
       ((fresh s).exportFlow x r).ledger.flow.lost = s.ledger.flow.lost + 1 ∧
       ((fresh s).exportFlow x r).get (O.FLOW_COUNTS 12) = (s.get (O.FLOW_COUNTS 12) + 1) % 2 ^ 64) ∧
     ∀ rows, Takes s p O.FLOW_FLUSH → objsCanonical s.dict.objs = true →
       rows = ((s.dict.objs.filter fun e => e.1.ref == O.FLOW_CACHE).map (·.1.el)).filter (fun r => (s.flowRow r).valid) →
       (∀ r, (s.flowRow r).valid = true → r ∈ rows) ∧
       (s.exportOpen false = true → s.ledger.flow.waiting + rows.length ≤ 4096 → Does (.flowFlush p) s fun u =>
         all u.ledger.flow = all s.ledger.flow ++ rows.map (fun r => flowExport (s.flowRow r) 4) ∧
         u.get (O.FLOW_COUNTS 11) = (s.get (O.FLOW_COUNTS 11) + rows.length) % 2 ^ 64)) ∧
    (Takes s p O.FLOW_FLUSH → Does (.flowFlush p) s fun u => (u.cmd O.FLOW_FLUSH).status = 2 ∧
      ∀ row, (u.flowRow row).valid = false) ∧
    (Takes s p O.FLOW_FLUSH → (∀ e ∈ s.dict.objs, e.1.ref ≠ O.FLOW_CACHE) →
      exec (.flowFlush p) s = .next (answers s p Err.ok ((fresh s).cmdDone O.FLOW_FLUSH))) ∧
    (Does (.exportFlushTimeout true) s fun u => u.ledger.learn.recs = [] ∧ u.ledger.flow = s.ledger.flow ∧
      (s.ledger.learn.recs ≠ [] → u.ledger.learn.lost = 0 ∧ u.ledger.learn.msgs =
        s.ledger.learn.msgs ++ [⟨s.ledgerTime, s.ledger.learn.lost, s.ledger.learn.recs⟩] ∧
        u.get O.LEARN_MESSAGES = (s.get O.LEARN_MESSAGES + 1) % 2 ^ 64)) ∧
    (∀ c b m, (s.exportMsg c b m).1 = exportHeader (if b then 2 else 1) m.recs.length (if b then 48 else 64)
        (look 0 s.ledger.seqs c + 1) m.time 0xFF m.lost ++ m.recs.flatten ∧
      look 0 (s.exportMsg c b m).2.ledger.seqs c = look 0 s.ledger.seqs c + 1) ∧
    (Does (.exportFlushTimeout false) s fun u => u.ledger.flow.recs = [] ∧ u.ledger.learn = s.ledger.learn ∧
      (s.ledger.flow.recs ≠ [] → u.ledger.flow.lost = 0 ∧ u.ledger.flow.msgs =
        s.ledger.flow.msgs ++ [⟨s.ledgerTime, s.ledger.flow.lost, s.ledger.flow.recs⟩])) ∧
    (s.flag O.FLOW_IPFIX = true → s.fwUp = true →
      exec .ipfixTemplateTimer s = .next (ran s ((fresh s).ipfixSend true))) ∧
    (s.flag O.FLOW_IPFIX = false → exec .ipfixTemplateTimer s = .next (fresh s)) ∧
    ((s.tile t).postRecs = [] → exec (.postcardFlushTimeout t) s = .next (fresh s)) ∧
    ((s.tile t).postRecs ≠ [] → State.deviceFrame ((fresh s).putTile t { s.tile t with
        postRecs := (s.tile t).postRecs.drop (min 24 (s.tile t).postRecs.length),
        postSeq := (s.tile t).postSeq + 1, postLost := 0 }) t
          (s.postcardFrame t (min 24 (s.tile t).postRecs.length)) = none →
      exec (.postcardFlushTimeout t) s = .next (fresh s)) ∧
    (∀ k v, (s.tile t).postRecs ≠ [] → (s.tile t).postRecs.length ≤ 24 → s.get O.POSTCARD_QUEUE < 8192 →
      State.deviceFrame ((fresh s).putTile t { s.tile t with
        postRecs := [], postSeq := (s.tile t).postSeq + 1, postLost := 0 }) t
          (s.postcardFrame t (s.tile t).postRecs.length) = some (k, v) →
      (v.enqueueTo k [⟨s.get O.POSTCARD_QUEUE, .egress, 0⟩]).1 = 0 →
      exec (.postcardFlushTimeout t) s = .next (ran s
        ((v.enqueueTo k [⟨s.get O.POSTCARD_QUEUE, .egress, 0⟩]).2.count64 (O.LEDGER_COUNTS 5))))

/-- With no damaged map row, a map address selects its region, row and offset by the splits E2 and E1; beyond the
region, or where the row is not valid or lacks the permission of the direction, it faults; else the bus address is the
row's page plus the offset. After reset E2 is at most E1, and E1 at most 65,536; a write of either that would break
this is refused with ERR_RANGE, which is the model's choice of the code (log 56). (11 R321, 11 R322.) -/
def Obligations.MapAddressesAreTranslatedExactly : Prop :=
  (∀ (s : State) (ma : Nat) (wr : Bool) (row off first limit r : Nat), ma < 2 ^ 48 → s.faults.damage = [] →
    s.get O.PM_SPLIT_2M ≤ s.get O.PM_SPLIT_1G → s.get O.PM_SPLIT_1G ≤ 65536 →
    (ma < 0x10000000000 → row = ma >>> 12 ∧ off = ma &&& 0xFFF ∧ first = 0 ∧ limit = s.get O.PM_SPLIT_2M) →
    (0x10000000000 ≤ ma → ma < 0x800000000000 → row = (ma - 0x10000000000) >>> 21 ∧ off = ma &&& 0x1FFFFF ∧
      first = s.get O.PM_SPLIT_2M ∧ limit = s.get O.PM_SPLIT_1G) →
    (0x800000000000 ≤ ma → row = (ma - 0x800000000000) >>> 30 ∧ off = ma &&& 0x3FFFFFFF ∧
      first = s.get O.PM_SPLIT_1G ∧ limit = 65536) →
    r = s.get O.HOST_PAGE_MAP (first + row) → r < 2 ^ 64 →
    (s.translate ma wr).2 = s ∧ (s.translate ma wr).1 =
      (if limit ≤ first + row then none
      else if r &&& 1 = 0 then none
      else if wr = true ∧ r &&& 2 = 0 then none
      else if wr = false ∧ r &&& 4 = 0 then none
      else some ((r &&& 0xFFFFFFFFFFFFF000) + off))) ∧
  State.reset.get O.PM_SPLIT_2M ≤ State.reset.get O.PM_SPLIT_1G ∧ State.reset.get O.PM_SPLIT_1G ≤ 65536 ∧
  ∀ (s : State) (p : Path) (v : Nat), Ready s p → s.leasedAway p 10 = false → v < 2 ^ 32 →
    ((s.get O.PM_SPLIT_1G < v ∨ 65536 < v) →
      exec (.write p O.PM_SPLIT_2M 0 (leBytes 4 v)) s = .next (refused s p Err.range)) ∧
    ((v < s.get O.PM_SPLIT_2M ∨ 65536 < v) →
      exec (.write p O.PM_SPLIT_1G 0 (leBytes 4 v)) s = .next (refused s p Err.range))

/-- A ring doorbell within R332's two bounds becomes the producer index, an IDLE or RUNNING channel following; out of
bounds, or on a legacy channel, it changes no index, counts and is reported. A chain doorbell starts an IDLE channel
at its chain address and is only counted otherwise. An acknowledgement at or before CH_HEAD is taken, any other
refused like a doorbell. Enabling a DISABLED channel of a kind, with a legal ring, makes it IDLE with indices 0; a bad
ring leaves it DISABLED with error 4; while reads drain it waits. Disabling takes any state but STOPPED to DISABLED
with nothing under way. RESUME acts on a PARKED channel alone. A drained channel that was enabled again is enabled
then, if it is DISABLED still. The legacy doorbell sets a legacy ring's tail below its size, and counts otherwise. The
notification timer sends a waiting channel's message. That a chain doorbell out of IDLE is only counted, and error 4
of a ring refused at the enable, are the model's choices (log 43). (11 R327, 11 R332, 11 R333, 11 R335, 11 R344, 11
R346, 11 R347, 11 R349.) -/
def Obligations.ChannelRegistersMoveIndicesAndStates : Prop :=
  ∀ (s : State) (c : Channel) (v : BitVec 32), Runs s →
    (s.isLegacy c = false → s.isChain c = false →
      (v.toNat + 2 ^ 32 - (s.chan c).producer) % 2 ^ 32 ≤ s.get (O.CH_RING_SIZE c) →
      (v.toNat + 2 ^ 32 - (s.chan c).head) % 2 ^ 32 ≤ s.get (O.CH_RING_SIZE c) →
      Does (.chDoorbell c v) s fun u => u.out = [] ∧ u.chan c = { s.chan c with producer := v.toNat } ∧
        u.get (O.CH_STATE c) = (if s.chSt c ≠ Ch.idle ∧ s.chSt c ≠ Ch.running then s.chSt c
          else if (s.chan c).head ≠ v.toNat ∨ (s.chan c).cur.isSome = true then Ch.running else Ch.idle) ∧
        ∀ r e, r ≠ O.CH_STATE c → u.get r e = s.get r e) ∧
    (s.isLegacy c = false → s.isChain c = false →
      (s.get (O.CH_RING_SIZE c) < (v.toNat + 2 ^ 32 - (s.chan c).producer) % 2 ^ 32 ∨
        s.get (O.CH_RING_SIZE c) < (v.toNat + 2 ^ 32 - (s.chan c).head) % 2 ^ 32) →
      exec (.chDoorbell c v) s = .next (ran s ((fresh s).doorbellError c))) ∧
    (s.isLegacy c = true → Does (.chDoorbell c v) s fun u => u.host = s.host ∧
      u.get (O.CH_COUNTS c 0x13) = (s.get (O.CH_COUNTS c 0x13) + 1) % 2 ^ 64 ∧
      u.faults.reports.map (·.source) = s.faults.reports.map (·.source) ++ [0xAC0 + c.val / 16]) ∧
    (s.isLegacy c = false → s.isChain c = true → s.chSt c = Ch.idle →
      Does (.chDoorbell c v) s fun u => u.get (O.CH_STATE c) = Ch.running ∧ u.chan c = { s.chan c with
        next := some (((s.chan c).chainLo + (s.chan c).chainHi % 2 ^ 16 * 2 ^ 32) / 32 * 32), chainN := 0 }) ∧
    (s.isLegacy c = false → s.isChain c = true → s.chSt c ≠ Ch.idle →
      exec (.chDoorbell c v) s = .next (ran s ((fresh s).count64 (O.CH_COUNTS c 0x13)))) ∧
    ((v.toNat + 2 ^ 32 - (s.chan c).ack) % 2 ^ 32 ≤ ((s.chan c).head + 2 ^ 32 - (s.chan c).ack) % 2 ^ 32 →
      Does (.chCmplAck c v) s fun u => u.chan c = { s.chan c with ack := v.toNat } ∧ u.dict = s.dict ∧
        ∀ k, k ≠ c.val → u.chan k = s.chan k) ∧
    (((s.chan c).head + 2 ^ 32 - (s.chan c).ack) % 2 ^ 32 < (v.toNat + 2 ^ 32 - (s.chan c).ack) % 2 ^ 32 →
      exec (.chCmplAck c v) s = .next (ran s ((fresh s).doorbellError c))) ∧
    (s.chSt c ≠ Ch.disabled → exec (.channelEnable c) s = .next (fresh s)) ∧
    (s.chSt c = Ch.disabled → (s.chan c).draining = true → Does (.channelEnable c) s fun u =>
      u.chan c = { s.chan c with reEnable := true } ∧ u.dict = s.dict) ∧
    (s.chSt c = Ch.disabled → (s.chan c).draining = false → s.isLegacy c = false → s.chKind c ≠ 0 →
      (s.get (O.CH_MODE c) = 0 ∨ s.chKind c = 3 ∨ s.chKind c = 5) →
      (∃ i, i ≤ 16 ∧ s.get (O.CH_RING_SIZE c) = 2 ^ i) →
      s.get (O.CH_RING_BASE c) % (32 * s.get (O.CH_RING_SIZE c)) = 0 →
      Does (.channelEnable c) s fun u => u.get (O.CH_STATE c) = Ch.idle ∧ u.chan c = { ChanX.reset with
        enabled := true, chainLo := (s.chan c).chainLo, chainHi := (s.chan c).chainHi }) ∧
    (s.chSt c = Ch.disabled → (s.chan c).draining = false → s.isLegacy c = false → 0 < s.get (O.CH_RING_SIZE c) →
      ((∀ i, i ≤ 16 → s.get (O.CH_RING_SIZE c) ≠ 2 ^ i) ∨
        s.get (O.CH_RING_BASE c) % (32 * s.get (O.CH_RING_SIZE c)) ≠ 0) →
      Does (.channelEnable c) s fun u => u.chan c = { s.chan c with lastErr := 4, enabled := false } ∧ u.dict = s.dict) ∧
    ((s.chSt c = Ch.disabled ∨ s.chSt c = Ch.stopped) → Does (.channelDisable c) s fun u => u.dict = s.dict ∧
      u.chan c = { s.chan c with reEnable := false, enabled := false }) ∧
    (s.chSt c ≠ Ch.disabled → s.chSt c ≠ Ch.stopped → Does (.channelDisable c) s fun u =>
      u.get (O.CH_STATE c) = Ch.disabled ∧ (u.chan c).enabled = false ∧ (u.chan c).reEnable = false ∧
      (u.chan c).pre = [] ∧ (u.chan c).cur = none ∧ (u.chan c).next = none ∧ (u.chan c).build = none ∧
      (u.chan c).copying = none ∧ (u.engine (c.val / 16)).cur ≠ some c.val ∧
      ((s.chan c).copying = none → (s.chan c).build = none → (u.chan c).draining = (s.readsOf c != []) ∧
        u.host.reads = s.host.reads)) ∧
    (s.chSt c = Ch.parked → Does (.channelResume c) s fun u => u.host = s.host ∧
      u.get (O.CH_STATE c) = (if s.isChain c = true ∨ s.ringLeft c = true ∨ (s.chan c).cur.isSome = true then Ch.running
        else Ch.idle) ∧ ∀ r e, r ≠ O.CH_STATE c → u.get r e = s.get r e) ∧
    (s.chSt c ≠ Ch.parked → exec (.channelResume c) s = .next (fresh s)) ∧
    (((s.chan c).draining = false ∨ s.readsOf c ≠ []) → exec (.channelDrainEnd c) s = .next (fresh s)) ∧
    ((s.chan c).draining = true → s.readsOf c = [] → (s.chan c).reEnable = false → Does (.channelDrainEnd c) s fun u =>
      u.chan c = { s.chan c with draining := false } ∧ u.dict = s.dict) ∧
    ((s.chan c).draining = true → s.readsOf c = [] → (s.chan c).reEnable = true →
      (s.chSt c = Ch.disabled → exec (.channelDrainEnd c) s = .next
        (ran s (((fresh s).modChan c fun x => { x with draining := false, reEnable := false }).chEnable c))) ∧
      (s.chSt c ≠ Ch.disabled → exec (.channelDrainEnd c) s = .next
        (ran s ((fresh s).modChan c fun x => { x with draining := false, reEnable := false })))) ∧
    (∀ k, k = v.toNat / 2 ^ 12 % 8 * 16 + 15 →
      (s.isLegacy k = true → v.toNat % 2 ^ 12 < s.ringSize k → Does (.legacyDoorbell v) s fun u =>
        u.chan k = { s.chan k with tail := v.toNat % 2 ^ 12 } ∧ ∀ r e, r ≠ O.CH_STATE k → u.get r e = s.get r e) ∧
      ((s.isLegacy k = false ∨ s.ringSize k ≤ v.toNat % 2 ^ 12) → exec (.legacyDoorbell v) s = .next
        (ran s ((fresh s).count64 (O.CH_COUNTS k 0x13))))) ∧
    ((s.chan c).timing = true → (s.chan c).notify ≠ 0 → exec (.notifyTimeout c) s = .next (ran s
      (((fresh s).modChan c fun x => { x with notify := 0, timing := false }).sendMsix (s.get (O.CH_MSIX c))))) ∧
    (((s.chan c).timing = false ∨ (s.chan c).notify = 0) → exec (.notifyTimeout c) s = .next (fresh s))

/-- DESCRIPTOR_PREFETCH, where the channel may fetch, reads the next descriptor's translated address with a free tag;
a segment that faults parks the channel and is counted; a chain at its limit with nothing under way halts.
ENGINE_CHANNEL_PICK goes on with a current channel; else it picks one that can act, an urgent one before a normal one
unless 8 urgent ones went. LINK and END leave a chain's head, END with the channel IDLE. A returned read frees its
tag; its data reaches the channel unless the channel has stopped, the last-address read of a parked channel is only
noted, and data asked for by a descriptor that has ended is dropped. No more than CH_PREFETCH descriptors are fetched
ahead. A bus error stops its engine and every channel of it; with completion timeouts disabled none occurs.
ENGINE_RESTART runs on a stopped engine only, and its end leaves the channels DISABLED; PM_FENCE runs until the reads
that were out have returned. The stop of all 16 channels, and LINK and END as the engine meets them, are log 43's
reading, the halt at the chain limit log 44's, the enable of timeouts and D3hot log 103's, and a packet that needs
more than CH_PREFETCH waits by log 104: the model's choices. (11 R323, 11 R324, 11 R325, 11 R326, 11 R330, 11 R333, 11
R343, 11 R344, 02 R40.) -/
def Obligations.EnginesFetchChooseAndStop : Prop :=
  ∀ (s : State) (p : Path) (c : Channel) (g : Engine) (tag : Fin 768) (data : List Byte) (kind : BusErr), Runs s →
    (∀ k ma bus t w, (s.chSt c = Ch.idle ∨ s.chSt c = Ch.running) → s.flag (O.ENGINE_STATE (c.val / 16)) = false →
      s.prefetchRoom c = true → (s.freeTag (c.val / 16)).isSome = true → s.nextFetch c = some (k, ma) →
      ¬ (s.isChain c = true ∧ s.get (O.CH_CHAIN_LIMIT c) ≤ (s.chan c).chainN) →
      ((fresh s).busOf c ma false = (some bus, w) → w.freeTag (c.val / 16) = some t →
        Does (.descriptorPrefetch c) s fun u => u.out = w.out ++ [.hostRead t bus (s.descLen c)] ∧
          u.host.reads = w.host.reads ++ [⟨t, c, .prefetch, k, ma, bus, s.descLen c⟩] ∧
          (u.chan c).pre = (w.chan c).pre ++ [⟨k, []⟩] ∧ u.dict = w.dict) ∧
      ((fresh s).busOf c ma false = (none, w) → exec (.descriptorPrefetch c) s = .next (ran s (w.park c ma false k)))) ∧
    (∀ k ma w, (s.chSt c = Ch.idle ∨ s.chSt c = Ch.running) → s.flag (O.ENGINE_STATE (c.val / 16)) = false →
      s.prefetchRoom c = true → (s.freeTag (c.val / 16)).isSome = true → s.nextFetch c = some (k, ma) →
      s.isChain c = true → s.get (O.CH_CHAIN_LIMIT c) ≤ (s.chan c).chainN → w = fresh s →
      ((s.chan c).pre = [] → (s.chan c).cur = none →
        exec (.descriptorPrefetch c) s = .next (ran s (w.chHalt c 0xA80 ma 2))) ∧
      (((s.chan c).pre ≠ [] ∨ (s.chan c).cur.isSome = true) → exec (.descriptorPrefetch c) s = .next (fresh s))) ∧
    (s.isLegacy c = false → s.isChain c = false → (s.chan c).fetched ≠ (s.chan c).producer →
      s.nextFetch c = some ((s.chan c).fetched,
        s.get (O.CH_RING_BASE c) + (s.chan c).fetched % s.ringSize c * 32)) ∧
    (∀ (wr : Bool) (ma k : Nat), (s.park c ma wr k).get (O.CH_STATE c) = Ch.parked ∧
      (s.park c ma wr k).get O.PM_FAULTS = (s.get O.PM_FAULTS + 1) % 2 ^ 64 ∧
      (s.park c ma wr k).irq.doorbells = s.irq.doorbells ++ [0x880 + c.val] ∧
      ((s.park c ma wr k).engine (c.val / 16)).cur ≠ some c.val) ∧
    ((s.nextFetch c = none ∨ s.prefetchRoom c = false ∨ s.flag (O.ENGINE_STATE (c.val / 16)) = true ∨
      (s.freeTag (c.val / 16)).isNone = true) → exec (.descriptorPrefetch c) s = .next (fresh s)) ∧
    (s.prefetchRoom c = true ↔ (s.chan c).pre.length < s.get (O.CH_PREFETCH c) ∧
      s.prefetched (c.val / 16 * 16) (c.val / 16 * 16 + 16) < 256 ∧ s.prefetched 0 512 < 8192) ∧
    (∀ (k : Nat) (q : Pkt), s.isLegacy k = false → (s.descsFor k q = true ↔
      s.spanOf k q ≤ ((s.chan k).pre.takeWhile (·.body != [])).length)) ∧
    (s.flag (O.ENGINE_STATE g) = true → exec (.engineChannelPick g) s = .next (fresh s)) ∧
    (∀ k, s.flag (O.ENGINE_STATE g) = false → (s.engine g).cur = some k →
      exec (.engineChannelPick g) s = .next (ran s ((fresh s).beginDesc k))) ∧
    (∀ w, s.flag (O.ENGINE_STATE g) = false → (s.engine g).cur = none →
      w = (fresh s).each ((List.range 16).map (g.val * 16 + ·)) State.lookQueues →
      (w.nextChannel g = none → exec (.engineChannelPick g) s = .next (ran s w)) ∧
      ∀ i, (w.nextChannel g = some (i, true) → exec (.engineChannelPick g) s = .next (ran s ((w.putEngine g { w.engine g with
          cur := some (g.val * 16 + i), lastUrg := i, urgRun := (w.engine g).urgRun + 1 }).beginDesc (g.val * 16 + i)))) ∧
        (w.nextChannel g = some (i, false) → exec (.engineChannelPick g) s = .next (ran s ((w.putEngine g { w.engine g with
          cur := some (g.val * 16 + i), lastNrm := i, urgRun := 0 }).beginDesc (g.val * 16 + i))))) ∧
    (∀ i urg, s.nextChannel g = some (i, urg) → i < 16 ∧ s.canAct (g.val * 16 + i) = true ∧
      (urg = true ↔ s.get (O.CH_CLASS (g.val * 16 + i)) = 1) ∧
      ((s.engine g).urgRun < 8 → (∃ j < 16, s.canAct (g.val * 16 + j) = true ∧
        s.get (O.CH_CLASS (g.val * 16 + j)) = 1) → urg = true)) ∧
    (s.chainHead c 0x0F = true → exec (.linkDescriptor c) s = .next (ran s
      (((fresh s).modChan c fun x => { x with pre := x.pre.tail }).settleBad c))) ∧
    (s.chainHead c 0x0F = false → exec (.linkDescriptor c) s = .next (fresh s)) ∧
    (s.chainHead c 0x00 = true → Does (.endDescriptor c) s fun u => u.get (O.CH_STATE c) = Ch.idle ∧
      u.chan c = { s.chan c with pre := (s.chan c).pre.tail, next := none } ∧
      ∀ r e, r ≠ O.CH_STATE c → u.get r e = s.get r e) ∧
    (s.chainHead c 0x00 = false → exec (.endDescriptor c) s = .next (fresh s)) ∧
    (s.host.reads.find? (·.tag == tag.val) = none → exec (.pcieReadCompletion tag data) s = .next (fresh s) ∧
      exec (.busError tag kind) s = .next (fresh s)) ∧
    (s.host.noTimeout = true → exec (.busError tag .timeout) s = .next (fresh s)) ∧
    (∀ r w, s.host.reads.find? (·.tag == tag.val) = some r → w = (fresh s).freeRead tag →
      (w.host.reads = s.host.reads.filter (·.tag != tag.val)) ∧
      (s.chSt r.ch ≠ Ch.idle → s.chSt r.ch ≠ Ch.running → s.chSt r.ch ≠ Ch.parked →
        exec (.pcieReadCompletion tag data) s = .next (ran s w)) ∧
      ((s.chSt r.ch = Ch.idle ∨ s.chSt r.ch = Ch.running ∨ s.chSt r.ch = Ch.parked) →
        (r.why = .prefetch → exec (.pcieReadCompletion tag data) s = .next (ran s
          (w.prefetchDone r.ch r.at_ ((padTo r.len data).take r.len)))) ∧
        (∀ off, r.why = .data off → Does (.pcieReadCompletion tag data) s fun u => u.host.reads = w.host.reads ∧
          (u.chan r.ch).got = (s.chan r.ch).got ++ [(off, (padTo r.len data).take r.len)] ∧ u.dict = s.dict) ∧
        (r.why = .gone → exec (.pcieReadCompletion tag data) s = .next (ran s w)) ∧
        (r.why = .last → s.chSt r.ch = Ch.parked → exec (.pcieReadCompletion tag data) s = .next (ran s
          (w.modChan r.ch fun x => { x with last := 2 }))) ∧
        (r.why = .last → s.chSt r.ch ≠ Ch.parked → exec (.pcieReadCompletion tag data) s = .next (ran s
          ((w.modChan r.ch fun x => { x with last := 2 }).finishDesc r.ch)))) ∧
      ((kind ≠ .timeout ∨ s.host.noTimeout = false) → s.flag (O.ENGINE_STATE (r.ch / 16)) = true →
        exec (.busError tag kind) s = .next (ran s w)) ∧
      (∀ code, (kind ≠ .timeout ∨ s.host.noTimeout = false) → s.flag (O.ENGINE_STATE (r.ch / 16)) = false →
        code = (match kind with | .unsupported => 1 | .abort => 2 | .timeout => 3 | .poisoned => 4) →
        exec (.busError tag kind) s = .next (ran s
          ((w.report (0xAE0 + r.ch / 16) (unitId 14 (r.ch / 16)) (detailD r.ch r.map code)).engineStop (r.ch / 16) code
            r.map r.bus (r.ch % 16))) ∧
        (r.ch < 512 → (∀ k < 512, (s.chan k).copying = none ∧ (s.chan k).build = none ∧ (s.chan k).cur = none) →
          (∀ e ∈ s.tiles, e.2.postRecs.length < 24) → Does (.busError tag kind) s fun u => u.get (O.ENGINE_STATE (r.ch / 16)) = 1 ∧
            ∀ i < 16, u.get (O.CH_STATE (r.ch / 16 * 16 + i)) = Ch.stopped))) ∧
    (Takes s p (O.ENGINE_RESTART g) →
      (s.flag (O.ENGINE_STATE g) = true → exec (.engineRestart p g) s = .next (answers s p Err.ok
        ((fresh s).cmdRun (O.ENGINE_RESTART g)))) ∧
      (s.flag (O.ENGINE_STATE g) = false → exec (.engineRestart p g) s = .next (refused s p Err.state))) ∧
    (s.cmdRunning (O.ENGINE_RESTART g) = true → s.host.reads.any (·.ch / 16 == g.val) = false →
      Does (.engineRestartDone g) s fun u => u.get (O.ENGINE_STATE g) = 0 ∧ (u.cmd (O.ENGINE_RESTART g)).status = 2 ∧
        ∀ i < 16, u.get (O.CH_STATE (g.val * 16 + i)) = Ch.disabled ∧ (u.chan (g.val * 16 + i)).enabled = false) ∧
    ((s.cmdRunning (O.ENGINE_RESTART g) = false ∨ s.host.reads.any (·.ch / 16 == g.val) = true) →
      exec (.engineRestartDone g) s = .next (fresh s)) ∧
    (Takes s p O.PM_FENCE → exec (.pmFence p) s = .next (answers s p Err.ok (State.cmdRun { fresh s with
      host := { s.host with fence := s.host.reads.map fun (r : ReadReq) => r.tag } } O.PM_FENCE))) ∧
    (s.cmdRunning O.PM_FENCE = true → s.host.fence = [] →
      exec .pmFenceDone s = .next (ran s ((fresh s).cmdDone O.PM_FENCE))) ∧
    ((s.cmdRunning O.PM_FENCE = false ∨ s.host.fence ≠ []) → exec .pmFenceDone s = .next (fresh s))

/-- A command for a kind acts only where the engine's current channel is of that kind; a decided descriptor goes on to
its completion. A receive buffer takes the packet's next bytes, readable, up to its length. A transmit descriptor
waits for its data. A table descriptor moves rows as the host until one is refused, HOST_PAGE_MAP being refused with
ERR_STATE (R322); records are fed to the engine and end when their results are in. An export descriptor takes the
oldest message, with its channel's next number. A copy moves whole blocks of the store; an unaligned, short, long or
outlying one fails with ERR_RANGE. A completion record without data goes to the completion ring's slot, in one segment
where no 4 KiB boundary cuts it, with index, fields, code, status and phase and relaxed ordering clear, the head
advances, and data it asked for that is still out is dropped when it returns; in D3hot (log 103) it waits. The lengths
and the object lock of a table descriptor (log 47), its record numbers (log 46) and the order of a copy's steps (log
45) are the model's choices. (11 R322, 11 R331, 11 R336, 11 R337, 11 R338, 11 R340, 11 R341, 11 R342.) -/
def Obligations.DescriptorsComplete : Prop :=
  ∀ (s : State) (c : Channel) (d : Desc) (w : State), Runs s → w = fresh s →
    (s.current c [1, 6] = none → exec (.packetToHostDescriptor c) s = .next (fresh s)) ∧
    (s.current c [2, 7] = none → exec (.hostToPacketDescriptor c) s = .next (fresh s)) ∧
    (s.current c [4] = none → exec (.exportDescriptor c) s = .next (fresh s)) ∧
    (s.current c [5] = none → exec (.copyDescriptor c) s = .next (fresh s)) ∧
    (s.tableDesc c 0 = none → exec (.tableLoadDescriptor c) s = .next (fresh s)) ∧
    (s.tableDesc c 1 = none → exec (.tableUnloadDescriptor c) s = .next (fresh s)) ∧
    (s.tableDesc c 2 = none → exec (.tableRecordsDescriptor c) s = .next (fresh s)) ∧
    ((s.chan c).fin.isSome = true →
      (s.current c [1, 6] = some d → exec (.packetToHostDescriptor c) s = .next (ran s (w.finishDesc c))) ∧
      (s.current c [2, 7] = some d →
        exec (.hostToPacketDescriptor c) s = .next (ran s (w.finishDesc c).postcardsDue)) ∧
      (s.current c [4] = some d → exec (.exportDescriptor c) s = .next (ran s (w.finishDesc c))) ∧
      (s.current c [5] = some d → exec (.copyDescriptor c) s = .next (ran s (w.finishDesc c))) ∧
      (s.tableDesc c 0 = some d → exec (.tableLoadDescriptor c) s = .next (ran s (w.finishDesc c))) ∧
      (s.tableDesc c 1 = some d → exec (.tableUnloadDescriptor c) s = .next (ran s (w.finishDesc c))) ∧
      (s.tableDesc c 2 = some d → exec (.tableRecordsDescriptor c) s = .next (ran s (w.finishDesc c)))) ∧
    (∀ f ma bus x, s.current c [5] = some d → (s.chan c).fin = some f → (s.chan c).outb = [] → (s.chan c).wrote = 0 →
      (s.chan c).pre = [] → s.isLegacy c = false → s.isChain c = false →
      ma = s.get (O.CH_CMPL_BASE c) + (s.chan c).head % s.ringSize c * 32 → ma % 4096 ≤ 4064 → 32 ≤ s.host.maxPay → s.host.d3hot = false →
      w.translate (ma % 2 ^ 48) true = (some bus, x) →
      bit (byteAt d.body 30) 0 = false → Does (.copyDescriptor c) s fun u =>
        u.out = x.out ++ [.hostWrite bus (leBytes 4 d.at_ ++ (padTo 24 f.mid).take 24 ++
          [nb f.code, 0, nb f.status, nb (1 - (s.chan c).head / s.ringSize c % 2)]) false] ∧
        (u.chan c).head = ((x.chan c).head + 1) % 2 ^ 32 ∧ (u.chan c).cur = none ∧ (u.chan c).fin = none ∧
        u.host.reads = x.host.reads.map fun r => match r.why with
          | .data _ => if r.ch = c.val then { r with why := .gone } else r
          | _ => r) ∧
    (∀ f, s.current c [5] = some d → (s.chan c).fin = some f → (s.chan c).outb = [] → (s.chan c).wrote = 0 →
      s.isLegacy c = false → s.host.d3hot = true → exec (.copyDescriptor c) s = .next (fresh s)) ∧
    ((s.chan c).fin = none →
      (∀ k pkt n bs v x, s.current c [1, 6] = some d → s.isLegacy c = false → (s.chan c).copying = some k →
        s.pkt? k.fid = some pkt → n = min (s.get (O.CH_BUF_SIZE c)) (pkt.bytes.length - 4 - k.at_) →
        w.useDesc pkt = (false, v) → v.copyBytes c pkt k.at_ (k.at_ + n) ((List.range ((n + k.at_ % 256 + 255) / 256)).map (k.at_ / 256 + ·)) =
          (bs, false, x) →
        exec (.packetToHostDescriptor c) s = .next (ran s (((x.count64 (O.CH_COUNTS c 0x11) bs.length).modChan c fun y =>
          { y with
            outb := bs, copying := some { k with at_ := k.at_ + bs.length, bufs := k.bufs + 1 },
            fin := some ⟨leBytes 2 bs.length ++ [nb (k.bufs % 16 + 16 * b01 (k.bufs == 0) +
              32 * b01 (decide (pkt.bytes.length - 4 ≤ k.at_ + bs.length))), nb (k.queue - 8192)] ++ rxMid pkt, 0, 0⟩
            }).finishDesc c))) ∧
      (s.current c [1, 6] = some d → exec (.packetToHostDescriptor c) s = .next (ran s ((w.receive c d).finishDesc c))) ∧
      (s.current c [2, 7] = some d → s.dataIn c d.body = false →
        exec (.hostToPacketDescriptor c) s = .next (ran s (w.issueReads c 96))) ∧
      (s.current c [2, 7] = some d → s.dataIn c d.body = true →
        exec (.hostToPacketDescriptor c) s = .next (ran s ((w.transmit c d).finishDesc c).postcardsDue)) ∧
      (∀ n r, n = leAt d.body 8 4 → r = tableRef d.body →
        (s.tableDesc c 0 = some d → r = O.HOST_PAGE_MAP →
          exec (.tableLoadDescriptor c) s = .next (ran s (w.tableDone c Err.state 0 []))) ∧
        (s.tableDesc c 1 = some d → r = O.HOST_PAGE_MAP →
          exec (.tableUnloadDescriptor c) s = .next (ran s (w.tableDone c Err.state 0 []))) ∧
        (s.tableDesc c 0 = some d → r ≠ O.HOST_PAGE_MAP → s.dataIn c d.body = false →
          exec (.tableLoadDescriptor c) s = .next (ran s (w.issueReads c 96))) ∧
        (∀ x, s.tableDesc c 0 = some d → r ≠ O.HOST_PAGE_MAP → s.dataIn c d.body = true →
          x = w.loadRows r (s.pieceOf r n) n (leAt d.body 20 4) ((gathered (s.chan c).got).take n) →
          exec (.tableLoadDescriptor c) s = .next (ran s (x.2.2.tableDone c x.1 x.2.1 []))) ∧
        (∀ x, s.tableDesc c 1 = some d → r ≠ O.HOST_PAGE_MAP →
          x = w.unloadRows r (s.pieceOf r n) n (leAt d.body 20 4) n →
          exec (.tableUnloadDescriptor c) s = .next (ran s (x.2.2.tableDone c x.1 x.2.1.length x.2.1))) ∧
        (s.tableDesc c 2 = some d → (s.chan c).done = 0 → s.recordsErr r ≠ Err.ok →
          exec (.tableRecordsDescriptor c) s = .next (ran s (w.tableDone c (s.recordsErr r) 0 []))) ∧
        (s.tableDesc c 2 = some d → ((s.chan c).done ≠ 0 ∨ s.recordsErr r = Err.ok) → s.dataIn c d.body = false →
          exec (.tableRecordsDescriptor c) s = .next (ran s (w.issueReads c 96))) ∧
        (∀ x, s.tableDesc c 2 = some d → ((s.chan c).done ≠ 0 ∨ s.recordsErr r = Err.ok) → s.dataIn c d.body = true →
          x = w.feedRecords c r.inst (n / 32) ((gathered (s.chan c).got).take n) 65 →
          ((x.chan c).res.length < n / 32 * 32 → exec (.tableRecordsDescriptor c) s = .next (ran s x)) ∧
          (n / 32 * 32 ≤ (x.chan c).res.length → n % 32 = 0 → exec (.tableRecordsDescriptor c) s = .next (ran s
            (x.tableDone c Err.ok n (x.chan c).res))))) ∧
      (s.current c [4] = some d → s.exportNext c = none → exec (.exportDescriptor c) s = .next (fresh s)) ∧
      (∀ m ms k b, s.current c [4] = some d → s.exportNext c = some true → s.ledger.learn.msgs = m :: ms →
        k = look 0 s.ledger.seqs c + 1 →
        b = exportHeader 2 m.recs.length 48 k m.time 0xFF m.lost ++ m.recs.flatten →
        exec (.exportDescriptor c) s = .next (ran s (((State.modChan { w with ledger := { s.ledger with
          learn := { s.ledger.learn with msgs := ms }, seqs := putN 0 c k s.ledger.seqs } } c fun y =>
            { y with outb := b, fin := some ⟨leBytes 4 b.length ++ [nb 2], 0, 0⟩ }).count64
              (O.CH_COUNTS c 0x11) b.length).finishDesc c))) ∧
      (∀ m ms k b, s.current c [4] = some d → s.exportNext c = some false → s.ledger.flow.msgs = m :: ms →
        k = look 0 s.ledger.seqs c + 1 →
        b = exportHeader 1 m.recs.length 64 k m.time 0xFF m.lost ++ m.recs.flatten →
        exec (.exportDescriptor c) s = .next (ran s (((State.modChan { w with ledger := { s.ledger with
          flow := { s.ledger.flow with msgs := ms }, seqs := putN 0 c k s.ledger.seqs } } c fun y =>
            { y with outb := b, fin := some ⟨leBytes 4 b.length ++ [nb 1], 0, 0⟩ }).count64
              (O.CH_COUNTS c 0x11) b.length).finishDesc c))) ∧
      (∀ from_ to_ n, s.current c [5] = some d → from_ = leAt d.body 0 4 → to_ = leAt d.body 8 4 → n = leAt d.body 12 4 →
        ((from_ % 16 ≠ 0 ∨ to_ % 16 ≠ 0 ∨ n % 16 ≠ 0 ∨ n < 16 ∨ 16777216 < n ∨ 2 ^ 27 < from_ + n ∨ 2 ^ 27 < to_ + n) →
          exec (.copyDescriptor c) s = .next (ran s (((w.modChan c fun y => { y with
            fin := some ⟨leBytes 4 0, Err.range, 1⟩ }).count64 (O.CH_COUNTS c 0x11) 0).finishDesc c))) ∧
        (from_ % 16 = 0 → to_ % 16 = 0 → n % 16 = 0 → 16 ≤ n → n ≤ 16777216 → from_ + n ≤ 2 ^ 27 → to_ + n ≤ 2 ^ 27 →
          (s.copyTables d.body).any (fun t => s.tableState t != 1) = false →
          exec (.copyDescriptor c) s = .next (ran s ((((w.each
            ((List.range (n / 16)).map (fun i => s.unitBytes (from_ / 16 + i))).zipIdx fun x (v, i) =>
              x.putRaw (to_ / 16 + i) v).modChan c fun y => { y with fin := some ⟨leBytes 4 n, 0, 0⟩ }).count64
                (O.CH_COUNTS c 0x11) n).finishDesc c)))))

/-- A conventional reset takes PCIE_PERST_N low, once; a hot reset trains again where it may; a function-level reset
leaves the link. Each empties the page map, the MSI-X table and the pending bits, forgets the reads that are out and
the windows, and resets the host vectors' stacks; the first two take the link down. Training starts with PCIE_PERST_N
high where the arrays are initialised and the strap lets it. The link comes up at the speed limit at most, and only
while it trains. A configuration request is answered nothing before the arrays are initialised; then it sets the MSI-X
enable and function mask, the ordering, the payload and request sizes, the tag enables, error control or the power
state, or reads the identifier, class code or header type. BAR0 is a 64-bit memory range of 1 MiB; the other ranges,
the ROM and INTx are absent; capabilities, timeout ranges A to D and the AER statuses, cleared by ones, are read. A
request takes a free tag below the limit the enables give, and none in D3hot. The sizes and tags after a reset (log
18), D3hot, the AER statuses and the capability numbers (log 103) and a repeated PERST (log 48) are the model's
choices. (11 R318, 11 R345, 11 R350, 12 R357, 12 R368, 14 R388, 14 R389, 14 R395.) -/
def Obligations.ResetsAndConfigurationOfTheHostAttachment : Prop :=
  ∀ (s : State) (speed : Fin 6) (width : Fin 17), Runs s →
    (s.sys.perst = true → exec .pcieConventionalReset s = .next (fresh s)) ∧
    (s.sys.perst = false → exec .pcieConventionalReset s = .next (ran s (State.training
      { ((fresh s).hostReset false).linkDown with sys := { ((fresh s).hostReset false).linkDown.sys with
        perst := true } } false)) ∧
      Does .pcieConventionalReset s fun u => u.sys.perst = true ∧ u.sys.pcieUp = false ∧ u.host.training = false ∧
        u.get O.PCIE_SPEED = 0 ∧ u.get O.PCIE_WIDTH = 0) ∧
    exec .pcieHotReset s = .next (ran s (((fresh s).hostReset false).linkDown.training
      ((fresh s).hostReset false).linkDown.mayTrain)) ∧
    exec .functionLevelReset s = .next (ran s ((fresh s).hostReset true)) ∧
    (∀ b : Bool, (s.hostReset b).host.msix = [] ∧ (s.hostReset b).host.pba = [] ∧ (s.hostReset b).host.reads = [] ∧
      (s.hostReset b).host.msixOn = false ∧ (s.hostReset b).host.maxRead = 512 ∧ (s.hostReset b).host.tags10 = false ∧
      (s.hostReset b).dict.wins = List.replicate 4 Win.reset ∧
      (s.hostReset false).host.maxPay = 128 ∧ (s.hostReset true).host.maxPay = s.dmaReset.irqHostReset.host.maxPay ∧
      ∀ e, s.dmaReset.get O.HOST_PAGE_MAP e = 0) ∧
    (∀ t : Fin 64, (s.stackReset t).itgt t = ⟨[], false, false⟩ ∧
      ∀ k : Target, k.val ≠ t.val → (s.stackReset t).itgt k = s.itgt k) ∧
    (Does .pcieLinkTrainingStart s fun u => u.sys = { s.sys with perst := false } ∧ u.dict = s.dict ∧
      u.host = { s.host with training :=
        s.sys.initDone && s.hostReaches && !s.sys.pcieUp }) ∧
    (s.hostReaches = true ↔ s.get O.STRAPS / 8 % 2 = 0) ∧
    (s.host.training = false → exec (.pcieLinkUp speed width) s = .next (fresh s)) ∧
    (s.host.training = true → Does (.pcieLinkUp speed width) s fun u => u.sys = { s.sys with pcieUp := true } ∧
      u.host = { s.host with training := false } ∧ u.get O.PCIE_SPEED = min speed.val (s.get O.PCIE_SPEED_LIMIT) ∧
      u.get O.PCIE_WIDTH = width.val ∧ ∀ r e, r ≠ O.PCIE_SPEED → r ≠ O.PCIE_WIDTH → u.get r e = s.get r e) ∧
    (∀ q, (s.sys.initDone = false ∨ s.hostReaches = false) → Does (.configRequest q) s fun u => u = { fresh s with out := [.bar none] }) ∧
    (s.sys.initDone = true → s.hostReaches = true →
      (∀ en fm, exec (.configRequest (.msix en fm)) s = .next (ran s ((State.flushMsix { fresh s with
          host := { s.host with msixOn := en, msixMask := fm } }).emit (.bar (some 0)))) ∧
        Does (.configRequest (.msix en fm)) s fun u => u.host.msixOn = en ∧ u.host.msixMask = fm ∧
          u.host.msix = s.host.msix ∧ u.dict = s.dict ∧ u.irq = s.irq) ∧
      (∀ en, Does (.configRequest (.relaxedOrdering en)) s fun u => u = { fresh s with
        out := [.bar (some 0)], host := { s.host with relaxed := en } }) ∧
      (∀ n, Does (.configRequest (.maxPayload n)) s fun u => u = { fresh s with
        out := [.bar (some 0)], host := { s.host with maxPay := 128 * 2 ^ n.val } }) ∧
      (∀ n, Does (.configRequest (.maxReadRequest n)) s fun u => u = { fresh s with
        out := [.bar (some 0)], host := { s.host with maxRead := 128 * 2 ^ n.val } }) ∧
      (∀ a b, Does (.configRequest (.tags a b)) s fun u => u = { fresh s with
        out := [.bar (some 0)], host := { s.host with tagsExt := a, tags10 := b } }) ∧
      (∀ a b k, Does (.configRequest (.errorControl a b k)) s fun u => u = { fresh s with
        out := [.bar (some 0)], host := { s.host with ecrcGen := a, ecrcChk := b, noTimeout := k } }) ∧
      Does (.configRequest (.power true)) s (fun u => u = { fresh s with
        out := [.bar (some 0)], host := { s.host with d3hot := true } }) ∧
      (∀ d3, exec (.configRequest (.power d3)) s = .next (ran s ((State.flushMsix { fresh s with
          host := { s.host with d3hot := d3 } }).emit (.bar (some 0)))) ∧
        Does (.configRequest (.power d3)) s fun u => u.host.d3hot = d3 ∧ u.host.msix = s.host.msix ∧
          u.dict = s.dict ∧ u.irq = s.irq) ∧
      (∀ n : Fin 7, Does (.configRequest (.readBar n)) s fun u => u = { fresh s with out := [.bar (some
        (if n.val = 0 then s.host.bar % 2 ^ 32 + 4 else if n.val = 1 then s.host.bar / 2 ^ 32 else 0))] }) ∧
      (∀ v, Does (.configRequest (.writeBar 0 v)) s fun u => u = { fresh s with
          out := [.bar (some 0)], host := { s.host with bar := s.host.bar / 2 ^ 32 * 2 ^ 32 + v.toNat / 2 ^ 20 * 2 ^ 20 } }) ∧
      (∀ v, Does (.configRequest (.writeBar 1 v)) s fun u => u = { fresh s with
          out := [.bar (some 0)], host := { s.host with bar := v.toNat * 2 ^ 32 + s.host.bar % 2 ^ 32 } }) ∧
      (∀ (n : Fin 7) v, 2 ≤ n.val → Does (.configRequest (.writeBar n v)) s fun u => u = { fresh s with out := [.bar (some 0)] }) ∧
      Does (.configRequest .readInterruptPin) s (fun u => u = { fresh s with out := [.bar (some 0)] }) ∧
      (∀ e id, (e, id) ∈ [(false, 0x01#16), (false, 0x10#16), (false, 0x11#16), (true, 0x01#16)] →
        Does (.configRequest (.capability e id)) s fun u => u = { fresh s with out := [.bar (some 1)] }) ∧
      (∀ e id, (e, id) ∈ [(false, 0x05#16), (true, 0x0F#16), (true, 0x10#16), (true, 0x13#16), (true, 0x15#16),
          (true, 0x17#16), (true, 0x1B#16), (true, 0x1E#16)] →
        Does (.configRequest (.capability e id)) s fun u => u = { fresh s with out := [.bar (some 0)] }) ∧
      (∀ r, Does (.configRequest (.completionTimeout r)) s fun u => u = { fresh s with
        out := [.bar (some 0)], host := { s.host with cplRange := r.val } }) ∧
      Does (.configRequest .readTimeoutRanges) s (fun u => u = { fresh s with out := [.bar (some 0x1F)] }) ∧
      Does (.configRequest (.readAer true)) s (fun u => u = { fresh s with out := [.bar (some s.host.aerUe)] }) ∧
      Does (.configRequest (.readAer false)) s (fun u => u = { fresh s with out := [.bar (some s.host.aerCe)] }) ∧
      (∀ ones, Does (.configRequest (.clearAer true ones)) s fun u => u.out = [.bar (some 0)] ∧ u.dict = s.dict ∧
        u.host = { s.host with aerUe := u.host.aerUe } ∧
        ∀ i, u.host.aerUe.testBit i = (s.host.aerUe.testBit i && !ones.toNat.testBit i)) ∧
      (∀ ones, Does (.configRequest (.clearAer false ones)) s fun u => u.out = [.bar (some 0)] ∧ u.dict = s.dict ∧
        u.host = { s.host with aerCe := u.host.aerCe } ∧
        ∀ i, u.host.aerCe.testBit i = (s.host.aerCe.testBit i && !ones.toNat.testBit i)) ∧
      Does (.configRequest .readDeviceId) s (fun u => u = { fresh s with out := [.bar (some 0x2048)] }) ∧
      Does (.configRequest .readClassCode) s (fun u => u = { fresh s with out := [.bar (some 0x028000)] }) ∧
      Does (.configRequest .readHeaderType) s (fun u => u = { fresh s with out := [.bar (some 0)] }) ∧
      Does (.configRequest .other) s fun u => (∃ v, u.out = [.bar (some v)]) ∧ u.dict = s.dict ∧ u.host = s.host) ∧
    (∀ e : Nat, s.freeTag e = none ∨ ∃ t, s.freeTag e = some t ∧
      t < (if s.host.tags10 = true then 768 else if s.host.tagsExt = true then 256 else 32) ∧ s.host.d3hot = false ∧
      s.host.reads.any (·.tag == t) = false)

/-- SOURCE_DOORBELL takes the oldest message: an IDLE source pends, a PENDING one merges, one in service loses it,
each counted. IRQ_DOORBELL and IRQ_RAISE do so for a software source and refuse others. DELIVERY_MESSAGE sends a due
target one message, its MSI-X entry or its core's; an entry that is masked waits in its pending bit until
MSIX_DELIVERABLE, and a core without firmware hears it later. The best source of a target is eligible and no other
eligible one is more urgent. IRQ_MASK_WRITE writes the masks of its word; IRQ_PENDING_WRITE pends or withdraws;
IRQ_PENDING_READ shows the pending bits. SRC_WITHDRAW takes a PENDING source back. DELIVERY_TIMEOUT redirects an
eligible source of an undeliverable target to its fallback, or counts where it has none. Nothing can be written in
D3hot (log 103, the model's choice). (12 R351, 12 R352, 12 R353, 12 R354, 12 R356, 12 R357, 12 R363, 12 R365, 12
R366.) -/
def Obligations.SourcesPendAndReachTheirTargets : Prop :=
  ∀ (s : State) (p : Path) (n : Source) (t : Target) (v : BitVec 32) (h : BitVec 16) (w : Fin 128), Runs s →
    (∀ (x : State) (k : Nat),
      ((x.event k).isrc k).st = (if (x.isrc k).st = .idle then .pending else (x.isrc k).st) ∧
      (∀ j, j ≠ k → (x.event k).isrc j = x.isrc j) ∧
      (x.event k).get (O.SRC_COUNTS k) 0 = (x.get (O.SRC_COUNTS k) 0 + 1) % 2 ^ 64 ∧
      ((x.isrc k).st = .pending → (x.event k).get (O.SRC_COUNTS k) 2 = (x.get (O.SRC_COUNTS k) 2 + 1) % 2 ^ 64) ∧
      ((x.isrc k).st = .inService → (x.event k).get (O.SRC_COUNTS k) 3 = (x.get (O.SRC_COUNTS k) 3 + 1) % 2 ^ 64) ∧
      ∀ r e, r ≠ O.SRC_COUNTS k → (x.event k).get r e = x.get r e) ∧
    (s.irq.doorbells = [] → exec .sourceDoorbell s = .next (fresh s)) ∧
    (∀ k l, s.irq.doorbells = k :: l → exec .sourceDoorbell s = .next (ran s
      (State.event { fresh s with irq := { s.irq with doorbells := l } } k))) ∧
    (0xF00 ≤ v.toNat % 4096 → v.toNat % 4096 ≤ 0xFFE →
      exec (.irqDoorbell v) s = .next (ran s ((fresh s).event (v.toNat % 4096)))) ∧
    ((v.toNat % 4096 < 0xF00 ∨ v.toNat % 4096 = 0xFFF) →
      exec (.irqDoorbell v) s = .next (ran s ((fresh s).count64 O.DOORBELL_REFUSED))) ∧
    (Ready s p → s.leasedAway p 11 = false → s.dict.busyTabs.contains O.IRQ_RAISE = false →
      (0xF00 ≤ h.toNat → h.toNat ≤ 0xFFE →
        exec (.irqRaise p h) s = .next (answers s p Err.ok ((fresh s).event h.toNat))) ∧
      ((h.toNat < 0xF00 ∨ 0xFFE < h.toNat) → exec (.irqRaise p h) s = .next (refused s p Err.range))) ∧
    (∀ m, s.bestAt t = some m → s.eligible m t = true ∧
      ∀ k, s.eligible k t = true → k = m ∨ s.moreUrgent m k = true) ∧
    (∀ e, s.msixReady e = true ↔ s.host.msixOn = true ∧ s.host.msixMask = false ∧
      look 1 s.host.msix (e * 4 + 3) % 2 = 0 ∧ s.host.d3hot = false) ∧
    (s.messageDue t = false → exec (.deliveryMessage t) s = .next (fresh s)) ∧
    (s.messageDue t = true → Does (.deliveryMessage t) s fun u => u.itgt t = { s.itgt t with sent := true } ∧
      (∀ k : Target, k ≠ t → u.itgt k = s.itgt k) ∧ u.irq.srcs = s.irq.srcs ∧
      u.get (O.TARGET_COUNTS t 7) = (s.get (O.TARGET_COUNTS t 7) + 1) % 2 ^ 64 ∧
      (t.val < 64 → s.msixReady t = true → u.out = [.msix t]) ∧
      (t.val < 64 → s.msixReady t = false → u.out = [] ∧ t.val ∈ u.host.pba) ∧
      (64 ≤ t.val → s.undeliverable t = false → u.out = [.slateMsg (t.val - 64)]) ∧
      (64 ≤ t.val → s.undeliverable t = true → u.out = [] ∧ t.val - 64 ∈ u.irq.slateWaits)) ∧
    (∀ e : Fin 64, (s.msixReady e = true → e.val ∈ s.host.pba → Does (.msixDeliverable e) s fun u =>
        u.out = [.msix e] ∧ u.host.pba = delNat e s.host.pba ∧ u.irq = s.irq ∧ u.dict = s.dict) ∧
      ((s.msixReady e = false ∨ e.val ∉ s.host.pba) → exec (.msixDeliverable e) s = .next (fresh s))) ∧
    (Does (.irqMaskWrite w v) s fun u => u.out = [] ∧ u.irq = s.irq ∧
      (∀ b, b < 32 → isSource (w.val * 32 + b) = true →
        u.get (O.SRC_MASK (w.val * 32 + b)) = (if v.toNat.testBit b then 1 else 0)) ∧
      ∀ k : Source, k.val / 32 ≠ w.val → u.get (O.SRC_MASK k) = s.get (O.SRC_MASK k)) ∧
    (Does (.irqPendingWrite w v) s fun u => u.out = [] ∧
      (∀ b, b < 32 → isSource (w.val * 32 + b) = true → (u.isrc (w.val * 32 + b)).st =
        (match (s.isrc (w.val * 32 + b)).st with
          | .inService => .inService
          | _ => if v.toNat.testBit b then .pending else .idle)) ∧
      ∀ k, k / 32 ≠ w.val → u.isrc k = s.isrc k) ∧
    (Does (.irqPendingRead w) s fun u => u.dict = s.dict ∧ u.irq.srcs = s.irq.srcs ∧ ∃ x, u.out = [.bar (some x)] ∧
      x < 2 ^ 32 ∧ ∀ b, b < 32 → (x.testBit b = true ↔ (s.isrc (w.val * 32 + b)).st = .pending)) ∧
    (Takes s p (O.SRC_WITHDRAW n) → isSource n = false →
      exec (.srcWithdraw p n) s = .next (refused s p Err.noInstance)) ∧
    (Takes s p (O.SRC_WITHDRAW n) → isSource n = true → Does (.srcWithdraw p n) s fun u =>
      u.out = [.answer p Err.ok []] ∧
      (u.isrc n).st = (if (s.isrc n).st = .pending then .idle else (s.isrc n).st) ∧
      ((s.isrc n).st = .pending → u.get (O.SRC_COUNTS n) 4 = (s.get (O.SRC_COUNTS n) 4 + 1) % 2 ^ 64) ∧
      ∀ k, k ≠ n.val → u.isrc k = s.isrc k) ∧
    (s.destOf n = some t.val → s.eligible n t = true → s.undeliverable t = true → s.get (O.SRC_TARGET n) = t.val →
      (s.get (O.SRC_FALLBACK n) = 0xFF →
        exec (.deliveryTimeout n) s = .next (ran s ((fresh s).count64 (O.TARGET_COUNTS t 13)))) ∧
      (s.get (O.SRC_FALLBACK n) ≠ 0xFF → Does (.deliveryTimeout n) s fun u =>
        u.isrc n = { s.isrc n with redir := true } ∧ u.irq.doorbells = s.irq.doorbells ++ [0xB58 + t.val] ∧
        u.get (O.TARGET_COUNTS t 12) = (s.get (O.TARGET_COUNTS t 12) + 1) % 2 ^ 64)) ∧
    ((∀ k, s.destOf n = some k → s.eligible n k = false ∨ s.undeliverable k = false) →
      exec (.deliveryTimeout n) s = .next (fresh s))

/-- A claim with an eligible source takes the most urgent one into service, pushes it with its group, and answers its
number, priority and depth; with none eligible, with the stack fault, or with 16 entries it answers 0xFFF, counted as
spurious and, at 16, as refused. Either ends the outstanding message. A completion of the top source pops it and makes
it IDLE; one of 0xFFF does nothing; of any other it sets the stack fault, is reported, and is counted, as is any with
the fault set. A stack reset makes every source on the stack IDLE and empties it, without fault; a write of 0 does
nothing. Other targets keep their stacks. (12 R353, 12 R356, 12 R358, 12 R359, 12 R360, 12 R361, 02 R40.) -/
def Obligations.TargetsClaimCompleteAndReset : Prop :=
  ∀ (s : State) (p : Path) (t : Target) (v : BitVec 32), Runs s →
    (∀ n, (s.itgt t).stack.length < 16 → (s.itgt t).fault = false → s.bestAt t = some n →
      Does (.irqClaim t) s fun u =>
        u.out = [.bar (some (n + s.get (O.SRC_PRIORITY n) * 2 ^ 12 + ((s.itgt t).stack.length + 1) * 2 ^ 20))] ∧
        u.itgt t = ⟨(s.itgt t).stack ++ [(n, s.get (O.SRC_PRIORITY n) / 2 ^ (8 - s.get (O.TARGET_SPLIT t)))], false, false⟩ ∧
        (u.isrc n).st = .inService ∧ (∀ k, k ≠ n → u.isrc k = s.isrc k) ∧
        (∀ k : Target, k ≠ t → u.itgt k = s.itgt k) ∧
        u.get (O.SRC_COUNTS n) 1 = (s.get (O.SRC_COUNTS n) 1 + 1) % 2 ^ 64 ∧
        u.get (O.TARGET_COUNTS t 8) = (s.get (O.TARGET_COUNTS t 8) + 1) % 2 ^ 64) ∧
    (((s.itgt t).stack.length < 16 ∧ ((s.itgt t).fault = true ∨ s.bestAt t = none)) → Does (.irqClaim t) s fun u =>
      u.out = [.bar (some 0xFFF)] ∧ u.itgt t = { s.itgt t with sent := false } ∧ u.irq.srcs = s.irq.srcs ∧
      u.get (O.TARGET_COUNTS t 9) = (s.get (O.TARGET_COUNTS t 9) + 1) % 2 ^ 64 ∧
      u.get (O.TARGET_COUNTS t 14) = s.get (O.TARGET_COUNTS t 14)) ∧
    (16 ≤ (s.itgt t).stack.length → Does (.irqClaim t) s fun u =>
      u.out = [.bar (some 0xFFF)] ∧ u.itgt t = { s.itgt t with sent := false } ∧ u.irq.srcs = s.irq.srcs ∧
      u.get (O.TARGET_COUNTS t 9) = (s.get (O.TARGET_COUNTS t 9) + 1) % 2 ^ 64 ∧
      u.get (O.TARGET_COUNTS t 14) = (s.get (O.TARGET_COUNTS t 14) + 1) % 2 ^ 64) ∧
    (v.toNat % 4096 = 0xFFF → exec (.irqComplete t v) s = .next (fresh s)) ∧
    (v.toNat % 4096 ≠ 0xFFF → (s.itgt t).fault = true →
      exec (.irqComplete t v) s = .next (ran s ((fresh s).count64 (O.TARGET_COUNTS t 11)))) ∧
    (∀ l n g, n ≠ 0xFFF → v.toNat % 4096 = n → (s.itgt t).fault = false → (s.itgt t).stack = l ++ [(n, g)] →
      Does (.irqComplete t v) s fun u => u.out = [] ∧ u.itgt t = ⟨l, false, false⟩ ∧ (u.isrc n).st = .idle ∧
        (∀ k, k ≠ n → u.isrc k = s.isrc k) ∧ (∀ k : Target, k ≠ t → u.itgt k = s.itgt k) ∧
        u.get (O.TARGET_COUNTS t 10) = (s.get (O.TARGET_COUNTS t 10) + 1) % 2 ^ 64 ∧ u.faults = s.faults) ∧
    (v.toNat % 4096 ≠ 0xFFF → (s.itgt t).fault = false →
      ((s.itgt t).stack.getLast?).map (·.1) ≠ some (v.toNat % 4096) → Does (.irqComplete t v) s fun u =>
        u.out = [] ∧ u.itgt t = ⟨(s.itgt t).stack, true, false⟩ ∧ u.irq.srcs = s.irq.srcs ∧
        u.get (O.TARGET_COUNTS t 11) = (s.get (O.TARGET_COUNTS t 11) + 1) % 2 ^ 64 ∧
        u.faults.reports.map (·.source) = s.faults.reports.map (·.source) ++ [0xB10 + t.val]) ∧
    (v.toNat % 2 = 0 → exec (.irqStackReset t v) s = .next (fresh s)) ∧
    (v.toNat % 2 = 1 → exec (.irqStackReset t v) s = .next (ran s ((fresh s).stackReset t))) ∧
    (Takes s p (O.STACK_RESET t) → exec (.stackReset p t) s = .next (answers s p Err.ok
      (((fresh s).stackReset t).cmdDone (O.STACK_RESET t)))) ∧
    (s.stackReset t).itgt t = ⟨[], false, false⟩ ∧
    (∀ k : Target, k ≠ t → (s.stackReset t).itgt k = s.itgt k) ∧
    (∀ e ∈ (s.itgt t).stack, ((s.stackReset t).isrc e.1).st = .idle) ∧
    (∀ n, (∀ e ∈ (s.itgt t).stack, e.1 ≠ n) → (s.stackReset t).isrc n = s.isrc n) ∧
    (s.stackReset t).get (O.TARGET_COUNTS t 15) = (s.get (O.TARGET_COUNTS t 15) + 1) % 2 ^ 64

/-- What a checker finds that no other command stands for, an AER status, a PLL out of lock, a rail outside its
tolerance, a word of a bank's microsequencer or of a Slate core's memory, is reported in the queue's order; an
uncorrectable word stops the microsequencer until its reload or restarts the core. A report of a held record's source
and unit, or downstream of its unit, folds into the first such record. Otherwise it opens a record with the time and
clock, which takes over the held records downstream of it; with 256 held and none to take over it is counted as
unlogged, classified, and its source raised. Publishing takes the oldest record, counts each report in it whose
reporter is not its unit in WITNESSED of that report's source, gives it the next sequence number, writes it to its row
of the log, notes the number with the source, raises the source, and classifies: a source not yet SEVERE counts in its
window and is SEVERE once the count reaches FAULT_N, the unit latched, COUNTING otherwise. Which memory an injection
for these two reaches is the model's choice (log 117). (13 R371, 13 R372, 13 R373, 13 R374, 13 R375, 13 R377, 13 R383,
14 R386, 15 R416.) -/
def Obligations.ReportsFoldIntoRecords : Prop :=
  ∀ (s : State) (r : Report) (l : List Report), Runs s →
    (∀ x, exec (.faultReport x) s = exec (.faultReport .queued) ((fresh s).seen x)) ∧
    (∀ st, (s.seen (.pcie true st)).faults.reports = s.faults.reports ++ [⟨0xB0B, 0xD000000, 0xD000000,
        leBytes 4 st.toNat ++ zeros 16, false⟩] ∧
      (s.seen (.pcie true st)).host = { s.host with aerUe := s.host.aerUe ||| st.toNat } ∧
      (s.seen (.pcie false st)).faults.reports = s.faults.reports ++ [⟨0xB0A, 0xD000000, 0xD000000,
        leBytes 4 st.toNat ++ zeros 16, false⟩] ∧
      (s.seen (.pcie false st)).host = { s.host with aerCe := s.host.aerCe ||| st.toNat }) ∧
    (s.seen .corePll).faults.reports = s.faults.reports ++ [⟨0xC41, 0x1000000, 0x1000000, zeros 20, false⟩] ∧
    (s.seen .mgmtPll).faults.reports = s.faults.reports ++ [⟨0xC42, 0x10000000, 0x10000000, zeros 20, false⟩] ∧
    (∀ (rail : Fin 7) mv, (s.seen (.supply rail mv)).faults.reports = s.faults.reports ++ [⟨0xC43, 0, 0,
      [BitVec.ofNat 8 rail.val] ++ leBytes 2 mv.toNat ++ zeros 17, false⟩]) ∧
    (∀ (b : LaneBank) a, s.damaged (0x60 + b.val) a.toNat = none → s.seqRuns b = true →
      (s.seen (.laneSeq b a .ok) = s) ∧
      ((s.seen (.laneSeq b a .one)).faults.reports.map (fun q => (q.source, q.unit, q.reporter)) =
        s.faults.reports.map (fun q => (q.source, q.unit, q.reporter)) ++ [(0x60 + b.val, 0x7000000 + b.val, 0x7000000 + b.val)]) ∧
      (s.seen (.laneSeq b a .one)).sys = s.sys ∧
      ((s.seen (.laneSeq b a .two)).faults.reports.map (fun q => (q.source, q.unit, q.reporter)) =
        s.faults.reports.map (fun q => (q.source, q.unit, q.reporter)) ++ [(0x68 + b.val, 0x7000000 + b.val, 0x7000000 + b.val)]) ∧
      (s.seen (.laneSeq b a .two)).seqRuns b = false ∧
      ∀ k : LaneBank, k ≠ b → (s.seen (.laneSeq b a .two)).seqRuns k = s.seqRuns k) ∧
    (∀ (k : Slate) a, s.damaged (0xBA8 + k.val) a.toNat = none → s.faults.armed = [] → s.slateRuns k = true →
      ((s.seen (.slate k a .one)).faults.reports.map (fun q => (q.source, q.unit, q.reporter)) =
        s.faults.reports.map (fun q => (q.source, q.unit, q.reporter)) ++ [(0xBA8 + k.val, 0x12000000 + k.val, 0x12000000 + k.val)]) ∧
      (s.seen (.slate k a .one)).sys = s.sys ∧
      ((s.seen (.slate k a .two)).faults.reports.map (fun q => (q.source, q.unit, q.reporter)) =
        s.faults.reports.map (fun q => (q.source, q.unit, q.reporter)) ++ [(0xBAC + k.val, 0x12000000 + k.val, 0x12000000 + k.val)]) ∧
      (s.seen (.slate k a .two)).slateRuns k = false) ∧
    (s.faults.reports = [] → exec (.faultReport .queued) s = .next (fresh s)) ∧
    (s.faults.reports = r :: l → ∀ h, s.faults.held.find? (fun h =>
        decide ((h.root.source = r.source ∧ h.root.unit = r.unit) ∨ s.upstream r.unit h.root.unit = true)) = some h →
      Does (.faultReport .queued) s fun u => u.faults.reports = l ∧ u.faults.arrived = s.faults.arrived + 1 ∧
        u.irq = s.irq ∧ u.faults.held = s.faults.held.map (fun x => if x.at_ = h.at_
          then { x with reps := x.reps ++ [(s.faults.arrived + 1, r.reporter, r.source)] } else x)) ∧
    (s.faults.reports = r :: l → (∀ h ∈ s.faults.held, ¬ (h.root.source = r.source ∧ h.root.unit = r.unit) ∧
        s.upstream r.unit h.root.unit = false) →
      ((s.faults.held.length < 256 ∨ ∃ h ∈ s.faults.held, s.upstream h.root.unit r.unit = true) →
        Does (.faultReport .queued) s fun u => u.faults.reports = l ∧ u.irq = s.irq ∧ u.faults.held =
          s.faults.held.filter (fun h => !s.upstream h.root.unit r.unit) ++ [⟨r, s.faults.arrived + 1,
            s.tb (s.get O.FAULT_TIME_BASE), s.dc,
            mergeReps (s.faults.arrived + 1, r.reporter, r.source)
              (s.faults.held.filter fun h => s.upstream h.root.unit r.unit)⟩]) ∧
      (256 ≤ s.faults.held.length → (∀ h ∈ s.faults.held, s.upstream h.root.unit r.unit = false) → r.injected = false →
        Does (.faultReport .queued) s fun u => u.faults.held = s.faults.held ∧
          u.get O.REPORTS_UNLOGGED = (s.get O.REPORTS_UNLOGGED + 1) % 2 ^ 64 ∧
          u.irq.doorbells = s.irq.doorbells ++ [r.source] ∧
          u.get (O.FAULT_COUNTS r.source 9) = (s.get (O.FAULT_COUNTS r.source 9) + 1) % 2 ^ 64)) ∧
    (s.faults.held = [] → exec .recordPublish s = .next (fresh s)) ∧
    (∀ h rest n c seq, s.faults.held = h :: rest → n = h.root.source → seq = (s.get O.FAULT_SEQ + 1) % 2 ^ 64 →
      c = (if s.get (O.FAULT_STATE n) = FState.clear then 1 else min (s.windowCount n + 1) 0xFFFF) →
      Does .recordPublish s fun u => u.out = [] ∧ u.faults.held = rest ∧ u.get O.FAULT_SEQ = seq ∧
        u.get (O.LAST_SEQ n) = seq ∧ u.irq.doorbells = s.irq.doorbells ++ [n] ∧ u.windowCount n = c ∧
        u.get (O.FAULT_COUNTS n 9) = (s.get (O.FAULT_COUNTS n 9) + 1) % 2 ^ 64 ∧
        (∀ m : Source, s.get (O.FAULT_COUNTS m 10) < 2 ^ 64 → u.get (O.FAULT_COUNTS m 10) = (s.get (O.FAULT_COUNTS m 10) +
          (h.reps.filter fun w => w.2.1 != h.root.unit && w.2.2 == m.val).length) % 2 ^ 64) ∧
        u.get O.FAULT_LOG (seq % 4096) = leNat (recordBytes h seq c (u.get (O.FAULT_STATE n))
          (u.get (O.FAULT_STATE n) == FState.severe && s.get (O.FAULT_STATE n) != FState.severe)) ∧
        (s.get (O.FAULT_STATE n) ≤ FState.counting → s.get (O.FAULT_N n) ≤ c →
          u.get (O.FAULT_STATE n) = FState.severe ∧ u.get (O.SEVERE_UNIT n) = h.root.unit ∧
          u.get (O.FAULT_COUNTS n 11) = (s.get (O.FAULT_COUNTS n 11) + 1) % 2 ^ 64) ∧
        (s.get (O.FAULT_STATE n) ≤ FState.counting → c < s.get (O.FAULT_N n) →
          u.get (O.FAULT_STATE n) = FState.counting ∧ u.get (O.SEVERE_UNIT n) = s.get (O.SEVERE_UNIT n)) ∧
        (FState.counting < s.get (O.FAULT_STATE n) → u.get (O.FAULT_STATE n) = s.get (O.FAULT_STATE n) ∧
          u.get (O.SEVERE_UNIT n) = s.get (O.SEVERE_UNIT n)) ∧
        ∀ k e, k ≠ seq % 4096 ∨ e ≠ O.FAULT_LOG → e.idx ≠ 0xC100 → e ≠ O.FAULT_SEQ → u.get e k = s.get e k)

/-- FAULT_WINDOW_EXPIRE takes a COUNTING source to CLEAR, uncounted. FAULT_ACK makes a SEVERE source HANDLED and is
refused with ERR_STATE otherwise, ERR_NO_INSTANCE of no fault source. REACTION_TIMEOUT makes a SEVERE source HANDLED,
but where its class is fault and it escalates, ESCALATED, counted and raised, with the unit's action taken and counted
where its domain kind has one. QUIET_EXPIRE takes a SEVERE, HANDLED or ESCALATED source to CLEAR as a recovery,
counted and raised. FAULT_INJECT of a source its mode does not fit, or a unit that does not fit the source, is
ERR_RANGE; with 16 armed for the unit it is ERR_CMD_BUSY; mode 4 makes an injected report, and the others arm a word:
the next write of it, or of any word of the unit, puts the error in, the first check of the word reports it as
injected, and the arming stands until then (that a word written again without the error frees the arming is log 118's
choice). (13 R376, 13 R377, 13 R378, 13 R379, 13 R382, 02 R40.) -/
def Obligations.SourcesRecoverReactAndAreTested : Prop :=
  ∀ (s : State) (p : Path) (n : Source) (unit addr : BitVec 32), Runs s →
    (s.get (O.FAULT_STATE n) = FState.counting → Does (.faultWindowExpire n) s fun u =>
      u.get (O.FAULT_STATE n) = FState.clear ∧ u.windowCount n = 0 ∧ u.irq = s.irq ∧
      ∀ r e, r ≠ O.FAULT_STATE n → u.get r e = s.get r e) ∧
    (s.get (O.FAULT_STATE n) ≠ FState.counting → exec (.faultWindowExpire n) s = .next (fresh s)) ∧
    (Takes s p (O.FAULT_ACK n) → isFaultSource n = false →
      exec (.faultAck p n) s = .next (refused s p Err.noInstance)) ∧
    (Takes s p (O.FAULT_ACK n) → isFaultSource n = true →
      (s.get (O.FAULT_STATE n) = FState.severe → Does (.faultAck p n) s fun u => u.out = [.answer p Err.ok []] ∧
        u.get (O.FAULT_STATE n) = FState.handled ∧
        u.get (O.FAULT_COUNTS n 12) = (s.get (O.FAULT_COUNTS n 12) + 1) % 2 ^ 64 ∧
        (u.cmd (O.FAULT_ACK n)).status = 2 ∧
        ∀ r e, r ≠ O.FAULT_STATE n → r ≠ O.FAULT_COUNTS n 12 → u.get r e = s.get r e) ∧
      (s.get (O.FAULT_STATE n) ≠ FState.severe → exec (.faultAck p n) s = .next (refused s p Err.state))) ∧
    (s.get (O.FAULT_STATE n) ≠ FState.severe → exec (.reactionTimeout n) s = .next (fresh s)) ∧
    (s.get (O.FAULT_STATE n) = FState.severe → (s.get (O.SRC_CLASS n) ≠ 1 ∨ s.flag (O.ESCALATE n) = false) →
      exec (.reactionTimeout n) s = .next (ran s ((fresh s).set (O.FAULT_STATE n) FState.handled))) ∧
    (s.get (O.FAULT_STATE n) = FState.severe → s.get (O.SRC_CLASS n) = 1 → s.flag (O.ESCALATE n) = true →
      (s.get (O.DOMAIN_ACTION (s.get (O.SEVERE_UNIT n) / 2 ^ 24)) ≠ 1 → Does (.reactionTimeout n) s fun u =>
        u.get (O.FAULT_STATE n) = FState.escalated ∧ u.irq.doorbells = s.irq.doorbells ++ [n.val] ∧
        u.get (O.FAULT_COUNTS n 13) = (s.get (O.FAULT_COUNTS n 13) + 1) % 2 ^ 64 ∧
        ∀ r e, r ≠ O.FAULT_STATE n → r ≠ O.FAULT_COUNTS n 13 → u.get r e = s.get r e) ∧
      (s.get (O.DOMAIN_ACTION (s.get (O.SEVERE_UNIT n) / 2 ^ 24)) = 1 → exec (.reactionTimeout n) s = .next (ran s
        ((((((fresh s).set (O.FAULT_STATE n) FState.escalated).count64 (O.FAULT_COUNTS n 13)).domainAction
          (s.get (O.SEVERE_UNIT n))).count64 (O.DOMAIN_ESCALATIONS (s.get (O.SEVERE_UNIT n) / 2 ^ 24))).raise n)))) ∧
    (FState.severe ≤ s.get (O.FAULT_STATE n) → Does (.quietExpire n) s fun u =>
      u.get (O.FAULT_STATE n) = FState.clear ∧ u.windowCount n = 0 ∧ u.irq.doorbells = s.irq.doorbells ++ [n.val] ∧
      u.get (O.FAULT_COUNTS n 14) = (s.get (O.FAULT_COUNTS n 14) + 1) % 2 ^ 64 ∧
      ∀ r e, r ≠ O.FAULT_STATE n → r ≠ O.FAULT_COUNTS n 14 → u.get r e = s.get r e) ∧
    (s.get (O.FAULT_STATE n) < FState.severe → exec (.quietExpire n) s = .next (fresh s)) ∧
    (∀ i m, (i, m) ∈ [(Instr.faultInjectEccSingle p n unit addr, 1), (.faultInjectEccDouble p n unit addr, 2),
        (.faultInjectParity p n unit addr, 3), (.faultInjectReport p n unit addr, 4)] → Takes s p O.FAULT_INJECT →
      (srcRow n = none → exec i s = .next (refused s p Err.range)) ∧
      ∀ row, srcRow n = some row →
        ((row.cls = 0 ∨ modeFits row.chk m = false ∨ unitFits n unit.toNat row = false) →
          exec i s = .next (refused s p Err.range)) ∧
        (row.cls ≠ 0 → modeFits row.chk m = true → unitFits n unit.toNat row = true →
          (16 ≤ (s.faults.armed.filter (·.unit == unit.toNat)).length →
            exec i s = .next (refused s p Err.cmdBusy)) ∧
          ((s.faults.armed.filter (·.unit == unit.toNat)).length < 16 → Does i s fun u =>
            u.out = [.answer p Err.ok []] ∧ (u.cmd O.FAULT_INJECT).status = 2 ∧ u.faults =
              (if m = 4 then { s.faults with
                  reports := s.faults.reports ++ [⟨n, unit.toNat, unit.toNat, zeros 20, true⟩] }
                else { s.faults with armed := s.faults.armed ++ [⟨n, unit.toNat, addr.toNat, m, none⟩] }) ∧
            ∀ r e, u.get r e = s.get r e))) ∧
    (∀ ce ue u a src to_ m w, s.faults.damage = [] → s.faults.armed = [⟨src, u, to_, m, none⟩] →
      w = s.wordWritten ce ue u a →
      (((src ≠ ce ∧ src ≠ ue) ∨ (to_ ≠ a ∧ to_ ≠ 0xFFFFFFFF)) → w = s) ∧
      ((src = ce ∨ src = ue) → (to_ = a ∨ to_ = 0xFFFFFFFF) →
        w.faults.armed = [⟨src, u, to_, m, some (ce, a)⟩] ∧ (∀ k, k ≠ u → s.wordWritten ce ue k a = s) ∧
        ∀ rep acc, ∃ x, (w.checkWord ce ue u rep a a acc).2.faults.armed = [] ∧
          (w.checkWord ce ue u rep a a acc).1 = (if m = 2 then 2 else 1) ∧
          (w.checkWord ce ue u rep a a acc).2.faults.reports = s.faults.reports ++
            [⟨if m = 2 then ue else ce, u, rep, detailM a x acc (if m = 2 then 2 else 1), true⟩]))

/-- POWER_ON takes an unpowered device into reset with cause 0; SYS_RESET_ASSERT a running one with cause 1;
SYS_RESET_RELEASE lets a device in reset run, the straps latched and the cause kept; POWER_LOSS takes the power. After
each every object is at its default but the straps, the cause and the fused security version, every block is at its
reset state, the PCIE_PERST_N pin, the waiting commands and, with no firmware store under way, the flash stay. In any
other power state each of them does nothing. (01 R33, 14 R386, 14 R388, 14 R389.) -/
def Obligations.PowerAndResetInputs : Prop :=
  ∀ (s : State) (v : BitVec 4),
    (∀ i from_ to_ cause straps, (i, from_, to_, cause, straps) ∈
        [(Instr.powerOn, Power.off, Power.reset, 0, 0), (.sysResetAssert, .run, .reset, 1, 0),
          (.sysResetRelease v, .reset, .run, s.get O.RESET_CAUSE, v.toNat)] →
      (s.sys.power ≠ from_ → exec i s = .next (fresh s)) ∧
      (s.sys.power = from_ → exec i s = .next (s.cleared to_ cause straps) ∧ (s.cleared to_ cause straps).sys.power = to_ ∧
        (s.cleared to_ cause straps).get O.RESET_CAUSE = cause)) ∧
    (s.sys.power = .off → exec .powerLoss s = .next (fresh s)) ∧
    (s.sys.power ≠ .off → exec .powerLoss s = .next (s.cleared .off 0 0)) ∧
    ∀ pw cause straps u, u = s.cleared pw cause straps →
      u.sys.power = pw ∧ u.sys.perst = s.sys.perst ∧ u.sys.initDone = false ∧ u.sys.fw = .rom ∧ u.sys.image = none ∧
      u.sys.pcieUp = false ∧ u.pending = s.pending ∧ u.out = [] ∧
      (s.cmdRunning O.FW_STORE = false → u.sys.flash = s.sys.flash) ∧
      u.get O.RESET_CAUSE = cause ∧ u.get O.STRAPS = straps ∧ u.get O.FW_SVN_FUSED = s.get O.FW_SVN_FUSED ∧
      (∀ r e, r ≠ O.RESET_CAUSE → r ≠ O.STRAPS → r ≠ O.FW_SVN_FUSED → u.get r e = objDefault ⟨r, e⟩) ∧
      u.lanes = State.reset.lanes ∧ u.ports = State.reset.ports ∧ u.gates = State.reset.gates ∧
      u.cores = State.reset.cores ∧ u.tiles = State.reset.tiles ∧ u.lookup = State.reset.lookup ∧ u.buf = State.reset.buf ∧
      u.buckets = State.reset.buckets ∧ u.time = State.reset.time ∧ u.ledger = State.reset.ledger ∧
      u.host = State.reset.host ∧ u.irq = State.reset.irq ∧ u.faults = State.reset.faults ∧
      u.dict.cmds = State.reset.dict.cmds ∧ u.dict.shadow = State.reset.dict.shadow ∧
      u.dict.leases = State.reset.dict.leases ∧ u.dict.sessions = State.reset.dict.sessions ∧
      u.dict.wins = State.reset.dict.wins

/-- ARRAY_INIT_DONE makes the dictionary answer, takes the fused setpoint, held to 650-750 mV, and starts link
training where the pin and strap let it. Whenever firmware starts, each bank's microsequencer is loaded and runs again
(log 117). The ROM tries the candidate slots by version, the strap deciding a tie, starts the first that passes, and
counts those that failed; with none it stays in the ROM with BOOT_STATE 3. FIRMWARE_START of a verified image loads
the device data, the lanes' code and the startup image, which the strap skips. AVS_STEP asks for at most 5 mV more or
less; AVS_TIMEOUT of a request that is out goes back to the confirmed value, and reports the one asked. TEMP_SAMPLE
shows the reading, keeps the peak, reports above the warning and above 105 degrees, and trips at 120. (13 R383, 14
R387, 14 R389, 14 R391, 14 R392, 14 R393, 14 R394, 14 R395, 14 R430, 15 R425.) -/
def Obligations.BootVoltageAndTemperature : Prop :=
  ∀ (s : State) (mv : BitVec 16) (n : Sensor) (x : BitVec 32), Runs s →
    (s.sys.initDone = true → exec (.arrayInitDone mv) s = .next (fresh s)) ∧
    (s.sys.initDone = false → Does (.arrayInitDone mv) s fun u => u.sys = { s.sys with
        initDone := true, avsTarget := max 650 (min 750 mv.toNat) } ∧
      u.get O.AVS_SETPOINT_MV = max 650 (min 750 mv.toNat) ∧ u.out = [] ∧
      u.host = { s.host with training := s.host.training || (!s.sys.perst && s.hostReaches) } ∧
      ∀ r e, r ≠ O.AVS_SETPOINT_MV → r ≠ O.RAIL_MV → u.get r e = s.get r e) ∧
    ((s.sys.fw ≠ .rom ∨ s.sys.initDone = false) → exec .bootRomVerify s = .next (fresh s)) ∧
    (∀ i k, s.sys.fw = .rom → s.sys.initDone = true → s.tryBoot s.bootOrder = (some i, k) →
      Does .bootRomVerify s fun u => u.sys = { s.sys with image := some i, fw := .verified } ∧
        u.get O.BOOT_STATE = 1 + i.slot ∧ u.get O.BOOT_FAILS = k ∧
        ∀ r e, r ≠ O.BOOT_STATE → r ≠ O.BOOT_FAILS → u.get r e = s.get r e) ∧
    (∀ k, s.sys.fw = .rom → s.sys.initDone = true → s.tryBoot s.bootOrder = (none, k) →
      Does .bootRomVerify s fun u => u.sys = { s.sys with fw := .noImage } ∧ u.get O.BOOT_STATE = 3 ∧
        u.get O.BOOT_FAILS = k) ∧
    (∀ l i k, s.tryBoot l = (some i, k) → ∃ a j b, l = a ++ j :: b ∧ a.length = k ∧
      s.checkImage j (slotAt j) s.sys.flash = some i ∧ ∀ y ∈ a, s.checkImage y (slotAt y) s.sys.flash = none) ∧
    (∀ va vb, va = leAt (s.flashRead (slotAt 0) 256) 4 4 → vb = leAt (s.flashRead (slotAt 1) 256) 4 4 →
      s.candidate (s.flashRead (slotAt 0) 256) = true → s.candidate (s.flashRead (slotAt 1) 256) = true →
      s.bootOrder = (if va < vb ∨ (va = vb ∧ bit (s.get O.STRAPS) 2 = true) then [1, 0] else [0, 1])) ∧
    (s.sys.fw ≠ .verified → exec .firmwareStart s = .next (fresh s)) ∧
    (∀ i, s.sys.fw = .verified → s.sys.image = some i → exec .firmwareStart s = .next (ran s (((((State.set
      { fresh s with sys := { s.sys with fw := .running } } O.FW_VERSION i.ver).loadMacs).startLanes).coresReady).startupApply))) ∧
    (bit (s.get O.STRAPS) 1 = true → s.startupApply = s.startupEnd 0 1 Err.ok 0) ∧
    (bit (s.get O.STRAPS) 1 = false → (s.startupActive.bind fun k => startupRecords (imageAt k) s.sys.flash) = none →
      s.startupApply = s.startupEnd 0 2 Err.ok 0) ∧
    (s.deviceData = none → s.loadMacs = s) ∧
    (s.loadSeqs.sys = { s.sys with ucode := true, seqDown := [] } ∧ s.loadSeqs.dict = s.dict ∧
      (∀ b : LaneBank, s.loadSeqs.seqRuns b = true) ∧
      ((s.faults.armed.filter fun a => a.unit / 2 ^ 24 == 7) = [] →
        ∀ (b : LaneBank) a, s.loadSeqs.damaged (0x60 + b.val) a = none)) ∧
    (s.sys.initDone = false → exec (.avsStep mv) s = .next (fresh s)) ∧
    (s.sys.initDone = true → Does (.avsStep mv) s fun u => ∃ next, u.out = [.avs next] ∧
      u.sys = { s.sys with avsTarget := max 650 (min 750 mv.toNat), avsOk := s.sys.avsAsked, avsAsked := next, avsOut := true } ∧
      u.get O.AVS_SETPOINT_MV = max 650 (min 750 mv.toNat) ∧ next ≤ s.sys.avsAsked + 5 ∧ s.sys.avsAsked ≤ next + 5 ∧
      (s.sys.avsAsked ≤ max 650 (min 750 mv.toNat) → s.sys.avsAsked ≤ next ∧ next ≤ max 650 (min 750 mv.toNat)) ∧
      (max 650 (min 750 mv.toNat) ≤ s.sys.avsAsked → next ≤ s.sys.avsAsked ∧ max 650 (min 750 mv.toNat) ≤ next)) ∧
    (s.sys.avsOut = false → exec .avsTimeout s = .next (fresh s)) ∧
    (s.sys.avsOut = true → Does .avsTimeout s fun u => u.sys = { s.sys with avsAsked := s.sys.avsOk, avsOut := false } ∧
      u.dict = s.dict ∧ u.faults = { s.faults with reports := s.faults.reports ++ [⟨0xC44, 0x1000000, 0x1000000,
        leBytes 2 s.sys.avsAsked ++ zeros 18, false⟩] }) ∧
    (∀ t, t = toSigned 32 x.toNat → Does (.tempSample n x) s fun u => u.get (O.TEMP n) = x.toNat ∧
      u.get (O.TEMP_PEAK n) = (if s.geti (O.TEMP_PEAK n) < t then x.toNat else s.get (O.TEMP_PEAK n)) ∧
      u.faults.reports.map (·.source) = s.faults.reports.map (·.source) ++
        (if 16 * s.geti (O.TEMP_WARN n) < t then [0xC00 + n.val] else []) ++ (if 16 * 105 < t then [0xC40] else []) ∧
      u.sys = { s.sys with thermtrip := s.sys.thermtrip || decide (16 * 120 ≤ t) } ∧
      ∀ r e, r ≠ O.TEMP n → r ≠ O.TEMP_PEAK n → u.get r e = s.get r e)

/-- FW_VERIFY of a sound uploaded image makes FW_STATE 1; of another it fails with ERR_STATE. FW_ACTIVATE needs
FW_STATE 1; the cores then switch, and the command runs until FW_READY, with FW_STATE 0 and the new version, or
FW_REVERT, with FW_STATE 3, ERR_STATE and the previous image. FW_STORE needs a verified image and writes it, with its
end, to the named slot, raising the fused security version where asked. STARTUP_STORE checks the uploaded image and,
with its end, writes the inactive region and then the pointer. A watchdog expiry or a memory error of a core that runs
is reported, and the core is down until FW_READY. DIAG_UNLOCK opens a session where it is accepted, one in an open
session being a vendor's command, else ERR_STATE (log 5, the model's choice). FW_REVERT without a predecessor and
BOOT_STATE 4 are the model's choices (log 54). (14 R393, 14 R402, 14 R403, 14 R404, 14 R406, 13 R383, 00 R10, 02 R40.)
-/
def Obligations.FirmwareIsVerifiedReplacedAndStored : Prop :=
  ∀ (s : State) (p : Path) (b : Byte) (d : List Byte) (k : Slate) (pc : BitVec 32), Runs s →
    (Takes s p O.FW_VERIFY →
      (s.sys.fw ≠ .running → s.sys.fw ≠ .noImage → exec (.fwVerify p) s = .next (refused s p Err.state)) ∧
      ((s.sys.fw = .running ∨ s.sys.fw = .noImage) →
        (s.checkImage 2 0 s.sys.upload = none →
          exec (.fwVerify p) s = .next (answers s p Err.state ((fresh s).cmdFail O.FW_VERIFY Err.state))) ∧
        (∀ i, s.checkImage 2 0 s.sys.upload = some i → Does (.fwVerify p) s fun u => u.out = [.answer p Err.ok []] ∧
          u.sys = { s.sys with waiting := some i } ∧ u.get O.FW_STATE = 1 ∧ (u.cmd O.FW_VERIFY).status = 2 ∧
          ∀ r e, r ≠ O.FW_STATE → u.get r e = s.get r e))) ∧
    (Takes s p O.FW_ACTIVATE →
      (s.get O.FW_STATE ≠ 1 → exec (.fwActivate p) s = .next (refused s p Err.state)) ∧
      (s.get O.FW_STATE = 1 → Does (.fwActivate p) s fun u => u.out = [.answer p Err.ok []] ∧
        u.sys.fw = .switching ∧ u.sys.previous = s.sys.image ∧ u.sys.waiting = s.sys.waiting ∧ u.get O.FW_STATE = 2 ∧
        (u.cmd O.FW_ACTIVATE).status = 1 ∧ ∀ r e, r ≠ O.FW_STATE → u.get r e = s.get r e)) ∧
    (∀ i j, s.sys.fw = .switching → s.sys.waiting = some i → s.sys.previous = some j →
      exec .fwReady s = .next (ran s (((((State.set { fresh s with sys := { s.sys with waiting := none } } O.FW_STATE
        0).set O.BOOT_STATE 4).cmdDone O.FW_ACTIVATE).fwResume i))) ∧
      (s.dict.held = [] → Does .fwReady s fun u => u.sys.fw = .running ∧ u.sys.image = some i ∧ u.sys.waiting = none ∧
        u.get O.FW_STATE = 0 ∧ u.get O.BOOT_STATE = 4 ∧ u.get O.FW_VERSION = i.ver ∧
        (u.cmd O.FW_ACTIVATE).status = 2)) ∧
    (∀ i, s.sys.fw = .running → s.sys.slateDown ≠ [] → s.sys.image = some i →
      exec .fwReady s = .next (ran s ((fresh s).fwResume i))) ∧
    (s.sys.fw ≠ .switching → (s.sys.fw ≠ .running ∨ s.sys.slateDown = []) → exec .fwReady s = .next (fresh s)) ∧
    (s.sys.fw ≠ .switching → exec .fwRevert s = .next (fresh s)) ∧
    (s.sys.fw = .switching →
      (∀ j, s.sys.previous = some j → exec .fwRevert s = .next (ran s
          ((((fresh s).set O.FW_STATE 3).cmdFail O.FW_ACTIVATE Err.state).fwResume j)) ∧
        (s.dict.held = [] → Does .fwRevert s fun u => u.sys.fw = .running ∧ u.sys.image = some j ∧
          u.get O.FW_STATE = 3 ∧ u.get O.FW_VERSION = j.ver ∧ (u.cmd O.FW_ACTIVATE) = ⟨3, Err.state, []⟩)) ∧
      (s.sys.previous = none → Does .fwRevert s fun u => u.sys = { s.sys with fw := .noImage } ∧
        u.get O.FW_STATE = 3 ∧ (u.cmd O.FW_ACTIVATE) = ⟨3, Err.state, []⟩)) ∧
    (Takes s p O.FW_STORE →
      (s.storable = none → exec (.fwStore p b) s = .next (refused s p Err.state)) ∧
      (∀ i, s.storable = some i → exec (.fwStore p b) s = .next (answers s p Err.ok (State.cmdRun { fresh s with
        sys := { s.sys with storing := bn b % 2, storeImg := some i, storeSvn := bit (bn b) 7 } } O.FW_STORE)))) ∧
    (s.cmdRunning O.FW_STORE = false → exec .fwStoreDone s = .next (fresh s)) ∧
    (∀ i, s.cmdRunning O.FW_STORE = true → s.sys.storeImg = some i → Does .fwStoreDone s fun u =>
      u.sys.flash = writeRegion (slotAt s.sys.storing) i.bytes s.sys.flash ∧ (u.cmd O.FW_STORE).status = 2 ∧
      u.get O.FW_SVN_FUSED = (if s.sys.storeSvn = true then max (s.get O.FW_SVN_FUSED) i.svn else s.get O.FW_SVN_FUSED) ∧
      ∀ r e, r ≠ O.FW_SVN_FUSED → u.get r e = s.get r e) ∧
    (Takes s p O.STARTUP_STORE →
      (startupRecords 0 s.sys.startUp = none →
        exec (.startupStore p) s = .next (answers s p Err.state ((fresh s).cmdFail O.STARTUP_STORE Err.state))) ∧
      ((startupRecords 0 s.sys.startUp).isSome = true → exec (.startupStore p) s = .next (answers s p Err.ok
        (State.cmdRun { fresh s with sys := { s.sys with storeStart := some s.sys.startUp } } O.STARTUP_STORE)))) ∧
    ((s.sys.storeStart = none ∨ s.cmdRunning O.STARTUP_STORE = false) →
      exec .startupStoreDone s = .next (fresh s)) ∧
    (∀ m j f, s.sys.storeStart = some m → s.cmdRunning O.STARTUP_STORE = true →
      j = (match s.startupActive with | some a => 1 - a | none => 0) →
      f = writeRegion (imageAt j) (readRegion 0x400000 0 m) s.sys.flash → Does .startupStoreDone s fun u =>
        u.sys = { s.sys with storeStart := none, flash := writeRegion pointerAt (pointerBytes j) f } ∧
        (u.cmd O.STARTUP_STORE).status = 2 ∧ ∀ r e, u.get r e = s.get r e) ∧
    (s.slateRuns k = false → exec (.slateWatchdogExpire k pc) s = .next (fresh s) ∧
      exec (.slateMemoryUe k) s = .next (fresh s)) ∧
    (∀ i src, (i, src) ∈ [(Instr.slateWatchdogExpire k pc, 0xBB0 + k.val), (.slateMemoryUe k, 0xBAC + k.val)] →
      s.slateRuns k = true → Does i s fun u => k.val ∈ u.sys.slateDown ∧ u.slateRuns k = false ∧ u.sys.fw = .running ∧
        u.faults.reports.map (·.source) = s.faults.reports.map (·.source) ++ [src] ∧ u.dict = s.dict) ∧
    (Takes s p O.DIAG_UNLOCK → d.length ≤ 1024 →
      (Config.diagUnlockAccepts d = true → exec (.diagUnlock p d) s = .next (answers s p Err.ok
        ((fresh s).diagUnlock.cmdDone O.DIAG_UNLOCK)) ∧
        (s.get O.DIAG_STATE = 0 → (fresh s).diagUnlock = (fresh s).set O.DIAG_STATE 1) ∧
        (s.get O.DIAG_STATE ≠ 0 → (fresh s).diagUnlock =
          { fresh s with sys := { s.sys with diagRuns := s.sys.diagRuns + 1 } })) ∧
      (Config.diagUnlockAccepts d = false → exec (.diagUnlock p d) s = .next (refused s p Err.state)))

/-- TILE_RELOAD of a FULL tile enters ENTERING, counts and is done; of another it is refused with ERR_STATE. TILE_PALE
makes an ENTERING tile PALE once nothing dispatched before the boundary is left, unless a commit that ends a reload of
it is flipping; that TILE_RELOAD is done at once and TILE_PALE waits for that flip are the model's choices (log 49).
An escalation is noted by each commit of the tile's group that is VALIDATING. TW_XFER checks its lengths (log 50),
refuses master 15, and else runs with the transaction put out, reserved bits 0; its end gives the bytes written and
read, or status 3 with the cause and the bytes written, counting failures and recoveries. The MDIO commands put out
one frame each and run until the port answers, a write or address with 0, a read that no port answers with 0xFFFF,
counted. (14 R397, 14 R398, 14 R399, 14 R400, 14 R401, 15 R420, 15 R421, 15 R422, 15 R423, 02 R40.) -/
def Obligations.TileServiceAndBoardMasters : Prop :=
  ∀ (s : State) (p : Path) (t : Tile) (i : Fin 16) (j : Fin 4) (d data : List Byte) (c : Bool) (port dev : BitVec 5)
      (v : BitVec 16) (w : Byte), Runs s →
    (Takes s p (O.TILE_RELOAD t) →
      (s.get (O.TILE_SERVICE t) ≠ 2 → exec (.tileReload p t) s = .next (refused s p Err.state)) ∧
      (s.get (O.TILE_SERVICE t) = 2 → Does (.tileReload p t) s fun u => u.out = [.answer p Err.ok []] ∧
        u.get (O.TILE_SERVICE t) = 1 ∧ u.get (O.TILE_COUNTS t 5) = (s.get (O.TILE_COUNTS t 5) + 1) % 2 ^ 64 ∧
        (u.tile t).cause = 7 ∧ (u.cmd (O.TILE_RELOAD t)).status = 2 ∧ (∀ k : Tile, k ≠ t → u.tile k = s.tile k) ∧
        ∀ r e, r ≠ O.TILE_SERVICE t → r ≠ O.TILE_COUNTS t 5 → u.get r e = s.get r e)) ∧
    ((s.get (O.TILE_SERVICE t) ≠ 1 ∨ s.tileDrained t = false ∨ (s.reloadCommit t).isSome = true) →
      exec (.tilePale t) s = .next (fresh s)) ∧
    (s.get (O.TILE_SERVICE t) = 1 → s.tileDrained t = true → s.reloadCommit t = none →
      exec (.tilePale t) s = .next (ran s ((fresh s).becomePale t)) ∧
      (s.tilePorts t = [] → s.g4Lanes t = [] → Does (.tilePale t) s fun u => u.get (O.TILE_SERVICE t) = 0 ∧
        u.get (O.TILE_FULL t) = 0 ∧ ∀ r e, r ≠ O.TILE_SERVICE t → r ≠ O.TILE_FULL t → u.get r e = s.get r e)) ∧
    (s.tileDrained t = true ↔ ∀ q ∈ s.buf.pkts, q.tile = t.val → q.pale = false → q.phase ≠ .parsing ∧ q.phase ≠ .reorder ∧
      ∀ k, q.phase = .matched → q.src ≠ .port k) ∧
    (∀ k ∈ s.dict.commits, k.groups.contains (0xD0 + t.val / 2) = true → k.phase = .validating →
      ∃ x ∈ (s.escalateTile t).dict.commits, x.id = k.id ∧ t.val ∈ x.paled) ∧
    (∀ gs paled, t.val ∈ paled → s.serviceOk gs paled t = false) ∧
    (∀ gs paled, s.changes gs (O.TILE_PROFILE t) = true → s.endsReload gs t = false → s.serviceOk gs paled t = false) ∧
    (Takes s p (O.TW_XFER i) → d.length ≤ 68 →
      (d.length < 4 ∨ d.length ≠ 4 + byteAt d 1 → exec (.twXfer p i d) s = .next (refused s p Err.type)) ∧
      (d.length = 4 + byteAt d 1 → 64 < byteAt d 2 → exec (.twXfer p i d) s = .next (refused s p Err.range)) ∧
      (d.length = 4 + byteAt d 1 → byteAt d 2 ≤ 64 →
        (i.val = 15 → exec (.twXfer p i d) s = .next (refused s p Err.state)) ∧
        (∀ b, b = [BitVec.ofNat 8 (byteAt d 0 % 128), BitVec.ofNat 8 (byteAt d 1), BitVec.ofNat 8 (byteAt d 2),
            BitVec.ofNat 8 (byteAt d 3 % 2)] ++ d.drop 4 → i.val ≠ 15 → Does (.twXfer p i d) s fun u =>
          u.out = [.twoWire i b, .answer p Err.ok []] ∧
          (u.cmd (O.TW_XFER i)).status = 1 ∧ look [] u.sys.busOps i.val = b ∧ ∀ r e, u.get r e = s.get r e))) ∧
    (s.cmdRunning (O.TW_XFER i) = false → ∀ cause rec_,
      exec (.twXferDone i cause rec_ w data) s = .next (fresh s)) ∧
    (s.cmdRunning (O.TW_XFER i) = true → ∀ (cause : Fin 6) (rec_ : Bool) (q : List Byte), q = look [] s.sys.busOps i.val →
      Does (.twXferDone i cause rec_ w data) s fun u => u.out = [] ∧ u.cmd (O.TW_XFER i) =
        (if cause.val = 0 then ⟨2, 0, [0, nb (byteAt q 1)] ++ (padTo (byteAt q 2) data).take (byteAt q 2)⟩
          else ⟨3, Err.state, [nb cause.val, nb (min (bn w) (byteAt q 1))]⟩) ∧
        u.get (O.TW_COUNTS i) 0 = (if cause.val = 0 then s.get (O.TW_COUNTS i) 0 else (s.get (O.TW_COUNTS i) 0 + 1) % 2 ^ 64) ∧
        u.get (O.TW_COUNTS i) 1 = (if rec_ = true ∨ cause.val = 4 then (s.get (O.TW_COUNTS i) 1 + 1) % 2 ^ 64 else s.get (O.TW_COUNTS i) 1) ∧
        ∀ r e, r ≠ O.TW_COUNTS i → u.get r e = s.get r e) ∧
    (∀ ins cl op x, (ins, cl, op, x) ∈ [(Instr.mdioRead p j c port dev, c, 0, 0), (.mdioWrite p j c port dev v, c, 1, v.toNat),
        (.mdioAddress p j port dev v, true, 2, v.toNat), (.mdioReadIncrement p j port dev, true, 3, 0)] →
      Takes s p (O.MDIO_XFER j) → Does ins s fun u =>
        u.out = [.mdio j cl port.toNat dev.toNat op x, .answer p Err.ok []] ∧ (u.cmd (O.MDIO_XFER j)).status = 1 ∧
        u.get (O.MDIO_COUNTS j) 0 = (s.get (O.MDIO_COUNTS j) 0 + 1) % 2 ^ 64 ∧
        byteAt (look [] u.sys.busOps (16 + j.val)) 3 = op ∧ ∀ r e, r ≠ O.MDIO_COUNTS j → u.get r e = s.get r e) ∧
    (∀ a, s.cmdRunning (O.MDIO_XFER j) = false → exec (.mdioXferDone j a) s = .next (fresh s)) ∧
    (∀ a op, s.cmdRunning (O.MDIO_XFER j) = true → op = byteAt (look [] s.sys.busOps (16 + j.val)) 3 →
      Does (.mdioXferDone j a) s fun u => (u.cmd (O.MDIO_XFER j)) = ⟨2, 0,
          if op = 1 ∨ op = 2 then [0, 0] else match a with | some y => leBytes 2 y.toNat | none => [0xFF, 0xFF]⟩ ∧
        u.get (O.MDIO_COUNTS j) 1 = (if op ≠ 1 ∧ op ≠ 2 ∧ a = none then
          (s.get (O.MDIO_COUNTS j) 1 + 1) % 2 ^ 64 else s.get (O.MDIO_COUNTS j) 1) ∧ u.out = [])

/-- Whatever the state and the operands, a command ends in a next state, never in a fault or a refusal: its effect,
its error answer, or nothing where what it tells of cannot happen. The waiting commands stay as they are, and the
power state too but for the four commands of power and SYS_RESET_N. On a device that does not run, any other command
does nothing but drop the outputs of the command before it. (01 R33, 14 R386, 14 R388.) -/
def Obligations.EveryCommandAnswersANextState : Prop :=
  ∀ (i : Instr) (s : State), ∃ t, exec i s = .next t ∧ t.pending = s.pending ∧
    (t.sys.power = s.sys.power ∨ i = .powerOn ∨ i = .powerLoss ∨ i = .sysResetAssert ∨ ∃ v, i = .sysResetRelease v) ∧
    (¬ Runs s → i = .powerOn ∨ i = .powerLoss ∨ i = .sysResetAssert ∨ (∃ v, i = .sysResetRelease v) ∨ t = fresh s)
end

