-- ==== Sys2Proof/Laws/Exec.lean ====
section
/-!
SUPPORT. Sys2Proof/Laws/Exec.lean: each command runs its own meaning: one lemma per arm, so that no proof unfolds `exec`.
-/
namespace Sys2Proof.Machine

theorem exec_read {p a off len s} : exec (.read p a off len) s = execRead p a off len s := rfl
theorem exec_readStaged {p a off len s} : exec (.readStaged p a off len) s = execReadStaged p a off len s := rfl
theorem exec_write {p a off data s} : exec (.write p a off data) s = execWrite p a off data s := rfl
theorem exec_writeStaged {p a off data s} : exec (.writeStaged p a off data) s = execWriteStaged p a off data s := rfl
theorem exec_discard {p data s} : exec (.discard p data) s = execDiscard p data s := rfl
theorem exec_commit {p bitmap s} : exec (.commit p bitmap) s = execCommit p bitmap s := rfl
theorem exec_lease {p data s} : exec (.lease p data) s = execLease p data s := rfl
theorem exec_release {p data s} : exec (.release p data) s = execRelease p data s := rfl
theorem exec_describe {p a s} : exec (.describe p a) s = execDescribe p a s := rfl
theorem exec_echo {p data s} : exec (.echo p data) s = execEcho p data s := rfl
theorem exec_commitValidationDone {g s} : exec (.commitValidationDone g) s = execCommitValidationDone g s := rfl
theorem exec_tileEpochFlip {t g s} : exec (.tileEpochFlip t g) s = execTileEpochFlip t g s := rfl
theorem exec_owOperationDone {w s} : exec (.owOperationDone w) s = execOwOperationDone w s := rfl
theorem exec_registerWrite {off wide a s} : exec (.registerWrite off wide a) s = execRegisterWrite off wide a s := rfl
theorem exec_hello {m f s} : exec (.hello m f) s = execHello m f s := rfl
theorem exec_open {m f s} : exec (.open_ m f) s = execOpen m f s := rfl
theorem exec_bolsyRequest {m f s} : exec (.bolsyRequest m f) s = execBolsyRequest m f s := rfl
theorem exec_bolsyClose {m f s} : exec (.bolsyClose m f) s = execBolsyClose m f s := rfl
theorem exec_sessionClose {p n s} : exec (.sessionClose p n) s = execSessionClose p n s := rfl
theorem exec_sessionIdleTimeout {n s} : exec (.sessionIdleTimeout n) s = execSessionIdleTimeout n s := rfl
theorem exec_leaseExpire {area s} : exec (.leaseExpire area) s = execLeaseExpire area s := rfl
theorem exec_bolsySecretRollover {s} : exec .bolsySecretRollover s = execBolsySecretRollover s := rfl
theorem exec_mgmtFrameReceive {m bytes s} : exec (.mgmtFrameReceive m bytes) s = execMgmtFrameReceive m bytes s := rfl
theorem exec_refclkLoss {n s} : exec (.refclkLoss n) s = execRefclkLoss n s := rfl
theorem exec_refclkHealthy {n s} : exec (.refclkHealthy n) s = execRefclkHealthy n s := rfl
theorem exec_txPllLock {b s} : exec (.txPllLock b) s = execTxPllLock b s := rfl
theorem exec_losAssert {l s} : exec (.losAssert l) s = execLosAssert l s := rfl
theorem exec_losDeassert {l s} : exec (.losDeassert l) s = execLosDeassert l s := rfl
theorem exec_trainingFrameReceive {l x s} : exec (.trainingFrameReceive l x) s = execTrainingFrameReceive l x s := rfl
theorem exec_trainPhaseBSwitch {l s} : exec (.trainPhaseBSwitch l) s = execTrainPhaseBSwitch l s := rfl
theorem exec_trainComplete {l s} : exec (.trainComplete l) s = execTrainComplete l s := rfl
theorem exec_trainTimeout {l s} : exec (.trainTimeout l) s = execTrainTimeout l s := rfl
theorem exec_markerLock {x s} : exec (.markerLock x) s = execMarkerLock x s := rfl
theorem exec_lockHoldComplete {l skewPs s} : exec (.lockHoldComplete l skewPs) s = execLockHoldComplete l skewPs s := rfl
theorem exec_lockTimeout {l s} : exec (.lockTimeout l) s = execLockTimeout l s := rfl
theorem exec_deskewFail {p skews s} : exec (.deskewFail p skews) s = execDeskewFail p skews s := rfl
theorem exec_exchangeBlockReceive {l caps s} : exec (.exchangeBlockReceive l caps) s = execExchangeBlockReceive l caps s := rfl
theorem exec_exchangeTimeout {l s} : exec (.exchangeTimeout l) s = execExchangeTimeout l s := rfl
theorem exec_lockLoss {l s} : exec (.lockLoss l) s = execLockLoss l s := rfl
theorem exec_partnerTrainingDetect {l s} : exec (.partnerTrainingDetect l) s = execPartnerTrainingDetect l s := rfl
theorem exec_retrain {p l s} : exec (.retrain p l) s = execRetrain p l s := rfl
theorem exec_adaptationFreeze {x s} : exec (.adaptationFreeze x) s = execAdaptationFreeze x s := rfl
theorem exec_adaptationThaw {x s} : exec (.adaptationThaw x) s = execAdaptationThaw x s := rfl
theorem exec_eyeScan {p l sel s} : exec (.eyeScan p l sel) s = execEyeScan p l sel s := rfl
theorem exec_eyeScanDone {l result s} : exec (.eyeScanDone l result) s = execEyeScanDone l result s := rfl
theorem exec_ffeLoad {p l taps s} : exec (.ffeLoad p l taps) s = execFfeLoad p l taps s := rfl
theorem exec_snrSupervision {l snr s} : exec (.snrSupervision l snr) s = execSnrSupervision l snr s := rfl
theorem exec_portUp {p egressLead s} : exec (.portUp p egressLead) s = execPortUp p egressLead s := rfl
theorem exec_portLeaveUp {p cause s} : exec (.portLeaveUp p cause) s = execPortLeaveUp p cause s := rfl
theorem exec_downHoldExpire {p s} : exec (.downHoldExpire p) s = execDownHoldExpire p s := rfl
theorem exec_frameReceive {p smd bytes s} : exec (.frameReceive p smd bytes) s = execFrameReceive p smd bytes s := rfl
theorem exec_frameReceiveEnd {p preemptable bytes rxError s} : exec (.frameReceiveEnd p preemptable bytes rxError) s = execFrameReceiveEnd p preemptable bytes rxError s := rfl
theorem exec_pauseFrameReceive {p bytes s} : exec (.pauseFrameReceive p bytes) s = execPauseFrameReceive p bytes s := rfl
theorem exec_pauseExpire {p prio s} : exec (.pauseExpire p prio) s = execPauseExpire p prio s := rfl
theorem exec_pfcRepeat {p high s} : exec (.pfcRepeat p high) s = execPfcRepeat p high s := rfl
theorem exec_pfcWatchdogTrip {p prio s} : exec (.pfcWatchdogTrip p prio) s = execPfcWatchdogTrip p prio s := rfl
theorem exec_pfcRecoverExpire {p prio s} : exec (.pfcRecoverExpire p prio) s = execPfcRecoverExpire p prio s := rfl
theorem exec_fecDegradeWindow {p bins uncorrectable symbols s} : exec (.fecDegradeWindow p bins uncorrectable symbols) s = execFecDegradeWindow p bins uncorrectable symbols s := rfl
theorem exec_verifyRequestReceive {p s} : exec (.verifyRequestReceive p) s = execVerifyRequestReceive p s := rfl
theorem exec_verifyResponseReceive {p s} : exec (.verifyResponseReceive p) s = execVerifyResponseReceive p s := rfl
theorem exec_verifyTimeout {p s} : exec (.verifyTimeout p) s = execVerifyTimeout p s := rfl
theorem exec_fragmentEnd {p sent s} : exec (.fragmentEnd p sent) s = execFragmentEnd p sent s := rfl
theorem exec_gateGuardCut {p data s} : exec (.gateGuardCut p data) s = execGateGuardCut p data s := rfl
theorem exec_dispatchPoint {p preemptable s} : exec (.dispatchPoint p preemptable) s = execDispatchPoint p preemptable s := rfl
theorem exec_coreDispatch {t s} : exec (.coreDispatch t) s = execCoreDispatch t s := rfl
theorem exec_arrivalStallEnd {t c bytes cycles s} : exec (.arrivalStallEnd t c bytes cycles) s = execArrivalStallEnd t c bytes cycles s := rfl
theorem exec_nop {t c s} : exec (.nop t c) s = execNop t c s := rfl
theorem exec_add {t c d a b s} : exec (.add t c d a b) s = execAdd t c d a b s := rfl
theorem exec_sub {t c d a b s} : exec (.sub t c d a b) s = execSub t c d a b s := rfl
theorem exec_and {t c d a b s} : exec (.and_ t c d a b) s = execAnd t c d a b s := rfl
theorem exec_or {t c d a b s} : exec (.or_ t c d a b) s = execOr t c d a b s := rfl
theorem exec_xor {t c d a b s} : exec (.xor_ t c d a b) s = execXor t c d a b s := rfl
theorem exec_shl {t c d a b s} : exec (.shl t c d a b) s = execShl t c d a b s := rfl
theorem exec_shr {t c d a b s} : exec (.shr t c d a b) s = execShr t c d a b s := rfl
theorem exec_movi {t c d imm s} : exec (.movi t c d imm) s = execMovi t c d imm s := rfl
theorem exec_movhi {t c d imm s} : exec (.movhi t c d imm) s = execMovhi t c d imm s := rfl
theorem exec_addi {t c d a imm s} : exec (.addi t c d a imm) s = execAddi t c d a imm s := rfl
theorem exec_andi {t c d a imm s} : exec (.andi t c d a imm) s = execAndi t c d a imm s := rfl
theorem exec_ori {t c d a imm s} : exec (.ori t c d a imm) s = execOri t c d a imm s := rfl
theorem exec_xori {t c d a imm s} : exec (.xori t c d a imm) s = execXori t c d a imm s := rfl
theorem exec_shli {t c d a amount s} : exec (.shli t c d a amount) s = execShli t c d a amount s := rfl
theorem exec_shri {t c d a amount s} : exec (.shri t c d a amount) s = execShri t c d a amount s := rfl
theorem exec_ext {t c d a pos lenM1 s} : exec (.ext t c d a pos lenM1) s = execExt t c d a pos lenM1 s := rfl
theorem exec_cmp {t c a b s} : exec (.cmp t c a b) s = execCmp t c a b s := rfl
theorem exec_cmpi {t c a imm s} : exec (.cmpi t c a imm) s = execCmpi t c a imm s := rfl
theorem exec_ldb {t c d addr s} : exec (.ldb t c d addr) s = execLdb t c d addr s := rfl
theorem exec_ldh {t c d addr s} : exec (.ldh t c d addr) s = execLdh t c d addr s := rfl
theorem exec_ldw {t c d addr s} : exec (.ldw t c d addr) s = execLdw t c d addr s := rfl
theorem exec_ldc {t c d size off s} : exec (.ldc t c d size off) s = execLdc t c d size off s := rfl
theorem exec_stc {t c r size off s} : exec (.stc t c r size off) s = execStc t c r size off s := rfl
theorem exec_bcc {t c cond target s} : exec (.bcc t c cond target) s = execBcc t c cond target s := rfl
theorem exec_call {t c target s} : exec (.call t c target) s = execCall t c target s := rfl
theorem exec_ret {t c s} : exec (.ret t c) s = execRet t c s := rfl
theorem exec_jr {t c a s} : exec (.jr t c a) s = execJr t c a s := rfl
theorem exec_hsy4 {t c d a s} : exec (.hsy4 t c d a) s = execHsy4 t c d a s := rfl
theorem exec_hsy6 {t c d a s} : exec (.hsy6 t c d a) s = execHsy6 t c d a s := rfl
theorem exec_hash {t c d a nM1 s} : exec (.hash t c d a nM1) s = execHash t c d a nM1 s := rfl
theorem exec_amb {t c start stop mask s} : exec (.amb t c start stop mask) s = execAmb t c start stop mask s := rfl
theorem exec_amw {t c d s} : exec (.amw t c d) s = execAmw t c d s := rfl
theorem exec_amberScanDone {t c queueStall s} : exec (.amberScanDone t c queueStall) s = execAmberScanDone t c queueStall s := rfl
theorem exec_mfs {t c d n s} : exec (.mfs t c d n) s = execMfs t c d n s := rfl
theorem exec_drop {t c code s} : exec (.drop t c code) s = execDrop t c code s := rfl
theorem exec_end {t c s} : exec (.end_ t c) s = execEnd t c s := rfl
theorem exec_budgetOverrun {t c s} : exec (.budgetOverrun t c) s = execBudgetOverrun t c s := rfl
theorem exec_reorderHandoff {t c waited s} : exec (.reorderHandoff t c waited) s = execReorderHandoff t c waited s := rfl
theorem exec_pmemScrub {t row found s} : exec (.pmemScrub t row found) s = execPmemScrub t row found s := rfl
theorem exec_amberScrub {t image row found s} : exec (.amberScrub t image row found) s = execAmberScrub t image row found s := rfl
theorem exec_matchStart {t p s} : exec (.matchStart t p) s = execMatchStart t p s := rfl
theorem exec_learnSighting {s} : exec .learnSighting s = execLearnSighting s := rfl
theorem exec_enqueue {t p s} : exec (.enqueue t p) s = execEnqueue t p s := rfl
theorem exec_insert {p n flags key action s} : exec (.insert p n flags key action) s = execInsert p n flags key action s := rfl
theorem exec_replace {p n flags key action s} : exec (.replace p n flags key action) s = execReplace p n flags key action s := rfl
theorem exec_delete {p n key s} : exec (.delete p n key) s = execDelete p n key s := rfl
theorem exec_entryRead {p n plen key s} : exec (.entryRead p n plen key) s = execEntryRead p n plen key s := rfl
theorem exec_probe {p n key s} : exec (.probe p n key) s = execProbe p n key s := rfl
theorem exec_prefixInsert {p n flags plen addr action s} : exec (.prefixInsert p n flags plen addr action) s = execPrefixInsert p n flags plen addr action s := rfl
theorem exec_prefixDelete {p n plen addr s} : exec (.prefixDelete p n plen addr) s = execPrefixDelete p n plen addr s := rfl
theorem exec_entryOpComplete {n s} : exec (.entryOpComplete n) s = execEntryOpComplete n s := rfl
theorem exec_stashWaitEnd {x clocks s} : exec (.stashWaitEnd x clocks) s = execStashWaitEnd x clocks s := rfl
theorem exec_stashRelease {x s} : exec (.stashRelease x) s = execStashRelease x s := rfl
theorem exec_ageTick {n s} : exec (.ageTick n) s = execAgeTick n s := rfl
theorem exec_ageScan {n s} : exec (.ageScan n) s = execAgeScan n s := rfl
theorem exec_ageDelete {n s} : exec (.ageDelete n) s = execAgeDelete n s := rfl
theorem exec_ageRefresh {x s} : exec (.ageRefresh x) s = execAgeRefresh x s := rfl
theorem exec_mamScrub {t row found s} : exec (.mamScrub t row found) s = execMamScrub t row found s := rfl
theorem exec_mamEntryRepair {t row s} : exec (.mamEntryRepair t row) s = execMamEntryRepair t row s := rfl
theorem exec_tableStoreScrub {x bucket slot found s} : exec (.tableStoreScrub x bucket slot found) s = execTableStoreScrub x bucket slot found s := rfl
theorem exec_levelEntryRebuild {bucket slot s} : exec (.levelEntryRebuild bucket slot) s = execLevelEntryRebuild bucket slot s := rfl
theorem exec_cacheFlush {p s} : exec (.cacheFlush p) s = execCacheFlush p s := rfl
theorem exec_tokenRelease {hw tok sender s} : exec (.tokenRelease hw tok sender) s = execTokenRelease hw tok sender s := rfl
theorem exec_cellReturnDone {h s} : exec (.cellReturnDone h) s = execCellReturnDone h s := rfl
theorem exec_holderAdd {hw tok m s} : exec (.holderAdd hw tok m) s = execHolderAdd hw tok m s := rfl
theorem exec_descriptorRead {p data s} : exec (.descriptorRead p data) s = execDescriptorRead p data s := rfl
theorem exec_orphanSweep {p s} : exec (.orphanSweep p) s = execOrphanSweep p s := rfl
theorem exec_orphanSweepTimeout {s} : exec .orphanSweepTimeout s = execOrphanSweepTimeout s := rfl
theorem exec_cellScrub {c found s} : exec (.cellScrub c found) s = execCellScrub c found s := rfl
theorem exec_descriptorScrub {w found s} : exec (.descriptorScrub w found) s = execDescriptorScrub w found s := rfl
theorem exec_bankIsolate {p k s} : exec (.bankIsolate p k) s = execBankIsolate p k s := rfl
theorem exec_remapCell {k s} : exec (.remapCell k) s = execRemapCell k s := rfl
theorem exec_bankRemapDone {k s} : exec (.bankRemapDone k) s = execBankRemapDone k s := rfl
theorem exec_bankRestore {p k s} : exec (.bankRestore p k) s = execBankRestore p k s := rfl
theorem exec_bankRestoreDone {k pass s} : exec (.bankRestoreDone k pass) s = execBankRestoreDone k pass s := rfl
theorem exec_snapshot {p s} : exec (.snapshot p) s = execSnapshot p s := rfl
theorem exec_pick {p preemptable s} : exec (.pick p preemptable) s = execPick p preemptable s := rfl
theorem exec_transmitEnd {p preemptable s} : exec (.transmitEnd p preemptable) s = execTransmitEnd p preemptable s := rfl
theorem exec_shaperTick {s} : exec .shaperTick s = execShaperTick s := rfl
theorem exec_policerRefresh {x s} : exec (.policerRefresh x) s = execPolicerRefresh x s := rfl
theorem exec_gateListStart {p s} : exec (.gateListStart p) s = execGateListStart p s := rfl
theorem exec_gateEntryStart {p s} : exec (.gateEntryStart p) s = execGateEntryStart p s := rfl
theorem exec_launchWindowMiss {p q s} : exec (.launchWindowMiss p q) s = execLaunchWindowMiss p q s := rfl
theorem exec_residenceCheck {q s} : exec (.residenceCheck q) s = execResidenceCheck q s := rfl
theorem exec_timeRefLoss {freqErr s} : exec (.timeRefLoss freqErr) s = execTimeRefLoss freqErr s := rfl
theorem exec_timeRefRecover {freqErr s} : exec (.timeRefRecover freqErr) s = execTimeRefRecover freqErr s := rfl
theorem exec_timeRefRampDone {s} : exec .timeRefRampDone s = execTimeRefRampDone s := rfl
theorem exec_tbSet {p n data s} : exec (.tbSet p n data) s = execTbSet p n data s := rfl
theorem exec_tbAdjust {p n data s} : exec (.tbAdjust p n data) s = execTbAdjust p n data s := rfl
theorem exec_tbRearmArm {p n s} : exec (.tbRearmArm p n) s = execTbRearmArm p n s := rfl
theorem exec_tbRearmTrack {p n s} : exec (.tbRearmTrack p n) s = execTbRearmTrack p n s := rfl
theorem exec_slewComplete {n s} : exec (.slewComplete n) s = execSlewComplete n s := rfl
theorem exec_ppsInEdge {s} : exec .ppsInEdge s = execPpsInEdge s := rfl
theorem exec_ppsInLoss {s} : exec .ppsInLoss s = execPpsInLoss s := rfl
theorem exec_ppsOutEdge {n s} : exec (.ppsOutEdge n) s = execPpsOutEdge n s := rfl
theorem exec_ppsOutPulseEnd {n s} : exec (.ppsOutPulseEnd n) s = execPpsOutPulseEnd n s := rfl
theorem exec_servoMeasure {n s} : exec (.servoMeasure n) s = execServoMeasure n s := rfl
theorem exec_timeSnapshot {p s} : exec (.timeSnapshot p) s = execTimeSnapshot p s := rfl
theorem exec_portSnapshot {p port s} : exec (.portSnapshot p port) s = execPortSnapshot p port s := rfl
theorem exec_matrixSwap {p s} : exec (.matrixSwap p) s = execMatrixSwap p s := rfl
theorem exec_matrixSwapDone {s} : exec .matrixSwapDone s = execMatrixSwapDone s := rfl
theorem exec_matrixClear {p s} : exec (.matrixClear p) s = execMatrixClear p s := rfl
theorem exec_matrixClearDone {s} : exec .matrixClearDone s = execMatrixClearDone s := rfl
theorem exec_flowScan {set s} : exec (.flowScan set) s = execFlowScan set s := rfl
theorem exec_flowFlush {p s} : exec (.flowFlush p) s = execFlowFlush p s := rfl
theorem exec_exportFlushTimeout {learn s} : exec (.exportFlushTimeout learn) s = execExportFlushTimeout learn s := rfl
theorem exec_ipfixTemplateTimer {s} : exec .ipfixTemplateTimer s = execIpfixTemplateTimer s := rfl
theorem exec_postcardFlushTimeout {t s} : exec (.postcardFlushTimeout t) s = execPostcardFlushTimeout t s := rfl
theorem exec_counterScrub {addr flow found s} : exec (.counterScrub addr flow found) s = execCounterScrub addr flow found s := rfl
theorem exec_chDoorbell {c v s} : exec (.chDoorbell c v) s = execChDoorbell c v s := rfl
theorem exec_chCmplAck {c v s} : exec (.chCmplAck c v) s = execChCmplAck c v s := rfl
theorem exec_channelEnable {c s} : exec (.channelEnable c) s = execChannelEnable c s := rfl
theorem exec_channelDisable {c s} : exec (.channelDisable c) s = execChannelDisable c s := rfl
theorem exec_channelResume {c s} : exec (.channelResume c) s = execChannelResume c s := rfl
theorem exec_channelDrainEnd {c s} : exec (.channelDrainEnd c) s = execChannelDrainEnd c s := rfl
theorem exec_descriptorPrefetch {c s} : exec (.descriptorPrefetch c) s = execDescriptorPrefetch c s := rfl
theorem exec_engineChannelPick {e s} : exec (.engineChannelPick e) s = execEngineChannelPick e s := rfl
theorem exec_packetToHostDescriptor {c s} : exec (.packetToHostDescriptor c) s = execPacketToHostDescriptor c s := rfl
theorem exec_hostToPacketDescriptor {c s} : exec (.hostToPacketDescriptor c) s = execHostToPacketDescriptor c s := rfl
theorem exec_tableLoadDescriptor {c s} : exec (.tableLoadDescriptor c) s = execTableLoadDescriptor c s := rfl
theorem exec_tableUnloadDescriptor {c s} : exec (.tableUnloadDescriptor c) s = execTableUnloadDescriptor c s := rfl
theorem exec_tableRecordsDescriptor {c s} : exec (.tableRecordsDescriptor c) s = execTableRecordsDescriptor c s := rfl
theorem exec_exportDescriptor {c s} : exec (.exportDescriptor c) s = execExportDescriptor c s := rfl
theorem exec_copyDescriptor {c s} : exec (.copyDescriptor c) s = execCopyDescriptor c s := rfl
theorem exec_linkDescriptor {c s} : exec (.linkDescriptor c) s = execLinkDescriptor c s := rfl
theorem exec_endDescriptor {c s} : exec (.endDescriptor c) s = execEndDescriptor c s := rfl
theorem exec_pcieReadCompletion {tag data s} : exec (.pcieReadCompletion tag data) s = execPcieReadCompletion tag data s := rfl
theorem exec_busError {tag kind s} : exec (.busError tag kind) s = execBusError tag kind s := rfl
theorem exec_notifyTimeout {c s} : exec (.notifyTimeout c) s = execNotifyTimeout c s := rfl
theorem exec_engineRestart {p e s} : exec (.engineRestart p e) s = execEngineRestart p e s := rfl
theorem exec_engineRestartDone {e s} : exec (.engineRestartDone e) s = execEngineRestartDone e s := rfl
theorem exec_pmFence {p s} : exec (.pmFence p) s = execPmFence p s := rfl
theorem exec_pmFenceDone {s} : exec .pmFenceDone s = execPmFenceDone s := rfl
theorem exec_legacyDoorbell {v s} : exec (.legacyDoorbell v) s = execLegacyDoorbell v s := rfl
theorem exec_pcieConventionalReset {s} : exec .pcieConventionalReset s = execPcieConventionalReset s := rfl
theorem exec_pcieHotReset {s} : exec .pcieHotReset s = execPcieHotReset s := rfl
theorem exec_functionLevelReset {s} : exec .functionLevelReset s = execFunctionLevelReset s := rfl
theorem exec_pcieLinkTrainingStart {s} : exec .pcieLinkTrainingStart s = execPcieLinkTrainingStart s := rfl
theorem exec_configRequest {q s} : exec (.configRequest q) s = execConfigRequest q s := rfl
theorem exec_msixDeliverable {t s} : exec (.msixDeliverable t) s = execMsixDeliverable t s := rfl
theorem exec_sourceDoorbell {s} : exec .sourceDoorbell s = execSourceDoorbell s := rfl
theorem exec_irqDoorbell {v s} : exec (.irqDoorbell v) s = execIrqDoorbell v s := rfl
theorem exec_irqRaise {p v s} : exec (.irqRaise p v) s = execIrqRaise p v s := rfl
theorem exec_deliveryMessage {t s} : exec (.deliveryMessage t) s = execDeliveryMessage t s := rfl
theorem exec_irqClaim {t s} : exec (.irqClaim t) s = execIrqClaim t s := rfl
theorem exec_irqComplete {t v s} : exec (.irqComplete t v) s = execIrqComplete t v s := rfl
theorem exec_irqStackReset {t v s} : exec (.irqStackReset t v) s = execIrqStackReset t v s := rfl
theorem exec_stackReset {p t s} : exec (.stackReset p t) s = execStackReset p t s := rfl
theorem exec_irqMaskWrite {w v s} : exec (.irqMaskWrite w v) s = execIrqMaskWrite w v s := rfl
theorem exec_irqPendingWrite {w v s} : exec (.irqPendingWrite w v) s = execIrqPendingWrite w v s := rfl
theorem exec_irqPendingRead {w s} : exec (.irqPendingRead w) s = execIrqPendingRead w s := rfl
theorem exec_srcWithdraw {p n s} : exec (.srcWithdraw p n) s = execSrcWithdraw p n s := rfl
theorem exec_deliveryTimeout {n s} : exec (.deliveryTimeout n) s = execDeliveryTimeout n s := rfl
theorem exec_faultReport {seen s} : exec (.faultReport seen) s = execFaultReport s seen := rfl
theorem exec_recordPublish {s} : exec .recordPublish s = execRecordPublish s := rfl
theorem exec_faultWindowExpire {n s} : exec (.faultWindowExpire n) s = execFaultWindowExpire n s := rfl
theorem exec_reactionTimeout {n s} : exec (.reactionTimeout n) s = execReactionTimeout n s := rfl
theorem exec_quietExpire {n s} : exec (.quietExpire n) s = execQuietExpire n s := rfl
theorem exec_faultAck {p n s} : exec (.faultAck p n) s = execFaultAck p n s := rfl
theorem exec_faultInjectEccSingle {p n unit addr s} : exec (.faultInjectEccSingle p n unit addr) s = execFaultInjectEccSingle p n unit addr s := rfl
theorem exec_faultInjectEccDouble {p n unit addr s} : exec (.faultInjectEccDouble p n unit addr) s = execFaultInjectEccDouble p n unit addr s := rfl
theorem exec_faultInjectParity {p n unit addr s} : exec (.faultInjectParity p n unit addr) s = execFaultInjectParity p n unit addr s := rfl
theorem exec_faultInjectReport {p n unit addr s} : exec (.faultInjectReport p n unit addr) s = execFaultInjectReport p n unit addr s := rfl
theorem exec_powerOn {s} : exec .powerOn s = execPowerOn s := rfl
theorem exec_powerLoss {s} : exec .powerLoss s = execPowerLoss s := rfl
theorem exec_sysResetAssert {s} : exec .sysResetAssert s = execSysResetAssert s := rfl
theorem exec_sysResetRelease {straps s} : exec (.sysResetRelease straps) s = execSysResetRelease straps s := rfl
theorem exec_arrayInitDone {fusedMv s} : exec (.arrayInitDone fusedMv) s = execArrayInitDone fusedMv s := rfl
theorem exec_bootRomVerify {s} : exec .bootRomVerify s = execBootRomVerify s := rfl
theorem exec_firmwareStart {s} : exec .firmwareStart s = execFirmwareStart s := rfl
theorem exec_avsStep {targetMv s} : exec (.avsStep targetMv) s = execAvsStep targetMv s := rfl
theorem exec_avsTimeout {s} : exec .avsTimeout s = execAvsTimeout s := rfl
theorem exec_tileReload {p t s} : exec (.tileReload p t) s = execTileReload p t s := rfl
theorem exec_tilePale {t s} : exec (.tilePale t) s = execTilePale t s := rfl
theorem exec_fwVerify {p s} : exec (.fwVerify p) s = execFwVerify p s := rfl
theorem exec_fwActivate {p s} : exec (.fwActivate p) s = execFwActivate p s := rfl
theorem exec_fwReady {s} : exec .fwReady s = execFwReady s := rfl
theorem exec_fwRevert {s} : exec .fwRevert s = execFwRevert s := rfl
theorem exec_fwStore {p data s} : exec (.fwStore p data) s = execFwStore p data s := rfl
theorem exec_startupStore {p s} : exec (.startupStore p) s = execStartupStore p s := rfl
theorem exec_slateWatchdogExpire {n pc s} : exec (.slateWatchdogExpire n pc) s = execSlateWatchdogExpire n pc s := rfl
theorem exec_tempSample {n sixteenths s} : exec (.tempSample n sixteenths) s = execTempSample n sixteenths s := rfl
theorem exec_twXfer {p n data s} : exec (.twXfer p n data) s = execTwXfer p n data s := rfl
theorem exec_twXferDone {n cause recovered written data s} : exec (.twXferDone n cause recovered written data) s = execTwXferDone n cause recovered written data s := rfl
theorem exec_mdioRead {p j clause45 port dev s} : exec (.mdioRead p j clause45 port dev) s = execMdioRead p j clause45 port dev s := rfl
theorem exec_mdioWrite {p j clause45 port dev v s} : exec (.mdioWrite p j clause45 port dev v) s = execMdioWrite p j clause45 port dev v s := rfl
theorem exec_mdioAddress {p j port dev v s} : exec (.mdioAddress p j port dev v) s = execMdioAddress p j port dev v s := rfl
theorem exec_mdioReadIncrement {p j port dev s} : exec (.mdioReadIncrement p j port dev) s = execMdioReadIncrement p j port dev s := rfl
theorem exec_mdioXferDone {j answer s} : exec (.mdioXferDone j answer) s = execMdioXferDone j answer s := rfl
theorem exec_diagUnlock {p data s} : exec (.diagUnlock p data) s = execDiagUnlock p data s := rfl
theorem exec_dieToDieLinkLoss {b linkLanes s} : exec (.dieToDieLinkLoss b linkLanes) s = execDieToDieLinkLoss b linkLanes s := rfl
theorem exec_orphanSweepDone {s} : exec .orphanSweepDone s = execOrphanSweepDone s := rfl
theorem exec_fwStoreDone {s} : exec .fwStoreDone s = execFwStoreDone s := rfl
theorem exec_startupStoreDone {s} : exec .startupStoreDone s = execStartupStoreDone s := rfl
theorem exec_slateMemoryUe {n s} : exec (.slateMemoryUe n) s = execSlateMemoryUe n s := rfl
theorem exec_pcieLinkUp {speed width s} : exec (.pcieLinkUp speed width) s = execPcieLinkUp speed width s := rfl

end Sys2Proof.Machine
end

