-- ==== Sys2Proof/Laws/Fault.lean ====
section
/-!
SUPPORT. Sys2Proof/Laws/Fault.lean: what arming, damage, repair and the checkers of R382 and R383 change.
-/
namespace Sys2Proof.Machine

/-- The armings that stand after one word's has ended. -/
theorem State.mem_disarm (s : State) (c a : Nat) (x : Armed) :
    x ∈ (s.disarm c a).faults.armed ↔ x ∈ s.faults.armed ∧ x.at_ ≠ some (c, a) := by
  simp [State.disarm]

/-- The damage that is left after a word has been written or repaired. -/
theorem State.mem_mend (s : State) (c a : Nat) (d : Damage) :
    d ∈ (s.mend c a).faults.damage ↔ d ∈ s.faults.damage ∧ ¬ (d.source = c ∧ d.addr = a) := by
  simp [State.mend, State.disarm, and_comm]
  tauto

/-- Ending an arming changes nothing but the armings. -/
theorem State.disarm_eq (s : State) (c a : Nat) :
    s.disarm c a = { s with faults := { s.faults with armed := (s.disarm c a).faults.armed } } := rfl

/-- A repair changes nothing but armings and damage. -/
theorem State.mend_eq (s : State) (c a : Nat) : s.mend c a = { s with faults := { s.faults with
    armed := (s.mend c a).faults.armed, damage := (s.mend c a).faults.damage } } := rfl

@[simp] theorem State.slateDown_dict (s : State) (k : Nat) : (s.slateDown k).dict = s.dict := rfl
@[simp] theorem State.slateDown_faults (s : State) (k : Nat) : (s.slateDown k).faults = s.faults := rfl
@[simp] theorem State.aerSeen_dict (s : State) (u : Bool) (v : Nat) : (s.aerSeen u v).dict = s.dict := rfl
@[simp] theorem State.aerSeen_faults (s : State) (u : Bool) (v : Nat) : (s.aerSeen u v).faults = s.faults := rfl
@[simp] theorem State.aerSeen_sys (s : State) (u : Bool) (v : Nat) : (s.aerSeen u v).sys = s.sys := rfl

end Sys2Proof.Machine
end

