-- ==== Sys2Proof/Laws/State.lean ====
section
/-!
SUPPORT. Sys2Proof/Laws/State.lean: what each update of a part of the state leaves unchanged, one lemma per field.
-/
namespace Sys2Proof.Machine

@[simp] theorem State.setK_pending (s : State) (k : OKey) (v : Nat) : (s.setK k v).pending = s.pending := rfl
@[simp] theorem State.setK_out (s : State) (k : OKey) (v : Nat) : (s.setK k v).out = s.out := rfl
@[simp] theorem State.setK_free (s : State) (k : OKey) (v : Nat) : (s.setK k v).free = s.free := rfl
@[simp] theorem State.setK_lanes (s : State) (k : OKey) (v : Nat) : (s.setK k v).lanes = s.lanes := rfl
@[simp] theorem State.setK_ports (s : State) (k : OKey) (v : Nat) : (s.setK k v).ports = s.ports := rfl
@[simp] theorem State.setK_gates (s : State) (k : OKey) (v : Nat) : (s.setK k v).gates = s.gates := rfl
@[simp] theorem State.setK_cores (s : State) (k : OKey) (v : Nat) : (s.setK k v).cores = s.cores := rfl
@[simp] theorem State.setK_tiles (s : State) (k : OKey) (v : Nat) : (s.setK k v).tiles = s.tiles := rfl
@[simp] theorem State.setK_lookup (s : State) (k : OKey) (v : Nat) : (s.setK k v).lookup = s.lookup := rfl
@[simp] theorem State.setK_buf (s : State) (k : OKey) (v : Nat) : (s.setK k v).buf = s.buf := rfl
@[simp] theorem State.setK_buckets (s : State) (k : OKey) (v : Nat) : (s.setK k v).buckets = s.buckets := rfl
@[simp] theorem State.setK_time (s : State) (k : OKey) (v : Nat) : (s.setK k v).time = s.time := rfl
@[simp] theorem State.setK_ledger (s : State) (k : OKey) (v : Nat) : (s.setK k v).ledger = s.ledger := rfl
@[simp] theorem State.setK_host (s : State) (k : OKey) (v : Nat) : (s.setK k v).host = s.host := rfl
@[simp] theorem State.setK_irq (s : State) (k : OKey) (v : Nat) : (s.setK k v).irq = s.irq := rfl
@[simp] theorem State.setK_faults (s : State) (k : OKey) (v : Nat) : (s.setK k v).faults = s.faults := rfl
@[simp] theorem State.setK_sys (s : State) (k : OKey) (v : Nat) : (s.setK k v).sys = s.sys := rfl
@[simp] theorem State.setK_dict_shadow (s : State) (k : OKey) (v : Nat) : (s.setK k v).dict.shadow = s.dict.shadow := rfl
@[simp] theorem State.setK_dict_cmds (s : State) (k : OKey) (v : Nat) : (s.setK k v).dict.cmds = s.dict.cmds := rfl
@[simp] theorem State.setK_dict_commits (s : State) (k : OKey) (v : Nat) : (s.setK k v).dict.commits = s.dict.commits := rfl
@[simp] theorem State.setK_dict_nextId (s : State) (k : OKey) (v : Nat) : (s.setK k v).dict.nextId = s.dict.nextId := rfl
@[simp] theorem State.setK_dict_wins (s : State) (k : OKey) (v : Nat) : (s.setK k v).dict.wins = s.dict.wins := rfl
@[simp] theorem State.setK_dict_winOrder (s : State) (k : OKey) (v : Nat) : (s.setK k v).dict.winOrder = s.dict.winOrder := rfl
@[simp] theorem State.setK_dict_sessions (s : State) (k : OKey) (v : Nat) : (s.setK k v).dict.sessions = s.dict.sessions := rfl
@[simp] theorem State.setK_dict_secretNow (s : State) (k : OKey) (v : Nat) : (s.setK k v).dict.secretNow = s.dict.secretNow := rfl
@[simp] theorem State.setK_dict_secretOld (s : State) (k : OKey) (v : Nat) : (s.setK k v).dict.secretOld = s.dict.secretOld := rfl
@[simp] theorem State.setK_dict_hellos (s : State) (k : OKey) (v : Nat) : (s.setK k v).dict.hellos = s.dict.hellos := rfl
@[simp] theorem State.setK_dict_authSec (s : State) (k : OKey) (v : Nat) : (s.setK k v).dict.authSec = s.dict.authSec := rfl
@[simp] theorem State.setK_dict_held (s : State) (k : OKey) (v : Nat) : (s.setK k v).dict.held = s.dict.held := rfl
@[simp] theorem State.setK_dict_leases (s : State) (k : OKey) (v : Nat) : (s.setK k v).dict.leases = s.dict.leases := rfl
@[simp] theorem State.setK_dict_busyTabs (s : State) (k : OKey) (v : Nat) : (s.setK k v).dict.busyTabs = s.dict.busyTabs := rfl
@[simp] theorem State.setK_dict_startup (s : State) (k : OKey) (v : Nat) : (s.setK k v).dict.startup = s.dict.startup := rfl

@[simp] theorem State.set_pending (s : State) (r : Ref) (v e : Nat) : (s.set r v e).pending = s.pending := rfl
@[simp] theorem State.set_out (s : State) (r : Ref) (v e : Nat) : (s.set r v e).out = s.out := rfl
@[simp] theorem State.set_free (s : State) (r : Ref) (v e : Nat) : (s.set r v e).free = s.free := rfl
@[simp] theorem State.set_lanes (s : State) (r : Ref) (v e : Nat) : (s.set r v e).lanes = s.lanes := rfl
@[simp] theorem State.set_ports (s : State) (r : Ref) (v e : Nat) : (s.set r v e).ports = s.ports := rfl
@[simp] theorem State.set_gates (s : State) (r : Ref) (v e : Nat) : (s.set r v e).gates = s.gates := rfl
@[simp] theorem State.set_cores (s : State) (r : Ref) (v e : Nat) : (s.set r v e).cores = s.cores := rfl
@[simp] theorem State.set_tiles (s : State) (r : Ref) (v e : Nat) : (s.set r v e).tiles = s.tiles := rfl
@[simp] theorem State.set_lookup (s : State) (r : Ref) (v e : Nat) : (s.set r v e).lookup = s.lookup := rfl
@[simp] theorem State.set_buf (s : State) (r : Ref) (v e : Nat) : (s.set r v e).buf = s.buf := rfl
@[simp] theorem State.set_buckets (s : State) (r : Ref) (v e : Nat) : (s.set r v e).buckets = s.buckets := rfl
@[simp] theorem State.set_time (s : State) (r : Ref) (v e : Nat) : (s.set r v e).time = s.time := rfl
@[simp] theorem State.set_ledger (s : State) (r : Ref) (v e : Nat) : (s.set r v e).ledger = s.ledger := rfl
@[simp] theorem State.set_host (s : State) (r : Ref) (v e : Nat) : (s.set r v e).host = s.host := rfl
@[simp] theorem State.set_irq (s : State) (r : Ref) (v e : Nat) : (s.set r v e).irq = s.irq := rfl
@[simp] theorem State.set_faults (s : State) (r : Ref) (v e : Nat) : (s.set r v e).faults = s.faults := rfl
@[simp] theorem State.set_sys (s : State) (r : Ref) (v e : Nat) : (s.set r v e).sys = s.sys := rfl
@[simp] theorem State.set_dict_shadow (s : State) (r : Ref) (v e : Nat) : (s.set r v e).dict.shadow = s.dict.shadow := rfl
@[simp] theorem State.set_dict_cmds (s : State) (r : Ref) (v e : Nat) : (s.set r v e).dict.cmds = s.dict.cmds := rfl
@[simp] theorem State.set_dict_commits (s : State) (r : Ref) (v e : Nat) : (s.set r v e).dict.commits = s.dict.commits := rfl
@[simp] theorem State.set_dict_nextId (s : State) (r : Ref) (v e : Nat) : (s.set r v e).dict.nextId = s.dict.nextId := rfl
@[simp] theorem State.set_dict_wins (s : State) (r : Ref) (v e : Nat) : (s.set r v e).dict.wins = s.dict.wins := rfl
@[simp] theorem State.set_dict_winOrder (s : State) (r : Ref) (v e : Nat) : (s.set r v e).dict.winOrder = s.dict.winOrder := rfl
@[simp] theorem State.set_dict_sessions (s : State) (r : Ref) (v e : Nat) : (s.set r v e).dict.sessions = s.dict.sessions := rfl
@[simp] theorem State.set_dict_secretNow (s : State) (r : Ref) (v e : Nat) : (s.set r v e).dict.secretNow = s.dict.secretNow := rfl
@[simp] theorem State.set_dict_secretOld (s : State) (r : Ref) (v e : Nat) : (s.set r v e).dict.secretOld = s.dict.secretOld := rfl
@[simp] theorem State.set_dict_hellos (s : State) (r : Ref) (v e : Nat) : (s.set r v e).dict.hellos = s.dict.hellos := rfl
@[simp] theorem State.set_dict_authSec (s : State) (r : Ref) (v e : Nat) : (s.set r v e).dict.authSec = s.dict.authSec := rfl
@[simp] theorem State.set_dict_held (s : State) (r : Ref) (v e : Nat) : (s.set r v e).dict.held = s.dict.held := rfl
@[simp] theorem State.set_dict_leases (s : State) (r : Ref) (v e : Nat) : (s.set r v e).dict.leases = s.dict.leases := rfl
@[simp] theorem State.set_dict_busyTabs (s : State) (r : Ref) (v e : Nat) : (s.set r v e).dict.busyTabs = s.dict.busyTabs := rfl
@[simp] theorem State.set_dict_startup (s : State) (r : Ref) (v e : Nat) : (s.set r v e).dict.startup = s.dict.startup := rfl

@[simp] theorem State.count64_pending (s : State) (r : Ref) (n e : Nat) : (s.count64 r n e).pending = s.pending := rfl
@[simp] theorem State.count64_out (s : State) (r : Ref) (n e : Nat) : (s.count64 r n e).out = s.out := rfl
@[simp] theorem State.count64_free (s : State) (r : Ref) (n e : Nat) : (s.count64 r n e).free = s.free := rfl
@[simp] theorem State.count64_lanes (s : State) (r : Ref) (n e : Nat) : (s.count64 r n e).lanes = s.lanes := rfl
@[simp] theorem State.count64_ports (s : State) (r : Ref) (n e : Nat) : (s.count64 r n e).ports = s.ports := rfl
@[simp] theorem State.count64_gates (s : State) (r : Ref) (n e : Nat) : (s.count64 r n e).gates = s.gates := rfl
@[simp] theorem State.count64_cores (s : State) (r : Ref) (n e : Nat) : (s.count64 r n e).cores = s.cores := rfl
@[simp] theorem State.count64_tiles (s : State) (r : Ref) (n e : Nat) : (s.count64 r n e).tiles = s.tiles := rfl
@[simp] theorem State.count64_lookup (s : State) (r : Ref) (n e : Nat) : (s.count64 r n e).lookup = s.lookup := rfl
@[simp] theorem State.count64_buf (s : State) (r : Ref) (n e : Nat) : (s.count64 r n e).buf = s.buf := rfl
@[simp] theorem State.count64_buckets (s : State) (r : Ref) (n e : Nat) : (s.count64 r n e).buckets = s.buckets := rfl
@[simp] theorem State.count64_time (s : State) (r : Ref) (n e : Nat) : (s.count64 r n e).time = s.time := rfl
@[simp] theorem State.count64_ledger (s : State) (r : Ref) (n e : Nat) : (s.count64 r n e).ledger = s.ledger := rfl
@[simp] theorem State.count64_host (s : State) (r : Ref) (n e : Nat) : (s.count64 r n e).host = s.host := rfl
@[simp] theorem State.count64_irq (s : State) (r : Ref) (n e : Nat) : (s.count64 r n e).irq = s.irq := rfl
@[simp] theorem State.count64_faults (s : State) (r : Ref) (n e : Nat) : (s.count64 r n e).faults = s.faults := rfl
@[simp] theorem State.count64_sys (s : State) (r : Ref) (n e : Nat) : (s.count64 r n e).sys = s.sys := rfl
@[simp] theorem State.count64_dict_shadow (s : State) (r : Ref) (n e : Nat) : (s.count64 r n e).dict.shadow = s.dict.shadow := rfl
@[simp] theorem State.count64_dict_cmds (s : State) (r : Ref) (n e : Nat) : (s.count64 r n e).dict.cmds = s.dict.cmds := rfl
@[simp] theorem State.count64_dict_commits (s : State) (r : Ref) (n e : Nat) : (s.count64 r n e).dict.commits = s.dict.commits := rfl
@[simp] theorem State.count64_dict_nextId (s : State) (r : Ref) (n e : Nat) : (s.count64 r n e).dict.nextId = s.dict.nextId := rfl
@[simp] theorem State.count64_dict_wins (s : State) (r : Ref) (n e : Nat) : (s.count64 r n e).dict.wins = s.dict.wins := rfl
@[simp] theorem State.count64_dict_winOrder (s : State) (r : Ref) (n e : Nat) : (s.count64 r n e).dict.winOrder = s.dict.winOrder := rfl
@[simp] theorem State.count64_dict_sessions (s : State) (r : Ref) (n e : Nat) : (s.count64 r n e).dict.sessions = s.dict.sessions := rfl
@[simp] theorem State.count64_dict_secretNow (s : State) (r : Ref) (n e : Nat) : (s.count64 r n e).dict.secretNow = s.dict.secretNow := rfl
@[simp] theorem State.count64_dict_secretOld (s : State) (r : Ref) (n e : Nat) : (s.count64 r n e).dict.secretOld = s.dict.secretOld := rfl
@[simp] theorem State.count64_dict_hellos (s : State) (r : Ref) (n e : Nat) : (s.count64 r n e).dict.hellos = s.dict.hellos := rfl
@[simp] theorem State.count64_dict_authSec (s : State) (r : Ref) (n e : Nat) : (s.count64 r n e).dict.authSec = s.dict.authSec := rfl
@[simp] theorem State.count64_dict_held (s : State) (r : Ref) (n e : Nat) : (s.count64 r n e).dict.held = s.dict.held := rfl
@[simp] theorem State.count64_dict_leases (s : State) (r : Ref) (n e : Nat) : (s.count64 r n e).dict.leases = s.dict.leases := rfl
@[simp] theorem State.count64_dict_busyTabs (s : State) (r : Ref) (n e : Nat) : (s.count64 r n e).dict.busyTabs = s.dict.busyTabs := rfl
@[simp] theorem State.count64_dict_startup (s : State) (r : Ref) (n e : Nat) : (s.count64 r n e).dict.startup = s.dict.startup := rfl

@[simp] theorem State.count32_pending (s : State) (r : Ref) (n e : Nat) : (s.count32 r n e).pending = s.pending := rfl
@[simp] theorem State.count32_out (s : State) (r : Ref) (n e : Nat) : (s.count32 r n e).out = s.out := rfl
@[simp] theorem State.count32_free (s : State) (r : Ref) (n e : Nat) : (s.count32 r n e).free = s.free := rfl
@[simp] theorem State.count32_lanes (s : State) (r : Ref) (n e : Nat) : (s.count32 r n e).lanes = s.lanes := rfl
@[simp] theorem State.count32_ports (s : State) (r : Ref) (n e : Nat) : (s.count32 r n e).ports = s.ports := rfl
@[simp] theorem State.count32_gates (s : State) (r : Ref) (n e : Nat) : (s.count32 r n e).gates = s.gates := rfl
@[simp] theorem State.count32_cores (s : State) (r : Ref) (n e : Nat) : (s.count32 r n e).cores = s.cores := rfl
@[simp] theorem State.count32_tiles (s : State) (r : Ref) (n e : Nat) : (s.count32 r n e).tiles = s.tiles := rfl
@[simp] theorem State.count32_lookup (s : State) (r : Ref) (n e : Nat) : (s.count32 r n e).lookup = s.lookup := rfl
@[simp] theorem State.count32_buf (s : State) (r : Ref) (n e : Nat) : (s.count32 r n e).buf = s.buf := rfl
@[simp] theorem State.count32_buckets (s : State) (r : Ref) (n e : Nat) : (s.count32 r n e).buckets = s.buckets := rfl
@[simp] theorem State.count32_time (s : State) (r : Ref) (n e : Nat) : (s.count32 r n e).time = s.time := rfl
@[simp] theorem State.count32_ledger (s : State) (r : Ref) (n e : Nat) : (s.count32 r n e).ledger = s.ledger := rfl
@[simp] theorem State.count32_host (s : State) (r : Ref) (n e : Nat) : (s.count32 r n e).host = s.host := rfl
@[simp] theorem State.count32_irq (s : State) (r : Ref) (n e : Nat) : (s.count32 r n e).irq = s.irq := rfl
@[simp] theorem State.count32_faults (s : State) (r : Ref) (n e : Nat) : (s.count32 r n e).faults = s.faults := rfl
@[simp] theorem State.count32_sys (s : State) (r : Ref) (n e : Nat) : (s.count32 r n e).sys = s.sys := rfl
@[simp] theorem State.count32_dict_shadow (s : State) (r : Ref) (n e : Nat) : (s.count32 r n e).dict.shadow = s.dict.shadow := rfl
@[simp] theorem State.count32_dict_cmds (s : State) (r : Ref) (n e : Nat) : (s.count32 r n e).dict.cmds = s.dict.cmds := rfl
@[simp] theorem State.count32_dict_commits (s : State) (r : Ref) (n e : Nat) : (s.count32 r n e).dict.commits = s.dict.commits := rfl
@[simp] theorem State.count32_dict_nextId (s : State) (r : Ref) (n e : Nat) : (s.count32 r n e).dict.nextId = s.dict.nextId := rfl
@[simp] theorem State.count32_dict_wins (s : State) (r : Ref) (n e : Nat) : (s.count32 r n e).dict.wins = s.dict.wins := rfl
@[simp] theorem State.count32_dict_winOrder (s : State) (r : Ref) (n e : Nat) : (s.count32 r n e).dict.winOrder = s.dict.winOrder := rfl
@[simp] theorem State.count32_dict_sessions (s : State) (r : Ref) (n e : Nat) : (s.count32 r n e).dict.sessions = s.dict.sessions := rfl
@[simp] theorem State.count32_dict_secretNow (s : State) (r : Ref) (n e : Nat) : (s.count32 r n e).dict.secretNow = s.dict.secretNow := rfl
@[simp] theorem State.count32_dict_secretOld (s : State) (r : Ref) (n e : Nat) : (s.count32 r n e).dict.secretOld = s.dict.secretOld := rfl
@[simp] theorem State.count32_dict_hellos (s : State) (r : Ref) (n e : Nat) : (s.count32 r n e).dict.hellos = s.dict.hellos := rfl
@[simp] theorem State.count32_dict_authSec (s : State) (r : Ref) (n e : Nat) : (s.count32 r n e).dict.authSec = s.dict.authSec := rfl
@[simp] theorem State.count32_dict_held (s : State) (r : Ref) (n e : Nat) : (s.count32 r n e).dict.held = s.dict.held := rfl
@[simp] theorem State.count32_dict_leases (s : State) (r : Ref) (n e : Nat) : (s.count32 r n e).dict.leases = s.dict.leases := rfl
@[simp] theorem State.count32_dict_busyTabs (s : State) (r : Ref) (n e : Nat) : (s.count32 r n e).dict.busyTabs = s.dict.busyTabs := rfl
@[simp] theorem State.count32_dict_startup (s : State) (r : Ref) (n e : Nat) : (s.count32 r n e).dict.startup = s.dict.startup := rfl

@[simp] theorem State.emit_pending (s : State) (o : Output) : (s.emit o).pending = s.pending := rfl
@[simp] theorem State.emit_free (s : State) (o : Output) : (s.emit o).free = s.free := rfl
@[simp] theorem State.emit_dict (s : State) (o : Output) : (s.emit o).dict = s.dict := rfl
@[simp] theorem State.emit_lanes (s : State) (o : Output) : (s.emit o).lanes = s.lanes := rfl
@[simp] theorem State.emit_ports (s : State) (o : Output) : (s.emit o).ports = s.ports := rfl
@[simp] theorem State.emit_gates (s : State) (o : Output) : (s.emit o).gates = s.gates := rfl
@[simp] theorem State.emit_cores (s : State) (o : Output) : (s.emit o).cores = s.cores := rfl
@[simp] theorem State.emit_tiles (s : State) (o : Output) : (s.emit o).tiles = s.tiles := rfl
@[simp] theorem State.emit_lookup (s : State) (o : Output) : (s.emit o).lookup = s.lookup := rfl
@[simp] theorem State.emit_buf (s : State) (o : Output) : (s.emit o).buf = s.buf := rfl
@[simp] theorem State.emit_buckets (s : State) (o : Output) : (s.emit o).buckets = s.buckets := rfl
@[simp] theorem State.emit_time (s : State) (o : Output) : (s.emit o).time = s.time := rfl
@[simp] theorem State.emit_ledger (s : State) (o : Output) : (s.emit o).ledger = s.ledger := rfl
@[simp] theorem State.emit_host (s : State) (o : Output) : (s.emit o).host = s.host := rfl
@[simp] theorem State.emit_irq (s : State) (o : Output) : (s.emit o).irq = s.irq := rfl
@[simp] theorem State.emit_faults (s : State) (o : Output) : (s.emit o).faults = s.faults := rfl
@[simp] theorem State.emit_sys (s : State) (o : Output) : (s.emit o).sys = s.sys := rfl

@[simp] theorem State.raise_pending (s : State) (n : Nat) : (s.raise n).pending = s.pending := rfl
@[simp] theorem State.raise_out (s : State) (n : Nat) : (s.raise n).out = s.out := rfl
@[simp] theorem State.raise_free (s : State) (n : Nat) : (s.raise n).free = s.free := rfl
@[simp] theorem State.raise_dict (s : State) (n : Nat) : (s.raise n).dict = s.dict := rfl
@[simp] theorem State.raise_lanes (s : State) (n : Nat) : (s.raise n).lanes = s.lanes := rfl
@[simp] theorem State.raise_ports (s : State) (n : Nat) : (s.raise n).ports = s.ports := rfl
@[simp] theorem State.raise_gates (s : State) (n : Nat) : (s.raise n).gates = s.gates := rfl
@[simp] theorem State.raise_cores (s : State) (n : Nat) : (s.raise n).cores = s.cores := rfl
@[simp] theorem State.raise_tiles (s : State) (n : Nat) : (s.raise n).tiles = s.tiles := rfl
@[simp] theorem State.raise_lookup (s : State) (n : Nat) : (s.raise n).lookup = s.lookup := rfl
@[simp] theorem State.raise_buf (s : State) (n : Nat) : (s.raise n).buf = s.buf := rfl
@[simp] theorem State.raise_buckets (s : State) (n : Nat) : (s.raise n).buckets = s.buckets := rfl
@[simp] theorem State.raise_time (s : State) (n : Nat) : (s.raise n).time = s.time := rfl
@[simp] theorem State.raise_ledger (s : State) (n : Nat) : (s.raise n).ledger = s.ledger := rfl
@[simp] theorem State.raise_host (s : State) (n : Nat) : (s.raise n).host = s.host := rfl
@[simp] theorem State.raise_faults (s : State) (n : Nat) : (s.raise n).faults = s.faults := rfl
@[simp] theorem State.raise_sys (s : State) (n : Nat) : (s.raise n).sys = s.sys := rfl

@[simp] theorem State.reportR_pending (s : State) (r : Report) : (s.reportR r).pending = s.pending := rfl
@[simp] theorem State.reportR_out (s : State) (r : Report) : (s.reportR r).out = s.out := rfl
@[simp] theorem State.reportR_free (s : State) (r : Report) : (s.reportR r).free = s.free := rfl
@[simp] theorem State.reportR_dict (s : State) (r : Report) : (s.reportR r).dict = s.dict := rfl
@[simp] theorem State.reportR_lanes (s : State) (r : Report) : (s.reportR r).lanes = s.lanes := rfl
@[simp] theorem State.reportR_ports (s : State) (r : Report) : (s.reportR r).ports = s.ports := rfl
@[simp] theorem State.reportR_gates (s : State) (r : Report) : (s.reportR r).gates = s.gates := rfl
@[simp] theorem State.reportR_cores (s : State) (r : Report) : (s.reportR r).cores = s.cores := rfl
@[simp] theorem State.reportR_tiles (s : State) (r : Report) : (s.reportR r).tiles = s.tiles := rfl
@[simp] theorem State.reportR_lookup (s : State) (r : Report) : (s.reportR r).lookup = s.lookup := rfl
@[simp] theorem State.reportR_buf (s : State) (r : Report) : (s.reportR r).buf = s.buf := rfl
@[simp] theorem State.reportR_buckets (s : State) (r : Report) : (s.reportR r).buckets = s.buckets := rfl
@[simp] theorem State.reportR_time (s : State) (r : Report) : (s.reportR r).time = s.time := rfl
@[simp] theorem State.reportR_ledger (s : State) (r : Report) : (s.reportR r).ledger = s.ledger := rfl
@[simp] theorem State.reportR_host (s : State) (r : Report) : (s.reportR r).host = s.host := rfl
@[simp] theorem State.reportR_irq (s : State) (r : Report) : (s.reportR r).irq = s.irq := rfl
@[simp] theorem State.reportR_sys (s : State) (r : Report) : (s.reportR r).sys = s.sys := rfl

@[simp] theorem State.putLane_pending (s : State) (l : Nat) (x : LaneX) : (s.putLane l x).pending = s.pending := rfl
@[simp] theorem State.putLane_out (s : State) (l : Nat) (x : LaneX) : (s.putLane l x).out = s.out := rfl
@[simp] theorem State.putLane_free (s : State) (l : Nat) (x : LaneX) : (s.putLane l x).free = s.free := rfl
@[simp] theorem State.putLane_dict (s : State) (l : Nat) (x : LaneX) : (s.putLane l x).dict = s.dict := rfl
@[simp] theorem State.putLane_ports (s : State) (l : Nat) (x : LaneX) : (s.putLane l x).ports = s.ports := rfl
@[simp] theorem State.putLane_gates (s : State) (l : Nat) (x : LaneX) : (s.putLane l x).gates = s.gates := rfl
@[simp] theorem State.putLane_cores (s : State) (l : Nat) (x : LaneX) : (s.putLane l x).cores = s.cores := rfl
@[simp] theorem State.putLane_tiles (s : State) (l : Nat) (x : LaneX) : (s.putLane l x).tiles = s.tiles := rfl
@[simp] theorem State.putLane_lookup (s : State) (l : Nat) (x : LaneX) : (s.putLane l x).lookup = s.lookup := rfl
@[simp] theorem State.putLane_buf (s : State) (l : Nat) (x : LaneX) : (s.putLane l x).buf = s.buf := rfl
@[simp] theorem State.putLane_buckets (s : State) (l : Nat) (x : LaneX) : (s.putLane l x).buckets = s.buckets := rfl
@[simp] theorem State.putLane_time (s : State) (l : Nat) (x : LaneX) : (s.putLane l x).time = s.time := rfl
@[simp] theorem State.putLane_ledger (s : State) (l : Nat) (x : LaneX) : (s.putLane l x).ledger = s.ledger := rfl
@[simp] theorem State.putLane_host (s : State) (l : Nat) (x : LaneX) : (s.putLane l x).host = s.host := rfl
@[simp] theorem State.putLane_irq (s : State) (l : Nat) (x : LaneX) : (s.putLane l x).irq = s.irq := rfl
@[simp] theorem State.putLane_faults (s : State) (l : Nat) (x : LaneX) : (s.putLane l x).faults = s.faults := rfl
@[simp] theorem State.putLane_sys (s : State) (l : Nat) (x : LaneX) : (s.putLane l x).sys = s.sys := rfl

@[simp] theorem State.putPort_pending (s : State) (p : Nat) (x : PortX) : (s.putPort p x).pending = s.pending := rfl
@[simp] theorem State.putPort_out (s : State) (p : Nat) (x : PortX) : (s.putPort p x).out = s.out := rfl
@[simp] theorem State.putPort_free (s : State) (p : Nat) (x : PortX) : (s.putPort p x).free = s.free := rfl
@[simp] theorem State.putPort_dict (s : State) (p : Nat) (x : PortX) : (s.putPort p x).dict = s.dict := rfl
@[simp] theorem State.putPort_lanes (s : State) (p : Nat) (x : PortX) : (s.putPort p x).lanes = s.lanes := rfl
@[simp] theorem State.putPort_gates (s : State) (p : Nat) (x : PortX) : (s.putPort p x).gates = s.gates := rfl
@[simp] theorem State.putPort_cores (s : State) (p : Nat) (x : PortX) : (s.putPort p x).cores = s.cores := rfl
@[simp] theorem State.putPort_tiles (s : State) (p : Nat) (x : PortX) : (s.putPort p x).tiles = s.tiles := rfl
@[simp] theorem State.putPort_lookup (s : State) (p : Nat) (x : PortX) : (s.putPort p x).lookup = s.lookup := rfl
@[simp] theorem State.putPort_buf (s : State) (p : Nat) (x : PortX) : (s.putPort p x).buf = s.buf := rfl
@[simp] theorem State.putPort_buckets (s : State) (p : Nat) (x : PortX) : (s.putPort p x).buckets = s.buckets := rfl
@[simp] theorem State.putPort_time (s : State) (p : Nat) (x : PortX) : (s.putPort p x).time = s.time := rfl
@[simp] theorem State.putPort_ledger (s : State) (p : Nat) (x : PortX) : (s.putPort p x).ledger = s.ledger := rfl
@[simp] theorem State.putPort_host (s : State) (p : Nat) (x : PortX) : (s.putPort p x).host = s.host := rfl
@[simp] theorem State.putPort_irq (s : State) (p : Nat) (x : PortX) : (s.putPort p x).irq = s.irq := rfl
@[simp] theorem State.putPort_faults (s : State) (p : Nat) (x : PortX) : (s.putPort p x).faults = s.faults := rfl
@[simp] theorem State.putPort_sys (s : State) (p : Nat) (x : PortX) : (s.putPort p x).sys = s.sys := rfl

@[simp] theorem State.putGate_pending (s : State) (p : Nat) (x : GateX) : (s.putGate p x).pending = s.pending := rfl
@[simp] theorem State.putGate_out (s : State) (p : Nat) (x : GateX) : (s.putGate p x).out = s.out := rfl
@[simp] theorem State.putGate_free (s : State) (p : Nat) (x : GateX) : (s.putGate p x).free = s.free := rfl
@[simp] theorem State.putGate_dict (s : State) (p : Nat) (x : GateX) : (s.putGate p x).dict = s.dict := rfl
@[simp] theorem State.putGate_lanes (s : State) (p : Nat) (x : GateX) : (s.putGate p x).lanes = s.lanes := rfl
@[simp] theorem State.putGate_ports (s : State) (p : Nat) (x : GateX) : (s.putGate p x).ports = s.ports := rfl
@[simp] theorem State.putGate_cores (s : State) (p : Nat) (x : GateX) : (s.putGate p x).cores = s.cores := rfl
@[simp] theorem State.putGate_tiles (s : State) (p : Nat) (x : GateX) : (s.putGate p x).tiles = s.tiles := rfl
@[simp] theorem State.putGate_lookup (s : State) (p : Nat) (x : GateX) : (s.putGate p x).lookup = s.lookup := rfl
@[simp] theorem State.putGate_buf (s : State) (p : Nat) (x : GateX) : (s.putGate p x).buf = s.buf := rfl
@[simp] theorem State.putGate_buckets (s : State) (p : Nat) (x : GateX) : (s.putGate p x).buckets = s.buckets := rfl
@[simp] theorem State.putGate_time (s : State) (p : Nat) (x : GateX) : (s.putGate p x).time = s.time := rfl
@[simp] theorem State.putGate_ledger (s : State) (p : Nat) (x : GateX) : (s.putGate p x).ledger = s.ledger := rfl
@[simp] theorem State.putGate_host (s : State) (p : Nat) (x : GateX) : (s.putGate p x).host = s.host := rfl
@[simp] theorem State.putGate_irq (s : State) (p : Nat) (x : GateX) : (s.putGate p x).irq = s.irq := rfl
@[simp] theorem State.putGate_faults (s : State) (p : Nat) (x : GateX) : (s.putGate p x).faults = s.faults := rfl
@[simp] theorem State.putGate_sys (s : State) (p : Nat) (x : GateX) : (s.putGate p x).sys = s.sys := rfl

@[simp] theorem State.putTile_pending (s : State) (t : Nat) (x : TileX) : (s.putTile t x).pending = s.pending := rfl
@[simp] theorem State.putTile_out (s : State) (t : Nat) (x : TileX) : (s.putTile t x).out = s.out := rfl
@[simp] theorem State.putTile_free (s : State) (t : Nat) (x : TileX) : (s.putTile t x).free = s.free := rfl
@[simp] theorem State.putTile_dict (s : State) (t : Nat) (x : TileX) : (s.putTile t x).dict = s.dict := rfl
@[simp] theorem State.putTile_lanes (s : State) (t : Nat) (x : TileX) : (s.putTile t x).lanes = s.lanes := rfl
@[simp] theorem State.putTile_ports (s : State) (t : Nat) (x : TileX) : (s.putTile t x).ports = s.ports := rfl
@[simp] theorem State.putTile_gates (s : State) (t : Nat) (x : TileX) : (s.putTile t x).gates = s.gates := rfl
@[simp] theorem State.putTile_cores (s : State) (t : Nat) (x : TileX) : (s.putTile t x).cores = s.cores := rfl
@[simp] theorem State.putTile_lookup (s : State) (t : Nat) (x : TileX) : (s.putTile t x).lookup = s.lookup := rfl
@[simp] theorem State.putTile_buf (s : State) (t : Nat) (x : TileX) : (s.putTile t x).buf = s.buf := rfl
@[simp] theorem State.putTile_buckets (s : State) (t : Nat) (x : TileX) : (s.putTile t x).buckets = s.buckets := rfl
@[simp] theorem State.putTile_time (s : State) (t : Nat) (x : TileX) : (s.putTile t x).time = s.time := rfl
@[simp] theorem State.putTile_ledger (s : State) (t : Nat) (x : TileX) : (s.putTile t x).ledger = s.ledger := rfl
@[simp] theorem State.putTile_host (s : State) (t : Nat) (x : TileX) : (s.putTile t x).host = s.host := rfl
@[simp] theorem State.putTile_irq (s : State) (t : Nat) (x : TileX) : (s.putTile t x).irq = s.irq := rfl
@[simp] theorem State.putTile_faults (s : State) (t : Nat) (x : TileX) : (s.putTile t x).faults = s.faults := rfl
@[simp] theorem State.putTile_sys (s : State) (t : Nat) (x : TileX) : (s.putTile t x).sys = s.sys := rfl

@[simp] theorem State.putCore_pending (s : State) (t c : Nat) (x : CoreX) : (s.putCore t c x).pending = s.pending := rfl
@[simp] theorem State.putCore_out (s : State) (t c : Nat) (x : CoreX) : (s.putCore t c x).out = s.out := rfl
@[simp] theorem State.putCore_free (s : State) (t c : Nat) (x : CoreX) : (s.putCore t c x).free = s.free := rfl
@[simp] theorem State.putCore_dict (s : State) (t c : Nat) (x : CoreX) : (s.putCore t c x).dict = s.dict := rfl
@[simp] theorem State.putCore_lanes (s : State) (t c : Nat) (x : CoreX) : (s.putCore t c x).lanes = s.lanes := rfl
@[simp] theorem State.putCore_ports (s : State) (t c : Nat) (x : CoreX) : (s.putCore t c x).ports = s.ports := rfl
@[simp] theorem State.putCore_gates (s : State) (t c : Nat) (x : CoreX) : (s.putCore t c x).gates = s.gates := rfl
@[simp] theorem State.putCore_tiles (s : State) (t c : Nat) (x : CoreX) : (s.putCore t c x).tiles = s.tiles := rfl
@[simp] theorem State.putCore_lookup (s : State) (t c : Nat) (x : CoreX) : (s.putCore t c x).lookup = s.lookup := rfl
@[simp] theorem State.putCore_buf (s : State) (t c : Nat) (x : CoreX) : (s.putCore t c x).buf = s.buf := rfl
@[simp] theorem State.putCore_buckets (s : State) (t c : Nat) (x : CoreX) : (s.putCore t c x).buckets = s.buckets := rfl
@[simp] theorem State.putCore_time (s : State) (t c : Nat) (x : CoreX) : (s.putCore t c x).time = s.time := rfl
@[simp] theorem State.putCore_ledger (s : State) (t c : Nat) (x : CoreX) : (s.putCore t c x).ledger = s.ledger := rfl
@[simp] theorem State.putCore_host (s : State) (t c : Nat) (x : CoreX) : (s.putCore t c x).host = s.host := rfl
@[simp] theorem State.putCore_irq (s : State) (t c : Nat) (x : CoreX) : (s.putCore t c x).irq = s.irq := rfl
@[simp] theorem State.putCore_faults (s : State) (t c : Nat) (x : CoreX) : (s.putCore t c x).faults = s.faults := rfl
@[simp] theorem State.putCore_sys (s : State) (t c : Nat) (x : CoreX) : (s.putCore t c x).sys = s.sys := rfl

@[simp] theorem State.freeCore_pending (s : State) (t c : Nat) : (s.freeCore t c).pending = s.pending := rfl
@[simp] theorem State.freeCore_out (s : State) (t c : Nat) : (s.freeCore t c).out = s.out := rfl
@[simp] theorem State.freeCore_free (s : State) (t c : Nat) : (s.freeCore t c).free = s.free := rfl
@[simp] theorem State.freeCore_dict (s : State) (t c : Nat) : (s.freeCore t c).dict = s.dict := rfl
@[simp] theorem State.freeCore_lanes (s : State) (t c : Nat) : (s.freeCore t c).lanes = s.lanes := rfl
@[simp] theorem State.freeCore_ports (s : State) (t c : Nat) : (s.freeCore t c).ports = s.ports := rfl
@[simp] theorem State.freeCore_gates (s : State) (t c : Nat) : (s.freeCore t c).gates = s.gates := rfl
@[simp] theorem State.freeCore_tiles (s : State) (t c : Nat) : (s.freeCore t c).tiles = s.tiles := rfl
@[simp] theorem State.freeCore_lookup (s : State) (t c : Nat) : (s.freeCore t c).lookup = s.lookup := rfl
@[simp] theorem State.freeCore_buf (s : State) (t c : Nat) : (s.freeCore t c).buf = s.buf := rfl
@[simp] theorem State.freeCore_buckets (s : State) (t c : Nat) : (s.freeCore t c).buckets = s.buckets := rfl
@[simp] theorem State.freeCore_time (s : State) (t c : Nat) : (s.freeCore t c).time = s.time := rfl
@[simp] theorem State.freeCore_ledger (s : State) (t c : Nat) : (s.freeCore t c).ledger = s.ledger := rfl
@[simp] theorem State.freeCore_host (s : State) (t c : Nat) : (s.freeCore t c).host = s.host := rfl
@[simp] theorem State.freeCore_irq (s : State) (t c : Nat) : (s.freeCore t c).irq = s.irq := rfl
@[simp] theorem State.freeCore_faults (s : State) (t c : Nat) : (s.freeCore t c).faults = s.faults := rfl
@[simp] theorem State.freeCore_sys (s : State) (t c : Nat) : (s.freeCore t c).sys = s.sys := rfl

@[simp] theorem State.putChan_pending (s : State) (c : Nat) (x : ChanX) : (s.putChan c x).pending = s.pending := rfl
@[simp] theorem State.putChan_out (s : State) (c : Nat) (x : ChanX) : (s.putChan c x).out = s.out := rfl
@[simp] theorem State.putChan_free (s : State) (c : Nat) (x : ChanX) : (s.putChan c x).free = s.free := rfl
@[simp] theorem State.putChan_dict (s : State) (c : Nat) (x : ChanX) : (s.putChan c x).dict = s.dict := rfl
@[simp] theorem State.putChan_lanes (s : State) (c : Nat) (x : ChanX) : (s.putChan c x).lanes = s.lanes := rfl
@[simp] theorem State.putChan_ports (s : State) (c : Nat) (x : ChanX) : (s.putChan c x).ports = s.ports := rfl
@[simp] theorem State.putChan_gates (s : State) (c : Nat) (x : ChanX) : (s.putChan c x).gates = s.gates := rfl
@[simp] theorem State.putChan_cores (s : State) (c : Nat) (x : ChanX) : (s.putChan c x).cores = s.cores := rfl
@[simp] theorem State.putChan_tiles (s : State) (c : Nat) (x : ChanX) : (s.putChan c x).tiles = s.tiles := rfl
@[simp] theorem State.putChan_lookup (s : State) (c : Nat) (x : ChanX) : (s.putChan c x).lookup = s.lookup := rfl
@[simp] theorem State.putChan_buf (s : State) (c : Nat) (x : ChanX) : (s.putChan c x).buf = s.buf := rfl
@[simp] theorem State.putChan_buckets (s : State) (c : Nat) (x : ChanX) : (s.putChan c x).buckets = s.buckets := rfl
@[simp] theorem State.putChan_time (s : State) (c : Nat) (x : ChanX) : (s.putChan c x).time = s.time := rfl
@[simp] theorem State.putChan_ledger (s : State) (c : Nat) (x : ChanX) : (s.putChan c x).ledger = s.ledger := rfl
@[simp] theorem State.putChan_irq (s : State) (c : Nat) (x : ChanX) : (s.putChan c x).irq = s.irq := rfl
@[simp] theorem State.putChan_faults (s : State) (c : Nat) (x : ChanX) : (s.putChan c x).faults = s.faults := rfl
@[simp] theorem State.putChan_sys (s : State) (c : Nat) (x : ChanX) : (s.putChan c x).sys = s.sys := rfl

@[simp] theorem State.putEngine_pending (s : State) (e : Nat) (x : EngineX) : (s.putEngine e x).pending = s.pending := rfl
@[simp] theorem State.putEngine_out (s : State) (e : Nat) (x : EngineX) : (s.putEngine e x).out = s.out := rfl
@[simp] theorem State.putEngine_free (s : State) (e : Nat) (x : EngineX) : (s.putEngine e x).free = s.free := rfl
@[simp] theorem State.putEngine_dict (s : State) (e : Nat) (x : EngineX) : (s.putEngine e x).dict = s.dict := rfl
@[simp] theorem State.putEngine_lanes (s : State) (e : Nat) (x : EngineX) : (s.putEngine e x).lanes = s.lanes := rfl
@[simp] theorem State.putEngine_ports (s : State) (e : Nat) (x : EngineX) : (s.putEngine e x).ports = s.ports := rfl
@[simp] theorem State.putEngine_gates (s : State) (e : Nat) (x : EngineX) : (s.putEngine e x).gates = s.gates := rfl
@[simp] theorem State.putEngine_cores (s : State) (e : Nat) (x : EngineX) : (s.putEngine e x).cores = s.cores := rfl
@[simp] theorem State.putEngine_tiles (s : State) (e : Nat) (x : EngineX) : (s.putEngine e x).tiles = s.tiles := rfl
@[simp] theorem State.putEngine_lookup (s : State) (e : Nat) (x : EngineX) : (s.putEngine e x).lookup = s.lookup := rfl
@[simp] theorem State.putEngine_buf (s : State) (e : Nat) (x : EngineX) : (s.putEngine e x).buf = s.buf := rfl
@[simp] theorem State.putEngine_buckets (s : State) (e : Nat) (x : EngineX) : (s.putEngine e x).buckets = s.buckets := rfl
@[simp] theorem State.putEngine_time (s : State) (e : Nat) (x : EngineX) : (s.putEngine e x).time = s.time := rfl
@[simp] theorem State.putEngine_ledger (s : State) (e : Nat) (x : EngineX) : (s.putEngine e x).ledger = s.ledger := rfl
@[simp] theorem State.putEngine_irq (s : State) (e : Nat) (x : EngineX) : (s.putEngine e x).irq = s.irq := rfl
@[simp] theorem State.putEngine_faults (s : State) (e : Nat) (x : EngineX) : (s.putEngine e x).faults = s.faults := rfl
@[simp] theorem State.putEngine_sys (s : State) (e : Nat) (x : EngineX) : (s.putEngine e x).sys = s.sys := rfl

@[simp] theorem State.putIsrc_pending (s : State) (n : Nat) (x : IrqSrc) : (s.putIsrc n x).pending = s.pending := rfl
@[simp] theorem State.putIsrc_out (s : State) (n : Nat) (x : IrqSrc) : (s.putIsrc n x).out = s.out := rfl
@[simp] theorem State.putIsrc_free (s : State) (n : Nat) (x : IrqSrc) : (s.putIsrc n x).free = s.free := rfl
@[simp] theorem State.putIsrc_dict (s : State) (n : Nat) (x : IrqSrc) : (s.putIsrc n x).dict = s.dict := rfl
@[simp] theorem State.putIsrc_lanes (s : State) (n : Nat) (x : IrqSrc) : (s.putIsrc n x).lanes = s.lanes := rfl
@[simp] theorem State.putIsrc_ports (s : State) (n : Nat) (x : IrqSrc) : (s.putIsrc n x).ports = s.ports := rfl
@[simp] theorem State.putIsrc_gates (s : State) (n : Nat) (x : IrqSrc) : (s.putIsrc n x).gates = s.gates := rfl
@[simp] theorem State.putIsrc_cores (s : State) (n : Nat) (x : IrqSrc) : (s.putIsrc n x).cores = s.cores := rfl
@[simp] theorem State.putIsrc_tiles (s : State) (n : Nat) (x : IrqSrc) : (s.putIsrc n x).tiles = s.tiles := rfl
@[simp] theorem State.putIsrc_lookup (s : State) (n : Nat) (x : IrqSrc) : (s.putIsrc n x).lookup = s.lookup := rfl
@[simp] theorem State.putIsrc_buf (s : State) (n : Nat) (x : IrqSrc) : (s.putIsrc n x).buf = s.buf := rfl
@[simp] theorem State.putIsrc_buckets (s : State) (n : Nat) (x : IrqSrc) : (s.putIsrc n x).buckets = s.buckets := rfl
@[simp] theorem State.putIsrc_time (s : State) (n : Nat) (x : IrqSrc) : (s.putIsrc n x).time = s.time := rfl
@[simp] theorem State.putIsrc_ledger (s : State) (n : Nat) (x : IrqSrc) : (s.putIsrc n x).ledger = s.ledger := rfl
@[simp] theorem State.putIsrc_host (s : State) (n : Nat) (x : IrqSrc) : (s.putIsrc n x).host = s.host := rfl
@[simp] theorem State.putIsrc_faults (s : State) (n : Nat) (x : IrqSrc) : (s.putIsrc n x).faults = s.faults := rfl
@[simp] theorem State.putIsrc_sys (s : State) (n : Nat) (x : IrqSrc) : (s.putIsrc n x).sys = s.sys := rfl

@[simp] theorem State.putItgt_pending (s : State) (t : Nat) (x : IrqTgt) : (s.putItgt t x).pending = s.pending := rfl
@[simp] theorem State.putItgt_out (s : State) (t : Nat) (x : IrqTgt) : (s.putItgt t x).out = s.out := rfl
@[simp] theorem State.putItgt_free (s : State) (t : Nat) (x : IrqTgt) : (s.putItgt t x).free = s.free := rfl
@[simp] theorem State.putItgt_dict (s : State) (t : Nat) (x : IrqTgt) : (s.putItgt t x).dict = s.dict := rfl
@[simp] theorem State.putItgt_lanes (s : State) (t : Nat) (x : IrqTgt) : (s.putItgt t x).lanes = s.lanes := rfl
@[simp] theorem State.putItgt_ports (s : State) (t : Nat) (x : IrqTgt) : (s.putItgt t x).ports = s.ports := rfl
@[simp] theorem State.putItgt_gates (s : State) (t : Nat) (x : IrqTgt) : (s.putItgt t x).gates = s.gates := rfl
@[simp] theorem State.putItgt_cores (s : State) (t : Nat) (x : IrqTgt) : (s.putItgt t x).cores = s.cores := rfl
@[simp] theorem State.putItgt_tiles (s : State) (t : Nat) (x : IrqTgt) : (s.putItgt t x).tiles = s.tiles := rfl
@[simp] theorem State.putItgt_lookup (s : State) (t : Nat) (x : IrqTgt) : (s.putItgt t x).lookup = s.lookup := rfl
@[simp] theorem State.putItgt_buf (s : State) (t : Nat) (x : IrqTgt) : (s.putItgt t x).buf = s.buf := rfl
@[simp] theorem State.putItgt_buckets (s : State) (t : Nat) (x : IrqTgt) : (s.putItgt t x).buckets = s.buckets := rfl
@[simp] theorem State.putItgt_time (s : State) (t : Nat) (x : IrqTgt) : (s.putItgt t x).time = s.time := rfl
@[simp] theorem State.putItgt_ledger (s : State) (t : Nat) (x : IrqTgt) : (s.putItgt t x).ledger = s.ledger := rfl
@[simp] theorem State.putItgt_host (s : State) (t : Nat) (x : IrqTgt) : (s.putItgt t x).host = s.host := rfl
@[simp] theorem State.putItgt_faults (s : State) (t : Nat) (x : IrqTgt) : (s.putItgt t x).faults = s.faults := rfl
@[simp] theorem State.putItgt_sys (s : State) (t : Nat) (x : IrqTgt) : (s.putItgt t x).sys = s.sys := rfl

@[simp] theorem State.putBucket_pending (s : State) (q : Nat) (x : Bucket) : (s.putBucket q x).pending = s.pending := rfl
@[simp] theorem State.putBucket_out (s : State) (q : Nat) (x : Bucket) : (s.putBucket q x).out = s.out := rfl
@[simp] theorem State.putBucket_free (s : State) (q : Nat) (x : Bucket) : (s.putBucket q x).free = s.free := rfl
@[simp] theorem State.putBucket_dict (s : State) (q : Nat) (x : Bucket) : (s.putBucket q x).dict = s.dict := rfl
@[simp] theorem State.putBucket_lanes (s : State) (q : Nat) (x : Bucket) : (s.putBucket q x).lanes = s.lanes := rfl
@[simp] theorem State.putBucket_ports (s : State) (q : Nat) (x : Bucket) : (s.putBucket q x).ports = s.ports := rfl
@[simp] theorem State.putBucket_gates (s : State) (q : Nat) (x : Bucket) : (s.putBucket q x).gates = s.gates := rfl
@[simp] theorem State.putBucket_cores (s : State) (q : Nat) (x : Bucket) : (s.putBucket q x).cores = s.cores := rfl
@[simp] theorem State.putBucket_tiles (s : State) (q : Nat) (x : Bucket) : (s.putBucket q x).tiles = s.tiles := rfl
@[simp] theorem State.putBucket_lookup (s : State) (q : Nat) (x : Bucket) : (s.putBucket q x).lookup = s.lookup := rfl
@[simp] theorem State.putBucket_buf (s : State) (q : Nat) (x : Bucket) : (s.putBucket q x).buf = s.buf := rfl
@[simp] theorem State.putBucket_time (s : State) (q : Nat) (x : Bucket) : (s.putBucket q x).time = s.time := rfl
@[simp] theorem State.putBucket_ledger (s : State) (q : Nat) (x : Bucket) : (s.putBucket q x).ledger = s.ledger := rfl
@[simp] theorem State.putBucket_host (s : State) (q : Nat) (x : Bucket) : (s.putBucket q x).host = s.host := rfl
@[simp] theorem State.putBucket_irq (s : State) (q : Nat) (x : Bucket) : (s.putBucket q x).irq = s.irq := rfl
@[simp] theorem State.putBucket_faults (s : State) (q : Nat) (x : Bucket) : (s.putBucket q x).faults = s.faults := rfl
@[simp] theorem State.putBucket_sys (s : State) (q : Nat) (x : Bucket) : (s.putBucket q x).sys = s.sys := rfl

@[simp] theorem State.putPkt_pending (s : State) (p : Pkt) : (s.putPkt p).pending = s.pending := rfl
@[simp] theorem State.putPkt_out (s : State) (p : Pkt) : (s.putPkt p).out = s.out := rfl
@[simp] theorem State.putPkt_free (s : State) (p : Pkt) : (s.putPkt p).free = s.free := rfl
@[simp] theorem State.putPkt_dict (s : State) (p : Pkt) : (s.putPkt p).dict = s.dict := rfl
@[simp] theorem State.putPkt_lanes (s : State) (p : Pkt) : (s.putPkt p).lanes = s.lanes := rfl
@[simp] theorem State.putPkt_ports (s : State) (p : Pkt) : (s.putPkt p).ports = s.ports := rfl
@[simp] theorem State.putPkt_gates (s : State) (p : Pkt) : (s.putPkt p).gates = s.gates := rfl
@[simp] theorem State.putPkt_cores (s : State) (p : Pkt) : (s.putPkt p).cores = s.cores := rfl
@[simp] theorem State.putPkt_tiles (s : State) (p : Pkt) : (s.putPkt p).tiles = s.tiles := rfl
@[simp] theorem State.putPkt_lookup (s : State) (p : Pkt) : (s.putPkt p).lookup = s.lookup := rfl
@[simp] theorem State.putPkt_buckets (s : State) (p : Pkt) : (s.putPkt p).buckets = s.buckets := rfl
@[simp] theorem State.putPkt_time (s : State) (p : Pkt) : (s.putPkt p).time = s.time := rfl
@[simp] theorem State.putPkt_ledger (s : State) (p : Pkt) : (s.putPkt p).ledger = s.ledger := rfl
@[simp] theorem State.putPkt_host (s : State) (p : Pkt) : (s.putPkt p).host = s.host := rfl
@[simp] theorem State.putPkt_irq (s : State) (p : Pkt) : (s.putPkt p).irq = s.irq := rfl
@[simp] theorem State.putPkt_faults (s : State) (p : Pkt) : (s.putPkt p).faults = s.faults := rfl
@[simp] theorem State.putPkt_sys (s : State) (p : Pkt) : (s.putPkt p).sys = s.sys := rfl

@[simp] theorem State.dropPkt_pending (s : State) (f : Nat) : (s.dropPkt f).pending = s.pending := rfl
@[simp] theorem State.dropPkt_out (s : State) (f : Nat) : (s.dropPkt f).out = s.out := rfl
@[simp] theorem State.dropPkt_free (s : State) (f : Nat) : (s.dropPkt f).free = s.free := rfl
@[simp] theorem State.dropPkt_dict (s : State) (f : Nat) : (s.dropPkt f).dict = s.dict := rfl
@[simp] theorem State.dropPkt_lanes (s : State) (f : Nat) : (s.dropPkt f).lanes = s.lanes := rfl
@[simp] theorem State.dropPkt_ports (s : State) (f : Nat) : (s.dropPkt f).ports = s.ports := rfl
@[simp] theorem State.dropPkt_gates (s : State) (f : Nat) : (s.dropPkt f).gates = s.gates := rfl
@[simp] theorem State.dropPkt_cores (s : State) (f : Nat) : (s.dropPkt f).cores = s.cores := rfl
@[simp] theorem State.dropPkt_tiles (s : State) (f : Nat) : (s.dropPkt f).tiles = s.tiles := rfl
@[simp] theorem State.dropPkt_lookup (s : State) (f : Nat) : (s.dropPkt f).lookup = s.lookup := rfl
@[simp] theorem State.dropPkt_buckets (s : State) (f : Nat) : (s.dropPkt f).buckets = s.buckets := rfl
@[simp] theorem State.dropPkt_time (s : State) (f : Nat) : (s.dropPkt f).time = s.time := rfl
@[simp] theorem State.dropPkt_ledger (s : State) (f : Nat) : (s.dropPkt f).ledger = s.ledger := rfl
@[simp] theorem State.dropPkt_host (s : State) (f : Nat) : (s.dropPkt f).host = s.host := rfl
@[simp] theorem State.dropPkt_irq (s : State) (f : Nat) : (s.dropPkt f).irq = s.irq := rfl
@[simp] theorem State.dropPkt_faults (s : State) (f : Nat) : (s.dropPkt f).faults = s.faults := rfl
@[simp] theorem State.dropPkt_sys (s : State) (f : Nat) : (s.dropPkt f).sys = s.sys := rfl

@[simp] theorem State.setCmd_pending (s : State) (r : Ref) (st er : Nat) (res : List Byte) : (s.setCmd r st er res).pending = s.pending := rfl
@[simp] theorem State.setCmd_out (s : State) (r : Ref) (st er : Nat) (res : List Byte) : (s.setCmd r st er res).out = s.out := rfl
@[simp] theorem State.setCmd_free (s : State) (r : Ref) (st er : Nat) (res : List Byte) : (s.setCmd r st er res).free = s.free := rfl
@[simp] theorem State.setCmd_lanes (s : State) (r : Ref) (st er : Nat) (res : List Byte) : (s.setCmd r st er res).lanes = s.lanes := rfl
@[simp] theorem State.setCmd_ports (s : State) (r : Ref) (st er : Nat) (res : List Byte) : (s.setCmd r st er res).ports = s.ports := rfl
@[simp] theorem State.setCmd_gates (s : State) (r : Ref) (st er : Nat) (res : List Byte) : (s.setCmd r st er res).gates = s.gates := rfl
@[simp] theorem State.setCmd_cores (s : State) (r : Ref) (st er : Nat) (res : List Byte) : (s.setCmd r st er res).cores = s.cores := rfl
@[simp] theorem State.setCmd_tiles (s : State) (r : Ref) (st er : Nat) (res : List Byte) : (s.setCmd r st er res).tiles = s.tiles := rfl
@[simp] theorem State.setCmd_lookup (s : State) (r : Ref) (st er : Nat) (res : List Byte) : (s.setCmd r st er res).lookup = s.lookup := rfl
@[simp] theorem State.setCmd_buf (s : State) (r : Ref) (st er : Nat) (res : List Byte) : (s.setCmd r st er res).buf = s.buf := rfl
@[simp] theorem State.setCmd_buckets (s : State) (r : Ref) (st er : Nat) (res : List Byte) : (s.setCmd r st er res).buckets = s.buckets := rfl
@[simp] theorem State.setCmd_time (s : State) (r : Ref) (st er : Nat) (res : List Byte) : (s.setCmd r st er res).time = s.time := rfl
@[simp] theorem State.setCmd_ledger (s : State) (r : Ref) (st er : Nat) (res : List Byte) : (s.setCmd r st er res).ledger = s.ledger := rfl
@[simp] theorem State.setCmd_host (s : State) (r : Ref) (st er : Nat) (res : List Byte) : (s.setCmd r st er res).host = s.host := rfl
@[simp] theorem State.setCmd_irq (s : State) (r : Ref) (st er : Nat) (res : List Byte) : (s.setCmd r st er res).irq = s.irq := rfl
@[simp] theorem State.setCmd_faults (s : State) (r : Ref) (st er : Nat) (res : List Byte) : (s.setCmd r st er res).faults = s.faults := rfl
@[simp] theorem State.setCmd_sys (s : State) (r : Ref) (st er : Nat) (res : List Byte) : (s.setCmd r st er res).sys = s.sys := rfl
@[simp] theorem State.setCmd_dict_objs (s : State) (r : Ref) (st er : Nat) (res : List Byte) : (s.setCmd r st er res).dict.objs = s.dict.objs := rfl
@[simp] theorem State.setCmd_dict_shadow (s : State) (r : Ref) (st er : Nat) (res : List Byte) : (s.setCmd r st er res).dict.shadow = s.dict.shadow := rfl
@[simp] theorem State.setCmd_dict_commits (s : State) (r : Ref) (st er : Nat) (res : List Byte) : (s.setCmd r st er res).dict.commits = s.dict.commits := rfl
@[simp] theorem State.setCmd_dict_nextId (s : State) (r : Ref) (st er : Nat) (res : List Byte) : (s.setCmd r st er res).dict.nextId = s.dict.nextId := rfl
@[simp] theorem State.setCmd_dict_wins (s : State) (r : Ref) (st er : Nat) (res : List Byte) : (s.setCmd r st er res).dict.wins = s.dict.wins := rfl
@[simp] theorem State.setCmd_dict_winOrder (s : State) (r : Ref) (st er : Nat) (res : List Byte) : (s.setCmd r st er res).dict.winOrder = s.dict.winOrder := rfl
@[simp] theorem State.setCmd_dict_sessions (s : State) (r : Ref) (st er : Nat) (res : List Byte) : (s.setCmd r st er res).dict.sessions = s.dict.sessions := rfl
@[simp] theorem State.setCmd_dict_secretNow (s : State) (r : Ref) (st er : Nat) (res : List Byte) : (s.setCmd r st er res).dict.secretNow = s.dict.secretNow := rfl
@[simp] theorem State.setCmd_dict_secretOld (s : State) (r : Ref) (st er : Nat) (res : List Byte) : (s.setCmd r st er res).dict.secretOld = s.dict.secretOld := rfl
@[simp] theorem State.setCmd_dict_hellos (s : State) (r : Ref) (st er : Nat) (res : List Byte) : (s.setCmd r st er res).dict.hellos = s.dict.hellos := rfl
@[simp] theorem State.setCmd_dict_authSec (s : State) (r : Ref) (st er : Nat) (res : List Byte) : (s.setCmd r st er res).dict.authSec = s.dict.authSec := rfl
@[simp] theorem State.setCmd_dict_held (s : State) (r : Ref) (st er : Nat) (res : List Byte) : (s.setCmd r st er res).dict.held = s.dict.held := rfl
@[simp] theorem State.setCmd_dict_leases (s : State) (r : Ref) (st er : Nat) (res : List Byte) : (s.setCmd r st er res).dict.leases = s.dict.leases := rfl
@[simp] theorem State.setCmd_dict_busyTabs (s : State) (r : Ref) (st er : Nat) (res : List Byte) : (s.setCmd r st er res).dict.busyTabs = s.dict.busyTabs := rfl
@[simp] theorem State.setCmd_dict_startup (s : State) (r : Ref) (st er : Nat) (res : List Byte) : (s.setCmd r st er res).dict.startup = s.dict.startup := rfl

@[simp] theorem State.tick_pending (s : State) : (s.tick).pending = s.pending := rfl
@[simp] theorem State.tick_out (s : State) : (s.tick).out = s.out := rfl
@[simp] theorem State.tick_free (s : State) : (s.tick).free = s.free := rfl
@[simp] theorem State.tick_dict (s : State) : (s.tick).dict = s.dict := rfl
@[simp] theorem State.tick_lanes (s : State) : (s.tick).lanes = s.lanes := rfl
@[simp] theorem State.tick_ports (s : State) : (s.tick).ports = s.ports := rfl
@[simp] theorem State.tick_gates (s : State) : (s.tick).gates = s.gates := rfl
@[simp] theorem State.tick_cores (s : State) : (s.tick).cores = s.cores := rfl
@[simp] theorem State.tick_tiles (s : State) : (s.tick).tiles = s.tiles := rfl
@[simp] theorem State.tick_lookup (s : State) : (s.tick).lookup = s.lookup := rfl
@[simp] theorem State.tick_buf (s : State) : (s.tick).buf = s.buf := rfl
@[simp] theorem State.tick_buckets (s : State) : (s.tick).buckets = s.buckets := rfl
@[simp] theorem State.tick_ledger (s : State) : (s.tick).ledger = s.ledger := rfl
@[simp] theorem State.tick_host (s : State) : (s.tick).host = s.host := rfl
@[simp] theorem State.tick_irq (s : State) : (s.tick).irq = s.irq := rfl
@[simp] theorem State.tick_faults (s : State) : (s.tick).faults = s.faults := rfl
@[simp] theorem State.tick_sys (s : State) : (s.tick).sys = s.sys := rfl

end Sys2Proof.Machine
end

