-- ==== Sys2Proof/Laws/Ops.lean ====
section
/-!
SUPPORT. Sys2Proof/Laws/Ops.lean: what the shared operations do, said once: sparse maps, object elements, counters, the parts
of the state, command status.
-/
namespace Sys2Proof.Machine

/-! ### Sparse maps -/

variable {κ α : Type} [DecidableEq κ]

theorem look_ins_same (lt : κ → κ → Bool) (d : α) (n : κ) (v : α) (m : List (κ × α)) :
    look d (ins lt n v m) n = v := by
  induction m with
  | nil => simp [ins, look]
  | cons e r ih =>
    obtain ⟨k, w⟩ := e
    simp only [ins]
    split
    · simp [look]
    · rename_i h
      split
      · simp [look]
      · simp [look, h, ih]

theorem look_ins_other (lt : κ → κ → Bool) (d : α) {n j : κ} (h : n ≠ j) (v : α) (m : List (κ × α)) :
    look d (ins lt n v m) j = look d m j := by
  induction m with
  | nil => simp [ins, look, h]
  | cons e r ih =>
    obtain ⟨k, w⟩ := e
    simp only [ins]
    split
    · rename_i hk; subst hk; simp [look, h]
    · split
      · simp [look, h]
      · simp [look, ih]

theorem look_del_same (d : α) (n : κ) (m : List (κ × α)) : look d (del n m) n = d := by
  induction m with
  | nil => rfl
  | cons e r ih =>
    obtain ⟨k, w⟩ := e
    by_cases h : k = n
    · subst h; simpa [del] using ih
    · simpa [del, look, h] using ih

theorem look_del_other (d : α) {n j : κ} (h : n ≠ j) (m : List (κ × α)) : look d (del n m) j = look d m j := by
  induction m with
  | nil => rfl
  | cons e r ih =>
    obtain ⟨k, w⟩ := e
    by_cases hk : k = n
    · subst hk; simpa [del, look, h] using ih
    · by_cases hj : k = j
      · have e : del n ((k, w) :: r) = (k, w) :: del n r := by simp [del, hk]
        rw [e]; simp [look, hj]
      · simpa [del, look, hk, hj] using ih

@[simp] theorem look_put_same [DecidableEq α] (lt : κ → κ → Bool) (d : α) (n : κ) (v : α) (m : List (κ × α)) :
    look d (put lt d n v m) n = v := by
  unfold put
  split
  · rename_i h; rw [look_del_same, h]
  · exact look_ins_same lt d n v m

theorem look_put_other [DecidableEq α] (lt : κ → κ → Bool) (d d' : α) {n j : κ} (h : n ≠ j) (v : α)
    (m : List (κ × α)) : look d' (put lt d n v m) j = look d' m j := by
  unfold put
  split
  · exact look_del_other d' h m
  · exact look_ins_other lt d' h v m

omit [DecidableEq κ] in
theorem rising_cons (lt : κ → κ → Bool) (a : κ × α) (m : List (κ × α)) :
    rising lt (a :: m) = true → rising lt m = true := by
  cases m with
  | nil => intro; rfl
  | cons b r => intro h; simp only [rising, Bool.and_eq_true] at h; exact h.2

omit [DecidableEq κ] in
theorem rising_above (lt : κ → κ → Bool) (ht : ∀ a b c, lt a b = true → lt b c = true → lt a c = true)
    (a : κ × α) (m : List (κ × α)) : rising lt (a :: m) = true → ∀ e ∈ m, lt a.1 e.1 = true := by
  induction m generalizing a with
  | nil => intro _ e he; cases he
  | cons b r ih =>
    intro h e he
    have h' : lt a.1 b.1 = true ∧ rising lt (b :: r) = true := by simpa [rising] using h
    rcases List.mem_cons.1 he with rfl | he
    · exact h'.1
    · exact ht _ _ _ h'.1 (ih b h'.2 e he)

omit [DecidableEq κ] in
theorem rising_of_above (lt : κ → κ → Bool) (a : κ × α) (m : List (κ × α)) (h : rising lt m = true)
    (ha : ∀ e ∈ m, lt a.1 e.1 = true) : rising lt (a :: m) = true := by
  cases m with
  | nil => rfl
  | cons b r => simp [rising, h, ha b (by simp)]

theorem rising_del (lt : κ → κ → Bool) (ht : ∀ a b c, lt a b = true → lt b c = true → lt a c = true)
    (n : κ) (m : List (κ × α)) : rising lt m = true → rising lt (del n m) = true := by
  induction m with
  | nil => intro; rfl
  | cons a r ih =>
    intro h
    have hr := ih (rising_cons lt a r h)
    by_cases ha : a.1 = n
    · simpa [del, ha] using hr
    · have e : del n (a :: r) = a :: del n r := by simp [del, ha]
      rw [e]
      exact rising_of_above lt a _ hr fun e he => rising_above lt ht a r h e (List.mem_of_mem_filter he)

theorem mem_ins (lt : κ → κ → Bool) (n : κ) (v : α) (m : List (κ × α)) (e : κ × α) :
    e ∈ ins lt n v m → e = (n, v) ∨ e ∈ m := by
  induction m with
  | nil => intro h; left; simpa [ins] using h
  | cons a r ih =>
    obtain ⟨k, w⟩ := a
    simp only [ins]
    split
    · intro h; rcases List.mem_cons.1 h with h | h
      · exact .inl h
      · exact .inr (List.mem_cons_of_mem _ h)
    · split
      · intro h; rcases List.mem_cons.1 h with h | h
        · exact .inl h
        · exact .inr h
      · intro h; rcases List.mem_cons.1 h with h | h
        · exact .inr (by simp [h])
        · rcases ih h with h | h
          · exact .inl h
          · exact .inr (List.mem_cons_of_mem _ h)

theorem rising_ins (lt : κ → κ → Bool) (ht : ∀ a b c, lt a b = true → lt b c = true → lt a c = true)
    (hc : ∀ a b, a ≠ b → lt a b = false → lt b a = true) (n : κ) (v : α) (m : List (κ × α)) :
    rising lt m = true → rising lt (ins lt n v m) = true := by
  induction m with
  | nil => intro; rfl
  | cons a r ih =>
    obtain ⟨k, w⟩ := a
    intro h
    have up := rising_above lt ht (k, w) r h
    have hr := rising_cons lt (k, w) r h
    simp only [ins]
    split
    · rename_i hk; subst hk; exact rising_of_above lt _ r hr up
    · rename_i hk
      split
      · rename_i hl
        refine rising_of_above lt _ _ h fun e he => ?_
        rcases List.mem_cons.1 he with rfl | he
        · exact hl
        · exact ht _ _ _ hl (up e he)
      · rename_i hl
        have hkn : lt k n = true := hc n k (fun e => hk e.symm) (by simpa using hl)
        refine rising_of_above lt _ _ (ih hr) fun e he => ?_
        rcases mem_ins lt n v r e he with rfl | he
        · exact hkn
        · exact up e he

/-- A write keeps the keys rising. -/
theorem rising_put [DecidableEq α] (lt : κ → κ → Bool) (ht : ∀ a b c, lt a b = true → lt b c = true → lt a c = true)
    (hc : ∀ a b, a ≠ b → lt a b = false → lt b a = true) (d : α) (n : κ) (v : α) (m : List (κ × α))
    (h : rising lt m = true) : rising lt (put lt d n v m) = true := by
  unfold put
  split
  · exact rising_del lt ht n m h
  · exact rising_ins lt ht hc n v m h

/-- A write lists no entry equal to what its key reads as unlisted. -/
theorem mem_put [DecidableEq α] (lt : κ → κ → Bool) (d : α) (n : κ) (v : α) (m : List (κ × α)) (e : κ × α)
    (h : e ∈ put lt d n v m) : (e = (n, v) ∧ v ≠ d) ∨ e ∈ m := by
  unfold put at h
  split at h
  · exact .inr (List.mem_of_mem_filter h)
  · rename_i hv
    rcases mem_ins lt n v m e h with h | h
    · exact .inl ⟨h, hv⟩
    · exact .inr h

/-! ### Object elements -/

/-- An element written reads as written, and every other element reads as before. -/
theorem State.getK_setK (s : State) (k j : OKey) (v : Nat) :
    (s.setK k v).getK j = if j = k then v else s.getK j := by
  unfold State.getK State.setK
  split
  · rename_i h; subst h; simp
  · rename_i h; exact look_put_other _ _ _ (fun e => h e.symm) _ _

@[simp] theorem State.get_set_same (s : State) (r : Ref) (v e : Nat) : (s.set r v e).get r e = v := by
  simp [State.get, State.set, State.getK_setK]

theorem State.get_set_other (s : State) {r r' : Ref} (v e e' : Nat) (h : r' ≠ r ∨ e' ≠ e) :
    (s.set r v e).get r' e' = s.get r' e' := by
  unfold State.get State.set
  rw [State.getK_setK, if_neg]
  intro hk
  cases hk
  rcases h with h | h <;> exact h rfl

theorem ltKey_trans (a b c : OKey) (h : ltKey a b = true) (h' : ltKey b c = true) : ltKey a c = true := by
  simp only [ltKey, Bool.or_eq_true, Bool.and_eq_true, decide_eq_true_eq, beq_iff_eq] at *
  omega

theorem ltKey_total (a b : OKey) (h : a ≠ b) (h' : ltKey a b = false) : ltKey b a = true := by
  obtain ⟨⟨i, n, u⟩, e⟩ := a
  obtain ⟨⟨i', n', u'⟩, e'⟩ := b
  rw [Bool.eq_false_iff] at h'
  simp only [ltKey, ne_eq, Bool.or_eq_true, Bool.and_eq_true, decide_eq_true_eq, beq_iff_eq, OKey.mk.injEq,
    Ref.mk.injEq] at *
  omega

@[simp] theorem State.get_count64_same (s : State) (r : Ref) (n e : Nat) :
    (s.count64 r n e).get r e = (s.get r e + n) % 2 ^ 64 := State.get_set_same _ _ _ _

theorem State.get_count64_other (s : State) {r r' : Ref} (n : Nat) {e e' : Nat} (h : r' ≠ r ∨ e' ≠ e) :
    (s.count64 r n e).get r' e' = s.get r' e' := State.get_set_other _ _ _ _ h

theorem State.get_setAll_other (s : State) {r r' : Ref} (vs : List Nat) (e e' : Nat) (h : r' ≠ r) :
    (s.setAll r vs e).get r' e' = s.get r' e' := by
  induction vs generalizing s e with
  | nil => rfl
  | cons v vs ih => rw [State.setAll, ih, State.get_set_other _ _ _ _ (.inl h)]

/-- Writing one object leaves what a packet's epoch reads of every other. -/
theorem State.getP_set_other (s : State) {r r' : Ref} (v e : Nat) (a : List Nat) (e' : Nat) (h : r' ≠ r) :
    (s.set r v e).getP a r' e' = s.getP a r' e' := by
  unfold State.getP State.getS
  simp only [State.get_set_other _ _ _ _ (.inl h)]
  rfl

theorem State.getP_count64_other (s : State) {r r' : Ref} (n e : Nat) (a : List Nat) (e' : Nat) (h : r' ≠ r) :
    (s.count64 r n e).getP a r' e' = s.getP a r' e' := State.getP_set_other _ _ _ _ _ h

/-! ### What keeps every object -/

@[simp] theorem State.get_emit (s : State) (o : Output) (r : Ref) (e : Nat) : (s.emit o).get r e = s.get r e := rfl
@[simp] theorem State.get_raise (s : State) (n : Nat) (r : Ref) (e : Nat) : (s.raise n).get r e = s.get r e := rfl
@[simp] theorem State.get_reportR (s : State) (x : Report) (r : Ref) (e : Nat) : (s.reportR x).get r e = s.get r e := rfl
@[simp] theorem State.get_report (s : State) (n u : Nat) (d : List Byte) (r : Ref) (e : Nat) : (s.report n u d).get r e = s.get r e := rfl
@[simp] theorem State.get_reportBy (s : State) (n u v : Nat) (d : List Byte) (r : Ref) (e : Nat) : (s.reportBy n u v d).get r e = s.get r e := rfl
@[simp] theorem State.get_putLane (s : State) (n : Nat) (x : LaneX) (r : Ref) (e : Nat) : (s.putLane n x).get r e = s.get r e := rfl
@[simp] theorem State.get_putPort (s : State) (n : Nat) (x : PortX) (r : Ref) (e : Nat) : (s.putPort n x).get r e = s.get r e := rfl
@[simp] theorem State.get_putGate (s : State) (n : Nat) (x : GateX) (r : Ref) (e : Nat) : (s.putGate n x).get r e = s.get r e := rfl
@[simp] theorem State.get_putTile (s : State) (n : Nat) (x : TileX) (r : Ref) (e : Nat) : (s.putTile n x).get r e = s.get r e := rfl
@[simp] theorem State.get_putCore (s : State) (n c : Nat) (x : CoreX) (r : Ref) (e : Nat) : (s.putCore n c x).get r e = s.get r e := rfl
@[simp] theorem State.get_freeCore (s : State) (n c : Nat) (r : Ref) (e : Nat) : (s.freeCore n c).get r e = s.get r e := rfl
@[simp] theorem State.get_putChan (s : State) (n : Nat) (x : ChanX) (r : Ref) (e : Nat) : (s.putChan n x).get r e = s.get r e := rfl
@[simp] theorem State.get_putEngine (s : State) (n : Nat) (x : EngineX) (r : Ref) (e : Nat) : (s.putEngine n x).get r e = s.get r e := rfl
@[simp] theorem State.get_putIsrc (s : State) (n : Nat) (x : IrqSrc) (r : Ref) (e : Nat) : (s.putIsrc n x).get r e = s.get r e := rfl
@[simp] theorem State.get_putItgt (s : State) (n : Nat) (x : IrqTgt) (r : Ref) (e : Nat) : (s.putItgt n x).get r e = s.get r e := rfl
@[simp] theorem State.get_putBucket (s : State) (n : Nat) (x : Bucket) (r : Ref) (e : Nat) : (s.putBucket n x).get r e = s.get r e := rfl
@[simp] theorem State.get_putPkt (s : State) (x : Pkt) (r : Ref) (e : Nat) : (s.putPkt x).get r e = s.get r e := rfl
@[simp] theorem State.get_dropPkt (s : State) (n : Nat) (r : Ref) (e : Nat) : (s.dropPkt n).get r e = s.get r e := rfl
@[simp] theorem State.get_setCmd (s : State) (q : Ref) (n m : Nat) (l : List Byte) (r : Ref) (e : Nat) : (s.setCmd q n m l).get r e = s.get r e := rfl
@[simp] theorem State.get_putBase (s : State) (n : Nat) (x : Base) (r : Ref) (e : Nat) : (s.putBase n x).get r e = s.get r e := rfl
@[simp] theorem State.get_damage (s : State) (x : Damage) (r : Ref) (e : Nat) : (s.damage x).get r e = s.get r e := rfl
@[simp] theorem State.get_mend (s : State) (n m : Nat) (r : Ref) (e : Nat) : (s.mend n m).get r e = s.get r e := rfl

/-! ### Parts of the state -/

/-- A replaced slot reads as replaced, the others as before. -/
theorem getD_slots (n : Nat) (g : Nat → α) (k : Nat) (v d : α) (j : Nat) :
    (slots n g k v).getD j d = if j < n then (if j = k then v else g j) else d := by
  unfold slots
  by_cases h : j < n
  · simp [h, List.getD_eq_getElem?_getD]
  · simp [h, List.getD_eq_getElem?_getD]

/-- A time base that is set reads so. -/
theorem State.base_putBase (s : State) {n : Nat} (h : n < 8) (b : Base) : (s.putBase n b).base n = b := by
  unfold State.base State.putBase
  simp only [getD_slots, h, if_true]

theorem State.base_putBase_other (s : State) {n k : Nat} (h : k ≠ n) (hk : k < 8) (b : Base) :
    (s.putBase n b).base k = s.base k := by
  show (slots 8 s.base n b).getD k Base.reset = s.base k
  simp only [getD_slots, hk, h, if_true, if_false]

theorem find_ins_same (lt : Nat → Nat → Bool) (n : Nat) (v : α) (m : List (Nat × α)) :
    (ins lt n v m).find? (fun e => e.1 == n) = some (n, v) := by
  induction m with
  | nil => simp [ins]
  | cons e r ih =>
    obtain ⟨k, w⟩ := e
    simp only [ins]
    split
    · simp
    · split
      · simp
      · rename_i h _; simp [h, ih]

/-- A core put to work is found at its place. -/
@[simp] theorem State.core?_putCore (s : State) (t c : Nat) (x : CoreX) : (s.putCore t c x).core? t c = some x := by
  simp [State.core?, State.putCore, find_ins_same]

/-- A core set free is free. -/
@[simp] theorem State.core?_freeCore (s : State) (t c : Nat) : (s.freeCore t c).core? t c = none := by
  have h : (s.freeCore t c).cores.find? (fun e => e.1 == t * 128 + c) = none := by
    simp [State.freeCore, del]
  simp only [State.core?, h]

/-- A word put out of order is damaged so. -/
@[simp] theorem State.damaged_damage (s : State) (d : Damage) : (s.damage d).damaged d.source d.addr = some d := by
  have h : (s.faults.damage.filter fun x => !(x.source == d.source && x.addr == d.addr)).find?
      (fun x => x.source == d.source && x.addr == d.addr) = none := by
    rw [List.find?_eq_none]
    intro x hx
    have h := (List.mem_filter.1 hx).2
    revert h
    cases (x.source == d.source && x.addr == d.addr) <;> simp
  simp only [State.damaged, State.damage, List.find?_append, h]
  simp

/-- A word that has been mended is clean. -/
@[simp] theorem State.damaged_mend (s : State) (source addr : Nat) : (s.mend source addr).damaged source addr = none := by
  simp only [State.damaged, State.mend, List.find?_eq_none]
  intro x hx
  have h := (List.mem_filter.1 hx).2
  revert h
  cases (x.source == source && x.addr == addr) <;> simp

@[simp] theorem State.lane_putLane (s : State) (l : Nat) (x : LaneX) : (s.putLane l x).lane l = x :=
  look_put_same _ _ _ _ _
@[simp] theorem State.port_putPort (s : State) (p : Nat) (x : PortX) : (s.putPort p x).port p = x :=
  look_put_same _ _ _ _ _
@[simp] theorem State.gate_putGate (s : State) (p : Nat) (x : GateX) : (s.putGate p x).gate p = x :=
  look_put_same _ _ _ _ _
@[simp] theorem State.tile_putTile (s : State) (t : Nat) (x : TileX) : (s.putTile t x).tile t = x :=
  look_put_same _ _ _ _ _
@[simp] theorem State.chan_putChan (s : State) (c : Nat) (x : ChanX) : (s.putChan c x).chan c = x :=
  look_put_same _ _ _ _ _
@[simp] theorem State.isrc_putIsrc (s : State) (n : Nat) (x : IrqSrc) : (s.putIsrc n x).isrc n = x :=
  look_put_same _ _ _ _ _
@[simp] theorem State.itgt_putItgt (s : State) (t : Nat) (x : IrqTgt) : (s.putItgt t x).itgt t = x :=
  look_put_same _ _ _ _ _
@[simp] theorem State.cmd_setCmd (s : State) (r : Ref) (st er : Nat) (res : List Byte) :
    (s.setCmd r st er res).cmd r = ⟨st, er, res⟩ := look_put_same _ _ _ _ _
theorem State.port_putPort_other (s : State) {p q : Nat} (h : p ≠ q) (x : PortX) : (s.putPort p x).port q = s.port q :=
  look_put_other _ _ _ h _ _
theorem State.isrc_putIsrc_other (s : State) {n m : Nat} (h : n ≠ m) (x : IrqSrc) : (s.putIsrc n x).isrc m = s.isrc m :=
  look_put_other _ _ _ h _ _

end Sys2Proof.Machine
end

