-- ==== Sys2Proof/Laws/Frame.lean ====
section
/-!
SUPPORT. Sys2Proof/Laws/Frame.lean: the frame every command runs in, said once: on a running device a command runs its
effect, keeps the queue of waiting commands and the power state, and answers; otherwise nothing happens.
-/
namespace Sys2Proof

open Sys2Proof.Machine

@[simp] theorem ran_pending (s u : State) : (ran s u).pending = s.pending := rfl
@[simp] theorem ran_out (s u : State) : (ran s u).out = u.out := rfl
@[simp] theorem ran_free (s u : State) : (ran s u).free = u.free := rfl
@[simp] theorem ran_dict (s u : State) : (ran s u).dict = u.dict := rfl
@[simp] theorem ran_lanes (s u : State) : (ran s u).lanes = u.lanes := rfl
@[simp] theorem ran_ports (s u : State) : (ran s u).ports = u.ports := rfl
@[simp] theorem ran_gates (s u : State) : (ran s u).gates = u.gates := rfl
@[simp] theorem ran_cores (s u : State) : (ran s u).cores = u.cores := rfl
@[simp] theorem ran_tiles (s u : State) : (ran s u).tiles = u.tiles := rfl
@[simp] theorem ran_lookup (s u : State) : (ran s u).lookup = u.lookup := rfl
@[simp] theorem ran_buf (s u : State) : (ran s u).buf = u.buf := rfl
@[simp] theorem ran_buckets (s u : State) : (ran s u).buckets = u.buckets := rfl
@[simp] theorem ran_time (s u : State) : (ran s u).time = u.time := rfl
@[simp] theorem ran_ledger (s u : State) : (ran s u).ledger = u.ledger := rfl
@[simp] theorem ran_host (s u : State) : (ran s u).host = u.host := rfl
@[simp] theorem ran_irq (s u : State) : (ran s u).irq = u.irq := rfl
@[simp] theorem ran_faults (s u : State) : (ran s u).faults = u.faults := rfl
@[simp] theorem ran_sys (s u : State) : (ran s u).sys = { u.sys with power := .run } := rfl

@[simp] theorem fresh_pending (s : State) : (fresh s).pending = s.pending := rfl
@[simp] theorem fresh_out (s : State) : (fresh s).out = [] := rfl
@[simp] theorem fresh_free (s : State) : (fresh s).free = s.free := rfl
@[simp] theorem fresh_dict (s : State) : (fresh s).dict = s.dict := rfl
@[simp] theorem fresh_lanes (s : State) : (fresh s).lanes = s.lanes := rfl
@[simp] theorem fresh_ports (s : State) : (fresh s).ports = s.ports := rfl
@[simp] theorem fresh_gates (s : State) : (fresh s).gates = s.gates := rfl
@[simp] theorem fresh_cores (s : State) : (fresh s).cores = s.cores := rfl
@[simp] theorem fresh_tiles (s : State) : (fresh s).tiles = s.tiles := rfl
@[simp] theorem fresh_lookup (s : State) : (fresh s).lookup = s.lookup := rfl
@[simp] theorem fresh_buf (s : State) : (fresh s).buf = s.buf := rfl
@[simp] theorem fresh_buckets (s : State) : (fresh s).buckets = s.buckets := rfl
@[simp] theorem fresh_time (s : State) : (fresh s).time = s.time := rfl
@[simp] theorem fresh_ledger (s : State) : (fresh s).ledger = s.ledger := rfl
@[simp] theorem fresh_host (s : State) : (fresh s).host = s.host := rfl
@[simp] theorem fresh_irq (s : State) : (fresh s).irq = s.irq := rfl
@[simp] theorem fresh_faults (s : State) : (fresh s).faults = s.faults := rfl
@[simp] theorem fresh_sys (s : State) : (fresh s).sys = s.sys := rfl

@[simp] theorem ran_getK (s u : State) (k : OKey) : (ran s u).getK k = u.getK k := rfl
@[simp] theorem ran_get (s u : State) (r : Ref) (e : Nat) : (ran s u).get r e = u.get r e := rfl
@[simp] theorem fresh_getK (s : State) (k : OKey) : (fresh s).getK k = s.getK k := rfl
@[simp] theorem fresh_get (s : State) (r : Ref) (e : Nat) : (fresh s).get r e = s.get r e := rfl

/-- On a running device a command runs its effect, keeps the queue and the power state, and answers. -/
theorem live_ran {s : State} (h : Runs s) (f : State → State) : live s f = .next (ran s (f (fresh s))) := by
  unfold Runs at h
  simp only [live, h, if_true]
  rfl

/-- Without power, or in reset, a command of the frame does nothing. -/
theorem live_off {s : State} (h : ¬ Runs s) (f : State → State) : live s f = .next (fresh s) := by
  unfold Runs at h
  simp only [live, h, if_false]

/-- The frame adds nothing to an effect that keeps the queue and leaves the device running. -/
theorem ran_eq {s u : State} (hp : u.pending = s.pending) (hu : u.sys.power = .run) : ran s u = u := by
  obtain ⟨⟩ := u
  rename_i sys
  obtain ⟨⟩ := sys
  simp_all [ran]

/-- An effect that keeps the queue and the power state is the whole answer. -/
theorem live_eq {s u : State} {f : State → State} (h : Runs s) (hf : f (fresh s) = u) (hp : u.pending = s.pending)
    (hu : u.sys.power = .run) : live s f = .next u := by
  rw [live_ran h, hf, ran_eq hp hu]

/-- What a command of the frame does is what its effect leaves. -/
theorem does_iff {i : Instr} {s : State} {f : State → State} {P : State → Prop} (e : exec i s = live s f) (h : Runs s) :
    Does i s P ↔ P (ran s (f (fresh s))) := by
  unfold Does
  rw [e, live_ran h]
  constructor
  · rintro ⟨t, ht, hp⟩; cases ht; exact hp
  · exact fun hp => ⟨_, rfl, hp⟩

end Sys2Proof
end

