-- ==== Sys2Proof/Laws/Hash.lean ====
section
/-!
SUPPORT. Sys2Proof/Laws/Hash.lean: the lengths of SHA-256 and HMAC values.
-/
namespace Sys2Proof.Machine

theorem length_leBytes (n v : Nat) : (leBytes n v).length = n := by
  induction n generalizing v with
  | zero => rfl
  | succ n ih => simp [leBytes, ih]

theorem length_beBytes (n v : Nat) : (beBytes n v).length = n := by
  simp [beBytes, length_leBytes]

theorem length_shaBlocks (wide : Bool) (n : Nat) (m : List Byte) (h : List Nat) (hl : h.length = 8) :
    (shaBlocks wide n m h).length = 8 := by
  induction n generalizing m h with
  | zero => exact hl
  | succ n ih => exact ih _ _ (by simp [shaBlock])

/-- A SHA-256 digest has 32 bytes. -/
theorem length_sha256 (m : List Byte) : (sha256 m).length = 32 := by
  have h : (shaStart false).length = 8 := by decide +kernel
  simp [sha256, shaDigest, shaBits, List.length_flatMap, length_beBytes, length_shaBlocks _ _ _ _ h]

/-- An HMAC-SHA-256 value has 32 bytes. -/
theorem length_hmac (k m : List Byte) : (hmac k m).length = 32 := length_sha256 _

end Sys2Proof.Machine
end

