-- ==== Sys2Proof/Laws/Lane.lean ====
section
/-!
SUPPORT. Sys2Proof/Laws/Lane.lean: reading an object after any write, folds over lists of units, and what a change of a
lane's stage can do.
-/
namespace Sys2Proof.Machine

/-- Reading any element after a write of any element. -/
theorem State.get_set (s : State) (r r' : Ref) (v e e' : Nat) :
    (s.set r v e).get r' e' = if r' = r ∧ e' = e then v else s.get r' e' := by
  by_cases h : r' = r ∧ e' = e
  · obtain ⟨rfl, rfl⟩ := h; simp
  · rw [if_neg h, State.get_set_other]; tauto

theorem State.get_count32 (s : State) (r r' : Ref) (n e e' : Nat) :
    (s.count32 r n e).get r' e' = if r' = r ∧ e' = e then min (s.get r e + n) (2 ^ 32 - 1) else s.get r' e' :=
  State.get_set ..

theorem State.get_count64 (s : State) (r r' : Ref) (n e e' : Nat) :
    (s.count64 r n e).get r' e' = if r' = r ∧ e' = e then (s.get r e + n) % 2 ^ 64 else s.get r' e' := State.get_set ..

/-! ### Folds -/

/-- What every step of a fold keeps, the fold keeps. -/
theorem State.each_keeps {β : Type} (P : State → Prop) (l : List β) (f : State → β → State)
    (hf : ∀ s x, x ∈ l → P s → P (f s x)) : ∀ s : State, P s → P (s.each l f) := by
  unfold State.each
  induction l with
  | nil => exact fun s h => h
  | cons x l ih =>
    intro s h
    exact ih (fun s y hy => hf s y (List.mem_cons_of_mem _ hy)) _ (hf s x (List.mem_cons_self ..) h)

/-- An element no step of a fold writes keeps its value. -/
theorem State.get_each {β : Type} (l : List β) (f : State → β → State) (r : Ref) (e : Nat)
    (hf : ∀ s x, x ∈ l → (f s x).get r e = s.get r e) (s : State) : (s.each l f).get r e = s.get r e :=
  State.each_keeps (fun t => t.get r e = s.get r e) l f (fun t x hx h => (hf t x hx).trans h) s rfl

/-- A fold over distinct units whose step changes one unit's data only: each unit of the list changes once, from what it
was before the fold. -/
theorem State.each_local {α : Type} (D : State → Nat → α) (G : Nat → α → α) (f : State → Nat → State)
    (ho : ∀ s l, D (f s l) l = G l (D s l)) (hx : ∀ s l k, k ≠ l → D (f s l) k = D s k) (l : List Nat) (hn : l.Nodup)
    (s : State) (k : Nat) : D (s.each l f) k = if k ∈ l then G k (D s k) else D s k := by
  unfold State.each
  induction l generalizing s with
  | nil => simp
  | cons a l ih =>
    rw [List.foldl_cons, ih (List.nodup_cons.1 hn).2]
    have ha := (List.nodup_cons.1 hn).1
    by_cases hk : k = a
    · subst hk; simp [ha, ho]
    · simp [hk, hx _ _ _ hk]

/-! ### Stages -/

/-- The objects of a lane that a change of its stage may write. -/
def stageRefs (l : Nat) : List Ref :=
  [O.STAGE l, O.LAST_EXIT l, O.RATE_ACTIVE l, O.TRAIN_PHASE l, O.FROZEN l, O.FFE_TAPS l, O.DFE_TAP l, O.CLAMP_COUNT l,
   O.TX_FIR l]

theorem State.get_putTaps (s : State) (l : Nat) (taps : List Int) (r : Ref) (e : Nat) (h1 : r ≠ O.FFE_TAPS l)
    (h2 : r ≠ O.CLAMP_COUNT l) : (s.putTaps l taps).get r e = s.get r e := by
  unfold State.putTaps
  refine State.get_each _ _ _ _ (fun s x _ => ?_) s
  simp only [State.get_set, h1, false_and, if_false]
  refine (apply_ite (fun t : State => t.get r e) _ _ _).trans ?_
  simp only [State.get_count32, h2, false_and, if_false, ite_self]

theorem State.get_putDfe (s : State) (l : Nat) (v : Int) (r : Ref) (e : Nat) (h1 : r ≠ O.DFE_TAP l)
    (h2 : r ≠ O.CLAMP_COUNT l) : (s.putDfe l v).get r e = s.get r e := by
  unfold State.putDfe
  simp only [State.get_set, h1, false_and, if_false]
  refine (apply_ite (fun t : State => t.get r e) _ _ _).trans ?_
  simp only [State.get_count32, h2, false_and, if_false, ite_self]

/-- What a lane sends leaves every object as it is. -/
theorem State.get_sendTraining (s : State) (l : Nat) (r : Ref) (e : Nat) : (s.sendTraining l).get r e = s.get r e := rfl

theorem State.get_sendExchange (s : State) (l : Nat) (r : Ref) (e : Nat) : (s.sendExchange l).get r e = s.get r e := rfl

theorem State.get_sendMarkers (s : State) (l : Nat) (r : Ref) (e : Nat) : (s.sendMarkers l).get r e = s.get r e := by
  unfold State.sendMarkers State.markerArmed
  simp only []
  split <;> rfl

/-- Entering a stage writes only the lane's own objects. -/
theorem State.get_stageEnter (s : State) (l st why : Nat) (r : Ref) (e : Nat) (h : r ∉ stageRefs l) :
    (s.stageEnter l st why).get r e = s.get r e := by
  simp only [stageRefs, List.mem_cons, List.not_mem_nil, or_false, not_or] at h
  obtain ⟨h1, h2, h3, h4, h5, h6, h7, h8, h9⟩ := h
  unfold State.stageEnter State.trainFresh
  simp only []
  split <;> try split
  all_goals
    simp [State.modLane, State.get_set, State.get_putTaps, State.get_putDfe, State.get_sendTraining,
      State.get_sendExchange, State.get_sendMarkers, h1, h2, h3, h4, h6, h7, h8, h9]

/-- A change of a lane's stage that does not leave ACTIVE writes only that lane's own objects. -/
theorem State.get_laneGo (s : State) (l st why : Nat) (r : Ref) (e : Nat) (hs : s.stage l ≠ Stage.active)
    (h : r ∉ stageRefs l) : (s.laneGo l st why).get r e = s.get r e := by
  unfold State.laneGo State.stageLeave
  split
  · rfl
  · rw [if_pos (.inl hs), State.get_stageEnter _ _ _ _ _ _ h]

/-- After a change of its stage a lane whose bank's microsequencer runs is in the stage, and shows the reason. -/
theorem State.stage_laneGo (s : State) (l st why : Nat) (hb : s.sys.seqDown.contains (bankOfLane l) = false) :
    (s.laneGo l st why).get (O.STAGE l) = st := by
  unfold State.laneGo State.stageEnter State.trainFresh
  rw [hb]
  simp only [Bool.false_eq_true, if_false]
  split <;> try split
  all_goals
    simp [State.modLane, State.get_set, State.get_putTaps, State.get_putDfe, State.get_sendTraining,
      State.get_sendExchange, State.get_sendMarkers]

theorem State.lastExit_laneGo (s : State) (l st why : Nat) (hb : s.sys.seqDown.contains (bankOfLane l) = false) :
    (s.laneGo l st why).get (O.LAST_EXIT l) = why := by
  unfold State.laneGo State.stageEnter State.trainFresh
  rw [hb]
  simp only [Bool.false_eq_true, if_false]
  split <;> try split
  all_goals
    simp [State.modLane, State.get_set, State.get_putTaps, State.get_putDfe, State.get_sendTraining,
      State.get_sendExchange, State.get_sendMarkers]

end Sys2Proof.Machine
end

