-- ==== Sys2Proof/Laws/Memory.lean ====
section
/-!
SUPPORT. Sys2Proof/Laws/Memory.lean: the list of object elements keeps its canonical form under every write to it: one
element, or the removal of whole objects.
-/
namespace Sys2Proof

open Sys2Proof.Machine

/-- Removing elements keeps the canonical form. -/
theorem canonical_filter (m : List (OKey × Nat)) (p : OKey × Nat → Bool) (h : objsCanonical m = true) :
    objsCanonical (m.filter p) = true := by
  simp only [objsCanonical, Bool.and_eq_true, List.all_eq_true] at *
  refine ⟨?_, fun e he => h.2 e (List.mem_of_mem_filter he)⟩
  have hr := h.1
  clear h
  induction m with
  | nil => rfl
  | cons a m ih =>
    have hm : rising ltKey m = true := rising_cons ltKey a m hr
    rw [List.filter_cons]
    split
    · refine rising_of_above ltKey a _ (ih hm) ?_
      intro e he
      exact rising_above ltKey ltKey_trans a m hr e (List.mem_of_mem_filter he)
    · exact ih hm

/-- Writing an element keeps the canonical form. -/
theorem canonical_setK (s : State) (k : OKey) (v : Nat) (h : objsCanonical s.dict.objs = true) :
    objsCanonical (s.setK k v).dict.objs = true := by
  simp only [objsCanonical, Bool.and_eq_true, List.all_eq_true] at *
  refine ⟨rising_put ltKey ltKey_trans ltKey_total _ k v _ h.1, fun e he => ?_⟩
  rcases mem_put ltKey _ k v _ e he with ⟨rfl, hv⟩ | he
  · simpa using hv
  · exact h.2 e he

/-- The machine after reset lists no element. -/
theorem canonical_reset : objsCanonical State.reset.dict.objs = true := rfl

end Sys2Proof
end

