-- ==== Sys2Proof/Tests/Slice0.lean ====
section
/-!
SUPPORT. Sys2Proof/Tests/Slice0.lean: the model's own tests.
First small tests whose expected results are the spec's own words (each names its rule); then ill-formed commands, one for
each check of `Instr.wf`, which the check refuses; last, for every obligation with hypotheses, a theorem `witness_<name>`
that gives, clause by clause, a state and operands that meet all the hypotheses of that clause together.
-/
namespace Sys2Proof.Tests

open Sys2Proof.Machine

-- One theorem at a time: checked side by side, these would ask for too many threads.
set_option Elab.async false

/-! ### Values the spec works out -/

/-- 00: queue 5 of port 48 is global queue 773, and port 48 is of tile 3 and bank 0. -/
theorem test_port_numbers : 48 * 16 + 5 = 773 ∧ gateBit 773 = 5 ∧ tileOfPort 48 = 3 ∧ bankOfLane 48 = 0 := by decide

/-- 04 R99: a 3.2 Tb/s port is eight lanes of 400 Gb/s. -/
theorem test_port_speed : speedOf 5 8 false = 3200 ∧ speedOf 1 1 true = 10 := by decide

/-- 05, the worked program's encodings, read. -/
theorem test_ochre_words : ochreDecode 5 9 0x58400000 = some (.ldw 5 9 1 ⟨false, 0, 0⟩) ∧
    ochreDecode 5 9 0x480C8100 = some (.cmpi 5 9 3 0x8100) ∧ ochreDecode 5 9 0x51920000 = some (.ldb 5 9 6 ⟨true, 4, 0⟩) ∧
    ochreDecode 5 9 0x82DC0000 = some (.hsy4 5 9 11 7) ∧ ochreDecode 5 9 0x91B40003 = some (.amb 5 9 6 13 3) ∧
    ochreDecode 5 9 0xFC000000 = some (.end_ 5 9) := by decide +kernel

/-- 05, the worked program's word at address 11: a branch to 15 on not equal. -/
theorem test_ochre_branch : ochreDecode 5 9 0x7080000F = some (.bcc 5 9 2 15) := by decide +kernel

/-- 05 R152: vectors A, A reversed and B. -/
theorem test_hsy4 : hsy4 0 0xC000020A 0xC6336407 0xC00001BB 6 false = 0x6D0CB078 ∧
    hsy4 0 0xC6336407 0xC000020A 0x01BBC000 6 false = 0x6D0CB078 ∧
    hsy4 0 0xC000020A 0xC6336407 0xC00001BB 17 true = 0xFB96C0B6 := by decide +kernel

/-- 06 R170: the engines' register, from its seed. -/
theorem test_lfsr : lfsrStep 1 = 3 ∧ lfsrStep 0x80000000 = 1 := by decide

/-- 06 R173: the four forms' fields, port 80 queue 9, group 0xBEEF, fate 0x24, host queue 8,200. -/
theorem test_action_references :
    ((refActions 0x4A1200).kind, (refActions 0x4A1200).value, (refActions 0x4A1200).queue) = (1, 80, 9) ∧
    ((refActions 0x80BEEF).kind, (refActions 0x80BEEF).value) = (2, 0xBEEF) ∧
    ((refActions 0xD00024).kind, (refActions 0xD00024).fate) = (4, 0x24) ∧
    ((refActions 0xE00008).kind, (refActions 0xE00008).value) = (3, 8200) ∧
    refActions 0xF00008 = ActSet.none := by decide +kernel

/-- 08, the worked example's costs. -/
theorem test_costs : tagCost 1520 100 = 996148 ∧ tagCost 84 300 = 18351 ∧ tagCost 9020 100 = 5911348 := by decide

/-- 09, the worked example: the data of the first offset, and the rates written. -/
theorem test_adjust_data :
    leNat [0x00, 0x80, 0x8E, 0x0C, 0, 0, 0, 0] = 0x0C8E8000 ∧ 2 * 0x0C8E8000 = 6429 * 65536 := by decide

/-- 12, the worked example's claim results. -/
theorem test_claims : claimWord 0xF41 0x20 1 = 0x00120F41 ∧ claimWord 0xF42 0x3F 1 = 0x0013FF42 := by decide

/-! ### Ill-formed commands, one for each check -/

theorem test_wf_ref : Instr.wf (.read (.window 0) ⟨0x10000, 0, 0⟩ 0 0) = false ∧
    Instr.wf (.readStaged (.window 0) ⟨0, 2 ^ 24, 0⟩ 0 0) = false ∧
    Instr.wf (.write (.window 0) ⟨0, 0, 256⟩ 0 []) = false ∧
    Instr.wf (.writeStaged (.window 0) ⟨0x10000, 0, 0⟩ 0 []) = false ∧
    Instr.wf (.describe (.window 0) ⟨0x10000, 0, 0⟩) = false := by decide

theorem test_wf_span : Instr.wf (.read (.window 0) ⟨0, 0, 0⟩ (2 ^ 32) 0) = false ∧
    Instr.wf (.read (.window 0) ⟨0, 0, 0⟩ 0 (2 ^ 32)) = false ∧
    Instr.wf (.readStaged (.window 0) ⟨0, 0, 0⟩ (2 ^ 32) 0) = false ∧
    Instr.wf (.readStaged (.window 0) ⟨0, 0, 0⟩ 0 (2 ^ 32)) = false ∧
    Instr.wf (.write (.window 0) ⟨0, 0, 0⟩ (2 ^ 32) []) = false ∧
    Instr.wf (.writeStaged (.window 0) ⟨0, 0, 0⟩ (2 ^ 32) []) = false := by decide

theorem test_wf_register : Instr.wf (.registerWrite 2 false (.write 0)) = false ∧
    Instr.wf (.registerWrite 4 true .read) = false ∧ Instr.wf (.registerWrite 4 false .read) = true := by decide

theorem test_wf_datagram : Instr.wf (.hello 0 ⟨false, 2 ^ 32, 0, 0, 0, []⟩) = false ∧
    Instr.wf (.open_ 0 ⟨true, 0, 0, 2 ^ 128, 0, []⟩) = false ∧
    Instr.wf (.bolsyRequest 0 ⟨false, 0, 2 ^ 16, 0, 0, []⟩) = false ∧
    Instr.wf (.bolsyClose 0 ⟨false, 0, 0, 0, 2 ^ 16, []⟩) = false := by decide

theorem test_wf_frames : Instr.wf (.mgmtFrameReceive 0 (List.replicate (2 ^ 16) 0)) = false ∧
    Instr.wf (.frameReceive 0 .whole (List.replicate (2 ^ 16) 0)) = false ∧
    Instr.wf (.frameReceiveEnd 0 false (List.replicate (2 ^ 16) 0) false) = false ∧
    Instr.wf (.pauseFrameReceive 0 (List.replicate (2 ^ 16) 0)) = false ∧
    Instr.wf (.arrivalStallEnd 0 0 (List.replicate (2 ^ 16) 0) 0) = false ∧
    Instr.wf (.pcieReadCompletion 0 (List.replicate 4097 0)) = false := by
  simp only [Instr.wf, List.length_replicate]; decide

theorem test_wf_lists : Instr.wf (.deskewFail 0 (List.replicate 9 0)) = false ∧
    Instr.wf (.eyeScanDone 0 (List.replicate 17 0)) = false ∧
    Instr.wf (.fecDegradeWindow 0 (List.replicate 15 0) 0 0) = false ∧
    Instr.wf (.pcieLinkUp 0 4) = false ∧ Instr.wf (.pcieLinkUp 5 3) = false := by decide

/-! ### States the witnesses start from -/


/-- Running, arrays initialised. -/
def up : State := { State.reset with sys := { State.reset.sys with initDone := true } }
/-- A packet of port 80, whole or still arriving. -/
def pkt (ended : Bool) : Pkt :=
  { Pkt.fresh 9 (.port 80) 5 with bytes := List.replicate 100 7, ended := ended, ctx := zeros 64, phase := .parsing }
/-- A core at work on it: w1 is 5, w2 is 2^32 - 1, w3 is 96. -/
def cor : CoreX :=
  ⟨9, [0, 5, 0xFFFFFFFF, 96] ++ List.replicate 12 1, 0, [], false, true, false, false, 0, 4, 0, 0, none, false, false, false,
    0, false, false⟩
/-- Core 3 of tile 5 at instruction `i`, alone in its program. -/
def at_ (i : Instr) (x : CoreX) (p : Pkt) : State :=
  let s := (up.set (O.PROGRAM_LENGTH 5) 1).set (O.PROGRAM 5) ((ochreEncode i).getD 0) 0
  { s with buf := { s.buf with pkts := [p] } }.putCore 5 3 x
/-- A scan of 91 bytes, its result there or still out. -/
def scn (lat result : Nat) (ready : Bool) : Scan := ⟨5, 96, 1, false, 4, lat, result, ready⟩
/-- Its frame at its dispatch point. -/
def pointed : State := { up with buf := { up.buf with pkts := [{ pkt false with phase := .arriving, filtered := true, bytes := List.replicate 256 7 }] } }
/-- Its frame at the head of a full tile's queue, core 0 free. -/
def dispatched : State :=
  (({ up with buf := { up.buf with pkts := [{ pkt true with phase := .queued }] } }.set (O.TILE_SERVICE 5) 2).modTile 5
    fun y => { y with dq := [9] })
/-- The row of an object. -/
def rowAt (r : Ref) : ObjRow := (rowOf (indexRows r.idx) r.sub).getD ⟨0, 0, 0, .u8, .ro, 0, 1, .upto 0, .none, []⟩
/-- Area `a` is leased by Bolsy session 3. -/
def leased (a : Nat) : State :=
  State.set { up with dict := { up.dict with leases := [(a, 100)] } } (O.LEASE_HOLDER a) 3
/-- A group in a state, with one staged element. -/
def staged (g st : Nat) (k : OKey) (v : Nat) : State :=
  State.set { up with dict := { up.dict with shadow := [(k, v)] } } (O.GROUP_STATE g) st
/-- A commit of group 0x40 by window 0, in a phase. -/
def cmt (ph : CPhase) (fl : List Nat) : Commit := ⟨1, [0x40], [0x40], ph, fl, [], .window 0, [], [], true⟩
/-- A commit of group 0x10, which no tile uses. -/
def cmt10 : Commit := ⟨1, [0x10], [0x10], .validating, [], [], .window 0, [], [], true⟩
def committing10 : State :=
  let s := staged 0x10 gValidating ⟨O.TB_RATE 0, 0⟩ 0
  { s with dict := { s.dict with shadow := [], commits := [cmt10] } }
/-- It is under way, with a program length staged for tile 0. -/
def committing (ph : CPhase) (fl : List Nat) (v : Nat) : State :=
  let s := staged 0x40 (if ph = .validating then gValidating else gFlipping) ⟨O.PARSE_BUDGET 0, 0⟩ v
  let s := if v = 0 then s else { s with dict := { s.dict with shadow := [(⟨O.PROGRAM_LENGTH 0, 0⟩, v)] } }
  { s with dict := { s.dict with commits := [cmt ph fl] } }
/-- A bitmap that names group 0x40. -/
def map40 : List Byte := patch (zeros 32) 8 [1]
/-- An ECHO of no data waits at window 3; once it has been carried out. -/
def owS : State :=
  let s := up.putWin 3 { Win.reset with op := some ⟨10, 7, true, false, none⟩ }
  { s with dict := { s.dict with winOrder := [3] } }
def owV : State := (State.dictOp { fresh owS with dict := { owS.dict with winOrder := [] } } (.window 3) 10 ⟨0, 0, 0⟩ 0 0 [] false).2
/-- A COMMIT of group 0x40 waits at window 3, whose shadow holds a value; once it has begun. -/
def owC : State :=
  let s := (staged 0x40 gDirty ⟨O.PARSE_BUDGET 1, 0⟩ 200).putWin 3
    { Win.reset with length := 32, data := map40, op := some ⟨6, 7, true, false, none⟩ }
  { s with dict := { s.dict with winOrder := [3] } }
def owD : State :=
  (State.dictOp { fresh owC with dict := { owC.dict with winOrder := [] } } (.window 3) 6 ⟨0, 0, 0⟩ 0 32 map40 false).2
/-- Firmware running, management port 0 with its addresses. -/
def fwUp : State :=
  State.set (State.set { up with sys := { up.sys with fw := .running } } (O.MGMT_MAC 0) 0x020000000001) (O.IPV4_ADDR 0) 0xC0000201
/-- An ARP request for that address. -/
def arp : List Byte :=
  List.replicate 6 0xFF ++ [2, 0, 0, 0, 0, 9, 8, 6, 0, 1, 8, 0, 6, 4, 0, 1, 2, 0, 0, 0, 0, 9, 0xC0, 0, 2, 9] ++ zeros 6 ++ [0xC0, 0, 2, 1]
/-- A datagram to its Bolsy port. -/
def dgram (b : List Byte) : Udp := ⟨false, 0xC0000209, 700, 0xC0000201, fwUp.get O.BOLSY_UDP_PORT, b⟩
/-- Session 2, with keys of its own. -/
def sess : Sess := ⟨[1], [2], zeros 32, List.replicate 32 1, 10, 0, [], [(4, [7])], []⟩
def sessUp : State := { fwUp with dict := { fwUp.dict with sessions := [(2, sess)] } }
/-- A sealed frame of session 2: type, sequence number, payload. -/
def frame (ty seq : Nat) (b : List Byte) : List Byte :=
  let x := [0xB0, 0x15, 1, nb ty, 0, 2] ++ beBytes 2 b.length ++ beBytes 8 seq ++ b
  sealed (zeros 32) x
/-- A HELLO of manager 0. -/
def helloF : Udp := dgram ([0xB0, 0x15, 1, 1, 0, 0xFF, 0, 20] ++ zeros 8 ++ [0, 0, 0, 0] ++ List.replicate 16 3)
/-- One ECHO operation of no data. -/
def echoOp : List Byte := [1, 0, 0, 0, 10, 0, 0, 0, 0, 0, 0, 0, 0, 0, 0, 0, 0, 0, 0, 0]
/-- Manager 0 enabled, and an OPEN frame of it: its cookie, its body, its tag. -/
def managerUp : State := fwUp.set (O.MANAGER_ENABLE 0) 1
def openCookie : List Byte := cookie managerUp.dict.secretNow (dgram []) 0 (List.replicate 16 3)
def openBody (ck : List Byte) : List Byte :=
  bolsyBody 3 0 0xFF 0 ([0, 0, 0, 0] ++ List.replicate 16 3 ++ ck ++ [0, 60, 0, 0])
def openTag : List Byte :=
  (hmac (sessionKeys (managerUp.managerKey 0) (List.replicate 16 3) openCookie).1 (openBody openCookie)).take 16
/-- Object `r` at a value. -/
def having (r : Ref) (v : Nat) (s : State) : State := s.set r v
/-- A port of `n` lanes at lane `p`. -/
def portAt (p n : Nat) : State := up.set (O.PORT_MAP (p / 16)) n (p % 16)
/-- Lane `l` in a stage. -/
def staged_ (l st : Nat) (s : State) : State := s.set (O.STAGE l) st
/-- Bank 7 locked to input 0, lanes 448 and 496 of inputs 28 and 31 active; input `n` of the bank healthy. -/
def clocked (n : Nat) : State :=
  staged_ 448 5 (staged_ 496 5 (having (O.REF_HEALTHY 28) 1 (having (O.REF_HEALTHY n) 1 (having (O.BANK_STATE 7) 1 up))))
/-- Lane 511 in a stage, alone on its one-lane port. -/
def lane (st : Nat) : State := staged_ 511 st (portAt 511 1)
/-- A training frame whose check matches, of sequence number 1. -/
def trainFrame : BitVec 208 := BitVec.ofNat 208 (2 ^ 192 + crc16Bits (2 ^ 176) 192)
/-- The capabilities that lane 511 expects of its partner, with ack. -/
def capsOk : BitVec 128 := BitVec.ofNat 128 (2 ^ 97 + 1 * 2 ^ 104)
/-- Lane 511 in TRAIN of mode 5, both ends ready; with a partner that lists G4, its tile in full service. -/
def train5 : State := (having (O.LANE_MODE 511) 5 (lane 2)).modLane 511 fun x => { x with ready := true, partnerReady := 3 }
def g4up : State := (having (O.TILE_SERVICE 31) 2 train5).modLane 511 fun x => { x with partnerG4 := true, phaseOut := true, phaseSeen := 16 }
/-- A marker group: four markers of lane 0, tag 0, count 0. -/
def group0 : List Byte := (List.range 4).flatMap fun m => marker m 0 0 0 0 0
/-- Lanes 510 and 511 one port of mode 5, lane 510 at 425 Gb/s in LOCK. -/
def pairUp (rate st : Nat) : State :=
  having (O.LANE_MODE 510) 5 (having (O.RATE_ACTIVE 510) rate (staged_ 510 st
    ((((having (O.LANE_MODE 511) 5 (staged_ 511 2 (portAt 510 2))).modLane 511 fun x => { x with ready := true, partnerReady := 3 })))))
/-- Windows that see idle alone, and windows with every transition. -/
def dull : List (Bool × Fin 17) := [(true, 16), (false, 0)]
def busy : List (Bool × Fin 17) := [(false, 16)]
/-- Bank 7 without its microsequencer. -/
def bankDown (s : State) : State := { s with sys := { s.sys with seqDown := [7] } }
/-- Port 511 of one lane, up, with a packet of its queue 3 (global queue 8179) at its head. -/
def live511 : State := (portAt 511 1).modPort 511 fun x => { x with up := true }
def heldBy (q : Nat) : Holder := ⟨1, .egress, q, .reserve, 0, false, 0, true, 0, 0, 0, 0, true, 0⟩
def enq (q : Nat) : Pkt := { pkt true with phase := .enqueued, enq := true, holders := [heldBy q], cells := [12], dcIn := 1 }
def queued (p : Pkt) (g : Nat) : State := { live511 with buf := { live511.buf with pkts := [p], queues := [(g, [(9, 1)])], nextFid := 10 } }
/-- A frame of packet 9 that port 511 sends. -/
def tx (sent : Nat) : Tx := ⟨9, 1, 8179, 5, 5, some (List.replicate 200 7), sent, 0, 0, 0, false⟩
def sending (x : PortX → PortX) : State := (queued { enq 8179 with started := true, holders := [{ heldBy 8179 with started := true }] } 0).modPort 511 x
def pauseF : List Byte := pauseFrame 0x020000000001 1 (beBytes 2 500)
/-- The pause frame opened on the port. -/
def pauseT : State := ((fresh (live511.set (O.FLOW_CTRL 511) 1)).openFrame 511 false pauseF).modPort 511 fun x => { x with rxWhole := none }
def pauseQ : Pkt := (pauseT.pkt? 0).getD (pkt true)
/-- Port 511 in priority flow control, queue class 1 stopped. -/
def pfc : State := ((live511.set (O.FLOW_CTRL 511) 2).set (O.XOFF_QUANTA 511) 100).set (O.PFC_PRIORITIES 511) 0x90
/-- Port 511 mid-frame: packet 9 of 100 bytes from it. -/
def arriving : State :=
  { (live511.modPort 511 fun x => { x with rxWhole := some 9, rxPre := some 9, rxCount := 1 }) with
    buf := { live511.buf with pkts := [{ pkt false with src := .port 511, phase := .arriving, filtered := true }], nextFid := 10 } }
/-- The last byte of packet 9 with a receive error. -/
def endT : State := ((fresh arriving).putPort 511 { arriving.port 511 with rxWhole := none }).moreBytes 511 (some 9) (List.replicate 100 7)
def endQ : Pkt := (endT.pkt? 9).getD (pkt true)
/-- What a port that leaves UP leaves behind. -/
def leftD (s : State) (c : DownCause) : State :=
  (((leftUp (fresh s) 511 (downCode c)).loseTx 511 (s.port 511).tail true).loseTx 511 (s.port 511).txPre false).loseTx 511 (s.port 511).txExp false
/-- What a pick of port 511 finds: the members that may go, the state, the fair choice. -/
def goW (s : State) : List Nat × State := (fresh s).sweepHeads 511 ((fresh s).members 511)
def goV (s : State) : State := (goW s).2.each ((((goW s).1.filter ((goW s).2.mayGo 511 false)).filter fun g =>
  !(((goW s).1.filter ((goW s).2.mayGo 511 false)).filter ((goW s).2.headGuard 511)).contains g)) fun s g => s.count64 (O.SCHED_COUNTS g 6)
def readyQ (p : Pkt) : State := queued p 8179
def damagedQ : State := { readyQ (enq 8179) with faults := { Faults.reset with damage := [⟨0x400 + bankOfCell 12, 12, 2, false, false⟩] } }
/-- Port 511 runs one gate list of two entries; its tile is in full service. -/
def gated (n : Nat) : State :=
  (((live511.set (O.TILE_SERVICE 31) 2).set (O.GATE_LIST_0 511) (100 + 2 ^ 32 * n) 0).set (O.GATE_LIST_0 511) 900 1).putGate 511
    ⟨some ⟨0, 0, 1000, 2, 0⟩, some ⟨0, 0, 1000, 2, 0⟩, false⟩
/-- It sends a frame whose gate closes in 100 ns, at 10 Gb/s. -/
def closing : State :=
  let s := { sending (fun x => { x with txPre := some (tx 0) }) with gates := (gated 8).gates }
  let s : State := { s with dict := { (gated 8).dict with objs := ((gated 8).set (O.PREEMPT_ACTIVE 511) 1).dict.objs } }
  (s.set (O.SPEED_ACTIVE 511) 10).set (O.GUARD_MARGIN_NS 511) 0
/-- It sends one that may be cut, held, or with an express frame waiting; the same frame with an error in it. -/
def heldTx : State := ((sending (fun x => { x with txPre := some (tx 0) })).putGate 511 { GateX.reset with held := true }).set (O.PREEMPT_ACTIVE 511) 1
def cutTx : State := (sending (fun x => { x with txPre := some (tx 0), txExp := some { tx 0 with waits := true } })).set (O.PREEMPT_ACTIVE 511) 1
def spoilt (s : State) : State := { s with buf := { s.buf with pkts := s.buf.pkts.map fun q => { q with poison := true } } }
/-- Port 511 sends packet 9 as an express frame; as its end is met. -/
def txQ : Pkt := { enq 8179 with started := true, holders := [{ heldBy 8179 with started := true }] }
def endTx : State := sending fun x => { x with txExp := some (tx 0) }
def endV : State := (((fresh endTx).putPort 511 ((endTx.port 511).putTx false none)).useDesc txQ).2
/-- The time bases stand at ten seconds. -/
def later (s : State) : State := { s with time := { s.time with bases := List.replicate 8 { Base.reset with sec := 10 } } }
/-- Policer 65535 of profile 4095: under way in mode 2, and to be filled in mode 1. -/
def polUp : State := ((({ up with time := { TimeX.reset with ticks := 1000000 } }).set (O.POLICER_MODE 4095) 2).set (O.CIR 4095) 100).set (O.POLICER_STATE) (polWrite ⟨4095, false, 7, 5, 6⟩) 65535
def polNew : State := (up.set (O.POLICER_MODE 4095) 1).set (O.POLICER_STATE) (polWrite ⟨4095, true, 7, 5, 6⟩) 65535
/-- Table 63: an exact-match table of 64 buckets at bucket 0, keys of three bytes. -/
def tabX : State := ((up.set (O.TABLE_KIND 63) 1).set (O.TABLE_SIZE 63) 64).set (O.KEY_BYTES 63) 3
def dX : Decl := tabX.decl 63
/-- The key of the operations: bytes 1, 2, 3. -/
def key3 : Nat := 0x030201
/-- An operation of table 63, all moves made, at its engine. -/
def jobX (op fl : Nat) : EngJob := ⟨63, opRecord op fl 0 [1, 2, 3] 0x777, none, true, [], 0⟩
def atEng (s : State) (j : EngJob) : State := s.putEng ((s.decl j.table).partition) { s.eng (s.decl j.table).partition with jobs := [j] }
/-- The key stands at its first candidate unit. -/
def holdsKey (fl : Nat) : State := tabX.putUnit ((dX.candidates key3).headD 0) (mkEntry key3 5 0 fl)
/-- Every unit of the key's buckets holds another key. -/
def fullUp (fl : Nat) : State := tabX.each (dX.candidates key3) fun s u => s.putUnit u (mkEntry (1000 + u) 5 0 fl)
/-- The key stands in the stash alone, the buckets full of other keys. -/
def inStash (op fl : Nat) : State :=
  (fullUp 1).putEng dX.partition { (fullUp 1).eng dX.partition with stash := [⟨63, mkEntry key3 5 0 1⟩], jobs := [jobX op fl] }
/-- Table 62: 32-bit prefixes, region k of 8192 buckets at bucket 8192 * (k + 1). -/
def tabL : State :=
  (List.range 4).foldl (fun s k => (s.set (O.LPM_REGIONS 62) (8192 * (k + 1)) (2 * k)).set (O.LPM_REGIONS 62) 8192 (2 * k + 1))
    ((up.set (O.TABLE_KIND 62) 3).set (O.KEY_BYTES 62) 4)
def dL : Decl := tabL.decl 62
/-- An operation on prefix 10.1.0.0 of a length. -/
def jobL (op fl len : Nat) : EngJob := ⟨62, opRecord op fl len [10, 1, 0, 0] 0x777, none, true, [], 0⟩
def recL (act : Nat) : LRec := ⟨62, 0, 0x0A010000, 16, act⟩
def withRec (s : State) : State := { s with lookup := { s.lookup with recs := [recL 5] } }
/-- Table 62 without room. -/
def noRoom : State := up.set (O.TABLE_KIND 62) 3
/-- A packet at the head of its port, in its tile's reorder buffer. -/
def inReorder : Pkt := { pkt true with phase := .reorder, filtered := true }
def reordered (k : Pkt) : State := { up with buf := { up.buf with pkts := [k], nextFid := 10 } }
def counted (s : State) (k : Pkt) : State :=
  ((fresh s).putTile 5 { s.tile 5 with reorder := (s.tile 5).reorder.filter (· != k.fid) }).count64 (O.MATCH_COUNTS 5 1)
def full (s : State) (k : Pkt) := (counted s k).fullMatch k
def dflt (s : State) (k : Pkt) := (counted s k).defaultMatch k
/-- A sighting of key 7 on port 5, and a cache that holds the key. -/
def sighted (port : Nat) (co : Bool) : State :=
  { up with lookup := { up.lookup with offered := [⟨7, 5, 0, 0, 0, none, false, false, 0⟩], cache := [⟨7, port, 1, 0, 0, co⟩] } }
/-- An associative row that every packet meets, its action a direct reference. -/
def withRow (s : State) : State := s.set (O.MAM_IMAGE 5) (2 ^ 664 + 2 ^ 640 * (2 ^ 22 + 5)) 4095
/-- Table 62 with its record region above its index regions, the index of its last level damaged. -/
def tabU : State :=
  let s := (List.range 4).foldl (fun s k => (s.set (O.LPM_REGIONS 62) (8192 * (4 - k)) (2 * k)).set (O.LPM_REGIONS 62) 8192 (2 * k + 1))
    ((up.set (O.TABLE_KIND 62) 3).set (O.KEY_BYTES 62) 4)
  { s with faults := { Faults.reset with damage := [⟨0x300, 32771, 2, false, false⟩] } }
/-- A packet whose context begins 1, 2, 3, 200; a step of table `t` on `n` bytes of it from byte `a`. -/
def kp : Pkt := { inReorder with ctx := [1, 2, 3, 200] ++ zeros 60 }
def stp (t a n : Nat) : PlanStep := ⟨t, 0, a, n, 0, 0, 1, 0⟩
/-- Table 61: 64 rows of direct index, row 1 the flood destination 7. -/
def tabD : State :=
  (((up.set (O.TABLE_KIND 61) 2).set (O.TABLE_SIZE 61) 64).set (O.KEY_BYTES 61) 1).putUnit 1 (leNat ([2, 0, 7, 0] ++ zeros 12))
def dD : Decl := tabD.decl 61
/-- Steps of tile 5's plan: table, role, miss action, each on context byte 0. -/
def planned (s : State) (l : List (Nat × Nat × Nat)) : State :=
  s.each (List.range l.length) fun s i => let x := l.getD i (0, 0, 0)
    s.each (List.range 8) fun s j => s.set (O.PLAN 5) ([x.1, x.2.1, 0, 1, 0, 0, 1 + 16 * x.2.2, 0].getD j 0) (8 * i + j)
def hurt (s : State) (src a : Nat) : State := { s with faults := { s.faults with damage := [⟨src, a, 2, false, false⟩] } }
def gth (s : State) : Gather := (s.runSteps kp Gather.none (s.planP kp)).1
def mam (s : State) := (s.runSteps kp Gather.none (s.planP kp)).2.mamStep kp
/-- Action sets for the combination. -/
def con (prec : Nat) : Contrib :=
  ⟨prec, { ActSet.none with kind := 1, value := 5, policer := some 3, mirA := some 1, mirB := some 2, vlan := 9, copyTo := some 4 }⟩
/-- A packet of port 80 past the match stages, with an action. -/
def matched (a : ActSet) : Pkt := { pkt true with phase := .matched, filtered := true, act := a, cells := [12] }
/-- It goes to queue 2 of port 511. -/
def toPort : Pkt := matched { ActSet.none with kind := 1, value := 511, queue := 2 }
def toHostQ : Pkt := matched { ActSet.none with kind := 3, value := 8192 + 5 }
def atEnqueue (p : Pkt) : State := { live511 with buf := { live511.buf with pkts := [p], used := [12], nextFid := 10 } }
def dest (s : State) (p : Pkt) := (fresh s).destinations p
def pricedP (s : State) (p : Pkt) : Pkt := { (dest s p).2.1 with charge := (dest s p).2.2.chargeOf (dest s p).2.1, cls := (dest s p).2.2.classOf (dest s p).2.1 (dest s p).1 }
def alloc (s : State) (p : Pkt) : Nat × Nat × State := ((dest s p).2.2.allocDesc).getD (0, 0, s)
def verdicts (s : State) (p : Pkt) := (alloc s p).2.2.admitAll (pricedP s p) (dest s p).1
/-- It goes to a group of 65 members, all at queue 0 of port 511. -/
def toGroup : Pkt := matched { ActSet.none with kind := 2, value := 5 }
def crowd (ext : Nat) : State :=
  ((List.range 65).foldl (fun s m => s.set O.MCAST_MEMBERS (2 ^ 13 + 511) m)
    ((atEnqueue toGroup).set O.MCAST_GROUPS (65 * 2 ^ 18) 5)).set O.EXTENSIONS_FREE ext
/-- A packet of handle 2097151, generation 62, two tokens issued. -/
def held9 (ph : Phase) : Pkt := { enq 8179 with phase := ph, handle := 2097151, gen := 62, issued := 2, charge := 1 }
def lostP : Pkt := { held9 .enqueued with lost := true }
def holding (p : Pkt) : State := { live511 with buf := { live511.buf with pkts := [p], used := [12], nextFid := 10, fresh := 2097152 } }
def word (g : Nat) : BitVec 27 := BitVec.ofNat 27 (g * 2 ^ 21 + 2097151)
/-- Bank 191 in a state, one of its cells in use. -/
def bank (st : Nat) (used : List Nat) : State := { up.set (O.BUF_BANK_STATE 191) st with buf := { up.buf with used := used } }
/-- Base 7 in a state. -/
def tbIn (st : Nat) : State := up.set (O.TB_STATE 7) st
/-- Base 7 rearmed to a state, and its servo that acquires again. -/
def rearmed (s : State) (st : Nat) : State := ((fresh s).set (O.TB_STATE 7) st).count64 (O.TB_COUNTS 7 14)
def acquires (s : State) (st : Nat) : State :=
  if s.get (O.SERVO_STATE 7) = Machine.Servo.refused
  then ((rearmed s st).putServo 7 { s.servo 7 with good := 0, bad := 0 }).set (O.SERVO_STATE 7) Machine.Servo.acquiring
  else rearmed s st
/-- A TIME96 of one second, and one of a whole second of nanoseconds. -/
def sec1 : List Byte := leBytes 12 (2 ^ 48)
def badNs : List Byte := leBytes 12 (1000000000 * 2 ^ 16)
/-- An adjustment by 10 ns down. -/
def down10 : List Byte := leBytes 8 (ofSigned 64 (-10 * 2 ^ 16))
/-- Base 7 slews by -3 ns. -/
def slewing : State := (tbIn 1).putBase 7 { Base.reset with sec := 1, slew := -(3 * 2 ^ 48 * 5) }
/-- Base 7 belongs to its servo, which measures base 0. -/
def servoed (src : Nat) : State :=
  { ((((((tbIn 1).set (O.TB_STATE 0) src).set (O.SERVO_OWNER 7) 1).set (O.SERVO_MODE 7) 2).set (O.SERVO_SOURCE 7) 0).set (O.SERVO_KP 7) 5).set (O.SERVO_KI 7) 2 with
    sys := fwUp.sys, time := { TimeX.reset with bases := { Base.reset with nsf := 3 * 2 ^ 48 } :: List.replicate 7 Base.reset } }
/-- A flow record that began and was last seen at 0. -/
def flow1 : FlowRec := ⟨80, 0xFFFF, List.replicate 32 7, 1, 64, 0, 0, 1, 0, 0, 80⟩
/-- It stands in way 3 of flow set 5, ten seconds of ledger time later. -/
def flowed : State := later ((up.putFlow 23 flow1).set O.FLOW_IDLE_S 10)
def streams : State := { up with ledger := { up.ledger with
  learn := { Stream.reset with recs := [List.replicate 48 7], lost := 3 }, flow := { Stream.reset with recs := [List.replicate 64 7] } } }
/-- Builder 31 holds a postcard record; postcards go to queue 8179. -/
def carded : State := (live511.set O.POSTCARD_QUEUE 8179).modTile 31 fun y => { y with postRecs := [List.replicate 48 7] }
def cardFrame := State.deviceFrame ((fresh carded).putTile 31 { carded.tile 31 with postRecs := [], postSeq := 1, postLost := 0 }) 31 (carded.postcardFrame 31 1)
/-- The last instant before a base wraps. -/
def topBase : Base := { Base.reset with rem := 4, sec := 2 ^ 48 - 1, nsf := 1000000000 * 2 ^ 48 - 1 }
/-- Way 3 of flow set 5 was first seen ten seconds of ledger time ago; the flow stream has its export channel. -/
def flowAged : State := later (((up.putFlow 23 flow1).set O.FLOW_IDLE_S 3600).set O.FLOW_ACTIVE_S 10)
def openFlow (s : State) : State := ((s.set O.FLOW_CHANNEL 511).set (O.CH_KIND 511) 4).modChan 511 fun x => { x with enabled := true }
/-- Every bank out of service: no cell can be granted. -/
def noBanks (s : State) : State := s.each (List.range 256) fun s b => s.set (O.BUF_BANK_STATE b) 2
/-- The page map: E2 is 2, E1 is 5, row 5 is writable and readable, row 1 present alone. -/
def mapped : State := (((up.set O.PM_SPLIT_2M 2).set O.PM_SPLIT_1G 5).set O.HOST_PAGE_MAP 0xABCDE00000007 5).set O.HOST_PAGE_MAP 1 1
/-- Channel 511 of a kind in a state, its ring of 16 at map address 4096 (page map row 1). -/
def chan (kind st : Nat) (x : ChanX → ChanX) : State :=
  (((((((up.set O.PM_SPLIT_2M 2).set O.PM_SPLIT_1G 2).set O.HOST_PAGE_MAP 0xABCDE00000007 1).set (O.CH_KIND 511) kind).set
    (O.CH_RING_SIZE 511) 16).set (O.CH_RING_BASE 511) 4096).set (O.CH_STATE 511) st).modChan 511 x
def chain (st : Nat) (x : ChanX → ChanX) : State := (chan 2 st x).set (O.CH_MODE 511) 1
/-- A descriptor of 32 bytes that ends with a type byte. -/
def desc (ty : Nat) : Desc := ⟨0, List.replicate 31 0 ++ [nb ty]⟩
def readOf (why : Purpose) : ReadReq := ⟨767, 511, why, 0, 4096, 0xABCDE00000000, 32⟩
def asking (why : Purpose) (st : Nat) : State :=
  let s := chan 2 st fun x => { x with pre := [⟨0, []⟩] }
  { s with host := { s.host with reads := [readOf why] } }
/-- Engine 31 at work on channel 511, its current descriptor `d`. -/
def working (kind : Nat) (d : Desc) (x : ChanX → ChanX) : State :=
  (chan kind 2 fun y => x { y with cur := some d }).putEngine 31 { EngineX.reset with cur := some 511 }
/-- A table descriptor: operation, object, sub-index, instance, bytes. -/
def tdesc (op : Nat) (r : Ref) (n : Nat) : Desc :=
  ⟨5, zeros 8 ++ leBytes 4 n ++ leBytes 2 r.idx ++ [nb r.sub, nb op] ++ leBytes 3 r.inst ++ [0] ++ leBytes 4 0 ++ zeros 8⟩
/-- A copy descriptor of `n` bytes in the table store. -/
def cdesc (from_ to_ n : Nat) : Desc := ⟨5, leBytes 4 from_ ++ zeros 4 ++ leBytes 4 to_ ++ leBytes 4 n ++ zeros 16⟩
def decided (kind : Nat) (d : Desc) : State := working kind d fun x => { x with fin := some ⟨leBytes 4 9, 0, 0⟩ }
def asleep : State := { decided 5 (desc 1) with host := { (decided 5 (desc 1)).host with d3hot := true } }
def had (n : Nat) (x : ChanX) : ChanX := { x with got := [(0, List.replicate n 7)] }
def PM : Desc := tdesc 0 O.HOST_PAGE_MAP 8
def exporting : State :=
  let s := ((working 4 (desc 1) id).set O.LEARN_CHANNEL 511).set O.FLOW_CHANNEL 511
  { s with ledger := { s.ledger with flow := { Stream.reset with msgs := [⟨0, 0, [List.replicate 64 7]⟩] } } }
def exportingL : State :=
  { exporting with ledger := { exporting.ledger with learn := { Stream.reset with msgs := [⟨0, 0, [List.replicate 48 7]⟩] } } }
/-- A packet held by host queue 5, 2 of its cells. -/
def hostPkt : Pkt := { enq 8197 with bytes := List.replicate 300 7, cells := [12, 13], holders := [{ heldBy 8197 with kind := .host, ch := 511, started := true }] }
def copying : State :=
  let s := working 1 (desc 1) fun x => { x with copying := some ⟨9, 1, 8197, 256, 1⟩ }
  { s with buf := { s.buf with pkts := [hostPkt], nextFid := 10 } }
/-- What is left of the frame is copied: 40 bytes from byte 256. -/
def copied := ((fresh copying).useDesc hostPkt).2.copyBytes 511 hostPkt 256 (256 + 40) ((List.range ((40 + 256 % 256 + 255) / 256)).map (256 / 256 + ·))
def ENT : Ref := O.ENTRY_OP 63
def DAT : Ref := O.TABLE_DATA 63
def wload := (fresh (working 3 (tdesc 0 DAT 64) (had 64))).loadRows DAT ((working 3 (tdesc 0 DAT 64) (had 64)).pieceOf DAT 64) 64 0 ((gathered [(0, List.replicate 64 7)]).take 64)
def wunload := (fresh (working 3 (tdesc 1 DAT 64) id)).unloadRows DAT ((working 3 (tdesc 1 DAT 64) id).pieceOf DAT 64) 64 0 64
def recs (done : Nat) : State := working 3 (tdesc 2 ENT 32) fun x => { had 32 x with done := done, res := List.replicate (32 * done) 1 }
def wrec (done : Nat) := (fresh (recs done)).feedRecords 511 63 (32 / 32) ((gathered ((recs done).chan 511).got).take 32) 65
/-- Source 0xFFE in a state, unmasked, for target `t`. -/
def src (st : SrcState) (t : Nat) : State := ((up.setSrc 0xFFE st false).set (O.SRC_MASK 0xFFE) 0).set (O.SRC_TARGET 0xFFE) t
/-- MSI-X on, vector 63 not masked. -/
def msixUp (s : State) : State := { s with host := { s.host with msixOn := true, msix := [(255, 0)], pba := [63] } }
def claimed (st : List (Nat × Nat)) (fault : Bool) : State := (src .pending 67).putItgt 67 ⟨st, fault, true⟩
/-- A report, and a record held of the same source; a device unit below another. -/
def rep : Report := ⟨0x400, unitId 3 7, unitId 3 7, zeros 20, false⟩
def otherR : Report := ⟨0xC40, unitId 10 5, unitId 10 5, zeros 20, false⟩
def reported (l : List Held) : State := { up with faults := { Faults.reset with reports := [rep], held := l } }
def recOf (r : Report) : Held := ⟨r, 3, 0, 0, []⟩
def fstate (n st : Nat) : State := up.set (O.FAULT_STATE n) st
/-- What source 0x400 is. -/
def row400 : SrcRow := (srcRow 0x400).getD ⟨0, 0, 0, 0, 0, .otherF, .parity⟩
def armed1 : State := { up with faults := { Faults.reset with armed := [⟨0x400, 0x03000000, 9, 1, none⟩] } }
def armedU : State := { up with faults := { Faults.reset with armed := [⟨0x500, 0x03000000, 0xFFFFFFFF, 2, none⟩] } }
/-- Just out of reset, strap 1 (no startup image) set or not. -/
def romUp : State := { up with sys := { up.sys with fw := .rom } }
def img (k : Nat) : Image := ⟨k, 7, 3, List.replicate 64 7⟩
def fwIn (f : Fw) : State := { up with sys := { up.sys with fw := f, image := some (img 0), waiting := some (img 1), previous := some (img 0) } }
/-- A startup image of no records stands uploaded. -/
def startupUp : State :=
  { up with sys := { up.sys with startUp := writeRegion 0 ([0x1A, 0x5D, 1, 0] ++ zeros 8 ++ leBytes 4 (crc32 [])) [] } }
def mdioOn (op : Nat) : State := { up.cmdRun (O.MDIO_XFER 3) with sys := { up.sys with busOps := [(19, [1, 2, 3, nb op])] } }
/-- A two-wire transfer: 3 bytes to write, 5 to read. -/
def tw : List Byte := [0x50, 3, 5, 0, 1, 2, 3]
def twOn : State := { up.cmdRun (O.TW_XFER 14) with sys := { up.sys with busOps := [(14, tw)] } }
def noPorts : State := up.set (O.TILE_SERVICE 31) 1
/-- A commit of the tile's group under validation; a profile staged for it. -/
def validating31 : State := { up with dict := { up.dict with commits := [⟨1, [0xDF], [0xDF], .validating, [], [], .window 0, [], [], true⟩] } }
def profiled : State := staged 0xDF gDirty ⟨O.TILE_PROFILE 31, 0⟩ (1 - up.get (O.TILE_PROFILE 31))

/-! ### Witnesses -/

theorem witness_StepRunsTheFrontCommand :
    (∃ (s : State) (c : Instr) (rest : List Instr), s.pending = c :: rest) ∧
    (∃ (s : State), s.pending = [] ∧ Runs s) ∧
    (∃ (s : State), s.pending = [] ∧ (¬Runs s)) :=
  ⟨⟨{ State.reset with pending := [.powerLoss] }, .powerLoss, [], by decide +kernel⟩,
    ⟨State.reset, by decide +kernel⟩,
    ⟨{ State.reset with sys := { State.reset.sys with power := .reset } }, by decide +kernel⟩⟩

theorem witness_OchreDecodesWhatItEncodes :
    (∃ (t : Tile) (c : Core) (d : WReg) (a : WReg) (b : WReg) (imm : BitVec 16) (n : BitVec 5) (m : BitVec 5) (x :
      WinAddr) (size : Fin 3) (off : BitVec 6) (cond : CondCode) (tgt : BitVec 14) (s : Fin 5) (code : BitVec 3) (e :
      Instr × ℕ × ℕ × ℕ × ℕ), (e ∈   (fun t c d a b imm n m x size off cond tgt s code =>       have y :=         have
      y :=           have y := [(Instr.amb t c d a imm, 36, d.val, a.val, imm.toNat), (Instr.amw t c d, 37, d.val, 0,
      0), (Instr.mfs t c d s, 40, d.val, 0, s.val), (Instr.drop t c code, 62, 0, 0, code.toNat), (Instr.end_ t c, 63,
      0, 0, 0)];           (Instr.jr t c a, 31, 0, a.val, 0) :: (Instr.hsy4 t c d a, 32, d.val, a.val, 0) ::
      (Instr.hsy6 t c d a, 33, d.val, a.val, 0) :: (Instr.hash t c d a b, 34, d.val, a.val, b.val * 2 ^ 14) :: y;
      have y := (Instr.ldc t c d size off, 24, d.val, 0, size.val * 2 ^ 16 + off.toNat) :: (Instr.stc t c d size off,
      25, d.val, 0, size.val * 2 ^ 16 + off.toNat) :: (Instr.bcc t c cond tgt, 28, cond.val, 0, tgt.toNat) ::
      (Instr.call t c tgt, 29, 0, 0, tgt.toNat) :: (Instr.ret t c, 30, 0, 0, 0) :: y;         (Instr.cmpi t c a imm,
      18, 0, a.val, imm.toNat) :: (Instr.ldb t c d x, 20, d.val, x.a.val, b01 x.based * 2 ^ 17 + x.off.toNat) ::
      (Instr.ldh t c d x, 21, d.val, x.a.val, b01 x.based * 2 ^ 17 + x.off.toNat) :: (Instr.ldw t c d x, 22, d.val,
      x.a.val, b01 x.based * 2 ^ 17 + x.off.toNat) :: y;       have y :=         have y := (Instr.xori t c d a imm,
      13, d.val, a.val, imm.toNat) :: (Instr.shli t c d a n, 14, d.val, a.val, n.toNat) :: (Instr.shri t c d a n, 15,
      d.val, a.val, n.toNat) :: (Instr.ext t c d a n m, 16, d.val, a.val, n.toNat * 2 ^ 13 + m.toNat * 2 ^ 8) ::
      (Instr.cmp t c a b, 17, 0, a.val, b.val * 2 ^ 14) :: y;         (Instr.movhi t c d imm, 9, d.val, 0, imm.toNat)
      :: (Instr.addi t c d a imm, 10, d.val, a.val, imm.toNat) :: (Instr.andi t c d a imm, 11, d.val, a.val,
      imm.toNat) :: (Instr.ori t c d a imm, 12, d.val, a.val, imm.toNat) :: y;       have y := (Instr.or_ t c d a b,
      4, d.val, a.val, b.val * 2 ^ 14) :: (Instr.xor_ t c d a b, 5, d.val, a.val, b.val * 2 ^ 14) :: (Instr.shl t c d
      a b, 6, d.val, a.val, b.val * 2 ^ 14) :: (Instr.shr t c d a b, 7, d.val, a.val, b.val * 2 ^ 14) :: (Instr.movi t
      c d imm, 8, d.val, 0, imm.toNat) :: y;       (Instr.nop t c, 0, 0, 0, 0) :: (Instr.add t c d a b, 1, d.val,
      a.val, b.val * 2 ^ 14) :: (Instr.sub t c d a b, 2, d.val, a.val, b.val * 2 ^ 14) :: (Instr.and_ t c d a b, 3,
      d.val, a.val, b.val * 2 ^ 14) :: y)     t c d a b imm n m x size off cond tgt s code)) ∧
    (∃ (i : Instr) (w : ℕ), ochreEncode i = some w) :=
  ⟨⟨31, 7, 15, 15, 15, 0xFFFF, 31, 31, ⟨true, 15, 511⟩, 2, 63, 10, 0x3FFF, 4, 7, (.ldw 31 7 15 ⟨true, 15, 511⟩, 0x16, 15,
      15, 131583), by decide +kernel⟩,
    ⟨.ldw 31 7 15 ⟨true, 15, 511⟩, 1543373311, by decide +kernel⟩⟩

theorem witness_OchreWordsAreUnambiguous :
    ∃ (t : Tile) (c : Core) (w : ℕ) (i : Instr), ochreDecode t c w = some i :=
  ⟨31, 7, 1211170815, .cmpi 31 7 12 0xFFFF, by decide +kernel⟩

theorem witness_RegisterArithmeticWritesItsWord :
    (∃ (s : State) (t : Tile) (c : Core) (d : WReg) (a : WReg) (b : WReg) (x : CoreX) (p : Pkt), Affords s t c
      (Instr.add t c d a b) x p 1) ∧
    (∃ (s : State) (t : Tile) (c : Core) (d : WReg) (a : WReg) (b : WReg) (x : CoreX) (p : Pkt), Affords s t c
      (Instr.sub t c d a b) x p 1) ∧
    (∃ (s : State) (t : Tile) (c : Core) (d : WReg) (a : WReg) (b : WReg) (x : CoreX) (p : Pkt), Affords s t c
      (Instr.and_ t c d a b) x p 1) ∧
    (∃ (s : State) (t : Tile) (c : Core) (d : WReg) (a : WReg) (b : WReg) (x : CoreX) (p : Pkt), Affords s t c
      (Instr.or_ t c d a b) x p 1) ∧
    (∃ (s : State) (t : Tile) (c : Core) (d : WReg) (a : WReg) (b : WReg) (x : CoreX) (p : Pkt), Affords s t c
      (Instr.xor_ t c d a b) x p 1) ∧
    (∃ (s : State) (t : Tile) (c : Core) (d : WReg) (a : WReg) (b : WReg) (x : CoreX) (p : Pkt), Affords s t c
      (Instr.shl t c d a b) x p 1) ∧
    (∃ (s : State) (t : Tile) (c : Core) (d : WReg) (a : WReg) (b : WReg) (x : CoreX) (p : Pkt), Affords s t c
      (Instr.shr t c d a b) x p 1) :=
  ⟨⟨at_ (.add 5 3 4 2 1) cor (pkt true), 5, 3, 4, 2, 1, cor, pkt true, by decide +kernel⟩,
    ⟨at_ (.sub 5 3 4 1 2) cor (pkt true), 5, 3, 4, 1, 2, cor, pkt true, by decide +kernel⟩,
    ⟨at_ (.and_ 5 3 4 1 2) cor (pkt true), 5, 3, 4, 1, 2, cor, pkt true, by decide +kernel⟩,
    ⟨at_ (.or_ 5 3 4 1 2) cor (pkt true), 5, 3, 4, 1, 2, cor, pkt true, by decide +kernel⟩,
    ⟨at_ (.xor_ 5 3 4 1 2) cor (pkt true), 5, 3, 4, 1, 2, cor, pkt true, by decide +kernel⟩,
    ⟨at_ (.shl 5 3 2 2 1) cor (pkt true), 5, 3, 2, 2, 1, cor, pkt true, by decide +kernel⟩,
    ⟨at_ (.shr 5 3 2 2 2) cor (pkt true), 5, 3, 2, 2, 2, cor, pkt true, by decide +kernel⟩⟩

theorem witness_ImmediateInstructionsWriteTheirWord :
    (∃ (s : State) (t : Tile) (c : Core) (x : CoreX) (p : Pkt), Affords s t c (Instr.nop t c) x p 1) ∧
    (∃ (s : State) (t : Tile) (c : Core) (d : WReg) (imm : BitVec 16) (x : CoreX) (p : Pkt), Affords s t c (Instr.movi
      t c d imm) x p 1) ∧
    (∃ (s : State) (t : Tile) (c : Core) (d : WReg) (imm : BitVec 16) (x : CoreX) (p : Pkt), Affords s t c
      (Instr.movhi t c d imm) x p 1) ∧
    (∃ (s : State) (t : Tile) (c : Core) (d : WReg) (a : WReg) (imm : BitVec 16) (x : CoreX) (p : Pkt), Affords s t c
      (Instr.addi t c d a imm) x p 1) ∧
    (∃ (s : State) (t : Tile) (c : Core) (d : WReg) (a : WReg) (imm : BitVec 16) (x : CoreX) (p : Pkt), Affords s t c
      (Instr.andi t c d a imm) x p 1) ∧
    (∃ (s : State) (t : Tile) (c : Core) (d : WReg) (a : WReg) (imm : BitVec 16) (x : CoreX) (p : Pkt), Affords s t c
      (Instr.ori t c d a imm) x p 1) ∧
    (∃ (s : State) (t : Tile) (c : Core) (d : WReg) (a : WReg) (imm : BitVec 16) (x : CoreX) (p : Pkt), Affords s t c
      (Instr.xori t c d a imm) x p 1) ∧
    (∃ (s : State) (t : Tile) (c : Core) (d : WReg) (a : WReg) (n : BitVec 5) (x : CoreX) (p : Pkt), Affords s t c
      (Instr.shli t c d a n) x p 1) ∧
    (∃ (s : State) (t : Tile) (c : Core) (d : WReg) (a : WReg) (n : BitVec 5) (x : CoreX) (p : Pkt), Affords s t c
      (Instr.shri t c d a n) x p 1) ∧
    (∃ (s : State) (t : Tile) (c : Core) (d : WReg) (a : WReg) (n : BitVec 5) (len : BitVec 5) (x : CoreX) (p : Pkt),
      Affords s t c (Instr.ext t c d a n len) x p 1) :=
  ⟨⟨at_ (.nop 5 3) cor (pkt true), 5, 3, cor, pkt true, by decide +kernel⟩,
    ⟨at_ (.movi 5 3 4 0xFFFF) cor (pkt true), 5, 3, 4, 0xFFFF, cor, pkt true, by decide +kernel⟩,
    ⟨at_ (.movhi 5 3 2 1) cor (pkt true), 5, 3, 2, 1, cor, pkt true, by decide +kernel⟩,
    ⟨at_ (.addi 5 3 4 2 1) cor (pkt true), 5, 3, 4, 2, 1, cor, pkt true, by decide +kernel⟩,
    ⟨at_ (.andi 5 3 4 2 9) cor (pkt true), 5, 3, 4, 2, 9, cor, pkt true, by decide +kernel⟩,
    ⟨at_ (.ori 5 3 4 1 9) cor (pkt true), 5, 3, 4, 1, 9, cor, pkt true, by decide +kernel⟩,
    ⟨at_ (.xori 5 3 4 1 9) cor (pkt true), 5, 3, 4, 1, 9, cor, pkt true, by decide +kernel⟩,
    ⟨at_ (.shli 5 3 4 2 31) cor (pkt true), 5, 3, 4, 2, 31, cor, pkt true, by decide +kernel⟩,
    ⟨at_ (.shri 5 3 4 2 31) cor (pkt true), 5, 3, 4, 2, 31, cor, pkt true, by decide +kernel⟩,
    ⟨at_ (.ext 5 3 4 2 4 31) cor (pkt true), 5, 3, 4, 2, 4, 31, cor, pkt true, by decide +kernel⟩⟩

theorem witness_CompareBranchCallAndReturn :
    (∃ (s : State) (t : Tile) (c : Core) (a : WReg) (b : WReg) (x : CoreX) (p : Pkt), Affords s t c (Instr.cmp t c a
      b) x p 1) ∧
    (∃ (s : State) (t : Tile) (c : Core) (a : WReg) (imm : BitVec 16) (x : CoreX) (p : Pkt), Affords s t c (Instr.cmpi
      t c a imm) x p 1) ∧
    (∃ (s : State) (t : Tile) (c : Core) (cond : CondCode) (tgt : BitVec 14) (x : CoreX) (p : Pkt) (taken : Bool),
      [true, x.z, !x.z, x.c, !x.c, x.c || x.z, !(x.c || x.z), x.f, !x.f, x.a, !x.a][cond.val]? = some taken ∧ (Affords
      s t c (Instr.bcc t c cond tgt) x p (if taken = true then 2 else 1))) ∧
    (∃ (s : State) (t : Tile) (c : Core) (tgt : BitVec 14) (x : CoreX) (p : Pkt), Affords s t c (Instr.call t c tgt) x
      p 2 ∧ x.stack.length < 4) ∧
    (∃ (s : State) (t : Tile) (c : Core) (x : CoreX) (p : Pkt) (r : ℕ) (l : List ℕ), Affords s t c (Instr.ret t c) x p
      2 ∧ x.stack = r :: l) ∧
    (∃ (s : State) (t : Tile) (c : Core) (a : WReg) (x : CoreX) (p : Pkt), Affords s t c (Instr.jr t c a) x p 2) ∧
    (∃ (s : State) (t : Tile) (c : Core) (tgt : BitVec 14) (x : CoreX) (p : Pkt), Issues s t c (Instr.call t c tgt) x
      p ∧ 4 ≤ x.stack.length) ∧
    (∃ (s : State) (t : Tile) (c : Core) (x : CoreX) (p : Pkt), Issues s t c (Instr.ret t c) x p ∧ x.stack = []) :=
  ⟨⟨at_ (.cmp 5 3 1 2) cor (pkt true), 5, 3, 1, 2, cor, pkt true, by decide +kernel⟩,
    ⟨at_ (.cmpi 5 3 1 5) cor (pkt true), 5, 3, 1, 5, cor, pkt true, by decide +kernel⟩,
    ⟨at_ (.bcc 5 3 3 0x3FFF) cor (pkt true), 5, 3, 3, 0x3FFF, cor, pkt true, true, by decide +kernel⟩,
    ⟨at_ (.call 5 3 7) { cor with stack := [1, 2, 3] } (pkt true), 5, 3, 7, { cor with stack := [1, 2, 3] }, pkt true,
      by decide +kernel⟩,
    ⟨at_ (.ret 5 3) { cor with stack := [8] } (pkt true), 5, 3, { cor with stack := [8] }, pkt true, 8, [],
      by decide +kernel⟩,
    ⟨at_ (.jr 5 3 2) cor (pkt true), 5, 3, 2, cor, pkt true, by decide +kernel⟩,
    ⟨at_ (.call 5 3 7) { cor with stack := [1, 2, 3, 4] } (pkt true), 5, 3, 7, { cor with stack := [1, 2, 3, 4] }, pkt
      true, by decide +kernel⟩,
    ⟨at_ (.ret 5 3) cor (pkt true), 5, 3, cor, pkt true, by decide +kernel⟩⟩

theorem witness_WindowAndContextAccess :
    (∃ (s : State) (t : Tile) (c : Core) (d : WReg) (m : WinAddr) (x : CoreX) (p : Pkt), Affords s t c (Instr.ldb t c
      d m) x p 1 ∧ loadAt x m + 1 ≤ 512 ∧ Arrived p x (loadAt x m) 1) ∧
    (∃ (s : State) (t : Tile) (c : Core) (d : WReg) (m : WinAddr) (x : CoreX) (p : Pkt), Affords s t c (Instr.ldh t c
      d m) x p 1 ∧ loadAt x m + 2 ≤ 512 ∧ Arrived p x (loadAt x m) 2) ∧
    (∃ (s : State) (t : Tile) (c : Core) (d : WReg) (m : WinAddr) (x : CoreX) (p : Pkt), Affords s t c (Instr.ldw t c
      d m) x p 1 ∧ loadAt x m + 4 ≤ 512 ∧ Arrived p x (loadAt x m) 4) ∧
    (∃ (s : State) (t : Tile) (c : Core) (d : WReg) (m : WinAddr) (x : CoreX) (p : Pkt) (i : Instr) (n : ℕ), (i, n) ∈
      [(Instr.ldb t c d m, 1), (Instr.ldh t c d m, 2), (Instr.ldw t c d m, 4)] ∧ Issues s t c i x p ∧ loadAt x m + n ≤
      512 ∧ (¬Arrived p x (loadAt x m) n)) ∧
    (∃ (s : State) (t : Tile) (c : Core) (d : WReg) (m : WinAddr) (x : CoreX) (p : Pkt), Issues s t c (Instr.ldb t c d
      m) x p ∧ 512 < loadAt x m + 1) ∧
    (∃ (s : State) (t : Tile) (c : Core) (d : WReg) (m : WinAddr) (x : CoreX) (p : Pkt), Issues s t c (Instr.ldh t c d
      m) x p ∧ 512 < loadAt x m + 2) ∧
    (∃ (s : State) (t : Tile) (c : Core) (d : WReg) (m : WinAddr) (x : CoreX) (p : Pkt), Issues s t c (Instr.ldw t c d
      m) x p ∧ 512 < loadAt x m + 4) ∧
    (∃ (s : State) (t : Tile) (c : Core) (d : WReg) (size : Fin 3) (off : BitVec 6) (x : CoreX) (p : Pkt), Affords s t
      c (Instr.ldc t c d size off) x p 1 ∧ off.toNat + 2 ^ size.val ≤ 64) ∧
    (∃ (s : State) (t : Tile) (c : Core) (d : WReg) (size : Fin 3) (off : BitVec 6) (x : CoreX) (p : Pkt), Issues s t
      c (Instr.ldc t c d size off) x p ∧ 64 < off.toNat + 2 ^ size.val) ∧
    (∃ (s : State) (t : Tile) (c : Core) (d : WReg) (size : Fin 3) (off : BitVec 6) (x : CoreX) (p : Pkt), Affords s t
      c (Instr.stc t c d size off) x p 1 ∧ off.toNat + 2 ^ size.val ≤ 64 ∧ 8 ≤ off.toNat) ∧
    (∃ (s : State) (t : Tile) (c : Core) (d : WReg) (size : Fin 3) (off : BitVec 6) (x : CoreX) (p : Pkt), Issues s t
      c (Instr.stc t c d size off) x p ∧ (64 < off.toNat + 2 ^ size.val ∨ off.toNat < 8)) :=
  ⟨⟨at_ (.ldb 5 3 4 ⟨false, 0, 511⟩) cor (pkt true), 5, 3, 4, ⟨false, 0, 511⟩, cor, pkt true, by decide +kernel⟩,
    ⟨at_ (.ldh 5 3 4 ⟨true, 3, 2⟩) cor (pkt false), 5, 3, 4, ⟨true, 3, 2⟩, cor, pkt false, by decide +kernel⟩,
    ⟨at_ (.ldw 5 3 4 ⟨true, 3, 0⟩) cor (pkt false), 5, 3, 4, ⟨true, 3, 0⟩, cor, pkt false, by decide +kernel⟩,
    ⟨at_ (.ldw 5 3 4 ⟨true, 3, 1⟩) cor (pkt false), 5, 3, 4, ⟨true, 3, 1⟩, cor, pkt false, .ldw 5 3 4 ⟨true, 3, 1⟩, 4,
      by decide +kernel⟩,
    ⟨at_ (.ldb 5 3 4 ⟨true, 2, 0⟩) cor (pkt true), 5, 3, 4, ⟨true, 2, 0⟩, cor, pkt true, by decide +kernel⟩,
    ⟨at_ (.ldh 5 3 4 ⟨false, 0, 511⟩) cor (pkt true), 5, 3, 4, ⟨false, 0, 511⟩, cor, pkt true, by decide +kernel⟩,
    ⟨at_ (.ldw 5 3 4 ⟨false, 0, 509⟩) cor (pkt true), 5, 3, 4, ⟨false, 0, 509⟩, cor, pkt true, by decide +kernel⟩,
    ⟨at_ (.ldc 5 3 4 2 60) cor (pkt true), 5, 3, 4, 2, 60, cor, pkt true, by decide +kernel⟩,
    ⟨at_ (.ldc 5 3 4 2 61) cor (pkt true), 5, 3, 4, 2, 61, cor, pkt true, by decide +kernel⟩,
    ⟨at_ (.stc 5 3 2 1 8) cor (pkt true), 5, 3, 2, 1, 8, cor, pkt true, by decide +kernel⟩,
    ⟨at_ (.stc 5 3 2 1 7) cor (pkt true), 5, 3, 2, 1, 7, cor, pkt true, by decide +kernel⟩⟩

theorem witness_HashInstructionsAndSpecialValues :
    (∃ (s : State) (t : Tile) (c : Core) (d : WReg) (a : WReg) (x : CoreX) (p : Pkt), Affords s t c (Instr.hsy4 t c d
      a) x p 3 ∧ a.val + 3 ≤ 15) ∧
    (∃ (s : State) (t : Tile) (c : Core) (d : WReg) (a : WReg) (x : CoreX) (p : Pkt), Issues s t c (Instr.hsy4 t c d
      a) x p ∧ 15 < a.val + 3) ∧
    (∃ (s : State) (t : Tile) (c : Core) (d : WReg) (a : WReg) (x : CoreX) (p : Pkt), Affords s t c (Instr.hsy6 t c d
      a) x p 5 ∧ a.val + 9 ≤ 15) ∧
    (∃ (s : State) (t : Tile) (c : Core) (d : WReg) (a : WReg) (x : CoreX) (p : Pkt), Issues s t c (Instr.hsy6 t c d
      a) x p ∧ 15 < a.val + 9) ∧
    (∃ (s : State) (t : Tile) (c : Core) (d : WReg) (a : WReg) (n : WReg) (x : CoreX) (p : Pkt), Affords s t c
      (Instr.hash t c d a n) x p (1 + (n.val + 4) / 4) ∧ a.val + n.val ≤ 15) ∧
    (∃ (s : State) (t : Tile) (c : Core) (d : WReg) (a : WReg) (n : WReg) (x : CoreX) (p : Pkt), Issues s t c
      (Instr.hash t c d a n) x p ∧ 15 < a.val + n.val) ∧
    (∃ (s : State) (t : Tile) (c : Core) (d : WReg) (x : CoreX) (p : Pkt), Affords s t c (Instr.mfs t c d 0) x p 1) ∧
    (∃ (s : State) (t : Tile) (c : Core) (d : WReg) (x : CoreX) (p : Pkt), Affords s t c (Instr.mfs t c d 1) x p 1 ∧
      p.ended = true) ∧
    (∃ (s : State) (t : Tile) (c : Core) (d : WReg) (x : CoreX) (p : Pkt), Issues s t c (Instr.mfs t c d 1) x p ∧
      p.ended = false) ∧
    (∃ (s : State) (t : Tile) (c : Core) (d : WReg) (x : CoreX) (p : Pkt), Affords s t c (Instr.mfs t c d 2) x p 1) ∧
    (∃ (s : State) (t : Tile) (c : Core) (d : WReg) (x : CoreX) (p : Pkt), Affords s t c (Instr.mfs t c d 3) x p 1) ∧
    (∃ (s : State) (t : Tile) (c : Core) (d : WReg) (x : CoreX) (p : Pkt), Affords s t c (Instr.mfs t c d 4) x p 1) :=
  ⟨⟨at_ (.hsy4 5 3 0 12) cor (pkt true), 5, 3, 0, 12, cor, pkt true, by decide +kernel⟩,
    ⟨at_ (.hsy4 5 3 0 13) cor (pkt true), 5, 3, 0, 13, cor, pkt true, by decide +kernel⟩,
    ⟨at_ (.hsy6 5 3 0 6) cor (pkt true), 5, 3, 0, 6, cor, pkt true, by decide +kernel⟩,
    ⟨at_ (.hsy6 5 3 0 7) cor (pkt true), 5, 3, 0, 7, cor, pkt true, by decide +kernel⟩,
    ⟨at_ (.hash 5 3 0 0 15) cor (pkt true), 5, 3, 0, 0, 15, cor, pkt true, by decide +kernel⟩,
    ⟨at_ (.hash 5 3 0 1 15) cor (pkt true), 5, 3, 0, 1, 15, cor, pkt true, by decide +kernel⟩,
    ⟨at_ (.mfs 5 3 0 0) cor (pkt true), 5, 3, 0, cor, pkt true, by decide +kernel⟩,
    ⟨at_ (.mfs 5 3 0 1) cor (pkt true), 5, 3, 0, cor, pkt true, by decide +kernel⟩,
    ⟨at_ (.mfs 5 3 0 1) cor (pkt false), 5, 3, 0, cor, pkt false, by decide +kernel⟩,
    ⟨at_ (.mfs 5 3 0 2) cor (pkt true), 5, 3, 0, cor, pkt true, by decide +kernel⟩,
    ⟨at_ (.mfs 5 3 0 3) cor (pkt true), 5, 3, 0, cor, pkt true, by decide +kernel⟩,
    ⟨at_ (.mfs 5 3 0 4) cor (pkt true), 5, 3, 0, cor, pkt true, by decide +kernel⟩⟩

theorem witness_AmberScans :
    (∃ (s : State) (t : Tile) (c : Core) (a : WReg) (b : WReg) (mask : BitVec 16) (x : CoreX) (p : Pkt), Affords s t c
      (Instr.amb t c a b mask) x p 1 ∧ x.scan = none ∧ x.f = false ∧ (x.reg a < if p.ended = true then min (min (x.reg
      b) (if p.mono = true then 128 else 512)) p.bytes.length else min (x.reg b) (if p.mono = true then 128 else
      512))) ∧
    (∃ (s : State) (t : Tile) (c : Core) (a : WReg) (b : WReg) (mask : BitVec 16) (x : CoreX) (p : Pkt), Affords s t c
      (Instr.amb t c a b mask) x p 1 ∧ x.scan = none ∧ (x.f = true ∨ (if p.ended = true then min (min (x.reg b) (if
      p.mono = true then 128 else 512)) p.bytes.length else min (x.reg b) (if p.mono = true then 128 else 512)) ≤
      x.reg a)) ∧
    (∃ (s : State) (t : Tile) (c : Core) (a : WReg) (b : WReg) (mask : BitVec 16) (x : CoreX) (p : Pkt), Issues s t c
      (Instr.amb t c a b mask) x p ∧ x.scan.isSome = true) ∧
    (∃ (s : State) (t : Tile) (c : Core) (x : CoreX) (p : Pkt) (n : Scan), Runs s ∧ s.core? t.val c.val = some x ∧
      s.pkt? x.fid = some p ∧ x.scan = some n ∧ n.ready = false ∧ n.arrived p = true ∧ n.start < n.endIn p) ∧
    (∃ (s : State) (t : Tile) (c : Core) (x : CoreX) (p : Pkt) (n : Scan), Runs s ∧ s.core? t.val c.val = some x ∧
      s.pkt? x.fid = some p ∧ x.scan = some n ∧ n.ready = false ∧ n.arrived p = true ∧ n.endIn p ≤ n.start) ∧
    (∃ (s : State) (t : Tile) (c : Core) (d : WReg) (x : CoreX) (p : Pkt) (n : Scan), x.scan = some n ∧ n.ready =
      false ∧ Issues s t c (Instr.amw t c d) x p ∧ n.arrived p = false) ∧
    (∃ (s : State) (t : Tile) (c : Core) (d : WReg) (x : CoreX) (p : Pkt) (n : Scan), x.scan = some n ∧ n.ready =
      false ∧ Issues s t c (Instr.amw t c d) x p ∧ n.arrived p = true ∧ (x.charged + (fun n => max 1 ((n.at_ + if
      n.endIn p - n.start = 0 then 2 else 7 + (n.endIn p - n.start + 63) / 64) - x.charged)) n < s.budget t.val p)) ∧
    (∃ (s : State) (t : Tile) (c : Core) (d : WReg) (x : CoreX) (p : Pkt) (n : Scan), x.scan = some n ∧ n.ready =
      false ∧ Issues s t c (Instr.amw t c d) x p ∧ n.arrived p = true ∧ (s.budget t.val p ≤ x.charged + (fun n => max
      1 ((n.at_ + if n.endIn p - n.start = 0 then 2 else 7 + (n.endIn p - n.start + 63) / 64) - x.charged)) n)) ∧
    (∃ (s : State) (t : Tile) (c : Core) (d : WReg) (x : CoreX) (p : Pkt) (n : Scan), x.scan = some n ∧ n.ready = true
      ∧ Affords s t c (Instr.amw t c d) x p (max 1 (n.at_ + n.lat - x.charged))) ∧
    (∃ (s : State) (t : Tile) (c : Core) (d : WReg) (x : CoreX) (p : Pkt), Issues s t c (Instr.amw t c d) x p ∧ x.scan
      = none) :=
  ⟨⟨at_ (.amb 5 3 1 3 1) cor (pkt true), 5, 3, 1, 3, 1, cor, pkt true, by decide +kernel⟩,
    ⟨at_ (.amb 5 3 3 1 1) cor (pkt true), 5, 3, 3, 1, 1, cor, pkt true, by decide +kernel⟩,
    ⟨at_ (.amb 5 3 1 3 1) { cor with scan := some (scn 0 0 false) } (pkt true), 5, 3, 1, 3, 1,
      { cor with scan := some (scn 0 0 false) }, pkt true, by decide +kernel⟩,
    ⟨at_ (.amb 5 3 1 3 1) { cor with scan := some (scn 0 0 false) } (pkt true), 5, 3,
      { cor with scan := some (scn 0 0 false) }, pkt true, scn 0 0 false, by decide +kernel⟩,
    ⟨at_ (.amb 5 3 1 3 1) { cor with scan := some ⟨96, 96, 1, false, 4, 0, 0, false⟩ } (pkt true), 5, 3,
      { cor with scan := some ⟨96, 96, 1, false, 4, 0, 0, false⟩ }, pkt true, ⟨96, 96, 1, false, 4, 0, 0, false⟩,
      by decide +kernel⟩,
    ⟨at_ (.amw 5 3 0) { cor with scan := some ⟨5, 300, 1, false, 4, 0, 0, false⟩ } (pkt false), 5, 3, 0,
      { cor with scan := some ⟨5, 300, 1, false, 4, 0, 0, false⟩ }, pkt false, ⟨5, 300, 1, false, 4, 0, 0, false⟩,
      by decide +kernel⟩,
    ⟨at_ (.amw 5 3 0) { cor with scan := some (scn 0 0 false) } (pkt true), 5, 3, 0,
      { cor with scan := some (scn 0 0 false) }, pkt true, scn 0 0 false, by decide +kernel⟩,
    ⟨at_ (.amw 5 3 0) { cor with scan := some (scn 0 0 false), charged := 1023 } (pkt true), 5, 3, 0,
      { cor with scan := some (scn 0 0 false), charged := 1023 }, pkt true, scn 0 0 false, by decide +kernel⟩,
    ⟨at_ (.amw 5 3 0) { cor with scan := some (scn 9 0x80000003 true) } (pkt true), 5, 3, 0,
      { cor with scan := some (scn 9 0x80000003 true) }, pkt true, scn 9 0x80000003 true, by decide +kernel⟩,
    ⟨at_ (.amw 5 3 0) cor (pkt true), 5, 3, 0, cor, pkt true, by decide +kernel⟩⟩

theorem witness_ParseEndsWithHandOffDiscardOrOverrun :
    (∃ (s : State) (t : Tile) (c : Core) (x : CoreX) (p : Pkt), Affords s t c (Instr.end_ t c) x p 1 ∧ x.scan = none ∧
      ((s.tile t.val).reorder.length < 256 ∨ s.isNext p = true ∧ ∀ f ∈ (s.tile t.val).reorder, ∀ (q : Pkt), s.pkt? f =
      some q → s.isNext q = false)) ∧
    (∃ (s : State) (t : Tile) (c : Core) (x : CoreX) (p : Pkt), Affords s t c (Instr.end_ t c) x p 1 ∧ x.scan = none ∧
      256 ≤ (s.tile t.val).reorder.length ∧ (s.isNext p = false ∨ ∃ f ∈ (s.tile t.val).reorder, ∃ q, s.pkt? f = some q
      ∧ s.isNext q = true)) ∧
    (∃ (s : State) (t : Tile) (c : Core) (x : CoreX) (p : Pkt), Runs s ∧ s.core? t.val c.val = some x ∧ s.pkt? x.fid =
      some p ∧ x.ended = true ∧ ((s.tile t.val).reorder.length < 256 ∨ s.isNext p = true ∧ ∀ f ∈ (s.tile
      t.val).reorder, ∀ (q : Pkt), s.pkt? f = some q → s.isNext q = false)) ∧
    (∃ (s : State) (t : Tile) (c : Core) (code : BitVec 3) (x : CoreX) (p : Pkt), Affords s t c (Instr.drop t c code)
      x p 1 ∧ x.scan = none) ∧
    (∃ (s : State) (t : Tile) (c : Core) (x : CoreX) (p : Pkt), Issues s t c (Instr.end_ t c) x p ∧ x.scan.isSome =
      true) ∧
    (∃ (s : State) (t : Tile) (c : Core) (code : BitVec 3) (x : CoreX) (p : Pkt), Issues s t c (Instr.drop t c code) x
      p ∧ x.scan.isSome = true) ∧
    (∃ (s : State) (t : Tile) (c : Core) (x : CoreX) (p : Pkt), Issues s t c (Instr.nop t c) x p ∧ s.budget t.val p ≤
      x.charged + 1) ∧
    (∃ (s : State) (t : Tile) (c : Core) (x : CoreX) (p : Pkt), Runs s ∧ s.core? t.val c.val = some x ∧ s.pkt? x.fid =
      some p ∧ x.overrun = true ∧ x.rom = false) :=
  ⟨⟨at_ (.end_ 5 3) cor (pkt true), 5, 3, cor, pkt true, by decide +kernel⟩,
⟨({ at_ (.end_ 5 3) cor (pkt true) with buf := { up.buf with pkts := [{ pkt true with fid := 8 }, pkt true] } }).modTile
      5 (fun y => { y with reorder := List.replicate 256 1 }), 5, 3, cor, pkt true, by decide +kernel⟩,
    ⟨at_ (.end_ 5 3) { cor with ended := true } (pkt true), 5, 3, { cor with ended := true }, pkt true,
      by decide +kernel⟩,
    ⟨at_ (.drop 5 3 7) cor (pkt true), 5, 3, 7, cor, pkt true, by decide +kernel⟩,
    ⟨at_ (.end_ 5 3) { cor with scan := some ⟨5, 96, 1, false, 4, 0, 0, false⟩ } (pkt true), 5, 3,
      { cor with scan := some ⟨5, 96, 1, false, 4, 0, 0, false⟩ }, pkt true, by decide +kernel⟩,
    ⟨at_ (.drop 5 3 7) { cor with scan := some ⟨5, 96, 1, false, 4, 0, 0, false⟩ } (pkt true), 5, 3, 7,
      { cor with scan := some ⟨5, 96, 1, false, 4, 0, 0, false⟩ }, pkt true, by decide +kernel⟩,
    ⟨at_ (.nop 5 3) { cor with charged := 1023 } (pkt true), 5, 3, { cor with charged := 1023 }, pkt true,
      by decide +kernel⟩,
    ⟨at_ (.nop 5 3) { cor with charged := 1024, overrun := true } (pkt true), 5, 3,
      { cor with charged := 1024, overrun := true }, pkt true, by decide +kernel⟩⟩

theorem witness_DispatchToACore :
    (∃ (s : State) (q : Port) (pre : Bool) (k : Pkt), Runs s ∧ s.atDispatchPoint q.val pre = some k ∧ (s.tile
      k.tile).dq.length < 128) ∧
    (∃ (s : State) (q : Port) (pre : Bool) (k : Pkt), Runs s ∧ s.atDispatchPoint q.val pre = some k ∧ 128 ≤ (s.tile
      k.tile).dq.length) ∧
    (∃ (s : State) (t : Tile) (c : Core) (p : Pkt) (fid : ℕ) (rest : List ℕ), Runs s ∧ s.nextCore t.val = some c.val ∧
      (s.tile t.val).dq = fid :: rest ∧ s.pkt? fid = some p ∧ p.judged = s.tagsAt p.tile ∧ s.dispatchesPale t.val =
      false) ∧
    (∃ (s : State) (t : Tile) (c : Core) (x : CoreX) (p : Pkt), Runs s ∧ s.core? t.val c.val = some x ∧ s.pkt? x.fid =
      some p ∧ x.stalled = true ∧ x.walking = false ∧ p.ended = true) ∧
    (∃ (s : State) (t : Tile) (c : Core) (x : CoreX) (p : Pkt), Runs s ∧ s.core? t.val c.val = some x ∧ s.pkt? x.fid =
      some p ∧ (x.walking || x.stalled) = true ∧ p.ended = false) :=
  ⟨⟨pointed, 80, false, { pkt false with phase := .arriving, filtered := true, bytes := List.replicate 256 7 },
      by decide +kernel⟩,
    ⟨pointed.modTile 5 (fun y => { y with dq := List.replicate 128 1 }), 80, false,
      { pkt false with phase := .arriving, filtered := true, bytes := List.replicate 256 7 }, by decide +kernel⟩,
    ⟨dispatched, 5, 0, { pkt true with phase := .queued }, 9, [], by decide +kernel⟩,
    ⟨at_ (.nop 5 3) { cor with stalled := true } (pkt true), 5, 3, { cor with stalled := true }, pkt true,
      by decide +kernel⟩,
    ⟨at_ (.nop 5 3) { cor with stalled := true } (pkt false), 5, 3, { cor with stalled := true }, pkt false,
      by decide +kernel⟩⟩

theorem witness_ScrubbersRepairAndReport :
    (∃ (s : State) (cell : Cell), Runs s ∧ s.damaged (1024 + cell.val / 8192) cell.val = none ∧ s.buf.used.contains
      cell.val = true) ∧
    (∃ (s : State) (cell : Cell), Runs s ∧ s.damaged (1024 + cell.val / 8192) cell.val = none ∧ s.buf.used.contains
      cell.val = false ∧ s.cellFree cell.val = true) ∧
    (∃ (s : State) (w : StoreWord), Runs s ∧ s.damaged 1602 (storeAddr w) = none) ∧
    (∃ (s : State) (t : Tile) (r : BitVec 12), Runs s ∧ s.damaged (928 + t.val) r.toNat = none) ∧
    (∃ (s : State) (t : Tile) (r : BitVec 12) (d : Damage), Runs s ∧ s.damaged (928 + t.val) r.toNat = some d) ∧
    (∃ (s : State) (x : Sys2Proof.Partition) (bucket : Fin 131072) (slot : Fin 4) (n : ℕ), Runs s ∧ s.damaged (768 +
      x.val) ((x.val * 131072 + bucket.val) * 4 + slot.val) = none ∧ s.tableAt ((x.val * 131072 + bucket.val) * 4 +
      slot.val) = some n) ∧
    (∃ (s : State) (slot : Fin 4) (b : Fin 2097152) (n : ℕ) (k : ℕ) (e : ℕ), Runs s ∧ s.faults.armed = [] ∧ s.tableAt
      (b.val * 4 + slot.val) = some n ∧ (s.decl n).isLpm = true ∧ (s.decl n).levelOf (b.val * 4 + slot.val) = some (k,
      e) ∧ s.readable (b.val * 4 + slot.val) = false) :=
  ⟨⟨{ up with buf := { up.buf with used := [131071], pkts := [{ pkt true with cells := [131071] }] } }, 131071,
      by decide +kernel⟩,
    ⟨up, 0, by decide +kernel⟩,
    ⟨{ up with buf := { up.buf with pkts := [{ pkt true with enq := true, handle := 1572863 }] } }, .descriptor
      1572863, by decide +kernel⟩,
    ⟨up, 5, 0xFFF, by decide +kernel⟩,
    ⟨up.damage ⟨0x3A5, 0xFFF, 1, true, false⟩, 5, 0xFFF, ⟨0x3A5, 0xFFF, 1, true, false⟩, by decide +kernel⟩,
    ⟨tabX, 0, 0, 3, 63, by decide +kernel⟩,
    ⟨tabU, 3, 8192, 62, 3, 12, by decide +kernel⟩⟩

theorem witness_HashInstructionsComputeTheRule :
    (∃ (pw : BitVec 32) (sp : BitVec 32) (dp : BitVec 32) (f : Bool) (a0 : BitVec 32) (a1 : BitVec 32) (a2 : BitVec
      32) (a3 : BitVec 32) (b0 : BitVec 32) (b1 : BitVec 32) (b2 : BitVec 32) (b3 : BitVec 32) (sa : BitVec 128) (da :
      BitVec 128), (sp = if f = true then BitVec.ofNat 32 0 else pw >>> 16) ∧ (dp = if f = true then BitVec.ofNat 32 0
      else pw &&& BitVec.ofNat 32 65535) ∧ sa = a0 ++ a1 ++ a2 ++ a3 ∧ da = b0 ++ b1 ++ b2 ++ b3) ∧
    (∃ (s : State) (t : Tile) (c : Core) (d : WReg) (a : WReg) (x : CoreX) (p : Pkt), Affords s t c (Instr.hsy4 t c d
      a) x p 3 ∧ a.val + 3 ≤ 15) ∧
    (∃ (s : State) (t : Tile) (c : Core) (d : WReg) (a : WReg) (x : CoreX) (p : Pkt), Affords s t c (Instr.hsy6 t c d
      a) x p 5 ∧ a.val + 9 ≤ 15) ∧
    (∃ (s : State) (t : Tile) (c : Core) (d : WReg) (a : WReg) (n : WReg) (x : CoreX) (p : Pkt), Affords s t c
      (Instr.hash t c d a n) x p (1 + (n.val + 4) / 4) ∧ a.val + n.val ≤ 15) :=
  ⟨⟨0x01BBC000, 0, 0, true, 1, 2, 3, 4, 1, 2, 3, 5, 1#32 ++ 2#32 ++ 3#32 ++ 4#32, 1#32 ++ 2#32 ++ 3#32 ++ 5#32,
      by decide +kernel⟩,
    ⟨at_ (.hsy4 5 3 0 12) cor (pkt true), 5, 3, 0, 12, cor, pkt true, by decide +kernel⟩,
    ⟨at_ (.hsy6 5 3 0 6) cor (pkt true), 5, 3, 0, 6, cor, pkt true, by decide +kernel⟩,
    ⟨at_ (.hash 5 3 0 0 15) cor (pkt true), 5, 3, 0, 0, 15, cor, pkt true, by decide +kernel⟩⟩

theorem witness_ReadAnswersTheValue :
    (∃ (s : State) (p : Sys2Proof.Path) (a : Ref) (o : ObjRow), Ready s p ∧ Finds s false a o ∧ isNumber o = true ∧
      o.acc ≠ Access.wo ∧ s.dict.busyTabs.contains a = false ∧ s.diagRefuses a true = false) ∧
    (∃ (s : State) (p : Sys2Proof.Path) (a : Ref) (off : ℕ) (len : ℕ) (o : ObjRow), Ready s p ∧ Finds s false a o ∧
      (o.acc = Access.ro ∨ o.acc = Access.rw ∨ o.acc = Access.rws) ∧ s.dict.busyTabs.contains a = false ∧
      s.diagRefuses a true = false ∧ o.isHighest = false ∧ o.idx ≠ 20483 ∧ a.idx ≠ 45057 ∧ o.ty = OType.blob ∧
      s.extentOk o a.inst (pathMost p) off len = true) ∧
    (∃ (s : State) (p : Sys2Proof.Path) (a : Ref) (o : ObjRow), Ready s p ∧ Finds s false a o ∧ (o.acc = Access.ro ∨
      o.acc = Access.rw ∨ o.acc = Access.rws) ∧ s.dict.busyTabs.contains a = false ∧ s.diagRefuses a true = false ∧
      o.isHighest = false ∧ o.idx ≠ 20483 ∧ a.idx ≠ 45057 ∧ o.ty = OType.string) ∧
    (∃ (s : State) (p : Sys2Proof.Path) (a : Ref) (off : ℕ) (len : ℕ) (o : ObjRow), Ready s p ∧ Finds s false a o ∧
      (o.acc = Access.ro ∨ o.acc = Access.rw ∨ o.acc = Access.rws) ∧ s.dict.busyTabs.contains a = false ∧
      s.diagRefuses a true = false ∧ o.isHighest = false ∧ o.idx ≠ 20483 ∧ a.idx ≠ 45057 ∧ o.ty = OType.table ∧
      s.faults.damage = [] ∧ s.extentOk o a.inst (pathMost p) off len = true) ∧
    (∃ (s : State) (p : Sys2Proof.Path) (a : Ref) (o : ObjRow), Ready s p ∧ Finds s false a o ∧ o.isHighest = true ∧
      o.acc ≠ Access.wo ∧ s.diagRefuses a true = false) ∧
    (∃ (s : State) (p : Sys2Proof.Path) (a : Ref) (o : ObjRow), Ready s p ∧ Finds s false a o ∧ o.ty = OType.cmd ∧
      o.acc ≠ Access.wo ∧ o.isHighest = false ∧ s.dict.busyTabs.contains a = false ∧ s.diagRefuses a true = false) ∧
    (∃ (s : State) (p : Sys2Proof.Path) (a : Ref) (o : ObjRow), Ready s p ∧ Finds s true a o ∧ isNumber o = true ∧
      o.acc ≠ Access.wo ∧ s.dict.busyTabs.contains a = false ∧ s.diagRefuses a false = false) ∧
    (∃ (s : State) (p : Sys2Proof.Path) (d : List Byte), Ready s p ∧ d.length ≤ 64) ∧
    (∃ (s : State) (p : Sys2Proof.Path) (d : List Byte), Ready s p ∧ 64 < d.length) :=
  ⟨⟨up, .window 0, O.TB_RATE 7, ⟨0x8000, 3, 3, .i32, .rw, 4, 4, (.upto 8), .none, [(-549755813, 549755813)]⟩,
      by decide +kernel⟩,
    ⟨up, .window 0, ⟨0x9050, 0, 1⟩, 0, 16, rowAt ⟨0x9050, 0, 1⟩, by decide +kernel⟩,
    ⟨up, .window 0, ⟨1, 0, 1⟩, rowAt ⟨1, 0, 1⟩, by decide +kernel⟩,
    ⟨up, .window 0, O.PROGRAM 31, 65532, 4, rowAt (O.PROGRAM 31), by decide +kernel⟩,
    ⟨up, .window 0, ⟨0x4000, 0, 0⟩, rowAt ⟨0x4000, 0, 0⟩, by decide +kernel⟩,
    ⟨up, .window 0, O.FW_VERIFY, ⟨0xD010, 2, 2, .cmd, .cmd, 0, 0, (.upto 1), .none, []⟩, by decide +kernel⟩,
    ⟨staged 0x40 gDirty ⟨O.PARSE_BUDGET 1, 0⟩ 200, .window 0, O.PARSE_BUDGET 1, ⟨0x4000, 1, 1, .u16, .rws, 2, 2,
      (.upto 32), (.base 0x40 2), [(96, 1024)]⟩, by decide +kernel⟩,
    ⟨up, .window 0, zeros 64, by decide +kernel⟩,
    ⟨up, .window 0, zeros 65, by decide +kernel⟩⟩

theorem witness_WriteAndWriteStaged :
    (∃ (s : State) (p : Sys2Proof.Path) (a : Ref) (d : List Byte) (o : ObjRow), Ready s p ∧ s.leasedAway p (a.idx /
      4096) = false ∧ isNumber o = true ∧ d.length = o.size ∧ inRange o (keepBits a.idx a.sub 0 (leNat d)) = true ∧
      Finds s false a o ∧ (o.acc = Access.rw ∨ o.acc = Access.wo) ∧ (a.idx ≠ 20483 ∨ a.sub ≠ 2) ∧ s.valueOk a
      (keepBits a.idx a.sub 0 (leNat d)) = true ∧ s.dict.busyTabs.contains a = false ∧ s.rwBusy o a = false ∧
      s.writeState a 0 d.length = true ∧ [8192, 8480, 12290, 12384, 32768, 32784, 32816, 45056, 45057, 45312].contains
      a.idx = false) ∧
    (∃ (s : State) (p : Sys2Proof.Path) (a : Ref) (e : ObjRow), Ready s p ∧ s.leasedAway p (a.idx / 4096) = false ∧
      Finds s true a e ∧ e.ty = OType.table ∧ e.acc ≠ Access.ro) ∧
    (∃ (s : State) (p : Sys2Proof.Path) (a : Ref) (d : List Byte) (off : ℕ) (e : ObjRow), Ready s p ∧ s.leasedAway p
      (a.idx / 4096) = false ∧ Finds s false a e ∧ (e.ty = OType.blob ∨ e.ty = OType.table) ∧ (e.acc = Access.rw ∨
      e.acc = Access.wo) ∧ (a.idx ≠ 20483 ∨ a.sub ≠ 2 ∨ (s.decl a.inst).isLpm = false) ∧ s.extentOk e a.inst (pathMost
      p) off d.length = true ∧ (∀ x ∈ rowsIn (s.extent e a.inst).2 off d, s.rowOk a x.1 x.2 = true) ∧
      s.dict.busyTabs.contains a = false ∧ s.rwBusy e a = false ∧ s.writeState a off d.length = true) ∧
    (∃ (s : State) (p : Sys2Proof.Path) (a : Ref) (d : List Byte) (o : ObjRow) (g : ℕ), Ready s p ∧ s.leasedAway p
      (a.idx / 4096) = false ∧ Finds s true a o ∧ (o.acc = Access.rw ∨ o.acc = Access.rws) ∧ grpOf o.grp a.inst = some
      g ∧ s.groupBusy g = false ∧ s.dict.busyTabs.contains a = false ∧ isNumber o = true ∧ d.length = o.size ∧ inRange
      o (keepBits a.idx a.sub 0 (leNat d)) = true) ∧
    (∃ (s : State) (p : Sys2Proof.Path) (a : Ref) (d : List Byte) (g : ℕ) (off : ℕ) (e : ObjRow), Ready s p ∧
      s.leasedAway p (a.idx / 4096) = false ∧ Finds s true a e ∧ (e.acc = Access.rw ∨ e.acc = Access.rws) ∧ grpOf
      e.grp a.inst = some g ∧ s.groupBusy g = false ∧ s.dict.busyTabs.contains a = false ∧ e.ty = OType.blob ∧
      s.extentOk e a.inst (pathMost p) off d.length = true) :=
  ⟨⟨up, .window 0, O.COST_BIN 31, [64], ⟨0x4012, 1, 1, .u8, .rw, 1, 1, (.upto 32), .none, [(1, 64)]⟩, by decide +kernel⟩,
    ⟨up, .window 0, O.PROGRAM 31, rowAt (O.PROGRAM 31), by decide +kernel⟩,
    ⟨up, .window 0, ⟨0x9050, 0, 1⟩, zeros 16, 0, rowAt ⟨0x9050, 0, 1⟩, by decide +kernel⟩,
    ⟨up, .window 0, O.PARSE_BUDGET 0, [96, 0], ⟨0x4000, 1, 1, .u16, .rws, 2, 2, (.upto 32), (.base 0x40 2), [(96,
      1024)]⟩, 0x40, by decide +kernel⟩,
    ⟨up, .window 0, O.PORT_MAP 31, zeros 16, 0x37, 0, rowAt (O.PORT_MAP 31), by decide +kernel⟩⟩

theorem witness_RefusalsComeInTheOrderOfTheRules :
    (∃ (s : State) (p : Sys2Proof.Path) (a : Ref), Ready s p ∧ indexRows a.idx = []) ∧
    (∃ (s : State) (p : Sys2Proof.Path) (a : Ref) (r : ObjRow), Ready s p ∧ (indexRows a.idx).head? = some r ∧
      s.hasInst r.insts a.inst = false) ∧
    (∃ (s : State) (p : Sys2Proof.Path) (a : Ref) (r : ObjRow), Ready s p ∧ (indexRows a.idx).head? = some r ∧
      s.hasInst r.insts a.inst = true ∧ rowOf (indexRows a.idx) a.sub = none) ∧
    (∃ (s : State) (p : Sys2Proof.Path) (a : Ref) (o : ObjRow), Ready s p ∧ Finds s false a o ∧ o.acc = Access.wo) ∧
    (∃ (s : State) (p : Sys2Proof.Path) (a : Ref) (o : ObjRow), Ready s p ∧ Finds s false a o ∧ (o.acc = Access.ro ∨
      o.acc = Access.rc)) ∧
    (∃ (s : State) (p : Sys2Proof.Path) (a : Ref) (o : ObjRow), Ready s p ∧ Finds s false a o ∧ o.acc = Access.rws) ∧
    (∃ (s : State) (p : Sys2Proof.Path) (a : Ref) (o : ObjRow), Ready s p ∧ Finds s true a o ∧ (o.acc = Access.ro ∨
      o.acc = Access.rc)) ∧
    (∃ (s : State) (p : Sys2Proof.Path) (a : Ref) (o : ObjRow), Ready s p ∧ Finds s true a o ∧ (o.acc = Access.wo ∨
      o.acc = Access.w1c ∨ o.acc = Access.cmd)) ∧
    (∃ (s : State) (p : Sys2Proof.Path) (a : Ref) (o : ObjRow), Ready s p ∧ Finds s false a o ∧ (o.acc = Access.rw ∨
      o.acc = Access.wo ∨ o.acc = Access.cmd) ∧ (a.idx ≠ 20483 ∨ a.sub ≠ 2) ∧ s.leasedAway p (a.idx / 4096) = true ∧
      (a.idx = 54016 ∨ a.idx = 54032) ∧ a.sub = 1 ∧ s.cmdRunning a = true) ∧
    (∃ (s : State) (p : Sys2Proof.Path) (a : Ref) (o : ObjRow), Ready s p ∧ Finds s false a o ∧ (o.acc = Access.rw ∨
      o.acc = Access.wo ∨ o.acc = Access.cmd) ∧ (a.idx ≠ 20483 ∨ a.sub ≠ 2) ∧ s.leasedAway p (a.idx / 4096) = true ∧
      (a.idx ≠ 54016 ∧ a.idx ≠ 54032 ∨ a.sub ≠ 1 ∨ s.cmdRunning a = false)) ∧
    (∃ (s : State) (p : Sys2Proof.Path) (a : Ref) (d : List Byte) (o : ObjRow), Ready s p ∧ Finds s false a o ∧ (o.acc
      = Access.rw ∨ o.acc = Access.wo) ∧ (a.idx ≠ 20483 ∨ a.sub ≠ 2) ∧ isNumber o = true ∧ s.leasedAway p (a.idx /
      4096) = false ∧ d.length ≠ o.size) ∧
    (∃ (s : State) (p : Sys2Proof.Path) (a : Ref) (d : List Byte) (o : ObjRow), Ready s p ∧ Finds s false a o ∧ (o.acc
      = Access.rw ∨ o.acc = Access.wo) ∧ (a.idx ≠ 20483 ∨ a.sub ≠ 2) ∧ isNumber o = true ∧ s.leasedAway p (a.idx /
      4096) = false ∧ d.length = o.size ∧ inRange o (keepBits a.idx a.sub 0 (leNat d)) = false) ∧
    (∃ (s : State) (p : Sys2Proof.Path) (a : Ref) (d : List Byte) (o : ObjRow), Ready s p ∧ Finds s false a o ∧ o.acc
      = Access.cmd ∧ (a.idx ≠ 20483 ∨ a.sub ≠ 2) ∧ s.leasedAway p (a.idx / 4096) = false ∧ cmdFits a o.size d = true ∧
      s.cmdRange a d = true ∧ s.dict.busyTabs.contains a = false ∧ s.cmdRunning a = true) ∧
    (∃ (s : State) (p : Sys2Proof.Path) (a : Ref) (d : List Byte) (o : ObjRow), Ready s p ∧ Finds s false a o ∧ o.acc
      = Access.cmd ∧ (a.idx ≠ 20483 ∨ a.sub ≠ 2) ∧ s.leasedAway p (a.idx / 4096) = false ∧ cmdFits a o.size d = false) ∧
    (∃ (s : State) (p : Sys2Proof.Path) (a : Ref) (d : List Byte) (o : ObjRow), Ready s p ∧ Finds s false a o ∧ o.acc
      = Access.cmd ∧ (a.idx ≠ 20483 ∨ a.sub ≠ 2) ∧ s.leasedAway p (a.idx / 4096) = false ∧ cmdFits a o.size d = true ∧
      s.cmdRange a d = false) ∧
    (∃ (s : State) (p : Sys2Proof.Path) (a : Ref) (d : List Byte) (o : ObjRow), Ready s p ∧ Finds s false a o ∧ o.acc
      = Access.cmd ∧ (a.idx ≠ 20483 ∨ a.sub ≠ 2) ∧ s.leasedAway p (a.idx / 4096) = false ∧ cmdFits a o.size d = true ∧
      s.cmdRange a d = true ∧ s.dict.busyTabs.contains a = true) :=
  ⟨⟨up, .window 0, ⟨0xF000, 0, 1⟩, by decide +kernel⟩,
    ⟨up, .window 0, O.PARSE_BUDGET 32, ⟨0x4000, 1, 1, .u16, .rws, 2, 2, (.upto 32), (.base 0x40 2), [(96, 1024)]⟩,
      by decide +kernel⟩,
    ⟨up, .window 0, ⟨0x4000, 31, 7⟩, ⟨0x4000, 1, 1, .u16, .rws, 2, 2, (.upto 32), (.base 0x40 2), [(96, 1024)]⟩,
      by decide +kernel⟩,
    ⟨up, .window 0, O.IRQ_RAISE, ⟨0xB000, 1, 1, .u16, .wo, 2, 2, (.upto 1), .none, [(3840, 4094)]⟩, by decide +kernel⟩,
    ⟨up, .window 0, O.MAX_CHARGED 0, ⟨0x4011, 2, 2, .u16, .rc, 2, 2, (.upto 32), .none, []⟩, by decide +kernel⟩,
    ⟨up, .window 0, O.PARSE_BUDGET 0, ⟨0x4000, 1, 1, .u16, .rws, 2, 2, (.upto 32), (.base 0x40 2), [(96, 1024)]⟩,
      by decide +kernel⟩,
    ⟨up, .window 0, O.MAX_CHARGED 0, ⟨0x4011, 2, 2, .u16, .rc, 2, 2, (.upto 32), .none, []⟩, by decide +kernel⟩,
    ⟨up, .window 0, O.FW_VERIFY, ⟨0xD010, 2, 2, .cmd, .cmd, 0, 0, (.upto 1), .none, []⟩, by decide +kernel⟩,
    ⟨(leased 13).cmdRun (O.TW_XFER 0), .window 0, O.TW_XFER 0, rowAt (O.TW_XFER 0), by decide +kernel⟩,
    ⟨leased 8, .window 0, O.TB_RATE 0, ⟨0x8000, 3, 3, .i32, .rw, 4, 4, (.upto 8), .none, [(-549755813, 549755813)]⟩,
      by decide +kernel⟩,
    ⟨up, .window 0, O.TB_RATE 0, [0, 0, 0], ⟨0x8000, 3, 3, .i32, .rw, 4, 4, (.upto 8), .none, [(-549755813,
      549755813)]⟩, by decide +kernel⟩,
    ⟨up, .window 0, O.TB_RATE 0, [0, 0, 0, 0x7F], ⟨0x8000, 3, 3, .i32, .rw, 4, 4, (.upto 8), .none, [(-549755813,
      549755813)]⟩, by decide +kernel⟩,
    ⟨up.cmdRun O.FW_VERIFY, .window 0, O.FW_VERIFY, [], ⟨0xD010, 2, 2, .cmd, .cmd, 0, 0, (.upto 1), .none, []⟩,
      by decide +kernel⟩,
    ⟨up, .window 0, O.FW_VERIFY, [0], ⟨0xD010, 2, 2, .cmd, .cmd, 0, 0, (.upto 1), .none, []⟩, by decide +kernel⟩,
    ⟨up, .window 0, O.EYE_SCAN 511, [4], rowAt (O.EYE_SCAN 511), by decide +kernel⟩,
    ⟨{ up with dict := { up.dict with busyTabs := [O.FW_VERIFY] } }, .window 0, O.FW_VERIFY, [], ⟨0xD010, 2, 2, .cmd,
      .cmd, 0, 0, (.upto 1), .none, []⟩, by decide +kernel⟩⟩

theorem witness_GroupsDiscardCommitAndFlip :
    (∃ (s : State) (p : Sys2Proof.Path) (g : Fin 256), Ready s p ∧ isGroup g.val = true ∧ s.leasedAway p (g.val / 16)
      = false ∧ s.groupSt g.val = gDirty) ∧
    (∃ (s : State) (p : Sys2Proof.Path) (g : Fin 256), Ready s p ∧ isGroup g.val = true ∧ s.leasedAway p (g.val / 16)
      = false ∧ s.groupSt g.val = gRetiring) ∧
    (∃ (s : State) (p : Sys2Proof.Path) (g : Fin 256), Ready s p ∧ isGroup g.val = true ∧ s.leasedAway p (g.val / 16)
      = false ∧ s.groupSt g.val = gClean) ∧
    (∃ (s : State) (p : Sys2Proof.Path) (g : Fin 256), Ready s p ∧ isGroup g.val = true ∧ s.leasedAway p (g.val / 16)
      = false ∧ s.groupBusy g.val = true) ∧
    (∃ (s : State) (p : Sys2Proof.Path) (g : Fin 256), Ready s p ∧ isGroup g.val = false) ∧
    (∃ (s : State) (p : Sys2Proof.Path) (d : List Byte), Ready s p ∧ d.length ≠ 1) ∧
    (∃ (s : State) (p : Sys2Proof.Path) (d : List Byte), Ready s p ∧ d.length = 32 ∧ (∀ h ∈ namedIn d, isGroup h =
      true ∧ s.leasedAway p (h / 16) = false) ∧ (∀ h ∈ namedIn d, s.groupSt h = gClean ∨ s.groupSt h = gDirty) ∧ (∃ h
      ∈ namedIn d, s.groupSt h = gDirty)) ∧
    (∃ (s : State) (p : Sys2Proof.Path) (d : List Byte), Ready s p ∧ d.length = 32 ∧ (∀ h ∈ namedIn d, isGroup h =
      true ∧ s.leasedAway p (h / 16) = false) ∧ (∀ h ∈ namedIn d, s.groupSt h = gClean)) ∧
    (∃ (s : State) (p : Sys2Proof.Path) (d : List Byte), Ready s p ∧ d.length = 32 ∧ (∀ h ∈ namedIn d, isGroup h =
      true ∧ s.leasedAway p (h / 16) = false) ∧ (∃ h ∈ namedIn d, s.groupBusy h = true ∨ s.groupSt h = gRetiring)) ∧
    (∃ (s : State) (p : Sys2Proof.Path) (d : List Byte), Ready s p ∧ d.length = 32 ∧ (∃ h ∈ namedIn d, isGroup h =
      false)) ∧
    (∃ (s : State) (p : Sys2Proof.Path) (d : List Byte), Ready s p ∧ d.length ≠ 32) ∧
    (∃ (s : State) (p : Sys2Proof.Path) (g : Fin 256) (c : Commit) (k : ℕ), Ready s p ∧ s.commitIn CPhase.validating
      g.val = some c ∧ s.firstBad c.named c.paled = some k ∧ c.direct = true) ∧
    (∃ (s : State) (p : Sys2Proof.Path) (g : Fin 256) (c : Commit), Ready s p ∧ s.commitIn CPhase.validating g.val =
      some c ∧ s.firstBad c.named c.paled = none ∧ c.groups.any tileUsed = true) ∧
    (∃ (s : State) (p : Sys2Proof.Path) (g : Fin 256) (c : Commit), Ready s p ∧ s.commitIn CPhase.validating g.val =
      some c ∧ s.firstBad c.named c.paled = none ∧ c.groups.any tileUsed = false) ∧
    (∃ (s : State) (p : Sys2Proof.Path) (g : Fin 256) (t : Tile) (c : Commit), Ready s p ∧ s.commitIn CPhase.flipping
      g.val = some c ∧ c.flipped.contains t.val = true) ∧
    (∃ (s : State) (p : Sys2Proof.Path) (g : Fin 256) (t : Tile) (c : Commit), Ready s p ∧ s.commitIn CPhase.flipping
      g.val = some c ∧ c.flipped.contains t.val = false ∧ (insNat t.val c.flipped).length < 32) ∧
    (∃ (s : State) (p : Sys2Proof.Path) (g : Fin 256) (t : Tile) (c : Commit), Ready s p ∧ s.commitIn CPhase.flipping
      g.val = some c ∧ c.flipped.contains t.val = false ∧ 32 ≤ (insNat t.val c.flipped).length) ∧
    (∃ (s : State) (p : Sys2Proof.Path) (g : Fin 256) (t : Tile) (c : Commit), Ready s p ∧ s.commitIn CPhase.flipping
      g.val = some c ∧ c.flipped.contains t.val = false ∧ c.groups.contains (tileGroup t.val) = false ∧ (insNat t.val
      c.flipped).length < 32) :=
  ⟨⟨staged 0x40 gDirty ⟨O.PARSE_BUDGET 1, 0⟩ 200, .window 0, 0x40, by decide +kernel⟩,
    ⟨staged 0x40 gRetiring ⟨O.PARSE_BUDGET 1, 0⟩ 200, .window 0, 0x40, by decide +kernel⟩,
    ⟨up, .window 0, 0x40, by decide +kernel⟩,
    ⟨staged 0x40 gFlipping ⟨O.PARSE_BUDGET 1, 0⟩ 200, .window 0, 0x40, by decide +kernel⟩,
    ⟨up, .window 0, 255, by decide +kernel⟩,
    ⟨up, .window 0, [1, 2], by decide +kernel⟩,
    ⟨staged 0x40 gDirty ⟨O.PARSE_BUDGET 1, 0⟩ 200, .window 0, map40, by decide +kernel⟩,
    ⟨up, .window 0, map40, by decide +kernel⟩,
    ⟨staged 0x40 gRetiring ⟨O.PARSE_BUDGET 1, 0⟩ 200, .window 0, map40, by decide +kernel⟩,
    ⟨up, .window 0, List.replicate 32 255, by decide +kernel⟩,
    ⟨up, .window 0, [], by decide +kernel⟩,
    ⟨committing .validating [] 5, .window 0, 0x40, cmt .validating [], 0x40, by decide +kernel⟩,
    ⟨committing .validating [] 0, .window 0, 0x40, cmt .validating [], by decide +kernel⟩,
    ⟨committing10, .window 0, 0x10, cmt10, by decide +kernel⟩,
    ⟨committing .flipping [31] 0, .window 0, 0x40, 31, cmt .flipping [31], by decide +kernel⟩,
    ⟨committing .flipping [] 0, .window 0, 0x40, 31, cmt .flipping [], by decide +kernel⟩,
    ⟨committing .flipping (List.range 31) 0, .window 0, 0x40, 31, cmt .flipping (List.range 31), by decide +kernel⟩,
    ⟨committing .flipping [] 0, .window 0, 0x40, 31, cmt .flipping [], by decide +kernel⟩⟩

theorem witness_LeasesBeginAndEnd :
    (∃ (s : State) (p : Sys2Proof.Path) (a : Fin 16) (h : ℕ) (secs : ℕ), Ready s p ∧ holderOf p = some h ∧ h ≠ 9 ∧ 1 ≤
      a.val ∧ a.val ≤ 13 ∧ 1 ≤ secs ∧ secs ≤ 600 ∧ s.leasedAway p a.val = false) ∧
    (∃ (s : State) (p : Sys2Proof.Path) (d : List Byte), Ready s p ∧ ((fun b => 1 ≤ b ∧ b ≤ 13 ∧ s.leasedAway p b =
      true) (byteAt d 0))) ∧
    (∃ (s : State) (p : Sys2Proof.Path) (d : List Byte), Ready s p ∧ (¬(fun b => 1 ≤ b ∧ b ≤ 13 ∧ s.leasedAway p b =
      true) (byteAt d 0)) ∧ d.length ≠ 4) ∧
    (∃ (s : State) (p : Sys2Proof.Path) (d : List Byte), Ready s p ∧ (¬(fun b => 1 ≤ b ∧ b ≤ 13 ∧ s.leasedAway p b =
      true) (byteAt d 0)) ∧ d.length ≠ 1) ∧
    (∃ (s : State) (p : Sys2Proof.Path) (a : Fin 16), Ready s p ∧ (a.val = 0 ∨ 13 < a.val)) ∧
    (∃ (s : State) (p : Sys2Proof.Path) (a : Fin 16) (secs : ℕ), Ready s p ∧ s.leasedAway p a.val = false ∧ (secs = 0
      ∨ 600 < secs) ∧ secs < 2 ^ 16) ∧
    (∃ (s : State) (p : Sys2Proof.Path) (a : Fin 16), Ready s p ∧ (holderOf p = none ∨ holderOf p = some 9) ∧
      s.leasedAway p a.val = false) ∧
    (∃ (s : State) (p : Sys2Proof.Path) (a : Fin 16), Ready s p ∧ 1 ≤ a.val ∧ a.val ≤ 13 ∧ (s.lease? a.val = none ∨
      holderOf p = none)) ∧
    (∃ (s : State) (p : Sys2Proof.Path) (a : Fin 16) (h : ℕ), Ready s p ∧ holderOf p = some h ∧ 1 ≤ a.val ∧ a.val ≤ 13
      ∧ s.leasedAway p a.val = false ∧ (s.lease? a.val).isSome = true) ∧
    (∃ (s : State) (p : Sys2Proof.Path) (a : Fin 16), Ready s p ∧ (s.lease? a.val).isSome = true ∧ s.timersRun = true) ∧
    (∃ (s : State) (p : Sys2Proof.Path) (g : Fin 256), Ready s p ∧ isGroup g.val = true ∧ s.leasedAway p (g.val / 16)
      = true) ∧
    (∃ (s : State) (p : Sys2Proof.Path) (d : List Byte), Ready s p ∧ d.length = 32 ∧ (∀ k ∈ namedIn d, isGroup k =
      true) ∧ (∃ k ∈ namedIn d, s.leasedAway p (k / 16) = true)) :=
  ⟨⟨up, .window 0, 13, 8, 600, by decide +kernel⟩,
    ⟨leased 13, .window 0, [13, 0, 0], by decide +kernel⟩,
    ⟨up, .window 0, [13, 0, 1], by decide +kernel⟩,
    ⟨up, .window 0, [], by decide +kernel⟩,
    ⟨up, .window 0, 0, by decide +kernel⟩,
    ⟨up, .window 0, 13, 0, by decide +kernel⟩,
    ⟨up, .slate, 13, by decide +kernel⟩,
    ⟨leased 13, .slate, 13, by decide +kernel⟩,
    ⟨leased 13, .bolsy 3, 13, 3, by decide +kernel⟩,
    ⟨leased 13, .window 0, 13, by decide +kernel⟩,
    ⟨leased 4, .window 0, 0x40, by decide +kernel⟩,
    ⟨leased 4, .window 0, map40, by decide +kernel⟩⟩

theorem witness_WindowsAndManagementFrames :
    (∃ (s : State), Runs s ∧ (s.sys.initDone = false ∨ s.hostReaches = false ∨ s.host.d3hot = true)) ∧
    (∃ (s : State) (w : Window) (off : Fin 1048576), Runs s ∧ s.sys.initDone = true ∧ s.hostReaches = true ∧
      s.host.d3hot = false ∧ off.val = 131072 + w.val * 4096 + 20) ∧
    (∃ (s : State) (w : Window) (off : Fin 1048576) (v : BitVec 64), Runs s ∧ s.sys.initDone = true ∧ s.hostReaches =
      true ∧ s.host.d3hot = false ∧ off.val = 131072 + w.val * 4096 + 16 ∧ v.toNat < 2 ^ 32 ∧ (s.win w.val).op = none) ∧
    (∃ (s : State) (w : Window) (off : Fin 1048576), Runs s ∧ s.sys.initDone = true ∧ s.hostReaches = true ∧
      s.host.d3hot = false ∧ off.val = 131072 + w.val * 4096 + 16 ∧ (s.win w.val).op.isSome = true) ∧
    (∃ (s : State) (w : Window) (o : WinOp) (v' : State) (a : ℕ × List Byte), Runs s ∧ (s.win w.val).op = some o ∧
      o.sent = false ∧ s.dict.winOrder = [w.val] ∧ ({ fresh s with dict := { s.dict with winOrder := [] } }).dictOp
      (Path.window w) o.code
      { idx := (s.win w.val).index / 65536, inst := (s.win w.val).inst, sub := (s.win w.val).index % 256 } (s.win
      w.val).offset (s.win w.val).length (List.take (s.win w.val).length (padTo 512 (s.win w.val).data)) false =
      (some a, v')) ∧
    (∃ (s : State) (w : Window) (o : WinOp) (v' : State), Runs s ∧ (s.win w.val).op = some o ∧ o.sent = false ∧
      s.dict.winOrder = [w.val] ∧ ({ fresh s with dict := { s.dict with winOrder := [] } }).dictOp     (Path.window w)
      o.code { idx := (s.win w.val).index / 65536, inst := (s.win w.val).inst, sub := (s.win w.val).index % 256 }
      (s.win w.val).offset (s.win w.val).length (List.take (s.win w.val).length (padTo 512 (s.win w.val).data)) false
      =   (none, v')) ∧
    (∃ (s : State) (w : Window) (o : WinOp) (a : ℕ × List Byte), Runs s ∧ (s.win w.val).op = some o ∧ o.sent = true ∧
      o.answer = some a) ∧
    (∃ (s : State) (m : MgmtPort) (bytes : List Byte) (b : List Byte), Runs s ∧ s.flag (O.MGMT_ENABLE m.val) = true ∧
      s.get (O.MGMT_MAC m.val) ≠ 0 ∧ (s.sys.fw = Fw.running ∨ s.sys.fw = Fw.switching) ∧ s.mgmtAnswer m.val bytes =
      some b) ∧
    (∃ (s : State) (m : MgmtPort) (bytes : List Byte), Runs s ∧ s.flag (O.MGMT_ENABLE m.val) = true ∧ s.get
      (O.MGMT_MAC m.val) ≠ 0 ∧ (s.sys.fw = Fw.running ∨ s.sys.fw = Fw.switching) ∧ s.mgmtAnswer m.val bytes = none ∧
      s.resolves m.val bytes = false) :=
  ⟨⟨State.reset, by decide +kernel⟩,
    ⟨up, 3, 0x23014, by decide +kernel⟩,
    ⟨up, 3, 0x23010, 0xFFFF0101, by decide +kernel⟩,
    ⟨up.putWin 3 { Win.reset with op := some ⟨1, 0, false, false, none⟩ }, 3, 0x23010, by decide +kernel⟩,
    ⟨owS, 3, ⟨10, 7, true, false, none⟩, owV, (0, []), by decide +kernel⟩,
    ⟨owC, 3, ⟨6, 7, true, false, none⟩, owD, by decide +kernel⟩,
    ⟨up.putWin 3 { Win.reset with op := some ⟨1, 9, true, true, some (0, [5])⟩ }, 3, ⟨1, 9, true, true, some (0,
      [5])⟩, (0, [5]), by decide +kernel⟩,
    ⟨fwUp, 0, arp, [0, 1, 8, 0, 6, 4, 0, 2, 2, 0, 0, 0, 0, 1, 0xC0, 0, 2, 1, 2, 0, 0, 0, 0, 9, 0xC0, 0, 2, 9],
      by decide +kernel⟩,
    ⟨fwUp, 0, arp.take 41, by decide +kernel⟩⟩

theorem witness_BolsySessions :
    (∃ (s : State) (m : MgmtPort) (f : Udp) (k : Session) (x : Sess) (n : ℕ), n = beAt f.payload 8 8 ∧ k.val = byteAt
      f.payload 5 ∧ BolsyComes s m f 16 ∧ s.session? k.val = some x ∧ tagOk x.kmd f.payload = true ∧ n ≠ 0 ∧ s.get
      (O.SESSION_HIGHEST k.val) ≤ n + 63 ∧ ((x.jobs.any fun x => x.seq == n) = true)) ∧
    (∃ (s : State) (m : MgmtPort) (f : Udp) (k : Session) (x : Sess) (n : ℕ) (c : ℕ × List Byte), n = beAt f.payload 8
      8 ∧ k.val = byteAt f.payload 5 ∧ BolsyComes s m f 16 ∧ s.session? k.val = some x ∧ tagOk x.kmd f.payload = true
      ∧ n ≠ 0 ∧ s.get (O.SESSION_HIGHEST k.val) ≤ n + 63 ∧ ((x.jobs.any fun x => x.seq == n) = false) ∧ (List.find?
      (fun x => x.1 == n) x.cache = some c)) ∧
    (∃ (s : State) (m : MgmtPort) (f : Udp) (k : Session) (x : Sess) (n : ℕ) (ops : List BOp), n = beAt f.payload 8 8
      ∧ k.val = byteAt f.payload 5 ∧ BolsyComes s m f 16 ∧ s.session? k.val = some x ∧ tagOk x.kmd f.payload = true ∧
      n ≠ 0 ∧ s.get (O.SESSION_HIGHEST k.val) ≤ n + 63 ∧ x.jobs = [] ∧ (List.find? (fun x => x.1 == n) x.cache = none)
      ∧ 1 ≤ byteAt f.payload 16 ∧ byteAt f.payload 16 ≤ 16 ∧ parseOps (byteAt f.payload 16) (List.drop 4 (List.take
      (f.payload.length - 32) (List.drop 16 f.payload))) = some ops) ∧
    (∃ (s : State) (m : MgmtPort) (f : Udp) (k : Session) (x : Sess) (n : ℕ), n = beAt f.payload 8 8 ∧ k.val = byteAt
      f.payload 5 ∧ BolsyComes s m f 16 ∧ s.session? k.val = some x ∧ tagOk x.kmd f.payload = true ∧ (n = 0 ∨ n + 63 <
      s.get (O.SESSION_HIGHEST k.val))) ∧
    (∃ (s : State) (m : MgmtPort) (f : Udp) (k : Session) (x : Sess) (n : ℕ), n = beAt f.payload 8 8 ∧ k.val = byteAt
      f.payload 5 ∧ BolsyComes s m f 32 ∧ s.session? k.val = some x ∧ tagOk x.kmd f.payload = true ∧ s.get
      (O.SESSION_HIGHEST k.val) < n) ∧
    (∃ (s : State) (p : Sys2Proof.Path) (k : Session), Takes s p (O.SESSION_CLOSE k.val)) ∧
    (∃ (s : State) (k : Session) (x : Sess), Runs s ∧ s.session? k.val = some x ∧ s.timersRun = true ∧ s.dict.leases =
      []) :=
  ⟨⟨sessUp.modSess 2 (fun y => { y with jobs := [⟨0, helloF, 5, [], []⟩] }), 0, dgram (frame 0x10 5 [0, 0, 0, 0]), 2,
      { sess with jobs := [⟨0, helloF, 5, [], []⟩] }, 5, by decide +kernel⟩,
    ⟨sessUp, 0, dgram (frame 0x10 4 [0, 0, 0, 0]), 2, sess, 4, (4, [7]), by decide +kernel⟩,
    ⟨sessUp, 0, dgram (frame 0x10 6 echoOp), 2, sess, 6, [⟨10, ⟨0, 0, 0⟩, 0, 0, []⟩], by decide +kernel⟩,
    ⟨sessUp, 0, dgram (frame 0x10 0 echoOp), 2, sess, 0, by decide +kernel⟩,
    ⟨sessUp, 0, dgram (frame 0x20 1 []), 2, sess, 1, by decide +kernel⟩,
    ⟨sessUp, .window 0, 2, by decide +kernel⟩,
    ⟨sessUp, 2, sess, by decide +kernel⟩⟩

theorem witness_ReferenceInputsAndTransmitClocks :
    (∃ (s : State) (n : RefInput) (b : LaneBank) (m : BitVec 32) (c : Instr), Runs s ∧ c ∈ [Instr.refclkLoss n,
      Instr.refclkHealthy n, Instr.txPllLock b, Instr.dieToDieLinkLoss b m]) ∧
    (∃ (s : State) (n : RefInput) (b : LaneBank) (r : ℕ), Runs s ∧ s.sys.seqDown.contains b.val = false ∧
      s.sys.seqDown.contains (n.val / 4) = false ∧ n.val / 4 = b.val ∧ s.flag (O.REF_HEALTHY n.val) = true ∧ s.get
      (O.BANK_STATE b.val) = 1 ∧ s.get (O.TX_REF_ACTIVE b.val) = n.val % 4 ∧ (r = s.get (O.TX_REF_SELECT b.val) ∧ r ∈
      (List.filter (fun x => x != n.val % 4) (s.healthyRefs b.val)) ∨ s.get (O.TX_REF_SELECT b.val) ∉ (List.filter
      (fun x => x != n.val % 4) (s.healthyRefs b.val)) ∧ s.flag (O.REF_FAILOVER b.val) = true ∧ (List.filter (fun x =>
      x != n.val % 4) (s.healthyRefs b.val)).head? = some r)) ∧
    (∃ (s : State) (n : RefInput) (b : LaneBank), Runs s ∧ s.sys.seqDown.contains b.val = false ∧
      s.sys.seqDown.contains (n.val / 4) = false ∧ n.val / 4 = b.val ∧ s.flag (O.REF_HEALTHY n.val) = true ∧ s.get
      (O.BANK_STATE b.val) = 1 ∧ s.get (O.TX_REF_ACTIVE b.val) = n.val % 4 ∧ (s.get (O.TX_REF_SELECT b.val) ∉
      List.filter (fun x => x != n.val % 4) (s.healthyRefs b.val)) ∧ (s.flag (O.REF_FAILOVER b.val) = false ∨
      List.filter (fun x => x != n.val % 4) (s.healthyRefs b.val) = [])) ∧
    (∃ (s : State) (n : RefInput) (b : LaneBank), Runs s ∧ s.sys.seqDown.contains b.val = false ∧
      s.sys.seqDown.contains (n.val / 4) = false ∧ n.val / 4 = b.val ∧ s.flag (O.REF_HEALTHY n.val) = true ∧ (s.get
      (O.BANK_STATE b.val) ≠ 1 ∨ s.get (O.TX_REF_ACTIVE b.val) ≠ n.val % 4)) ∧
    (∃ (s : State) (n : RefInput) (b : LaneBank), Runs s ∧ s.sys.seqDown.contains b.val = false ∧
      s.sys.seqDown.contains (n.val / 4) = false ∧ s.flag (O.REF_HEALTHY n.val) = false) ∧
    (∃ (s : State) (n : RefInput) (b : LaneBank) (r : ℕ), Runs s ∧ s.sys.seqDown.contains b.val = false ∧
      s.sys.seqDown.contains (n.val / 4) = false ∧ s.get (O.BANK_STATE b.val) ≠ 1 ∧ s.refToTake b.val = some r) ∧
    (∃ (s : State) (n : RefInput) (b : LaneBank), Runs s ∧ s.sys.seqDown.contains b.val = false ∧
      s.sys.seqDown.contains (n.val / 4) = false ∧ s.get (O.BANK_STATE b.val) ≠ 1 ∧ s.refToTake b.val = none) :=
  ⟨⟨bankDown (clocked 31), 31, 7, 0, .refclkLoss 31, by decide +kernel⟩,
    ⟨having (O.TX_REF_ACTIVE 7) 3 (clocked 31), 31, 7, 0, by decide +kernel⟩,
    ⟨having (O.REF_FAILOVER 7) 0 (clocked 31), 28, 7, by decide +kernel⟩,
    ⟨clocked 31, 31, 7, by decide +kernel⟩,
    ⟨up, 31, 7, by decide +kernel⟩,
    ⟨(staged_ 511 1 (having (O.REF_HEALTHY 31) 1 up)).modLane 511 (fun x => { x with los := false, good := true }),
      31, 7, 3, by decide +kernel⟩,
    ⟨up, 31, 7, by decide +kernel⟩⟩

theorem witness_BringUpStageByStage :
    (∃ (s : State) (l : Lane), Runs s ∧ s.sys.seqDown.contains (bankOfLane l.val) = false ∧ s.stage l.val =
      Stage.detect ∧ s.laneClocked l.val = true) ∧
    (∃ (s : State) (l : Lane), Runs s ∧ s.sys.seqDown.contains (bankOfLane l.val) = false ∧ (s.stage l.val =
      Stage.detect ∧ s.laneClocked l.val = false ∨ Stage.detect < s.stage l.val)) ∧
    (∃ (s : State) (l : Lane), Runs s ∧ s.sys.seqDown.contains (bankOfLane l.val) = false ∧ s.stage l.val = Stage.off) ∧
    (∃ (s : State) (l : Lane) (w : BitVec 208), Runs s ∧ s.sys.seqDown.contains (bankOfLane l.val) = false ∧ s.stage
      l.val = Stage.train ∧ s.get (O.LANE_MODE l.val) = 5 ∧ crc16Bits (w.toNat / 2 ^ 16) 192 = w.toNat % 2 ^ 16) ∧
    (∃ (s : State) (l : Lane) (w : BitVec 208), Runs s ∧ s.sys.seqDown.contains (bankOfLane l.val) = false ∧ (s.stage
      l.val ≠ Stage.train ∨ s.get (O.LANE_MODE l.val) ≠ 5 ∨ crc16Bits (w.toNat / 2 ^ 16) 192 ≠ w.toNat % 2 ^ 16)) ∧
    (∃ (s : State) (l : Lane), Runs s ∧ s.sys.seqDown.contains (bankOfLane l.val) = false ∧ (s.stage l.val =
      Stage.train ∧ s.get (O.TRAIN_PHASE l.val) = 0 ∧ s.g4Possible l.val = true ∧ (s.lane l.val).phaseOut = true ∧ 16
      ≤ (s.lane l.val).phaseSeen)) ∧
    (∃ (s : State) (l : Lane), Runs s ∧ s.sys.seqDown.contains (bankOfLane l.val) = false ∧ (¬(s.stage l.val =
      Stage.train ∧ s.get (O.TRAIN_PHASE l.val) = 0 ∧ s.g4Possible l.val = true ∧ (s.lane l.val).phaseOut = true ∧ 16
      ≤ (s.lane l.val).phaseSeen))) ∧
    (∃ (s : State) (l : Lane) (r : ℕ), Runs s ∧ s.sys.seqDown.contains (bankOfLane l.val) = false ∧ s.stage l.val =
      Stage.train ∧ s.trainedRate l.val = some r ∧ (∀ (k : ℕ), s.portOfLane l.val = some k → ∀ j ∈ s.portLanes k, j ≠
      l.val → s.stage j < Stage.lock)) ∧
    (∃ (s : State) (l : Lane) (r : ℕ) (q : ℕ), Runs s ∧ s.sys.seqDown.contains (bankOfLane l.val) = false ∧ s.stage
      l.val = Stage.train ∧ s.trainedRate l.val = some r ∧ r = 4 ∧ s.get (O.LANE_MODE l.val) = 5 ∧ s.portOfLane l.val
      = some q) ∧
    (∃ (s : State) (l : Lane), Runs s ∧ s.sys.seqDown.contains (bankOfLane l.val) = false ∧ (s.stage l.val ≠
      Stage.train ∨ s.trainedRate l.val = none)) ∧
    (∃ (s : State) (l : Lane) (group : List Byte), Runs s ∧ s.sys.seqDown.contains (bankOfLane l.val) = false ∧
      s.stage l.val = Stage.lock ∧ (s.get (O.RATE_ACTIVE l.val) = 5 → groupOk group = true)) ∧
    (∃ (s : State) (l : Lane) (group : List Byte), Runs s ∧ s.sys.seqDown.contains (bankOfLane l.val) = false ∧
      (s.stage l.val ≠ Stage.lock ∨ s.get (O.RATE_ACTIVE l.val) = 5 ∧ groupOk group = false)) ∧
    (∃ (s : State) (l : Lane) (skew : BitVec 32), Runs s ∧ s.sys.seqDown.contains (bankOfLane l.val) = false ∧
      (s.stage l.val = Stage.lock ∧ (s.lanesWith l.val).all s.laneLocked = true ∧ spread (s.skewsWith l.val
      skew.toNat) ≤ skewLimit)) ∧
    (∃ (s : State) (l : Lane) (skew : BitVec 32), Runs s ∧ s.sys.seqDown.contains (bankOfLane l.val) = false ∧
      (¬(s.stage l.val = Stage.lock ∧ (s.lanesWith l.val).all s.laneLocked = true ∧ spread (s.skewsWith l.val
      skew.toNat) ≤ skewLimit))) ∧
    (∃ (s : State) (l : Lane) (caps : BitVec 128), Runs s ∧ s.sys.seqDown.contains (bankOfLane l.val) = false ∧
      s.stage l.val = Stage.exchange ∧ s.capsMatch l.val caps.toNat = true) ∧
    (∃ (s : State) (l : Lane) (caps : BitVec 128), Runs s ∧ s.sys.seqDown.contains (bankOfLane l.val) = false ∧
      s.stage l.val = Stage.exchange ∧ s.capsMatch l.val caps.toNat = false) ∧
    (∃ (s : State) (l : Lane), Runs s ∧ s.sys.seqDown.contains (bankOfLane l.val) = false ∧ s.stage l.val ≠
      Stage.exchange) :=
  ⟨⟨having (O.REF_HEALTHY 31) 1 (having (O.BANK_STATE 7) 1 (lane 1)), 511, by decide +kernel⟩,
    ⟨lane 1, 511, by decide +kernel⟩,
    ⟨lane 0, 511, by decide +kernel⟩,
    ⟨having (O.LANE_MODE 511) 5 (lane 2), 511, trainFrame, by decide +kernel⟩,
    ⟨lane 2, 511, 1, by decide +kernel⟩,
    ⟨g4up, 511, by decide +kernel⟩,
    ⟨lane 2, 511, by decide +kernel⟩,
    ⟨train5, 511, 4, by decide +kernel⟩,
    ⟨pairUp 5 3, 511, 4, 510, by decide +kernel⟩,
    ⟨g4up, 511, by decide +kernel⟩,
    ⟨having (O.RATE_ACTIVE 511) 5 (lane 3), 511, group0, by decide +kernel⟩,
    ⟨having (O.RATE_ACTIVE 511) 5 (lane 3), 511, [], by decide +kernel⟩,
    ⟨(lane 3).modLane 511 (fun x => { x with locked := true }), 511, 180000, by decide +kernel⟩,
    ⟨lane 3, 511, 180001, by decide +kernel⟩,
    ⟨lane 4, 511, capsOk, by decide +kernel⟩,
    ⟨lane 4, 511, 0, by decide +kernel⟩,
    ⟨lane 3, 511, by decide +kernel⟩⟩

theorem witness_LanesFallBack :
    (∃ (s : State) (l : Lane) (p : Sys2Proof.Path) (c : Instr), Runs s ∧ s.sys.seqDown.contains (bankOfLane l.val) =
      true ∧ c ∈ [Instr.losAssert l, Instr.trainTimeout l, Instr.lockTimeout l, Instr.exchangeTimeout l,
      Instr.lockLoss l, Instr.partnerTrainingDetect l, Instr.retrain p l, Instr.losDeassert l, Instr.trainComplete l,
      Instr.exchangeBlockReceive l 0]) ∧
    (∃ (s : State) (l : Lane), Runs s ∧ s.sys.seqDown.contains (bankOfLane l.val) = false ∧ s.stage l.val ≠ Stage.off
      ∧ (s.lane l.val).los = false) ∧
    (∃ (s : State) (l : Lane), Runs s ∧ s.sys.seqDown.contains (bankOfLane l.val) = false ∧ (s.stage l.val = Stage.off
      ∨ (s.lane l.val).los = true)) ∧
    (∃ (s : State) (l : Lane), Runs s ∧ s.sys.seqDown.contains (bankOfLane l.val) = false ∧ s.stage l.val =
      Stage.train) ∧
    (∃ (s : State) (l : Lane), Runs s ∧ s.sys.seqDown.contains (bankOfLane l.val) = false ∧ s.stage l.val =
      Stage.lock) ∧
    (∃ (s : State) (l : Lane), Runs s ∧ s.sys.seqDown.contains (bankOfLane l.val) = false ∧ s.stage l.val =
      Stage.exchange) ∧
    (∃ (s : State) (l : Lane), Runs s ∧ s.sys.seqDown.contains (bankOfLane l.val) = false ∧ s.stage l.val =
      Stage.active) ∧
    (∃ (s : State) (l : Lane) (q : Port) (ks : List (BitVec 32)), Runs s ∧ s.sys.seqDown.contains (bankOfLane l.val) =
      false ∧ ks.length = s.portWidth q.val ∧ (skewLimit < spread (List.map (fun x => x.toNat) ks)) ∧ (s.portLanes
      q.val).all s.laneLocked = true ∧ (((s.portLanes q.val).any fun x => s.stage x == Stage.lock) = true)) ∧
    (∃ (s : State) (l : Lane) (p : Sys2Proof.Path), Runs s ∧ s.sys.seqDown.contains (bankOfLane l.val) = false ∧ Takes
      s p (O.RETRAIN l.val) ∧ Stage.train ≤ s.stage l.val) ∧
    (∃ (s : State) (l : Lane) (p : Sys2Proof.Path), Runs s ∧ s.sys.seqDown.contains (bankOfLane l.val) = false ∧ Takes
      s p (O.RETRAIN l.val) ∧ s.stage l.val ≤ Stage.detect) :=
  ⟨⟨bankDown (lane 5), 511, .window 0, .losAssert 511, by decide +kernel⟩,
    ⟨(lane 5).modLane 511 (fun x => { x with los := false }), 511, by decide +kernel⟩,
    ⟨lane 0, 511, by decide +kernel⟩,
    ⟨lane 2, 511, by decide +kernel⟩,
    ⟨lane 3, 511, by decide +kernel⟩,
    ⟨lane 4, 511, by decide +kernel⟩,
    ⟨lane 5, 511, by decide +kernel⟩,
    ⟨(staged_ 510 3 (staged_ 511 5 (portAt 510 2))).modLane 510 (fun x => { x with locked := true }), 511, 510, [0,
      180001], by decide +kernel⟩,
    ⟨lane 2, 511, .window 0, by decide +kernel⟩,
    ⟨lane 1, 511, .window 0, by decide +kernel⟩⟩

theorem witness_LaneMonitors :
    (∃ (s : State) (l : Lane) (us : BitVec 32) (windows : List (Bool × Fin 17)), Runs s ∧ (s.stage l.val =
      Stage.active ∧ s.flag (O.FREEZE_ENABLE l.val) = true ∧ s.flag (O.FROZEN l.val) = false ∧ s.get
      (O.FREEZE_AFTER_US l.val) ≤ us.toNat ∧ windows ≠ [] ∧ ∀ w ∈ windows, (fun w => w.1 = true ∨ w.2.val < s.get
      (O.VARIETY_MIN l.val)) w)) ∧
    (∃ (s : State) (l : Lane) (us : BitVec 32) (windows : List (Bool × Fin 17)), Runs s ∧ (¬(s.stage l.val =
      Stage.active ∧ s.flag (O.FREEZE_ENABLE l.val) = true ∧ s.flag (O.FROZEN l.val) = false ∧ s.get
      (O.FREEZE_AFTER_US l.val) ≤ us.toNat ∧ windows ≠ [] ∧ ∀ w ∈ windows, (fun w => w.1 = true ∨ w.2.val < s.get
      (O.VARIETY_MIN l.val)) w))) ∧
    (∃ (s : State) (l : Lane) (us : BitVec 32) (windows : List (Bool × Fin 17)), Runs s ∧ (s.get (O.THAW_AFTER_US
      l.val) ≤ us.toNat ∧ windows ≠ [] ∧ ∀ w ∈ windows, ¬(fun w => w.1 = true ∨ w.2.val < s.get (O.VARIETY_MIN l.val))
      w)) ∧
    (∃ (s : State) (l : Lane) (us : BitVec 32) (windows : List (Bool × Fin 17)), Runs s ∧ (¬(s.get (O.THAW_AFTER_US
      l.val) ≤ us.toNat ∧ windows ≠ [] ∧ ∀ w ∈ windows, ¬(fun w => w.1 = true ∨ w.2.val < s.get (O.VARIETY_MIN l.val))
      w))) ∧
    (∃ (s : State) (l : Lane) (p : Sys2Proof.Path) (sel : Byte), Runs s ∧ Takes s p (O.EYE_SCAN l.val) ∧ s.stage l.val
      = Stage.active ∧ BitVec.toNat sel ≤ 3 ∧ (s.get (O.LANE_MODE l.val) = 1 → sel = 0)) ∧
    (∃ (s : State) (l : Lane) (p : Sys2Proof.Path) (sel : Byte), Runs s ∧ Takes s p (O.EYE_SCAN l.val) ∧ (3 <
      BitVec.toNat sel ∨ s.get (O.LANE_MODE l.val) = 1 ∧ sel ≠ 0)) ∧
    (∃ (s : State) (l : Lane) (p : Sys2Proof.Path) (sel : Byte), Runs s ∧ Takes s p (O.EYE_SCAN l.val) ∧ s.stage l.val
      ≠ Stage.active ∧ BitVec.toNat sel ≤ 3 ∧ (s.get (O.LANE_MODE l.val) = 1 → sel = 0)) ∧
    (∃ (s : State) (l : Lane) (d : List Byte), Runs s ∧ s.cmdRunning (O.EYE_SCAN l.val) = true ∧ d.length = 18 ∧
      (s.lane l.val).eyeSel = 3) ∧
    (∃ (s : State) (l : Lane) (d : List Byte), Runs s ∧ s.cmdRunning (O.EYE_SCAN l.val) = true ∧ d.length = 18 ∧
      (s.lane l.val).eyeSel < 3) ∧
    (∃ (s : State) (l : Lane) (p : Sys2Proof.Path) (d : List Byte), Runs s ∧ Ready s p ∧ s.leasedAway p 2 = false ∧
      s.dict.busyTabs.contains (O.FFE_LOAD l.val) = false ∧ s.flag (O.ADAPT_ENABLE l.val) = false ∧ d.length = 72 ∧
      s.get (O.FFE_BOUND l.val) < 2 ^ 15) ∧
    (∃ (s : State) (l : Lane) (p : Sys2Proof.Path) (d : List Byte), Runs s ∧ Ready s p ∧ s.leasedAway p 2 = false ∧
      s.dict.busyTabs.contains (O.FFE_LOAD l.val) = false ∧ s.flag (O.ADAPT_ENABLE l.val) = false ∧ d.length ≤ 72) ∧
    (∃ (s : State) (p : Sys2Proof.Path) (d : List Byte), Runs s ∧ Ready s p ∧ s.leasedAway p 2 = false ∧ 72 <
      d.length) ∧
    (∃ (s : State) (l : Lane) (p : Sys2Proof.Path) (d : List Byte), Runs s ∧ Ready s p ∧ s.leasedAway p 2 = false ∧
      s.dict.busyTabs.contains (O.FFE_LOAD l.val) = false ∧ d.length ≤ 72 ∧ s.flag (O.ADAPT_ENABLE l.val) = true) ∧
    (∃ (s : State) (l : Lane) (p : Sys2Proof.Path), Runs s ∧ Ready s p ∧ s.leasedAway p 2 = false ∧
      s.dict.busyTabs.contains (O.AUTO_RETRAIN (l.val / 64)) = false) ∧
    (∃ (s : State) (l : Lane), Runs s ∧ s.stage l.val < Stage.train) ∧
    (∃ (s : State) (l : Lane), Runs s ∧ Stage.train ≤ s.stage l.val ∧ s.stage l.val ≠ Stage.active) ∧
    (∃ (s : State) (l : Lane), Runs s ∧ s.stage l.val = Stage.active ∧ (s.flag (O.AUTO_RETRAIN (l.val / 64)) = false ∨
      s.fwUp = false)) ∧
    (∃ (s : State) (l : Lane) (snr : BitVec 16), Runs s ∧ s.stage l.val = Stage.active ∧ s.flag (O.AUTO_RETRAIN (l.val
      / 64)) = true ∧ s.fwUp = true ∧ (s.get (O.RATE_ACTIVE l.val) = 4 ∨ s.get (O.RATE_ACTIVE l.val) = 5) ∧ readyLevel
      (s.get (O.RATE_ACTIVE l.val)) ≤ snr.toNat + 256) ∧
    (∃ (s : State) (l : Lane) (snr : BitVec 16), Runs s ∧ s.stage l.val = Stage.active ∧ s.flag (O.AUTO_RETRAIN (l.val
      / 64)) = true ∧ s.fwUp = true ∧ (s.get (O.RATE_ACTIVE l.val) = 4 ∨ s.get (O.RATE_ACTIVE l.val) = 5) ∧ snr.toNat
      + 256 < readyLevel (s.get (O.RATE_ACTIVE l.val)) ∧ (s.lane l.val).degraded < 9) ∧
    (∃ (s : State) (l : Lane) (snr : BitVec 16), Runs s ∧ s.stage l.val = Stage.active ∧ s.flag (O.AUTO_RETRAIN (l.val
      / 64)) = true ∧ s.fwUp = true ∧ (s.get (O.RATE_ACTIVE l.val) = 4 ∨ s.get (O.RATE_ACTIVE l.val) = 5) ∧ snr.toNat
      + 256 < readyLevel (s.get (O.RATE_ACTIVE l.val)) ∧ 9 ≤ (s.lane l.val).degraded ∧ s.sys.seqDown.contains
      (bankOfLane l.val) = false) :=
  ⟨⟨lane 5, 511, 0xFFFFFFFF, dull, by decide +kernel⟩,
    ⟨lane 5, 511, 0, [], by decide +kernel⟩,
    ⟨having (O.FROZEN 511) 1 (lane 5), 511, 0xFFFFFFFF, busy, by decide +kernel⟩,
    ⟨lane 5, 511, 0xFFFFFFFF, dull, by decide +kernel⟩,
    ⟨lane 5, 511, .window 0, 3, by decide +kernel⟩,
    ⟨lane 5, 511, .window 0, 4, by decide +kernel⟩,
    ⟨lane 4, 511, .window 0, 1, by decide +kernel⟩,
    ⟨((lane 5).cmdRun (O.EYE_SCAN 511)).modLane 511 (fun x => { x with eyeSel := 3 }), 511, List.replicate 18 7,
      by decide +kernel⟩,
    ⟨((lane 5).cmdRun (O.EYE_SCAN 511)).modLane 511 (fun x => { x with eyeSel := 2 }), 511, List.replicate 18 7,
      by decide +kernel⟩,
    ⟨having (O.ADAPT_ENABLE 511) 0 (lane 5), 511, .window 0, List.replicate 72 7, by decide +kernel⟩,
    ⟨having (O.ADAPT_ENABLE 511) 0 (lane 5), 511, .window 0, [1, 2, 3], by decide +kernel⟩,
    ⟨lane 5, .window 0, List.replicate 73 7, by decide +kernel⟩,
    ⟨lane 5, 511, .window 0, List.replicate 72 7, by decide +kernel⟩,
    ⟨lane 5, 511, .window 0, by decide +kernel⟩,
    ⟨lane 1, 511, by decide +kernel⟩,
    ⟨lane 3, 511, by decide +kernel⟩,
    ⟨lane 5, 511, by decide +kernel⟩,
    ⟨having (O.RATE_ACTIVE 511) 5 (having (O.AUTO_RETRAIN 7) 1 { lane 5 with sys := fwUp.sys }), 511, 6000,
      by decide +kernel⟩,
    ⟨having (O.RATE_ACTIVE 511) 4 (having (O.AUTO_RETRAIN 7) 1 { lane 5 with sys := fwUp.sys }), 511, 4095,
      by decide +kernel⟩,
    ⟨(having (O.RATE_ACTIVE 511) 4 (having (O.AUTO_RETRAIN 7) 1 { lane 5 with sys := fwUp.sys })).modLane 511 (fun x
      => { x with degraded := 9 }), 511, 4095, by decide +kernel⟩⟩

theorem witness_PortsComeUpAndLeaveUp :
    (∃ (s : State) (p : Port), Runs s ∧ s.mayComeUp p.val = true) ∧
    (∃ (s : State) (p : Port), Runs s ∧ s.mayComeUp p.val = false) ∧
    (∃ (s : State) (p : Port) (cause : DownCause) (d : State) (e : State), Runs s ∧ (d = if (s.port p.val).up = true
      then (((leftUp (fresh s) p.val (downCode cause)).loseTx p.val (s.port p.val).tail true).loseTx p.val (s.port
      p.val).txPre false).loseTx p.val (s.port p.val).txExp false else fresh s) ∧ (e = if (s.port p.val).up = true
      then (if d.flag (O.FLUSH_ON_DOWN p.val) = true then d.flushQueues p.val else d).postcardsDue else d) ∧ (cause =
      DownCause.laneLeft ∨ cause = DownCause.alignment)) ∧
    (∃ (s : State) (p : Port) (cause : DownCause) (d : State) (e : State), Runs s ∧ (d = if (s.port p.val).up = true
      then (((leftUp (fresh s) p.val (downCode cause)).loseTx p.val (s.port p.val).tail true).loseTx p.val (s.port
      p.val).txPre false).loseTx p.val (s.port p.val).txExp false else fresh s) ∧ (e = if (s.port p.val).up = true
      then (if d.flag (O.FLUSH_ON_DOWN p.val) = true then d.flushQueues p.val else d).postcardsDue else d) ∧ (cause =
      DownCause.localFault ∨ cause = DownCause.remoteFault)) ∧
    (∃ (s : State) (p : Port) (cause : DownCause) (t : Tx), Runs s ∧ (s.port p.val).up = true ∧ (s.port p.val).tail =
      none ∧ (s.port p.val).txPre = none ∧ (s.port p.val).txExp = some t ∧ t.frags = 0 ∧ cause = DownCause.laneLeft ∧
      (((leftUp (fresh s) p.val 1).count64 (O.MAC_COUNTS p.val 11)).releaseAt t.fid t.tok 146 0).flag (O.FLUSH_ON_DOWN
      p.val) = false) ∧
    (∃ (s : State) (p : Port) (cause : DownCause), Runs s ∧ (s.port p.val).up = false ∧ (cause = DownCause.laneLeft ∨
      cause = DownCause.alignment)) ∧
    (∃ (s : State) (p : Port), Runs s ∧ (s.port p.val).up = false ∧ s.isPort p.val = true ∧ (∀ l ∈ s.portLanes p.val,
      s.stage l = Stage.active)) ∧
    (∃ (s : State) (p : Port), Runs s ∧ (s.port p.val).holding = true) ∧
    (∃ (s : State) (p : Port), Runs s ∧ (s.port p.val).holding = false) :=
  ⟨⟨(staged_ 511 5 (portAt 511 1)).set (O.ADMIN_UP 511) 1, 511, by decide +kernel⟩,
    ⟨portAt 511 1, 511, by decide +kernel⟩,
    ⟨(sending (fun x => { x with txExp := some (tx 0) })).set (O.FLUSH_ON_DOWN 511) 0, 511, .laneLeft, leftD ((sending
      (fun x => { x with txExp := some (tx 0) })).set (O.FLUSH_ON_DOWN 511) 0) .laneLeft, (leftD ((sending (fun x =>
      { x with txExp := some (tx 0) })).set (O.FLUSH_ON_DOWN 511) 0) .laneLeft).postcardsDue, by decide +kernel⟩,
    ⟨live511.set (O.FLUSH_ON_DOWN 511) 1, 511, .remoteFault, leftD (live511.set (O.FLUSH_ON_DOWN 511) 1) .remoteFault,
      ((leftD (live511.set (O.FLUSH_ON_DOWN 511) 1) .remoteFault).flushQueues 511).postcardsDue, by decide +kernel⟩,
    ⟨(sending (fun x => { x with txExp := some (tx 0) })).set (O.FLUSH_ON_DOWN 511) 0, 511, .laneLeft, tx 0,
      by decide +kernel⟩,
    ⟨up, 511, .alignment, by decide +kernel⟩,
    ⟨staged_ 511 5 (portAt 511 1), 511, by decide +kernel⟩,
    ⟨up.modPort 511 (fun x => { x with holding := true }), 511, by decide +kernel⟩,
    ⟨up, 511, by decide +kernel⟩⟩

theorem witness_PauseAndPriorityFlowControl :
    (∃ (s : State) (p : Port) (bytes : List Byte) (t : State) (q : Pkt) (w : State), Runs s ∧ (t = ((fresh
      s).openFrame p.val false bytes).modPort p.val fun x =>
      { up := x.up, holding := x.holding, fault := x.fault, attempts := x.attempts, paused := x.paused, ignored := x.ignored, xoff := x.xoff, split := x.split, clean := x.clean, bucket := x.bucket, bucketAt := x.bucketAt, rxWhole := none, rxPre := x.rxPre, rxCount := x.rxCount, txExp := x.txExp, txPre := x.txPre, tail := x.tail, tailHeld := x.tailHeld, slots := x.slots })
      ∧ s.macOpen p.val = true ∧ (s.port p.val).rxWhole = none ∧ t.pkt? s.buf.nextFid = some q ∧ q.bytes = bytes ∧
      q.src = Src.port p.val ∧ q.enq = false ∧ q.policed = none ∧ q.phase ≠ Phase.returning ∧ isMacControl bytes =
      true ∧ t.frameCode q false false = 10 ∧ w = (t.linkWritten q.cells.getLast?).putPkt
      { fid := q.fid, src := q.src, tile := q.tile, pre := q.pre, bytes := q.bytes, ended := true, bad := q.bad, filtered := q.filtered, cells := q.cells, phase := q.phase, pale := q.pale, mono := q.mono, dflt := q.dflt, applied := q.applied, dcIn := q.dcIn, tsIn := q.tsIn, stamps := q.stamps, member := q.member, toHost := q.toHost, ctx := q.ctx, seenF := q.seenF, act := q.act, policed := q.policed, enq := q.enq, handle := q.handle, gen := q.gen, issued := q.issued, holders := q.holders, ext := q.ext, extNo := q.extNo, fcsBad := q.fcsBad, pools := q.pools, cls := q.cls, hroom := q.hroom, charge := q.charge, exact := q.exact, judged := q.judged, poison := q.poison, lost := q.lost, started := q.started, notFwd := q.notFwd, fwd := q.fwd, lastPort := q.lastPort, timeW := q.timeW, timeV := q.timeV, launch := q.launch, spoilt := q.spoilt, cutThru := q.cutThru, inserted := q.inserted, mirrored := q.mirrored, occAll := q.occAll }
      ∧ (s.port p.val).up = true ∧ t.get (O.FLOW_CTRL p.val) = 1 ∧ beAt bytes 14 2 = 1) ∧
    (∃ (s : State) (p : Port) (prio : Fin 8) (k : ℕ), Runs s ∧ (k = if s.get (O.FLOW_CTRL p.val) = 1 then 8 else
      prio.val)) ∧
    (∃ (s : State) (p : Port) (high : Bool) (c : ℕ), Runs s ∧ (c = if high = true then 2 else 1) ∧ (s.port p.val).up =
      true ∧ s.get (O.FLOW_CTRL p.val) = 2 ∧ c ≤ popcount (s.get (O.PFC_PRIORITIES p.val)) 8 ∧ (s.port
      p.val).xoff.contains c = true) ∧
    (∃ (s : State) (p : Port) (high : Bool) (c : ℕ), Runs s ∧ (c = if high = true then 2 else 1) ∧ (s.port p.val).up =
      true ∧ s.get (O.FLOW_CTRL p.val) = 1 ∧ c = 1 ∧ (s.port p.val).xoff.contains c = true) ∧
    (∃ (s : State) (p : Port) (high : Bool) (c : ℕ), Runs s ∧ (c = if high = true then 2 else 1) ∧ ((s.port p.val).up
      = false ∨ s.classLive p.val c = false ∨ (s.port p.val).xoff.contains c = false)) ∧
    (∃ (s : State) (p : Port) (prio : Fin 8), Runs s ∧ s.get (O.WATCHDOG_MS p.val) ≠ 0 ∧ s.get (O.FLOW_CTRL p.val) = 2
      ∧ (((s.port p.val).paused.any fun x => x.1 == prio.val) = true)) ∧
    (∃ (s : State) (p : Port), Runs s ∧ s.get (O.WATCHDOG_MS p.val) = 0) :=
  ⟨⟨live511.set (O.FLOW_CTRL 511) 1, 511, pauseF, pauseT, pauseQ, (pauseT.linkWritten pauseQ.cells.getLast?).putPkt
      { pauseQ with ended := true }, by decide +kernel⟩,
    ⟨pfc, 511, 4, 4, by decide +kernel⟩,
    ⟨pfc.modPort 511 (fun x => { x with xoff := [2] }), 511, true, 2, by decide +kernel⟩,
    ⟨(pfc.set (O.FLOW_CTRL 511) 1).modPort 511 (fun x => { x with xoff := [1] }), 511, false, 1, by decide +kernel⟩,
    ⟨pfc, 511, false, 1, by decide +kernel⟩,
    ⟨(pfc.set (O.WATCHDOG_MS 511) 5).modPort 511 (fun x => { x with paused := [(7, 1)] }), 511, 7, by decide +kernel⟩,
    ⟨pfc.set (O.WATCHDOG_MS 511) 0, 511, by decide +kernel⟩⟩

theorem witness_FecStatisticsAndPreemptVerification :
    (∃ (s : State) (p : Port) (bins : List (BitVec 32)), Runs s ∧ s.isPort p.val = true ∧ s.get (O.FEC_ACTIVE p.val) ≠
      0 ∧ bins.length = 16) ∧
    (∃ (s : State) (p : Port), Runs s ∧ (s.isPort p.val = false ∨ s.get (O.FEC_ACTIVE p.val) = 0)) ∧
    (∃ (s : State) (p : Port), Runs s ∧ (s.port p.val).up = false) ∧
    (∃ (s : State) (p : Port), Runs s ∧ (s.port p.val).up = true ∧ s.get (O.VERIFY_STATUS p.val) = 2 ∧ (s.port
      p.val).attempts < 3) ∧
    (∃ (s : State) (p : Port), Runs s ∧ (s.port p.val).up = true ∧ s.get (O.VERIFY_STATUS p.val) = 2 ∧ 3 ≤ (s.port
      p.val).attempts) :=
  ⟨⟨live511.set (O.FEC_ACTIVE 511) 2, 511, List.replicate 16 5, by decide +kernel⟩,
    ⟨up, 511, by decide +kernel⟩,
    ⟨up, 511, by decide +kernel⟩,
    ⟨(live511.set (O.VERIFY_STATUS 511) 2).modPort 511 (fun x => { x with attempts := 2 }), 511, by decide +kernel⟩,
    ⟨(live511.set (O.VERIFY_STATUS 511) 2).modPort 511 (fun x => { x with attempts := 3 }), 511, by decide +kernel⟩⟩

theorem witness_FramesArriveAtAPort :
    (∃ (s : State) (p : Port), Runs s ∧ s.macOpen p.val = true ∧ (s.port p.val).rxWhole = none) ∧
    (∃ (s : State) (p : Port), Runs s ∧ s.macOpen p.val = true ∧ (s.port p.val).rxWhole.isSome = true) ∧
    (∃ (s : State) (p : Port), Runs s ∧ s.macOpen p.val = false) ∧
    (∃ (s : State) (p : Port), Runs s ∧ s.macOpen p.val = true ∧ (s.port p.val).rxPre.isSome = true) ∧
    (∃ (s : State) (p : Port), Runs s ∧ s.macOpen p.val = true ∧ (s.port p.val).rxPre = none) ∧
    (∃ (s : State) (p : Port) (k : Fin 4) (f : ℕ), Runs s ∧ s.macOpen p.val = true ∧ (s.port p.val).rxPre = some f ∧
      (s.port p.val).rxCount % 4 ≠ k.val) ∧
    (∃ (s : State) (p : Port) (k : Fin 4) (f : ℕ), Runs s ∧ s.macOpen p.val = true ∧ (s.port p.val).rxPre = some f ∧
      (s.port p.val).rxCount % 4 = k.val) ∧
    (∃ (s : State) (p : Port) (pre : Bool), Runs s ∧ ((if pre = true then (s.port p.val).rxPre else (s.port
      p.val).rxWhole) = none)) ∧
    (∃ (s : State) (p : Port) (bytes : List Byte) (err : Bool) (pre : Bool) (f : ℕ) (t : State) (q : Pkt) (c : ℕ) (u :
      State), Runs s ∧ ((if pre = true then (s.port p.val).rxPre else (s.port p.val).rxWhole) = some f) ∧ (t =
      ((fresh s).putPort p.val         (if pre = true then { s.port p.val with rxPre := none, rxCount := 0 }
      else { s.port p.val with rxWhole := none })).moreBytes     p.val (some f) bytes) ∧ t.pkt? f = some q ∧ q.enq =
      false ∧ q.policed = none ∧ q.phase ≠ Phase.returning ∧ q.filtered = true ∧ c = t.frameCode q pre err ∧ c ≠ 10 ∧
      (u = if c = 0 then (t.linkWritten q.cells.getLast?).putPkt
      { fid := q.fid, src := q.src, tile := q.tile, pre := q.pre, bytes := q.bytes, ended := true, bad := q.bad, filtered := q.filtered, cells := q.cells, phase := q.phase, pale := q.pale, mono := q.mono, dflt := q.dflt, applied := q.applied, dcIn := q.dcIn, tsIn := q.tsIn, stamps := q.stamps, member := q.member, toHost := q.toHost, ctx := q.ctx, seenF := q.seenF, act := q.act, policed := q.policed, enq := q.enq, handle := q.handle, gen := q.gen, issued := q.issued, holders := q.holders, ext := q.ext, extNo := q.extNo, fcsBad := q.fcsBad, pools := q.pools, cls := q.cls, hroom := q.hroom, charge := q.charge, exact := q.exact, judged := q.judged, poison := q.poison, lost := q.lost, started := q.started, notFwd := q.notFwd, fwd := q.fwd, lastPort := q.lastPort, timeW := q.timeW, timeV := q.timeV, launch := q.launch, spoilt := q.spoilt, cutThru := q.cutThru, inserted := q.inserted, mirrored := q.mirrored, occAll := q.occAll }
      else ((t.linkWritten q.cells.getLast?).putPkt
      { fid := q.fid, src := q.src, tile := q.tile, pre := q.pre, bytes := q.bytes, ended := true, bad := q.bad, filtered := q.filtered, cells := q.cells, phase := q.phase, pale := q.pale, mono := q.mono, dflt := q.dflt, applied := q.applied, dcIn := q.dcIn, tsIn := q.tsIn, stamps := q.stamps, member := q.member, toHost := q.toHost, ctx := q.ctx, seenF := q.seenF, act := q.act, policed := q.policed, enq := q.enq, handle := q.handle, gen := q.gen, issued := q.issued, holders := q.holders, ext := q.ext, extNo := q.extNo, fcsBad := q.fcsBad, pools := q.pools, cls := q.cls, hroom := q.hroom, charge := q.charge, exact := q.exact, judged := q.judged, poison := q.poison, lost := q.lost, started := q.started, notFwd := q.notFwd, fwd := q.fwd, lastPort := q.lastPort, timeW := q.timeW, timeV := q.timeV, launch := q.launch, spoilt := q.spoilt, cutThru := q.cutThru, inserted := q.inserted, mirrored := q.mirrored, occAll := q.occAll }).discardArrival
      { fid := q.fid, src := q.src, tile := q.tile, pre := q.pre, bytes := q.bytes, ended := true, bad := q.bad, filtered := q.filtered, cells := q.cells, phase := q.phase, pale := q.pale, mono := q.mono, dflt := q.dflt, applied := q.applied, dcIn := q.dcIn, tsIn := q.tsIn, stamps := q.stamps, member := q.member, toHost := q.toHost, ctx := q.ctx, seenF := q.seenF, act := q.act, policed := q.policed, enq := q.enq, handle := q.handle, gen := q.gen, issued := q.issued, holders := q.holders, ext := q.ext, extNo := q.extNo, fcsBad := c == 5 || c == 13, pools := q.pools, cls := q.cls, hroom := q.hroom, charge := q.charge, exact := q.exact, judged := q.judged, poison := q.poison, lost := q.lost, started := q.started, notFwd := q.notFwd, fwd := q.fwd, lastPort := q.lastPort, timeW := q.timeW, timeV := q.timeV, launch := q.launch, spoilt := q.spoilt, cutThru := q.cutThru, inserted := q.inserted, mirrored := q.mirrored, occAll := q.occAll }
      c)) :=
  ⟨⟨live511, 511, by decide +kernel⟩,
    ⟨arriving, 511, by decide +kernel⟩,
    ⟨up, 511, by decide +kernel⟩,
    ⟨arriving, 511, by decide +kernel⟩,
    ⟨live511, 511, by decide +kernel⟩,
    ⟨arriving, 511, 2, 9, by decide +kernel⟩,
    ⟨arriving, 511, 1, 9, by decide +kernel⟩,
    ⟨live511, 511, true, by decide +kernel⟩,
    ⟨arriving, 511, List.replicate 100 7, true, false, 9, endT, endQ, endT.frameCode endQ false true, (endT.putPkt
      { endQ with ended := true }).discardArrival { endQ with ended := true, fcsBad := false } (endT.frameCode endQ
      false true), by decide +kernel⟩⟩

theorem witness_FramesLeaveAPort :
    (∃ (s : State) (p : Port) (w : List ℕ × State) (v : State) (g : ℕ) (q : Pkt) (h : Holder), Runs s ∧ (s.port
      p.val).up = true ∧ (s.port p.val).txExp = none ∧ w = (fresh s).sweepHeads p.val ((fresh s).members p.val) ∧ (v =
      w.2.each (List.filter (fun g => !(List.filter (w.2.headGuard p.val) (List.filter (w.2.mayGo p.val false)
      w.1)).contains g) (List.filter (w.2.mayGo p.val false) w.1)) fun s g => s.count64 (O.SCHED_COUNTS g 6)) ∧
      v.choose (List.filter (w.2.headGuard p.val) (List.filter (w.2.mayGo p.val false) w.1)) = some g ∧ v.head g =
      some (q, h) ∧ (v.useDesc q).1 = true) ∧
    (∃ (s : State) (p : Port) (w : List ℕ × State) (v : State) (g : ℕ) (q : Pkt) (h : Holder) (r : Bool × State), Runs
      s ∧ (s.port p.val).up = true ∧ (s.port p.val).txExp = none ∧ w = (fresh s).sweepHeads p.val ((fresh s).members
      p.val) ∧ (v = w.2.each (List.filter (fun g => !(List.filter (w.2.headGuard p.val) (List.filter (w.2.mayGo p.val
      false) w.1)).contains g) (List.filter (w.2.mayGo p.val false) w.1)) fun s g => s.count64 (O.SCHED_COUNTS g 6)) ∧
      v.choose (List.filter (w.2.headGuard p.val) (List.filter (w.2.mayGo p.val false) w.1)) = some g ∧ v.head g =
      some (q, h) ∧ r = (v.useDesc q).2.readCells p.val (List.take 1 q.cells) ∧ (v.useDesc q).1 = false ∧ q.poison =
      false ∧ r.1 = false ∧ q.ended = true ∧ (v.useDesc q).2.getP q.applied (O.MAX_FRAME p.val) < (v.useDesc
      q).2.frameLen q h) ∧
    (∃ (s : State) (p : Port) (w : List ℕ × State) (v : State) (g : ℕ) (q : Pkt) (h : Holder) (r : Bool × State), Runs
      s ∧ (s.port p.val).up = true ∧ (s.port p.val).txExp = none ∧ w = (fresh s).sweepHeads p.val ((fresh s).members
      p.val) ∧ (v = w.2.each (List.filter (fun g => !(List.filter (w.2.headGuard p.val) (List.filter (w.2.mayGo p.val
      false) w.1)).contains g) (List.filter (w.2.mayGo p.val false) w.1)) fun s g => s.count64 (O.SCHED_COUNTS g 6)) ∧
      v.choose (List.filter (w.2.headGuard p.val) (List.filter (w.2.mayGo p.val false) w.1)) = some g ∧ v.head g =
      some (q, h) ∧ r = (v.useDesc q).2.readCells p.val (List.take 1 q.cells) ∧ (v.useDesc q).1 = false ∧ q.poison =
      false ∧ r.1 = false ∧ (q.ended = true → (v.useDesc q).2.frameLen q h ≤ (v.useDesc q).2.getP q.applied
      (O.MAX_FRAME p.val))) ∧
    (∃ (s : State) (p : Port), Runs s ∧ (s.port p.val).up = false ∧ (∀ e ∈ s.tiles, e.2.postRecs.length < 24)) ∧
    (∃ (s : State) (p : Port) (n : Fin 16384) (t : Tx) (r : Option ℕ × State) (k : ℕ), Runs s ∧ (s.port p.val).txPre =
      some t ∧ s.flag (O.PREEMPT_ACTIVE p.val) = true ∧ t.waits = false ∧ s.legalCut p.val t n.val = true ∧ ((s.port
      p.val).txExp.isSome = true ∨ (s.gate p.val).held = true) ∧ r = (fresh s).fragmentCells p.val t n.val ∧ r.1 =
      some k) ∧
    (∃ (s : State) (p : Port) (n : Fin 16384) (t : Tx) (r : Option ℕ × State), Runs s ∧ (s.port p.val).txPre = some t
      ∧ s.flag (O.PREEMPT_ACTIVE p.val) = true ∧ t.waits = false ∧ s.legalCut p.val t n.val = true ∧ ((s.port
      p.val).txExp.isSome = true ∨ (s.gate p.val).held = true) ∧ r = (fresh s).fragmentCells p.val t n.val ∧ r.1 =
      none) ∧
    (∃ (s : State) (p : Port) (n : Fin 16384) (t : Tx) (r : Option ℕ × State), Runs s ∧ (s.port p.val).txPre = some t
      ∧ s.flag (O.PREEMPT_ACTIVE p.val) = true ∧ t.waits = false ∧ s.legalCut p.val t n.val = true ∧ ((s.port
      p.val).txExp.isSome = true ∨ (s.gate p.val).held = true) ∧ r = (fresh s).fragmentCells p.val t n.val ∧ r =
      (none, fresh s) ∧ (s.port p.val).txExp = none) ∧
    (∃ (s : State) (p : Port) (n : Fin 16384) (t : Tx) (r : Option ℕ × State) (q : Pkt), Runs s ∧ (s.port p.val).txPre
      = some t ∧ s.flag (O.PREEMPT_ACTIVE p.val) = true ∧ t.waits = false ∧ s.legalCut p.val t n.val = true ∧ ((s.port
      p.val).txExp.isSome = true ∨ (s.gate p.val).held = true) ∧ r = (fresh s).fragmentCells p.val t n.val ∧ r =
      (none, fresh s) ∧ (cutAt s p t n.val false).pkt? t.fid = some q) ∧
    (∃ (s : State) (t : Tx) (q : Pkt) (k : ℕ), Runs s ∧ s.pkt? t.fid = some q ∧ (∀ c ∈ cellsWithin q t.sent (t.sent +
      k), s.damaged (1024 + bankOfCell c) c = none)) ∧
    (∃ (s : State) (p : Port) (n : Fin 16384) (t : Tx), Runs s ∧ (s.port p.val).txPre = some t ∧ (s.flag
      (O.PREEMPT_ACTIVE p.val) = false ∨ t.waits = true ∨ s.legalCut p.val t n.val = false ∨ (s.port p.val).txExp =
      none ∧ (s.gate p.val).held = false)) ∧
    (∃ (s : State) (p : Port) (n : Fin 16384) (t : Tx) (room : ℕ) (rest : ℕ) (d : ℕ) (r : Option ℕ × State) (k : ℕ),
      Runs s ∧ (s.port p.val).txPre = some t ∧ s.guardRoom p.val t = some room ∧ rest = s.txLen t - t.sent ∧ d = min
      (room - 12) (rest - 64) / 4 * 4 ∧ s.flag (O.PREEMPT_ACTIVE p.val) = true ∧ t.waits = false ∧ room < 8 + rest ∧
      n.val = d ∧ s.legalCut p.val t d = true ∧ r = (fresh s).fragmentCells p.val t d ∧ r.1 = some k) ∧
    (∃ (s : State) (p : Port) (n : Fin 16384) (t : Tx) (room : ℕ) (rest : ℕ) (d : ℕ) (r : Option ℕ × State), Runs s ∧
      (s.port p.val).txPre = some t ∧ s.guardRoom p.val t = some room ∧ rest = s.txLen t - t.sent ∧ d = min (room -
      12) (rest - 64) / 4 * 4 ∧ s.flag (O.PREEMPT_ACTIVE p.val) = true ∧ t.waits = false ∧ room < 8 + rest ∧ n.val = d
      ∧ s.legalCut p.val t d = true ∧ r = (fresh s).fragmentCells p.val t d ∧ r.1 = none) ∧
    (∃ (s : State) (p : Port) (n : Fin 16384) (t : Tx) (room : ℕ) (rest : ℕ) (d : ℕ) (r : Option ℕ × State), Runs s ∧
      (s.port p.val).txPre = some t ∧ s.guardRoom p.val t = some room ∧ rest = s.txLen t - t.sent ∧ d = min (room -
      12) (rest - 64) / 4 * 4 ∧ s.flag (O.PREEMPT_ACTIVE p.val) = true ∧ t.waits = false ∧ room < 8 + rest ∧ n.val = d
      ∧ s.legalCut p.val t d = true ∧ r = (fresh s).fragmentCells p.val t d ∧ r = (none, fresh s) ∧ (s.port
      p.val).txExp = none) ∧
    (∃ (s : State) (p : Port) (n : Fin 16384) (t : Tx) (room : ℕ) (rest : ℕ) (d : ℕ) (r : Option ℕ × State) (q : Pkt),
      Runs s ∧ (s.port p.val).txPre = some t ∧ s.guardRoom p.val t = some room ∧ rest = s.txLen t - t.sent ∧ d = min
      (room - 12) (rest - 64) / 4 * 4 ∧ s.flag (O.PREEMPT_ACTIVE p.val) = true ∧ t.waits = false ∧ room < 8 + rest ∧
      n.val = d ∧ s.legalCut p.val t d = true ∧ r = (fresh s).fragmentCells p.val t d ∧ r = (none, fresh s) ∧ (cutAt s
      p t d true).pkt? t.fid = some q) ∧
    (∃ (s : State) (p : Port) (n : Fin 16384) (t : Tx) (room : ℕ) (rest : ℕ) (d : ℕ), Runs s ∧ (s.port p.val).txPre =
      some t ∧ s.guardRoom p.val t = some room ∧ rest = s.txLen t - t.sent ∧ d = min (room - 12) (rest - 64) / 4 * 4 ∧
      (8 + rest ≤ room ∨ n.val ≠ d)) ∧
    (∃ (s : State) (p : Port) (pre : Bool) (t : Tx) (q : Pkt) (h : Holder) (f : List Byte) (r : Bool × ℕ × State) (v :
      State), Runs s ∧ ((if pre = true then (s.port p.val).txPre else (s.port p.val).txExp) = some t) ∧ t.waits =
      false ∧ s.pkt? t.fid = some q ∧ q.ended = true ∧ (List.find? (fun x => x.tok == t.tok) q.holders = some h) ∧
      t.frame = some f ∧ t.code = 0 ∧ q.poison = false ∧ q.spoilt = 0 ∧ q.lost = false ∧ q.act.overflow = false ∧ v =
      (((fresh s).putPort p.val ((s.port p.val).putTx pre none)).useDesc q).2 ∧ v.pkt? t.fid = some q ∧ r = v.readRun
      p.val (cellsWithin q t.sent (256 * q.cells.length)) ∧ r.1 = false ∧ r.2.2.pkt? t.fid = some q) ∧
    (∃ (s : State) (p : Port) (t : Tx), Runs s ∧ (s.port p.val).txExp = some t ∧ t.waits = true ∧ s.pkt? t.fid ≠ none
      ∧ (∀ e ∈ s.tiles, e.2.postRecs.length < 24)) ∧
    (∃ (s : State) (p : Port), Runs s ∧ (s.port p.val).txExp = none ∧ (∀ e ∈ s.tiles, e.2.postRecs.length < 24)) :=
  ⟨⟨readyQ { enq 8179 with lost := true }, 511, goW (readyQ { enq 8179 with lost := true }), goV (readyQ
      { enq 8179 with lost := true }), 8179, { enq 8179 with lost := true }, heldBy 8179, by decide +kernel⟩,
    ⟨(readyQ (enq 8179)).set (O.MAX_FRAME 511) 64, 511, goW ((readyQ (enq 8179)).set (O.MAX_FRAME 511) 64), goV
      ((readyQ (enq 8179)).set (O.MAX_FRAME 511) 64), 8179, enq 8179, heldBy 8179, ((goV ((readyQ (enq 8179)).set
      (O.MAX_FRAME 511) 64)).useDesc (enq 8179)).2.readCells 511 [12], by decide +kernel⟩,
    ⟨readyQ (enq 8179), 511, goW (readyQ (enq 8179)), goV (readyQ (enq 8179)), 8179, enq 8179, heldBy 8179, ((goV
      (readyQ (enq 8179))).useDesc (enq 8179)).2.readCells 511 [12], by decide +kernel⟩,
    ⟨up, 511, by decide +kernel⟩,
    ⟨spoilt cutTx, 511, 60, tx 0, (fresh (spoilt cutTx)).fragmentCells 511 (tx 0) 60, 60, by decide +kernel⟩,
    ⟨cutTx, 511, 60, tx 0, (fresh cutTx).fragmentCells 511 (tx 0) 60, by decide +kernel⟩,
    ⟨heldTx, 511, 60, tx 0, (fresh heldTx).fragmentCells 511 (tx 0) 60, by decide +kernel⟩,
    ⟨cutTx, 511, 60, tx 0, (fresh cutTx).fragmentCells 511 (tx 0) 60,
      { enq 8179 with started := true, holders := [{ heldBy 8179 with started := true }] }, by decide +kernel⟩,
    ⟨cutTx, tx 0, { enq 8179 with started := true, holders := [{ heldBy 8179 with started := true }] }, 60,
      by decide +kernel⟩,
    ⟨(sending (fun x => { x with txPre := some (tx 0), txExp := some { tx 0 with waits := true } })).set
      (O.PREEMPT_ACTIVE 511) 1, 511, 63, tx 0, by decide +kernel⟩,
    ⟨spoilt closing, 511, 112, tx 0, 125, 200, 112, (fresh (spoilt closing)).fragmentCells 511 (tx 0) 112, 112,
      by decide +kernel⟩,
    ⟨closing, 511, 112, tx 0, 125, 200, 112, (fresh closing).fragmentCells 511 (tx 0) 112, by decide +kernel⟩,
    ⟨closing, 511, 112, tx 0, 125, 200, 112, (fresh closing).fragmentCells 511 (tx 0) 112, by decide +kernel⟩,
    ⟨closing, 511, 112, tx 0, 125, 200, 112, (fresh closing).fragmentCells 511 (tx 0) 112,
      { enq 8179 with started := true, holders := [{ heldBy 8179 with started := true }] }, by decide +kernel⟩,
    ⟨closing, 511, 108, tx 0, 125, 200, 112, by decide +kernel⟩,
    ⟨endTx, 511, false, tx 0, txQ, { heldBy 8179 with started := true }, List.replicate 200 7, endV.readRun 511
      (cellsWithin txQ 0 256), endV, by decide +kernel⟩,
    ⟨sending (fun x => { x with txExp := some { tx 0 with waits := true } }), 511, { tx 0 with waits := true },
      by decide +kernel⟩,
    ⟨up, 511, by decide +kernel⟩⟩

theorem witness_SchedulingTimeAndShaping :
    (∃ (s : State) (p : Port) (l : GList), Runs s ∧ (s.gate p.val).next = some l ∧ s.gatesAct p.val = true ∧ l.start ≤
      s.tbUnits l.tb) ∧
    (∃ (s : State) (p : Port), Runs s ∧ (s.gate p.val).next = none) ∧
    (∃ (s : State) (p : Port) (l : GList), Runs s ∧ (s.gate p.val).next = some l ∧ s.tbUnits l.tb < l.start) ∧
    (∃ (s : State) (p : Port) (l : GList) (i : ℕ) (o : ℕ) (op : ℕ), Runs s ∧ (s.gate p.val).running = some l ∧
      s.gatesAct p.val = true ∧ entryAt (s.gateEntries p.val l) (l.offsetU (s.tbUnits l.tb)) = some (i, o, op) ∧
      (s.flag (O.PREEMPT_ACTIVE p.val) = false ∨ op = 0)) ∧
    (∃ (s : State) (p : Port) (l : GList) (i : ℕ) (o : ℕ) (op : ℕ), Runs s ∧ (s.gate p.val).running = some l ∧
      s.gatesAct p.val = true ∧ entryAt (s.gateEntries p.val l) (l.offsetU (s.tbUnits l.tb)) = some (i, o, op) ∧
      s.flag (O.PREEMPT_ACTIVE p.val) = true ∧ op ≠ 0) ∧
    (∃ (s : State) (p : Port) (q : Fin 16) (k : Pkt) (h : Holder), Runs s ∧ s.head (p.val * 16 + q.val) = some (k, h)
      ∧ s.launchQueue (p.val * 16 + q.val) = true ∧ k.launch = true ∧ timeUnits k.timeV + s.get (O.LAUNCH_WINDOW_NS
      p.val) * nsU < timeUnits (s.txTime p.val (bits k.timeW 22 20))) ∧
    (∃ (s : State) (p : Port) (q : Fin 16) (k : Pkt) (h : Holder), Runs s ∧ s.head (p.val * 16 + q.val) = some (k, h)
      ∧ s.launchQueue (p.val * 16 + q.val) = true ∧ (k.launch = false ∨ timeUnits (s.txTime p.val (bits k.timeW 22
      20)) ≤ timeUnits k.timeV + s.get (O.LAUNCH_WINDOW_NS p.val) * nsU)) ∧
    (∃ (s : State) (v : Queue) (k : Pkt) (h : Holder), Runs s ∧ s.head v.val = some (k, h) ∧ s.hasInst
      Insts.schedQueues v.val = true ∧ s.tooOld v.val h = false) ∧
    (∃ (s : State) (v : Queue) (k : Pkt) (h : Holder), Runs s ∧ s.head v.val = some (k, h) ∧ s.hasInst
      Insts.schedQueues v.val = true ∧ s.tooOld v.val h = true) ∧
    (∃ (s : State) (g : ℕ), Runs s ∧ s.get (O.SHAPE_RATE g) ≠ 0 ∧ s.hasInst Insts.schedQueues g = true) ∧
    (∃ (s : State) (x : Policer) (r : PolRow) (m : ℕ) (dt : ℕ) (c : ℤ) (k : ℤ), Runs s ∧ r = polRead (s.get
      O.POLICER_STATE x.val) ∧ m = s.get (O.POLICER_MODE (r.prof % 4096)) ∧ m ≠ 0 ∧ dt = (s.policerTick + 2 ^ 32 -
      r.last) % 2 ^ 32 ∧ (c = if r.fill = true then (s.get (O.CBS (r.prof % 4096))).cast * 65536 else r.c) ∧ (k = if
      r.fill = true then (s.get (O.PBS (r.prof % 4096))).cast * 65536 else r.pk)) ∧
    (∃ (s : State) (x : Policer), Runs s ∧ s.get (O.POLICER_MODE ((polRead (s.get O.POLICER_STATE x.val)).prof %
      4096)) = 0) :=
  ⟨⟨gated 1, 511, ⟨0, 0, 1000, 2, 0⟩, by decide +kernel⟩,
    ⟨up, 511, by decide +kernel⟩,
    ⟨(gated 1).putGate 511 ⟨some ⟨0, 1, 1000, 2, 0⟩, some ⟨0, 1, 1000, 2, 0⟩, false⟩, 511, ⟨0, 1, 1000, 2, 0⟩,
      by decide +kernel⟩,
    ⟨(gated 1).set (O.PREEMPT_ACTIVE 511) 1, 511, ⟨0, 0, 1000, 2, 0⟩, 0, 1, 0, by decide +kernel⟩,
    ⟨(gated (2 ^ 17 + 1)).set (O.PREEMPT_ACTIVE 511) 1, 511, ⟨0, 0, 1000, 2, 0⟩, 0, 1, 1, by decide +kernel⟩,
    ⟨later ((queued { enq 8179 with timeV := 0, launch := true } 8179).set (O.LAUNCH_MODE 8179) 1), 511, 3,
      { enq 8179 with timeV := 0, launch := true }, heldBy 8179, by decide +kernel⟩,
    ⟨later ((queued { enq 8179 with timeV := 0 } 8179).set (O.LAUNCH_MODE 8179) 1), 511, 3,
      { enq 8179 with timeV := 0 }, heldBy 8179, by decide +kernel⟩,
    ⟨queued (enq 8179) 8179, 8179, enq 8179, heldBy 8179, by decide +kernel⟩,
    ⟨({ queued (enq 8179) 8179 with time := { TimeX.reset with ticks := 1251 } }).set (O.MAX_RESIDENCE_US 8179) 1,
      8179, enq 8179, heldBy 8179, by decide +kernel⟩,
    ⟨live511.set (O.SHAPE_RATE 8179) 100, 8179, by decide +kernel⟩,
    ⟨polUp, 65535, ⟨4095, false, 7, 5, 6⟩, 2, (polUp.policerTick + 2 ^ 32 - 7) % 2 ^ 32, 5, 6, by decide +kernel⟩,
    ⟨up, 65535, by decide +kernel⟩⟩

theorem witness_EntryOperationsReachTheirEngine :
    (∃ (s : State) (p : Sys2Proof.Path) (n : Table) (fl : Byte) (plen : Byte) (key : List Byte) (act : BitVec 24) (i :
      Instr) (r : List Byte), (i, r) ∈ [(Instr.insert p n fl key act, opRecord 1 (BitVec.toNat fl) 0 key act.toNat),
      (Instr.replace p n fl key act, opRecord 2 (BitVec.toNat fl) 0 key act.toNat), (Instr.delete p n key, opRecord 3
      0 0 key 0), (Instr.entryRead p n plen key, opRecord 4 0 (BitVec.toNat plen) key 0), (Instr.probe p n key,
      opRecord 5 0 0 key 0), (Instr.prefixInsert p n fl plen key act, opRecord 6 (BitVec.toNat fl) (BitVec.toNat plen)
      key act.toNat), (Instr.prefixDelete p n plen key, opRecord 7 0 (BitVec.toNat plen) key 0)] ∧ Takes s p
      (O.ENTRY_OP n.val) ∧ (s.eng (s.decl n.val).partition).jobs = [] ∧ (s.eng (s.decl n.val).partition).deleteDue =
      false ∧ s.faults.damage = [] ∧ (byteAt r 0 = 1 → (s.pathFor n.val (s.decl n.val) ((s.decl n.val).key (slice r 4
      10))).1 = [])) ∧
    (∃ (s : State) (p : Sys2Proof.Path) (n : Table) (fl : Byte) (plen : Byte) (key : List Byte) (act : BitVec 24) (i :
      Instr) (r : List Byte), (i, r) ∈ [(Instr.insert p n fl key act, opRecord 1 (BitVec.toNat fl) 0 key act.toNat),
      (Instr.replace p n fl key act, opRecord 2 (BitVec.toNat fl) 0 key act.toNat), (Instr.delete p n key, opRecord 3
      0 0 key 0), (Instr.entryRead p n plen key, opRecord 4 0 (BitVec.toNat plen) key 0), (Instr.probe p n key,
      opRecord 5 0 0 key 0), (Instr.prefixInsert p n fl plen key act, opRecord 6 (BitVec.toNat fl) (BitVec.toNat plen)
      key act.toNat), (Instr.prefixDelete p n plen key, opRecord 7 0 (BitVec.toNat plen) key 0)] ∧ Ready s p ∧
      s.leasedAway p 5 = false ∧ s.dict.busyTabs.contains (O.ENTRY_OP n.val) = true) ∧
    (∃ (s : State) (p : Sys2Proof.Path) (n : Table) (fl : Byte) (plen : Byte) (key : List Byte) (act : BitVec 24) (i :
      Instr) (r : List Byte), (i, r) ∈ [(Instr.insert p n fl key act, opRecord 1 (BitVec.toNat fl) 0 key act.toNat),
      (Instr.replace p n fl key act, opRecord 2 (BitVec.toNat fl) 0 key act.toNat), (Instr.delete p n key, opRecord 3
      0 0 key 0), (Instr.entryRead p n plen key, opRecord 4 0 (BitVec.toNat plen) key 0), (Instr.probe p n key,
      opRecord 5 0 0 key 0), (Instr.prefixInsert p n fl plen key act, opRecord 6 (BitVec.toNat fl) (BitVec.toNat plen)
      key act.toNat), (Instr.prefixDelete p n plen key, opRecord 7 0 (BitVec.toNat plen) key 0)] ∧ Ready s p ∧
      s.leasedAway p 5 = false ∧ s.dict.busyTabs.contains (O.ENTRY_OP n.val) = false ∧ s.cmdRunning (O.ENTRY_OP n.val)
      = true) :=
  ⟨⟨tabX, .window 0, 63, 1, 4, [1, 2, 3], 0x777, .insert (.window 0) 63 1 [1, 2, 3] 0x777, opRecord 1 1 0 [1, 2, 3]
      0x777, by decide +kernel⟩,
    ⟨{ up with dict := { up.dict with busyTabs := [O.ENTRY_OP 63] } }, .window 0, 63, 1, 4, [1, 2, 3], 0x777, .probe
      (.window 0) 63 [1, 2, 3], opRecord 5 0 0 [1, 2, 3] 0, by decide +kernel⟩,
    ⟨up.cmdRun (O.ENTRY_OP 63), .window 0, 63, 1, 4, [1, 2, 3], 0x777, .probe (.window 0) 63 [1, 2, 3], opRecord 5 0 0
      [1, 2, 3] 0, by decide +kernel⟩⟩

theorem witness_ExactMatchOperationsComplete :
    (∃ (s : State) (n : Table) (j : EngJob) (d : Decl) (x : ℕ) (key : ℕ) (op : ℕ) (e : ℕ) (w : ℕ), Runs s ∧ d = s.decl
      n.val ∧ x = d.partition ∧ (s.eng x).jobs = [j] ∧ j.table = n.val ∧ j.chan = none ∧ j.started = true ∧ j.moves =
      [] ∧ d.kind = 1 ∧ key = d.key (slice j.record 4 10) ∧ op = byteAt j.record 0 ∧ e = mkEntry key (keepRef (leAt
      j.record 20 3)) (s.get (O.AGE_CLOCK n.val)) (1 + 2 * (byteAt j.record 1 % 2)) ∧ s.findKey d key = none ∧
      s.stashed n.val d key = none ∧ op = 1 ∧ s.freeUnit d key = some w) ∧
    (∃ (s : State) (n : Table) (j : EngJob) (d : Decl) (x : ℕ) (key : ℕ) (op : ℕ) (e : ℕ), Runs s ∧ d = s.decl n.val ∧
      x = d.partition ∧ (s.eng x).jobs = [j] ∧ j.table = n.val ∧ j.chan = none ∧ j.started = true ∧ j.moves = [] ∧
      d.kind = 1 ∧ key = d.key (slice j.record 4 10) ∧ op = byteAt j.record 0 ∧ e = mkEntry key (keepRef (leAt
      j.record 20 3)) (s.get (O.AGE_CLOCK n.val)) (1 + 2 * (byteAt j.record 1 % 2)) ∧ s.findKey d key = none ∧
      s.stashed n.val d key = none ∧ op = 1 ∧ s.freeUnit d key = none ∧ d.prot = true) ∧
    (∃ (s : State) (n : Table) (j : EngJob) (d : Decl) (x : ℕ) (key : ℕ) (op : ℕ) (e : ℕ) (w : ℕ) (r : Bool), Runs s ∧
      d = s.decl n.val ∧ x = d.partition ∧ (s.eng x).jobs = [j] ∧ j.table = n.val ∧ j.chan = none ∧ j.started = true ∧
      j.moves = [] ∧ d.kind = 1 ∧ key = d.key (slice j.record 4 10) ∧ op = byteAt j.record 0 ∧ e = mkEntry key
      (keepRef (leAt j.record 20 3)) (s.get (O.AGE_CLOCK n.val)) (1 + 2 * (byteAt j.record 1 % 2)) ∧ s.findKey d key =
      none ∧ s.stashed n.val d key = none ∧ op = 1 ∧ s.freeUnit d key = none ∧ d.prot = false ∧ s.victim n.val d key =
      (some w, r)) ∧
    (∃ (s : State) (n : Table) (j : EngJob) (d : Decl) (x : ℕ) (key : ℕ) (op : ℕ) (e : ℕ) (r : Bool), Runs s ∧ d =
      s.decl n.val ∧ x = d.partition ∧ (s.eng x).jobs = [j] ∧ j.table = n.val ∧ j.chan = none ∧ j.started = true ∧
      j.moves = [] ∧ d.kind = 1 ∧ key = d.key (slice j.record 4 10) ∧ op = byteAt j.record 0 ∧ e = mkEntry key
      (keepRef (leAt j.record 20 3)) (s.get (O.AGE_CLOCK n.val)) (1 + 2 * (byteAt j.record 1 % 2)) ∧ s.findKey d key =
      none ∧ s.stashed n.val d key = none ∧ op = 1 ∧ s.freeUnit d key = none ∧ d.prot = false ∧ s.victim n.val d key =
      (none, r)) ∧
    (∃ (s : State) (n : Table) (j : EngJob) (d : Decl) (x : ℕ) (key : ℕ) (op : ℕ) (e : ℕ) (w : ℕ), Runs s ∧ d = s.decl
      n.val ∧ x = d.partition ∧ (s.eng x).jobs = [j] ∧ j.table = n.val ∧ j.chan = none ∧ j.started = true ∧ j.moves =
      [] ∧ d.kind = 1 ∧ key = d.key (slice j.record 4 10) ∧ op = byteAt j.record 0 ∧ e = mkEntry key (keepRef (leAt
      j.record 20 3)) (s.get (O.AGE_CLOCK n.val)) (1 + 2 * (byteAt j.record 1 % 2)) ∧ s.findKey d key = some w ∧ (op =
      2 ∨ op = 1 ∧ bit (byteAt j.record 1) 1 = false)) ∧
    (∃ (s : State) (n : Table) (j : EngJob) (d : Decl) (x : ℕ) (key : ℕ) (op : ℕ) (e : ℕ) (w : ℕ), Runs s ∧ d = s.decl
      n.val ∧ x = d.partition ∧ (s.eng x).jobs = [j] ∧ j.table = n.val ∧ j.chan = none ∧ j.started = true ∧ j.moves =
      [] ∧ d.kind = 1 ∧ key = d.key (slice j.record 4 10) ∧ op = byteAt j.record 0 ∧ e = mkEntry key (keepRef (leAt
      j.record 20 3)) (s.get (O.AGE_CLOCK n.val)) (1 + 2 * (byteAt j.record 1 % 2)) ∧ s.findKey d key = some w ∧ op =
      1 ∧ bit (byteAt j.record 1) 1 = true) ∧
    (∃ (s : State) (n : Table) (j : EngJob) (d : Decl) (x : ℕ) (key : ℕ) (op : ℕ) (e : ℕ) (w : ℕ), Runs s ∧ d = s.decl
      n.val ∧ x = d.partition ∧ (s.eng x).jobs = [j] ∧ j.table = n.val ∧ j.chan = none ∧ j.started = true ∧ j.moves =
      [] ∧ d.kind = 1 ∧ key = d.key (slice j.record 4 10) ∧ op = byteAt j.record 0 ∧ e = mkEntry key (keepRef (leAt
      j.record 20 3)) (s.get (O.AGE_CLOCK n.val)) (1 + 2 * (byteAt j.record 1 % 2)) ∧ s.findKey d key = some w ∧ op =
      3) ∧
    (∃ (s : State) (n : Table) (j : EngJob) (d : Decl) (x : ℕ) (key : ℕ) (op : ℕ) (e : ℕ) (w : ℕ), Runs s ∧ d = s.decl
      n.val ∧ x = d.partition ∧ (s.eng x).jobs = [j] ∧ j.table = n.val ∧ j.chan = none ∧ j.started = true ∧ j.moves =
      [] ∧ d.kind = 1 ∧ key = d.key (slice j.record 4 10) ∧ op = byteAt j.record 0 ∧ e = mkEntry key (keepRef (leAt
      j.record 20 3)) (s.get (O.AGE_CLOCK n.val)) (1 + 2 * (byteAt j.record 1 % 2)) ∧ s.findKey d key = some w ∧ op =
      4) ∧
    (∃ (s : State) (n : Table) (j : EngJob) (d : Decl) (x : ℕ) (key : ℕ) (op : ℕ) (e : ℕ), Runs s ∧ d = s.decl n.val ∧
      x = d.partition ∧ (s.eng x).jobs = [j] ∧ j.table = n.val ∧ j.chan = none ∧ j.started = true ∧ j.moves = [] ∧
      d.kind = 1 ∧ key = d.key (slice j.record 4 10) ∧ op = byteAt j.record 0 ∧ e = mkEntry key (keepRef (leAt
      j.record 20 3)) (s.get (O.AGE_CLOCK n.val)) (1 + 2 * (byteAt j.record 1 % 2)) ∧ s.findKey d key = none ∧
      s.stashed n.val d key = none ∧ (op = 2 ∨ op = 3 ∨ op = 4)) ∧
    (∃ (s : State) (n : Table) (j : EngJob) (d : Decl) (x : ℕ) (key : ℕ) (op : ℕ) (e : ℕ) (y : ℕ), Runs s ∧ d = s.decl
      n.val ∧ x = d.partition ∧ (s.eng x).jobs = [j] ∧ j.table = n.val ∧ j.chan = none ∧ j.started = true ∧ j.moves =
      [] ∧ d.kind = 1 ∧ key = d.key (slice j.record 4 10) ∧ op = byteAt j.record 0 ∧ e = mkEntry key (keepRef (leAt
      j.record 20 3)) (s.get (O.AGE_CLOCK n.val)) (1 + 2 * (byteAt j.record 1 % 2)) ∧ s.findKey d key = none ∧
      s.stashed n.val d key = some y ∧ op = 4) ∧
    (∃ (s : State) (n : Table) (j : EngJob) (d : Decl) (x : ℕ) (key : ℕ) (op : ℕ) (e : ℕ) (y : ℕ), Runs s ∧ d = s.decl
      n.val ∧ x = d.partition ∧ (s.eng x).jobs = [j] ∧ j.table = n.val ∧ j.chan = none ∧ j.started = true ∧ j.moves =
      [] ∧ d.kind = 1 ∧ key = d.key (slice j.record 4 10) ∧ op = byteAt j.record 0 ∧ e = mkEntry key (keepRef (leAt
      j.record 20 3)) (s.get (O.AGE_CLOCK n.val)) (1 + 2 * (byteAt j.record 1 % 2)) ∧ s.findKey d key = none ∧
      s.stashed n.val d key = some y ∧ op = 3) ∧
    (∃ (s : State) (n : Table) (j : EngJob) (d : Decl) (x : ℕ) (key : ℕ) (op : ℕ) (e : ℕ) (y : ℕ), Runs s ∧ d = s.decl
      n.val ∧ x = d.partition ∧ (s.eng x).jobs = [j] ∧ j.table = n.val ∧ j.chan = none ∧ j.started = true ∧ j.moves =
      [] ∧ d.kind = 1 ∧ key = d.key (slice j.record 4 10) ∧ op = byteAt j.record 0 ∧ e = mkEntry key (keepRef (leAt
      j.record 20 3)) (s.get (O.AGE_CLOCK n.val)) (1 + 2 * (byteAt j.record 1 % 2)) ∧ s.findKey d key = none ∧
      s.stashed n.val d key = some y ∧ (op = 2 ∨ op = 1 ∧ bit (byteAt j.record 1) 1 = false)) ∧
    (∃ (s : State) (n : Table) (j : EngJob) (d : Decl) (x : ℕ) (key : ℕ) (op : ℕ) (e : ℕ) (y : ℕ), Runs s ∧ d = s.decl
      n.val ∧ x = d.partition ∧ (s.eng x).jobs = [j] ∧ j.table = n.val ∧ j.chan = none ∧ j.started = true ∧ j.moves =
      [] ∧ d.kind = 1 ∧ key = d.key (slice j.record 4 10) ∧ op = byteAt j.record 0 ∧ e = mkEntry key (keepRef (leAt
      j.record 20 3)) (s.get (O.AGE_CLOCK n.val)) (1 + 2 * (byteAt j.record 1 % 2)) ∧ s.findKey d key = none ∧
      s.stashed n.val d key = some y ∧ op = 1 ∧ bit (byteAt j.record 1) 1 = true) ∧
    (∃ (s : State) (n : Table) (j : EngJob) (d : Decl) (x : ℕ) (key : ℕ) (op : ℕ) (e : ℕ), Runs s ∧ d = s.decl n.val ∧
      x = d.partition ∧ (s.eng x).jobs = [j] ∧ j.table = n.val ∧ j.chan = none ∧ j.started = true ∧ j.moves = [] ∧
      d.kind = 1 ∧ key = d.key (slice j.record 4 10) ∧ op = byteAt j.record 0 ∧ e = mkEntry key (keepRef (leAt
      j.record 20 3)) (s.get (O.AGE_CLOCK n.val)) (1 + 2 * (byteAt j.record 1 % 2)) ∧ op = 5) ∧
    (∃ (s : State) (n : Table) (j : EngJob) (d : Decl) (x : ℕ) (key : ℕ) (op : ℕ) (e : ℕ), Runs s ∧ d = s.decl n.val ∧
      x = d.partition ∧ (s.eng x).jobs = [j] ∧ j.table = n.val ∧ j.chan = none ∧ j.started = true ∧ j.moves = [] ∧
      d.kind = 1 ∧ key = d.key (slice j.record 4 10) ∧ op = byteAt j.record 0 ∧ e = mkEntry key (keepRef (leAt
      j.record 20 3)) (s.get (O.AGE_CLOCK n.val)) (1 + 2 * (byteAt j.record 1 % 2)) ∧ (op = 0 ∨ 5 < op)) :=
  ⟨⟨atEng tabX (jobX 1 1), 63, jobX 1 1, dX, dX.partition, key3, 1, mkEntry key3 0x777 0 3, (dX.candidates key3).headD 0,
      by decide +kernel⟩,
    ⟨atEng ((fullUp 1).set (O.PROTECTED 63) 1) (jobX 1 0), 63, jobX 1 0, { dX with prot := true }, dX.partition, key3,
      1, mkEntry key3 0x777 0 1, by decide +kernel⟩,
    ⟨atEng ((fullUp 1).set (O.PROTECTED 63) 0) (jobX 1 0), 63, jobX 1 0, { dX with prot := false }, dX.partition,
      key3, 1, mkEntry key3 0x777 0 1, ((atEng ((fullUp 1).set (O.PROTECTED 63) 0) (jobX 1 0)).victim 63
      { dX with prot := false } key3).1.getD 0, ((atEng ((fullUp 1).set (O.PROTECTED 63) 0) (jobX 1 0)).victim 63
      { dX with prot := false } key3).2, by decide +kernel⟩,
    ⟨atEng ((fullUp 3).set (O.PROTECTED 63) 0) (jobX 1 0), 63, jobX 1 0, { dX with prot := false }, dX.partition,
      key3, 1, mkEntry key3 0x777 0 1, ((atEng ((fullUp 3).set (O.PROTECTED 63) 0) (jobX 1 0)).victim 63
      { dX with prot := false } key3).2, by decide +kernel⟩,
    ⟨atEng (holdsKey 1) (jobX 1 0), 63, jobX 1 0, dX, dX.partition, key3, 1, mkEntry key3 0x777 0 1, (dX.candidates
      key3).headD 0, by decide +kernel⟩,
    ⟨atEng (holdsKey 1) (jobX 1 2), 63, jobX 1 2, dX, dX.partition, key3, 1, mkEntry key3 0x777 0 1, (dX.candidates
      key3).headD 0, by decide +kernel⟩,
    ⟨atEng (holdsKey 1) (jobX 3 0), 63, jobX 3 0, dX, dX.partition, key3, 3, mkEntry key3 0x777 0 1, (dX.candidates
      key3).headD 0, by decide +kernel⟩,
    ⟨atEng (holdsKey 1) (jobX 4 0), 63, jobX 4 0, dX, dX.partition, key3, 4, mkEntry key3 0x777 0 1, (dX.candidates
      key3).headD 0, by decide +kernel⟩,
    ⟨atEng tabX (jobX 4 0), 63, jobX 4 0, dX, dX.partition, key3, 4, mkEntry key3 0x777 0 1, by decide +kernel⟩,
    ⟨inStash 4 0, 63, jobX 4 0, dX, dX.partition, key3, 4, mkEntry key3 0x777 0 1, mkEntry key3 5 0 1,
      by decide +kernel⟩,
    ⟨inStash 3 0, 63, jobX 3 0, dX, dX.partition, key3, 3, mkEntry key3 0x777 0 1, mkEntry key3 5 0 1,
      by decide +kernel⟩,
    ⟨inStash 2 0, 63, jobX 2 0, dX, dX.partition, key3, 2, mkEntry key3 0x777 0 1, mkEntry key3 5 0 1,
      by decide +kernel⟩,
    ⟨inStash 1 2, 63, jobX 1 2, dX, dX.partition, key3, 1, mkEntry key3 0x777 0 1, mkEntry key3 5 0 1,
      by decide +kernel⟩,
    ⟨atEng tabX (jobX 5 0), 63, jobX 5 0, dX, dX.partition, key3, 5, mkEntry key3 0x777 0 1, by decide +kernel⟩,
    ⟨atEng tabX (jobX 6 0), 63, jobX 6 0, dX, dX.partition, key3, 6, mkEntry key3 0x777 0 1, by decide +kernel⟩⟩

theorem witness_PrefixOperationsComplete :
    (∃ (s : State) (n : Table) (j : EngJob) (d : Decl) (x : ℕ) (addr : ℕ) (len : ℕ) (op : ℕ) (f : Option LRec) (k :
      ℕ), Runs s ∧ d = s.decl n.val ∧ x = d.partition ∧ (s.eng x).jobs = [j] ∧ j.table = n.val ∧ j.chan = none ∧
      j.started = true ∧ j.moves = [] ∧ d.isLpm = true ∧ addr = beAt j.record 4 (d.width / 8) ∧ len = byteAt j.record
      2 ∧ op = byteAt j.record 0 ∧ (len ≤ if d.kind = 3 then 32 else 64) ∧ addr % 2 ^ (d.width - len) = 0 ∧ (f =
      List.find? (fun y => y.table == n.val && y.addr == addr && y.len == len) s.lookup.recs) ∧ f = none ∧ op = 6 ∧ (k
      = (List.find? (fun i => !(s.recsOf n.val).any fun x => x.slot == i) (List.range ((s.recsOf n.val).length +
      1))).getD 0) ∧ d.roomFor
      ({ table := n.val, slot := k, addr := addr, len := len, action := keepRef (leAt j.record 20 3) } :: s.recsOf
      n.val) = true) ∧
    (∃ (s : State) (n : Table) (j : EngJob) (d : Decl) (x : ℕ) (addr : ℕ) (len : ℕ) (op : ℕ) (f : Option LRec) (k :
      ℕ), Runs s ∧ d = s.decl n.val ∧ x = d.partition ∧ (s.eng x).jobs = [j] ∧ j.table = n.val ∧ j.chan = none ∧
      j.started = true ∧ j.moves = [] ∧ d.isLpm = true ∧ addr = beAt j.record 4 (d.width / 8) ∧ len = byteAt j.record
      2 ∧ op = byteAt j.record 0 ∧ (len ≤ if d.kind = 3 then 32 else 64) ∧ addr % 2 ^ (d.width - len) = 0 ∧ (f =
      List.find? (fun y => y.table == n.val && y.addr == addr && y.len == len) s.lookup.recs) ∧ f = none ∧ op = 6 ∧ (k
      = (List.find? (fun i => !(s.recsOf n.val).any fun x => x.slot == i) (List.range ((s.recsOf n.val).length +
      1))).getD 0) ∧ d.roomFor
      ({ table := n.val, slot := k, addr := addr, len := len, action := keepRef (leAt j.record 20 3) } :: s.recsOf
      n.val) = false) ∧
    (∃ (s : State) (n : Table) (j : EngJob) (d : Decl) (x : ℕ) (addr : ℕ) (len : ℕ) (op : ℕ) (f : Option LRec) (y :
      LRec), Runs s ∧ d = s.decl n.val ∧ x = d.partition ∧ (s.eng x).jobs = [j] ∧ j.table = n.val ∧ j.chan = none ∧
      j.started = true ∧ j.moves = [] ∧ d.isLpm = true ∧ addr = beAt j.record 4 (d.width / 8) ∧ len = byteAt j.record
      2 ∧ op = byteAt j.record 0 ∧ (len ≤ if d.kind = 3 then 32 else 64) ∧ addr % 2 ^ (d.width - len) = 0 ∧ (f =
      List.find? (fun y => y.table == n.val && y.addr == addr && y.len == len) s.lookup.recs) ∧ f = some y ∧ op = 6 ∧
      bit (byteAt j.record 1) 1 = false) ∧
    (∃ (s : State) (n : Table) (j : EngJob) (d : Decl) (x : ℕ) (addr : ℕ) (len : ℕ) (op : ℕ) (f : Option LRec) (y :
      LRec), Runs s ∧ d = s.decl n.val ∧ x = d.partition ∧ (s.eng x).jobs = [j] ∧ j.table = n.val ∧ j.chan = none ∧
      j.started = true ∧ j.moves = [] ∧ d.isLpm = true ∧ addr = beAt j.record 4 (d.width / 8) ∧ len = byteAt j.record
      2 ∧ op = byteAt j.record 0 ∧ (len ≤ if d.kind = 3 then 32 else 64) ∧ addr % 2 ^ (d.width - len) = 0 ∧ (f =
      List.find? (fun y => y.table == n.val && y.addr == addr && y.len == len) s.lookup.recs) ∧ f = some y ∧ op = 6 ∧
      bit (byteAt j.record 1) 1 = true) ∧
    (∃ (s : State) (n : Table) (j : EngJob) (d : Decl) (x : ℕ) (addr : ℕ) (len : ℕ) (op : ℕ) (f : Option LRec) (y :
      LRec), Runs s ∧ d = s.decl n.val ∧ x = d.partition ∧ (s.eng x).jobs = [j] ∧ j.table = n.val ∧ j.chan = none ∧
      j.started = true ∧ j.moves = [] ∧ d.isLpm = true ∧ addr = beAt j.record 4 (d.width / 8) ∧ len = byteAt j.record
      2 ∧ op = byteAt j.record 0 ∧ (len ≤ if d.kind = 3 then 32 else 64) ∧ addr % 2 ^ (d.width - len) = 0 ∧ (f =
      List.find? (fun y => y.table == n.val && y.addr == addr && y.len == len) s.lookup.recs) ∧ f = some y ∧ op = 7) ∧
    (∃ (s : State) (n : Table) (j : EngJob) (d : Decl) (x : ℕ) (addr : ℕ) (len : ℕ) (op : ℕ) (f : Option LRec) (y :
      LRec), Runs s ∧ d = s.decl n.val ∧ x = d.partition ∧ (s.eng x).jobs = [j] ∧ j.table = n.val ∧ j.chan = none ∧
      j.started = true ∧ j.moves = [] ∧ d.isLpm = true ∧ addr = beAt j.record 4 (d.width / 8) ∧ len = byteAt j.record
      2 ∧ op = byteAt j.record 0 ∧ (len ≤ if d.kind = 3 then 32 else 64) ∧ addr % 2 ^ (d.width - len) = 0 ∧ (f =
      List.find? (fun y => y.table == n.val && y.addr == addr && y.len == len) s.lookup.recs) ∧ f = some y ∧ op = 4) ∧
    (∃ (s : State) (n : Table) (j : EngJob) (d : Decl) (x : ℕ) (addr : ℕ) (len : ℕ) (op : ℕ) (f : Option LRec), Runs s
      ∧ d = s.decl n.val ∧ x = d.partition ∧ (s.eng x).jobs = [j] ∧ j.table = n.val ∧ j.chan = none ∧ j.started = true
      ∧ j.moves = [] ∧ d.isLpm = true ∧ addr = beAt j.record 4 (d.width / 8) ∧ len = byteAt j.record 2 ∧ op = byteAt
      j.record 0 ∧ (len ≤ if d.kind = 3 then 32 else 64) ∧ addr % 2 ^ (d.width - len) = 0 ∧ (f = List.find? (fun y =>
      y.table == n.val && y.addr == addr && y.len == len) s.lookup.recs) ∧ f = none ∧ (op = 4 ∨ op = 7)) ∧
    (∃ (s : State) (n : Table) (j : EngJob) (d : Decl) (x : ℕ) (addr : ℕ) (len : ℕ) (op : ℕ), Runs s ∧ d = s.decl
      n.val ∧ x = d.partition ∧ (s.eng x).jobs = [j] ∧ j.table = n.val ∧ j.chan = none ∧ j.started = true ∧ j.moves =
      [] ∧ d.isLpm = true ∧ addr = beAt j.record 4 (d.width / 8) ∧ len = byteAt j.record 2 ∧ op = byteAt j.record 0 ∧
      ((if d.kind = 3 then 32 else 64) < len ∨ addr % 2 ^ (d.width - len) ≠ 0 ∨ op ≠ 4 ∧ op ≠ 6 ∧ op ≠ 7)) :=
  ⟨⟨atEng tabL (jobL 6 0 16), 62, jobL 6 0 16, dL, dL.partition, 0x0A010000, 16, 6, none, 0, by decide +kernel⟩,
    ⟨atEng noRoom (jobL 6 0 16), 62, jobL 6 0 16, noRoom.decl 62, 0, 0x0A010000, 16, 6, none, 0, by decide +kernel⟩,
    ⟨atEng (withRec tabL) (jobL 6 0 16), 62, jobL 6 0 16, dL, dL.partition, 0x0A010000, 16, 6, some (recL 5), recL 5,
      by decide +kernel⟩,
    ⟨atEng (withRec tabL) (jobL 6 2 16), 62, jobL 6 2 16, dL, dL.partition, 0x0A010000, 16, 6, some (recL 5), recL 5,
      by decide +kernel⟩,
    ⟨atEng (withRec tabL) (jobL 7 0 16), 62, jobL 7 0 16, dL, dL.partition, 0x0A010000, 16, 7, some (recL 5), recL 5,
      by decide +kernel⟩,
    ⟨atEng (withRec tabL) (jobL 4 0 16), 62, jobL 4 0 16, dL, dL.partition, 0x0A010000, 16, 4, some (recL 5), recL 5,
      by decide +kernel⟩,
    ⟨atEng tabL (jobL 7 0 16), 62, jobL 7 0 16, dL, dL.partition, 0x0A010000, 16, 7, none, by decide +kernel⟩,
    ⟨atEng tabL (jobL 6 0 15), 62, jobL 6 0 15, dL, dL.partition, 0x0A010000, 15, 6, by decide +kernel⟩⟩

theorem witness_MovesAndAging :
    (∃ (s : State) (x : Sys2Proof.Partition) (j : EngJob) (a : ℕ) (b : ℕ), Runs s ∧ (s.eng x.val).jobs = [j] ∧ j.moves
      = [(a, b)] ∧ a ≠ b ∧ (s.eng x.val).stash.length < 4) ∧
    (∃ (s : State) (x : Sys2Proof.Partition), Runs s ∧ 4 ≤ (s.eng x.val).stash.length) ∧
    (∃ (s : State) (n : Table), Runs s ∧ s.get (O.AGE_TICK n.val) ≠ 0 ∧ s.get (O.TABLE_KIND n.val) = 1) ∧
    (∃ (s : State) (n : Table), Runs s ∧ (s.get (O.AGE_TICK n.val) = 0 ∨ s.get (O.TABLE_KIND n.val) ≠ 1)) ∧
    (∃ (s : State) (n : Table) (d : Decl) (b : ℕ), Runs s ∧ d = s.decl n.val ∧ b = look 0 s.lookup.scanAt n.val % max
      d.size 1 ∧ s.get (O.AGE_TICK n.val) ≠ 0 ∧ d.kind = 1) ∧
    (∃ (s : State) (n : Table) (d : Decl) (q : AgeReq) (rest : List AgeReq), Runs s ∧ d = s.decl n.val ∧ (s.eng
      d.partition).deletes = q :: rest ∧ (q.table ≠ n.val ∨ q.ahead ≠ 0 ∨ s.engIdle d.partition = false)) ∧
    (∃ (s : State) (n : Table) (d : Decl) (q : AgeReq) (rest : List AgeReq) (v : ℕ), Runs s ∧ d = s.decl n.val ∧
      (s.eng d.partition).deletes = q :: rest ∧ q.table = n.val ∧ q.ahead = 0 ∧ (s.eng d.partition).jobs = [] ∧
      s.findKey d q.key = some v ∧ entryStatic (s.unit v) = false ∧ s.get (O.AGE_LIMIT n.val) ≤ s.ageOf n.val (s.unit
      v) ∧ s.faults.damage = []) ∧
    (∃ (s : State) (n : Table) (d : Decl) (q : AgeReq) (rest : List AgeReq), Runs s ∧ d = s.decl n.val ∧ (s.eng
      d.partition).deletes = q :: rest ∧ q.table = n.val ∧ q.ahead = 0 ∧ s.engIdle d.partition = true ∧
      s.faults.damage = [] ∧ (∀ (v : ℕ), s.findKey d q.key = some v → entryStatic (s.unit v) = true ∨ s.ageOf n.val
      (s.unit v) < s.get (O.AGE_LIMIT n.val))) ∧
    (∃ (s : State) (n : Table), Runs s ∧ (s.eng (s.decl n.val).partition).deletes = []) ∧
    (∃ (s : State) (x : Sys2Proof.Partition) (k : ℕ × ℕ) (rest : List (ℕ × ℕ)) (v : ℕ), Runs s ∧ (s.eng x.val).refresh
      = k :: rest ∧ s.engIdle x.val = true ∧ s.faults.damage = [] ∧ s.findKey (s.decl k.1) k.2 = some v) ∧
    (∃ (s : State) (x : Sys2Proof.Partition) (k : ℕ × ℕ) (rest : List (ℕ × ℕ)), Runs s ∧ (s.eng x.val).refresh = k ::
      rest ∧ s.engIdle x.val = true ∧ s.faults.damage = [] ∧ s.findKey (s.decl k.1) k.2 = none) ∧
    (∃ (s : State) (x : Sys2Proof.Partition), Runs s ∧ (s.engIdle x.val = false ∨ (s.eng x.val).refresh = [])) :=
  ⟨⟨(tabX.putUnit 4 7).putEng 0
      { EngX.reset with stash := List.replicate 3 ⟨63, 5⟩, jobs := [{ jobX 1 0 with moves := [(4, 8)] }] }, 0,
      { jobX 1 0 with moves := [(4, 8)] }, 4, 8, by decide +kernel⟩,
    ⟨(tabX.putUnit 4 7).putEng 0
      { EngX.reset with stash := List.replicate 4 ⟨63, 5⟩, jobs := [{ jobX 1 0 with moves := [(4, 8)] }] }, 0,
      by decide +kernel⟩,
    ⟨(tabX.set (O.AGE_TICK 63) 1).set (O.AGE_CLOCK 63) 65535, 63, by decide +kernel⟩,
    ⟨tabX, 63, by decide +kernel⟩,
    ⟨(holdsKey 3).set (O.AGE_TICK 63) 1, 63, dX, 0, by decide +kernel⟩,
    ⟨(((holdsKey 1).set (O.AGE_LIMIT 63) 9).set (O.AGE_CLOCK 63) 9).putEng 0
      { EngX.reset with deletes := [⟨63, key3, 1⟩] }, 63, dX, ⟨63, key3, 1⟩, [], by decide +kernel⟩,
    ⟨((((holdsKey 1).set (O.AGE_LIMIT 63) 9).set (O.AGE_CLOCK 63) 9).set (O.AGE_TICK 63) 1).putEng 0
      { EngX.reset with deletes := [⟨63, key3, 0⟩] }, 63, dX, ⟨63, key3, 0⟩, [], (dX.candidates key3).headD 0,
      by decide +kernel⟩,
    ⟨tabX.putEng 0 { EngX.reset with deletes := [⟨63, key3, 0⟩] }, 63, dX, ⟨63, key3, 0⟩, [], by decide +kernel⟩,
    ⟨tabX, 63, by decide +kernel⟩,
    ⟨((holdsKey 5).set (O.AGE_CLOCK 63) 9).putEng 0 { EngX.reset with refresh := [(63, key3)] }, 0, (63, key3), [],
      (dX.candidates key3).headD 0, by decide +kernel⟩,
    ⟨tabX.putEng 0 { EngX.reset with refresh := [(63, key3)] }, 0, (63, key3), [], by decide +kernel⟩,
    ⟨atEng tabX (jobX 1 0), 0, by decide +kernel⟩⟩

theorem witness_MatchStagesAndLearning :
    (∃ (s : State) (t : Tile) (q : Port) (k : Pkt) (v : State) (g : ℕ), Runs s ∧ s.matchHead q.val = some k ∧ k.tile =
      t.val ∧ k.phase = Phase.reorder ∧ (v =   ((fresh s).putTile t.val
      ({ s.tile t.val with reorder := List.filter (fun x => x != k.fid) (s.tile t.val).reorder })).count64
      (O.MATCH_COUNTS t.val 1)) ∧ k.toHost = some g) ∧
    (∃ (s : State) (t : Tile) (q : Port) (k : Pkt) (v : State) (c : ℕ) (a : ActSet) (g : Gather) (u : State) (w :
      State), Runs s ∧ s.matchHead q.val = some k ∧ k.tile = t.val ∧ k.phase = Phase.reorder ∧ (v =   ((fresh
      s).putTile t.val
      ({ s.tile t.val with reorder := List.filter (fun x => x != k.fid) (s.tile t.val).reorder })).count64
      (O.MATCH_COUNTS t.val 1)) ∧ k.toHost = none ∧ ((if k.dflt = true then v.defaultMatch k else v.fullMatch k) = (c,
      a, g, u)) ∧ c ≠ 0 ∧ (w = (if c = 7 then u.count64 (O.MATCH_COUNTS t.val 6) else u).offer k c a g)) ∧
    (∃ (s : State) (t : Tile) (q : Port) (k : Pkt) (v : State) (a : ActSet) (g : Gather) (u : State) (c : ℕ) (l : Pkt)
      (w : State), Runs s ∧ s.matchHead q.val = some k ∧ k.tile = t.val ∧ k.phase = Phase.reorder ∧ (v =   ((fresh
      s).putTile t.val
      ({ s.tile t.val with reorder := List.filter (fun x => x != k.fid) (s.tile t.val).reorder })).count64
      (O.MATCH_COUNTS t.val 1)) ∧ k.toHost = none ∧ k.dflt = false ∧ v.fullMatch k = (0, a, g, u) ∧ u.matchPolice k a
      = (c, l, w)) ∧
    (∃ (s : State) (t : Tile) (q : Port) (k : Pkt) (v : State) (a : ActSet) (g : Gather) (u : State), Runs s ∧
      s.matchHead q.val = some k ∧ k.tile = t.val ∧ k.phase = Phase.reorder ∧ (v =   ((fresh s).putTile t.val
      ({ s.tile t.val with reorder := List.filter (fun x => x != k.fid) (s.tile t.val).reorder })).count64
      (O.MATCH_COUNTS t.val 1)) ∧ k.toHost = none ∧ k.dflt = true ∧ v.defaultMatch k = (0, a, g, u)) ∧
    (∃ (s : State) (t : Tile) (q : Port) (k : Pkt), Runs s ∧ s.matchHead q.val = some k ∧ (k.tile ≠ t.val ∨ k.phase ≠
      Phase.reorder)) ∧
    (∃ (s : State) (y : Sighting) (r : List Sighting), Runs s ∧ s.lookup.offered = y :: r ∧ s.cached y.key = none ∧
      s.lookup.cache.length < 16384) ∧
    (∃ (s : State) (y : Sighting) (r : List Sighting) (e : LearnE), Runs s ∧ s.lookup.offered = y :: r ∧ s.cached
      y.key = some e ∧ s.windowOpen e = true ∧ e.port = y.port) ∧
    (∃ (s : State) (y : Sighting) (r : List Sighting) (e : LearnE), Runs s ∧ s.lookup.offered = y :: r ∧ s.cached
      y.key = some e ∧ s.windowOpen e = true ∧ e.port ≠ y.port ∧ e.contested = false) ∧
    (∃ (s : State) (y : Sighting) (r : List Sighting) (e : LearnE), Runs s ∧ s.lookup.offered = y :: r ∧ s.cached
      y.key = some e ∧ s.windowOpen e = true ∧ e.port ≠ y.port ∧ e.contested = true) ∧
    (∃ (s : State) (k : Pkt) (x : PlanStep) (d : Decl) (key : ℕ) (l : List ℕ) (v : ℕ) (r' : List ℕ), Runs s ∧ d =
      s.declP k x.table ∧ s.faults.damage = [] ∧ d.kind = 1 ∧ key = d.key (x.key k.ctx) ∧ s.stashOf x.table d = l ++ v
      :: r' ∧ ((fun v => entryValid v = true ∧ entryKey v = key) v) ∧ (∀ w ∈ l, ¬(fun v => entryValid v = true ∧
      entryKey v = key) w)) ∧
    (∃ (s : State) (k : Pkt) (x : PlanStep) (d : Decl) (key : ℕ) (l : List ℕ) (w : ℕ) (r' : List ℕ), Runs s ∧ d =
      s.declP k x.table ∧ s.faults.damage = [] ∧ d.kind = 1 ∧ key = d.key (x.key k.ctx) ∧ (∀ v ∈ s.stashOf x.table d,
      ¬(fun v => entryValid v = true ∧ entryKey v = key) v) ∧ d.candidates key = l ++ w :: r' ∧ ((fun v => entryValid
      v = true ∧ entryKey v = key) (s.unit w)) ∧ (∀ z ∈ l, ¬(fun v => entryValid v = true ∧ entryKey v = key) (s.unit
      z)) ∧ x.role ≠ 2 ∧ bits (entryAction (s.unit w)) 23 22 ≠ 0) ∧
    (∃ (s : State) (k : Pkt) (x : PlanStep) (d : Decl) (key : ℕ), Runs s ∧ d = s.declP k x.table ∧ s.faults.damage =
      [] ∧ d.kind = 1 ∧ key = d.key (x.key k.ctx) ∧ (∀ v ∈ s.stashOf x.table d, ¬(fun v => entryValid v = true ∧
      entryKey v = key) v) ∧ (∀ w ∈ d.candidates key, ¬(fun v => entryValid v = true ∧ entryKey v = key) (s.unit w))) ∧
    (∃ (s : State) (k : Pkt) (x : PlanStep) (d : Decl) (key : ℕ), Runs s ∧ d = s.declP k x.table ∧ s.faults.damage =
      [] ∧ (d.kind = 2 ∨ d.kind = 5) ∧ key = beNat (x.key k.ctx) ∧ key < d.size) ∧
    (∃ (s : State) (k : Pkt) (x : PlanStep) (d : Decl) (key : ℕ), Runs s ∧ d = s.declP k x.table ∧ s.faults.damage =
      [] ∧ (d.kind = 2 ∨ d.kind = 5) ∧ key = beNat (x.key k.ctx) ∧ d.size ≤ key) ∧
    (∃ (s : State) (l : List Contrib) (m : List Contrib) (c : Contrib), Runs s ∧ ((fun f => f c.set = true ∧ (∀ e ∈ l,
      f e.set = true → e.prec < c.prec) ∧ ∀ e ∈ m, f e.set = true → e.prec ≤ c.prec) fun x => x.kind != 0)) ∧
    (∃ (s : State) (l : List Contrib) (m : List Contrib) (c : Contrib), Runs s ∧ (∀ e ∈ l ++ c :: m, e.set.kind = 0)) ∧
    (∃ (s : State) (l : List Contrib) (m : List Contrib) (c : Contrib), Runs s ∧ ((fun f => f c.set = true ∧ (∀ e ∈ l,
      f e.set = true → e.prec < c.prec) ∧ ∀ e ∈ m, f e.set = true → e.prec ≤ c.prec) fun x => x.policer.isSome)) ∧
    (∃ (s : State) (l : List Contrib) (m : List Contrib) (c : Contrib), Runs s ∧ ((fun f => f c.set = true ∧ (∀ e ∈ l,
      f e.set = true → e.prec < c.prec) ∧ ∀ e ∈ m, f e.set = true → e.prec ≤ c.prec) fun x => x.mirA.isSome)) ∧
    (∃ (s : State) (l : List Contrib) (m : List Contrib) (c : Contrib), Runs s ∧ ((fun f => f c.set = true ∧ (∀ e ∈ l,
      f e.set = true → e.prec < c.prec) ∧ ∀ e ∈ m, f e.set = true → e.prec ≤ c.prec) fun x => x.mirB.isSome)) ∧
    (∃ (s : State) (l : List Contrib) (m : List Contrib) (c : Contrib), Runs s ∧ ((fun f => f c.set = true ∧ (∀ e ∈ l,
      f e.set = true → e.prec < c.prec) ∧ ∀ e ∈ m, f e.set = true → e.prec ≤ c.prec) fun x => x.vlan % 8 != 0)) ∧
    (∃ (s : State) (l : List Contrib) (m : List Contrib) (c : Contrib), Runs s ∧ ((fun f => f c.set = true ∧ (∀ e ∈ l,
      f e.set = true → e.prec < c.prec) ∧ ∀ e ∈ m, f e.set = true → e.prec ≤ c.prec) fun x => x.copyTo.isSome)) ∧
    (∃ (s : State) (k : Pkt) (g : Gather) (m : Option ActSet) (fault : Bool) (v : State), Runs s ∧ g = (s.runSteps k
      Gather.none (s.planP k)).1 ∧ (s.runSteps k Gather.none (s.planP k)).2.mamStep k = (m, fault, v) ∧ g.bad = false
      ∧ m ≠ none ∧ fault = true) ∧
    (∃ (s : State) (k : Pkt) (g : Gather) (m : Option ActSet) (fault : Bool) (v : State), Runs s ∧ g = (s.runSteps k
      Gather.none (s.planP k)).1 ∧ (s.runSteps k Gather.none (s.planP k)).2.mamStep k = (m, fault, v) ∧ g.bad = false
      ∧ m ≠ none ∧ fault = false ∧ g.locked = true) ∧
    (∃ (s : State) (k : Pkt) (g : Gather) (m : Option ActSet) (fault : Bool) (v : State), Runs s ∧ g = (s.runSteps k
      Gather.none (s.planP k)).1 ∧ (s.runSteps k Gather.none (s.planP k)).2.mamStep k = (m, fault, v) ∧ g.bad = false
      ∧ m ≠ none ∧ fault = false ∧ g.locked = false ∧ (combine (g.sets ++
      [{ prec := s.getP k.applied (O.MAM_PRECEDENCE k.tile), set := m.getD ActSet.none }])).kind = 0) ∧
    (∃ (s : State) (k : Pkt) (g : Gather) (m : Option ActSet) (fault : Bool) (v : State), Runs s ∧ g = (s.runSteps k
      Gather.none (s.planP k)).1 ∧ (s.runSteps k Gather.none (s.planP k)).2.mamStep k = (m, fault, v) ∧ g.bad = false
      ∧ m ≠ none ∧ fault = false ∧ g.locked = false ∧ (combine (g.sets ++
      [{ prec := s.getP k.applied (O.MAM_PRECEDENCE k.tile), set := m.getD ActSet.none }])).kind = 4) ∧
    (∃ (s : State) (k : Pkt) (g : Gather) (m : Option ActSet) (fault : Bool) (v : State), Runs s ∧ g = (s.runSteps k
      Gather.none (s.planP k)).1 ∧ (s.runSteps k Gather.none (s.planP k)).2.mamStep k = (m, fault, v) ∧ g.bad = false
      ∧ m ≠ none ∧ fault = false ∧ g.locked = false ∧ ((combine (g.sets ++
      [{ prec := s.getP k.applied (O.MAM_PRECEDENCE k.tile), set := m.getD ActSet.none }])).kind = 1 ∨ (combine
      (g.sets ++ [{ prec := s.getP k.applied (O.MAM_PRECEDENCE k.tile), set := m.getD ActSet.none }])).kind = 2 ∨
      (combine (g.sets ++ [{ prec := s.getP k.applied (O.MAM_PRECEDENCE k.tile), set := m.getD ActSet.none }])).kind =
      3)) ∧
    (∃ (s : State) (k : Pkt) (g : Gather) (m : Option ActSet) (fault : Bool) (v : State) (d : ActSet), Runs s ∧ g =
      (s.runSteps k Gather.none (s.planP k)).1 ∧ (s.runSteps k Gather.none (s.planP k)).2.mamStep k = (m, fault, v) ∧
      g.bad = false ∧ m ≠ none ∧ fault = false ∧ g.locked = false ∧ (combine (g.sets ++
      [{ prec := s.getP k.applied (O.MAM_PRECEDENCE k.tile), set := m.getD ActSet.none }])).kind = 5 ∧ g.domain = some
      d ∧ d.kind = 2) ∧
    (∃ (s : State) (k : Pkt) (g : Gather) (m : Option ActSet) (fault : Bool) (v : State), Runs s ∧ g = (s.runSteps k
      Gather.none (s.planP k)).1 ∧ (s.runSteps k Gather.none (s.planP k)).2.mamStep k = (m, fault, v) ∧ g.bad = false
      ∧ m ≠ none ∧ fault = false ∧ g.locked = false ∧ (combine (g.sets ++
      [{ prec := s.getP k.applied (O.MAM_PRECEDENCE k.tile), set := m.getD ActSet.none }])).kind = 5 ∧ (∀ (d :
      ActSet), g.domain = some d → d.kind ≠ 2)) ∧
    (∃ (s : State) (t : Tile) (d : Damage), Runs s ∧ s.faults.damage = [d] ∧ d.source = 928 + t.val ∧ d.told = false) ∧
    (∃ (s : State) (p : Sys2Proof.Path), Runs s ∧ Takes s p O.CACHE_FLUSH) :=
  ⟨⟨reordered { inReorder with toHost := some 9 }, 5, 80, { inReorder with toHost := some 9 }, counted (reordered
      { inReorder with toHost := some 9 }) { inReorder with toHost := some 9 }, 9, by decide +kernel⟩,
    ⟨(reordered inReorder), 5, 80, inReorder, counted (reordered inReorder) inReorder, (full (reordered inReorder)
      inReorder).1, (full (reordered inReorder) inReorder).2.1, (full (reordered inReorder) inReorder).2.2.1, (full
      (reordered inReorder) inReorder).2.2.2, (if (full (reordered inReorder) inReorder).1 = 7 then (full (reordered
      inReorder) inReorder).2.2.2.count64 (O.MATCH_COUNTS 5 6) else (full (reordered inReorder)
      inReorder).2.2.2).offer inReorder (full (reordered inReorder) inReorder).1 (full (reordered inReorder)
      inReorder).2.1 (full (reordered inReorder) inReorder).2.2.1, by decide +kernel⟩,
    ⟨(withRow (reordered inReorder)), 5, 80, inReorder, counted (withRow (reordered inReorder)) inReorder, (full
      (withRow (reordered inReorder)) inReorder).2.1, (full (withRow (reordered inReorder)) inReorder).2.2.1, (full
      (withRow (reordered inReorder)) inReorder).2.2.2, ((full (withRow (reordered inReorder))
      inReorder).2.2.2.matchPolice inReorder (full (withRow (reordered inReorder)) inReorder).2.1).1, ((full (withRow
      (reordered inReorder)) inReorder).2.2.2.matchPolice inReorder (full (withRow (reordered inReorder))
      inReorder).2.1).2.1, ((full (withRow (reordered inReorder)) inReorder).2.2.2.matchPolice inReorder (full
      (withRow (reordered inReorder)) inReorder).2.1).2.2, by decide +kernel⟩,
    ⟨reordered { inReorder with dflt := true }, 5, 80, { inReorder with dflt := true }, counted (reordered
      { inReorder with dflt := true }) { inReorder with dflt := true }, (dflt (reordered
      { inReorder with dflt := true }) { inReorder with dflt := true }).2.1, (dflt (reordered
      { inReorder with dflt := true }) { inReorder with dflt := true }).2.2.1, (dflt (reordered
      { inReorder with dflt := true }) { inReorder with dflt := true }).2.2.2, by decide +kernel⟩,
    ⟨reordered inReorder, 6, 80, inReorder, by decide +kernel⟩,
    ⟨{ sighted 5 false with lookup := { (sighted 5 false).lookup with cache := [] } }, ⟨7, 5, 0, 0, 0, none, false,
      false, 0⟩, [], by decide +kernel⟩,
    ⟨sighted 5 false, ⟨7, 5, 0, 0, 0, none, false, false, 0⟩, [], ⟨7, 5, 1, 0, 0, false⟩, by decide +kernel⟩,
    ⟨sighted 6 false, ⟨7, 5, 0, 0, 0, none, false, false, 0⟩, [], ⟨7, 6, 1, 0, 0, false⟩, by decide +kernel⟩,
    ⟨sighted 6 true, ⟨7, 5, 0, 0, 0, none, false, false, 0⟩, [], ⟨7, 6, 1, 0, 0, true⟩, by decide +kernel⟩,
    ⟨inStash 4 0, kp, stp 63 0 3, dX, key3, [], mkEntry key3 5 0 1, [], by decide +kernel⟩,
    ⟨tabX.putUnit ((dX.candidates key3).headD 0) (mkEntry key3 (2 ^ 22 + 5) 0 1), kp, stp 63 0 3, dX, key3, [],
      (dX.candidates key3).headD 0, (dX.candidates key3).tail, by decide +kernel⟩,
    ⟨tabX, kp, stp 63 0 3, dX, key3, by decide +kernel⟩,
    ⟨tabD, kp, stp 61 0 1, dD, 1, by decide +kernel⟩,
    ⟨tabD, kp, stp 61 3 1, dD, 200, by decide +kernel⟩,
    ⟨up, [con 2], [con 4], con 4, by decide +kernel⟩,
    ⟨up, [], [], ⟨1, ActSet.none⟩, by decide +kernel⟩,
    ⟨up, [con 2], [con 4], con 4, by decide +kernel⟩,
    ⟨up, [con 2], [con 4], con 4, by decide +kernel⟩,
    ⟨up, [con 2], [con 4], con 4, by decide +kernel⟩,
    ⟨up, [con 2], [con 4], con 4, by decide +kernel⟩,
    ⟨up, [con 2], [con 4], con 4, by decide +kernel⟩,
    ⟨hurt (up.set (O.MAM_FAULT_ACTION 5) 0) 0x3A5 9, kp, gth (hurt (up.set (O.MAM_FAULT_ACTION 5) 0) 0x3A5 9), (mam
      (hurt (up.set (O.MAM_FAULT_ACTION 5) 0) 0x3A5 9)).1, (mam (hurt (up.set (O.MAM_FAULT_ACTION 5) 0) 0x3A5 9)).2.1,
      (mam (hurt (up.set (O.MAM_FAULT_ACTION 5) 0) 0x3A5 9)).2.2, by decide +kernel⟩,
    ⟨(planned tabX [(63, 1, 0)]).set (O.SA_LOCK 80) 1, kp, gth ((planned tabX [(63, 1, 0)]).set (O.SA_LOCK 80) 1),
      (mam ((planned tabX [(63, 1, 0)]).set (O.SA_LOCK 80) 1)).1, (mam ((planned tabX [(63, 1, 0)]).set (O.SA_LOCK 80)
      1)).2.1, (mam ((planned tabX [(63, 1, 0)]).set (O.SA_LOCK 80) 1)).2.2, by decide +kernel⟩,
    ⟨up, kp, gth (up), (mam (up)).1, (mam (up)).2.1, (mam (up)).2.2, by decide +kernel⟩,
    ⟨planned tabX [(63, 0, 2)], kp, gth (planned tabX [(63, 0, 2)]), (mam (planned tabX [(63, 0, 2)])).1, (mam
      (planned tabX [(63, 0, 2)])).2.1, (mam (planned tabX [(63, 0, 2)])).2.2, by decide +kernel⟩,
    ⟨planned tabX [(63, 0, 3)], kp, gth (planned tabX [(63, 0, 3)]), (mam (planned tabX [(63, 0, 3)])).1, (mam
      (planned tabX [(63, 0, 3)])).2.1, (mam (planned tabX [(63, 0, 3)])).2.2, by decide +kernel⟩,
    ⟨planned ((tabD.set (O.TABLE_KIND 63) 1).set (O.TABLE_SIZE 63) 64) [(61, 3, 0), (63, 0, 1)], kp, gth (planned
      ((tabD.set (O.TABLE_KIND 63) 1).set (O.TABLE_SIZE 63) 64) [(61, 3, 0), (63, 0, 1)]), (mam (planned ((tabD.set
      (O.TABLE_KIND 63) 1).set (O.TABLE_SIZE 63) 64) [(61, 3, 0), (63, 0, 1)])).1, (mam (planned ((tabD.set
      (O.TABLE_KIND 63) 1).set (O.TABLE_SIZE 63) 64) [(61, 3, 0), (63, 0, 1)])).2.1, (mam (planned ((tabD.set
      (O.TABLE_KIND 63) 1).set (O.TABLE_SIZE 63) 64) [(61, 3, 0), (63, 0, 1)])).2.2,
      { ActSet.none with kind := 2, value := 7 }, by decide +kernel⟩,
    ⟨planned tabX [(63, 0, 1)], kp, gth (planned tabX [(63, 0, 1)]), (mam (planned tabX [(63, 0, 1)])).1, (mam
      (planned tabX [(63, 0, 1)])).2.1, (mam (planned tabX [(63, 0, 1)])).2.2, by decide +kernel⟩,
    ⟨hurt up 0x3A5 9, 5, ⟨0x3A5, 9, 2, false, false⟩, by decide +kernel⟩,
    ⟨sighted 6 true, .window 0, by decide +kernel⟩⟩

theorem witness_EnqueueAndRelease :
    (∃ (s : State) (t : Tile) (q : Port) (k : Pkt) (d : List Dest × Pkt × State), Runs s ∧ (List.find? (fun k => k.src
      == Src.port q.val && k.phase == Phase.matched && k.tile == t.val) s.buf.pkts = some k) ∧ d = (fresh
      s).destinations k ∧ d.1 = []) ∧
    (∃ (s : State) (t : Tile) (q : Port) (k : Pkt) (d : List Dest × Pkt × State) (v : Pkt), Runs s ∧ (List.find? (fun
      k => k.src == Src.port q.val && k.phase == Phase.matched && k.tile == t.val) s.buf.pkts = some k) ∧ d = (fresh
      s).destinations k ∧ d.1 ≠ [] ∧ v = { d.2.1 with cls := d.2.2.classOf d.2.1 d.1, charge := d.2.2.chargeOf d.2.1 }
      ∧ d.2.2.allocDesc = none) ∧
    (∃ (s : State) (t : Tile) (q : Port) (k : Pkt) (d : List Dest × Pkt × State) (v : Pkt) (i : ℕ) (g : ℕ) (z : State)
      (r : List Verdict × Pkt × State) (x : Verdict) (rest : List Verdict), Runs s ∧ (List.find? (fun k => k.src ==
      Src.port q.val && k.phase == Phase.matched && k.tile == t.val) s.buf.pkts = some k) ∧ d = (fresh s).destinations
      k ∧ d.1 ≠ [] ∧ v = { d.2.1 with cls := d.2.2.classOf d.2.1 d.1, charge := d.2.2.chargeOf d.2.1 } ∧
      d.2.2.allocDesc = some (i, g, z) ∧ r = z.admitAll v d.1 ∧ r.1 = x :: rest ∧ (∀ e ∈ r.1, e.code ≠ 0)) ∧
    (∃ (s : State) (t : Tile) (q : Port) (k : Pkt) (d : List Dest × Pkt × State) (v : Pkt) (i : ℕ) (g : ℕ) (z : State)
      (r : List Verdict × Pkt × State), Runs s ∧ (List.find? (fun k => k.src == Src.port q.val && k.phase ==
      Phase.matched && k.tile == t.val) s.buf.pkts = some k) ∧ d = (fresh s).destinations k ∧ d.1 ≠ [] ∧ v =
      { d.2.1 with cls := d.2.2.classOf d.2.1 d.1, charge := d.2.2.chargeOf d.2.1 } ∧ d.2.2.allocDesc = some (i, g, z)
      ∧ r = z.admitAll v d.1 ∧ (64 < (List.filter (fun x => x.code == 0) r.1).length) ∧ (z.freeDesc i).get
      O.EXTENSIONS_FREE = 0) ∧
    (∃ (s : State) (t : Tile) (q : Port) (k : Pkt) (d : List Dest × Pkt × State) (v : Pkt) (i : ℕ) (g : ℕ) (z : State)
      (r : List Verdict × Pkt × State), Runs s ∧ (List.find? (fun k => k.src == Src.port q.val && k.phase ==
      Phase.matched && k.tile == t.val) s.buf.pkts = some k) ∧ d = (fresh s).destinations k ∧ d.1 ≠ [] ∧ v =
      { d.2.1 with cls := d.2.2.classOf d.2.1 d.1, charge := d.2.2.chargeOf d.2.1 } ∧ d.2.2.allocDesc = some (i, g, z)
      ∧ r = z.admitAll v d.1 ∧ (1 ≤ (List.filter (fun x => x.code == 0) r.1).length) ∧ ((List.filter (fun x => x.code
      == 0) r.1).length ≤ 64 ∨ (z.freeDesc i).get O.EXTENSIONS_FREE ≠ 0) ∧ ((z.freeDesc i).get O.QUEUE_ENTRIES_FREE <
      (List.filter (fun x => x.code == 0) r.1).length)) ∧
    (∃ (s : State) (t : Tile) (q : Port) (k : Pkt) (d : List Dest × Pkt × State) (v : Pkt) (i : ℕ) (g : ℕ) (z : State)
      (r : List Verdict × Pkt × State), Runs s ∧ (List.find? (fun k => k.src == Src.port q.val && k.phase ==
      Phase.matched && k.tile == t.val) s.buf.pkts = some k) ∧ d = (fresh s).destinations k ∧ d.1 ≠ [] ∧ v =
      { d.2.1 with cls := d.2.2.classOf d.2.1 d.1, charge := d.2.2.chargeOf d.2.1 } ∧ d.2.2.allocDesc = some (i, g, z)
      ∧ r = z.admitAll v d.1 ∧ (1 ≤ (List.filter (fun x => x.code == 0) r.1).length) ∧ ((List.filter (fun x => x.code
      == 0) r.1).length ≤ 64 ∨ (z.freeDesc i).get O.EXTENSIONS_FREE ≠ 0) ∧ ((List.filter (fun x => x.code == 0)
      r.1).length ≤ (z.freeDesc i).get O.QUEUE_ENTRIES_FREE)) ∧
    (∃ (s : State) (hw : BitVec 27) (tok : BitVec 10) (i : ℕ) (k : ℕ), Runs s ∧ i = hw.toNat % 2 ^ 21 ∧ k = tok.toNat
      ∧ s.byHandle i = none) ∧
    (∃ (s : State) (hw : BitVec 27) (tok : BitVec 10) (i : ℕ) (k : ℕ) (p : Pkt) (v : State), Runs s ∧ i = hw.toNat % 2
      ^ 21 ∧ k = tok.toNat ∧ s.byHandle i = some p ∧ v = ((fresh s).useDesc p).2 ∧ ((fresh s).useDesc p).1 = true) ∧
    (∃ (s : State) (hw : BitVec 27) (tok : BitVec 10) (i : ℕ) (k : ℕ) (p : Pkt) (v : State), Runs s ∧ i = hw.toNat % 2
      ^ 21 ∧ k = tok.toNat ∧ s.byHandle i = some p ∧ v = ((fresh s).useDesc p).2 ∧ ((fresh s).useDesc p).1 = false ∧
      (p.gen ≠ hw.toNat / 2 ^ 21 ∨ p.issued ≤ k)) ∧
    (∃ (s : State) (hw : BitVec 27) (tok : BitVec 10) (i : ℕ) (k : ℕ) (p : Pkt) (v : State), Runs s ∧ i = hw.toNat % 2
      ^ 21 ∧ k = tok.toNat ∧ s.byHandle i = some p ∧ v = ((fresh s).useDesc p).2 ∧ ((fresh s).useDesc p).1 = false ∧
      p.gen = hw.toNat / 2 ^ 21 ∧ k < p.issued ∧ (∀ e ∈ p.holders, e.tok ≠ k)) ∧
    (∃ (s : State) (hw : BitVec 27) (tok : BitVec 10) (i : ℕ) (k : ℕ) (p : Pkt) (v : State) (x : Holder), Runs s ∧ i =
      hw.toNat % 2 ^ 21 ∧ k = tok.toNat ∧ s.byHandle i = some p ∧ v = ((fresh s).useDesc p).2 ∧ ((fresh s).useDesc
      p).1 = false ∧ p.gen = hw.toNat / 2 ^ 21 ∧ k < p.issued ∧ (List.find? (fun x => x.tok == k) p.holders = some x)) ∧
    (∃ (s : State) (e : Queue), Runs s ∧ e.val < 8192) ∧
    (∃ (s : State) (e : Queue) (c : Channel), Runs s ∧ 8192 ≤ e.val ∧ e.val < 8320 ∧ s.get (O.HOSTQ_CHANNEL e.val) =
      c.val) ∧
    (∃ (s : State) (h : Handle) (p : Pkt), Runs s ∧ s.byHandle h.val = some p ∧ p.phase = Phase.returning ∧ p.lost =
      false ∧ p.pools = 0 ∧ p.cls = 0 ∧ p.hroom = false ∧ p.ext = false ∧ (∀ c ∈ p.cells, s.bankUp (bankOfCell c) =
      true ∧ c ∉ s.buf.doomed)) ∧
    (∃ (s : State) (h : Handle), Runs s ∧ s.byHandle h.val = none) ∧
    (∃ (s : State) (hw : BitVec 27) (tok : BitVec 10) (m : Fin 64) (p : Pkt) (x : Holder), Runs s ∧ s.byHandle
      (hw.toNat % 2 ^ 21) = some p ∧ (List.find? (fun x => x.tok == tok.toNat) p.holders = some x) ∧ p.gen = hw.toNat
      / 2 ^ 21 ∧ s.getP p.applied (O.MIRROR_PORT m.val) = 65535) ∧
    (∃ (s : State) (hw : BitVec 27), Runs s ∧ s.byHandle (hw.toNat % 2 ^ 21) = none) :=
  ⟨⟨atEnqueue (matched ActSet.none), 5, 80, matched ActSet.none, dest (atEnqueue (matched ActSet.none)) (matched
      ActSet.none), by decide +kernel⟩,
    ⟨{ atEnqueue toPort with buf := { (atEnqueue toPort).buf with fresh := 2097152 } }, 5, 80, toPort, dest
      ({ atEnqueue toPort with buf := { (atEnqueue toPort).buf with fresh := 2097152 } }) (toPort), pricedP
      ({ atEnqueue toPort with buf := { (atEnqueue toPort).buf with fresh := 2097152 } }) (toPort), by decide +kernel⟩,
    ⟨atEnqueue toHostQ, 5, 80, toHostQ, dest (atEnqueue toHostQ) (toHostQ), pricedP (atEnqueue toHostQ) (toHostQ),
      (alloc (atEnqueue toHostQ) (toHostQ)).1, (alloc (atEnqueue toHostQ) (toHostQ)).2.1, (alloc (atEnqueue toHostQ)
      (toHostQ)).2.2, verdicts (atEnqueue toHostQ) (toHostQ), ⟨⟨8197, .host, 0⟩, 0xF6, .shared, 0⟩, [],
      by decide +kernel⟩,
    ⟨crowd 0, 5, 80, toGroup, dest (crowd 0) (toGroup), pricedP (crowd 0) (toGroup), (alloc (crowd 0) (toGroup)).1,
      (alloc (crowd 0) (toGroup)).2.1, (alloc (crowd 0) (toGroup)).2.2, verdicts (crowd 0) (toGroup),
      by decide +kernel⟩,
    ⟨(atEnqueue toPort).set O.QUEUE_ENTRIES_FREE 0, 5, 80, toPort, dest ((atEnqueue toPort).set O.QUEUE_ENTRIES_FREE
      0) (toPort), pricedP ((atEnqueue toPort).set O.QUEUE_ENTRIES_FREE 0) (toPort), (alloc ((atEnqueue toPort).set
      O.QUEUE_ENTRIES_FREE 0) (toPort)).1, (alloc ((atEnqueue toPort).set O.QUEUE_ENTRIES_FREE 0) (toPort)).2.1,
      (alloc ((atEnqueue toPort).set O.QUEUE_ENTRIES_FREE 0) (toPort)).2.2, verdicts ((atEnqueue toPort).set
      O.QUEUE_ENTRIES_FREE 0) (toPort), by decide +kernel⟩,
    ⟨atEnqueue toPort, 5, 80, toPort, dest (atEnqueue toPort) (toPort), pricedP (atEnqueue toPort) (toPort), (alloc
      (atEnqueue toPort) (toPort)).1, (alloc (atEnqueue toPort) (toPort)).2.1, (alloc (atEnqueue toPort)
      (toPort)).2.2, verdicts (atEnqueue toPort) (toPort), by decide +kernel⟩,
    ⟨up, word 3, 1023, 2097151, 1023, by decide +kernel⟩,
    ⟨holding lostP, word 63, 1, 2097151, 1, lostP, ((fresh (holding (lostP))).useDesc (lostP)).2, by decide +kernel⟩,
    ⟨holding (held9 .enqueued), word 63, 1, 2097151, 1, held9 .enqueued, ((fresh (holding (held9 .enqueued))).useDesc
      (held9 .enqueued)).2, by decide +kernel⟩,
    ⟨holding (held9 .enqueued), word 62, 0, 2097151, 0, held9 .enqueued, ((fresh (holding (held9 .enqueued))).useDesc
      (held9 .enqueued)).2, by decide +kernel⟩,
    ⟨holding (held9 .enqueued), word 62, 1, 2097151, 1, held9 .enqueued, ((fresh (holding (held9 .enqueued))).useDesc
      (held9 .enqueued)).2, heldBy 8179, by decide +kernel⟩,
    ⟨up, 8191, by decide +kernel⟩,
    ⟨up.set (O.HOSTQ_CHANNEL 8319) 3, 8319, 3, by decide +kernel⟩,
    ⟨holding (held9 .returning), 2097151, held9 .returning, by decide +kernel⟩,
    ⟨up, 2097151, by decide +kernel⟩,
    ⟨holding (held9 .enqueued), word 62, 1, 63, held9 .enqueued, heldBy 8179, by decide +kernel⟩,
    ⟨up, word 62, by decide +kernel⟩⟩

theorem witness_BanksSweepsAndReadOut :
    (∃ (s : State) (p : Sys2Proof.Path) (k : BufBank), Runs s ∧ Takes s p (O.BANK_ISOLATE k.val) ∧ s.get
      (O.BUF_BANK_STATE k.val) = BankSt.inService) ∧
    (∃ (s : State) (p : Sys2Proof.Path) (k : BufBank), Runs s ∧ Takes s p (O.BANK_ISOLATE k.val) ∧ s.get
      (O.BUF_BANK_STATE k.val) ≠ BankSt.inService) ∧
    (∃ (s : State) (k : BufBank) (c : ℕ) (n : ℕ) (v : State), Runs s ∧ s.get (O.BUF_BANK_STATE k.val) =
      BankSt.remapping ∧ (List.find? (fun x => bankOfCell x == k.val) s.buf.used = some c) ∧ (fresh s).grantCell =
      some (n, v) ∧ (∀ q ∈ s.buf.pkts, c ∉ q.cells) ∧ (∀ e ∈ s.tiles, e.2.postRecs.length < 24) ∧ s.damaged (1024 +
      bankOfCell c) c = none) ∧
    (∃ (s : State) (k : BufBank) (c : ℕ) (n : ℕ) (v : State), Runs s ∧ s.get (O.BUF_BANK_STATE k.val) =
      BankSt.remapping ∧ (List.find? (fun x => bankOfCell x == k.val) s.buf.used = some c) ∧ (fresh s).grantCell =
      some (n, v) ∧ s.faults.damage = [] ∧ s.faults.armed = [] ∧ (∀ e ∈ s.tiles, e.2.postRecs.length < 24)) ∧
    (∃ (s : State) (k : BufBank), Runs s ∧ s.get (O.BUF_BANK_STATE k.val) = BankSt.remapping ∧ (∀ c ∈ s.buf.used,
      bankOfCell c ≠ k.val)) ∧
    (∃ (s : State) (p : Sys2Proof.Path) (k : BufBank), Runs s ∧ Takes s p (O.BANK_RESTORE k.val) ∧ s.get
      (O.BUF_BANK_STATE k.val) = BankSt.isolated) ∧
    (∃ (s : State) (p : Sys2Proof.Path) (k : BufBank), Runs s ∧ Takes s p (O.BANK_RESTORE k.val) ∧ s.get
      (O.BUF_BANK_STATE k.val) ≠ BankSt.isolated) ∧
    (∃ (s : State) (k : BufBank), Runs s ∧ s.get (O.BUF_BANK_STATE k.val) = BankSt.restoring) ∧
    (∃ (s : State) (p : Sys2Proof.Path), Runs s ∧ Takes s p O.ORPHAN_SWEEP) ∧
    (∃ (s : State), Runs s ∧ s.sys.sweepNext = [] ∧ s.cmdRunning O.ORPHAN_SWEEP = true) ∧
    (∃ (s : State) (f : ℕ) (q : Pkt), Runs s ∧ s.sys.sweepNext = [f] ∧ s.pkt? f = some q ∧ s.cmdRunning O.ORPHAN_SWEEP
      = false) ∧
    (∃ (s : State) (p : Sys2Proof.Path) (d : List Byte) (q : Pkt), Runs s ∧ Takes s p O.DESCRIPTOR_READ ∧ d.length = 4
      ∧ leNat d < 2097152 ∧ s.byHandle (leNat d) = some q) ∧
    (∃ (s : State) (p : Sys2Proof.Path) (d : List Byte), Runs s ∧ Takes s p O.DESCRIPTOR_READ ∧ d.length = 4 ∧ leNat d
      < 2097152 ∧ s.byHandle (leNat d) = none) ∧
    (∃ (s : State) (p : Sys2Proof.Path) (d : List Byte), Runs s ∧ Takes s p O.DESCRIPTOR_READ ∧ d.length = 4 ∧ 2097152
      ≤ leNat d) ∧
    (∃ (s : State) (p : Sys2Proof.Path) (d : List Byte), Runs s ∧ Takes s p O.DESCRIPTOR_READ ∧ d.length ≠ 4) ∧
    (∃ (s : State) (p : Sys2Proof.Path), Runs s ∧ Takes s p O.SNAPSHOT) :=
  ⟨⟨bank 0 [191 * 8192], .window 0, 191, by decide +kernel⟩,
    ⟨bank 1 [191 * 8192], .window 0, 191, by decide +kernel⟩,
    ⟨bank 1 [191 * 8192 + 8191], 191, 191 * 8192 + 8191, ((fresh (bank 1 [191 * 8192 + 8191])).grantCell.getD (0,
      up)).1, ((fresh (bank 1 [191 * 8192 + 8191])).grantCell.getD (0, up)).2, by decide +kernel⟩,
    ⟨bank 1 [191 * 8192 + 8191], 191, 191 * 8192 + 8191, ((fresh (bank 1 [191 * 8192 + 8191])).grantCell.getD (0,
      up)).1, ((fresh (bank 1 [191 * 8192 + 8191])).grantCell.getD (0, up)).2, by decide +kernel⟩,
    ⟨(bank 1 [5]).cmdRun (O.BANK_ISOLATE 191), 191, by decide +kernel⟩,
    ⟨bank 2 [5], .window 0, 191, by decide +kernel⟩,
    ⟨bank 3 [5], .window 0, 191, by decide +kernel⟩,
    ⟨{ bank 3 [5] with buf := { (bank 3 [5]).buf with quar := [191 * 8192], dropped := [191 * 8192 + 1] } }, 191,
      by decide +kernel⟩,
    ⟨holding lostP, .window 0, by decide +kernel⟩,
    ⟨up.cmdRun O.ORPHAN_SWEEP, by decide +kernel⟩,
    ⟨{ holding lostP with sys := { up.sys with sweepNext := [9] } }, 9, lostP, by decide +kernel⟩,
    ⟨holding (held9 .enqueued), .window 0, leBytes 4 2097151, held9 .enqueued, by decide +kernel⟩,
    ⟨up, .window 0, leBytes 4 2097151, by decide +kernel⟩,
    ⟨up, .window 0, leBytes 4 2097152, by decide +kernel⟩,
    ⟨up, .window 0, leBytes 3 5, by decide +kernel⟩,
    ⟨(bank 0 [5]).set (O.POOL_SHARED_USED 7) 9, .window 0, by decide +kernel⟩⟩

theorem witness_TimeBasesAreSetSlewedAndRearmed :
    (∃ (s : State) (p : Sys2Proof.Path) (n : TimeBase) (d : List Byte) (e : List Byte) (i : Instr) (r : Ref) (o : ℤ),
      Runs s ∧ d.length = 12 ∧ e.length = 8 ∧ (i, r, o) ∈ [(Instr.tbSet p n d, O.TB_SET n.val, timeDiff (leNat d)
      (s.tb n.val)), (Instr.tbAdjust p n e, O.TB_ADJUST n.val, toSigned 64 (leNat e))] ∧ Takes s p r ∧ timeNs (leNat
      d) < 1000000000 ∧ s.get (O.SERVO_OWNER n.val) = 1) ∧
    (∃ (s : State) (p : Sys2Proof.Path) (n : TimeBase) (d : List Byte) (e : List Byte) (i : Instr) (r : Ref) (o : ℤ),
      Runs s ∧ d.length = 12 ∧ e.length = 8 ∧ (i, r, o) ∈ [(Instr.tbSet p n d, O.TB_SET n.val, timeDiff (leNat d)
      (s.tb n.val)), (Instr.tbAdjust p n e, O.TB_ADJUST n.val, toSigned 64 (leNat e))] ∧ Takes s p r ∧ timeNs (leNat
      d) < 1000000000 ∧ s.get (O.SERVO_OWNER n.val) ≠ 1 ∧ s.get (O.TB_STATE n.val) = TbState.armed) ∧
    (∃ (s : State) (p : Sys2Proof.Path) (n : TimeBase) (d : List Byte) (e : List Byte) (i : Instr) (r : Ref) (o : ℤ),
      Runs s ∧ d.length = 12 ∧ e.length = 8 ∧ (i, r, o) ∈ [(Instr.tbSet p n d, O.TB_SET n.val, timeDiff (leNat d)
      (s.tb n.val)), (Instr.tbAdjust p n e, O.TB_ADJUST n.val, toSigned 64 (leNat e))] ∧ Takes s p r ∧ timeNs (leNat
      d) < 1000000000 ∧ s.get (O.SERVO_OWNER n.val) ≠ 1 ∧ s.get (O.TB_STATE n.val) = TbState.tracking ∧ -(s.get
      (O.JUMP_THRESHOLD_NS n.val) * 2 ^ 48 * 5).cast ≤ o * slewPerUnit + (s.base n.val).slew ∧ o * slewPerUnit +
      (s.base n.val).slew ≤ (s.get (O.JUMP_THRESHOLD_NS n.val) * 2 ^ 48 * 5).cast) ∧
    (∃ (s : State) (p : Sys2Proof.Path) (n : TimeBase) (d : List Byte) (e : List Byte) (i : Instr) (r : Ref) (o : ℤ),
      Runs s ∧ d.length = 12 ∧ e.length = 8 ∧ (i, r, o) ∈ [(Instr.tbSet p n d, O.TB_SET n.val, timeDiff (leNat d)
      (s.tb n.val)), (Instr.tbAdjust p n e, O.TB_ADJUST n.val, toSigned 64 (leNat e))] ∧ Takes s p r ∧ timeNs (leNat
      d) < 1000000000 ∧ s.get (O.SERVO_OWNER n.val) ≠ 1 ∧ s.get (O.TB_STATE n.val) = TbState.tracking ∧ ((s.get
      (O.JUMP_THRESHOLD_NS n.val) * 2 ^ 48 * 5).cast < o * slewPerUnit + (s.base n.val).slew ∨ o * slewPerUnit +
      (s.base n.val).slew < -(s.get (O.JUMP_THRESHOLD_NS n.val) * 2 ^ 48 * 5).cast)) ∧
    (∃ (s : State) (p : Sys2Proof.Path) (n : TimeBase) (d : List Byte) (e : List Byte) (i : Instr) (r : Ref) (o : ℤ),
      Runs s ∧ d.length = 12 ∧ e.length = 8 ∧ (i, r, o) ∈ [(Instr.tbSet p n d, O.TB_SET n.val, timeDiff (leNat d)
      (s.tb n.val)), (Instr.tbAdjust p n e, O.TB_ADJUST n.val, toSigned 64 (leNat e))] ∧ Takes s p r ∧ timeNs (leNat
      d) < 1000000000 ∧ s.get (O.SERVO_OWNER n.val) ≠ 1 ∧ s.get (O.TB_STATE n.val) = TbState.held) ∧
    (∃ (s : State) (p : Sys2Proof.Path) (n : TimeBase) (d : List Byte) (e : List Byte), Runs s ∧ d.length = 12 ∧
      e.length = 8 ∧ Takes s p (O.TB_SET n.val) ∧ 1000000000 ≤ timeNs (leNat d)) ∧
    (∃ (s : State) (p : Sys2Proof.Path) (n : TimeBase) (d : List Byte) (e : List Byte), Runs s ∧ d.length = 12 ∧
      e.length = 8 ∧ Takes s p (O.TB_REARM n.val) ∧ s.get (O.TB_STATE n.val) = TbState.armed) ∧
    (∃ (s : State) (p : Sys2Proof.Path) (n : TimeBase) (d : List Byte) (e : List Byte) (st : ℕ) (v : State) (w :
      State), Runs s ∧ d.length = 12 ∧ e.length = 8 ∧ Takes s p (O.TB_REARM n.val) ∧ v = ((fresh s).set (O.TB_STATE
      n.val) st).count64 (O.TB_COUNTS n.val 14) ∧ (w =   if s.get (O.SERVO_STATE n.val) = Servo.refused then
      (v.putServo n.val           ({ s.servo n.val with good := 0, bad := 0 })).set       (O.SERVO_STATE n.val)
      Servo.acquiring   else v) ∧ st = TbState.armed ∧ s.get (O.TB_STATE n.val) ≠ TbState.armed) ∧
    (∃ (s : State) (p : Sys2Proof.Path) (n : TimeBase) (d : List Byte) (e : List Byte) (st : ℕ) (v : State) (w :
      State), Runs s ∧ d.length = 12 ∧ e.length = 8 ∧ Takes s p (O.TB_REARM n.val) ∧ v = ((fresh s).set (O.TB_STATE
      n.val) st).count64 (O.TB_COUNTS n.val 14) ∧ (w =   if s.get (O.SERVO_STATE n.val) = Servo.refused then
      (v.putServo n.val           ({ s.servo n.val with good := 0, bad := 0 })).set       (O.SERVO_STATE n.val)
      Servo.acquiring   else v) ∧ st = TbState.tracking ∧ s.get (O.TB_STATE n.val) = TbState.held) ∧
    (∃ (s : State) (p : Sys2Proof.Path) (n : TimeBase) (d : List Byte) (e : List Byte), Runs s ∧ d.length = 12 ∧
      e.length = 8 ∧ Takes s p (O.TB_REARM n.val) ∧ s.get (O.TB_STATE n.val) ≠ TbState.held) ∧
    (∃ (s : State) (n : TimeBase) (d : List Byte) (e : List Byte), Runs s ∧ d.length = 12 ∧ e.length = 8 ∧ (s.base
      n.val).slew ≠ 0 ∧ -(1024 * (slewUnits (s.get (O.SLEW_MAX_PPB n.val))).cast) ≤ (s.base n.val).slew ∧ (s.base
      n.val).slew ≤ 1024 * (slewUnits (s.get (O.SLEW_MAX_PPB n.val))).cast) ∧
    (∃ (s : State) (p : Sys2Proof.Path) (d : List Byte) (e : List Byte), Runs s ∧ d.length = 12 ∧ e.length = 8 ∧ Takes
      s p O.TIME_SNAPSHOT) :=
  ⟨⟨(tbIn 1).set (O.SERVO_OWNER 7) 1, .window 0, 7, sec1, down10, .tbSet (.window 0) 7 sec1, O.TB_SET 7, timeDiff (leNat
      sec1) ((tbIn 1).tb 7), by decide +kernel⟩,
    ⟨tbIn 0, .window 0, 7, sec1, down10, .tbSet (.window 0) 7 sec1, O.TB_SET 7, timeDiff (leNat sec1) ((tbIn 0).tb 7),
      by decide +kernel⟩,
    ⟨tbIn 1, .window 0, 7, sec1, down10, .tbAdjust (.window 0) 7 down10, O.TB_ADJUST 7, -10 * 2 ^ 16,
      by decide +kernel⟩,
    ⟨tbIn 1, .window 0, 7, sec1, down10, .tbSet (.window 0) 7 sec1, O.TB_SET 7, timeDiff (leNat sec1) ((tbIn 1).tb 7),
      by decide +kernel⟩,
    ⟨tbIn 2, .window 0, 7, sec1, down10, .tbSet (.window 0) 7 sec1, O.TB_SET 7, timeDiff (leNat sec1) ((tbIn 1).tb 7),
      by decide +kernel⟩,
    ⟨tbIn 2, .window 0, 7, badNs, down10, by decide +kernel⟩,
    ⟨tbIn 0, .window 0, 7, sec1, down10, by decide +kernel⟩,
    ⟨tbIn 1, .window 0, 7, sec1, down10, 0, rearmed (tbIn 1) 0, acquires (tbIn 1) 0, by decide +kernel⟩,
    ⟨tbIn 2, .window 0, 7, sec1, down10, 1, rearmed (tbIn 2) 1, acquires (tbIn 2) 1, by decide +kernel⟩,
    ⟨tbIn 1, .window 0, 7, sec1, down10, by decide +kernel⟩,
    ⟨(tbIn 1).putBase 7 { Base.reset with sec := 1, slew := -(1024 * slewUnits (up.get (O.SLEW_MAX_PPB 7)) : Int) },
      7, sec1, down10, by decide +kernel⟩,
    ⟨slewing, .window 0, sec1, down10, by decide +kernel⟩⟩

theorem witness_TimeReferencePpsAndServos :
    (∃ (s : State), Runs s ∧ s.time.ramping = true) ∧
    (∃ (s : State), Runs s ∧ s.flag O.PPS_IN_ENABLE = true) ∧
    (∃ (s : State), Runs s ∧ s.flag O.PPS_IN_ENABLE = false) ∧
    (∃ (s : State) (n : TimeBase), Runs s ∧ s.flag (O.PPS_OUT_ENABLE n.val) = true ∧ s.ppsPast n.val < s.time.ran.getD
      n.val 0 ∧ s.ppsHigh? n.val = none) ∧
    (∃ (s : State) (n : TimeBase), Runs s ∧ (s.flag (O.PPS_OUT_ENABLE n.val) = false ∨ s.time.ran.getD n.val 0 ≤
      s.ppsPast n.val)) ∧
    (∃ (s : State) (n : TimeBase) (e : ℕ), Runs s ∧ s.ppsHigh? n.val = some e ∧ e + s.get (O.PPS_OUT_WIDTH_NS n.val) *
      nsU ≤ s.tbUnits n.val) ∧
    (∃ (s : State) (n : TimeBase) (e : ℕ), Runs s ∧ s.ppsHigh? n.val = some e ∧ s.tbUnits n.val < e + s.get
      (O.PPS_OUT_WIDTH_NS n.val) * nsU) ∧
    (∃ (s : State) (n : TimeBase), Runs s ∧ s.servoReady n.val = true ∧ s.get (O.SERVO_MODE n.val) = 2 ∧ s.get
      (O.TB_STATE (s.get (O.SERVO_SOURCE n.val))) = TbState.held) ∧
    (∃ (s : State) (n : TimeBase) (o : ℤ) (rate : ℤ), Runs s ∧ s.servoReady n.val = true ∧ (¬(s.get (O.SERVO_MODE
      n.val) = 2 ∧ s.get (O.TB_STATE (s.get (O.SERVO_SOURCE n.val))) = TbState.held)) ∧ o = s.servoOffset n.val ∧ rate
      = (s.servo n.val).integ + (s.get (O.SERVO_KP n.val)).cast * o ∧ s.get (O.TB_STATE n.val) = TbState.tracking ∧
      -(s.get (O.JUMP_THRESHOLD_NS n.val) * 2 ^ 48 * 5).cast ≤ o * nsU.cast * slewPerUnit + (s.base n.val).slew ∧ o *
      nsU.cast * slewPerUnit + (s.base n.val).slew ≤ (s.get (O.JUMP_THRESHOLD_NS n.val) * 2 ^ 48 * 5).cast) ∧
    (∃ (s : State) (n : TimeBase), Runs s ∧ s.servoReady n.val = false) :=
  ⟨⟨{ up.set O.TIME_REF_SELECT 1 with time := { TimeX.reset with ramping := true } }, by decide +kernel⟩,
    ⟨((tbIn 0).set (O.PPS_ALIGN 7) 1).set O.PPS_IN_ENABLE 1, by decide +kernel⟩,
    ⟨up.set O.PPS_IN_ENABLE 0, by decide +kernel⟩,
    ⟨{ up.set (O.PPS_OUT_ENABLE 7) 1 with time := { TimeX.reset with ran := List.replicate 8 1 } }, 7,
      by decide +kernel⟩,
    ⟨up.set (O.PPS_OUT_ENABLE 7) 0, 7, by decide +kernel⟩,
⟨{ { up with time := { TimeX.reset with ppsHigh := [(7, 100)] } }.set (O.PPS_OUT_WIDTH_NS 7) 0 with time := { TimeX.reset with ppsHigh := [(7, 0)] } },
      7, 0, by decide +kernel⟩,
    ⟨{ up with time := { TimeX.reset with ppsHigh := [(7, 100)] } }, 7, 100, by decide +kernel⟩,
    ⟨servoed 2, 7, by decide +kernel⟩,
    ⟨servoed 1, 7, 3, 15, by decide +kernel⟩,
    ⟨up, 7, by decide +kernel⟩⟩

theorem witness_LedgerReadOutAndExports :
    (∃ (s : State) (p : Sys2Proof.Path) (q : Port), Runs s ∧ Takes s p (O.PORT_SNAPSHOT q.val) ∧ s.isPort q.val =
      true) ∧
    (∃ (s : State) (p : Sys2Proof.Path) (q : Port), Runs s ∧ Takes s p (O.PORT_SNAPSHOT q.val) ∧ s.isPort q.val =
      false) ∧
    (∃ (s : State) (p : Sys2Proof.Path), Runs s ∧ Takes s p O.MATRIX_SWAP ∧ s.bankCleared = true) ∧
    (∃ (s : State) (p : Sys2Proof.Path), Runs s ∧ Takes s p O.MATRIX_SWAP ∧ s.bankCleared = false) ∧
    (∃ (s : State), Runs s ∧ s.cmdRunning O.MATRIX_SWAP = true) ∧
    (∃ (s : State) (p : Sys2Proof.Path), Runs s ∧ Takes s p O.MATRIX_CLEAR) ∧
    (∃ (s : State), Runs s ∧ s.cmdRunning O.MATRIX_CLEAR = true) ∧
    (∃ (s : State) (f : FlowSet), Runs s ∧ (∀ (w : Fin 4), (s.flowRow (f.val * 4 + w.val)).valid = false)) ∧
    (∃ (s : State) (f : FlowSet) (w : Fin 4), Runs s ∧ (∀ (v : Fin 4), v ≠ w → (s.flowRow (f.val * 4 + v.val)).valid =
      false) ∧ (s.flowRow (f.val * 4 + w.val)).valid = true ∧ s.get O.FLOW_IDLE_S * 1000 ≤ (s.ledgerMs + 2 ^ 32 -
      (s.flowRow (f.val * 4 + w.val)).last) % 2 ^ 32) ∧
    (∃ (s : State) (f : FlowSet) (w : Fin 4) (x : FlowRec), Runs s ∧ x = s.flowRow (f.val * 4 + w.val) ∧ (∀ (v : Fin
      4), v ≠ w → ¬(fun x => x.valid = true ∧ s.get O.FLOW_IDLE_S * 1000 ≤ (s.ledgerMs + 2 ^ 32 - x.last) % 2 ^ 32)
      (s.flowRow (f.val * 4 + v.val)) ∧ ¬(fun x => x.valid = true ∧ ¬(fun x => x.valid = true ∧ s.get O.FLOW_IDLE_S *
      1000 ≤ (s.ledgerMs + 2 ^ 32 - x.last) % 2 ^ 32) x ∧ s.get O.FLOW_ACTIVE_S ≠ 0 ∧ s.get O.FLOW_ACTIVE_S * 1000 ≤
      (s.ledgerMs + 2 ^ 32 - x.first) % 2 ^ 32) (s.flowRow (f.val * 4 + v.val))) ∧ ((fun x => x.valid = true ∧ ¬(fun x
      => x.valid = true ∧ s.get O.FLOW_IDLE_S * 1000 ≤ (s.ledgerMs + 2 ^ 32 - x.last) % 2 ^ 32) x ∧ s.get
      O.FLOW_ACTIVE_S ≠ 0 ∧ s.get O.FLOW_ACTIVE_S * 1000 ≤ (s.ledgerMs + 2 ^ 32 - x.first) % 2 ^ 32) x)) ∧
    (∃ (s : State), Runs s ∧ s.exportOpen false = true ∧ s.ledger.flow.waiting < 4096) ∧
    (∃ (s : State), Runs s ∧ (s.exportOpen false = false ∨ 4096 ≤ s.ledger.flow.waiting)) ∧
    (∃ (s : State) (p : Sys2Proof.Path) (rows : List ℕ), Runs s ∧ Takes s p O.FLOW_FLUSH ∧ objsCanonical s.dict.objs =
      true ∧ (rows = List.filter (fun r => (s.flowRow r).valid) (List.map (fun x => x.1.el) (List.filter (fun e =>
      e.1.ref == O.FLOW_CACHE) s.dict.objs)))) ∧
    (∃ (s : State) (p : Sys2Proof.Path), Runs s ∧ Takes s p O.FLOW_FLUSH ∧ (∀ e ∈ s.dict.objs, e.1.ref ≠
      O.FLOW_CACHE)) ∧
    (∃ (s : State), Runs s ∧ s.flag O.FLOW_IPFIX = true ∧ s.fwUp = true) ∧
    (∃ (s : State), Runs s ∧ s.flag O.FLOW_IPFIX = false) ∧
    (∃ (s : State) (t : Tile), Runs s ∧ (s.tile t.val).postRecs = []) ∧
    (∃ (s : State) (t : Tile), Runs s ∧ (s.tile t.val).postRecs ≠ [] ∧ ((fresh s).putTile t.val
      ({ s.tile t.val with postRecs := List.drop (min 24 (s.tile t.val).postRecs.length) (s.tile t.val).postRecs, postSeq := (s.tile t.val).postSeq + 1, postLost := 0 })).deviceFrame
      t.val (s.postcardFrame t.val (min 24 (s.tile t.val).postRecs.length)) =   none) ∧
    (∃ (s : State) (t : Tile) (k : Pkt) (v : State), Runs s ∧ (s.tile t.val).postRecs ≠ [] ∧ (s.tile
      t.val).postRecs.length ≤ 24 ∧ s.get O.POSTCARD_QUEUE < 8192 ∧ ((fresh s).putTile t.val
      ({ s.tile t.val with postRecs := [], postSeq := (s.tile t.val).postSeq + 1, postLost := 0 })).deviceFrame
      t.val (s.postcardFrame t.val (s.tile t.val).postRecs.length) =   some (k, v) ∧ (v.enqueueTo k
      [{ queue := s.get O.POSTCARD_QUEUE, kind := HKind.egress, vlan := 0 }]).1 = 0) :=
  ⟨⟨live511, .window 0, 511, by decide +kernel⟩,
    ⟨up, .window 0, 511, by decide +kernel⟩,
    ⟨up, .window 0, by decide +kernel⟩,
    ⟨{ up with ledger := { up.ledger with cleared := [true, false] } }, .window 0, by decide +kernel⟩,
    ⟨up.cmdRun O.MATRIX_SWAP, by decide +kernel⟩,
    ⟨up, .window 0, by decide +kernel⟩,
    ⟨((up.cmdRun O.MATRIX_CLEAR).set O.MATRIX_BANK_1 5 5).set O.MATRIX_BANK_0 7 5, by decide +kernel⟩,
    ⟨up, 5, by decide +kernel⟩,
    ⟨flowed, 5, 3, by decide +kernel⟩,
    ⟨flowAged, 5, 3, flow1, by decide +kernel⟩,
    ⟨openFlow up, by decide +kernel⟩,
    ⟨up, by decide +kernel⟩,
    ⟨openFlow flowed, .window 0, [23], by decide +kernel⟩,
    ⟨up, .window 0, by decide +kernel⟩,
    ⟨fwUp.set O.FLOW_IPFIX 1, by decide +kernel⟩,
    ⟨fwUp.set O.FLOW_IPFIX 0, by decide +kernel⟩,
    ⟨up, 31, by decide +kernel⟩,
    ⟨noBanks carded, 31, by decide +kernel⟩,
    ⟨carded, 31, (cardFrame.getD (pkt true, up)).1, (cardFrame.getD (pkt true, up)).2, by decide +kernel⟩⟩

theorem witness_TimeBasesAdvanceEachTick :
    (∃ (s : State) (n : TimeBase) (acc : ℤ) (nsf : ℕ), Runs s ∧ s.pending = [] ∧ (∀ x ∈ s.time.steps, x.base ≠ n.val)
      ∧ ((s.base n.val).slew = 0 ∨ 1024 * (slewUnits (s.get (O.SLEW_MAX_PPB n.val))).cast ≤ (s.base n.val).slew ∨
      (s.base n.val).slew ≤ -(1024 * (slewUnits (s.get (O.SLEW_MAX_PPB n.val))).cast)) ∧ acc = (s.base n.val).rem.cast
      + 1125899906842624 + 1024 * s.rateTotal n.val ∧ 0 ≤ acc ∧ nsf = (s.base n.val).nsf + (acc / 5).toNat) ∧
    (∃ (s : State) (n : TimeBase), (s.base n.val).sec < 2 ^ 48 ∧ (s.base n.val).nsf < 1000000000 * 2 ^ 48) ∧
    (∃ (b : Base) (u : Base) (rate : ℤ) (term : ℕ), b.slew = 0 ∧ b.rem < 5 ∧ b.sec < 2 ^ 48 ∧ b.nsf < 1000000000 * 2 ^
      48 ∧ -549755813 ≤ rate ∧ rate ≤ 549755813 ∧ u = ((((b.tick rate term).tick rate term).tick rate term).tick rate
      term).tick rate term) :=
  ⟨⟨up.set (O.TB_RATE 7) (ofSigned 32 (-5)), 7, 0x4000000000000 - 5120, (0x4000000000000 - 5120) / 5, by decide +kernel⟩,
    ⟨slewing, 7, by decide +kernel⟩,
    ⟨topBase, ((((topBase.tick (-549755813) 10995).tick (-549755813) 10995).tick (-549755813) 10995).tick (-549755813)
      10995).tick (-549755813) 10995, -549755813, 10995, by decide +kernel⟩⟩

theorem witness_RateWritesActAtTheNextTick :
    (∃ (s : State) (p : Sys2Proof.Path) (n : TimeBase) (v : ℤ) (d : List Byte), Ready s p ∧ s.leasedAway p 8 = false ∧
      s.dict.busyTabs.contains (O.TB_RATE n.val) = false ∧ -2 ^ 31 ≤ v ∧ v < 2 ^ 31 ∧ d = leBytes 4 (ofSigned 32 v) ∧
      (v < -549755813 ∨ 549755813 < v)) ∧
    (∃ (s : State) (p : Sys2Proof.Path) (n : TimeBase) (v : ℤ) (d : List Byte), Ready s p ∧ s.leasedAway p 8 = false ∧
      s.dict.busyTabs.contains (O.TB_RATE n.val) = false ∧ -2 ^ 31 ≤ v ∧ v < 2 ^ 31 ∧ d = leBytes 4 (ofSigned 32 v) ∧
      -549755813 ≤ v ∧ v ≤ 549755813 ∧ s.get (O.SERVO_OWNER n.val) = 0) :=
  ⟨⟨up, .window 0, 7, -549755814, leBytes 4 (ofSigned 32 (-549755814)), by decide +kernel⟩,
    ⟨up, .window 0, 7, -549755813, leBytes 4 (ofSigned 32 (-549755813)), by decide +kernel⟩⟩

theorem witness_MapAddressesAreTranslatedExactly :
    (∃ (s : State) (ma : ℕ) (row : ℕ) (off : ℕ) (first : ℕ) (limit : ℕ) (r : ℕ), ma < 2 ^ 48 ∧ s.faults.damage = [] ∧
      s.get O.PM_SPLIT_2M ≤ s.get O.PM_SPLIT_1G ∧ s.get O.PM_SPLIT_1G ≤ 65536 ∧ (ma < 1099511627776 → row = ma >>> 12
      ∧ off = ma &&& 4095 ∧ first = 0 ∧ limit = s.get O.PM_SPLIT_2M) ∧ (1099511627776 ≤ ma → ma < 140737488355328 →
      row = (ma - 1099511627776) >>> 21 ∧ off = ma &&& 2097151 ∧ first = s.get O.PM_SPLIT_2M ∧ limit = s.get
      O.PM_SPLIT_1G) ∧ (140737488355328 ≤ ma → row = (ma - 140737488355328) >>> 30 ∧ off = ma &&& 1073741823 ∧ first =
      s.get O.PM_SPLIT_1G ∧ limit = 65536) ∧ r = s.get O.HOST_PAGE_MAP (first + row) ∧ r < 2 ^ 64) ∧
    (∃ (s : State) (p : Sys2Proof.Path) (v : ℕ), Ready s p ∧ s.leasedAway p 10 = false ∧ v < 2 ^ 32 ∧ (s.get
      O.PM_SPLIT_1G < v ∨ 65536 < v)) ∧
    (∃ (s : State) (p : Sys2Proof.Path) (v : ℕ), Ready s p ∧ s.leasedAway p 10 = false ∧ v < 2 ^ 32 ∧ (v < s.get
      O.PM_SPLIT_2M ∨ 65536 < v)) :=
  ⟨⟨mapped, 0x800000000001, 0, 1, 5, 65536, 0xABCDE00000007, by decide +kernel⟩,
    ⟨mapped, .window 0, 6, by decide +kernel⟩,
    ⟨mapped, .window 0, 1, by decide +kernel⟩⟩

theorem witness_ChannelRegistersMoveIndicesAndStates :
    (∃ (s : State) (c : Channel) (v : BitVec 32), Runs s ∧ s.isLegacy c.val = false ∧ s.isChain c.val = false ∧
      (v.toNat + 2 ^ 32 - (s.chan c.val).producer) % 2 ^ 32 ≤ s.get (O.CH_RING_SIZE c.val) ∧ (v.toNat + 2 ^ 32 -
      (s.chan c.val).head) % 2 ^ 32 ≤ s.get (O.CH_RING_SIZE c.val)) ∧
    (∃ (s : State) (c : Channel) (v : BitVec 32), Runs s ∧ s.isLegacy c.val = false ∧ s.isChain c.val = false ∧ (s.get
      (O.CH_RING_SIZE c.val) < (v.toNat + 2 ^ 32 - (s.chan c.val).producer) % 2 ^ 32 ∨ s.get (O.CH_RING_SIZE c.val) <
      (v.toNat + 2 ^ 32 - (s.chan c.val).head) % 2 ^ 32)) ∧
    (∃ (s : State) (c : Channel), Runs s ∧ s.isLegacy c.val = true) ∧
    (∃ (s : State) (c : Channel), Runs s ∧ s.isLegacy c.val = false ∧ s.isChain c.val = true ∧ s.chSt c.val = Ch.idle) ∧
    (∃ (s : State) (c : Channel), Runs s ∧ s.isLegacy c.val = false ∧ s.isChain c.val = true ∧ s.chSt c.val ≠ Ch.idle) ∧
    (∃ (s : State) (c : Channel) (v : BitVec 32), Runs s ∧ (v.toNat + 2 ^ 32 - (s.chan c.val).ack) % 2 ^ 32 ≤ ((s.chan
      c.val).head + 2 ^ 32 - (s.chan c.val).ack) % 2 ^ 32) ∧
    (∃ (s : State) (c : Channel) (v : BitVec 32), Runs s ∧ ((s.chan c.val).head + 2 ^ 32 - (s.chan c.val).ack) % 2 ^
      32 < (v.toNat + 2 ^ 32 - (s.chan c.val).ack) % 2 ^ 32) ∧
    (∃ (s : State) (c : Channel), Runs s ∧ s.chSt c.val = Ch.disabled ∧ (s.chan c.val).draining = false ∧ s.isLegacy
      c.val = false ∧ s.chKind c.val ≠ 0 ∧ (s.get (O.CH_MODE c.val) = 0 ∨ s.chKind c.val = 3 ∨ s.chKind c.val = 5) ∧
      (∃ i ≤ 16, s.get (O.CH_RING_SIZE c.val) = 2 ^ i) ∧ s.get (O.CH_RING_BASE c.val) % (32 * s.get (O.CH_RING_SIZE
      c.val)) = 0) ∧
    (∃ (s : State) (c : Channel), Runs s ∧ s.chSt c.val = Ch.disabled ∧ (s.chan c.val).draining = false ∧ s.isLegacy
      c.val = false ∧ 0 < s.get (O.CH_RING_SIZE c.val) ∧ ((∀ i ≤ 16, s.get (O.CH_RING_SIZE c.val) ≠ 2 ^ i) ∨ s.get
      (O.CH_RING_BASE c.val) % (32 * s.get (O.CH_RING_SIZE c.val)) ≠ 0)) ∧
    (∃ (s : State) (c : Channel), Runs s ∧ (s.chSt c.val = Ch.disabled ∨ s.chSt c.val = Ch.stopped)) ∧
    (∃ (s : State) (c : Channel), Runs s ∧ s.chSt c.val ≠ Ch.disabled ∧ s.chSt c.val ≠ Ch.stopped) ∧
    (∃ (s : State) (c : Channel), Runs s ∧ s.chSt c.val = Ch.parked) ∧
    (∃ (s : State) (c : Channel), Runs s ∧ s.chSt c.val ≠ Ch.parked) ∧
    (∃ (s : State) (c : Channel), Runs s ∧ ((s.chan c.val).draining = false ∨ s.readsOf c.val ≠ [])) ∧
    (∃ (s : State) (c : Channel), Runs s ∧ (s.chan c.val).draining = true ∧ s.readsOf c.val = [] ∧ (s.chan
      c.val).reEnable = false) ∧
    (∃ (s : State) (c : Channel), Runs s ∧ (s.chan c.val).draining = true ∧ s.readsOf c.val = [] ∧ (s.chan
      c.val).reEnable = true ∧ s.chSt c.val = Ch.disabled) ∧
    (∃ (s : State) (c : Channel), Runs s ∧ (s.chan c.val).draining = true ∧ s.readsOf c.val = [] ∧ (s.chan
      c.val).reEnable = true ∧ s.chSt c.val ≠ Ch.disabled) ∧
    (∃ (s : State) (v : BitVec 32) (k : ℕ), Runs s ∧ k = v.toNat / 2 ^ 12 % 8 * 16 + 15 ∧ s.isLegacy k = true ∧
      v.toNat % 2 ^ 12 < s.ringSize k) ∧
    (∃ (s : State) (v : BitVec 32) (k : ℕ), Runs s ∧ k = v.toNat / 2 ^ 12 % 8 * 16 + 15 ∧ (s.isLegacy k = false ∨
      s.ringSize k ≤ v.toNat % 2 ^ 12)) ∧
    (∃ (s : State) (c : Channel), Runs s ∧ (s.chan c.val).timing = true ∧ (s.chan c.val).notify ≠ 0) ∧
    (∃ (s : State) (c : Channel), Runs s ∧ ((s.chan c.val).timing = false ∨ (s.chan c.val).notify = 0)) :=
  ⟨⟨chan 2 1 (fun x => { x with producer := 0xFFFFFFFF, head := 0xFFFFFFFF }), 511, 15, by decide +kernel⟩,
    ⟨chan 2 1 id, 511, 17, by decide +kernel⟩,
    ⟨chan 7 1 id, 511, by decide +kernel⟩,
    ⟨chain 1 (fun x => { x with chainLo := 0xFFFFFFFF, chainHi := 0x1FFFF }), 511, by decide +kernel⟩,
    ⟨chain 2 id, 511, by decide +kernel⟩,
    ⟨chan 2 1 (fun x => { x with head := 3, ack := 0xFFFFFFFE }), 511, 3, by decide +kernel⟩,
    ⟨chan 2 1 (fun x => { x with head := 3, ack := 0xFFFFFFFE }), 511, 4, by decide +kernel⟩,
    ⟨chan 2 0 id, 511, by decide +kernel⟩,
    ⟨(chan 2 0 id).set (O.CH_RING_BASE 511) 4097, 511, by decide +kernel⟩,
    ⟨chan 2 5 id, 511, by decide +kernel⟩,
    ⟨{ chan 2 2 id with host := { (chan 2 2 id).host with reads := [readOf .last] } }, 511, by decide +kernel⟩,
    ⟨chan 2 3 (fun x => { x with producer := 1 }), 511, by decide +kernel⟩,
    ⟨chan 2 2 id, 511, by decide +kernel⟩,
    ⟨chan 2 2 id, 511, by decide +kernel⟩,
    ⟨chan 2 0 (fun x => { x with draining := true }), 511, by decide +kernel⟩,
    ⟨chan 2 0 (fun x => { x with draining := true, reEnable := true }), 511, by decide +kernel⟩,
    ⟨chan 2 5 (fun x => { x with draining := true, reEnable := true }), 511, by decide +kernel⟩,
    ⟨((up.set (O.CH_KIND 127) 7).set (O.LEGACY_RING_SIZE 7) 256).set (O.CH_STATE 127) 1, 0x70FF, 127,
      by decide +kernel⟩,
    ⟨((up.set (O.CH_KIND 127) 7).set (O.LEGACY_RING_SIZE 7) 256).set (O.CH_STATE 127) 1, 0x7100, 127,
      by decide +kernel⟩,
    ⟨chan 2 2 (fun x => { x with timing := true, notify := 3 }), 511, by decide +kernel⟩,
    ⟨chan 2 2 (fun x => { x with timing := true, notify := 0 }), 511, by decide +kernel⟩⟩

theorem witness_EnginesFetchChooseAndStop :
    (∃ (s : State) (c : Channel) (k : ℕ) (ma : ℕ) (bus : ℕ) (t : ℕ) (w : State), Runs s ∧ (s.chSt c.val = Ch.idle ∨
      s.chSt c.val = Ch.running) ∧ s.flag (O.ENGINE_STATE (c.val / 16)) = false ∧ s.prefetchRoom c.val = true ∧
      (s.freeTag (c.val / 16)).isSome = true ∧ s.nextFetch c.val = some (k, ma) ∧ (¬(s.isChain c.val = true ∧ s.get
      (O.CH_CHAIN_LIMIT c.val) ≤ (s.chan c.val).chainN)) ∧ (fresh s).busOf c.val ma false = (some bus, w) ∧ w.freeTag
      (c.val / 16) = some t) ∧
    (∃ (s : State) (c : Channel) (k : ℕ) (ma : ℕ) (w : State), Runs s ∧ (s.chSt c.val = Ch.idle ∨ s.chSt c.val =
      Ch.running) ∧ s.flag (O.ENGINE_STATE (c.val / 16)) = false ∧ s.prefetchRoom c.val = true ∧ (s.freeTag (c.val /
      16)).isSome = true ∧ s.nextFetch c.val = some (k, ma) ∧ (¬(s.isChain c.val = true ∧ s.get (O.CH_CHAIN_LIMIT
      c.val) ≤ (s.chan c.val).chainN)) ∧ (fresh s).busOf c.val ma false = (none, w)) ∧
    (∃ (s : State) (c : Channel) (k : ℕ) (ma : ℕ) (w : State), Runs s ∧ (s.chSt c.val = Ch.idle ∨ s.chSt c.val =
      Ch.running) ∧ s.flag (O.ENGINE_STATE (c.val / 16)) = false ∧ s.prefetchRoom c.val = true ∧ (s.freeTag (c.val /
      16)).isSome = true ∧ s.nextFetch c.val = some (k, ma) ∧ s.isChain c.val = true ∧ s.get (O.CH_CHAIN_LIMIT c.val)
      ≤ (s.chan c.val).chainN ∧ w = fresh s ∧ (s.chan c.val).pre = [] ∧ (s.chan c.val).cur = none) ∧
    (∃ (s : State) (c : Channel) (k : ℕ) (ma : ℕ) (w : State), Runs s ∧ (s.chSt c.val = Ch.idle ∨ s.chSt c.val =
      Ch.running) ∧ s.flag (O.ENGINE_STATE (c.val / 16)) = false ∧ s.prefetchRoom c.val = true ∧ (s.freeTag (c.val /
      16)).isSome = true ∧ s.nextFetch c.val = some (k, ma) ∧ s.isChain c.val = true ∧ s.get (O.CH_CHAIN_LIMIT c.val)
      ≤ (s.chan c.val).chainN ∧ w = fresh s ∧ ((s.chan c.val).pre ≠ [] ∨ (s.chan c.val).cur.isSome = true)) ∧
    (∃ (s : State) (c : Channel), Runs s ∧ s.isLegacy c.val = false ∧ s.isChain c.val = false ∧ (s.chan c.val).fetched
      ≠ (s.chan c.val).producer) ∧
    (∃ (s : State) (c : Channel), Runs s ∧ (s.nextFetch c.val = none ∨ s.prefetchRoom c.val = false ∨ s.flag
      (O.ENGINE_STATE (c.val / 16)) = true ∨ (s.freeTag (c.val / 16)).isNone = true)) ∧
    (∃ (s : State) (k : ℕ), Runs s ∧ s.isLegacy k = false) ∧
    (∃ (s : State) (g : Engine) (k : ℕ), Runs s ∧ s.flag (O.ENGINE_STATE g.val) = false ∧ (s.engine g.val).cur = some
      k) ∧
    (∃ (s : State) (g : Engine) (w : State), Runs s ∧ s.flag (O.ENGINE_STATE g.val) = false ∧ (s.engine g.val).cur =
      none ∧ (w = (fresh s).each (List.map (fun x => g.val * 16 + x) (List.range 16)) State.lookQueues) ∧
      w.nextChannel g.val = none) ∧
    (∃ (s : State) (g : Engine) (w : State) (i : ℕ), Runs s ∧ s.flag (O.ENGINE_STATE g.val) = false ∧ (s.engine
      g.val).cur = none ∧ (w = (fresh s).each (List.map (fun x => g.val * 16 + x) (List.range 16)) State.lookQueues) ∧
      w.nextChannel g.val = some (i, true)) ∧
    (∃ (s : State) (g : Engine) (w : State) (i : ℕ), Runs s ∧ s.flag (O.ENGINE_STATE g.val) = false ∧ (s.engine
      g.val).cur = none ∧ (w = (fresh s).each (List.map (fun x => g.val * 16 + x) (List.range 16)) State.lookQueues) ∧
      w.nextChannel g.val = some (i, false)) ∧
    (∃ (s : State) (g : Engine) (i : ℕ) (urg : Bool), Runs s ∧ s.nextChannel g.val = some (i, urg)) ∧
    (∃ (s : State) (c : Channel), Runs s ∧ s.chainHead c.val 15 = true) ∧
    (∃ (s : State) (c : Channel), Runs s ∧ s.chainHead c.val 15 = false) ∧
    (∃ (s : State) (c : Channel), Runs s ∧ s.chainHead c.val 0 = true) ∧
    (∃ (s : State) (c : Channel), Runs s ∧ s.chainHead c.val 0 = false) ∧
    (∃ (s : State) (tag : Fin 768), Runs s ∧ (List.find? (fun x => x.tag == tag.val) s.host.reads = none)) ∧
    (∃ (s : State), Runs s ∧ s.host.noTimeout = true) ∧
    (∃ (s : State) (tag : Fin 768) (r : ReadReq) (w : State), Runs s ∧ (List.find? (fun x => x.tag == tag.val)
      s.host.reads = some r) ∧ w = (fresh s).freeRead tag.val ∧ s.chSt r.ch ≠ Ch.idle ∧ s.chSt r.ch ≠ Ch.running ∧
      s.chSt r.ch ≠ Ch.parked) ∧
    (∃ (s : State) (tag : Fin 768) (r : ReadReq) (w : State), Runs s ∧ (List.find? (fun x => x.tag == tag.val)
      s.host.reads = some r) ∧ w = (fresh s).freeRead tag.val ∧ (s.chSt r.ch = Ch.idle ∨ s.chSt r.ch = Ch.running ∨
      s.chSt r.ch = Ch.parked) ∧ r.why = Purpose.prefetch) ∧
    (∃ (s : State) (tag : Fin 768) (r : ReadReq) (w : State) (off : ℕ), Runs s ∧ (List.find? (fun x => x.tag ==
      tag.val) s.host.reads = some r) ∧ w = (fresh s).freeRead tag.val ∧ (s.chSt r.ch = Ch.idle ∨ s.chSt r.ch =
      Ch.running ∨ s.chSt r.ch = Ch.parked) ∧ r.why = Purpose.data off) ∧
    (∃ (s : State) (tag : Fin 768) (r : ReadReq) (w : State), Runs s ∧ (List.find? (fun x => x.tag == tag.val)
      s.host.reads = some r) ∧ w = (fresh s).freeRead tag.val ∧ (s.chSt r.ch = Ch.idle ∨ s.chSt r.ch = Ch.running ∨
      s.chSt r.ch = Ch.parked) ∧ r.why = Purpose.gone) ∧
    (∃ (s : State) (tag : Fin 768) (r : ReadReq) (w : State), Runs s ∧ (List.find? (fun x => x.tag == tag.val)
      s.host.reads = some r) ∧ w = (fresh s).freeRead tag.val ∧ (s.chSt r.ch = Ch.idle ∨ s.chSt r.ch = Ch.running ∨
      s.chSt r.ch = Ch.parked) ∧ r.why = Purpose.last ∧ s.chSt r.ch = Ch.parked) ∧
    (∃ (s : State) (tag : Fin 768) (r : ReadReq) (w : State), Runs s ∧ (List.find? (fun x => x.tag == tag.val)
      s.host.reads = some r) ∧ w = (fresh s).freeRead tag.val ∧ (s.chSt r.ch = Ch.idle ∨ s.chSt r.ch = Ch.running ∨
      s.chSt r.ch = Ch.parked) ∧ r.why = Purpose.last ∧ s.chSt r.ch ≠ Ch.parked) ∧
    (∃ (s : State) (tag : Fin 768) (kind : BusErr) (r : ReadReq) (w : State), Runs s ∧ (List.find? (fun x => x.tag ==
      tag.val) s.host.reads = some r) ∧ w = (fresh s).freeRead tag.val ∧ (kind ≠ BusErr.timeout ∨ s.host.noTimeout =
      false) ∧ s.flag (O.ENGINE_STATE (r.ch / 16)) = true) ∧
    (∃ (s : State) (tag : Fin 768) (kind : BusErr) (r : ReadReq) (w : State) (code : ℕ), Runs s ∧ (List.find? (fun x
      => x.tag == tag.val) s.host.reads = some r) ∧ w = (fresh s).freeRead tag.val ∧ (kind ≠ BusErr.timeout ∨
      s.host.noTimeout = false) ∧ s.flag (O.ENGINE_STATE (r.ch / 16)) = false ∧
      (code = match kind with | BusErr.unsupported => 1 | BusErr.abort => 2 | BusErr.timeout => 3 | BusErr.poisoned => 4)
      ∧ r.ch < 512 ∧ (∀ k < 512, (s.chan k).copying = none ∧ (s.chan k).build = none ∧ (s.chan k).cur = none) ∧ (∀ e ∈
      s.tiles, e.2.postRecs.length < 24)) ∧
    (∃ (s : State) (p : Sys2Proof.Path) (g : Engine), Runs s ∧ Takes s p (O.ENGINE_RESTART g.val) ∧ s.flag
      (O.ENGINE_STATE g.val) = true) ∧
    (∃ (s : State) (p : Sys2Proof.Path) (g : Engine), Runs s ∧ Takes s p (O.ENGINE_RESTART g.val) ∧ s.flag
      (O.ENGINE_STATE g.val) = false) ∧
    (∃ (s : State) (g : Engine), Runs s ∧ s.cmdRunning (O.ENGINE_RESTART g.val) = true ∧ ((s.host.reads.any fun x =>
      x.ch / 16 == g.val) = false)) ∧
    (∃ (s : State) (g : Engine), Runs s ∧ (s.cmdRunning (O.ENGINE_RESTART g.val) = false ∨ (s.host.reads.any fun x =>
      x.ch / 16 == g.val) = true)) ∧
    (∃ (s : State) (p : Sys2Proof.Path), Runs s ∧ Takes s p O.PM_FENCE) ∧
    (∃ (s : State), Runs s ∧ s.cmdRunning O.PM_FENCE = true ∧ s.host.fence = []) ∧
    (∃ (s : State), Runs s ∧ (s.cmdRunning O.PM_FENCE = false ∨ s.host.fence ≠ [])) :=
  ⟨⟨chan 2 2 (fun x => { x with producer := 1 }), 511, 0, 4096, 0xABCDE00000000, 0, fresh (chan 2 2 (fun x =>
      { x with producer := 1 })), by decide +kernel⟩,
    ⟨(chan 2 2 (fun x => { x with producer := 1 })).set O.HOST_PAGE_MAP 0 1, 511, 0, 4096, fresh ((chan 2 2 (fun x =>
      { x with producer := 1 })).set O.HOST_PAGE_MAP 0 1), by decide +kernel⟩,
    ⟨(chain 2 (fun x => { x with next := some 4096, chainN := 9 })).set (O.CH_CHAIN_LIMIT 511) 9, 511, 4096, 4096,
      fresh ((chain 2 (fun x => { x with next := some 4096, chainN := 9 })).set (O.CH_CHAIN_LIMIT 511) 9),
      by decide +kernel⟩,
    ⟨(chain 2 (fun x => { x with next := some 4096, chainN := 9, pre := [desc 1] })).set (O.CH_CHAIN_LIMIT 511) 9,
      511, 4096, 4096, fresh ((chain 2 (fun x => { x with next := some 4096, chainN := 9, pre := [desc 1] })).set
      (O.CH_CHAIN_LIMIT 511) 9), by decide +kernel⟩,
    ⟨chan 2 2 (fun x => { x with producer := 16, fetched := 15 }), 511, by decide +kernel⟩,
    ⟨chan 2 2 id, 511, by decide +kernel⟩,
    ⟨chan 2 2 (fun x => { x with pre := [desc 1] }), 511, by decide +kernel⟩,
    ⟨working 2 (desc 1) id, 31, 511, by decide +kernel⟩,
    ⟨up, 31, (fresh up).each ((List.range 16).map (31 * 16 + ·)) State.lookQueues, by decide +kernel⟩,
    ⟨(chan 2 2 (fun x => { x with pre := [desc 1] })).set (O.CH_CLASS 511) 1, 31, (fresh ((chan 2 2 (fun x =>
      { x with pre := [desc 1] })).set (O.CH_CLASS 511) 1)).each ((List.range 16).map (31 * 16 + ·)) State.lookQueues,
      15, by decide +kernel⟩,
    ⟨chan 2 2 (fun x => { x with pre := [desc 1] }), 31, (fresh (chan 2 2 (fun x => { x with pre := [desc 1] }))).each
      ((List.range 16).map (31 * 16 + ·)) State.lookQueues, 15, by decide +kernel⟩,
    ⟨(chan 2 2 (fun x => { x with pre := [desc 1] })).set (O.CH_CLASS 511) 1, 31, 15, true, by decide +kernel⟩,
    ⟨chain 2 (fun x => { x with pre := [desc 0x0F, desc 1] }), 511, by decide +kernel⟩,
    ⟨chain 2 (fun x => { x with pre := [desc 0] }), 511, by decide +kernel⟩,
    ⟨chain 2 (fun x => { x with pre := [desc 0, desc 5], next := some 5 }), 511, by decide +kernel⟩,
    ⟨up, 511, by decide +kernel⟩,
    ⟨up, 767, by decide +kernel⟩,
    ⟨{ up with host := { up.host with noTimeout := true } }, by decide +kernel⟩,
    ⟨asking .prefetch 5, 767, readOf .prefetch, (fresh (asking .prefetch 5)).freeRead 767, by decide +kernel⟩,
    ⟨asking .prefetch 2, 767, readOf .prefetch, (fresh (asking .prefetch 2)).freeRead 767, by decide +kernel⟩,
    ⟨asking (.data 64) 2, 767, readOf (.data 64), (fresh (asking (.data 64) 2)).freeRead 767, 64, by decide +kernel⟩,
    ⟨asking .gone 2, 767, readOf .gone, (fresh (asking .gone 2)).freeRead 767, by decide +kernel⟩,
    ⟨asking .last 3, 767, readOf .last, (fresh (asking .last 3)).freeRead 767, by decide +kernel⟩,
    ⟨asking .last 2, 767, readOf .last, (fresh (asking .last 2)).freeRead 767, by decide +kernel⟩,
    ⟨(asking .last 2).set (O.ENGINE_STATE 31) 1, 767, .abort, readOf .last, (fresh ((asking .last 2).set
      (O.ENGINE_STATE 31) 1)).freeRead 767, by decide +kernel⟩,
    ⟨asking .last 2, 767, .timeout, readOf .last, (fresh (asking .last 2)).freeRead 767, 3, by decide +kernel⟩,
    ⟨up.set (O.ENGINE_STATE 31) 1, .window 0, 31, by decide +kernel⟩,
    ⟨up, .window 0, 31, by decide +kernel⟩,
    ⟨(up.cmdRun (O.ENGINE_RESTART 31)).set (O.ENGINE_STATE 31) 1, 31, by decide +kernel⟩,
    ⟨asking .last 2, 31, by decide +kernel⟩,
    ⟨asking .last 2, .window 0, by decide +kernel⟩,
    ⟨up.cmdRun O.PM_FENCE, by decide +kernel⟩,
    ⟨up, by decide +kernel⟩⟩

theorem witness_DescriptorsComplete :
    (∃ (s : State) (c : Channel) (w : State), Runs s ∧ w = fresh s ∧ s.current c.val [1, 6] = none) ∧
    (∃ (s : State) (c : Channel) (w : State), Runs s ∧ w = fresh s ∧ s.current c.val [2, 7] = none) ∧
    (∃ (s : State) (c : Channel) (w : State), Runs s ∧ w = fresh s ∧ s.current c.val [4] = none) ∧
    (∃ (s : State) (c : Channel) (w : State), Runs s ∧ w = fresh s ∧ s.current c.val [5] = none) ∧
    (∃ (s : State) (c : Channel) (w : State), Runs s ∧ w = fresh s ∧ s.tableDesc c.val 0 = none) ∧
    (∃ (s : State) (c : Channel) (w : State), Runs s ∧ w = fresh s ∧ s.tableDesc c.val 1 = none) ∧
    (∃ (s : State) (c : Channel) (w : State), Runs s ∧ w = fresh s ∧ s.tableDesc c.val 2 = none) ∧
    (∃ (s : State) (c : Channel) (d : Desc) (w : State), Runs s ∧ w = fresh s ∧ (s.chan c.val).fin.isSome = true ∧
      s.current c.val [1, 6] = some d) ∧
    (∃ (s : State) (c : Channel) (d : Desc) (w : State), Runs s ∧ w = fresh s ∧ (s.chan c.val).fin.isSome = true ∧
      s.current c.val [2, 7] = some d) ∧
    (∃ (s : State) (c : Channel) (d : Desc) (w : State), Runs s ∧ w = fresh s ∧ (s.chan c.val).fin.isSome = true ∧
      s.current c.val [4] = some d) ∧
    (∃ (s : State) (c : Channel) (d : Desc) (w : State), Runs s ∧ w = fresh s ∧ (s.chan c.val).fin.isSome = true ∧
      s.current c.val [5] = some d) ∧
    (∃ (s : State) (c : Channel) (d : Desc) (w : State), Runs s ∧ w = fresh s ∧ (s.chan c.val).fin.isSome = true ∧
      s.tableDesc c.val 0 = some d) ∧
    (∃ (s : State) (c : Channel) (d : Desc) (w : State), Runs s ∧ w = fresh s ∧ (s.chan c.val).fin.isSome = true ∧
      s.tableDesc c.val 1 = some d) ∧
    (∃ (s : State) (c : Channel) (d : Desc) (w : State), Runs s ∧ w = fresh s ∧ (s.chan c.val).fin.isSome = true ∧
      s.tableDesc c.val 2 = some d) ∧
    (∃ (s : State) (c : Channel) (d : Desc) (w : State) (f : Cpl) (ma : ℕ) (bus : ℕ) (x : State), Runs s ∧ w = fresh s
      ∧ s.current c.val [5] = some d ∧ (s.chan c.val).fin = some f ∧ (s.chan c.val).outb = [] ∧ (s.chan c.val).wrote =
      0 ∧ (s.chan c.val).pre = [] ∧ s.isLegacy c.val = false ∧ s.isChain c.val = false ∧ ma = s.get (O.CH_CMPL_BASE
      c.val) + (s.chan c.val).head % s.ringSize c.val * 32 ∧ ma % 4096 ≤ 4064 ∧ 32 ≤ s.host.maxPay ∧ s.host.d3hot =
      false ∧ w.translate (ma % 2 ^ 48) true = (some bus, x) ∧ bit (byteAt d.body 30) 0 = false) ∧
    (∃ (s : State) (c : Channel) (d : Desc) (w : State) (f : Cpl), Runs s ∧ w = fresh s ∧ s.current c.val [5] = some d
      ∧ (s.chan c.val).fin = some f ∧ (s.chan c.val).outb = [] ∧ (s.chan c.val).wrote = 0 ∧ s.isLegacy c.val = false ∧
      s.host.d3hot = true) ∧
    (∃ (s : State) (c : Channel) (d : Desc) (w : State) (k : Copying) (pkt : Pkt) (n : ℕ) (bs : List Byte) (v : State)
      (x : State), Runs s ∧ w = fresh s ∧ (s.chan c.val).fin = none ∧ s.current c.val [1, 6] = some d ∧ s.isLegacy
      c.val = false ∧ (s.chan c.val).copying = some k ∧ s.pkt? k.fid = some pkt ∧ n = min (s.get (O.CH_BUF_SIZE
      c.val)) (pkt.bytes.length - 4 - k.at_) ∧ w.useDesc pkt = (false, v) ∧ (v.copyBytes c.val pkt k.at_ (k.at_ + n)
      (List.map (fun x => k.at_ / 256 + x) (List.range ((n + k.at_ % 256 + 255) / 256))) = (bs, false, x))) ∧
    (∃ (s : State) (c : Channel) (d : Desc) (w : State), Runs s ∧ w = fresh s ∧ (s.chan c.val).fin = none ∧ s.current
      c.val [2, 7] = some d ∧ s.dataIn c.val d.body = false) ∧
    (∃ (s : State) (c : Channel) (d : Desc) (w : State), Runs s ∧ w = fresh s ∧ (s.chan c.val).fin = none ∧ s.current
      c.val [2, 7] = some d ∧ s.dataIn c.val d.body = true) ∧
    (∃ (s : State) (c : Channel) (d : Desc) (w : State) (n : ℕ) (r : Ref), Runs s ∧ w = fresh s ∧ (s.chan c.val).fin =
      none ∧ n = leAt d.body 8 4 ∧ r = tableRef d.body ∧ s.tableDesc c.val 0 = some d ∧ r = O.HOST_PAGE_MAP) ∧
    (∃ (s : State) (c : Channel) (d : Desc) (w : State) (n : ℕ) (r : Ref), Runs s ∧ w = fresh s ∧ (s.chan c.val).fin =
      none ∧ n = leAt d.body 8 4 ∧ r = tableRef d.body ∧ s.tableDesc c.val 1 = some d ∧ r = O.HOST_PAGE_MAP) ∧
    (∃ (s : State) (c : Channel) (d : Desc) (w : State) (n : ℕ) (r : Ref), Runs s ∧ w = fresh s ∧ (s.chan c.val).fin =
      none ∧ n = leAt d.body 8 4 ∧ r = tableRef d.body ∧ s.tableDesc c.val 0 = some d ∧ r ≠ O.HOST_PAGE_MAP ∧ s.dataIn
      c.val d.body = false) ∧
    (∃ (s : State) (c : Channel) (d : Desc) (w : State) (n : ℕ) (r : Ref) (x : ℕ × ℕ × State), Runs s ∧ w = fresh s ∧
      (s.chan c.val).fin = none ∧ n = leAt d.body 8 4 ∧ r = tableRef d.body ∧ s.tableDesc c.val 0 = some d ∧ r ≠
      O.HOST_PAGE_MAP ∧ s.dataIn c.val d.body = true ∧ x = w.loadRows r (s.pieceOf r n) n (leAt d.body 20 4)
      (List.take n (gathered (s.chan c.val).got))) ∧
    (∃ (s : State) (c : Channel) (d : Desc) (w : State) (n : ℕ) (r : Ref) (x : ℕ × List Byte × State), Runs s ∧ w =
      fresh s ∧ (s.chan c.val).fin = none ∧ n = leAt d.body 8 4 ∧ r = tableRef d.body ∧ s.tableDesc c.val 1 = some d ∧
      r ≠ O.HOST_PAGE_MAP ∧ x = w.unloadRows r (s.pieceOf r n) n (leAt d.body 20 4) n) ∧
    (∃ (s : State) (c : Channel) (d : Desc) (w : State) (n : ℕ) (r : Ref), Runs s ∧ w = fresh s ∧ (s.chan c.val).fin =
      none ∧ n = leAt d.body 8 4 ∧ r = tableRef d.body ∧ s.tableDesc c.val 2 = some d ∧ (s.chan c.val).done = 0 ∧
      s.recordsErr r ≠ Err.ok) ∧
    (∃ (s : State) (c : Channel) (d : Desc) (w : State) (n : ℕ) (r : Ref), Runs s ∧ w = fresh s ∧ (s.chan c.val).fin =
      none ∧ n = leAt d.body 8 4 ∧ r = tableRef d.body ∧ s.tableDesc c.val 2 = some d ∧ ((s.chan c.val).done ≠ 0 ∨
      s.recordsErr r = Err.ok) ∧ s.dataIn c.val d.body = false) ∧
    (∃ (s : State) (c : Channel) (d : Desc) (w : State) (n : ℕ) (r : Ref) (x : State), Runs s ∧ w = fresh s ∧ (s.chan
      c.val).fin = none ∧ n = leAt d.body 8 4 ∧ r = tableRef d.body ∧ s.tableDesc c.val 2 = some d ∧ ((s.chan
      c.val).done ≠ 0 ∨ s.recordsErr r = Err.ok) ∧ s.dataIn c.val d.body = true ∧ x = w.feedRecords c.val r.inst (n /
      32) (List.take n (gathered (s.chan c.val).got)) 65 ∧ (x.chan c.val).res.length < n / 32 * 32) ∧
    (∃ (s : State) (c : Channel) (d : Desc) (w : State) (n : ℕ) (r : Ref) (x : State), Runs s ∧ w = fresh s ∧ (s.chan
      c.val).fin = none ∧ n = leAt d.body 8 4 ∧ r = tableRef d.body ∧ s.tableDesc c.val 2 = some d ∧ ((s.chan
      c.val).done ≠ 0 ∨ s.recordsErr r = Err.ok) ∧ s.dataIn c.val d.body = true ∧ x = w.feedRecords c.val r.inst (n /
      32) (List.take n (gathered (s.chan c.val).got)) 65 ∧ n / 32 * 32 ≤ (x.chan c.val).res.length ∧ n % 32 = 0) ∧
    (∃ (s : State) (c : Channel) (d : Desc) (w : State), Runs s ∧ w = fresh s ∧ (s.chan c.val).fin = none ∧ s.current
      c.val [4] = some d ∧ s.exportNext c.val = none) ∧
    (∃ (s : State) (c : Channel) (d : Desc) (w : State) (m : Msg) (ms : List Msg) (k : ℕ) (b : List Byte), Runs s ∧ w
      = fresh s ∧ (s.chan c.val).fin = none ∧ s.current c.val [4] = some d ∧ s.exportNext c.val = some true ∧
      s.ledger.learn.msgs = m :: ms ∧ k = look 0 s.ledger.seqs c.val + 1 ∧ b = exportHeader 2 m.recs.length 48 k
      m.time 255 m.lost ++ m.recs.flatten) ∧
    (∃ (s : State) (c : Channel) (d : Desc) (w : State) (m : Msg) (ms : List Msg) (k : ℕ) (b : List Byte), Runs s ∧ w
      = fresh s ∧ (s.chan c.val).fin = none ∧ s.current c.val [4] = some d ∧ s.exportNext c.val = some false ∧
      s.ledger.flow.msgs = m :: ms ∧ k = look 0 s.ledger.seqs c.val + 1 ∧ b = exportHeader 1 m.recs.length 64 k m.time
      255 m.lost ++ m.recs.flatten) ∧
    (∃ (s : State) (c : Channel) (d : Desc) (w : State) (from_ : ℕ) (to_ : ℕ) (n : ℕ), Runs s ∧ w = fresh s ∧ (s.chan
      c.val).fin = none ∧ s.current c.val [5] = some d ∧ from_ = leAt d.body 0 4 ∧ to_ = leAt d.body 8 4 ∧ n = leAt
      d.body 12 4 ∧ (from_ % 16 ≠ 0 ∨ to_ % 16 ≠ 0 ∨ n % 16 ≠ 0 ∨ n < 16 ∨ 16777216 < n ∨ 2 ^ 27 < from_ + n ∨ 2 ^ 27
      < to_ + n)) ∧
    (∃ (s : State) (c : Channel) (d : Desc) (w : State) (from_ : ℕ) (to_ : ℕ) (n : ℕ), Runs s ∧ w = fresh s ∧ (s.chan
      c.val).fin = none ∧ s.current c.val [5] = some d ∧ from_ = leAt d.body 0 4 ∧ to_ = leAt d.body 8 4 ∧ n = leAt
      d.body 12 4 ∧ from_ % 16 = 0 ∧ to_ % 16 = 0 ∧ n % 16 = 0 ∧ 16 ≤ n ∧ n ≤ 16777216 ∧ from_ + n ≤ 2 ^ 27 ∧ to_ + n
      ≤ 2 ^ 27 ∧ (((s.copyTables d.body).any fun t => s.tableState t != 1) = false)) :=
  ⟨⟨up, 511, fresh up, by decide +kernel⟩,
    ⟨up, 511, fresh up, by decide +kernel⟩,
    ⟨up, 511, fresh up, by decide +kernel⟩,
    ⟨up, 511, fresh up, by decide +kernel⟩,
    ⟨up, 511, fresh up, by decide +kernel⟩,
    ⟨up, 511, fresh up, by decide +kernel⟩,
    ⟨up, 511, fresh up, by decide +kernel⟩,
    ⟨decided 1 (desc 1), 511, desc 1, fresh (decided 1 (desc 1)), by decide +kernel⟩,
    ⟨decided 2 (desc 1), 511, desc 1, fresh (decided 2 (desc 1)), by decide +kernel⟩,
    ⟨decided 4 (desc 1), 511, desc 1, fresh (decided 4 (desc 1)), by decide +kernel⟩,
    ⟨decided 5 (desc 1), 511, desc 1, fresh (decided 5 (desc 1)), by decide +kernel⟩,
    ⟨decided 3 PM, 511, PM, fresh (decided 3 PM), by decide +kernel⟩,
    ⟨decided 3 (tdesc 1 DAT 64), 511, tdesc 1 DAT 64, fresh (decided 3 (tdesc 1 DAT 64)), by decide +kernel⟩,
    ⟨decided 3 (tdesc 2 ENT 64), 511, tdesc 2 ENT 64, fresh (decided 3 (tdesc 2 ENT 64)), by decide +kernel⟩,
    ⟨(decided 5 (desc 1)).set (O.CH_CMPL_BASE 511) 4096, 511, desc 1, fresh ((decided 5 (desc 1)).set (O.CH_CMPL_BASE
      511) 4096), ⟨leBytes 4 9, 0, 0⟩, 4096, 0xABCDE00000000, fresh ((decided 5 (desc 1)).set (O.CH_CMPL_BASE 511)
      4096), by decide +kernel⟩,
    ⟨asleep, 511, desc 1, fresh asleep, ⟨leBytes 4 9, 0, 0⟩, by decide +kernel⟩,
    ⟨copying, 511, desc 1, fresh copying, ⟨9, 1, 8197, 256, 1⟩, hostPkt, 40, copied.1, ((fresh copying).useDesc
      hostPkt).2, copied.2.2, by decide +kernel⟩,
    ⟨working 2 (tdesc 1 DAT 64) id, 511, tdesc 1 DAT 64, fresh (working 2 (tdesc 1 DAT 64) id), by decide +kernel⟩,
    ⟨working 2 (tdesc 1 DAT 64) (had 64), 511, tdesc 1 DAT 64, fresh (working 2 (tdesc 1 DAT 64) (had 64)),
      by decide +kernel⟩,
    ⟨working 3 PM id, 511, PM, fresh (working 3 PM id), 8, O.HOST_PAGE_MAP, by decide +kernel⟩,
    ⟨working 3 (tdesc 1 O.HOST_PAGE_MAP 8) id, 511, tdesc 1 O.HOST_PAGE_MAP 8, fresh (working 3 (tdesc 1
      O.HOST_PAGE_MAP 8) id), 8, O.HOST_PAGE_MAP, by decide +kernel⟩,
    ⟨working 3 (tdesc 0 DAT 64) id, 511, tdesc 0 DAT 64, fresh (working 3 (tdesc 0 DAT 64) id), 64, DAT,
      by decide +kernel⟩,
    ⟨working 3 (tdesc 0 DAT 64) (had 64), 511, tdesc 0 DAT 64, fresh (working 3 (tdesc 0 DAT 64) (had 64)), 64, DAT,
      wload, by decide +kernel⟩,
    ⟨working 3 (tdesc 1 DAT 64) id, 511, tdesc 1 DAT 64, fresh (working 3 (tdesc 1 DAT 64) id), 64, DAT, wunload,
      by decide +kernel⟩,
    ⟨working 3 (tdesc 2 DAT 64) id, 511, tdesc 2 DAT 64, fresh (working 3 (tdesc 2 DAT 64) id), 64, DAT,
      by decide +kernel⟩,
    ⟨working 3 (tdesc 2 ENT 32) id, 511, tdesc 2 ENT 32, fresh (working 3 (tdesc 2 ENT 32) id), 32, ENT,
      by decide +kernel⟩,
    ⟨recs 0, 511, tdesc 2 ENT 32, fresh (recs 0), 32, ENT, wrec 0, by decide +kernel⟩,
    ⟨recs 1, 511, tdesc 2 ENT 32, fresh (recs 1), 32, ENT, wrec 1, by decide +kernel⟩,
    ⟨working 4 (desc 1) id, 511, desc 1, fresh (working 4 (desc 1) id), by decide +kernel⟩,
    ⟨exportingL, 511, desc 1, fresh exportingL, ⟨0, 0, [List.replicate 48 7]⟩, [], 1, exportHeader 2 1 48 1 0 0xFF 0
      ++ List.replicate 48 7, by decide +kernel⟩,
    ⟨exporting, 511, desc 1, fresh exporting, ⟨0, 0, [List.replicate 64 7]⟩, [], 1, exportHeader 1 1 64 1 0 0xFF 0 ++
      List.replicate 64 7, by decide +kernel⟩,
    ⟨working 5 (cdesc 0 64 15) id, 511, cdesc 0 64 15, fresh (working 5 (cdesc 0 64 15) id), 0, 64, 15,
      by decide +kernel⟩,
    ⟨(working 5 (cdesc (2 ^ 27 - 32) 64 32) id).putUnit (2 ^ 23 - 1) 77, 511, cdesc (2 ^ 27 - 32) 64 32, fresh
      ((working 5 (cdesc (2 ^ 27 - 32) 64 32) id).putUnit (2 ^ 23 - 1) 77), 2 ^ 27 - 32, 64, 32, by decide +kernel⟩⟩

theorem witness_ResetsAndConfigurationOfTheHostAttachment :
    (∃ (s : State), Runs s ∧ s.sys.perst = true) ∧
    (∃ (s : State), Runs s ∧ s.sys.perst = false) ∧
    (∃ (s : State), Runs s ∧ s.host.training = false) ∧
    (∃ (s : State), Runs s ∧ s.host.training = true) ∧
    (∃ (s : State), Runs s ∧ (s.sys.initDone = false ∨ s.hostReaches = false)) ∧
    (∃ (s : State), Runs s ∧ s.sys.initDone = true ∧ s.hostReaches = true) :=
  ⟨⟨{ up with sys := { up.sys with perst := true } }, by decide +kernel⟩,
    ⟨asking .last 2, by decide +kernel⟩,
    ⟨up, by decide +kernel⟩,
    ⟨{ up with host := { up.host with training := true } }, by decide +kernel⟩,
    ⟨State.reset, by decide +kernel⟩,
    ⟨up, by decide +kernel⟩⟩

theorem witness_SourcesPendAndReachTheirTargets :
    (∃ (s : State), Runs s ∧ s.irq.doorbells = []) ∧
    (∃ (s : State) (k : ℕ) (l : List ℕ), Runs s ∧ s.irq.doorbells = k :: l) ∧
    (∃ (s : State) (v : BitVec 32), Runs s ∧ 3840 ≤ v.toNat % 4096 ∧ v.toNat % 4096 ≤ 4094) ∧
    (∃ (s : State) (v : BitVec 32), Runs s ∧ (v.toNat % 4096 < 3840 ∨ v.toNat % 4096 = 4095)) ∧
    (∃ (s : State) (p : Sys2Proof.Path) (h : BitVec 16), Runs s ∧ Ready s p ∧ s.leasedAway p 11 = false ∧
      s.dict.busyTabs.contains O.IRQ_RAISE = false ∧ 3840 ≤ h.toNat ∧ h.toNat ≤ 4094) ∧
    (∃ (s : State) (p : Sys2Proof.Path) (h : BitVec 16), Runs s ∧ Ready s p ∧ s.leasedAway p 11 = false ∧
      s.dict.busyTabs.contains O.IRQ_RAISE = false ∧ (h.toNat < 3840 ∨ 4094 < h.toNat)) ∧
    (∃ (s : State) (t : Target) (m : ℕ), Runs s ∧ s.bestAt t.val = some m) ∧
    (∃ (s : State) (t : Target), Runs s ∧ s.messageDue t.val = false) ∧
    (∃ (s : State) (t : Target), Runs s ∧ s.messageDue t.val = true) ∧
    (∃ (s : State) (e : Fin 64), Runs s ∧ s.msixReady e.val = true ∧ e.val ∈ s.host.pba) ∧
    (∃ (s : State) (e : Fin 64), Runs s ∧ (s.msixReady e.val = false ∨ e.val ∉ s.host.pba)) ∧
    (∃ (s : State) (p : Sys2Proof.Path) (n : Source), Runs s ∧ Takes s p (O.SRC_WITHDRAW n.val) ∧ isSource n.val =
      false) ∧
    (∃ (s : State) (p : Sys2Proof.Path) (n : Source), Runs s ∧ Takes s p (O.SRC_WITHDRAW n.val) ∧ isSource n.val =
      true) ∧
    (∃ (s : State) (n : Source) (t : Target), Runs s ∧ s.destOf n.val = some t.val ∧ s.eligible n.val t.val = true ∧
      s.undeliverable t.val = true ∧ s.get (O.SRC_TARGET n.val) = t.val ∧ s.get (O.SRC_FALLBACK n.val) = 255) ∧
    (∃ (s : State) (n : Source) (t : Target), Runs s ∧ s.destOf n.val = some t.val ∧ s.eligible n.val t.val = true ∧
      s.undeliverable t.val = true ∧ s.get (O.SRC_TARGET n.val) = t.val ∧ s.get (O.SRC_FALLBACK n.val) ≠ 255) ∧
    (∃ (s : State) (n : Source), Runs s ∧ (∀ (k : ℕ), s.destOf n.val = some k → s.eligible n.val k = false ∨
      s.undeliverable k = false)) :=
  ⟨⟨up, by decide +kernel⟩,
    ⟨{ up with irq := { up.irq with doorbells := [5, 6] } }, 5, [6], by decide +kernel⟩,
    ⟨up, 0xF00, by decide +kernel⟩,
    ⟨up, 0xFFF, by decide +kernel⟩,
    ⟨up, .window 0, 0xFFE, by decide +kernel⟩,
    ⟨up, .window 0, 0xFFF, by decide +kernel⟩,
    ⟨src .pending 63, 63, 0xFFE, by decide +kernel⟩,
    ⟨src .idle 63, 63, by decide +kernel⟩,
    ⟨src .pending 63, 63, by decide +kernel⟩,
    ⟨msixUp up, 63, by decide +kernel⟩,
    ⟨up, 63, by decide +kernel⟩,
    ⟨up, .window 0, 0xFFF, by decide +kernel⟩,
    ⟨src .pending 67, .window 0, 0xFFE, by decide +kernel⟩,
    ⟨(src .pending 63).set (O.SRC_FALLBACK 0xFFE) 0xFF, 0xFFE, 63, by decide +kernel⟩,
    ⟨(src .pending 63).set (O.SRC_FALLBACK 0xFFE) 67, 0xFFE, 63, by decide +kernel⟩,
    ⟨src .idle 63, 0xFFE, by decide +kernel⟩⟩

theorem witness_TargetsClaimCompleteAndReset :
    (∃ (s : State) (t : Target) (n : ℕ), Runs s ∧ (s.itgt t.val).stack.length < 16 ∧ (s.itgt t.val).fault = false ∧
      s.bestAt t.val = some n) ∧
    (∃ (s : State) (t : Target), Runs s ∧ ((s.itgt t.val).stack.length < 16 ∧ ((s.itgt t.val).fault = true ∨ s.bestAt
      t.val = none))) ∧
    (∃ (s : State) (t : Target), Runs s ∧ 16 ≤ (s.itgt t.val).stack.length) ∧
    (∃ (s : State) (v : BitVec 32), Runs s ∧ v.toNat % 4096 = 4095) ∧
    (∃ (s : State) (t : Target) (v : BitVec 32), Runs s ∧ v.toNat % 4096 ≠ 4095 ∧ (s.itgt t.val).fault = true) ∧
    (∃ (s : State) (t : Target) (v : BitVec 32) (l : List (ℕ × ℕ)) (n : ℕ) (g : ℕ), Runs s ∧ n ≠ 4095 ∧ v.toNat % 4096
      = n ∧ (s.itgt t.val).fault = false ∧ (s.itgt t.val).stack = l ++ [(n, g)]) ∧
    (∃ (s : State) (t : Target) (v : BitVec 32), Runs s ∧ v.toNat % 4096 ≠ 4095 ∧ (s.itgt t.val).fault = false ∧
      (Option.map (fun x => x.1) (s.itgt t.val).stack.getLast? ≠ some (v.toNat % 4096))) ∧
    (∃ (s : State) (v : BitVec 32), Runs s ∧ v.toNat % 2 = 0) ∧
    (∃ (s : State) (v : BitVec 32), Runs s ∧ v.toNat % 2 = 1) ∧
    (∃ (s : State) (p : Sys2Proof.Path) (t : Target), Runs s ∧ Takes s p (O.STACK_RESET t.val)) ∧
    (∃ (s : State) (t : Target) (k : Target), Runs s ∧ k ≠ t) ∧
    (∃ (s : State) (t : Target) (n : ℕ), Runs s ∧ (∀ e ∈ (s.itgt t.val).stack, e.1 ≠ n)) :=
  ⟨⟨claimed [] false, 67, 0xFFE, by decide +kernel⟩,
    ⟨claimed [] true, 67, by decide +kernel⟩,
    ⟨claimed (List.replicate 16 (5, 0)) false, 67, by decide +kernel⟩,
    ⟨up, 0xFFF, by decide +kernel⟩,
    ⟨claimed [(5, 0)] true, 67, 5, by decide +kernel⟩,
    ⟨claimed [(7, 3), (5, 0)] false, 67, 5, [(7, 3)], 5, 0, by decide +kernel⟩,
    ⟨claimed [(7, 3), (5, 0)] false, 67, 7, by decide +kernel⟩,
    ⟨up, 2, by decide +kernel⟩,
    ⟨claimed [(7, 3), (5, 0)] true, 0xFFFFFFFF, by decide +kernel⟩,
    ⟨claimed [(7, 3), (5, 0)] true, .window 0, 67, by decide +kernel⟩,
    ⟨claimed [(7, 3), (5, 0)] true, 67, 66, by decide +kernel⟩,
    ⟨claimed [(7, 3), (5, 0)] true, 67, 9, by decide +kernel⟩⟩

theorem witness_ReportsFoldIntoRecords :
    (∃ (s : State) (b : LaneBank) (a : BitVec 32), Runs s ∧ s.damaged (96 + b.val) a.toNat = none ∧ s.seqRuns b.val =
      true) ∧
    (∃ (s : State) (k : Slate) (a : BitVec 32), Runs s ∧ s.damaged (2984 + k.val) a.toNat = none ∧ s.faults.armed = []
      ∧ s.slateRuns k.val = true) ∧
    (∃ (s : State), Runs s ∧ s.faults.reports = []) ∧
    (∃ (s : State) (r : Report) (l : List Report) (h : Held), Runs s ∧ s.faults.reports = r :: l ∧ (List.find? (fun h
      => decide (h.root.source = r.source ∧ h.root.unit = r.unit ∨ s.upstream r.unit h.root.unit = true))
      s.faults.held = some h)) ∧
    (∃ (s : State) (r : Report) (l : List Report), Runs s ∧ s.faults.reports = r :: l ∧ (∀ h ∈ s.faults.held,
      ¬(h.root.source = r.source ∧ h.root.unit = r.unit) ∧ s.upstream r.unit h.root.unit = false) ∧
      (s.faults.held.length < 256 ∨ ∃ h ∈ s.faults.held, s.upstream h.root.unit r.unit = true)) ∧
    (∃ (s : State) (r : Report) (l : List Report), Runs s ∧ s.faults.reports = r :: l ∧ (∀ h ∈ s.faults.held,
      ¬(h.root.source = r.source ∧ h.root.unit = r.unit) ∧ s.upstream r.unit h.root.unit = false) ∧ 256 ≤
      s.faults.held.length ∧ (∀ h ∈ s.faults.held, s.upstream h.root.unit r.unit = false) ∧ r.injected = false) ∧
    (∃ (s : State), Runs s ∧ s.faults.held = []) ∧
    (∃ (s : State) (h : Held) (rest : List Held) (n : ℕ) (c : ℕ) (seq : ℕ), Runs s ∧ s.faults.held = h :: rest ∧ n =
      h.root.source ∧ seq = (s.get O.FAULT_SEQ + 1) % 2 ^ 64 ∧ (c = if s.get (O.FAULT_STATE n) = FState.clear then 1
      else min (s.windowCount n + 1) 65535)) :=
  ⟨⟨{ up with sys := { up.sys with ucode := true } }, 7, 0xFFFFFFFF, by decide +kernel⟩,
    ⟨fwUp, 3, 9, by decide +kernel⟩,
    ⟨up, by decide +kernel⟩,
    ⟨reported [recOf { rep with reporter := unitId 5 0 }], rep, [], recOf { rep with reporter := unitId 5 0 },
      by decide +kernel⟩,
    ⟨reported [recOf otherR], rep, [], by decide +kernel⟩,
    ⟨reported (List.replicate 256 (recOf otherR)), rep, [], by decide +kernel⟩,
    ⟨up, by decide +kernel⟩,
    ⟨reported [recOf rep], recOf rep, [], 0x400, 1, 1, by decide +kernel⟩⟩

theorem witness_SourcesRecoverReactAndAreTested :
    (∃ (s : State) (n : Source), Runs s ∧ s.get (O.FAULT_STATE n.val) = FState.counting) ∧
    (∃ (s : State) (n : Source), Runs s ∧ s.get (O.FAULT_STATE n.val) ≠ FState.counting) ∧
    (∃ (s : State) (p : Sys2Proof.Path) (n : Source), Runs s ∧ Takes s p (O.FAULT_ACK n.val) ∧ isFaultSource n.val =
      false) ∧
    (∃ (s : State) (p : Sys2Proof.Path) (n : Source), Runs s ∧ Takes s p (O.FAULT_ACK n.val) ∧ isFaultSource n.val =
      true ∧ s.get (O.FAULT_STATE n.val) = FState.severe) ∧
    (∃ (s : State) (p : Sys2Proof.Path) (n : Source), Runs s ∧ Takes s p (O.FAULT_ACK n.val) ∧ isFaultSource n.val =
      true ∧ s.get (O.FAULT_STATE n.val) ≠ FState.severe) ∧
    (∃ (s : State) (n : Source), Runs s ∧ s.get (O.FAULT_STATE n.val) = FState.severe ∧ (s.get (O.SRC_CLASS n.val) ≠ 1
      ∨ s.flag (O.ESCALATE n.val) = false)) ∧
    (∃ (s : State) (n : Source), Runs s ∧ s.get (O.FAULT_STATE n.val) = FState.severe ∧ s.get (O.SRC_CLASS n.val) = 1
      ∧ s.flag (O.ESCALATE n.val) = true ∧ s.get (O.DOMAIN_ACTION (s.get (O.SEVERE_UNIT n.val) / 2 ^ 24)) ≠ 1) ∧
    (∃ (s : State) (n : Source), Runs s ∧ s.get (O.FAULT_STATE n.val) = FState.severe ∧ s.get (O.SRC_CLASS n.val) = 1
      ∧ s.flag (O.ESCALATE n.val) = true ∧ s.get (O.DOMAIN_ACTION (s.get (O.SEVERE_UNIT n.val) / 2 ^ 24)) = 1) ∧
    (∃ (s : State) (n : Source), Runs s ∧ FState.severe ≤ s.get (O.FAULT_STATE n.val)) ∧
    (∃ (s : State) (n : Source), Runs s ∧ s.get (O.FAULT_STATE n.val) < FState.severe) ∧
    (∃ (s : State) (p : Sys2Proof.Path) (n : Source) (unit : BitVec 32) (addr : BitVec 32) (i : Instr) (m : ℕ), Runs s
      ∧ (i, m) ∈ [(Instr.faultInjectEccSingle p n unit addr, 1), (Instr.faultInjectEccDouble p n unit addr, 2),
      (Instr.faultInjectParity p n unit addr, 3), (Instr.faultInjectReport p n unit addr, 4)] ∧ Takes s p
      O.FAULT_INJECT ∧ srcRow n.val = none) ∧
    (∃ (s : State) (p : Sys2Proof.Path) (n : Source) (unit : BitVec 32) (addr : BitVec 32) (i : Instr) (m : ℕ) (row :
      SrcRow), Runs s ∧ (i, m) ∈ [(Instr.faultInjectEccSingle p n unit addr, 1), (Instr.faultInjectEccDouble p n unit
      addr, 2), (Instr.faultInjectParity p n unit addr, 3), (Instr.faultInjectReport p n unit addr, 4)] ∧ Takes s p
      O.FAULT_INJECT ∧ srcRow n.val = some row ∧ (row.cls = 0 ∨ modeFits row.chk m = false ∨ unitFits n.val unit.toNat
      row = false)) ∧
    (∃ (s : State) (p : Sys2Proof.Path) (n : Source) (unit : BitVec 32) (addr : BitVec 32) (i : Instr) (m : ℕ) (row :
      SrcRow), Runs s ∧ (i, m) ∈ [(Instr.faultInjectEccSingle p n unit addr, 1), (Instr.faultInjectEccDouble p n unit
      addr, 2), (Instr.faultInjectParity p n unit addr, 3), (Instr.faultInjectReport p n unit addr, 4)] ∧ Takes s p
      O.FAULT_INJECT ∧ srcRow n.val = some row ∧ row.cls ≠ 0 ∧ modeFits row.chk m = true ∧ unitFits n.val unit.toNat
      row = true ∧ (16 ≤ (List.filter (fun x => x.unit == unit.toNat) s.faults.armed).length)) ∧
    (∃ (s : State) (p : Sys2Proof.Path) (n : Source) (unit : BitVec 32) (addr : BitVec 32) (i : Instr) (m : ℕ) (row :
      SrcRow), Runs s ∧ (i, m) ∈ [(Instr.faultInjectEccSingle p n unit addr, 1), (Instr.faultInjectEccDouble p n unit
      addr, 2), (Instr.faultInjectParity p n unit addr, 3), (Instr.faultInjectReport p n unit addr, 4)] ∧ Takes s p
      O.FAULT_INJECT ∧ srcRow n.val = some row ∧ row.cls ≠ 0 ∧ modeFits row.chk m = true ∧ unitFits n.val unit.toNat
      row = true ∧ ((List.filter (fun x => x.unit == unit.toNat) s.faults.armed).length < 16)) ∧
    (∃ (s : State) (ce : ℕ) (ue : ℕ) (u : ℕ) (a : ℕ) (src : ℕ) (to_ : ℕ) (m : ℕ) (w : State), Runs s ∧ s.faults.damage
      = [] ∧ s.faults.armed = [{ source := src, unit := u, addr := to_, mode := m, at_ := none }] ∧ w = s.wordWritten
      ce ue u a ∧ (src ≠ ce ∧ src ≠ ue ∨ to_ ≠ a ∧ to_ ≠ 4294967295)) ∧
    (∃ (s : State) (ce : ℕ) (ue : ℕ) (u : ℕ) (a : ℕ) (src : ℕ) (to_ : ℕ) (m : ℕ) (w : State), Runs s ∧ s.faults.damage
      = [] ∧ s.faults.armed = [{ source := src, unit := u, addr := to_, mode := m, at_ := none }] ∧ w = s.wordWritten
      ce ue u a ∧ (src = ce ∨ src = ue) ∧ (to_ = a ∨ to_ = 4294967295)) :=
  ⟨⟨(fstate 0x400 1).setWindow 0x400 5, 0x400, by decide +kernel⟩,
    ⟨fstate 0x400 2, 0x400, by decide +kernel⟩,
    ⟨up, .window 0, 0xFFF, by decide +kernel⟩,
    ⟨fstate 0x400 2, .window 0, 0x400, by decide +kernel⟩,
    ⟨fstate 0x400 1, .window 0, 0x400, by decide +kernel⟩,
    ⟨(fstate 0x400 2).set (O.ESCALATE 0x400) 0, 0x400, by decide +kernel⟩,
    ⟨(((fstate 0x400 2).set (O.ESCALATE 0x400) 1).set (O.SRC_CLASS 0x400) 1).set (O.DOMAIN_ACTION 0) 0, 0x400,
      by decide +kernel⟩,
    ⟨((((fstate 0x400 2).set (O.ESCALATE 0x400) 1).set (O.SRC_CLASS 0x400) 1).set (O.SEVERE_UNIT 0x400)
      0x02000005).set (O.DOMAIN_ACTION 2) 1, 0x400, by decide +kernel⟩,
    ⟨fstate 0x400 4, 0x400, by decide +kernel⟩,
    ⟨fstate 0x400 1, 0x400, by decide +kernel⟩,
    ⟨up, .window 0, 0xFFF, 0, 0, .faultInjectReport (.window 0) 0xFFF 0 0, 4, by decide +kernel⟩,
    ⟨up, .window 0, 0x400, 0x03000000, 9, .faultInjectParity (.window 0) 0x400 0x03000000 9, 3, row400,
      by decide +kernel⟩,
    ⟨{ up with faults := { Faults.reset with armed := List.replicate 16 ⟨0x400, 0x03000000, 9, 1, none⟩ } }, .window
      0, 0x400, 0x03000000, 9, .faultInjectEccSingle (.window 0) 0x400 0x03000000 9, 1, row400, by decide +kernel⟩,
    ⟨up, .window 0, 0x400, 0x03000000, 9, .faultInjectEccDouble (.window 0) 0x400 0x03000000 9, 2, row400,
      by decide +kernel⟩,
    ⟨armed1, 0x400, 0x500, 0x03000000, 8, 0x400, 9, 1, armed1.wordWritten 0x400 0x500 0x03000000 8, by decide +kernel⟩,
    ⟨armed1, 0x400, 0x500, 0x03000000, 9, 0x400, 9, 1, armed1.wordWritten 0x400 0x500 0x03000000 9, by decide +kernel⟩⟩

theorem witness_PowerAndResetInputs :
    (∃ (s : State) (v : BitVec 4) (i : Instr) (from_ : Power) (to_ : Power) (cause : ℕ) (straps : ℕ), (i, from_, to_,
      cause, straps) ∈ [(Instr.powerOn, Power.off, Power.reset, 0, 0), (Instr.sysResetAssert, Power.run, Power.reset,
      1, 0), (Instr.sysResetRelease v, Power.reset, Power.run, s.get O.RESET_CAUSE, v.toNat)] ∧ s.sys.power ≠ from_) ∧
    (∃ (s : State) (v : BitVec 4) (i : Instr) (from_ : Power) (to_ : Power) (cause : ℕ) (straps : ℕ), (i, from_, to_,
      cause, straps) ∈ [(Instr.powerOn, Power.off, Power.reset, 0, 0), (Instr.sysResetAssert, Power.run, Power.reset,
      1, 0), (Instr.sysResetRelease v, Power.reset, Power.run, s.get O.RESET_CAUSE, v.toNat)] ∧ s.sys.power = from_) ∧
    (∃ (s : State), s.sys.power = Power.off) ∧
    (∃ (s : State), s.sys.power ≠ Power.off) ∧
    (∃ (s : State) (pw : Power) (cause : ℕ) (straps : ℕ) (u : State), u = s.cleared pw cause straps) :=
  ⟨⟨up, 9, .powerOn, .off, .reset, 0, 0, by decide +kernel⟩,
    ⟨{ up with sys := { up.sys with power := .off } }, 9, .powerOn, .off, .reset, 0, 0, by decide +kernel⟩,
    ⟨{ up with sys := { up.sys with power := .off } }, by decide +kernel⟩,
    ⟨up.set (O.TB_RATE 7) 5, by decide +kernel⟩,
    ⟨up.set (O.TB_RATE 7) 5, .run, 1, 9, (up.set (O.TB_RATE 7) 5).cleared .run 1 9, by decide +kernel⟩⟩

theorem witness_BootVoltageAndTemperature :
    (∃ (s : State), Runs s ∧ s.sys.initDone = false) ∧
    (∃ (s : State), Runs s ∧ (s.sys.fw ≠ Fw.rom ∨ s.sys.initDone = false)) ∧
    (∃ (s : State) (k : ℕ), Runs s ∧ s.sys.fw = Fw.rom ∧ s.sys.initDone = true ∧ s.tryBoot s.bootOrder = (none, k)) ∧
    (∃ (s : State), Runs s ∧ s.sys.fw ≠ Fw.verified) ∧
    (∃ (s : State) (i : Image), Runs s ∧ s.sys.fw = Fw.verified ∧ s.sys.image = some i) ∧
    (∃ (s : State), Runs s ∧ bit (s.get O.STRAPS) 1 = true) ∧
    (∃ (s : State), Runs s ∧ bit (s.get O.STRAPS) 1 = false ∧ ((s.startupActive.bind fun k => startupRecords (imageAt
      k) s.sys.flash) = none)) ∧
    (∃ (s : State), Runs s ∧ s.sys.avsOut = false) ∧
    (∃ (s : State), Runs s ∧ s.sys.avsOut = true) ∧
    (∃ (s : State) (x : BitVec 32) (t : ℤ), Runs s ∧ t = toSigned 32 x.toNat) :=
  ⟨⟨State.reset, by decide +kernel⟩,
    ⟨State.reset, by decide +kernel⟩,
    ⟨romUp, 0, by decide +kernel⟩,
    ⟨romUp, by decide +kernel⟩,
    ⟨fwIn .verified, img 0, by decide +kernel⟩,
    ⟨up.set O.STRAPS 2, by decide +kernel⟩,
    ⟨up, by decide +kernel⟩,
    ⟨up, by decide +kernel⟩,
    ⟨{ up with sys := { up.sys with avsAsked := 700, avsOk := 700, avsOut := true } }, by decide +kernel⟩,
    ⟨up, 0xFFFFFFFF, -1, by decide +kernel⟩⟩

theorem witness_FirmwareIsVerifiedReplacedAndStored :
    (∃ (s : State) (p : Sys2Proof.Path), Runs s ∧ Takes s p O.FW_VERIFY ∧ s.sys.fw ≠ Fw.running ∧ s.sys.fw ≠
      Fw.noImage) ∧
    (∃ (s : State) (p : Sys2Proof.Path), Runs s ∧ Takes s p O.FW_VERIFY ∧ (s.sys.fw = Fw.running ∨ s.sys.fw =
      Fw.noImage) ∧ s.checkImage 2 0 s.sys.upload = none) ∧
    (∃ (s : State) (p : Sys2Proof.Path), Runs s ∧ Takes s p O.FW_ACTIVATE ∧ s.get O.FW_STATE ≠ 1) ∧
    (∃ (s : State) (p : Sys2Proof.Path), Runs s ∧ Takes s p O.FW_ACTIVATE ∧ s.get O.FW_STATE = 1) ∧
    (∃ (s : State) (i : Image) (j : Image), Runs s ∧ s.sys.fw = Fw.switching ∧ s.sys.waiting = some i ∧ s.sys.previous
      = some j) ∧
    (∃ (s : State) (i : Image), Runs s ∧ s.sys.fw = Fw.running ∧ s.sys.slateDown ≠ [] ∧ s.sys.image = some i) ∧
    (∃ (s : State), Runs s ∧ s.sys.fw ≠ Fw.switching ∧ (s.sys.fw ≠ Fw.running ∨ s.sys.slateDown = [])) ∧
    (∃ (s : State), Runs s ∧ s.sys.fw = Fw.switching ∧ s.sys.previous = none) ∧
    (∃ (s : State) (p : Sys2Proof.Path), Runs s ∧ Takes s p O.FW_STORE ∧ s.storable = none) ∧
    (∃ (s : State) (p : Sys2Proof.Path) (i : Image), Runs s ∧ Takes s p O.FW_STORE ∧ s.storable = some i) ∧
    (∃ (s : State), Runs s ∧ s.cmdRunning O.FW_STORE = false) ∧
    (∃ (s : State) (i : Image), Runs s ∧ s.cmdRunning O.FW_STORE = true ∧ s.sys.storeImg = some i) ∧
    (∃ (s : State) (p : Sys2Proof.Path), Runs s ∧ Takes s p O.STARTUP_STORE ∧ startupRecords 0 s.sys.startUp = none) ∧
    (∃ (s : State) (p : Sys2Proof.Path), Runs s ∧ Takes s p O.STARTUP_STORE ∧ (startupRecords 0 s.sys.startUp).isSome
      = true) ∧
    (∃ (s : State), Runs s ∧ (s.sys.storeStart = none ∨ s.cmdRunning O.STARTUP_STORE = false)) ∧
    (∃ (s : State) (k : Slate), Runs s ∧ s.slateRuns k.val = false) ∧
    (∃ (s : State) (k : Slate) (pc : BitVec 32) (i : Instr) (src : ℕ), Runs s ∧ (i, src) ∈ [(Instr.slateWatchdogExpire
      k pc, 2992 + k.val), (Instr.slateMemoryUe k, 2988 + k.val)] ∧ s.slateRuns k.val = true) ∧
    (∃ (s : State) (p : Sys2Proof.Path) (d : List Byte), Runs s ∧ Takes s p O.DIAG_UNLOCK ∧ d.length ≤ 1024) :=
  ⟨⟨romUp, .window 0, by decide +kernel⟩,
    ⟨fwUp, .window 0, by decide +kernel⟩,
    ⟨fwIn .running, .window 0, by decide +kernel⟩,
    ⟨(fwIn .running).set O.FW_STATE 1, .window 0, by decide +kernel⟩,
    ⟨fwIn .switching, img 1, img 0, by decide +kernel⟩,
    ⟨{ fwIn .running with sys := { (fwIn .running).sys with slateDown := [3] } }, img 0, by decide +kernel⟩,
    ⟨fwIn .running, by decide +kernel⟩,
    ⟨{ fwIn .switching with sys := { (fwIn .switching).sys with previous := none } }, by decide +kernel⟩,
    ⟨up, .window 0, by decide +kernel⟩,
    ⟨fwIn .running, .window 0, (fwIn .running).storable.getD (img 0), by decide +kernel⟩,
    ⟨up, by decide +kernel⟩,
    ⟨{ up.cmdRun O.FW_STORE with sys := { up.sys with storing := 1, storeImg := some (img 1), storeSvn := true } },
      img 1, by decide +kernel⟩,
    ⟨up, .window 0, by decide +kernel⟩,
    ⟨startupUp, .window 0, by decide +kernel⟩,
    ⟨up, by decide +kernel⟩,
    ⟨up, 3, by decide +kernel⟩,
    ⟨fwUp, 3, 9, .slateWatchdogExpire 3 9, 0xBB3, by decide +kernel⟩,
    ⟨up, .window 0, [1, 2, 3], by decide +kernel⟩⟩

theorem witness_TileServiceAndBoardMasters :
    (∃ (s : State) (p : Sys2Proof.Path) (t : Tile), Runs s ∧ Takes s p (O.TILE_RELOAD t.val) ∧ s.get (O.TILE_SERVICE
      t.val) ≠ 2) ∧
    (∃ (s : State) (p : Sys2Proof.Path) (t : Tile), Runs s ∧ Takes s p (O.TILE_RELOAD t.val) ∧ s.get (O.TILE_SERVICE
      t.val) = 2) ∧
    (∃ (s : State) (t : Tile), Runs s ∧ (s.get (O.TILE_SERVICE t.val) ≠ 1 ∨ s.tileDrained t.val = false ∨
      (s.reloadCommit t.val).isSome = true)) ∧
    (∃ (s : State) (t : Tile), Runs s ∧ s.get (O.TILE_SERVICE t.val) = 1 ∧ s.tileDrained t.val = true ∧ s.reloadCommit
      t.val = none ∧ s.tilePorts t.val = [] ∧ s.g4Lanes t.val = []) ∧
    (∃ (s : State) (t : Tile) (k : Commit), Runs s ∧ k ∈ s.dict.commits ∧ k.groups.contains (208 + t.val / 2) = true ∧
      k.phase = CPhase.validating) ∧
    (∃ (s : State) (t : Tile) (paled : List ℕ), Runs s ∧ t.val ∈ paled) ∧
    (∃ (s : State) (t : Tile) (gs : List ℕ), Runs s ∧ s.changes gs (O.TILE_PROFILE t.val) = true ∧ s.endsReload gs
      t.val = false) ∧
    (∃ (s : State) (p : Sys2Proof.Path) (i : Fin 16) (d : List Byte), Runs s ∧ Takes s p (O.TW_XFER i.val) ∧ d.length
      ≤ 68 ∧ (d.length < 4 ∨ d.length ≠ 4 + byteAt d 1)) ∧
    (∃ (s : State) (p : Sys2Proof.Path) (i : Fin 16) (d : List Byte), Runs s ∧ Takes s p (O.TW_XFER i.val) ∧ d.length
      ≤ 68 ∧ d.length = 4 + byteAt d 1 ∧ 64 < byteAt d 2) ∧
    (∃ (s : State) (p : Sys2Proof.Path) (i : Fin 16) (d : List Byte), Runs s ∧ Takes s p (O.TW_XFER i.val) ∧ d.length
      ≤ 68 ∧ d.length = 4 + byteAt d 1 ∧ byteAt d 2 ≤ 64 ∧ i.val = 15) ∧
    (∃ (s : State) (i : Fin 16), Runs s ∧ s.cmdRunning (O.TW_XFER i.val) = false) ∧
    (∃ (s : State) (i : Fin 16) (q : List Byte), Runs s ∧ s.cmdRunning (O.TW_XFER i.val) = true ∧ q = look []
      s.sys.busOps i.val) ∧
    (∃ (s : State) (p : Sys2Proof.Path) (j : Fin 4) (c : Bool) (port : BitVec 5) (dev : BitVec 5) (v : BitVec 16) (ins
      : Instr) (cl : Bool) (op : ℕ) (x : ℕ), Runs s ∧ (ins, cl, op, x) ∈ [(Instr.mdioRead p j c port dev, c, 0, 0),
      (Instr.mdioWrite p j c port dev v, c, 1, v.toNat), (Instr.mdioAddress p j port dev v, true, 2, v.toNat),
      (Instr.mdioReadIncrement p j port dev, true, 3, 0)] ∧ Takes s p (O.MDIO_XFER j.val)) ∧
    (∃ (s : State) (j : Fin 4), Runs s ∧ s.cmdRunning (O.MDIO_XFER j.val) = false) ∧
    (∃ (s : State) (j : Fin 4) (op : ℕ), Runs s ∧ s.cmdRunning (O.MDIO_XFER j.val) = true ∧ op = byteAt (look []
      s.sys.busOps (16 + j.val)) 3) :=
  ⟨⟨up, .window 0, 31, by decide +kernel⟩,
    ⟨up.set (O.TILE_SERVICE 31) 2, .window 0, 31, by decide +kernel⟩,
    ⟨up, 31, by decide +kernel⟩,
    ⟨noPorts, 31, by decide +kernel⟩,
    ⟨validating31, 31, ⟨1, [0xDF], [0xDF], .validating, [], [], .window 0, [], [], true⟩, by decide +kernel⟩,
    ⟨validating31, 31, [31], by decide +kernel⟩,
    ⟨profiled, 31, [0xDF], by decide +kernel⟩,
    ⟨up, .window 0, 15, [1, 2, 3], by decide +kernel⟩,
    ⟨up, .window 0, 15, [0x50, 1, 65, 0, 7], by decide +kernel⟩,
    ⟨up, .window 0, 15, tw, by decide +kernel⟩,
    ⟨up, 14, by decide +kernel⟩,
    ⟨twOn, 14, tw, by decide +kernel⟩,
    ⟨up, .window 0, 3, true, 31, 30, 9, .mdioWrite (.window 0) 3 true 31 30 9, true, 1, 9, by decide +kernel⟩,
    ⟨up, 3, by decide +kernel⟩,
    ⟨mdioOn 0, 3, 0, by decide +kernel⟩⟩

/-! ### Witnesses that rest on a free value of the model

`decide` cannot see a free value (log 4); these witnesses are built for whatever value it has. -/

/-- FRAMES_LEAVE_A_PORT, a first cell that cannot be read: the syndrome in the report is a free value. -/
theorem witness_FramesLeaveAPort_badCell :
    ∃ (s : State) (p : Port) (w : List Nat × State) (v : State) (g : Nat) (q : Pkt) (h : Holder) (r : Bool × State),
      Runs s ∧ (s.port p).up = true ∧ (s.port p).txExp = none ∧ w = (fresh s).sweepHeads p ((fresh s).members p) ∧
      v = w.2.each ((w.1.filter (w.2.mayGo p false)).filter fun g =>
        !((w.1.filter (w.2.mayGo p false)).filter (w.2.headGuard p)).contains g) (fun s g => s.count64 (O.SCHED_COUNTS g 6)) ∧
      v.choose ((w.1.filter (w.2.mayGo p false)).filter (w.2.headGuard p)) = some g ∧ v.head g = some (q, h) ∧
      r = (v.useDesc q).2.readCells p (q.cells.take 1) ∧
      (v.useDesc q).1 = false ∧ (q.poison = true ∨ r.1 = true) :=
  ⟨damagedQ, 511, goW damagedQ, goV damagedQ, 8179, enq 8179, heldBy 8179, ((goV damagedQ).useDesc (enq 8179)).2.readCells 511 [12],
    by decide +kernel, by decide +kernel, by decide +kernel, rfl, rfl, by decide +kernel, by decide +kernel, rfl,
    by decide +kernel, by decide +kernel⟩

/-- A HELLO frame of manager 0: the cookie of its answer is a free value's. -/
theorem witness_BolsySessions_hello :
    ∃ (s : State) (m : MgmtPort) (f : Udp) (mid : Nat) (nm nd : List Byte),
      mid = byteAt (f.payload.drop 16) 0 ∧ nm = slice (f.payload.drop 16) 4 16 ∧
      nd = cookie s.dict.secretNow f mid nm ∧ BolsyComes s m f 1 ∧ s.managerOn mid = true ∧
      ((s.dict.hellos.filter fun h => decide (s.now < h.2 + ticksOfS 1)).filter (·.1 == m.val)).length <
        s.get O.HELLO_RATE :=
  ⟨fwUp.set (O.MANAGER_ENABLE 0) 1, 0, helloF, 0, List.replicate 16 3, _, by decide +kernel, by decide +kernel, rfl,
    by decide +kernel, by decide +kernel, by decide +kernel⟩

theorem fits_of_fields (b : List Byte) (l : b.length = 72) (g : beAt b 0 2 = 0xB015) (v : byteAt b 2 = 1)
    (t : byteAt b 3 = 3) (n : beAt b 6 2 = 40) : frameFits b = true := by
  simp [frameFits, maxPayload, l, g, v, t, n]

/-- The fields of an OPEN frame that carries any 16 bytes as its cookie and any 16 as its tag. -/
theorem openFields (ck tag : List Byte) (hc : ck.length = 16) (ht : tag.length = 16) :
    let b := openBody ck ++ tag
    slice (b.drop 16) 20 16 = ck ∧ frameFits b = true ∧ byteAt b 3 = 3 ∧ b.drop (b.length - 16) = tag ∧
      b.take (b.length - 16) = openBody ck ∧ byteAt (b.drop 16) 0 = 0 ∧ slice (b.drop 16) 4 16 = List.replicate 16 3 := by
  match ck, hc with
  | [_, _, _, _, _, _, _, _, _, _, _, _, _, _, _, _], _ =>
    match tag, ht with
    | [_, _, _, _, _, _, _, _, _, _, _, _, _, _, _, _], _ =>
      exact ⟨rfl, fits_of_fields _ rfl (Eq.trans (b := beAt [nb 0xB0, nb 0x15] 0 2) rfl (by decide)) rfl rfl
        (Eq.trans (b := beAt (beBytes 2 40) 0 2) rfl (by decide)), rfl, rfl, rfl, rfl, rfl⟩

theorem witness_BolsySessions_open :
    ∃ (s : State) (m : MgmtPort) (f : Udp) (k : Session) (mid : Nat) (nm nd : List Byte),
      mid = byteAt (f.payload.drop 16) 0 ∧ nm = slice (f.payload.drop 16) 4 16 ∧
      nd = slice (f.payload.drop 16) 20 16 ∧ BolsyComes s m f 3 ∧ s.managerOn mid = true ∧
      nd = cookie s.dict.secretNow f mid nm ∧ tagOk (sessionKeys (s.managerKey mid) nm nd).1 f.payload = true ∧
      (∀ e ∈ s.dict.sessions, ¬ (e.2.nm = nm ∧ e.2.nd = nd)) ∧
      firstFrom (fun j => (s.session? j).isNone) 0 8 = some k.val := by
  obtain ⟨h1, h2, h3, h4, h5, h6, h7⟩ := openFields openCookie openTag (by simp [openCookie, cookie, length_hmac])
    (by simp [openTag, length_hmac])
  refine ⟨managerUp, 0, dgram (openBody openCookie ++ openTag), 0, 0, List.replicate 16 3, openCookie, h6.symm, h7.symm,
    h1.symm, ⟨by decide +kernel, by decide +kernel, by decide +kernel, by decide +kernel, by decide +kernel,
      by decide +kernel, by decide +kernel, by decide +kernel, h2, h3⟩, by decide +kernel, rfl, ?_, ?_, by decide +kernel⟩
  · show tagOk _ (openBody openCookie ++ openTag) = true
    simp only [tagOk, h4, h5]
    exact beq_self_eq_true _
  · decide +kernel

/-- A startup image to store: 4 MiB are written, too many for `decide` to build. -/
theorem witness_FirmwareIsVerifiedReplacedAndStored_startup :
    ∃ (s : State) (m : List (Nat × Nat)) (j : Nat) (f : List (Nat × Nat)), Runs s ∧ s.sys.storeStart = some m ∧
      s.cmdRunning O.STARTUP_STORE = true ∧ j = (match s.startupActive with | some a => 1 - a | none => 0) ∧
      f = writeRegion (imageAt j) (readRegion 0x400000 0 m) s.sys.flash :=
  ⟨{ up.cmdRun O.STARTUP_STORE with sys := { up.sys with storeStart := some [(5, 7)] } }, [(5, 7)], 0, _,
    by decide +kernel, rfl, by decide +kernel, by decide +kernel, rfl⟩

theorem readRegion_past (n a : Nat) (v k : Nat) (h : k < n) :
    readRegion n a [(a + k, v)] = zeros k ++ nb v :: zeros (n - k - 1) := by
  induction k generalizing n a with
  | zero =>
    obtain ⟨n, rfl⟩ : ∃ m, n = m + 1 := ⟨n - 1, by omega⟩
    cases n <;> simp [readRegion, zeros]
  | succ k ih =>
    obtain ⟨n, rfl⟩ : ∃ m, n = m + 1 := ⟨n - 1, by omega⟩
    have e : a + (k + 1) = a + 1 + k := by omega
    have g : ¬ a + (k + 1) = a := by omega
    simp only [readRegion, List.dropWhile, show decide (a + (k + 1) < a) = false by simp, if_neg g]
    rw [e, ih n (a + 1) (by omega)]
    simp [zeros, List.replicate_succ]

theorem take_zeros (k : Nat) (l : List Byte) : (zeros k ++ l).take k = zeros k := by
  rw [List.take_append_of_le_length (by simp [zeros]), List.take_of_length_le (by simp [zeros])]

theorem leAt_zeros (k n : Nat) (l : List Byte) : leAt (zeros k ++ l) k n = leAt l 0 n := by
  simp [leAt, byteAt, zeros, List.getElem?_append_right]

/-- The device data when the flash lists only a byte of its CRC word. -/
def crcFlash (v : Nat) : State := { up with sys := { up.sys with flash := [(0x1000000 + 65532, v)] } }

theorem deviceData_crcFlash (v : Nat) (h : crc32 (zeros 65532) ≠ leAt (nb v :: zeros 3) 0 4) :
    (crcFlash v).deviceData = none := by
  have r : (crcFlash v).flashRead 0x1000000 65536 = zeros 65532 ++ nb v :: zeros 3 :=
    readRegion_past 65536 0x1000000 v 65532 (by omega)
  simp only [State.deviceData, r, take_zeros, leAt_zeros, if_neg h]

/-- Two flashes that differ in the CRC word of the device data: the CRC fails on one of them at least. -/
theorem witness_BootVoltageAndTemperature_deviceData : ∃ s : State, Runs s ∧ s.deviceData = none := by
  by_cases c : crc32 (zeros 65532) = 0
  · exact ⟨crcFlash 1, rfl, deviceData_crcFlash 1 (by rw [c]; decide)⟩
  · exact ⟨crcFlash 0, rfl, deviceData_crcFlash 0 (by rwa [show leAt (nb 0 :: zeros 3) 0 4 = 0 by decide])⟩

/-- A flash whose slots A and B hold one image: header of version 7, key 0, and a body of 64 zero bytes with its digest. -/
def imageHead : List Byte := patch (patch (zeros 256) 0 (leBytes 4 0x51A7E4F1 ++ leBytes 4 7 ++ leBytes 2 3 ++ [0, 0] ++ leBytes 4 64))
  16 (sha384 (zeros 64))
def imaged : State :=
  { romUp with sys := { romUp.sys with
    flash := writeRegion 0x800000 imageHead (writeRegion 0 imageHead []), upload := writeRegion 0 imageHead [] } }

/-- Whether an image passes turns on free values, the signature check and the revocation mask (log 4): where they accept
one, the image in either slot and the uploaded one pass, and both slots are candidates. -/
theorem witness_imagesPass (hk : Config.keyRevoked 0 = false) (hs : ∀ k h g, Config.signatureOk k h g = true) :
    ∃ s : State, Runs s ∧ s.sys.fw = .rom ∧ s.sys.initDone = true ∧
      s.candidate (s.flashRead (slotAt 0) 256) = true ∧ s.candidate (s.flashRead (slotAt 1) 256) = true ∧
      (∃ i, s.tryBoot s.bootOrder = (some i, 0)) ∧
      (Takes { s with sys := { s.sys with fw := .noImage } } (.window 0) O.FW_VERIFY ∧
        (s.checkImage 2 0 s.sys.upload).isSome = true) := by
  have h0 : imaged.flashRead (slotAt 0) 256 = imageHead := by decide +kernel
  have h1 : imaged.flashRead (slotAt 1) 256 = imageHead := by decide +kernel
  have h2 : readRegion 256 0 imaged.sys.upload = imageHead := by decide +kernel
  have b0 : readRegion (bodyLen imageHead) (slotAt 0 + 256) imaged.sys.flash = zeros 64 := by decide +kernel
  have b2 : readRegion (bodyLen imageHead) (0 + 256) imaged.sys.upload = zeros 64 := by decide +kernel
  have key : byteAt imageHead 10 = 0 := by decide +kernel
  have c : imaged.candidate imageHead = true := by
    simp only [State.candidate, key, hk]
    decide +kernel
  have g : imageSound imageHead (zeros 64) = true := by
    simp only [imageSound, hs]
    decide +kernel
  have o : imaged.bootOrder = [0, 1] := by
    simp only [State.bootOrder, h0, h1, List.filter_cons, c, if_true, List.filter_nil]
    decide +kernel
  refine ⟨imaged, rfl, rfl, rfl, by rw [h0]; exact c, by rw [h1]; exact c, ?_, by decide +kernel, ?_⟩
  · rw [o]
    refine ⟨mkImage 0 imageHead (zeros 64), ?_⟩
    have e : imaged.checkImage 0 (slotAt 0) imaged.sys.flash = some (mkImage 0 imageHead (zeros 64)) := by
      simp only [State.checkImage, show readRegion 256 (slotAt 0) imaged.sys.flash = imageHead from h0, c, b0, g]
      rfl
    simp only [State.tryBoot, e]
  · simp only [State.checkImage, h2, c, b2, g]
    rfl

theorem witness_GoodStatesStayGood :
    Good State.reset ∧ ∃ s : State, Good s ∧ ¬ Runs s ∧ s.pending.head? = none :=
  ⟨⟨fun _ h => (by cases h), fun h => absurd rfl h⟩,
    { State.reset with sys := { State.reset.sys with power := .reset } },
    ⟨fun _ h => (by cases h), fun _ => ⟨rfl, rfl, rfl, rfl, rfl, rfl, rfl, rfl, rfl, rfl, rfl, rfl, rfl, rfl, rfl, rfl,
      fun _ _ _ _ _ => rfl⟩⟩, fun h => (by cases h), rfl⟩

/-! ### A trie of one prefix (R176)

`TrieHolds` speaks of every entry of every array, too many for `decide`. -/

/-- Table 62 with the route 10.1.0.0/16, and its one entry of level 1. -/
def routed : State :=
  { tabL with lookup := { tabL.lookup with recs := [recL 5], store := [(66176, (2 ^ 30 + 5) * 2 ^ 32)] } }

theorem routed_entry (i : Nat) (h : i < 65536) :
    routed.levelEntry dL 1 0 i = if i = 2561 then 2 ^ 30 + 5 else 0 := by
  have g : dL.regions.getD 1 (0, 0) = (16384, 8192) := by decide +kernel
  have n : dL.arrayLen 1 = 65536 := by decide +kernel
  have e : dL.levelAt 1 0 i = (65536 + i / 4, i % 4) := by
    simp only [Decl.levelAt, g, n]
    exact Prod.ext (by simp only; omega) (by simp only; omega)
  have u : routed.unit (65536 + i / 4) = if i / 4 = 640 then (2 ^ 30 + 5) * 2 ^ 32 else 0 := by
    show look 0 [(66176, _)] _ = _
    by_cases c : i / 4 = 640
    · simp [look, c]
    · simp [look, c]; omega
  simp only [State.levelEntry, e, u]
  by_cases c : i / 4 = 640
  · obtain m | m | m | m : i = 2560 ∨ i = 2561 ∨ i = 2562 ∨ i = 2563 := by omega
    all_goals subst m; decide
  · rw [if_neg c, if_neg (by omega)]; simp

theorem routed_arrays (k r : Nat) : routed.arrayOf dL (k + 2) r = none := by
  induction k generalizing r with
  | zero =>
    have n : dL.arrayLen 1 = 65536 := by decide +kernel
    have e := routed_entry (r % 65536) (by omega)
    simp only [State.arrayOf, n, e]
    split <;> simp_all
  | succ k ih => rw [State.arrayOf, ih]

theorem routed_trie : TrieHolds routed 62 dL := by
  refine ⟨by decide +kernel, fun k r a i h1 h2 hr ha hi => ?_⟩
  match k, h1 with
  | 1, _ =>
    have n : dL.arrayLen 1 = 65536 := by decide +kernel
    have z : r = 0 := by
      have : dL.lo 1 = 0 := by decide +kernel
      rw [this] at hr; omega
    subst z
    obtain rfl : 0 = a := by simpa [State.arrayOf] using ha
    rw [routed_entry i (by omega), n]
    have c : dL.hi 1 = 16 := by decide +kernel
    have w : dL.width = 32 := by decide +kernel
    have l : routed.recsOf 62 = [recL 5] := by decide +kernel
    have g : ranges [recL 5] 32 16 = [] := by decide +kernel
    simp only [Decl.entryFor, c, w, l, g]
    by_cases q : i = 2561
    · subst q; decide +kernel
    · simp [bestRec, LRec.covers, recL, q]
  | k + 2, _ => rw [routed_arrays] at ha; cases ha

/-- A packet whose destination, as step 0 of a plan on table 62 reads it, is 10.1.0.7; or 11.1.0.7. -/
theorem witness_MatchStagesAndLearning_prefix :
    (∃ (s : State) (k : Pkt) (x : PlanStep) (d : Decl) (key : Nat) (e : LRec), Runs s ∧ d = s.declP k x.table ∧
      s.faults.damage = [] ∧ d.isLpm = true ∧ key = beNat (x.key k.ctx) ∧ key < 2 ^ d.width ∧ TrieHolds s x.table d ∧
      e ∈ s.recsOf x.table ∧ e.covers d.width key = true ∧
      ∀ z ∈ s.recsOf x.table, z.covers d.width key = true → z = e ∨ z.len < e.len) ∧
    ∃ (s : State) (k : Pkt) (x : PlanStep) (d : Decl) (key : Nat), Runs s ∧ d = s.declP k x.table ∧
      s.faults.damage = [] ∧ d.isLpm = true ∧ key = beNat (x.key k.ctx) ∧ key < 2 ^ d.width ∧ TrieHolds s x.table d ∧
      ∀ e ∈ s.recsOf x.table, e.covers d.width key = false :=
  ⟨⟨routed, { inReorder with ctx := [10, 1, 0, 7] }, ⟨62, 0, 0, 4, 0, 0, 1, 0⟩, dL, 0x0A010007, recL 5, by decide +kernel,
      by decide +kernel, by decide +kernel, by decide +kernel, by decide +kernel, by decide +kernel, routed_trie,
      by decide +kernel, by decide +kernel, by decide +kernel⟩,
    ⟨routed, { inReorder with ctx := [11, 1, 0, 7] }, ⟨62, 0, 0, 4, 0, 0, 1, 0⟩, dL, 0x0B010007, by decide +kernel,
      by decide +kernel, by decide +kernel, by decide +kernel, by decide +kernel, by decide +kernel, routed_trie,
      by decide +kernel⟩⟩

/-- The word 1: operation code 0 with an operand. -/
theorem witness_OchreDecodesWhatItEncodes_undefined :
    ∃ (t : Tile) (c : Core) (w : Nat), (∀ i, ochreEncode i ≠ some w) ∧ ochreDecode t c w = none := by
  refine ⟨0, 0, 1, fun i => ?_, by decide⟩
  cases i <;> simp [ochreEncode, ochreWord, loadWord] <;> omega

theorem witness_ObjectsStayCanonical :
    objsCanonical State.reset.dict.objs = true ∧ ∃ s : State, objsCanonical s.dict.objs = true ∧ s.dict.objs ≠ [] :=
  ⟨by decide +kernel, up.set (O.TB_RATE 7) 5, by decide +kernel, by decide +kernel⟩

/-- A step that meets a damaged unit: the syndrome in its report is a free value. -/
theorem witness_MatchStagesAndLearning_unread :
    ∃ (s : State) (k : Pkt) (g : Gather) (m : Option ActSet) (fault : Bool) (v : State), Runs s ∧
      g = (s.runSteps k Gather.none (s.planP k)).1 ∧
      (s.runSteps k Gather.none (s.planP k)).2.mamStep k = (m, fault, v) ∧ (g.bad = true ∨ m = none) :=
  ⟨hurt (planned tabD [(61, 0, 0)]) 0x300 1, kp, _, _, _, _, by decide +kernel, rfl, rfl, .inl (by decide +kernel)⟩

end Sys2Proof.Tests
end

section
/-!
What a write of the dictionary does (R34, R38-R43): the checks it passes as equations of `writeOp` and `stageOp`, what
staging changes, and the statement on WRITE and WRITE_STAGED assembled from them.
-/
namespace Sys2Proof.Machine

/-! ### What emptying the outputs leaves as it is -/

@[simp] theorem fresh_pathOpen (s : State) (p : Path) : (fresh s).pathOpen p = s.pathOpen p := rfl
@[simp] theorem fresh_groupSt (s : State) (g : Nat) : (fresh s).groupSt g = s.groupSt g := rfl

/-! ### Answers -/

/-- A WRITE answers the code of `writeOp` and leaves its state. -/
theorem exec_write_answers {s u : State} {p : Path} {a : Ref} {off e : Nat} {d : List Byte} (h : Ready s p)
    (hw : (fresh s).writeOp p a off d = (e, u)) : exec (.write p a off d) s = .next (answers s p e u) := by
  obtain ⟨hrun, hopen⟩ := h
  rw [exec_write, execWrite, live_ran hrun]
  simp [State.direct, hopen, State.dictOp, hw, answers]

/-- A WRITE_STAGED answers the code of `stageOp` and leaves its state. -/
theorem exec_writeStaged_answers {s u : State} {p : Path} {a : Ref} {off e : Nat} {d : List Byte} (h : Ready s p)
    (hw : (fresh s).stageOp p a off d = (e, u)) : exec (.writeStaged p a off d) s = .next (answers s p e u) := by
  obtain ⟨hrun, hopen⟩ := h
  rw [exec_writeStaged, execWriteStaged, live_ran hrun]
  simp [State.direct, hopen, State.dictOp, hw, answers]

/-- An operation without effect is answered as a refusal is. -/
theorem answers_fresh {s : State} (h : Runs s) (p : Path) (e : Nat) : answers s p e (fresh s) = refused s p e :=
  ran_eq rfl h

/-! ### The object tables -/

/-- A check that each of the areas 0 to E passes holds of every row of every area. -/
theorem areaRows_of_all {f : ObjRow → Bool} (h : ((List.range 15).all fun n => (areaRows n).all f) = true) {n : Nat}
    {r : ObjRow} (hr : r ∈ areaRows n) : f r = true := by
  have hn : n < 15 := by
    by_contra hn
    obtain ⟨k, rfl⟩ := Nat.exists_eq_add_of_le' (not_lt.1 hn)
    exact absurd (show r ∈ [] from hr) List.not_mem_nil
  exact List.all_eq_true.1 (List.all_eq_true.1 h n (List.mem_range.2 hn)) r hr

theorem indexRows_ne_w1c {idx : Nat} {r : ObjRow} (h : r ∈ indexRows idx) : r.acc ≠ .w1c := by
  have hall : ((List.range 15).all fun n => (areaRows n).all fun r => r.acc != .w1c) = true := by decide +kernel
  simpa using areaRows_of_all hall (List.mem_of_mem_filter h)

/-- A TABLE is no RC object and belongs to no commit group. -/
theorem indexRows_table {idx : Nat} {r : ObjRow} (h : r ∈ indexRows idx) (ht : r.ty = .table) :
    r.acc ≠ .rc ∧ r.grp = .none := by
  have hall : ((List.range 15).all fun n => (areaRows n).all fun r =>
      r.ty != .table || (r.acc != .rc && r.grp == .none)) = true := by decide +kernel
  simpa [ht] using areaRows_of_all hall (List.mem_of_mem_filter h)

/-- The row found is one of the index's own, or the U8 at sub-index 00 of an object without a value there (R8). -/
theorem rowOf_mem {rows : List ObjRow} {sub : Nat} {o : ObjRow} (h : rowOf rows sub = some o) :
    o ∈ rows ∨ o.ty = .u8 := by
  unfold rowOf at h
  split at h
  · rename_i hfind
    cases h
    exact .inl (List.mem_of_find?_eq_some hfind)
  · split at h
    · cases rows with
      | nil => cases h
      | cons r rs => cases h; exact .inr rfl
    · cases h

theorem finds_mem {s : State} {b : Bool} {a : Ref} {o : ObjRow} (h : Finds s b a o) :
    o ∈ indexRows a.idx ∨ o.ty = .u8 := by
  unfold Finds State.locate at h
  split at h
  · cases h
  · rename_i r rest hrows
    rw [hrows]
    split at h
    · cases h
    · split at h
      · cases h
      · rename_i x hx
        split at h
        · cases h
        · cases h; exact rowOf_mem hx

/-! ### The checks of an immediate write (R34, R40) -/

theorem isNumber_ty {o : ObjRow} (h : isNumber o = true) : o.ty ≠ .blob ∧ o.ty ≠ .table := by
  constructor <;> intro ht <;> simp [isNumber, ht] at h

theorem State.dataFits_number (s : State) (p : Path) {o : ObjRow} (r : Ref) (off : Nat) {d : List Byte}
    (h : isNumber o = true) (hd : d.length = o.size) : s.dataFits p o r off d = Err.ok := by
  unfold State.dataFits
  split <;> rename_i ht
  · simp [isNumber, ht] at h
  · simp [isNumber, ht] at h
  · simp [isNumber, ht] at h
  · exact if_pos hd

theorem State.dataFits_bytes {s : State} {p : Path} {o : ObjRow} {r : Ref} {off : Nat} {d : List Byte}
    (ht : o.ty = .blob ∨ o.ty = .table) (hx : s.extentOk o r.inst (pathMost p) off d.length = true) :
    s.dataFits p o r off d = Err.ok := by
  rcases ht with ht | ht <;> simp [State.dataFits, ht, hx]

theorem State.writeRight_ok {s : State} {o : ObjRow} {r : Ref} (ha : o.acc = .rw ∨ o.acc = .wo)
    (hr : r.idx ≠ 0x5003 ∨ r.sub ≠ 2 ∨ (s.decl r.inst).isLpm = false) : s.writeRight o r = Err.ok := by
  have h : ¬ (r.idx = 0x5003 ∧ r.sub = 2 ∧ (s.decl r.inst).isLpm = true) := by
    rintro ⟨hi, hs, hl⟩
    simp [hi, hs, hl] at hr
  rcases ha with ha | ha <;> simp only [State.writeRight, ha, if_neg h]

/-- A write that passes steps 1 to 6 of R34 comes to its value's checks. -/
theorem State.writeOp_eq_writeValue {s : State} {p : Path} {o : ObjRow} {r : Ref} {off : Nat} {d : List Byte}
    (hf : Finds s false r o) (ha : o.acc = .rw ∨ o.acc = .wo)
    (hr : r.idx ≠ 0x5003 ∨ r.sub ≠ 2 ∨ (s.decl r.inst).isLpm = false)
    (hl : s.leasedAway p (r.idx / 4096) = false) (hd : s.dataFits p o r off d = Err.ok) :
    s.writeOp p r off d = s.writeValue o r off d := by
  have hc : o.acc ≠ .cmd := by rcases ha with ha | ha <;> simp [ha]
  unfold Finds at hf
  simp [State.writeOp, hf, State.writeRight_ok ha hr, hl, hc, hd]

theorem State.writeValue_number {s : State} {o : ObjRow} {r : Ref} {off : Nat} {d : List Byte}
    (hn : isNumber o = true) (hi : inRange o (keepBits r.idx r.sub 0 (leNat d)) = true)
    (hv : s.valueOk r (keepBits r.idx r.sub 0 (leNat d)) = true) (hb : s.dict.busyTabs.contains r = false)
    (hg : s.rwBusy o r = false) (hs : s.writeState r off d.length = true) :
    s.writeValue o r off d = (Err.ok, s.writeScalar r (keepBits r.idx r.sub 0 (leNat d))) := by
  obtain ⟨hblob, htable⟩ := isNumber_ty hn
  rw [State.writeValue]
  simp only [beq_eq_false_iff_ne.2 hblob, beq_eq_false_iff_ne.2 htable, hi, hv, hb, hg, hs, Bool.or_self,
    Bool.and_self, Bool.not_true, Bool.false_eq_true, if_false]

theorem State.writeValue_bytes {s : State} {o : ObjRow} {r : Ref} {off : Nat} {d : List Byte}
    (ht : o.ty = .blob ∨ o.ty = .table) (hv : ∀ x ∈ rowsIn (s.extent o r.inst).2 off d, s.rowOk r x.1 x.2 = true)
    (hb : s.dict.busyTabs.contains r = false) (hg : s.rwBusy o r = false)
    (hs : s.writeState r off d.length = true) :
    s.writeValue o r off d = (Err.ok, s.writeBytes o r off d) := by
  have hw : (o.ty == .blob || o.ty == .table) = true := by simpa using ht
  rw [State.writeValue]
  simp only [hw, List.all_eq_true.2 hv, hb, hg, hs, Bool.not_true, Bool.false_eq_true, if_false, if_true]

/-- A scalar of an index outside those with an effect of their own (R88, R96, R104, R105, R261, R275, R352, R363, R365)
is its value alone. -/
theorem State.writeScalar_eq_set (s : State) {r : Ref} (v : Nat)
    (h : [0x2000, 0x2120, 0x3002, 0x3060, 0x8000, 0x8010, 0x8030, 0xB000, 0xB001, 0xB100].contains r.idx = false) :
    s.writeScalar r v = s.set r v := by
  unfold State.writeScalar
  split <;> simp_all

/-! ### Staging (R38, R40, R43) -/

theorem find?_ins {κ α : Type} [DecidableEq κ] (lt : κ → κ → Bool) (n j : κ) (v : α) (m : List (κ × α)) :
    (ins lt n v m).find? (fun e => e.1 == j) = if n = j then some (n, v) else m.find? (fun e => e.1 == j) := by
  induction m with
  | nil => by_cases h : n = j <;> simp [ins, h]
  | cons e m ih =>
    obtain ⟨k, w⟩ := e
    simp only [ins]
    split
    · rename_i hk
      by_cases h : n = j <;> simp [h, hk]
    · rename_i hk
      split
      · by_cases h : n = j <;> simp [h]
      · rw [List.find?_cons, ih, List.find?_cons]
        by_cases hj : k = j
        · simp [← hj, Ne.symm hk]
        · simp only [beq_eq_false_iff_ne.2 hj]

theorem State.staged?_stageEl (s : State) (k j : OKey) (v : Nat) :
    (s.stageEl k v).staged? j = if k = j then some v else s.staged? j := by
  rw [State.staged?, State.stageEl, find?_ins]
  by_cases h : k = j <;> simp [h, State.staged?]

/-- Staging elements one after the other changes nothing but the shadow. -/
theorem State.each_stageEl_eq {β : Type} (s : State) (l : List β) (k : β → OKey) (v : β → Nat) :
    s.each l (fun s x => s.stageEl (k x) (v x)) = { s with dict := { s.dict with
      shadow := (s.each l fun s x => s.stageEl (k x) (v x)).dict.shadow } } := by
  induction l generalizing s with
  | nil => rfl
  | cons x l ih => exact ih (s.stageEl (k x) (v x))

/-- An element is staged after several have been, if it was before or is one of them. -/
theorem State.staged?_each_stageEl {β : Type} {s : State} {l : List β} {k : β → OKey} {v : β → Nat} {j : OKey}
    (h : (s.staged? j).isSome = true ∨ ∃ x ∈ l, k x = j) :
    ((s.each l fun s x => s.stageEl (k x) (v x)).staged? j).isSome = true := by
  induction l generalizing s with
  | nil => simpa [State.each] using h
  | cons x l ih =>
    refine ih ?_
    rw [State.staged?_stageEl]
    by_cases hx : k x = j
    · simp [hx]
    · simpa [hx] using h

/-- Staging a value changes nothing but the shadow. -/
theorem State.stageValue_eq (s : State) (o : ObjRow) (r : Ref) (off : Nat) (d : List Byte) :
    s.stageValue o r off d =
      { s with dict := { s.dict with shadow := (s.stageValue o r off d).dict.shadow } } := by
  unfold State.stageValue
  split
  · exact State.each_stageEl_eq _ _ _ _
  · rfl

@[simp] theorem State.stageValue_out (s : State) (o : ObjRow) (r : Ref) (off : Nat) (d : List Byte) :
    (s.stageValue o r off d).out = s.out := by rw [State.stageValue_eq]

@[simp] theorem State.get_stageValue (s : State) (o : ObjRow) (r : Ref) (off : Nat) (d : List Byte) (q : Ref) (e : Nat) :
    (s.stageValue o r off d).get q e = s.get q e := by rw [State.stageValue_eq]; rfl

@[simp] theorem State.groupSt_stageValue (s : State) (o : ObjRow) (r : Ref) (off : Nat) (d : List Byte) (g : Nat) :
    (s.stageValue o r off d).groupSt g = s.groupSt g := State.get_stageValue _ _ _ _ _ _ _

theorem State.staged?_stageValue_number (s : State) {o : ObjRow} (r : Ref) (off : Nat) (d : List Byte)
    (h : o.ty ≠ .blob) : (s.stageValue o r off d).staged? ⟨r, 0⟩ = some (keepBits r.idx r.sub 0 (leNat d)) := by
  rw [State.stageValue, if_neg h, State.staged?_stageEl, if_pos rfl]

/-- Of a BLOB every element is staged, whatever bytes the operation carries (R38). -/
theorem State.staged?_stageValue_blob (s : State) {o : ObjRow} (r : Ref) (off : Nat) (d : List Byte)
    (h : o.ty = .blob) {k : Nat} (hk : k < o.size / o.el) :
    ((s.stageValue o r off d).staged? ⟨r, k⟩).isSome = true := by
  rw [State.stageValue, if_pos h]
  refine State.staged?_each_stageEl (.inr ?_)
  simpa using hk

@[simp] theorem State.groupStaged_out (s : State) (g : Nat) : (s.groupStaged g).out = s.out := by
  unfold State.groupStaged
  split <;> rfl

@[simp] theorem State.staged?_groupStaged (s : State) (g : Nat) (k : OKey) :
    (s.groupStaged g).staged? k = s.staged? k := by
  unfold State.groupStaged
  split <;> rfl

theorem State.groupSt_groupStaged {s : State} {g : Nat} (h : s.groupSt g ≠ gRetiring) :
    (s.groupStaged g).groupSt g = gDirty := by
  rw [State.groupStaged, if_neg h]
  exact State.get_set_same _ _ _ _

theorem State.get_groupStaged_other (s : State) {g : Nat} {r : Ref} (e : Nat) (h : r ≠ O.GROUP_STATE g)
    (h' : r ≠ O.GROUP_SHADOW_DIRTY g) : (s.groupStaged g).get r e = s.get r e := by
  unfold State.groupStaged
  split
  · exact State.get_set_other _ _ _ _ (.inl h')
  · exact State.get_set_other _ _ _ _ (.inl h)

/-- A staged write that passes the checks of R34 puts its value into the shadow and marks the group (R43). -/
theorem State.stageOp_ok {s : State} {p : Path} {o : ObjRow} {r : Ref} {off g : Nat} {d : List Byte}
    (hf : Finds s true r o) (ha : o.acc = .rw ∨ o.acc = .rws) (hg : grpOf o.grp r.inst = some g)
    (hl : s.leasedAway p (r.idx / 4096) = false) (hd : s.dataFits p o r off d = Err.ok)
    (hi : o.ty = .blob ∨ inRange o (keepBits r.idx r.sub 0 (leNat d)) = true)
    (hb : s.dict.busyTabs.contains r = false) (hs : s.groupBusy g = false) :
    s.stageOp p r off d = (Err.ok, (s.stageValue o r off d).groupStaged g) := by
  have hro : ¬ (o.acc = .ro ∨ o.acc = .rc) := by rcases ha with ha | ha <;> simp [ha]
  have hrange : ¬ (o.ty ≠ .blob ∧ inRange o (keepBits r.idx r.sub 0 (leNat d)) = false) := by
    rcases hi with hi | hi <;> simp [hi]
  unfold Finds at hf
  simp only [State.stageOp, hf, if_neg hro, if_pos ha.symm, hg, hl, hd, if_neg hrange, hb, hs, ne_eq,
    not_true_eq_false, Bool.false_eq_true, if_false]

/-- An object that may be written and names no commit group cannot be staged (R40, R41). -/
theorem State.stageOp_noGroup {s : State} {p : Path} {o : ObjRow} {r : Ref} {off : Nat} {d : List Byte}
    (hf : Finds s true r o) (hro : o.acc ≠ .ro) (hrc : o.acc ≠ .rc) (hg : o.grp = .none) :
    s.stageOp p r off d = (Err.notStageable, s) := by
  unfold Finds at hf
  simp [State.stageOp, hf, hro, hrc, hg, grpOf]

/-- What the answer to an accepted WRITE_STAGED leaves, whatever the object: only the shadow and the group change. -/
theorem answers_staged (s : State) (p : Path) (o : ObjRow) (r : Ref) (off g : Nat) (d : List Byte) :
    let u := answers s p Err.ok (((fresh s).stageValue o r off d).groupStaged g)
    u.out = [.answer p Err.ok []] ∧
    (∀ k, u.staged? k = ((fresh s).stageValue o r off d).staged? k) ∧
    (s.groupSt g ≠ gRetiring → u.groupSt g = gDirty) ∧
    (∀ q e, q ≠ O.GROUP_STATE g → q ≠ O.GROUP_SHADOW_DIRTY g → u.get q e = s.get q e) := by
  refine ⟨by simp [answers, State.emit], fun k => State.staged?_groupStaged _ _ _, fun h => ?_, fun q e h h' => ?_⟩
  · exact State.groupSt_groupStaged (s := (fresh s).stageValue o r off d) (by simpa using h)
  · exact (State.get_groupStaged_other _ e h h').trans (by simp)

/-! ### The clauses of the statement -/

section
variable {s : State} {p : Path} {a : Ref} {d : List Byte} {o : ObjRow}

theorem write_number (h : Ready s p) (hl : s.leasedAway p (a.idx / 4096) = false) (hn : isNumber o = true)
    (hd : d.length = o.size) (hi : inRange o (keepBits a.idx a.sub 0 (leNat d)) = true) (hf : Finds s false a o)
    (ha : o.acc = .rw ∨ o.acc = .wo) (hr : a.idx ≠ 0x5003 ∨ a.sub ≠ 2)
    (hv : s.valueOk a (keepBits a.idx a.sub 0 (leNat d)) = true) (hb : s.dict.busyTabs.contains a = false)
    (hg : s.rwBusy o a = false) (hs : s.writeState a 0 d.length = true) :
    exec (.write p a 0 d) s =
      .next (answers s p Err.ok ((fresh s).writeScalar a (keepBits a.idx a.sub 0 (leNat d)))) := by
  have hr' : a.idx ≠ 0x5003 ∨ a.sub ≠ 2 ∨ ((fresh s).decl a.inst).isLpm = false := by tauto
  refine exec_write_answers h ?_
  rw [State.writeOp_eq_writeValue (s := fresh s) hf ha hr' hl (State.dataFits_number _ _ _ _ hn hd)]
  exact State.writeValue_number hn hi hv hb hg hs

theorem write_bytes {off : Nat} (h : Ready s p) (hl : s.leasedAway p (a.idx / 4096) = false) (hf : Finds s false a o)
    (ht : o.ty = .blob ∨ o.ty = .table) (ha : o.acc = .rw ∨ o.acc = .wo)
    (hr : a.idx ≠ 0x5003 ∨ a.sub ≠ 2 ∨ (s.decl a.inst).isLpm = false)
    (hx : s.extentOk o a.inst (pathMost p) off d.length = true)
    (hv : ∀ x ∈ rowsIn (s.extent o a.inst).2 off d, s.rowOk a x.1 x.2 = true)
    (hb : s.dict.busyTabs.contains a = false) (hg : s.rwBusy o a = false)
    (hs : s.writeState a off d.length = true) :
    exec (.write p a off d) s = .next (answers s p Err.ok ((fresh s).writeBytes o a off d)) := by
  refine exec_write_answers h ?_
  rw [State.writeOp_eq_writeValue (s := fresh s) hf ha hr hl (State.dataFits_bytes ht hx)]
  exact State.writeValue_bytes ht hv hb hg hs

theorem writeStaged_ok {off g : Nat} (h : Ready s p) (hl : s.leasedAway p (a.idx / 4096) = false)
    (hf : Finds s true a o) (ha : o.acc = .rw ∨ o.acc = .rws) (hg : grpOf o.grp a.inst = some g)
    (hs : s.groupBusy g = false) (hb : s.dict.busyTabs.contains a = false)
    (hd : (fresh s).dataFits p o a off d = Err.ok)
    (hi : o.ty = .blob ∨ inRange o (keepBits a.idx a.sub 0 (leNat d)) = true) :
    exec (.writeStaged p a off d) s =
      .next (answers s p Err.ok (((fresh s).stageValue o a off d).groupStaged g)) :=
  exec_writeStaged_answers h (State.stageOp_ok hf ha hg hl hd hi hb hs)

theorem writeStaged_table {off : Nat} (h : Ready s p) (hf : Finds s true a o) (ht : o.ty = .table) (ha : o.acc ≠ .ro) :
    exec (.writeStaged p a off d) s = .next (refused s p Err.notStageable) := by
  have hmem : o ∈ indexRows a.idx := (finds_mem hf).resolve_right (by simp [ht])
  obtain ⟨hrc, hgrp⟩ := indexRows_table hmem ht
  rw [← answers_fresh h.1]
  exact exec_writeStaged_answers h (State.stageOp_noGroup hf ha hrc hgrp)

end

end Sys2Proof.Machine

open Sys2Proof Sys2Proof.Machine

/-- Settles O19: each accepted write passes the checks of `writeOp` or `stageOp` one by one, staging changes nothing but
the shadow and its group's two objects, and no TABLE's row names a commit group. -/
theorem writeAndWriteStaged : Obligations.WriteAndWriteStaged := by
  intro s p a d o g h hl
  refine ⟨fun hn hd hi hf ha hr hv hb hg hs => ?_, fun off e hf ht ha hr hx hv hb hg hs => ?_,
    fun hf ha hg hs hb hn hd hi => ?_, fun off e hf ha hg hs hb ht hx => ?_, fun r hr => indexRows_ne_w1c hr,
    fun off e hf ht ha => writeStaged_table h hf ht ha⟩
  · have hw := write_number h hl hn hd hi hf ha hr hv hb hg hs
    exact ⟨hw, fun hidx => by rw [hw, State.writeScalar_eq_set _ _ hidx]⟩
  · exact write_bytes h hl hf ht ha hr hx hv hb hg hs
  · obtain ⟨hout, hstaged, hgroup, hrest⟩ := answers_staged s p o a 0 g d
    refine ⟨_, writeStaged_ok h hl hf ha hg hs hb (State.dataFits_number _ _ _ _ hn hd) (.inr hi), hout, ?_, hgroup,
      hrest⟩
    rw [hstaged, State.staged?_stageValue_number _ _ _ _ (isNumber_ty hn).1]
  · obtain ⟨hout, hstaged, hgroup, hrest⟩ := answers_staged s p e a off g d
    refine ⟨_, writeStaged_ok h hl hf ha hg hs hb (State.dataFits_bytes (.inl ht) hx) (.inl ht), hout, fun k hk => ?_,
      hgroup, hrest⟩
    rw [hstaged]
    exact State.staged?_stageValue_blob _ _ _ _ ht hk

end

section
/-!
Power and reset (R33, R386-R389): what the four commands of power and SYS_RESET_N leave of the device, what any command
can do to its power state and its queue, and the statements assembled from that.
-/
namespace Sys2Proof.Machine

/-! ### The cleared device (R388) -/

/-- Every element of the cleared device is at its default, but the fused security version, the reset cause and the
straps, which are written in that order. -/
theorem State.get_cleared (s : State) (pw : Power) (cause straps : Nat) (r : Ref) (e : Nat) :
    (s.cleared pw cause straps).get r e =
      if r = O.STRAPS ∧ e = 0 then straps else if r = O.RESET_CAUSE ∧ e = 0 then cause
      else if r = O.FW_SVN_FUSED ∧ e = 0 then s.get O.FW_SVN_FUSED else objDefault ⟨r, e⟩ := by
  rw [State.cleared, State.get_set, State.get_set, State.get_set]
  rfl

theorem State.get_cleared_default (s : State) (pw : Power) (cause straps : Nat) {r : Ref} (e : Nat)
    (hc : r ≠ O.RESET_CAUSE) (hs : r ≠ O.STRAPS) (hf : r ≠ O.FW_SVN_FUSED) :
    (s.cleared pw cause straps).get r e = objDefault ⟨r, e⟩ := by
  simp [State.get_cleared, hc, hs, hf]

@[simp] theorem State.cleared_power (s : State) (pw : Power) (cause straps : Nat) :
    (s.cleared pw cause straps).sys.power = pw := rfl

@[simp] theorem State.cleared_pending (s : State) (pw : Power) (cause straps : Nat) :
    (s.cleared pw cause straps).pending = s.pending := rfl

@[simp] theorem State.cleared_resetCause (s : State) (pw : Power) (cause straps : Nat) :
    (s.cleared pw cause straps).get O.RESET_CAUSE = cause := by
  simp [State.get_cleared]

theorem isCleared_cleared (s : State) (pw : Power) (cause straps : Nat) : Cleared (s.cleared pw cause straps) :=
  ⟨rfl, rfl, rfl, rfl, rfl, rfl, rfl, rfl, rfl, rfl, rfl, rfl, rfl, rfl, rfl, rfl,
    fun _ e hc hs hf => State.get_cleared_default s pw cause straps e hc hs hf⟩

/-- Without a firmware store under way the flash is as it was (R404). -/
theorem State.cleared_flash {s : State} (pw : Power) (cause straps : Nat) (h : s.cmdRunning O.FW_STORE = false) :
    (s.cleared pw cause straps).sys.flash = s.sys.flash := by
  show s.flashAfter = s.sys.flash
  rw [State.flashAfter, if_neg (by simp [h])]

/-! ### What a command can do to the power state and the queue -/

/-- The four commands of power and SYS_RESET_N. -/
def PowerInput (i : Instr) : Prop :=
  i = .powerOn ∨ i = .powerLoss ∨ i = .sysResetAssert ∨ ∃ v, i = .sysResetRelease v

/-- What is left of `s` by a command, or by a tick on an empty queue: the device runs on with the same queue, nothing
but the outputs changes, or, where the command is one of power and SYS_RESET_N, the device is cleared. -/
inductive Leaves (powerInput : Prop) (s : State) : State → Prop
  | runs {t : State} (hs : Runs s) (ht : Runs t) (hq : t.pending = s.pending) : Leaves powerInput s t
  | idle : Leaves powerInput s (fresh s)
  | cleared (hi : powerInput) (pw : Power) (cause straps : Nat) : Leaves powerInput s (s.cleared pw cause straps)

/-- Whatever its effect, a command of the frame keeps the device running, or does nothing (R33, R386). -/
theorem live_leaves (powerInput : Prop) (s : State) (f : State → State) :
    ∃ t, live s f = .next t ∧ Leaves powerInput s t ∧ (¬ Runs s → t = fresh s) := by
  by_cases h : Runs s
  · exact ⟨_, live_ran h f, .runs h rfl rfl, fun hn => absurd h hn⟩
  · exact ⟨_, live_off h f, .idle, fun _ => rfl⟩

/-- Every command but the four of power and SYS_RESET_N runs in the frame. -/
theorem exec_eq_live {i : Instr} (h : ¬ PowerInput i) (s : State) : ∃ f, exec i s = live s f := by
  cases i
  case powerOn => exact absurd (.inl rfl) h
  case powerLoss => exact absurd (.inr (.inl rfl)) h
  case sysResetAssert => exact absurd (.inr (.inr (.inl rfl))) h
  case sysResetRelease v => exact absurd (.inr (.inr (.inr ⟨v, rfl⟩))) h
  all_goals (simp only [exec]; exact ⟨_, rfl⟩)

/-- A command of power and SYS_RESET_N clears the device, or does nothing. -/
theorem powerInput_leaves {i : Instr} (h : PowerInput i) (s : State) :
    ∃ t, exec i s = .next t ∧ Leaves (PowerInput i) s t := by
  obtain rfl | rfl | rfl | ⟨v, rfl⟩ := id h
  · by_cases hp : s.sys.power = .off
    · exact ⟨_, by rw [exec_powerOn, execPowerOn, if_pos hp], .cleared h _ _ _⟩
    · exact ⟨_, by rw [exec_powerOn, execPowerOn, if_neg hp], .idle⟩
  · by_cases hp : s.sys.power = .off
    · exact ⟨_, by rw [exec_powerLoss, execPowerLoss, if_pos hp], .idle⟩
    · exact ⟨_, by rw [exec_powerLoss, execPowerLoss, if_neg hp], .cleared h _ _ _⟩
  · by_cases hp : s.sys.power = .run
    · exact ⟨_, by rw [exec_sysResetAssert, execSysResetAssert, if_pos hp], .cleared h _ _ _⟩
    · exact ⟨_, by rw [exec_sysResetAssert, execSysResetAssert, if_neg hp], .idle⟩
  · by_cases hp : s.sys.power = .reset
    · exact ⟨_, by rw [exec_sysResetRelease, execSysResetRelease, if_pos hp], .cleared h _ _ _⟩
    · exact ⟨_, by rw [exec_sysResetRelease, execSysResetRelease, if_neg hp], .idle⟩

/-- Every command answers a next state that `Leaves` describes; one that is not of power and SYS_RESET_N does nothing on
a device that does not run. -/
theorem exec_leaves (i : Instr) (s : State) :
    ∃ t, exec i s = .next t ∧ Leaves (PowerInput i) s t ∧ (¬ Runs s → ¬ PowerInput i → t = fresh s) := by
  by_cases h : PowerInput i
  · obtain ⟨t, ht, hl⟩ := powerInput_leaves h s
    exact ⟨t, ht, hl, fun _ hn => absurd h hn⟩
  · obtain ⟨f, hf⟩ := exec_eq_live h s
    obtain ⟨t, ht, hl, hoff⟩ := live_leaves (PowerInput i) s f
    exact ⟨t, hf.trans ht, hl, fun hn _ => hoff hn⟩

namespace Leaves

variable {powerInput : Prop} {s t : State}

theorem pending_eq (h : Leaves powerInput s t) : t.pending = s.pending := by
  cases h with
  | runs _ _ hq => exact hq
  | idle => rfl
  | cleared => rfl

theorem power_eq_or (h : Leaves powerInput s t) : t.sys.power = s.sys.power ∨ powerInput := by
  cases h with
  | runs hs ht => exact .inl (ht.trans hs.symm)
  | idle => exact .inl rfl
  | cleared hi => exact .inr hi

/-- A state in which the device stands cleared unless it runs leaves only such states. -/
theorem cleared_unless_runs (h : Leaves powerInput s t) (hs : s.sys.power ≠ .run → Cleared s) :
    t.sys.power ≠ .run → Cleared t := by
  cases h with
  | runs _ ht => exact fun hn => absurd ht hn
  | idle => exact hs
  | cleared _ pw cause straps => exact fun _ => isCleared_cleared s pw cause straps

end Leaves

/-- A step takes the first command off the queue and runs it; with an empty queue a tick passes. -/
theorem step_leaves (s : State) :
    ∃ t, step s = .next t ∧
      Leaves (∃ c, s.pending.head? = some c ∧ PowerInput c) { s with pending := s.pending.tail } t ∧
      (¬ Runs s → (∀ c, s.pending.head? = some c → ¬ PowerInput c) →
        t = fresh { s with pending := s.pending.tail }) := by
  cases h : s.pending with
  | nil =>
    have hs : { s with pending := [] } = s := by rw [← h]
    obtain ⟨t, ht, hl, hoff⟩ := live_leaves (∃ c, ([] : List Instr).head? = some c ∧ PowerInput c) s State.timeTick
    refine ⟨t, ?_, by simpa [hs] using hl, fun hn _ => by simpa [hs] using hoff hn⟩
    rw [step, h, ← ht]
  | cons c rest =>
    obtain ⟨t, ht, hl, hoff⟩ := exec_leaves c { s with pending := rest }
    refine ⟨t, ?_, ?_, fun hn hc => hoff hn (hc c rfl)⟩
    · rw [step, h, ← ht]
    · have hi : (∃ x, (c :: rest).head? = some x ∧ PowerInput x) = PowerInput c := by simp
      rw [hi]
      exact hl

end Sys2Proof.Machine

open Sys2Proof Sys2Proof.Machine

/-- Settles O56: the cleared device has a field by field description, and each of the four commands clears it in one
power state and does nothing in the others. -/
theorem powerAndResetInputs : Obligations.PowerAndResetInputs := by
  intro s v
  refine ⟨fun i from_ to_ cause straps hi => ?_, fun h => ?_, fun h => ?_, fun pw cause straps u hu => ?_⟩
  · simp only [List.mem_cons, Prod.mk.injEq, List.not_mem_nil, or_false] at hi
    obtain ⟨rfl, rfl, rfl, rfl, rfl⟩ | ⟨rfl, rfl, rfl, rfl, rfl⟩ | ⟨rfl, rfl, rfl, rfl, rfl⟩ := hi
    · exact ⟨fun h => by rw [exec_powerOn, execPowerOn, if_neg h],
        fun h => ⟨by rw [exec_powerOn, execPowerOn, if_pos h], by simp⟩⟩
    · exact ⟨fun h => by rw [exec_sysResetAssert, execSysResetAssert, if_neg h],
        fun h => ⟨by rw [exec_sysResetAssert, execSysResetAssert, if_pos h], by simp⟩⟩
    · exact ⟨fun h => by rw [exec_sysResetRelease, execSysResetRelease, if_neg h],
        fun h => ⟨by rw [exec_sysResetRelease, execSysResetRelease, if_pos h], by simp⟩⟩
  · rw [exec_powerLoss, execPowerLoss, if_pos h]
  · rw [exec_powerLoss, execPowerLoss, if_neg h]
  · subst hu
    exact ⟨rfl, rfl, rfl, rfl, rfl, rfl, rfl, rfl, State.cleared_flash pw cause straps,
      s.cleared_resetCause pw cause straps, by simp [State.get_cleared], by simp [State.get_cleared],
      fun r e hc hs hf => s.get_cleared_default pw cause straps e hc hs hf,
      rfl, rfl, rfl, rfl, rfl, rfl, rfl, rfl, rfl, rfl, rfl, rfl, rfl, rfl, rfl, rfl, rfl, rfl⟩

/-- Settles O60: every command but four runs in the frame of `live`, which keeps the queue and the power state. -/
theorem everyCommandAnswersANextState : Obligations.EveryCommandAnswersANextState := by
  intro i s
  obtain ⟨t, ht, hl, hoff⟩ := exec_leaves i s
  refine ⟨t, ht, hl.pending_eq, hl.power_eq_or, fun hn => ?_⟩
  by_cases hi : PowerInput i
  · obtain h | h | h | h := hi <;> simp [h]
  · simp [hoff hn hi]

/-- Settles O16: a step runs on, changes only outputs, or clears the device, and each keeps a state good. -/
theorem goodStatesStayGood : Obligations.GoodStatesStayGood := by
  intro s ⟨hw, hc⟩
  obtain ⟨t, ht, hl, hoff⟩ := step_leaves s
  have hq : t.pending = s.pending.tail := hl.pending_eq
  refine ⟨t, ht, ⟨fun c hm => hw c (List.mem_of_mem_tail (hq ▸ hm)), hl.cleared_unless_runs hc⟩, hq,
    fun hp => hl.power_eq_or.resolve_left hp, fun hn hh => hoff hn fun c hhead hi => ?_⟩
  obtain ⟨hon, hloss, hassert, hrelease⟩ := hh c hhead
  obtain h | h | h | ⟨v, h⟩ := hi
  · exact hon h
  · exact hloss h
  · exact hassert h
  · exact hrelease v h

end

section
/-!
What READ, READ_STAGED, DESCRIBE and ECHO answer (R37-R42, R47): the checks a read passes as equations of `readOp`, what
a read leaves of the state, and the statement assembled from them.
-/
namespace Sys2Proof.Machine

/-! ### Answers -/

section
variable {s : State} {p : Path} {a : Ref} {off len e : Nat} {b d : List Byte}

/-- An operation that changes nothing leaves its answer. -/
theorem ran_emit_fresh (h : Runs s) (o : Output) : ran s ((fresh s).emit o) = { fresh s with out := [o] } :=
  ran_eq rfl h

/-- A READ answers what `readOp` answers and leaves its state. -/
theorem exec_read_answers {u : State} (h : Ready s p) (hr : (fresh s).readOp p false a off len = (e, b, u)) :
    exec (.read p a off len) s = .next (ran s (u.emit (.answer p e b))) := by
  obtain ⟨hrun, hopen⟩ := h
  rw [exec_read, execRead, live_ran hrun]
  simp [State.direct, hopen, State.dictOp, hr]

/-- A READ that leaves the state as it finds it. -/
theorem exec_read_pure (h : Ready s p) (hr : (fresh s).readOp p false a off len = (e, b, fresh s)) :
    exec (.read p a off len) s = .next { fresh s with out := [.answer p e b] } := by
  rw [exec_read_answers h hr, ran_emit_fresh h.1]

theorem exec_readStaged_pure (h : Ready s p) (hr : (fresh s).readOp p true a off len = (e, b, fresh s)) :
    exec (.readStaged p a off len) s = .next { fresh s with out := [.answer p e b] } := by
  obtain ⟨hrun, hopen⟩ := h
  rw [exec_readStaged, execReadStaged, live_ran hrun, ← ran_emit_fresh hrun]
  simp [State.direct, hopen, State.dictOp, hr]

theorem exec_describe_found {o : ObjRow} (h : Ready s p) (hf : Finds s false a o) :
    exec (.describe p a) s = .next { fresh s with out := [.answer p Err.ok (s.describe o a.inst)] } := by
  obtain ⟨hrun, hopen⟩ := h
  have hf' : (fresh s).locate false a = (Err.ok, some o) := hf
  rw [exec_describe, execDescribe, live_ran hrun, ← ran_emit_fresh hrun]
  simp only [State.direct, fresh_pathOpen, hopen, State.dictOp, hf']
  rfl

theorem exec_echo_answers (h : Ready s p) :
    exec (.echo p d) s =
      .next { fresh s with out := [if d.length ≤ 64 then .answer p Err.ok d else .answer p Err.type []] } := by
  obtain ⟨hrun, hopen⟩ := h
  rw [exec_echo, execEcho, live_ran hrun, ← ran_emit_fresh hrun]
  simp only [State.direct, fresh_pathOpen, hopen, State.dictOp]
  by_cases hd : d.length ≤ 64 <;> simp [hd]

end

/-! ### The checks of a read (R34, R40) -/

section
variable {s : State} {p : Path} {staged : Bool} {a : Ref} {off len acc : Nat} {o : ObjRow}

/-- Of a sub-index 00 without a value a read answers the highest sub-index (R8). -/
theorem State.readOp_highest (hf : Finds s staged a o) (hw : o.acc ≠ .wo) (hh : o.isHighest = true)
    (hd : s.diagRefuses a (!staged) = false) :
    s.readOp p staged a off len acc = (Err.ok, [nb (highestOf o.idx)], s) := by
  unfold Finds at hf
  simp [State.readOp, hf, hw, hh, hd]

/-- Of a CMD a read answers its status, error code and result (R40). -/
theorem State.readOp_cmd (hf : Finds s staged a o) (hw : o.acc ≠ .wo) (hh : o.isHighest = false) (ht : o.ty = .cmd)
    (hb : s.dict.busyTabs.contains a = false) (hd : s.diagRefuses a (!staged) = false) :
    s.readOp p staged a off len acc = (Err.ok, nb (s.cmd a).status :: nb (s.cmd a).err :: (s.cmd a).result, s) := by
  unfold Finds at hf
  simp only [State.readOp, hf, hw, hh, ht, hb, hd, reduceCtorEq, or_self, false_and, if_false, if_true,
    Bool.false_eq_true]

/-- A read that passes the checks of R34 answers the value's bytes. -/
theorem State.readOp_value (hf : Finds s staged a o) (hw : o.acc ≠ .wo) (hh : o.isHighest = false) (ht : o.ty ≠ .cmd)
    (hx : (o.ty = .blob ∨ o.ty = .table) → s.extentOk o a.inst (pathMost p) off len = true)
    (hb : s.dict.busyTabs.contains a = false) (hd : s.diagRefuses a (!staged) = false) :
    s.readOp p staged a off len acc = (Err.ok, (s.readValue o a staged off len acc).1,
      if staged then (s.readValue o a staged off len acc).2
      else ((s.readValue o a staged off len acc).2.noteView p a).readClear o a) := by
  have hx' : ¬ ((o.ty = .blob ∨ o.ty = .table) ∧ s.extentOk o a.inst (pathMost p) off len = false) :=
    fun h => by simp [hx h.1] at h
  unfold Finds at hf
  simp only [State.readOp, hf, if_neg hw, hh, if_neg hx', hb, hd, if_neg ht, Bool.false_eq_true, if_false]

end

/-! ### Values -/

/-- What is no TABLE is read without a memory check. -/
theorem State.readValue_eq {s : State} {o : ObjRow} (a : Ref) (staged : Bool) (off len acc : Nat)
    (hi : ¬ (o.idx = 0x5003 ∧ o.subLo = 2)) (ht : o.ty ≠ .table) :
    s.readValue o a staged off len acc = (s.valueBytes o a staged off len, s) := by
  rw [State.readValue, if_neg hi, if_neg ht]

theorem isNumber_not {o : ObjRow} (h : isNumber o = true) :
    o.ty ≠ .string ∧ o.ty ≠ .cmd ∧ o.isHighest = false ∧ ¬ (o.idx = 0x5003 ∧ o.subLo = 2) := by
  refine ⟨?_, ?_, ?_, ?_⟩
  · intro ht; simp [isNumber, ht] at h
  · intro ht; simp [isNumber, ht] at h
  · simp only [isNumber, Bool.and_eq_true, Bool.not_eq_true'] at h; exact h.1.2
  · rintro ⟨hi, hs⟩; simp [isNumber, hi, hs] at h

/-- A number is read as the little-endian bytes of its active, or staged, value (R38). -/
theorem State.readValue_number {s : State} {o : ObjRow} (a : Ref) (staged : Bool) (off len acc : Nat)
    (h : isNumber o = true) :
    s.readValue o a staged off len acc = (leBytes o.size (if staged then s.viewS a 0 else s.view a 0), s) := by
  obtain ⟨hblob, htable⟩ := isNumber_ty h
  obtain ⟨hstring, -, -, hdata⟩ := isNumber_not h
  rw [State.readValue_eq a staged off len acc hdata htable]
  unfold State.valueBytes
  generalize hg : (fun e => if staged then s.viewS a e else s.view a e) = g
  dsimp only
  split
  · exact absurd ‹_› hblob
  · exact absurd ‹_› htable
  · exact absurd ‹_› hstring
  · rw [← hg]

/-! ### Sound words (R193, R376) -/

theorem State.damaged_of_none {s : State} (h : s.faults.damage = []) (source addr : Nat) :
    s.damaged source addr = none := by
  simp [State.damaged, h]

/-- A word that is not damaged passes its check, and the check leaves no trace. -/
theorem State.readWord_clean {s : State} {ce addr : Nat} (h : s.damaged ce addr = none) (ue u reporter access : Nat) :
    s.readWord ce ue u reporter addr access = (false, s) := by
  simp [State.readWord, State.readWordAs, State.checkWord, h]

theorem State.eccRow_clean {s : State} (h : s.faults.damage = []) (r : Ref) (row access : Nat) :
    s.eccRow r row access = (false, s) := by
  have hs : ∀ addr, s.storeCheck addr access = (false, s) := fun addr => by
    simp [State.storeCheck, State.damaged_of_none h]
  unfold State.eccRow
  split
  · exact State.readWord_clean (State.damaged_of_none h _ _) ..
  · exact State.readWord_clean (State.damaged_of_none h _ _) ..
  · exact hs _
  · exact hs _
  · exact State.readWord_clean (State.damaged_of_none h _ _) ..
  · rfl

/-- Words that all read clean give their bytes one after the other. -/
theorem State.readWords_clean {s : State} (n : Nat) {read : State → Nat → Bool × State}
    (bytes : State → Nat → List Byte) (h : ∀ u, read s u = (false, s)) (l : List Nat) :
    s.readWords n read bytes l = (l.flatMap (bytes s), s) := by
  induction l with
  | nil => rfl
  | cons u l ih => simp [State.readWords, h, ih]

theorem State.readValue_table {s : State} {o : ObjRow} (a : Ref) (off len acc : Nat) (hd : s.faults.damage = [])
    (hi : o.idx ≠ 0x5003) (ht : o.ty = .table) :
    s.readValue o a false off len acc =
      ((List.range (len / o.el)).flatMap fun i => leBytes o.el (s.view a (off / o.el + i)), s) := by
  rw [State.readValue, if_neg (fun h => hi h.1), if_pos ht,
    State.readWords_clean _ _ fun i => State.eccRow_clean hd a i acc, List.flatMap_map]

/-! ### What a read leaves (R14, R366) -/

/-- A read of a pending word is noted, and changes nothing else. -/
theorem State.noteView_eq (s : State) (p : Path) (r : Ref) :
    s.noteView p r = { s with irq := (s.noteView p r).irq } := by
  unfold State.noteView
  split
  · split <;> rfl
  · rfl

@[simp] theorem State.noteView_out (s : State) (p : Path) (r : Ref) : (s.noteView p r).out = s.out := by
  rw [State.noteView_eq]

@[simp] theorem State.noteView_dict (s : State) (p : Path) (r : Ref) : (s.noteView p r).dict = s.dict := by
  rw [State.noteView_eq]

@[simp] theorem State.get_noteView (s : State) (p : Path) (r q : Ref) (e : Nat) :
    (s.noteView p r).get q e = s.get q e := by
  rw [State.noteView_eq]; rfl

theorem State.noteView_of_ne {s : State} {r : Ref} (p : Path) (h : r.idx ≠ 0xB001) : s.noteView p r = s :=
  if_neg fun hr => h hr.1

theorem State.readClear_of_ne {s : State} {o : ObjRow} (r : Ref) (h : o.acc ≠ .rc) : s.readClear o r = s := if_pos h

@[simp] theorem State.readClear_out (s : State) (o : ObjRow) (r : Ref) : (s.readClear o r).out = s.out := by
  unfold State.readClear
  split
  · rfl
  · split <;> rfl

theorem State.get_readClear_other (s : State) (o : ObjRow) {r q : Ref} (e : Nat) (h : q ≠ r) :
    (s.readClear o r).get q e = s.get q e := by
  unfold State.readClear
  split
  · rfl
  · split <;> exact State.get_set_other _ _ _ _ (.inl h)

theorem State.get_readClear_same (s : State) {o : ObjRow} (r : Ref) (h : o.acc = .rc) (hi : o.idx ≠ 0xD200) :
    (s.readClear o r).get r = 0 := by
  rw [State.readClear, if_neg (not_not.2 h), if_neg hi, State.get_set_same]

/-! ### The clauses of the statement -/

section
variable {s : State} {p : Path} {a : Ref} {off len : Nat} {o : ObjRow}

/-- A READ of a number: the answer, then the note of a pending word and the clearing of an RC object. -/
theorem exec_read_number (h : Ready s p) (hf : Finds s false a o) (hn : isNumber o = true) (hw : o.acc ≠ .wo)
    (hb : s.dict.busyTabs.contains a = false) (hd : s.diagRefuses a true = false) :
    exec (.read p a off len) s = .next (ran s ((((fresh s).noteView p a).readClear o a).emit
      (.answer p Err.ok (leBytes o.size (s.view a 0))))) := by
  obtain ⟨hblob, htable⟩ := isNumber_ty hn
  obtain ⟨-, hcmd, hh, -⟩ := isNumber_not hn
  refine exec_read_answers h ?_
  rw [State.readOp_value (s := fresh s) hf hw hh hcmd (fun ht => absurd ht (by simp [hblob, htable])) hb hd,
    State.readValue_number _ _ _ _ _ hn]
  rfl

/-- A READ of a value that is neither RC nor a pending word changes nothing. -/
theorem exec_read_value {b : List Byte} (h : Ready s p) (hf : Finds s false a o)
    (ha : o.acc = .ro ∨ o.acc = .rw ∨ o.acc = .rws) (hh : o.isHighest = false) (ht : o.ty ≠ .cmd)
    (hx : (o.ty = .blob ∨ o.ty = .table) → s.extentOk o a.inst (pathMost p) off len = true)
    (hb : s.dict.busyTabs.contains a = false) (hd : s.diagRefuses a true = false) (hi : a.idx ≠ 0xB001)
    (hv : (fresh s).readValue o a false off len = (b, fresh s)) :
    exec (.read p a off len) s = .next { fresh s with out := [.answer p Err.ok b] } := by
  have hwo : o.acc ≠ .wo := by rcases ha with ha | ha | ha <;> simp [ha]
  have hrc : o.acc ≠ .rc := by rcases ha with ha | ha | ha <;> simp [ha]
  refine exec_read_pure h ?_
  rw [State.readOp_value (s := fresh s) hf hwo hh ht hx hb hd, hv]
  simp [State.noteView_of_ne p hi, State.readClear_of_ne a hrc]

theorem exec_readStaged_number (h : Ready s p) (hf : Finds s true a o) (hn : isNumber o = true) (hw : o.acc ≠ .wo)
    (hb : s.dict.busyTabs.contains a = false) (hd : s.diagRefuses a false = false) :
    exec (.readStaged p a off len) s =
      .next { fresh s with out := [.answer p Err.ok (leBytes o.size (s.viewS a 0))] } := by
  obtain ⟨hblob, htable⟩ := isNumber_ty hn
  obtain ⟨-, hcmd, hh, -⟩ := isNumber_not hn
  refine exec_readStaged_pure h ?_
  rw [State.readOp_value (s := fresh s) hf hw hh hcmd (fun ht => absurd ht (by simp [hblob, htable])) hb hd,
    State.readValue_number _ _ _ _ _ hn]
  rfl

end

end Sys2Proof.Machine

open Sys2Proof Sys2Proof.Machine

/-- Settles O18: a read that passes the checks of `readOp` answers the value's bytes, and only the clearing of an RC
object and the note of a pending word change the state. -/
theorem readAnswersTheValue : Obligations.ReadAnswersTheValue := by
  intro s p a off len d o h
  refine ⟨fun hf hn hw hb hd => ?_, fun hf ha hb hd hh hi hp => ⟨fun ht hx => ?_, fun ht => ?_, fun ht hdam hx => ?_⟩,
    fun hf hh hw hd => ?_, fun hf ht hw hh hb hd => ?_, fun hf hn hw hb hd => exec_readStaged_number h hf hn hw hb hd,
    exec_describe_found h, fun hd => ?_, fun hd => ?_⟩
  · refine ⟨_, exec_read_number h hf hn hw hb hd, ?_, fun r e hr => ?_, fun hc => ?_, fun hc hi => ?_⟩
    · simp [State.emit]
    · rw [ran_get, State.get_emit, State.get_readClear_other _ _ _ hr, State.get_noteView, fresh_get]
    · rw [State.readClear_of_ne a hc]
      exact State.noteView_dict _ p a
    · rw [ran_get, State.get_emit, State.get_readClear_same _ a hc hi]
  · refine exec_read_value h hf ha hh (by simp [ht]) (fun _ => hx) hb hd hp ?_
    rw [State.readValue_eq a _ _ _ _ (fun h => hi h.1) (by simp [ht])]
    simp only [State.valueBytes, ht]
    rfl
  · refine exec_read_value h hf ha hh (by simp [ht]) (by simp [ht]) hb hd hp ?_
    rw [State.readValue_eq a _ _ _ _ (fun h => hi h.1) (by simp [ht])]
    simp only [State.valueBytes, ht]
    rfl
  · exact exec_read_value h hf ha hh (by simp [ht]) (fun _ => hx) hb hd hp
      (State.readValue_table a off len 1 hdam hi ht)
  · exact exec_read_pure h (State.readOp_highest (s := fresh s) hf hw hh hd)
  · exact exec_read_pure h (State.readOp_cmd (s := fresh s) hf hw hh ht hb hd)
  · rw [exec_echo_answers h, if_pos hd]
  · rw [exec_echo_answers h, if_neg (by omega)]
    rfl

end

section
/-!
What a reader of the buffer and a release leave of an egress port's MACs (R117, R121, R208, R213): the preemptable frame
under way, the port's tail, the preemption counters, and that outputs are only added.
-/
namespace Sys2Proof.Machine

/-! ### Memory checks change the fault collector and the free values only -/

theorem State.checkWord_eq (s : State) (ce ue u reporter addr shown access : Nat) :
    (s.checkWord ce ue u reporter addr shown access).2 = { s with
      free := (s.checkWord ce ue u reporter addr shown access).2.free
      faults := (s.checkWord ce ue u reporter addr shown access).2.faults } := by
  unfold State.checkWord
  split
  · rfl
  · dsimp only
    split <;> rfl

theorem State.readWordAs_eq (s : State) (ce ue u reporter addr shown access : Nat) :
    (s.readWordAs ce ue u reporter addr shown access).2 = { s with
      free := (s.readWordAs ce ue u reporter addr shown access).2.free
      faults := (s.readWordAs ce ue u reporter addr shown access).2.faults } := by
  unfold State.readWordAs
  dsimp only
  split
  · rw [State.checkWord_eq]
    rfl
  · rw [State.checkWord_eq]

theorem State.storeCheck_eq (s : State) (addr access : Nat) :
    (s.storeCheck addr access).2 = { s with
      free := (s.storeCheck addr access).2.free, faults := (s.storeCheck addr access).2.faults } := by
  unfold State.storeCheck
  split
  · rfl
  · dsimp only
    rw [State.readWordAs_eq]
    rfl

theorem State.storeWritten_eq (s : State) (addr shown : Nat) :
    s.storeWritten addr shown = { s with faults := (s.storeWritten addr shown).faults } := by
  unfold State.storeWritten State.wordWrittenAs
  dsimp only
  split <;> split <;> rfl

/-- A use of a descriptor changes no object (R228). -/
theorem State.useDesc_eq (s : State) (p : Pkt) : (s.useDesc p).2 = { s with
    free := (s.useDesc p).2.free, faults := (s.useDesc p).2.faults, buf := (s.useDesc p).2.buf } := by
  unfold State.useDesc
  split
  · rfl
  · extract_lets look links r
    have hr : r.2 = { s with free := r.2.free, faults := r.2.faults } := by
      refine List.foldlRecOn (motive := fun a : Bool × State => a.2 = { s with free := a.2.free, faults := a.2.faults })
        _ look rfl fun a ha w _ => ?_
      dsimp only [look]
      rw [State.readWordAs_eq, ha]
    split
    · dsimp only
      rw [hr]
      rfl
    · rw [hr]

@[simp] theorem State.getP_useDesc (s : State) (q : Pkt) (a : List Nat) (r : Ref) (e : Nat) :
    (s.useDesc q).2.getP a r e = s.getP a r e := by
  rw [State.useDesc_eq]
  generalize (s.useDesc q).2.free = n, (s.useDesc q).2.faults = f, (s.useDesc q).2.buf = b
  rfl

@[simp] theorem State.frameLen_useDesc (s : State) (q k : Pkt) (h : Holder) :
    (s.useDesc q).2.frameLen k h = s.frameLen k h := by
  rw [State.useDesc_eq]
  generalize (s.useDesc q).2.free = n, (s.useDesc q).2.faults = f, (s.useDesc q).2.buf = b
  rfl

/-! ### Cells read (R223, R224) -/

/-- A cell that is not damaged is read without a trace. -/
theorem State.readCell_clean {s : State} {c : Nat} (h : s.damaged (0x400 + bankOfCell c) c = none)
    (reader access : Nat) : s.readCell reader access c = (false, s) := by
  simp [State.readCell, State.checkWord, h]

theorem State.readRun_clean {s : State} {cs : List Nat}
    (h : ∀ c ∈ cs, s.damaged (0x400 + bankOfCell c) c = none) (port : Nat) :
    s.readRun port cs = (false, cs.length, s) := by
  have hfold : ∀ n, cs.foldl (fun a c =>
      let r := a.2.2.readCell (unitId 2 (port / 16)) 1 c
      (a.1 || r.1, if a.1 || r.1 then a.2.1 else a.2.1 + 1, r.2)) (false, n, s) = (false, n + cs.length, s) := by
    induction cs with
    | nil => intro n; rfl
    | cons c cs ih =>
      intro n
      rw [List.foldl_cons, List.length_cons, ← Nat.add_assoc, Nat.add_right_comm,
        ← ih (fun c hc => h c (List.mem_cons_of_mem _ hc)), State.readCell_clean (h c (List.mem_cons_self ..))]
      rfl
  simpa [State.readRun] using hfold 0

theorem State.readCell_out (s : State) (reader access c : Nat) : (s.readCell reader access c).2.out = s.out := by
  unfold State.readCell
  dsimp only
  rw [State.checkWord_eq]
  split <;> rfl

theorem State.readRun_out (s : State) (port : Nat) (cs : List Nat) : (s.readRun port cs).2.2.out = s.out :=
  List.foldlRecOn (motive := fun a : Bool × Nat × State => a.2.2.out = s.out) cs _ rfl
    fun _ ha _ _ => (State.readCell_out ..).trans ha

theorem State.fragmentCells_out (s : State) (port : Nat) (t : Tx) (d : Nat) :
    (s.fragmentCells port t d).2.out = s.out := by
  unfold State.fragmentCells
  split
  · rfl
  · exact State.readRun_out ..

/-! ### What stays of a port's MACs -/

/-- From `s` to `t` port `p` keeps its preemptable frame under way and its tail, every port its preemption counters, and
what was put out comes first. -/
structure KeepsMac (p : Nat) (s t : State) : Prop where
  txPre : (t.port p).txPre = (s.port p).txPre
  tail : (t.port p).tail = (s.port p).tail
  out : s.out <+: t.out
  counts : ∀ r e, r.idx = 0x3041 → t.get r e = s.get r e

namespace KeepsMac

theorem refl (p : Nat) (s : State) : KeepsMac p s s := ⟨rfl, rfl, List.prefix_rfl, fun _ _ _ => rfl⟩

variable {p : Nat} {s t u : State}

theorem ite {c : Prop} [Decidable c] (ht : KeepsMac p s t) (hu : KeepsMac p s u) :
    KeepsMac p s (if c then t else u) := by
  split
  · exact ht
  · exact hu

theorem each {β : Type} {l : List β} {f : State → β → State} (h : KeepsMac p s t)
    (hf : ∀ u x, KeepsMac p s u → KeepsMac p s (f u x)) : KeepsMac p s (t.each l f) :=
  State.each_keeps (KeepsMac p s) l f (fun u x _ => hf u x) t h

section
variable (h : KeepsMac p s t)
include h

/-- Ports, outputs and objects are all there is to keep. -/
theorem of_eq (hp : u.ports = t.ports := by rfl) (ho : u.out = t.out := by rfl)
    (hd : u.dict.objs = t.dict.objs := by rfl) : KeepsMac p s u where
  txPre := by simpa only [State.port, hp] using h.txPre
  tail := by simpa only [State.port, hp] using h.tail
  out := ho ▸ h.out
  counts r e hr := by simpa only [State.get, State.getK, hd] using h.counts r e hr

theorem set {r : Ref} {v e : Nat} (hr : r.idx ≠ 0x3041 := by simp) : KeepsMac p s (t.set r v e) where
  txPre := h.txPre
  tail := h.tail
  out := h.out
  counts q e' hq := by
    have hne : q ≠ r := fun hqr => hr ((congrArg Ref.idx hqr).symm.trans hq)
    rw [State.get_set_other t v e e' (.inl hne), h.counts q e' hq]

theorem count64 {r : Ref} {n e : Nat} (hr : r.idx ≠ 0x3041 := by simp) : KeepsMac p s (t.count64 r n e) := h.set hr
theorem lower {r : Ref} {n e : Nat} (hr : r.idx ≠ 0x3041 := by simp) : KeepsMac p s (t.lower r n e) := h.set hr
theorem higher {r : Ref} {n e : Nat} (hr : r.idx ≠ 0x3041 := by simp) : KeepsMac p s (t.higher r n e) := h.set hr

theorem emit (o : Output) : KeepsMac p s (t.emit o) :=
  ⟨h.txPre, h.tail, h.out.trans (List.prefix_append _ _), h.counts⟩

/-- A change of a port that is not one of its preemptable frame or tail. -/
theorem putPort {q : Nat} {x : PortX} (hx : x.txPre = (t.port q).txPre) (hy : x.tail = (t.port q).tail) :
    KeepsMac p s (t.putPort q x) := by
  refine ⟨?_, ?_, h.out, h.counts⟩
  · by_cases hq : q = p
    · subst hq; simpa [hx] using h.txPre
    · simpa [State.port_putPort_other _ hq] using h.txPre
  · by_cases hq : q = p
    · subst hq; simpa [hy] using h.tail
    · simpa [State.port_putPort_other _ hq] using h.tail

theorem report {src unit : Nat} {d : List Byte} : KeepsMac p s (t.report src unit d) := h.of_eq
theorem raise {src : Nat} : KeepsMac p s (t.raise src) := h.of_eq
theorem putPkt {k : Pkt} : KeepsMac p s (t.putPkt k) := h.of_eq
theorem draw {w : Nat} : KeepsMac p s (t.draw w).2 := h.of_eq

/-! #### Reads and writes of the buffer's stores -/

theorem storeCheck {addr access : Nat} : KeepsMac p s (t.storeCheck addr access).2 := by
  rw [State.storeCheck_eq]
  exact h.of_eq

theorem storeWritten {addr shown : Nat} : KeepsMac p s (t.storeWritten addr shown) := by
  rw [State.storeWritten_eq]
  exact h.of_eq

theorem readCell {reader access c : Nat} : KeepsMac p s (t.readCell reader access c).2 := by
  unfold State.readCell
  dsimp only
  rw [State.checkWord_eq]
  exact ite h.of_eq (count64 h.of_eq)

theorem fragmentCells {q : Nat} {x : Tx} {d : Nat} : KeepsMac p s (t.fragmentCells q x d).2 := by
  unfold State.fragmentCells
  split
  · exact h
  · exact List.foldlRecOn (motive := fun a : Bool × Nat × State => KeepsMac p s a.2.2) _ _ h
      fun _ ha _ _ => ha.readCell

theorem unqueue {q fid tok : Nat} : KeepsMac p s (t.unqueue q fid tok) := by
  have hread : KeepsMac p s (t.entryRead fid tok) := by
    unfold State.entryRead
    split
    · exact h.storeCheck
    · exact h
  unfold State.unqueue
  exact ite (higher hread.of_eq) h

theorem extCleared {k : Pkt} {tok : Nat} : KeepsMac p s (t.extCleared k tok) := ite h.storeCheck.storeWritten h

/-! #### The ledger (R287-R308) -/

theorem outcome {k : Pkt} {q code sent : Nat} {replica : Bool} : KeepsMac p s (t.outcome k q code replica sent) := by
  have hmatrix : ∀ u : State, KeepsMac p s u → ∀ port, KeepsMac p s (u.matrixCount k port sent) := fun u hu port => by
    unfold State.matrixCount
    exact ite hu.count64 (hu.set (by split <;> simp))
  exact ite h.count64.count64 (ite (hmatrix _ h.count64.count64.count64.count64.set _)
    h.count64.count64.count64.count64.set)

theorem ipfixSend {b : Bool} : KeepsMac p s (t.ipfixSend b) := by
  unfold State.ipfixSend
  exact ite h (ite (count64 h.of_eq) (of_eq (emit h.of_eq _)))

theorem ipfixTake {b : List Byte} : KeepsMac p s (t.ipfixTake b) := by
  unfold State.ipfixTake
  exact ite h (ite h.count64 (ite (ipfixSend h.of_eq) h.of_eq))

theorem pushRec {b : List Byte} : KeepsMac p s (t.pushRec false b).2 := by
  have hclose : ∀ u : State, KeepsMac p s u → KeepsMac p s (u.closeMsg false) := fun u hu => by
    unfold State.closeMsg
    exact ite hu (hu.of_eq)
  unfold State.pushRec
  dsimp only
  split
  · exact h.of_eq
  · exact ite (hclose _ h.of_eq) h.of_eq

theorem exportFlow {f : FlowRec} {reason : Nat} : KeepsMac p s (t.exportFlow f reason) :=
  ipfixTake (ite h.pushRec.count64 h.pushRec.count64.report)

theorem flowUpdate {k : Pkt} {code : Nat} : KeepsMac p s (t.flowUpdate k code) := by
  unfold State.flowUpdate
  dsimp only
  split
  · exact h.set
  · split
    · exact h.set.count64
    · exact h.exportFlow.count64.set.count64

theorem closeRecord {k : Pkt} {code : Nat} {last : Option Holder} : KeepsMac p s (t.closeRecord k code last) := by
  have hpost : ∀ u r, KeepsMac p s u → KeepsMac p s (u.toPostcard k r) := fun u r hu => ite hu.of_eq hu.of_eq
  unfold State.closeRecord
  extract_lets len
  split
  · exact h
  · extract_lets s1 s2 flow s3
    have h1 : KeepsMac p s s1 := by
      unfold s1
      split
      · exact h.count64.count64.set
      · exact h.count64.count64
    have h3 : KeepsMac p s s3 := ite h1.count64.flowUpdate h1.count64
    exact ite h1 (ite (hpost _ _ h3) h3)

/-! #### Release (R45, R209, R213) -/

theorem retire : KeepsMac p s t.retire := by
  unfold State.retire
  refine ite h (each h.of_eq fun u g hu => ?_)
  exact hu.set.set.raise

theorem releaseTok {k : Pkt} {x : Holder} {code sent : Nat} : KeepsMac p s (t.releaseTok k x code sent) := by
  unfold State.releaseTok
  extract_lets s1 s2 s3 s4 s5 f q
  have h3 : KeepsMac p s s3 := h.unqueue.extCleared.outcome.lower
  have h4 : KeepsMac p s s4 := ite h3.lower h3
  have h5 : KeepsMac p s s5 := by
    unfold s5
    split
    · exact h4.count64
    · exact h4.count64
    · exact h4.count64
    · exact h4.count64
    · exact h4
  exact ite (retire (ite h5.closeRecord.of_eq h5.closeRecord.putPkt)) h5.putPkt

theorem releaseAt {fid tok code sent : Nat} : KeepsMac p s (t.releaseAt fid tok code sent) := by
  unfold State.releaseAt
  split
  · exact h
  · split
    · exact h
    · exact h.releaseTok

/-! #### The final stage (R22, R276-R282, R310-R313) -/

theorem timeOp {port : Nat} {k : Pkt} {dep : Nat} {b : List Byte} : KeepsMac p s (t.timeOp port k dep b).2.2 := by
  have hslots : ∀ u l, KeepsMac p s u → u.port port = t.port port →
      KeepsMac p s (u.putPort port { t.port port with slots := l }) := fun u l hu hp =>
    hu.putPort (by rw [hp]) (by rw [hp])
  unfold State.timeOp
  dsimp only
  split
  · exact h
  · split
    · exact h.count64.report
    · split
      · exact h.count64
      · exact h.count64
      · exact h.count64
      · split
        · exact (hslots _ _ h.count64 rfl).count64
        · exact (hslots _ _ h rfl).count64
      · split
        · exact h.count64
        · exact (hslots _ _ h rfl).count64

theorem transparent {k : Pkt} {port dcOut enc off : Nat} {b : List Byte} :
    KeepsMac p s (t.transparent k port dcOut enc off b).2 := by
  unfold State.transparent
  dsimp only
  split
  · exact h
  · split
    · exact h.count64.report
    · split
      · exact h
      · split
        · exact h.count64.report
        · exact h.count64

theorem replicaBody {k : Pkt} {x : Holder} {dcOut dep : Nat} : KeepsMac p s (t.replicaBody k x dcOut dep).2.2 := by
  unfold State.replicaBody
  extract_lets port b0 d s1 sh b ip tr s2 l b2 s3
  have h1 : KeepsMac p s s1 := by
    show KeepsMac p s (if vlanOp x.vlan = 3 then t.draw 4 else (0, t)).2
    split
    · exact h.draw
    · exact h
  have h2 : KeepsMac p s s2 := ite h1 h1.count64
  have h3 : KeepsMac p s s3 := ite h2 (ite h2.count64 h2.putPkt.count64)
  split
  · split
    · exact h3.transparent
    · exact h3
  · exact h3.timeOp

theorem finalFrame {k : Pkt} {x : Holder} {dcOut dep : Nat} : KeepsMac p s (t.finalFrame k x dcOut dep).2.2 := by
  unfold State.finalFrame
  split
  · show KeepsMac p s (if vlanOp x.vlan = 3 then t.draw 4 else (0, t)).2
    split
    · exact h.draw
    · exact h
  · exact h.replicaBody

theorem stampTx {port gap : Nat} {x : Tx} : KeepsMac p s (t.stampTx port gap x).2 := by
  unfold State.stampTx
  split
  · exact h
  · dsimp only
    split
    · split
      · exact h.finalFrame
      · exact h
    · exact h

/-- A frame of the express path that starts when the wire is free. -/
theorem wireFree {port : Nat} : KeepsMac p s (t.wireFree port false) := by
  unfold State.wireFree
  dsimp only
  split
  · exact h
  · split
    · exact h.stampTx.putPort rfl rfl
    · exact h

end

end KeepsMac

end Sys2Proof.Machine
end

section
/-!
How a frame leaves an egress port: the pick's outcomes (R107, R213, R224, R233), a fragment's end (R117, R119, R121),
the guard's cut (R248) and the last byte (R208), and the statement assembled from them.
-/
namespace Sys2Proof.Machine

/-! ### Commands that do nothing -/

theorem ran_fresh {s : State} (h : Runs s) : ran s (fresh s) = fresh s := ran_eq rfl h

/-- With fewer than 24 records in every builder no postcard is due (R308). -/
theorem State.postcardsDue_of_few {s : State} (h : ∀ e ∈ s.tiles, e.2.postRecs.length < 24) : s.postcardsDue = s := by
  have hnone : s.tiles.filter (fun e => 24 ≤ e.2.postRecs.length) = [] :=
    List.filter_eq_nil_iff.2 fun e he => by simpa using h e he
  simp [State.postcardsDue, hnone, State.each]

/-! ### PICK (R107, R213, R224, R233, R234) -/

theorem exec_pick_ran {s : State} (h : Runs s) (p : Port) (pre : Bool) :
    exec (.pick p pre) s = .next (ran s ((fresh s).pick p pre).postcardsDue) := by
  rw [exec_pick, execPick, live_ran h]

theorem State.pick_down {s : State} {port : Nat} (pre : Bool) (h : (s.port port).up = false) : s.pick port pre = s := by
  simp [State.pick, h]

/-- A pick of an idle express path goes on with the head of the member chosen. -/
theorem State.pick_express {s v : State} {w : List Nat × State} {port g : Nat} (hup : (s.port port).up = true)
    (htx : (s.port port).txExp = none) (hw : w = s.sweepHeads port (s.members port))
    (hv : v = w.2.each ((w.1.filter (w.2.mayGo port false)).filter fun g =>
      !((w.1.filter (w.2.mayGo port false)).filter (w.2.headGuard port)).contains g)
        (fun s g => s.count64 (O.SCHED_COUNTS g 6)))
    (hc : v.choose ((w.1.filter (w.2.mayGo port false)).filter (w.2.headGuard port)) = some g) :
    s.pick port false = v.goHead port false g := by
  subst hv hw
  unfold State.pick
  simp only [hup, htx, Bool.not_true, Option.isSome_none, Bool.and_false, Bool.false_and, Bool.or_self,
    Bool.false_eq_true, if_false]
  rw [hc]

section
variable {s : State} {port g : Nat} {pre : Bool} {q : Pkt} {h : Holder} (hh : s.head g = some (q, h))
include hh

theorem State.goHead_lost (hd : (s.useDesc q).1 = true) :
    s.goHead port pre g = (s.useDesc q).2.discardHolder q.fid h.tok g 0xC6 := by
  simp [State.goHead, hh, hd]

theorem State.goHead_poisoned (hd : (s.useDesc q).1 = false)
    (hp : q.poison = true ∨ ((s.useDesc q).2.readCells port (q.cells.take 1)).1 = true) :
    s.goHead port pre g =
      ((s.useDesc q).2.readCells port (q.cells.take 1)).2.discardHolder q.fid h.tok g 0xC5 := by
  simp [State.goHead, hh, hd, hp]

theorem State.goHead_long (hd : (s.useDesc q).1 = false) (hp : q.poison = false)
    (hr : ((s.useDesc q).2.readCells port (q.cells.take 1)).1 = false) (he : q.ended = true)
    (hl : s.getP q.applied (O.MAX_FRAME port) < s.frameLen q h) :
    s.goHead port pre g =
      ((s.useDesc q).2.readCells port (q.cells.take 1)).2.discardHolder q.fid h.tok g 0x91 := by
  simp [State.goHead, hh, hd, hp, hr, he, hl]

theorem State.goHead_starts (hd : (s.useDesc q).1 = false) (hp : q.poison = false)
    (hr : ((s.useDesc q).2.readCells port (q.cells.take 1)).1 = false)
    (hl : q.ended = true → s.frameLen q h ≤ s.getP q.applied (O.MAX_FRAME port)) :
    s.goHead port pre g = ((s.useDesc q).2.readCells port (q.cells.take 1)).2.startFrame port pre g q h := by
  have hl' : ¬ (q.ended = true ∧ s.getP q.applied (O.MAX_FRAME port) < s.frameLen q h) :=
    fun hc => absurd (hl hc.1) (not_le.2 hc.2)
  simp [State.goHead, hh, hd, hp, hr, hl']

end

/-! ### The end of a fragment (R117, R119, R121) -/

theorem State.endFragment_bad {s : State} {port d k : Nat} {t : Tx} (held : Bool)
    (h : (s.fragmentCells port t d).1 = some k) :
    s.endFragment port t d held = ((s.fragmentCells port t d).2.endBad port t k).wireFree port false := by
  simp [State.endFragment, h]

theorem State.endFragment_whole {s : State} {port d : Nat} {t : Tx} (held : Bool)
    (h : (s.fragmentCells port t d).1 = none) :
    s.endFragment port t d held = ((s.fragmentCells port t d).2.passTail port t d held).wireFree port false := by
  simp [State.endFragment, h]

/-- The cells of a fragment that are not damaged are read without a trace (R224). -/
theorem State.fragmentCells_clean {s : State} {port k : Nat} {t : Tx} {q : Pkt} (hq : s.pkt? t.fid = some q)
    (hc : ∀ c ∈ cellsWithin q t.sent (t.sent + k), s.damaged (0x400 + bankOfCell c) c = none) :
    s.fragmentCells port t k = (if q.poison then some (t.sent + k) else none, s) := by
  simp [State.fragmentCells, hq, State.readRun_clean hc]

/-- A fragment that ends bad: the MAC is free, the tail is as it was, the fragment is put out first and counted. -/
theorem State.endBad_wireFree (s : State) (port : Nat) (t : Tx) (n : Nat) (hout : s.out = []) :
    let u := (s.endBad port t n).wireFree port false
    (u.port port).txPre = none ∧ (u.port port).tail = (s.port port).tail ∧
    u.out.head? = some (.fragment port t.fragCount (checked (s.txBytes t) t.sent n 0xFFFF0000)) ∧
    u.get (O.PREEMPT_COUNTS port 9) = (s.get (O.PREEMPT_COUNTS port 9) + 1) % 2 ^ 64 := by
  intro u
  let v := ((((s.emit (.fragment port t.fragCount (checked (s.txBytes t) t.sent n 0xFFFF0000))).modPort port
    fun x => { x with txPre := none }).count64 (O.MAC_COUNTS port 8)).count64 (O.MAC_COUNTS port 9) n).count64
    (O.PREEMPT_COUNTS port 9)
  have hk : KeepsMac port v u := (KeepsMac.refl port v).releaseAt.wireFree
  have hport : v.port port = { s.port port with txPre := none } := State.port_putPort _ _ _
  have hvout : v.out = [.fragment port t.fragCount (checked (s.txBytes t) t.sent n 0xFFFF0000)] := by
    show s.out ++ _ = _
    rw [hout]; rfl
  refine ⟨hk.txPre.trans (by rw [hport]), hk.tail.trans (by rw [hport]), ?_, (hk.counts _ _ rfl).trans ?_⟩
  · obtain ⟨l, hl⟩ := hk.out
    rw [← hl, hvout]
    rfl
  · show (State.count64 _ _).get _ = _
    rw [State.get_count64_same, State.get_count64_other _ _ (.inl (by simp)),
      State.get_count64_other _ _ (.inl (by simp))]
    rfl

/-- With no frame on the express path the end of a fragment starts none. -/
theorem State.wireFree_idle {s : State} {port : Nat} (h : (s.port port).txExp = none) : s.wireFree port false = s := by
  simp [State.wireFree, h]

/-- A whole fragment passes its holder to the MAC, which is marked where it was not (R119). -/
theorem passTail_of_pkt {s : State} {p : Port} {t : Tx} {d : Nat} {held : Bool} {q : Pkt}
    (h : (cutAt s p t d held).pkt? t.fid = some q) :
    (fresh s).passTail p t d held = if (q.holders.any fun h => h.tok == t.tok && h.kind == .tail) = true
      then cutAt s p t d held
      else ((cutAt s p t d held).putPkt (q.modHolder t.tok fun h => { h with kind := .tail })).count64
        (O.PREEMPT_COUNTS p 2) := by
  unfold State.passTail
  dsimp only
  split
  · rename_i hnone
    cases h.symm.trans hnone
  · rename_i hsome
    cases h.symm.trans hsome
    rfl

/-- What a whole fragment leaves, whatever its packet: the cut, and the count of preempted frames. -/
theorem passTail_cutAt (s : State) (p : Port) (t : Tx) (d : Nat) (held : Bool) :
    (fresh s).passTail p t d held = cutAt s p t d held ∨
    ∃ q, (fresh s).passTail p t d held = ((cutAt s p t d held).putPkt q).count64 (O.PREEMPT_COUNTS p 2) := by
  unfold State.passTail
  dsimp only
  split
  · exact .inl rfl
  · split
    · exact .inl rfl
    · exact .inr ⟨_, rfl⟩

/-- A fragment that ends whole with no frame on the express path: the rest is the tail, the fragment is all that is put
out, and only the counts of fragments and of preempted frames change. -/
theorem passTail_wireFree {s : State} {p : Port} (t : Tx) (d : Nat) (held : Bool) (hx : (s.port p).txExp = none) :
    let u := ((fresh s).passTail p t d held).wireFree p false
    (u.port p).txPre = none ∧ (u.port p).tailHeld = held ∧
    (u.port p).tail = some { t with sent := t.sent + d, frags := t.frags + 1 } ∧
    u.out = [.fragment p t.fragCount (checked ((fresh s).txBytes t) t.sent (t.sent + d) 0xFFFF)] ∧
    u.get (O.PREEMPT_COUNTS p 1) = (s.get (O.PREEMPT_COUNTS p 1) + 1) % 2 ^ 64 ∧
    ∀ r e, r ≠ O.PREEMPT_COUNTS p 1 → r ≠ O.PREEMPT_COUNTS p 2 → u.get r e = s.get r e := by
  intro u
  have hcut : (cutAt s p t d held).port p = { s.port p with
      txPre := none, tail := some { t with sent := t.sent + d, frags := t.frags + 1 }, tailHeld := held } :=
    State.port_putPort _ _ _
  have hport : ((fresh s).passTail p t d held).port p = (cutAt s p t d held).port p := by
    obtain h | ⟨q, h⟩ := passTail_cutAt s p t d held
    · rw [h]
    · rw [h]
      rfl
  have hu : u = (fresh s).passTail p t d held := State.wireFree_idle (by rw [hport, hcut]; exact hx)
  have hget : ∀ r e, r ≠ O.PREEMPT_COUNTS p 2 → u.get r e = (cutAt s p t d held).get r e := fun r e hr => by
    rw [hu]
    obtain h | ⟨q, h⟩ := passTail_cutAt s p t d held
    · rw [h]
    · rw [h, State.get_count64_other _ _ (.inl hr), State.get_putPkt]
  refine ⟨by rw [hu, hport, hcut], by rw [hu, hport, hcut], by rw [hu, hport, hcut], ?_, ?_, fun r e h1 h2 => ?_⟩
  · rw [hu]
    obtain h | ⟨q, h⟩ := passTail_cutAt s p t d held
    · rw [h]
      rfl
    · rw [h]
      rfl
  · rw [hget _ _ (by simp)]
    exact State.get_count64_same _ _ _ _
  · rw [hget _ _ h2]
    exact State.get_count64_other _ _ (.inl h1)

/-! ### FRAGMENT_END and GATE_GUARD_CUT (R117, R235, R248, R249) -/

@[simp] theorem fresh_port (s : State) (p : Nat) : (fresh s).port p = s.port p := rfl
@[simp] theorem fresh_gate (s : State) (p : Nat) : (fresh s).gate p = s.gate p := rfl
@[simp] theorem fresh_flag (s : State) (r : Ref) : (fresh s).flag r = s.flag r := rfl
@[simp] theorem fresh_pkt? (s : State) (f : Nat) : (fresh s).pkt? f = s.pkt? f := rfl
@[simp] theorem fresh_txLen (s : State) (t : Tx) : (fresh s).txLen t = s.txLen t := rfl
@[simp] theorem fresh_legalCut (s : State) (p : Nat) (t : Tx) (d : Nat) :
    (fresh s).legalCut p t d = s.legalCut p t d := rfl

theorem fresh_gateEntries_go (s : State) (p : Nat) (g : GList) (fuel i off : Nat) :
    State.gateEntries.go (fresh s) p g fuel i off = State.gateEntries.go s p g fuel i off := by
  induction fuel generalizing i off with
  | zero => rfl
  | succ fuel ih =>
    simp only [State.gateEntries.go, ih]
    rfl

@[simp] theorem fresh_gateEntries (s : State) (p : Nat) (g : GList) : (fresh s).gateEntries p g = s.gateEntries p g :=
  fresh_gateEntries_go s p g 256 0 0

@[simp] theorem fresh_openIn (s : State) (p d : Nat) : (fresh s).openIn p d = s.openIn p d := by
  simp only [State.openIn, fresh_gateEntries]
  rfl

@[simp] theorem fresh_nextClose (s : State) (p m d : Nat) : (fresh s).nextClose p m d = s.nextClose p m d := by
  simp only [State.nextClose, fresh_gateEntries]
  rfl

@[simp] theorem fresh_dcU (s : State) : (fresh s).dcU = s.dcU := rfl
@[simp] theorem fresh_guardRoom (s : State) (p : Nat) (t : Tx) : (fresh s).guardRoom p t = s.guardRoom p t := by
  simp only [State.guardRoom, fresh_openIn, fresh_nextClose, fresh_dcU, fresh_get]

section
variable {s : State} {p : Port} {n : Fin 16384} {t : Tx} (h : Runs s) (ht : (s.port p).txPre = some t)
include h ht

theorem exec_fragmentEnd_cut (ha : s.flag (O.PREEMPT_ACTIVE p) = true) (hw : t.waits = false)
    (hl : s.legalCut p t n = true) (hx : (s.port p).txExp.isSome = true ∨ (s.gate p).held = true) :
    exec (.fragmentEnd p n) s = .next (ran s ((fresh s).endFragment p t n false)) := by
  rw [exec_fragmentEnd, execFragmentEnd, live_ran h]
  simp [ht, ha, hw, hl, hx]

theorem exec_fragmentEnd_idle (hn : s.flag (O.PREEMPT_ACTIVE p) = false ∨ t.waits = true ∨ s.legalCut p t n = false ∨
    ((s.port p).txExp = none ∧ (s.gate p).held = false)) : exec (.fragmentEnd p n) s = .next (fresh s) := by
  rw [exec_fragmentEnd, execFragmentEnd]
  refine live_eq h ?_ rfl h
  obtain hn | hn | hn | ⟨hx, hg⟩ := hn
  · simp [ht, hn]
  · simp [ht, hn]
  · simp [ht, hn]
  · simp [ht, hx, hg]

variable {room : Nat} (hr : s.guardRoom p t = some room)
include hr

theorem exec_gateGuardCut_cut (ha : s.flag (O.PREEMPT_ACTIVE p) = true) (hw : t.waits = false)
    (hlt : room < 8 + (s.txLen t - t.sent)) (hn : n.val = min (room - 12) (s.txLen t - t.sent - 64) / 4 * 4)
    (hl : s.legalCut p t n = true) :
    exec (.gateGuardCut p n) s = .next (ran s ((fresh s).endFragment p t n true)) := by
  rw [exec_gateGuardCut, execGateGuardCut, live_ran h]
  simp only [fresh_port, ht, fresh_guardRoom, hr, fresh_flag, fresh_txLen, fresh_legalCut, ← hn, ha, hw, hlt, hl,
    Bool.not_false, decide_true, Bool.and_self, if_true]

theorem exec_gateGuardCut_idle (hn : 8 + (s.txLen t - t.sent) ≤ room ∨
    n.val ≠ min (room - 12) (s.txLen t - t.sent - 64) / 4 * 4) :
    exec (.gateGuardCut p n) s = .next (fresh s) := by
  rw [exec_gateGuardCut, execGateGuardCut]
  refine live_eq h ?_ rfl h
  obtain hn | hn := hn
  · simp [ht, hr, not_lt.2 hn]
  · simp [ht, hr, hn]

end

/-! ### TRANSMIT_END (R208, R213) -/

theorem exec_transmitEnd_ran {s : State} (h : Runs s) (p : Port) (pre : Bool) :
    exec (.transmitEnd p pre) s = .next (ran s ((fresh s).transmitEnd p pre).postcardsDue) := by
  rw [exec_transmitEnd, execTransmitEnd, live_ran h]

/-- The last byte of a complete and sound frame: it is put out, counted, and its token is released as forwarded. -/
theorem State.lastByte_sound {s v : State} {port : Nat} {pre : Bool} {t : Tx} {p q : Pkt} {h : Holder} {f : List Byte}
    {r : Bool × Nat × State} (hv : v = (s.useDesc p).2) (hq : v.pkt? t.fid = some q)
    (hr : r = v.readRun port (cellsWithin q t.sent (256 * q.cells.length))) (hbad : r.1 = false)
    (hq' : r.2.2.pkt? t.fid = some q) (hf : t.frame = some f) (hcode : t.code = 0) (hpoison : q.poison = false)
    (hspoilt : q.spoilt = 0) (hlost : q.lost = false) (hover : q.act.overflow = false) :
    s.lastByte port pre t p h = (((r.2.2.emit (if pre then .fragment port t.fragCount (f.drop t.sent)
      else .wire port f)).count64 (O.MAC_COUNTS port 8)).count64 (O.MAC_COUNTS port 9) f.length).releaseAt t.fid t.tok
        0x00 f.length := by
  subst hv hr
  have hfate : frameFate t q (false || q.poison) 0 pre = 0 := by
    simp [frameFate, hlost, hpoison, hspoilt, hcode, hover]
  unfold State.lastByte
  simp only [hq, Option.getD_some, hf, hq', hbad, hfate]
  cases pre <;> rfl

/-- A frame under way whose bytes have all come, and that does not wait for the wire, ends. -/
theorem State.transmitEnd_ends {s : State} {port : Nat} {pre : Bool} {t : Tx} {q : Pkt} {h : Holder}
    (ht : (if pre then (s.port port).txPre else (s.port port).txExp) = some t) (hw : t.waits = false)
    (hq : s.pkt? t.fid = some q) (he : q.ended = true) (hh : q.holders.find? (·.tok == t.tok) = some h) :
    s.transmitEnd port pre =
      ((s.putPort port ((s.port port).putTx pre none)).lastByte port pre t q h).wireFree port !pre := by
  unfold State.transmitEnd
  simp only [ht, hq, he, hw, hh, Bool.not_true, Bool.or_self, Bool.false_eq_true, if_false]
  rfl

theorem State.transmitEnd_waits {s : State} {port : Nat} {t : Tx} (ht : (s.port port).txExp = some t)
    (hw : t.waits = true) (hq : s.pkt? t.fid ≠ none) : s.transmitEnd port false = s := by
  obtain ⟨q, hq⟩ := Option.ne_none_iff_exists'.1 hq
  simp [State.transmitEnd, ht, hw, hq]

theorem State.transmitEnd_idle {s : State} {port : Nat} (ht : (s.port port).txExp = none) :
    s.transmitEnd port false = s := by
  simp [State.transmitEnd, ht]

end Sys2Proof.Machine

open Sys2Proof Sys2Proof.Machine

/-- Settles O33: each outcome of a pick is an equation of `goHead`, a fragment's end keeps what `KeepsMac` names through
the release and the frame that starts next, and the last byte of a sound frame is an equation of `lastByte`. -/
theorem framesLeaveAPort : Obligations.FramesLeaveAPort := by
  intro s p n pre hrun
  refine ⟨?pick, ?down, ?fragment, ?clean, ?noCut, ?guard, ?last, ?waits, ?idle⟩
  case pick =>
    intro w v g q h hup htx hw hv hc hh
    have hpick : (fresh s).pick p false = v.goHead p false g := State.pick_express (s := fresh s) hup htx hw hv hc
    refine ⟨fun hd => ?_, fun r hr hd => ⟨fun hp => ?_, fun hp hr1 he hlt => ?_, fun hp hr1 hle => ?_⟩⟩
    · rw [exec_pick_ran hrun, hpick, State.goHead_lost hh hd]
    · rw [exec_pick_ran hrun, hpick, State.goHead_poisoned hh hd (hr ▸ hp), hr]
    · rw [exec_pick_ran hrun, hpick, State.goHead_long hh hd hp (hr ▸ hr1) he (by simpa using hlt), hr]
    · rw [exec_pick_ran hrun, hpick, State.goHead_starts hh hd hp (hr ▸ hr1) (by simpa using hle), hr]
  case down =>
    intro hup hfew
    rw [exec_pick_ran hrun, State.pick_down (s := fresh s) pre hup, State.postcardsDue_of_few (s := fresh s) hfew,
      ran_fresh hrun]
  case fragment =>
    intro t r ht ha hwait hl hx hr
    have hexec := exec_fragmentEnd_cut hrun ht ha hwait hl hx
    subst hr
    refine ⟨fun k hk => ?_, fun hk => ?_, fun hr htx => ?_, fun q hr hq => ?_⟩
    · rw [State.endFragment_bad false hk] at hexec
      have hkeep : KeepsMac p (fresh s) ((fresh s).fragmentCells p t n).2 := (KeepsMac.refl p (fresh s)).fragmentCells
      obtain ⟨hpre, htail, hout, hget⟩ := State.endBad_wireFree ((fresh s).fragmentCells p t n).2 p t k
        (State.fragmentCells_out (fresh s) p t n)
      exact ⟨hexec, _, hexec, hpre, htail.trans hkeep.tail, hout, hget.trans (by rw [hkeep.counts _ _ rfl, fresh_get])⟩
    · rw [hexec, State.endFragment_whole false hk]
    · rw [State.endFragment_whole false (by rw [hr]), hr] at hexec
      exact ⟨_, hexec, passTail_wireFree t n false htx⟩
    · rw [hexec, State.endFragment_whole false (by rw [hr]), hr, passTail_of_pkt hq]
  case clean => exact fun t q k hq hc => State.fragmentCells_clean (s := fresh s) hq hc
  case noCut => exact fun t ht hn => exec_fragmentEnd_idle hrun ht hn
  case guard =>
    intro t room rest d ht hroom hrest hd
    subst hrest hd
    refine ⟨fun ha hwait hlt hn hl r hr => ?_, exec_gateGuardCut_idle hrun ht hroom⟩
    have hexec := exec_gateGuardCut_cut hrun ht hroom ha hwait hlt hn (hn ▸ hl)
    rw [hn] at hexec
    subst hr
    refine ⟨fun k hk => ?_, fun hk => ?_, fun hr htx => ?_, fun q hr hq => ?_⟩
    · rw [hexec, State.endFragment_bad true hk]
    · rw [hexec, State.endFragment_whole true hk]
    · rw [State.endFragment_whole true (by rw [hr]), hr] at hexec
      obtain ⟨hpre, hheld, htail, -, -, hget⟩ := passTail_wireFree t _ true htx
      exact ⟨_, hexec, hpre, hheld, htail, hget⟩
    · rw [hexec, State.endFragment_whole true (by rw [hr]), hr, passTail_of_pkt hq]
  case last =>
    intro t q h f r v ht hwait hq he hh hf hcode hpoison hspoilt hlost hover hv hvq hr hbad hrq
    rw [exec_transmitEnd_ran hrun, State.transmitEnd_ends (s := fresh s) ht hwait hq he hh, fresh_port,
      State.lastByte_sound hv hvq hr hbad hrq hf hcode hpoison hspoilt hlost hover]
  case waits =>
    intro t ht hwait hq hfew
    rw [exec_transmitEnd_ran hrun, State.transmitEnd_waits (s := fresh s) ht hwait hq,
      State.postcardsDue_of_few (s := fresh s) hfew, ran_fresh hrun]
  case idle =>
    intro ht hfew
    rw [exec_transmitEnd_ran hrun, State.transmitEnd_idle (s := fresh s) ht,
      State.postcardsDue_of_few (s := fresh s) hfew, ran_fresh hrun]

end

section
/-!
Values stay canonical (R43, R44): objects, interrupts and faults.

`Canonical.foo` says that the model's function `foo` gives canonical values from canonical ones, in the model's order. A
function that leaves the values alone does so by `of_eq`; one that writes one by `set`; one composed of others by their
lemmas, in the order in which it calls them.
-/
-- One proof after another: a thread for each of so many small proofs needs more memory than the check has.
set_option Elab.async false

namespace Sys2Proof.Machine

/-- The active values stand in their canonical form. -/
def Canonical (s : State) : Prop := objsCanonical s.dict.objs = true

/-- A command answers a next state whose values stand in their canonical form. -/
def Stays (o : Out) : Prop := ∃ t, o = .next t ∧ Canonical t

/-- What an instruction does beside its core and packet keeps the form. -/
def Issue.Keeps : Issue → Prop
  | .ok _ _ _ fx => ∀ u, Canonical u → Canonical (fx u)
  | _ => True

namespace Canonical

theorem ite {c : Prop} [Decidable c] {t u : State} (ht : Canonical t) (hu : Canonical u) :
    Canonical (if c then t else u) := by
  split
  · exact ht
  · exact hu

theorem ite_snd {α : Type} {c : Prop} [Decidable c] {t u : α × State} (ht : Canonical t.2) (hu : Canonical u.2) :
    Canonical (if c then t else u).2 := by
  split
  · exact ht
  · exact hu

theorem foldl_snd {α β : Type} {l : List β} {f : α × State → β → α × State} {a : α × State} (h : Canonical a.2)
    (hf : ∀ a x, Canonical a.2 → Canonical (f a x).2) : Canonical (l.foldl f a).2 :=
  List.foldlRecOn (motive := fun a : α × State => Canonical a.2) l f h fun a ha x _ => hf a x ha

variable {s : State} (h : Canonical s)
include h

theorem foldl {β : Type} {l : List β} {f : State → β → State} (hf : ∀ u x, Canonical u → Canonical (f u x)) :
    Canonical (l.foldl f s) :=
  List.foldlRecOn (motive := Canonical) l f h fun u hu x _ => hf u x hu

/-- A change of anything but the values. -/
theorem of_eq {t : State} (ht : t.dict.objs = s.dict.objs := by rfl) : Canonical t :=
  (congrArg objsCanonical ht).trans h

theorem each {β : Type} {l : List β} {f : State → β → State} (hf : ∀ u x, Canonical u → Canonical (f u x)) :
    Canonical (s.each l f) :=
  State.each_keeps Canonical l f (fun u x _ => hf u x) s h

theorem setK {k : OKey} {v : Nat} : Canonical (s.setK k v) := canonical_setK s k v h
theorem set {r : Ref} {v e : Nat} : Canonical (s.set r v e) := h.setK

/-- A command's effect runs on a device that runs, else nothing changes. -/
theorem live {f : State → State} (hf : ∀ u, Canonical u → Canonical (f u)) : Stays (live s f) := by
  by_cases hr : Runs s
  · exact ⟨_, live_ran hr f, (hf (fresh s) h.of_eq).of_eq⟩
  · exact ⟨_, live_off hr f, h.of_eq⟩

theorem ite_left {c : Prop} [Decidable c] {t : State} (ht : Canonical s → Canonical t) :
    Canonical (if c then t else s) := ite (ht h) h

theorem ite_right {c : Prop} [Decidable c] {t : State} (ht : Canonical s → Canonical t) :
    Canonical (if c then s else t) := ite h (ht h)

/-- Elements taken out. -/
theorem keepOnly {t : State} {p : OKey × Nat → Bool} (ht : t.dict.objs = s.dict.objs.filter p) : Canonical t :=
  (congrArg objsCanonical ht).trans (canonical_filter _ _ h)

/-! ### Objects, reports and free values (Ops) -/

theorem setAll {r : Ref} {vs : List Nat} {e : Nat} : Canonical (s.setAll r vs e) := by
  induction vs generalizing s e with
  | nil => exact h
  | cons v vs ih => exact ih h.set

theorem count64 {r : Ref} {n e : Nat} : Canonical (s.count64 r n e) := h.set

theorem countSat {w : Nat} {r : Ref} {n e : Nat} : Canonical (State.countSat w s r n e) := h.set

theorem count32 {r : Ref} {n e : Nat} : Canonical (s.count32 r n e) := h.countSat

theorem emit {o : Output} : Canonical (s.emit o) := h.of_eq

theorem raise {src : Nat} : Canonical (s.raise src) := h.of_eq

theorem reportR {r : Report} : Canonical (s.reportR r) := h.of_eq

theorem report {src unit : Nat} {detail : List Byte} : Canonical (s.report src unit detail) := h.reportR

theorem draw {w : Nat} : Canonical (s.draw w).2 := h.of_eq

theorem putLane {l : Nat} {x : LaneX} : Canonical (s.putLane l x) := h.of_eq

theorem modLane {l : Nat} {f : LaneX → LaneX} : Canonical (s.modLane l f) := h.putLane

theorem putPort {p : Nat} {x : PortX} : Canonical (s.putPort p x) := h.of_eq

theorem modPort {p : Nat} {f : PortX → PortX} : Canonical (s.modPort p f) := h.putPort

theorem putGate {p : Nat} {x : GateX} : Canonical (s.putGate p x) := h.of_eq

theorem putTile {t : Nat} {x : TileX} : Canonical (s.putTile t x) := h.of_eq

theorem modTile {t : Nat} {f : TileX → TileX} : Canonical (s.modTile t f) := h.putTile

theorem putCore {t c : Nat} {x : CoreX} : Canonical (s.putCore t c x) := h.of_eq

theorem freeCore {t c : Nat} : Canonical (s.freeCore t c) := h.of_eq

theorem putChan {c : Nat} {x : ChanX} : Canonical (s.putChan c x) := h.of_eq

theorem modChan {c : Nat} {f : ChanX → ChanX} : Canonical (s.modChan c f) := h.putChan

theorem putEngine {e : Nat} {x : EngineX} : Canonical (s.putEngine e x) := h.of_eq

theorem putIsrc {n : Nat} {x : IrqSrc} : Canonical (s.putIsrc n x) := h.of_eq

theorem putItgt {t : Nat} {x : IrqTgt} : Canonical (s.putItgt t x) := h.of_eq

theorem putBucket {q : Nat} {x : Bucket} : Canonical (s.putBucket q x) := h.of_eq

theorem putPkt {p : Pkt} : Canonical (s.putPkt p) := h.of_eq

theorem dropPkt {fid : Nat} : Canonical (s.dropPkt fid) := h.of_eq

theorem setCmd {r : Ref} {st err : Nat} {res : List Byte} : Canonical (s.setCmd r st err res) := h.of_eq

theorem cmdRun {r : Ref} : Canonical (s.cmdRun r) := h.setCmd

theorem cmdDone {r : Ref} {res : List Byte} : Canonical (s.cmdDone r res) := h.setCmd

theorem cmdFail {r : Ref} {err : Nat} : Canonical (s.cmdFail r err) := h.setCmd

/-! ### Operands -/

theorem putBase {n : Nat} {b : Base} : Canonical (s.putBase n b) := h.of_eq

theorem tick : Canonical s.tick := h.of_eq

/-! ### The interrupt controller (Irq) -/

theorem setSrc {n : Nat} {st : SrcState} {redir : Bool} : Canonical (s.setSrc n st redir) := h.of_eq

theorem countSrc {n k : Nat} : Canonical (s.countSrc n k) := h.count64

theorem event {n : Nat} : Canonical (s.event n) := by
  unfold State.event
  dsimp only
  split
  · exact h.countSrc.setSrc
  · exact h.countSrc.countSrc
  · exact h.countSrc.countSrc

theorem withdraw {n : Nat} : Canonical (s.withdraw n) := ite h.setSrc.countSrc h

theorem sendMsix {e : Nat} : Canonical (s.sendMsix e) := ite h.emit h.of_eq

theorem flushMsix : Canonical s.flushMsix := foldl h fun _ _ h1 => ite h1.of_eq h1

theorem settle {t : Nat} : Canonical (s.settle t) := ite h.of_eq h.of_eq

theorem message {t : Nat} : Canonical (s.message t) :=
  ite h.putItgt.count64.sendMsix (ite (of_eq h.putItgt.count64 rfl) h.putItgt.count64.emit)

theorem slateReady {c : Nat} : Canonical (s.slateReady c) := ite h.of_eq h

theorem claim {t : Nat} : Canonical (s.claim t) := by
  unfold State.claim
  refine ite h.settle.count64.emit.count64 (ite h.settle.count64.emit ?_)
  split
  · exact h.settle.count64.emit
  · exact h.putItgt.setSrc.countSrc.settle.count64.emit

theorem complete {t n : Nat} : Canonical (s.complete t n) :=
  ite h (ite h.count64 (ite h.putItgt.setSrc.settle.count64 h.putItgt.count64.settle.report))

theorem stackReset {t : Nat} : Canonical (s.stackReset t) :=
  count64 (settle (putItgt (foldl h fun _ _ h1 => h1.setSrc)))

theorem writeMask {w v : Nat} : Canonical (s.writeMask w v) := each h fun _ _ h1 => h1.set

theorem noteRead {path w : Nat} : Canonical (s.noteRead path w) := h.of_eq

theorem noteRef {path : Nat} : Canonical (s.noteRef path) := h.of_eq

theorem writePending {w v : Nat} : Canonical (s.writePending w v) :=
  each h fun _ _ h1 => ite h1 (ite (event (ite h1.count64 h1)) (withdraw (ite h1.count64 h1)))

theorem retargeted {n : Nat} : Canonical (s.retargeted n) := ite h.putIsrc h

theorem deliveryTimeout {n : Nat} : Canonical (s.deliveryTimeout n) := by
  unfold State.deliveryTimeout
  split
  · exact h
  · exact ite h (ite h.count64 h.putIsrc.count64.raise)

theorem irqHostReset : Canonical s.irqHostReset := by
  unfold State.irqHostReset
  refine noteRef (each h fun _ _ h1 => ?_)
  exact h1.stackReset

theorem execMsixDeliverable {t : Fin 64} : Stays (execMsixDeliverable t s) :=
  h.live fun u hu => ite (hu.emit (o := .msix t)).of_eq hu

theorem execSourceDoorbell : Stays (execSourceDoorbell s) := by
  unfold Machine.execSourceDoorbell
  refine h.live fun u hu => ?_
  split
  · exact hu
  · exact hu.of_eq.event

theorem execIrqDoorbell {v : BitVec 32} : Stays (execIrqDoorbell v s) := h.live fun _ hu => ite hu.event hu.count64

theorem execDeliveryMessage {t : Target} : Stays (execDeliveryMessage t s) := h.live fun _ hu => ite hu.message hu

theorem execIrqClaim {t : Target} : Stays (execIrqClaim t s) := h.live fun _ hu => hu.claim

theorem execIrqComplete {t : Target} {v : BitVec 32} : Stays (execIrqComplete t v s) := h.live fun _ hu => hu.complete

theorem execIrqStackReset {t : Target} {v : BitVec 32} : Stays (execIrqStackReset t v s) :=
  h.live fun _ hu => ite hu.stackReset hu

theorem execIrqMaskWrite {w : Fin 128} {v : BitVec 32} : Stays (execIrqMaskWrite w v s) :=
  h.live fun _ hu => hu.writeMask

theorem execIrqPendingWrite {w : Fin 128} {v : BitVec 32} : Stays (execIrqPendingWrite w v s) :=
  h.live fun _ hu => hu.writePending

theorem execIrqPendingRead {w : Fin 128} : Stays (execIrqPendingRead w s) := h.live fun _ hu => hu.noteRead.emit

theorem execDeliveryTimeout {n : Source} : Stays (execDeliveryTimeout n s) := h.live fun _ hu => hu.deliveryTimeout

/-! ### The fault collector (Fault) -/

theorem setWindow {n v : Nat} : Canonical (s.setWindow n v) := h.of_eq

theorem goSevere {n unit : Nat} : Canonical (s.goSevere n unit) := h.set.set.count64

theorem classify {n unit : Nat} : Canonical (s.classify n unit) :=
  ite (ite h.count64.setWindow.goSevere h.count64.setWindow.set) h.count64.setWindow

theorem toClear {n : Nat} : Canonical (s.toClear n) := h.set.setWindow

theorem takeReport {r : Report} : Canonical (s.takeReport r) := by
  unfold State.takeReport
  split
  · dsimp only
    split
    · exact of_eq h.of_eq.count64 rfl
    · exact ite h.of_eq.count64.count64.classify.raise (of_eq h.of_eq.count64 rfl)
  · dsimp only
    split
    · exact h.of_eq
    · exact ite h.of_eq.count64.classify.raise h.of_eq

theorem publish : Canonical s.publish := by
  unfold State.publish
  split
  · exact h
  · exact raise (set (set (set (classify (foldl h.of_eq fun _ _ h1 => h1.count64)))))

theorem inject {n mode u addr : Nat} : Canonical (s.inject n mode u addr) := ite h.reportR h.of_eq

theorem markerArmed {l : Nat} : Canonical (s.markerArmed l).2 := by
  unfold State.markerArmed
  split
  · exact h
  · exact h.of_eq

theorem damage {d : Damage} : Canonical (s.damage d) := h.of_eq

theorem disarm {source addr : Nat} : Canonical (s.disarm source addr) := h.of_eq

theorem mend {source addr : Nat} : Canonical (s.mend source addr) := h.of_eq

theorem wordWrittenAs {ce ue u addr shown : Nat} : Canonical (s.wordWrittenAs ce ue u addr shown) := by
  unfold State.wordWrittenAs
  extract_lets hit t
  have ht : Canonical t := ite h h.mend
  split
  · exact ht
  · exact ht.of_eq

theorem wordWritten {ce ue u addr : Nat} : Canonical (s.wordWritten ce ue u addr) := h.wordWrittenAs

theorem reportM {src unit reporter addr access nbits : Nat} {injected : Bool} :
    Canonical (s.reportM src unit reporter addr access nbits injected) :=
  h.draw.reportR

theorem checkWord {ce ue u reporter addr shown access : Nat} :
    Canonical (s.checkWord ce ue u reporter addr shown access).2 := by
  unfold State.checkWord
  split
  · exact h
  · exact ite h.reportM.disarm.damage h.reportM

theorem readWordAs {ce ue u reporter addr shown access : Nat} :
    Canonical (s.readWordAs ce ue u reporter addr shown access).2 :=
  ite_snd h.checkWord.mend h.checkWord

theorem readWord {ce ue u reporter addr access : Nat} : Canonical (s.readWord ce ue u reporter addr access).2 :=
  h.readWordAs

theorem aerSeen {uncorrectable : Bool} {status : Nat} : Canonical (s.aerSeen uncorrectable status) := h.of_eq

theorem found {ce addr : Nat} {f : Ecc} : Canonical (s.found ce addr f) := by
  unfold State.found
  split
  · exact h
  · exact ite h h.damage
  · exact h.damage

theorem slateDown {k : Nat} : Canonical (s.slateDown k) := h.of_eq

theorem seen {x : FaultSeen} : Canonical (s.seen x) := by
  unfold State.seen
  split
  · exact h
  · exact ite h (h.found.readWord.ite_left fun h2 => of_eq h2 rfl)
  · exact ite h (h.wordWritten.found.readWord.ite_left fun h2 => h2.mend.slateDown)
  · exact h.aerSeen.report
  · exact h.report
  · exact h.report
  · exact h.report

theorem execFaultReport {x : FaultSeen} : Stays (execFaultReport s x) := by
  refine h.live fun u hu => ?_
  extract_lets t
  have ht : Canonical t := hu.seen
  split
  · exact ht
  · refine takeReport ?_
    exact ht.of_eq

theorem execRecordPublish : Stays (execRecordPublish s) := h.live fun _ hu => hu.publish

theorem execFaultWindowExpire {n : Source} : Stays (execFaultWindowExpire n s) := h.live fun _ hu => ite hu.toClear hu

theorem execQuietExpire {n : Source} : Stays (execQuietExpire n s) :=
  h.live fun _ hu => ite hu.toClear.count64.raise hu

end Canonical
end Sys2Proof.Machine
end

section
/-!
Values stay canonical (R43, R44): gates, time, the ledger and the buffer.
-/
-- One proof after another: a thread for each of so many small proofs needs more memory than the check has.
set_option Elab.async false

namespace Sys2Proof.Machine.Canonical
variable {s : State} (h : Canonical s)
include h

/-! ### Gates -/

theorem showGates {p : Nat} : Canonical (s.showGates p) := by
  unfold State.showGates
  dsimp only
  split
  · exact h.set.set.set.set
  · split
    · exact h.set.set.set.set
    · exact h.set.set

theorem gateCommit {p : Nat} : Canonical (s.gateCommit p) :=
  ite h.putGate.modPort.showGates (showGates (ite h.putGate.count64.raise h.putGate))

theorem gateResync {n : Nat} : Canonical (s.gateResync n) := by
  unfold State.gateResync
  refine foldl h fun _ _ h1 => ?_
  split
  · exact ite h1.count64.showGates h1
  · exact h1

theorem execGateListStart {p : Port} : Stays (execGateListStart p s) := by
  unfold Machine.execGateListStart
  refine h.live fun u hu => ?_
  split
  · exact hu
  · exact ite hu.putGate.count64.showGates hu

theorem execGateEntryStart {p : Port} : Stays (execGateEntryStart p s) := by
  unfold Machine.execGateEntryStart
  refine h.live fun u hu => ?_
  split
  · exact hu
  · refine ite hu ?_
    split
    · exact hu
    · exact ite hu.set.set hu.set.set.putGate

/-! ### Time -/

theorem ppsRise {n edge : Nat} : Canonical (s.ppsRise n edge) := h.of_eq.emit

theorem ppsFall {n : Nat} : Canonical (s.ppsFall n) := h.of_eq.emit

theorem ppsStep {n : Nat} : Canonical (s.ppsStep n) := by
  unfold State.ppsStep
  refine ite (ppsRise ?_) ?_
  · split
    · exact h
    · exact ite h.ppsFall h
  · split
    · exact h
    · exact ite h.ppsFall h

theorem stepBase {n : Nat} {o : ℤ} : Canonical (s.stepBase n o) := h.of_eq.gateResync.ppsStep

theorem tracks {n : Nat} : Canonical (s.tracks n) := h.putBase.set.count64

theorem askStep {n : Nat} {o : ℤ} {edge : Bool} : Canonical (s.askStep n o edge) := h.of_eq

theorem stepsDue : Canonical s.stepsDue := each h.of_eq fun _ _ h1 => stepBase (ite h1.tracks h1)

theorem offsetWord {o : ℤ} : Canonical (s.offsetWord o).2 := ite_snd h h.draw

theorem adjust {n : Nat} {o : ℤ} : Canonical (s.adjust n o).2 :=
  ite_snd h.tracks.askStep (ite_snd (ite_snd h.putBase.count64 h.offsetWord.setAll.set.count64.report) h.count64)

theorem putServo {n : Nat} {x : Servo} : Canonical (s.putServo n x) := h.of_eq

theorem servoTo {n st : Nat} : Canonical (s.servoTo n st) := ite h.set.report h.set

theorem rearm {n d : Nat} : Canonical (s.rearm n d).2 :=
  ite_snd (ite h (h.set.count64.ite_left fun h2 => h2.putServo.servoTo))
    (ite_snd (h.set.count64.ite_left fun h1 => h1.putServo.servoTo) h)

theorem servoWritten {n : Nat} : Canonical (s.servoWritten n) := ite (ite h.putServo.servoTo h.putServo) h.servoTo

theorem servoCount {n : Nat} {o : ℤ} : Canonical (s.servoCount n o) :=
  ite (ite h.putServo.servoTo h.putServo) (ite h.putServo.servoTo h.putServo.servoTo)

theorem servoMeasure {n : Nat} : Canonical (s.servoMeasure n) :=
  ite (servoCount (adjust (putServo (ite h.set.set h.set)))) (servoTo (adjust (putServo (ite h.set.set h.set))))

theorem refSelected : Canonical s.refSelected := ite (of_eq h.set rfl) (of_eq h.set rfl)

theorem ppsAlign : Canonical s.ppsAlign := each h fun _ _ h1 => ite h1.askStep h1

theorem execTimeRefLoss {err : BitVec 32} : Stays (execTimeRefLoss err s) := by
  refine h.live fun u hu => ?_
  extract_lets v _ w
  have hv : Canonical v := hu.set.count32
  have hw : Canonical w := hv.of_eq
  exact ite hw.set.report hw

theorem execTimeRefRecover {err : BitVec 32} : Stays (execTimeRefRecover err s) := h.live fun _ hu => of_eq hu.set rfl

theorem execTimeRefRampDone : Stays (execTimeRefRampDone s) := h.live fun _ hu => ite (ite hu.of_eq.set hu.of_eq) hu

theorem execSlewComplete {n : TimeBase} : Stays (execSlewComplete n s) := h.live fun _ hu => ite hu.putBase hu

theorem execPpsInEdge : Stays (execPpsInEdge s) := h.live fun _ hu => ite hu hu.count32.setAll.ppsAlign.raise

theorem execPpsInLoss : Stays (execPpsInLoss s) :=
  h.live fun _ hu => each (ite hu.report hu) fun _ _ h1 => ite h1.servoTo h1

theorem execPpsOutEdge {n : TimeBase} : Stays (execPpsOutEdge n s) := h.live fun _ hu => ite hu.ppsRise hu

theorem execPpsOutPulseEnd {n : TimeBase} : Stays (execPpsOutPulseEnd n s) := by
  unfold Machine.execPpsOutPulseEnd
  refine h.live fun u hu => ?_
  split
  · exact hu
  · exact ite hu.ppsFall hu

theorem execServoMeasure {n : TimeBase} : Stays (execServoMeasure n s) :=
  h.live fun _ hu => ite hu (ite hu.servoTo hu.servoMeasure)

/-! ### The ledger (Ledger) -/

theorem putStream {learn : Bool} {x : Stream} : Canonical (s.putStream learn x) := h.of_eq

theorem closeMsg {learn : Bool} : Canonical (s.closeMsg learn) := ite h (ite h.putStream.count64 h.putStream)

theorem exportMsg {c : Nat} {learn : Bool} {m : Msg} : Canonical (s.exportMsg c learn m).2 := h.of_eq

theorem pushRec {learn : Bool} {r : List Byte} : Canonical (s.pushRec learn r).2 :=
  ite_snd h.putStream (ite h.putStream.closeMsg h.putStream)

theorem ipfixSend {template : Bool} : Canonical (s.ipfixSend template) := ite h (ite h.of_eq.count64 h.of_eq)

theorem ipfixTake {r : List Byte} : Canonical (s.ipfixTake r) := ite h (ite h.count64 (ite h.of_eq.ipfixSend h.of_eq))

theorem ipfixNewTemplate : Canonical s.ipfixNewTemplate := of_eq h.set rfl

theorem putFlow {row : Nat} {f : FlowRec} : Canonical (s.putFlow row f) := h.set

theorem exportFlow {f : FlowRec} {reason : Nat} : Canonical (s.exportFlow f reason) :=
  ipfixTake (ite h.pushRec.count64 h.pushRec.count64.report)

theorem flowUpdate {p : Pkt} {code : Nat} : Canonical (s.flowUpdate p code) := by
  unfold State.flowUpdate
  split
  · dsimp only
    split
    · exact h.putFlow
    · split
      · exact h.putFlow.count64
      · exact h.exportFlow.count64.putFlow.count64
  · dsimp only
    split
    · exact h.putFlow
    · split
      · exact h.putFlow.count64
      · exact h.exportFlow.count64.putFlow.count64

theorem flowVisit {r : Nat} : Canonical (s.flowVisit r) :=
  ite h (ite h.exportFlow.set.count64 (ite h.exportFlow.count64.putFlow h))

theorem flowFlush : Canonical s.flowFlush := each h fun _ _ h1 => ite h1.exportFlow.set h1

theorem openRecord {src : Src} : Canonical (s.openRecord src) := by
  unfold State.openRecord
  split
  · exact h.count64.count32
  · exact h

theorem matrixCount {p : Pkt} {port sent : Nat} : Canonical (s.matrixCount p port sent) := ite h.count64 h.set

theorem outcome {p : Pkt} {q code : Nat} {replica : Bool} {sent : Nat} :
    Canonical (s.outcome p q code replica sent) :=
  h.count64.count64.ite_right fun h1 => h1.count64.count64.set.ite_left fun h2 => h2.matrixCount

theorem toPostcard {p : Pkt} {r : List Byte} : Canonical (s.toPostcard p r) := ite h.putTile h.putTile

theorem closeRecord {p : Pkt} {code : Nat} {last : Option Holder} : Canonical (s.closeRecord p code last) := by
  unfold State.closeRecord
  extract_lets len
  split
  · exact h
  · extract_lets s1 s2 flow s3
    have h1 : Canonical s1 := by
      unfold s1
      split
      · exact h.count64.count64.set
      · exact h.count64.count64
    have h3 : Canonical s3 := h1.count64.ite_left fun h2 => h2.flowUpdate
    exact ite h1 (ite h3.toPostcard h3)

theorem portSnapshot {p : Nat} : Canonical (s.portSnapshot p) := h.setAll

theorem matrixSwap : Canonical s.matrixSwap := h.of_eq.set.set

theorem matrixClear : Canonical s.matrixClear := h.of_eq

theorem zeroCounter {a : Nat} : Canonical (s.zeroCounter a) := by
  unfold State.zeroCounter
  split
  · exact h
  · exact h.setK
  · exact h.setK

theorem execMatrixSwapDone : Stays (execMatrixSwapDone s) := h.live fun _ hu => ite hu.cmdDone hu

theorem execMatrixClearDone : Stays (execMatrixClearDone s) := by
  refine h.live fun u hu => ite_left hu fun hu => ?_
  extract_lets i bank objs _ _ t
  have ht : Canonical t := hu.keepOnly rfl
  exact ht.cmdDone

theorem execFlowScan {set : FlowSet} : Stays (execFlowScan set s) :=
  h.live fun _ hu => each hu fun _ _ h1 => h1.flowVisit

theorem execExportFlushTimeout {learn : Bool} : Stays (execExportFlushTimeout learn s) :=
  h.live fun _ hu => ite hu.closeMsg hu.closeMsg.ipfixSend

theorem execIpfixTemplateTimer : Stays (execIpfixTemplateTimer s) := h.live fun _ hu => ite hu.ipfixSend hu

theorem execCounterScrub {addr : Fin 67108864} {flow : Bool} {f : Ecc} : Stays (execCounterScrub addr flow f s) :=
  h.live fun _ hu => ite hu.found.readWord
    (ite hu.found.readWord.mend.set.count64.count64 hu.found.readWord.mend.zeroCounter.set.count64)

/-! ### The shared buffer (Buffer) -/

theorem storeWritten {addr shown : Nat} : Canonical (s.storeWritten addr shown) := h.wordWrittenAs

theorem linkWritten {c : Option Nat} : Canonical (s.linkWritten c) := by
  unfold State.linkWritten
  split
  · exact h.storeWritten
  · exact h

theorem grantCell {x : Nat × State} (hx : s.grantCell = some x) : Canonical x.2 := by
  unfold State.grantCell at hx
  split at hx
  · cases hx
  · split at hx
    · cases hx
    · cases hx
      exact wordWritten h.of_eq

theorem grantCells {n : Nat} : Canonical (s.grantCells n).2 := by
  induction n generalizing s with
  | zero => exact h
  | succ n ih =>
    unfold State.grantCells
    split
    · exact h
    · rename_i hx
      exact ih (h.grantCell hx).linkWritten

theorem recarve : Canonical s.recarve := by
  unfold State.recarve
  extract_lets s1 d caps eff old s2 further s3
  have h2 : Canonical s2 := each h.set.set fun _ _ h1 => h1.set
  exact ite (report h2.of_eq) h2.of_eq

theorem quarantine {c : Nat} : Canonical (s.quarantine c) := h.of_eq.set.recarve

theorem returnCell {c : Nat} : Canonical (s.returnCell c) := ite h.of_eq (ite h.of_eq.quarantine h.of_eq)

theorem returnCells {cs : List Nat} : Canonical (s.returnCells cs) := by
  unfold State.returnCells
  refine each h fun _ _ h1 => ?_
  exact h1.returnCell

theorem countFate {p : Pkt} {code : Nat} : Canonical (s.countFate p code) := by
  unfold State.countFate
  split <;> simp only [ite h.count64 h, h.count64, h]

theorem arrivalAdd {p : Pkt} {n : Nat} : Canonical (s.arrivalAdd p n) := by
  unfold State.arrivalAdd
  split
  · exact h.set
  · exact h

theorem arrivalSub {p : Pkt} {n : Nat} : Canonical (s.arrivalSub p n) := by
  unfold State.arrivalSub
  split
  · exact h.set
  · exact h

theorem forget {p : Pkt} : Canonical (s.forget p) := h.of_eq.dropPkt

theorem parseEnd {t : Nat} {p : Pkt} {x : CoreX} : Canonical (s.parseEnd t p x) :=
  h.count64.count64.count64.count64.ite_right fun h1 => h1.set.count64

theorem discardArrival {p : Pkt} {code : Nat} : Canonical (s.discardArrival p code) := by
  unfold State.discardArrival
  refine forget (closeRecord (countFate (returnCells (arrivalSub ?_))))
  split
  · exact h.parseEnd
  · exact h

theorem sendPause {i cls quanta : Nat} : Canonical (s.sendPause i cls quanta) :=
  ite h (ite h.count64.count64.emit h.count64.count64.emit)

theorem pfcCheck {i cls : Nat} : Canonical (s.pfcCheck i cls) :=
  ite h (ite h.putPort.sendPause (ite h.putPort.sendPause h))

theorem lower {r : Ref} {n e : Nat} : Canonical (s.lower r n e) := h.set

theorem higher {r : Ref} {n e : Nat} : Canonical (s.higher r n e) := h.set

theorem headroom {p : Pkt} : Canonical (s.headroom p).2.2 := by
  unfold State.headroom
  split
  · exact h
  · split
    · dsimp only
      split
      · exact h.higher
      · exact h
    · dsimp only
      split
      · exact h.higher
      · exact h

theorem admitTo {p : Pkt} {d : Dest} : Canonical (s.admitTo p d).2.2.2.2 := by
  unfold State.admitTo
  extract_lets g c x occ mx _ _ r1 _ r2
  have h1 : Canonical r1.2.2.2 := by
    unfold r1
    repeat' split
    · exact h
    · exact h
    · exact h
    · exact h.higher.set
    · exact h
  have h2 : Canonical r2.2.2.2 := by
    unfold r2
    split
    · exact h1.headroom
    · exact h1
  split
  · exact h2
  · exact count64 (h2.higher.set.ite_left fun h3 => h3.higher)

theorem refuse {p : Pkt} {g code : Nat} : Canonical (s.refuse p g code) := by
  unfold State.refuse
  split <;> simp only [h.outcome.count64, h.outcome.count64.count64, h.outcome]

theorem recharge {p : Pkt} {c : Nat} : Canonical (s.recharge p c) :=
  pfcCheck (putPkt (ite_left (ite_right
    (each (each h fun _ _ h3 => ite h3.lower.lower h3.lower) fun _ _ h3 => h3.lower) fun h2 => lower h2) fun h1 =>
    lower h1))

theorem mapPkts {f : Pkt → Pkt} : Canonical (s.mapPkts f) := h.of_eq

theorem allocDesc {x : Nat × Nat × State} (hx : s.allocDesc = some x) : Canonical x.2.2 := by
  unfold State.allocDesc at hx
  extract_lets d _ b at hx
  clear_value d b
  split at hx
  · cases hx
  · cases hx
    exact lower (storeWritten h.of_eq)

theorem freeDesc {y : Nat} : Canonical (s.freeDesc y) := h.of_eq.higher

theorem takeExt : Canonical s.takeExt.2 := h.draw.lower.storeWritten

theorem takeEntry : Canonical s.takeEntry.2 := h.draw.storeWritten

theorem storeCheck {addr access : Nat} : Canonical (s.storeCheck addr access).2 := ite_snd h h.draw.readWordAs

theorem storeRow {addr v : Nat} : Canonical (s.storeRow addr v).2 := ite_snd h.storeCheck.draw h.storeCheck

theorem loseWord {y : StoreWord} : Canonical (s.loseWord y) := by
  unfold State.loseWord
  split
  · exact h.mapPkts
  · exact h.mapPkts
  · exact h

theorem useDesc {p : Pkt} : Canonical (s.useDesc p).2 := by
  unfold State.useDesc
  split
  · exact h
  · extract_lets look links r
    have hr : Canonical r.2 := foldl_snd (a := (false, s)) h fun _ _ ha => ha.readWordAs
    split
    · exact hr.mapPkts
    · exact hr

theorem groupRetired {g : Nat} : Canonical (s.groupRetired g) := h.set.set.raise

theorem retire : Canonical s.retire := by
  unfold State.retire
  refine ite h (each h.of_eq fun _ _ h2 => ?_)
  exact h2.groupRetired

theorem entryRead {fid tok : Nat} : Canonical (s.entryRead fid tok) := by
  unfold State.entryRead
  split
  · exact h.storeCheck
  · exact h

theorem extCleared {p : Pkt} {tok : Nat} : Canonical (s.extCleared p tok) := ite h.storeCheck.storeWritten h

theorem unqueue {q fid tok : Nat} : Canonical (s.unqueue q fid tok) := ite (higher (of_eq h.entryRead rfl)) h

theorem releaseTok {p : Pkt} {x : Holder} {code sent : Nat} : Canonical (s.releaseTok p x code sent) := by
  unfold State.releaseTok
  extract_lets s1 s2 s3 s4 s5 f q
  have h4 : Canonical s4 := h.unqueue.extCleared.outcome.lower.ite_left fun h3 => h3.lower
  have h5 : Canonical s5 := by
    unfold s5
    split <;> simp only [h4, h4.count64]
  exact ite (retire (ite h5.closeRecord.dropPkt h5.closeRecord.putPkt)) h5.putPkt

theorem releaseAt {fid tok code sent : Nat} : Canonical (s.releaseAt fid tok code sent) := by
  unfold State.releaseAt
  split
  · exact h
  · split
    · exact h
    · exact h.releaseTok

theorem releaseAll {fid code : Nat} : Canonical (s.releaseAll fid code) := by
  unfold State.releaseAll
  split
  · exact h
  · exact each h fun _ _ h1 => h1.releaseAt

theorem cellReturn {p : Pkt} : Canonical (s.cellReturn p) :=
  pfcCheck (freeDesc (dropPkt (ite_left
    (ite_left (ite_right (each h.returnCells fun _ _ h4 => h4.lower) fun h3 => lower h3) fun h2 => lower h2) fun h1 =>
    higher h1)))

theorem refusedRelease {src hw tok unit : Nat} : Canonical (s.refusedRelease src hw tok unit) := h.count64.reportR

theorem execCellReturnDone {y : Handle} : Stays (execCellReturnDone y s) := by
  unfold Machine.execCellReturnDone
  refine h.live fun u hu => ?_
  split
  · exact hu
  · exact ite hu.cellReturn hu

theorem execCellScrub {c : Cell} {f : Ecc} : Stays (execCellScrub c f s) := by
  refine h.live fun u hu => ?_
  extract_lets k t r
  have ht : Canonical t := hu.found
  split
  · exact ht
  · extract_lets v _ w
    have hv : Canonical v := ht.readWord.count64
    have hw : Canonical w := hv.of_eq
    exact ite hv (ite hw.mapPkts (ite hv.quarantine hv))

theorem storeShown {w : StoreWord} : Canonical (s.storeShown w).2 := by
  unfold State.storeShown
  split
  · exact h
  · split
    · exact h
    · exact h.draw
  · exact h.draw

theorem execDescriptorScrub {w : StoreWord} {f : Ecc} : Stays (execDescriptorScrub w f s) :=
  h.live fun _ hu => hu.found.storeShown.readWordAs.ite_left fun h1 => h1.loseWord

end Sys2Proof.Machine.Canonical
end

section
/-!
Values stay canonical (R43, R44): the rewriter, the scheduler, arriving frames and the parse stage.
-/
-- One proof after another: a thread for each of so many small proofs needs more memory than the check has.
set_option Elab.async false

namespace Sys2Proof.Machine.Canonical
variable {s : State} (h : Canonical s)
include h

/-! ### What leaves the egress MAC (Rewrite) -/

theorem ptpError {port word : Nat} : Canonical (s.ptpError port word) := h.count64.report

theorem timeOp {port : Nat} {p : Pkt} {dep : Nat} {b : List Byte} : Canonical (s.timeOp port p dep b).2.2 := by
  unfold State.timeOp
  dsimp only
  split
  · exact h
  · split
    · exact h.ptpError
    · split
      · exact h.count64
      · exact h.count64
      · exact h.count64
      · exact count64 (putPort (ite h.count64 h))
      · split
        · exact h.count64
        · exact h.putPort.count64

theorem transparent {p : Pkt} {port dcOut enc y : Nat} {b : List Byte} :
    Canonical (s.transparent p port dcOut enc y b).2 :=
  ite_snd h (ite_snd h.ptpError (ite_snd h (ite_snd h.ptpError h.count64)))

theorem replicaBody {p : Pkt} {x : Holder} {dcOut dep : Nat} : Canonical (s.replicaBody p x dcOut dep).2.2 := by
  unfold State.replicaBody
  extract_lets port b0 d s1 sh b ip tr s2 l b2 s3
  have h1 : Canonical s1 := ite_snd h.draw h
  have h2 : Canonical s2 := h1.ite_right fun h1 => h1.count64
  have h3 : Canonical s3 := h2.ite_right fun h2 => ite h2.count64 h2.putPkt.count64
  split
  · split
    · exact h3.transparent
    · exact h3
  · exact h3.timeOp

theorem mirrorBody {p : Pkt} {y : Holder} : Canonical (s.mirrorBody p y).2 := ite_snd h.draw h

theorem finalFrame {p : Pkt} {y : Holder} {dcOut dep : Nat} : Canonical (s.finalFrame p y dcOut dep).2.2 := by
  unfold State.finalFrame
  split
  · dsimp only
    exact h.mirrorBody
  · exact h.replicaBody

/-! ### Scheduling lengths, shapers and policers (Sched) -/

theorem tagAdd {g : Nat} {d : ℤ} : Canonical (s.tagAdd g d) := h.set

theorem tagArrival {p g l : Nat} : Canonical (s.tagArrival p g l) := ite h.set h

theorem tagPick {p g : Nat} {next : Option Nat} : Canonical (s.tagPick p g next) := by
  unfold State.tagPick
  refine each ?_ fun _ _ h1 => ite h1.set h1
  split
  · exact h.set.tagAdd
  · exact h.set

theorem settled {g : Nat} : Canonical (s.settled g) := h.mapPkts

theorem tagFragment {g : Nat} : Canonical (s.tagFragment g) := ite h.tagAdd h

theorem tagCorrect {g fid tok lp l : Nat} {queued : Bool} : Canonical (s.tagCorrect g fid tok lp l queued) :=
  ite h.tagAdd h

theorem refill {g : Nat} : Canonical (s.refill g) := ite h.putBucket.count64 h.putBucket

theorem tokensAdd {g : Nat} {bytes : ℤ} : Canonical (s.tokensAdd g bytes) := ite h h.putBucket

theorem shaperCommit {g oldRate oldBurst : Nat} : Canonical (s.shaperCommit g oldRate oldBurst) := h.putBucket

theorem police {x lk : Nat} : Canonical (s.police x lk).2 := ite_snd h h.set

theorem policePacket {x lk : Nat} : Canonical (s.policePacket x lk).2 := ite_snd h.police h.police.count64

theorem policeRest {k : Policed} {len : Nat} : Canonical (s.policeRest k len) := h.set

theorem correctHolder {p : Pkt} {y : Holder} : Canonical (s.correctHolder p y) := by
  unfold State.correctHolder
  split
  · exact h
  · exact ite_right (ite h h.tagCorrect) fun h1 => tokensAdd h1

theorem correctAll {fid : Nat} : Canonical (s.correctAll fid) := by
  unfold State.correctAll
  split
  · exact h
  · refine ite ?_ (ite (each ?_ fun _ _ h3 => h3.correctHolder) (recharge (each ?_ fun _ _ h3 => h3.correctHolder)))
    · split
      · exact h.policeRest
      · exact h
    · split
      · exact h.policeRest
      · exact h
    · split
      · exact h.policeRest
      · exact h

theorem execShaperTick : Stays (execShaperTick s) := by
  unfold Machine.execShaperTick
  refine h.live fun u hu => ?_
  refine each hu fun _ _ h1 => ?_
  exact h1.refill

theorem execPolicerRefresh {x : Policer} : Stays (execPolicerRefresh x s) := h.live fun _ hu => hu.police

/-! ### Arriving frames (Ingress) -/

theorem addPkt {p : Pkt} : Canonical (s.addPkt p) := h.of_eq

theorem failPacket {p : Pkt} {code : Nat} : Canonical (s.failPacket p code) :=
  ite h (ite h.discardArrival (ite h.putPkt.countFate.releaseAll
    (each h.putPkt.countFate.putPkt fun _ _ h4 => h4.releaseAt)))

theorem grantFor {p : Pkt} {n : Nat} : Canonical (s.grantFor p n).2.2 := by
  induction n generalizing s p with
  | zero => exact h
  | succ n ih =>
    unfold State.grantFor
    extract_lets limit
    split
    · exact h
    · split
      · exact h
      · rename_i hx
        have h1 := h.grantCell hx
        exact ih (putPkt (ite h1.linkWritten h1.linkWritten.arrivalAdd))

theorem arrive {fid : Nat} {bs : List Byte} : Canonical (s.arrive fid bs) := by
  unfold State.arrive
  split
  · exact h
  · have hr : ∀ p n, Canonical ((s.putPkt p).grantFor p n).2.2 := fun _ _ => h.putPkt.grantFor
    exact ite h.putPkt (ite (hr _ _).putPkt (hr _ _).putPkt.failPacket)

theorem bcastTake {q : Nat} : Canonical (s.bcastTake q).2 := ite_snd h h.putPort

theorem filter {q : Nat} {b : List Byte} : Canonical (s.filter q b).2.2 := by
  unfold State.filter
  split
  · exact h
  · dsimp only
    split
    · exact h.bcastTake
    · exact h

theorem refuseFrame {p : Pkt} {code : Nat} : Canonical (s.refuseFrame p code) := h.arrivalSub.returnCells.putPkt

theorem runFilter {fid : Nat} : Canonical (s.runFilter fid) := by
  unfold State.runFilter
  split
  · exact h
  · exact ite h (ite h.filter.putPkt h.filter.refuseFrame)

theorem showPause {q : Nat} : Canonical (s.showPause q) := h.set

theorem setPause {q k quanta : Nat} : Canonical (s.setPause q k quanta) := h.putPort.showPause

theorem macControl {q : Nat} {b : List Byte} : Canonical (s.macControl q b) :=
  ite h (ite h.count64.setPause (ite (each h fun _ _ h4 => ite h4.count64 h4.count64.setPause) h))

theorem reassemblyError {q : Nat} : Canonical (s.reassemblyError q) := by
  unfold State.reassemblyError
  dsimp only
  split
  · exact h.putPort.failPacket
  · exact h.putPort

theorem openFrame {q : Nat} {pre : Bool} {bs : List Byte} : Canonical (s.openFrame q pre bs) :=
  h.openRecord.addPkt.putPort.count64.count64.arrive.runFilter

theorem moreBytes {q : Nat} {fid : Option Nat} {bs : List Byte} : Canonical (s.moreBytes q fid bs) := by
  unfold State.moreBytes
  split
  · exact h.count64
  · exact h.count64.arrive.runFilter

theorem endFrame {fid : Nat} {pre rxErr : Bool} : Canonical (s.endFrame fid pre rxErr) := by
  unfold State.endFrame
  split
  · exact h
  · dsimp only
    split
    · exact h.linkWritten.putPkt.runFilter
    · refine ite (correctAll (h.linkWritten.putPkt.runFilter.ite_left fun h2 => h2.macControl)) ?_
      split
      · exact failPacket (correctAll (h.linkWritten.putPkt.runFilter.ite_left fun h2 => h2.macControl))
      · exact correctAll (h.linkWritten.putPkt.runFilter.ite_left fun h2 => h2.macControl)

/-! ### The parse stage (Ochre) -/

theorem romCycles {p : Pkt} {x : CoreX} : Canonical (s.romCycles p x).2 := by
  unfold State.romCycles
  dsimp only
  split
  · exact h
  · split
    · exact h
    · exact h.of_eq

theorem parseDiscard {t c : Nat} {p : Pkt} {x : CoreX} {code : Nat} : Canonical (s.parseDiscard t c p x code) :=
  h.putCore.discardArrival

theorem handOff {t c : Nat} {p : Pkt} {x : CoreX} : Canonical (s.handOff t c p x) :=
  ite h.putPkt.putCore h.parseEnd.count64.putTile.freeCore.putPkt

theorem runRom {t c : Nat} {p : Pkt} {x : CoreX} {mark : Nat} : Canonical (s.runRom t c p x mark) :=
  h.romCycles.handOff

theorem exception {t c : Nat} {p : Pkt} {x : CoreX} {kind : Nat} : Canonical (s.exception t c p x kind) :=
  h.count64.count64.count64.setAll.report.parseDiscard

theorem walk {t c : Nat} {p : Pkt} {x : CoreX} : Canonical (s.walk t c p x) := by
  unfold State.walk
  split
  · exact h.putPkt.putCore
  · exact ite (runRom (ite h.count64 h)) (putCore (putPkt (ite h.count64 h)))

theorem execDispatchPoint {p : Port} {preemptable : Bool} : Stays (execDispatchPoint p preemptable s) := by
  unfold Machine.execDispatchPoint
  refine h.live fun u hu => ?_
  split
  · exact hu
  · exact ite hu.count64.count64.discardArrival hu.putTile.putPkt

theorem execCoreDispatch {t : Tile} : Stays (execCoreDispatch t s) := by
  unfold Machine.execCoreDispatch
  refine h.live fun u hu => ?_
  dsimp only
  split
  · split
    · exact hu
    · exact ite (ite hu.putTile.failPacket hu.putTile.refuseFrame) hu.putTile.count64.walk
  · exact hu

theorem execArrivalStallEnd {t : Tile} {c : Core} {bytes : List Byte} {cycles : BitVec 16} :
    Stays (execArrivalStallEnd t c bytes cycles s) := by
  unfold Machine.execArrivalStallEnd
  refine h.live fun u hu => ?_
  split
  · exact hu
  · refine ite hu ?_
    dsimp only
    split
    · refine ite (walk ?_) ?_
      · split
        · exact ite hu.putCore hu.putCore.moreBytes
        · exact hu.putCore
      · split
        · exact ite hu.putCore hu.putCore.moreBytes
        · exact hu.putCore
    · split
      · exact ite hu.putCore hu.putCore.moreBytes
      · exact hu.putCore

theorem carry {t c : Nat} {p : Pkt} {x : CoreX} {r : Issue} (hr : r.Keeps) : Canonical (s.carry t c p x r) := by
  unfold State.carry
  split
  · exact h.putCore
  · exact h
  · exact h.exception
  · exact ite h.putCore (hr _ h.putPkt.putCore)
  · refine ite h.putCore ?_
    split
    · exact h.handOff
    · exact h.count64.count64.parseDiscard

theorem issue {t : Tile} {c : Core} {i : Instr} {f : Pkt → CoreX → Issue} (hf : ∀ p x, (f p x).Keeps) :
    Canonical (s.issue t c i f) := by
  unfold State.issue
  split
  · exact h
  · split
    · exact h
    · refine ite h (ite h.exception ?_)
      extract_lets r
      have hr : Canonical r.2 := h.readWord
      refine ite hr.parseDiscard ?_
      split
      · exact hr.exception
      · exact ite (hr.carry (hf _ _)) h

omit h in
theorem keeps_wr {p : Pkt} {x : CoreX} {d : WReg} {v cost : Nat} : (wr p x d v cost).Keeps := fun _ hu => hu

omit h in
theorem keeps_ite {c : Prop} [Decidable c] {a b : Issue} (ha : a.Keeps) (hb : b.Keeps) :
    (if c then a else b).Keeps := by
  split
  · exact ha
  · exact hb

omit h in
theorem keeps_loadW {p : Pkt} {x : CoreX} {d : WReg} {addr : WinAddr} {n : Nat} :
    (loadW p x d addr n).Keeps := by
  refine keeps_ite trivial ?_
  split
  · trivial
  · exact keeps_wr

theorem execNop {t : Tile} {c : Core} : Stays (execNop t c s) :=
  h.live fun _ hu => hu.issue fun _ _ => fun _ hv => hv

theorem execAdd {t : Tile} {c : Core} {d a b : WReg} : Stays (execAdd t c d a b s) :=
  h.live fun _ hu => hu.issue fun _ _ => keeps_wr

theorem execSub {t : Tile} {c : Core} {d a b : WReg} : Stays (execSub t c d a b s) :=
  h.live fun _ hu => hu.issue fun _ _ => keeps_wr

theorem execAnd {t : Tile} {c : Core} {d a b : WReg} : Stays (execAnd t c d a b s) :=
  h.live fun _ hu => hu.issue fun _ _ => keeps_wr

theorem execOr {t : Tile} {c : Core} {d a b : WReg} : Stays (execOr t c d a b s) :=
  h.live fun _ hu => hu.issue fun _ _ => keeps_wr

theorem execXor {t : Tile} {c : Core} {d a b : WReg} : Stays (execXor t c d a b s) :=
  h.live fun _ hu => hu.issue fun _ _ => keeps_wr

theorem execShl {t : Tile} {c : Core} {d a b : WReg} : Stays (execShl t c d a b s) :=
  h.live fun _ hu => hu.issue fun _ _ => keeps_wr

theorem execShr {t : Tile} {c : Core} {d a b : WReg} : Stays (execShr t c d a b s) :=
  h.live fun _ hu => hu.issue fun _ _ => keeps_wr

theorem execMovi {t : Tile} {c : Core} {d : WReg} {imm : BitVec 16} : Stays (execMovi t c d imm s) :=
  h.live fun _ hu => hu.issue fun _ _ => keeps_wr

theorem execMovhi {t : Tile} {c : Core} {d : WReg} {imm : BitVec 16} : Stays (execMovhi t c d imm s) :=
  h.live fun _ hu => hu.issue fun _ _ => keeps_wr

theorem execAddi {t : Tile} {c : Core} {d a : WReg} {imm : BitVec 16} : Stays (execAddi t c d a imm s) :=
  h.live fun _ hu => hu.issue fun _ _ => keeps_wr

theorem execAndi {t : Tile} {c : Core} {d a : WReg} {imm : BitVec 16} : Stays (execAndi t c d a imm s) :=
  h.live fun _ hu => hu.issue fun _ _ => keeps_wr

theorem execOri {t : Tile} {c : Core} {d a : WReg} {imm : BitVec 16} : Stays (execOri t c d a imm s) :=
  h.live fun _ hu => hu.issue fun _ _ => keeps_wr

theorem execXori {t : Tile} {c : Core} {d a : WReg} {imm : BitVec 16} : Stays (execXori t c d a imm s) :=
  h.live fun _ hu => hu.issue fun _ _ => keeps_wr

theorem execShli {t : Tile} {c : Core} {d a : WReg} {amount : BitVec 5} : Stays (execShli t c d a amount s) :=
  h.live fun _ hu => hu.issue fun _ _ => keeps_wr

theorem execShri {t : Tile} {c : Core} {d a : WReg} {amount : BitVec 5} : Stays (execShri t c d a amount s) :=
  h.live fun _ hu => hu.issue fun _ _ => keeps_wr

theorem execExt {t : Tile} {c : Core} {d a : WReg} {pos lenM1 : BitVec 5} : Stays (execExt t c d a pos lenM1 s) :=
  h.live fun _ hu => hu.issue fun _ _ => keeps_wr

theorem execCmp {t : Tile} {c : Core} {a b : WReg} : Stays (execCmp t c a b s) :=
  h.live fun _ hu => hu.issue fun _ _ => fun _ hv => hv

theorem execCmpi {t : Tile} {c : Core} {a : WReg} {imm : BitVec 16} : Stays (execCmpi t c a imm s) :=
  h.live fun _ hu => hu.issue fun _ _ => fun _ hv => hv

theorem execLdb {t : Tile} {c : Core} {d : WReg} {addr : WinAddr} : Stays (execLdb t c d addr s) :=
  h.live fun _ hu => hu.issue fun _ _ => keeps_loadW

theorem execLdh {t : Tile} {c : Core} {d : WReg} {addr : WinAddr} : Stays (execLdh t c d addr s) :=
  h.live fun _ hu => hu.issue fun _ _ => keeps_loadW

theorem execLdw {t : Tile} {c : Core} {d : WReg} {addr : WinAddr} : Stays (execLdw t c d addr s) :=
  h.live fun _ hu => hu.issue fun _ _ => keeps_loadW

theorem execLdc {t : Tile} {c : Core} {d : WReg} {size : Fin 3} {off : BitVec 6} : Stays (execLdc t c d size off s) :=
  h.live fun _ hu => hu.issue fun _ _ => keeps_ite trivial keeps_wr

theorem execStc {t : Tile} {c : Core} {r : WReg} {size : Fin 3} {off : BitVec 6} : Stays (execStc t c r size off s) :=
  h.live fun _ hu => hu.issue fun _ _ => keeps_ite trivial fun _ hv => hv

theorem execBcc {t : Tile} {c : Core} {cond : CondCode} {target : BitVec 14} : Stays (execBcc t c cond target s) :=
  h.live fun _ hu => hu.issue fun _ _ => keeps_ite (fun _ hv => hv) fun _ hv => hv

theorem execCall {t : Tile} {c : Core} {target : BitVec 14} : Stays (execCall t c target s) :=
  h.live fun _ hu => hu.issue fun _ _ => keeps_ite trivial fun _ hv => hv

theorem execRet {t : Tile} {c : Core} : Stays (execRet t c s) := by
  refine h.live fun _ hu => hu.issue fun _ x => ?_
  split
  · trivial
  · exact fun _ hv => hv

theorem execJr {t : Tile} {c : Core} {a : WReg} : Stays (execJr t c a s) :=
  h.live fun _ hu => hu.issue fun _ _ => fun _ hv => hv

theorem execHsy4 {t : Tile} {c : Core} {d a : WReg} : Stays (execHsy4 t c d a s) :=
  h.live fun _ hu => hu.issue fun _ _ => keeps_ite trivial keeps_wr

theorem execHsy6 {t : Tile} {c : Core} {d a : WReg} : Stays (execHsy6 t c d a s) :=
  h.live fun _ hu => hu.issue fun _ _ => keeps_ite trivial keeps_wr

theorem execHash {t : Tile} {c : Core} {d a nM1 : WReg} : Stays (execHash t c d a nM1 s) :=
  h.live fun _ hu => hu.issue fun _ _ => keeps_ite trivial keeps_wr

theorem execAmb {t : Tile} {c : Core} {start stop : WReg} {mask : BitVec 16} :
    Stays (execAmb t c start stop mask s) :=
  h.live fun _ hu => hu.issue fun _ _ => keeps_ite trivial fun _ hv => hv.count64

theorem execAmw {t : Tile} {c : Core} {d : WReg} : Stays (execAmw t c d s) := by
  refine h.live fun _ hu => hu.issue fun _ x => ?_
  split
  · trivial
  · exact keeps_ite trivial (keeps_ite trivial fun _ hv => hv)

theorem amberScan {t : Nat} {p : Pkt} {n : Scan} : Canonical (s.amberScan t p n).2.2 := by
  unfold State.amberScan
  extract_lets image stop rows r flags
  have hr : Canonical r.2.2 := by
    refine List.foldlRecOn (motive := fun a : Bool × Option (Pattern × Nat) × State => Canonical a.2.2) rows _ h
      fun a ha x _ => ?_
    dsimp only
    split
    · exact ha.readWord
    · split <;> exact ha.readWord
  split <;> exact hr

theorem execAmberScanDone {t : Tile} {c : Core} {queueStall : BitVec 16} :
    Stays (execAmberScanDone t c queueStall s) := by
  unfold Machine.execAmberScanDone
  refine h.live fun u hu => ?_
  split
  · exact hu
  · split
    · refine ite hu ?_
      dsimp only
      split
      · refine count64 (putCore ?_)
        split
        · exact hu
        · exact hu.amberScan
      · refine putCore ?_
        split
        · exact hu
        · exact hu.amberScan
    · exact hu

theorem execMfs {t : Tile} {c : Core} {d : WReg} {k : Fin 5} : Stays (execMfs t c d k s) := by
  refine h.live fun _ hu => hu.issue fun _ x => ?_
  split
  · exact keeps_wr
  · exact keeps_ite keeps_wr trivial
  · exact keeps_wr
  · exact keeps_wr
  · exact keeps_wr

theorem execDrop {t : Tile} {c : Core} {code : BitVec 3} : Stays (execDrop t c code s) :=
  h.live fun _ hu => hu.issue fun _ _ => keeps_ite trivial trivial

theorem execEnd {t : Tile} {c : Core} : Stays (execEnd t c s) :=
  h.live fun _ hu => hu.issue fun _ _ => keeps_ite trivial trivial

theorem execBudgetOverrun {t : Tile} {c : Core} : Stays (execBudgetOverrun t c s) := by
  unfold Machine.execBudgetOverrun
  refine h.live fun u hu => ?_
  split
  · exact hu
  · split
    · exact hu
    · exact ite hu (ite hu.count64.count64.parseDiscard hu.count64.count64.runRom)

theorem execReorderHandoff {t : Tile} {c : Core} {waited : BitVec 16} : Stays (execReorderHandoff t c waited s) := by
  unfold Machine.execReorderHandoff
  refine h.live fun u hu => ?_
  split
  · exact hu
  · split
    · exact hu
    · exact ite hu hu.count64.handOff

theorem execPmemScrub {t : Tile} {row : BitVec 14} {f : Ecc} : Stays (execPmemScrub t row f s) :=
  h.live fun _ hu => hu.found.readWord

theorem execAmberScrub {t : Tile} {image : Fin 2} {row : BitVec 12} {f : Ecc} :
    Stays (execAmberScrub t image row f s) :=
  h.live fun _ hu => hu.found.readWord

end Sys2Proof.Machine.Canonical
end

section
/-!
Values stay canonical (R43, R44): the table store, its engines, the match stages and the enqueue interface.
-/
-- One proof after another: a thread for each of so many small proofs needs more memory than the check has.
set_option Elab.async false

namespace Sys2Proof.Machine.Canonical
variable {s : State} (h : Canonical s)
include h

/-! ### The table store (Store) -/

theorem putUnit {u v : Nat} : Canonical (s.putUnit u v) := h.of_eq.wordWrittenAs

theorem readUnit {n u access : Nat} : Canonical (s.readUnit n u access).2 := ite_snd h.readWordAs.count64 h.readWordAs

theorem readAll {n : Nat} {us : List Nat} : Canonical (s.readAll n us) := each h fun _ _ h1 => h1.readUnit

theorem countHit {n : Nat} {y : Hit} : Canonical (s.countHit n y) := by
  unfold State.countHit
  split
  · exact h.count64.count64
  · exact h.count64.count64
  · exact h.count64

theorem exactLookup {n : Nat} {d : Decl} {key : Nat} : Canonical (s.exactLookup n d key).2 :=
  countHit (List.foldlRecOn (motive := fun a : Option Nat × Bool × State => Canonical a.2.2) (d.candidates key) _ h
    fun _ ha _ _ => ha.readUnit)

theorem rowLookup {n : Nat} {d : Decl} {row : Nat} : Canonical (s.rowLookup n d row).2 :=
  ite_snd h.countHit h.readUnit.countHit

theorem walkLevels {n : Nat} {d : Decl} {addr k a fuel : Nat} : Canonical (s.walkLevels n d addr k a fuel).2 := by
  induction fuel generalizing s k a with
  | zero => exact h
  | succ fuel ih => exact ite_snd h.readUnit (ite_snd h.readUnit (ite_snd (ih h.readUnit) h.readUnit))

theorem lpmLookup {n : Nat} {d : Decl} {a : Nat} : Canonical (s.lpmLookup n d a).2 := h.walkLevels.countHit

theorem resolve {p : Pkt} {r : Nat} : Canonical (s.resolve p r).2 := by
  unfold State.resolve
  refine ite_snd h ?_
  split
  · exact h
  · dsimp only
    split <;> exact h.rowLookup

theorem overflowDrop {n key : Nat} : Canonical (s.overflowDrop n key) := by
  unfold State.overflowDrop
  split
  · exact h.set
  · exact h

theorem tableWrite {n off : Nat} {data : List Byte} : Canonical (s.tableWrite n off data) :=
  each h fun _ _ h1 => h1.putUnit

/-! ### The insert engines (Engine) -/

theorem learnEvent {time key type flags port member prev table tile first : Nat} :
    Canonical (s.learnEvent time key type flags port member prev table tile first) := by
  unfold State.learnEvent
  extract_lets seq s1 flags r s2
  have hr : Canonical r.2 := h.set.pushRec
  exact ite hr.of_eq (report (count64 hr.of_eq))

theorem entryEvent {n type v : Nat} {deleted : Bool} : Canonical (s.entryEvent n type v deleted) := h.learnEvent

theorem putEng {x : Nat} {e : EngX} : Canonical (s.putEng x e) := h.of_eq

theorem stashPut {n : Nat} {d : Decl} {key v : Nat} : Canonical (s.stashPut n d key v) := h.putEng

theorem putEntry {n : Nat} {d : Decl} {key u v : Nat} : Canonical (s.putEntry n d key u v) := h.putUnit.stashPut

theorem runMoves {x : Nat} {ms : List (Nat × Nat)} : Canonical (s.runMoves x ms) := by
  induction ms generalizing s with
  | nil => exact h
  | cons m ms ih =>
    unfold State.runMoves
    dsimp only
    split
    · exact h
    · exact ite h (ih h.putEng.putUnit.putUnit)

theorem engStart {x : Nat} : Canonical (s.engStart x) := by
  unfold State.engStart
  dsimp only
  split
  · exact h
  · exact ite h (runMoves (putEng (readAll (ite h.readAll h))))

theorem engSubmit {n : Nat} {record : List Byte} {chan : Option Nat} : Canonical (s.engSubmit n record chan) :=
  h.putEng.engStart

theorem insertFails {n key : Nat} : Canonical (s.insertFails n key) := h.count64.report

theorem overflowAdd {n key : Nat} : Canonical (s.overflowAdd n key) := by
  unfold State.overflowAdd
  refine ite h ?_
  split
  · exact h.set
  · exact h.report

theorem insertNew {n : Nat} {d : Decl} {key entry made : Nat} : Canonical (s.insertNew n d key entry made).2 := by
  unfold State.insertNew
  split
  · exact h.putUnit.overflowDrop.count64.count64.count64
  · refine ite_snd h.insertFails.overflowAdd ?_
    split
    · exact h.insertFails
    · exact count64 (count64 (count64 (overflowDrop (entryEvent (count64 (stashPut (putUnit (ite h.putEng h))))))))

theorem stashOp {n : Nat} {d : Decl} {op fl key v entry : Nat} : Canonical (s.stashOp n d op fl key v entry).2 := by
  unfold State.stashOp
  extract_lets a b res t
  have ht : Canonical t := h.draw.draw
  split
  · exact ht
  · exact ht.stashPut.count64.overflowDrop
  · exact ite_snd ht ht.stashPut.count64.overflowDrop
  · exact ht.stashPut.count64

theorem exactOp {n : Nat} {d : Decl} {r : List Byte} {made : Nat} : Canonical (s.exactOp n d r made).2 := by
  unfold State.exactOp
  dsimp only
  split
  · exact h
  · exact h
  · exact h.putEntry.count64.overflowDrop
  · exact ite_snd h h.putEntry.count64.overflowDrop
  · exact h.putEntry.count64
  · exact h.stashOp
  · exact h.overflowDrop
  · exact h.insertNew
  · exact h

theorem putLevel {d : Decl} {k a i v : Nat} : Canonical (s.putLevel d k a i v) := h.putUnit

theorem rewriteTrie {d : Decl} {old new : List LRec} {addr len : Nat} :
    Canonical (s.rewriteTrie d old new addr len) :=
  each (each h fun _ _ h1 => each h1 fun _ _ h2 => h2.putUnit) fun _ _ h1 => each h1 fun _ _ h2 => ite h2 h2.putLevel

theorem putRec {d : Decl} {slot : Nat} {b : List Byte} : Canonical (s.putRec d slot b) :=
  each h fun _ _ h1 => h1.putUnit

theorem putPrefix {d : Decl} {x : LRec} {image : List Byte} {recs : List LRec} :
    Canonical (s.putPrefix d x image recs) := by
  have h1 : Canonical (s.putRec d x.slot image) := h.putRec
  exact rewriteTrie h1.of_eq

theorem lpmOp {n : Nat} {d : Decl} {r : List Byte} : Canonical (s.lpmOp n d r).2 := by
  unfold State.lpmOp
  refine ite_snd h ?_
  split
  · exact h.readAll
  · exact h.putPrefix.count64
  · exact ite_snd h h.putPrefix.count64
  · exact ite_snd h.putPrefix.count64 h.count64
  · exact h

theorem entryOp {n : Nat} {r : List Byte} {made : Nat} : Canonical (s.entryOp n r made).2 :=
  ite_snd h.exactOp (ite_snd h.lpmOp h)

theorem engFinish {x : Nat} : Canonical (s.engFinish x).2 := by
  unfold State.engFinish
  split
  · exact h
  · exact ite_snd h (h.entryOp.putEng.ite_left fun h1 => h1.engStart)

theorem engPost {j : EngJob} {r : List Byte} : Canonical (s.engPost j r) := by
  unfold State.engPost
  split
  · exact h.cmdDone
  · exact ite h.modChan h

theorem refreshEntry {n : Nat} {d : Decl} {v : Nat} : Canonical (s.refreshEntry n d v) :=
  ite h (ite h.count64 h.putEng)

theorem ageVisit {n : Nat} {d : Decl} {u : Nat} : Canonical (s.ageVisit n d u) :=
  ite h.readUnit (ite (ite h.readUnit h.readUnit.putUnit.count64.entryEvent) (ite h.readUnit h.readUnit.putEng))

theorem execEntryOpComplete {n : Table} : Stays (execEntryOpComplete n s) := by
  refine h.live fun u hu => ?_
  extract_lets x
  split
  · refine ite hu ?_
    have hf : Canonical ((u.engStart x).engFinish x).2 := hu.engStart.engFinish
    split
    · next he =>
      rw [he] at hf
      exact hf.engPost
    · next he =>
      rw [he] at hf
      exact hf
  · exact hu

theorem execStashWaitEnd {x : Partition} {clocks : BitVec 16} : Stays (execStashWaitEnd x clocks s) := by
  unfold Machine.execStashWaitEnd
  refine h.live fun u hu => ?_
  dsimp only
  split
  · exact ite hu hu.count64.runMoves
  · exact hu

theorem execStashRelease {x : Partition} : Stays (execStashRelease x s) := h.live fun _ hu => hu.putEng

theorem execAgeTick {n : Table} : Stays (execAgeTick n s) := h.live fun _ hu => ite hu hu.set

theorem execAgeScan {n : Table} : Stays (execAgeScan n s) :=
  h.live fun _ hu => ite hu (each hu.of_eq fun _ _ h2 => h2.ageVisit)

theorem execAgeDelete {n : Table} : Stays (execAgeDelete n s) := by
  unfold Machine.execAgeDelete
  refine h.live fun u hu => ?_
  dsimp only
  split
  · exact hu
  · refine ite hu (engStart ?_)
    split
    · exact hu.putEng.readAll
    · exact hu.putEng.readAll.ite_right fun h2 => h2.putEntry.count64.entryEvent

theorem execAgeRefresh {x : Partition} : Stays (execAgeRefresh x s) := by
  unfold Machine.execAgeRefresh
  refine h.live fun u hu => ?_
  split
  · dsimp only
    split <;> exact hu
  · dsimp only
    split
    · exact hu
    · split
      · exact hu.putEng.readAll
      · exact hu.putEng.readAll.putEntry

theorem execTableStoreScrub {x : Partition} {bucket : Fin 131072} {slot : Fin 4} {f : Ecc} :
    Stays (execTableStoreScrub x bucket slot f s) := by
  unfold Machine.execTableStoreScrub
  refine h.live fun u hu => ?_
  dsimp only
  split
  · exact hu.found.readWordAs.count64
  · exact hu.found.readWordAs

theorem execLevelEntryRebuild {bucket : Fin 2097152} {slot : Fin 4} :
    Stays (execLevelEntryRebuild bucket slot s) := by
  unfold Machine.execLevelEntryRebuild
  refine h.live fun u hu => ?_
  dsimp only
  split
  · exact hu
  · split
    · exact hu
    · exact hu.putUnit

/-! ### The match stages (Match) -/

theorem stepLookup {p : Pkt} {x : PlanStep} : Canonical (s.stepLookup p x).2.2 := by
  unfold State.stepLookup
  extract_lets d key a b c
  have ha : Canonical a.2 := h.exactLookup
  have hb : Canonical b.2 := h.lpmLookup
  have hc : Canonical c.2 := h.rowLookup
  split
  · split
    · split
      · exact ha
      · exact resolve (ha.ite_left fun ha => ha.refreshEntry)
    · exact ha
  · split
    · split
      · exact hb.resolve
      · exact hb
    · split <;> exact hc

theorem learnHit {p : Pkt} {x : PlanStep} {v : Nat} {g : Gather} : Canonical (s.learnHit p x v g).2 :=
  ite h.refreshEntry h

theorem runStep {p : Pkt} {g : Gather} {x : PlanStep} : Canonical (s.runStep p g x).2 := by
  unfold State.runStep
  refine ite_snd h (ite_snd ?_ ?_)
  · split
    · exact h.stepLookup.learnHit
    · exact h.stepLookup
    · exact h.stepLookup
  · split
    · exact h.stepLookup
    · exact ite_snd (ite h.stepLookup.count64 h.stepLookup) (ite h.stepLookup.count64 h.stepLookup)
    · exact h.stepLookup

theorem runSteps {p : Pkt} {g : Gather} {xs : List PlanStep} : Canonical (s.runSteps p g xs).2 := by
  induction xs generalizing s g with
  | nil => exact h
  | cons x xs ih => exact ih h.runStep

theorem mamCheck {t : Nat} : Canonical (s.mamCheck t) := each h fun _ _ h1 => h1.reportR.disarm.damage

theorem mamStep {p : Pkt} : Canonical (s.mamStep p).2.2 := by
  unfold State.mamStep
  dsimp only
  split
  · exact mamCheck (ite h.count64 h)
  · exact resolve (count64 (mamCheck (ite h.count64 h)))

theorem fullMatch {p : Pkt} : Canonical (s.fullMatch p).2.2.2 := h.runSteps.mamStep

theorem defaultMatch {p : Pkt} : Canonical (s.defaultMatch p).2.2.2 := by
  unfold State.defaultMatch
  split
  · dsimp only
    split <;> exact h.count64
  · dsimp only
    split
    · exact h.count64.runSteps
    · split <;> exact h.count64.runSteps

theorem offer {p : Pkt} {code : Nat} {a : ActSet} {g : Gather} : Canonical (s.offer p code a g) := by
  unfold State.offer
  split
  · exact h
  · exact ite h (ite h.count64 (h.modTile.count64.ite_right fun h3 => of_eq h3 rfl))

theorem matchPolice {p : Pkt} {a : ActSet} : Canonical (s.matchPolice p a).2.2 := by
  unfold State.matchPolice
  split
  · exact h
  · exact h.policePacket

theorem matchPacket {p : Pkt} : Canonical (s.matchPacket p) := by
  unfold State.matchPacket
  extract_lets t y s1 s2 _ r code a s3 pol s4 _ q code2
  have h1 : Canonical s1 := h.putTile.count64
  split
  · exact putPkt (h1.ite_left fun h1 => h1.count64)
  · have hr : Canonical r.2.2.2 := by
      unfold r
      split
      · exact h1.defaultMatch
      · exact h1.fullMatch
    have h3 : Canonical s3 := hr.ite_left fun hr => hr.count64
    have hp : Canonical pol.2.2 := by
      unfold pol
      split
      · exact h3.matchPolice
      · exact h3
    exact ite hp.offer.putPkt hp.offer.putPkt.discardArrival

theorem putCache {l : List LearnE} : Canonical (s.putCache l) := h.of_eq

theorem cacheRoom : Canonical s.cacheRoom := by
  unfold State.cacheRoom
  split
  · exact h
  · exact ite h (putCache (ite h.count64 h))

theorem sightingEvent {y : Sighting} {type : Nat} {contested : Bool} {prev first : Nat} :
    Canonical (s.sightingEvent y type contested prev first) :=
  h.learnEvent

theorem sight {y : Sighting} : Canonical (s.sight y) := by
  unfold State.sight
  extract_lets s1 fresh
  have h1 : Canonical s1 := h.count64
  have hf : ∀ u, Canonical u → Canonical (fresh u) := fun u hu => by
    unfold fresh
    dsimp only
    split
    · exact hu.sightingEvent.count64.putCache
    · exact hu.sightingEvent.count64.putCache
  split
  · exact hf _ h1.cacheRoom
  · exact ite (hf _ h1) (ite h1.putCache.count64 (ite h1.sightingEvent.count64.putCache.count64 h1.count64))

theorem execLearnSighting : Stays (execLearnSighting s) := by
  unfold Machine.execLearnSighting
  refine h.live fun u hu => ?_
  split
  · exact hu
  · exact hu.of_eq.sight

theorem execMamScrub {t : Tile} {row : BitVec 12} {f : Ecc} : Stays (execMamScrub t row f s) :=
  h.live fun _ hu => ite hu.found hu

theorem execMamEntryRepair {t : Tile} {row : BitVec 12} : Stays (execMamEntryRepair t row s) := by
  unfold Machine.execMamEntryRepair
  refine h.live fun u hu => ?_
  split
  · exact hu
  · exact mend (ite hu hu.reportR)

/-! ### Enqueue -/

theorem groupRow {g : Nat} : Canonical (s.groupRow g).2 := h.storeRow

theorem memberRow {m : Nat} : Canonical (s.memberRow m).2 := h.storeRow

theorem memberRows {ms : List Nat} : Canonical (s.memberRows ms).2 := by
  induction ms generalizing s with
  | nil => exact h
  | cons m ms ih => exact ih h.memberRow

theorem groupMembers {w : Nat} : Canonical (s.groupMembers w).2 := ite_snd h h.memberRows

theorem egressDests {p : Pkt} : Canonical (s.egressDests p).2.2 := by
  unfold State.egressDests
  dsimp only
  split
  · exact h
  · split
    · exact each h.groupRow.groupMembers fun _ _ h1 => h1.outcome.count64
    · exact h

theorem mirrorSample {p : Pkt} {m : Nat} : Canonical (s.mirrorSample p m).2 := ite_snd h h.of_eq

theorem mirrorDests {p : Pkt} {ms : List Nat} : Canonical (s.mirrorDests p ms).2 := by
  induction ms generalizing s with
  | nil => exact h
  | cons m ms ih => exact ih h.mirrorSample

theorem destinations {p : Pkt} : Canonical (s.destinations p).2.2 := h.egressDests.mirrorDests

theorem admitAll {p : Pkt} {ds : List Dest} : Canonical (s.admitAll p ds).2.2 := by
  induction ds generalizing s p with
  | nil => exact h
  | cons d ds ih =>
    unfold State.admitAll
    split
    · exact ih h
    · exact ih h.admitTo

theorem refuseAll {p : Pkt} {vs : List (Dest × Nat)} {code : Nat} : Canonical (s.refuseAll p vs code) :=
  discardArrival (each h fun _ _ h1 => h1.refuse)

theorem discardHolder {fid tok g code : Nat} : Canonical (s.discardHolder fid tok g code) := by
  unfold State.discardHolder
  refine releaseAt ?_
  split <;> simp only [h.count64, h]

theorem queueUp {fid : Nat} {y : Holder} : Canonical (s.queueUp fid y) := by
  unfold State.queueUp
  dsimp only
  split
  · exact of_eq (takeEntry (ite h.settled h)) rfl
  · split
    · exact of_eq (ite (putPkt (tagArrival (takeEntry (ite h.settled h)))) (putPkt (takeEntry (ite h.settled h)))) rfl
    · exact of_eq (takeEntry (ite h.settled h)) rfl

theorem deliver {fid : Nat} {hs : List Holder} : Canonical (s.deliver fid hs) := by
  unfold State.deliver
  refine each (each h fun _ _ h1 => h1.queueUp) fun _ _ h1 => ?_
  split
  · exact ite h1 h1.discardHolder
  · exact h1

theorem makePacket {p : Pkt} {y g : Nat} {vs : List Verdict} : Canonical (s.makePacket p y g vs) :=
  deliver (each (each (ite_right (count64 (lower (putPkt (arrivalSub (ite_snd h.takeExt h))))) fun h1 => pfcCheck
    (higher h1)) fun _ _ h1 => h1.refuse) fun _ _ h1 => h1.count64)

theorem enqueueTo {p : Pkt} {ds : List Dest} : Canonical (s.enqueueTo p ds).2 := by
  unfold State.enqueueTo
  extract_lets q
  split
  · exact h.refuseAll
  · rename_i hx
    extract_lets r n whole t
    have h1 := h.allocDesc hx
    have ht : Canonical t := h1.freeDesc
    exact ite_snd ht.refuseAll (ite_snd ht.refuseAll (ite_snd ht.refuseAll h1.admitAll.makePacket))

theorem enqueuePkt {p : Pkt} : Canonical (s.enqueuePkt p) :=
  ite h.destinations.discardArrival h.destinations.enqueueTo

theorem deviceFrame {t : Nat} {bytes : List Byte} {x : Pkt × State} (hx : s.deviceFrame t bytes = some x) :
    Canonical x.2 := by
  unfold State.deviceFrame at hx
  dsimp only at hx
  split at hx
  · cases hx
  · cases hx
    exact h.grantCells.addPkt

theorem postcardLost {t n : Nat} : Canonical (s.postcardLost t n) := h.putTile.count64.report

theorem postcard {t : Nat} : Canonical (s.postcard t) := by
  unfold State.postcard
  extract_lets x n
  refine ite h ?_
  split
  · exact h
  · rename_i hx
    have h1 := h.putTile.deviceFrame hx
    exact ite h1.enqueueTo.count64 h1.enqueueTo.postcardLost

theorem builderKeeps {t : Nat} : Canonical (s.builderKeeps t) := ite h h.modTile.postcardLost

theorem postcardsDue : Canonical s.postcardsDue :=
  each h fun _ _ h1 => builderKeeps (each h1 fun _ _ h2 => h2.postcard)

theorem execEnqueue {t : Tile} {p : Port} : Stays (execEnqueue t p s) := by
  unfold Machine.execEnqueue
  refine h.live fun u hu => ?_
  split
  · exact hu.enqueuePkt.postcardsDue
  · exact hu.postcardsDue

theorem execTokenRelease {hw : BitVec 27} {tok : BitVec 10} {sender : Sender} :
    Stays (execTokenRelease hw tok sender s) := by
  unfold Machine.execTokenRelease
  refine h.live fun u hu => ?_
  dsimp only
  split
  · exact hu.refusedRelease
  · refine ite hu.useDesc.releaseAt.postcardsDue (ite hu.useDesc.refusedRelease ?_)
    split
    · exact hu.useDesc.refusedRelease
    · exact hu.useDesc.releaseTok.postcardsDue

theorem execPostcardFlushTimeout {t : Tile} : Stays (execPostcardFlushTimeout t s) := h.live fun _ hu => hu.postcard

/-! ### Frames that reach an ingress MAC (Arrive) -/

theorem execFrameReceive {p : Port} {smd : Smd} {bytes : List Byte} : Stays (execFrameReceive p smd bytes s) := by
  unfold Machine.execFrameReceive
  refine h.live fun u hu => ?_
  refine ite hu ?_
  split
  · exact ite hu hu.openFrame
  · exact postcardsDue (openFrame (ite hu.reassemblyError hu))
  · dsimp only
    split
    · exact hu.count64
    · exact ite hu.moreBytes.reassemblyError.postcardsDue hu.putPort.count64.moreBytes.postcardsDue

theorem execFrameReceiveEnd {p : Port} {preemptable : Bool} {bytes : List Byte} {rxError : Bool} :
    Stays (execFrameReceiveEnd p preemptable bytes rxError s) := by
  unfold Machine.execFrameReceiveEnd
  refine h.live fun u hu => ?_
  split
  · dsimp only
    split
    · exact hu
    · exact postcardsDue (hu.putPort.moreBytes.endFrame.ite_left fun h1 => h1.count64)
  · dsimp only
    split
    · exact hu
    · exact postcardsDue (hu.putPort.moreBytes.endFrame.ite_left fun h1 => h1.count64)

theorem execPauseFrameReceive {p : Port} {bytes : List Byte} : Stays (execPauseFrameReceive p bytes s) :=
  h.live fun _ hu => ite hu hu.openFrame.modPort.endFrame

theorem execMatchStart {t : Tile} {p : Port} : Stays (execMatchStart t p s) := by
  unfold Machine.execMatchStart
  refine h.live fun u hu => ?_
  split
  · exact hu
  · exact ite hu.matchPacket.postcardsDue hu

end Sys2Proof.Machine.Canonical
end

section
/-!
Values stay canonical (R43, R44): the egress, the banks, lanes and ports.
-/
-- One proof after another: a thread for each of so many small proofs needs more memory than the check has.
set_option Elab.async false

namespace Sys2Proof.Machine.Canonical
variable {s : State} (h : Canonical s)
include h

/-! ### Picking and sending (Egress) -/

theorem sweepHeads {port : Nat} {gs : List Nat} : Canonical (s.sweepHeads port gs).2 := by
  induction gs generalizing s with
  | nil => exact h
  | cons g gs ih =>
    unfold State.sweepHeads
    extract_lets c
    split
    · exact ih h
    · exact ite_snd (ih h) (ih h.discardHolder)

theorem readCell {reader access c : Nat} : Canonical (s.readCell reader access c).2 :=
  ite h.checkWord h.checkWord.count64

theorem readRun {port : Nat} {cs : List Nat} : Canonical (s.readRun port cs).2.2 :=
  List.foldlRecOn (motive := fun a : Bool × Nat × State => Canonical a.2.2) cs _ h fun _ ha _ _ => ha.readCell

theorem readCells {port : Nat} {cs : List Nat} : Canonical (s.readCells port cs).2 := h.readRun

theorem refuseAdd {p : Pkt} {m code : Nat} : Canonical (s.refuseAdd p m code) := by
  unfold State.refuseAdd
  refine putPkt (refuse ?_)
  split
  · exact h.count64
  · exact h.count64
  · exact h

theorem addHolder {p : Pkt} {x : Holder} {m : Nat} : Canonical (s.addHolder p x m) := by
  unfold State.addHolder
  extract_lets o s1 a q s2 x ext y s3 s4
  have h1 : Canonical s1 := h.mirrorSample
  have h2 : Canonical s2 := h1.admitTo
  have hy : Canonical y.2 := ite_snd h2.takeExt h2
  exact ite h1 (ite h1.refuseAdd (ite h1.refuseAdd (ite h1.refuseAdd hy.putPkt.lower.count64.count64.deliver)))

theorem chargePick {port g : Nat} {p : Pkt} {y : Holder} : Canonical (s.chargePick port g p y) := by
  unfold State.chargePick
  refine ite h.unqueue.count64.count64.tokensAdd ?_
  split
  · exact h.unqueue.count64.count64.tokensAdd.tagPick
  · exact h.unqueue.count64.count64.tokensAdd.tagPick.ite_right fun h2 => h2.putPkt

theorem stampTx {port gap : Nat} {t : Tx} : Canonical (s.stampTx port gap t).2 := by
  unfold State.stampTx
  split
  · exact h
  · split
    · dsimp only
      split
      · exact h.finalFrame
      · exact h
    · dsimp only
      split <;> exact h

theorem wireFree {port : Nat} {pre : Bool} : Canonical (s.wireFree port pre) := by
  unfold State.wireFree
  split
  · dsimp only
    split
    · exact h
    · exact ite h.stampTx.modPort h
  · dsimp only
    split
    · exact h
    · exact ite h.stampTx.modPort h

theorem startFrame {port : Nat} {pre : Bool} {g : Nat} {p : Pkt} {y : Holder} :
    Canonical (s.startFrame port pre g p y) :=
  modPort (ite_snd (h.chargePick.putPkt.ite_left fun h1 => h1.addHolder)
    (stampTx (h.chargePick.putPkt.ite_left fun h1 => h1.addHolder)))

theorem goHead {port : Nat} {pre : Bool} {g : Nat} : Canonical (s.goHead port pre g) := by
  unfold State.goHead
  split
  · exact h
  · exact ite h.useDesc.discardHolder (ite h.useDesc.readCells.discardHolder
      (ite h.useDesc.readCells.discardHolder h.useDesc.readCells.startFrame))

theorem chargeContinuation {t : Tx} : Canonical (s.chargeContinuation t) := tokensAdd (ite h.tagFragment h)

theorem resumeTail {port : Nat} {t : Tx} : Canonical (s.resumeTail port t) := by
  unfold State.resumeTail
  refine ite h (ite (releaseAt (putPort ?_)) (putPort (chargeContinuation ?_)))
  · split
    · exact h.useDesc
    · exact h
  · split
    · exact h.useDesc
    · exact h

theorem pick {port : Nat} {pre : Bool} : Canonical (s.pick port pre) := by
  unfold State.pick
  refine ite h ?_
  split
  · exact h.resumeTail
  · refine ite h ?_
    dsimp only
    split
    · exact goHead (each h.sweepHeads fun _ _ h3 => h3.count64)
    · exact each h.sweepHeads fun _ _ h3 => h3.count64

theorem endBad {port : Nat} {t : Tx} {n : Nat} : Canonical (s.endBad port t n) :=
  h.emit.modPort.count64.count64.count64.releaseAt

theorem fragmentCells {port : Nat} {t : Tx} {d : Nat} : Canonical (s.fragmentCells port t d).2 := by
  unfold State.fragmentCells
  split
  · exact h
  · exact h.readRun

theorem passTail {port : Nat} {t : Tx} {d : Nat} {held : Bool} : Canonical (s.passTail port t d held) := by
  unfold State.passTail
  dsimp only
  split
  · exact h.emit.modPort.count64
  · exact h.emit.modPort.count64.ite_right fun h1 => h1.putPkt.count64

theorem endFragment {port : Nat} {t : Tx} {d : Nat} {held : Bool} : Canonical (s.endFragment port t d held) := by
  unfold State.endFragment
  refine wireFree ?_
  split
  · exact h.fragmentCells.endBad
  · exact h.fragmentCells.passTail

theorem putOut {port : Nat} {pre : Bool} {t : Tx} {frame : List Byte} : Canonical (s.putOut port pre t frame) :=
  ite h.emit h.emit

theorem lastByte {port : Nat} {pre : Bool} {t : Tx} {p : Pkt} {y : Holder} :
    Canonical (s.lastByte port pre t p y) := by
  unfold State.lastByte
  refine ite (endBad ?_) (releaseAt (count64 (count64 (putOut ?_))))
  · split
    · exact h.useDesc.readRun
    · exact h.useDesc.readRun.finalFrame
  · split
    · exact h.useDesc.readRun
    · exact h.useDesc.readRun.finalFrame

theorem transmitEnd {port : Nat} {pre : Bool} : Canonical (s.transmitEnd port pre) := by
  unfold State.transmitEnd
  split
  · dsimp only
    split
    · exact h
    · split
      · exact h.putPort
      · refine ite h ?_
        split
        · exact h.putPort
        · exact h.putPort.lastByte.wireFree
  · dsimp only
    split
    · exact h
    · split
      · exact h.putPort
      · refine ite h ?_
        split
        · exact h.putPort
        · exact h.putPort.lastByte.wireFree

theorem restampTx {port n : Nat} {o : ℤ} {pre : Bool} : Canonical (s.restampTx port n o pre) := by
  unfold State.restampTx
  split
  · dsimp only
    split
    · exact h
    · split
      · exact h
      · exact ite h h.putPort
  · dsimp only
    split
    · exact h
    · split
      · exact h
      · exact ite h h.putPort

theorem restamp {x : PendStep} : Canonical (s.restamp x) := each h fun _ _ h1 => h1.restampTx.restampTx

theorem timeTick : Canonical s.timeTick := foldl h.tick.stepsDue fun _ _ h1 => h1.restamp

theorem execPick {p : Port} {preemptable : Bool} : Stays (execPick p preemptable s) :=
  h.live fun _ hu => hu.pick.postcardsDue

theorem execTransmitEnd {p : Port} {preemptable : Bool} : Stays (execTransmitEnd p preemptable s) :=
  h.live fun _ hu => hu.transmitEnd.postcardsDue

theorem execFragmentEnd {p : Port} {sent : Fin 16384} : Stays (execFragmentEnd p sent s) := by
  unfold Machine.execFragmentEnd
  refine h.live fun u hu => ?_
  dsimp only
  split
  · exact ite hu.endFragment hu
  · exact hu

theorem execGateGuardCut {p : Port} {data : Fin 16384} : Stays (execGateGuardCut p data s) := by
  unfold Machine.execGateGuardCut
  refine h.live fun u hu => ?_
  split
  · exact hu
  · split
    · exact hu
    · exact ite hu.endFragment hu

theorem execLaunchWindowMiss {p : Port} {q : Fin 16} : Stays (execLaunchWindowMiss p q s) := by
  unfold Machine.execLaunchWindowMiss
  refine h.live fun u hu => ?_
  dsimp only
  split
  · exact hu
  · exact ite hu.discardHolder.postcardsDue hu

theorem execResidenceCheck {q : Queue} : Stays (execResidenceCheck q s) := by
  unfold Machine.execResidenceCheck
  refine h.live fun u hu => ?_
  split
  · exact hu
  · exact ite hu.discardHolder.postcardsDue hu

theorem execHolderAdd {hw : BitVec 27} {tok : BitVec 10} {m : Fin 64} : Stays (execHolderAdd hw tok m s) := by
  unfold Machine.execHolderAdd
  refine h.live fun u hu => ?_
  split
  · exact hu
  · split
    · exact hu
    · exact ite hu.addHolder hu

/-! ### Buffer banks (Bank) -/

theorem bankIsolate {k : Nat} : Canonical (s.bankIsolate k) := h.set.recarve

theorem remapPoison {p : Pkt} : Canonical (s.remapPoison p) := each h.putPkt fun _ _ h1 => h1.releaseAt

theorem relink {p : Pkt} {c n : Nat} : Canonical (s.relink p c n) := by
  unfold State.relink
  extract_lets i linked a r s1 s2
  have ha : Canonical a.2 := ite_snd h h.draw
  have hr : Canonical r.2 := ite_snd ha.readWordAs ha
  have h1 : Canonical s1 := ite hr.linkWritten hr
  have h2 : Canonical s2 := ite h1.linkWritten (ite h1.storeWritten h1)
  exact ite h2.mapPkts h2

theorem remapCell {c : Nat} : Canonical (s.remapCell c) := by
  unfold State.remapCell
  split
  · exact h
  · rename_i hx
    have h1 := h.grantCell hx
    extract_lets s1 r swap owner b _ s2 s3
    have h2 : Canonical s1 := by
      unfold s1
      split
      · exact h1.relink
      · exact h1
    have hr : Canonical r.2 := h2.readCell
    have h3 : Canonical s3 := count64 hr.of_eq
    split
    · exact h3.remapPoison
    · exact h3

theorem sweepStart : Canonical s.sweepStart := h.of_eq

theorem sweepPkt {p : Pkt} : Canonical (s.sweepPkt p) := h.cellReturn.count64.ite_right fun h1 => of_eq h1 rfl

theorem sweepEnd : Canonical s.sweepEnd := by
  unfold State.sweepEnd
  refine ite (cmdDone (of_eq (each h fun _ _ h2 => ?_) rfl)) (of_eq (each h fun _ _ h2 => ?_) rfl)
  · split
    · exact h2.sweepPkt
    · exact h2
  · split
    · exact h2.sweepPkt
    · exact h2

theorem descriptorRead {y : Nat} : Canonical (s.descriptorRead y).2 := by
  unfold State.descriptorRead
  split
  · exact h.useDesc
  · dsimp only
    exact h.draw

theorem snapshot : Canonical s.snapshot := h.setAll

theorem execRemapCell {k : BufBank} : Stays (execRemapCell k s) := by
  unfold Machine.execRemapCell
  refine h.live fun u hu => ?_
  refine ite hu ?_
  split
  · exact hu.remapCell.postcardsDue
  · exact hu

theorem execBankRemapDone {k : BufBank} : Stays (execBankRemapDone k s) :=
  h.live fun _ hu => ite (hu.set.raise.recarve.ite_left fun h2 => h2.cmdDone) hu

theorem execBankRestoreDone {k : BufBank} {pass : Bool} : Stays (execBankRestoreDone k pass s) :=
  h.live fun _ hu => ite hu (ite hu.of_eq.set.set.recarve.cmdDone hu.set.cmdFail)

theorem execOrphanSweepTimeout : Stays (execOrphanSweepTimeout s) := h.live fun _ hu => hu.sweepStart

theorem execOrphanSweepDone : Stays (execOrphanSweepDone s) := h.live fun _ hu => hu.sweepEnd

/-! ### A port leaves UP (Down) -/

theorem sendMarkers {l : Nat} : Canonical (s.sendMarkers l) := h.draw.markerArmed.emit

theorem portMarkers {p : Nat} : Canonical (s.portMarkers p) := by
  unfold State.portMarkers
  refine each h fun _ _ h1 => ?_
  exact h1.sendMarkers

theorem signalled {p : Nat} {was : Bool} : Canonical (s.signalled p was) := ite h h.emit.portMarkers

theorem setFault {p : Nat} {f : List Nat} : Canonical (s.setFault p f) := h.modPort.signalled

theorem flushQueues {p : Nat} : Canonical (s.flushQueues p) :=
  each h fun _ _ h1 => each h1 fun _ _ h2 => h2.discardHolder

theorem loseTx {p : Nat} {t : Option Tx} {tail : Bool} : Canonical (s.loseTx p t tail) := by
  unfold State.loseTx
  split
  · exact h
  · exact ite h.count64.releaseAt h.count64.releaseAt

theorem portDown {p cause : Nat} : Canonical (s.portDown p cause) :=
  ite h (postcardsDue (ite_left (loseTx
    (loseTx (loseTx (ite_right (set (set (showPause (set (count32 (ite h.putPort.putGate h.putPort)))))) fun h3 =>
    raise h3)))) fun h2 => flushQueues h2))

theorem laneLeft {l : Nat} : Canonical (s.laneLeft l) := by
  unfold State.laneLeft
  split
  · exact h.portDown.setFault
  · exact h

/-! ### Lanes (Lane) -/

theorem reportLane {src l : Nat} : Canonical (s.reportLane src l) := h.report

theorem putTaps {l : Nat} {taps : List ℤ} : Canonical (s.putTaps l taps) :=
  each h fun _ _ h1 => set (set (ite h1.count32 h1))

theorem putDfe {l : Nat} {v : ℤ} : Canonical (s.putDfe l v) := set (ite h h.count32)

theorem reclamp {l : Nat} : Canonical (s.reclamp l) := h.putTaps.putDfe

theorem drawMany {w n : Nat} : Canonical (s.drawMany w n).2 := by
  induction n generalizing s with
  | zero => exact h
  | succ n ih => exact ih h.draw

theorem overturned {l : Nat} : Canonical (s.overturned l) := ite h.draw.count64 h

theorem adaptTaps {l : Nat} : Canonical (s.adaptTaps l) := ite h h.drawMany.putTaps.draw.putDfe.draw.count32

theorem adapt {l : Nat} : Canonical (s.adapt l) := h.adaptTaps.overturned

theorem adaptLive {l : Nat} : Canonical (s.adaptLive l) := ite h.overturned h.adapt

theorem sendTraining {l : Nat} : Canonical (s.sendTraining l) := h.emit

theorem sendExchange {l : Nat} : Canonical (s.sendExchange l) := h.emit.modLane

theorem stageLeave {l st : Nat} : Canonical (s.stageLeave l st) := ite h (laneLeft (modLane (set (ite h.cmdFail h))))

theorem trainFresh {l : Nat} : Canonical (s.trainFresh l) := h.set.set.modLane

theorem stageEnter {l st why : Nat} : Canonical (s.stageEnter l st why) := by
  unfold State.stageEnter
  split
  · exact h.set.set.set.set.modLane
  · exact h.set.set.modLane.trainFresh.putTaps.putDfe.ite_left fun h1 => h1.sendTraining
  · exact h.set.set.trainFresh.set.ite_left fun h1 => h1.sendTraining
  · exact h.set.set.modLane.ite_left fun h1 => h1.sendMarkers
  · exact h.set.set.modLane.sendExchange
  · exact h.set.set

theorem laneGo {l st why : Nat} : Canonical (s.laneGo l st why) := ite h h.stageLeave.stageEnter

theorem portShow {p : Nat} : Canonical (s.portShow p) := ite h.set.set h

theorem ratesShown {l : Nat} : Canonical (s.ratesShown l) := by
  unfold State.ratesShown
  split
  · exact h.portShow
  · exact h

theorem laneOn {l st : Nat} : Canonical (s.laneOn l st) := h.laneGo

theorem laneAdvance {l : Nat} : Canonical (s.laneAdvance l) := ite h (ite h.laneOn h.set.laneOn.ratesShown)

theorem lanesLoseRef {ls : List Nat} : Canonical (s.lanesLoseRef ls) :=
  each h fun _ _ h1 => ite h1 h1.reportLane.laneGo

theorem laneRetrain {ls : List Nat} {hold : Bool} : Canonical (s.laneRetrain ls hold) :=
  each h fun _ _ h1 => ite h1.modLane.laneGo h1.modLane

theorem rateSplit {p : Nat} : Canonical (s.rateSplit p) :=
  ite (laneRetrain (each (ite h h.modPort.report) fun _ _ h2 => h2.modLane)) h

theorem offerG4 {p : Nat} : Canonical (s.offerG4 p) := each h.modPort fun _ _ h1 => h1.modLane

theorem laneReconf {l : Nat} : Canonical (s.laneReconf l) := h.laneGo

theorem refSelect {b : Nat} : Canonical (s.refSelect b) := ite h.set h

theorem ffeLoad {l : Nat} {d : List Byte} : Canonical (s.ffeLoad l d) := h.putTaps

theorem retrain {l : Nat} : Canonical (s.retrain l) := by
  unfold State.retrain
  refine laneGo ?_
  split
  · exact h.offerG4
  · exact h.modLane

theorem trainRequest {l control : Nat} : Canonical (s.trainRequest l control) := ite h h.set.modLane

theorem ownRequest {l status : Nat} : Canonical (s.ownRequest l status) := ite h (ite h.draw.modLane h.draw)

theorem putCaps {l caps : Nat} : Canonical (s.putCaps l caps) := h.setAll

theorem superviseLevel {rate : Nat} : Canonical (s.superviseLevel rate).2 := ite_snd h h.draw

theorem measure {l snr : Nat} : Canonical (s.measure l snr) := modLane (ite h.set.draw.modLane h.set)

theorem execRefclkLoss {n : RefInput} : Stays (execRefclkLoss n s) := by
  unfold Machine.execRefclkLoss
  refine h.live fun u hu => ?_
  refine ite hu (ite ?_ hu.draw.set.set.count32.report.lanesLoseRef)
  split <;> exact hu.draw.set.set.count32.set.report.lanesLoseRef

theorem execRefclkHealthy {n : RefInput} : Stays (execRefclkHealthy n s) := by
  unfold Machine.execRefclkHealthy
  refine h.live fun u hu => ?_
  refine ite hu (each hu.draw.set.set fun _ _ h2 => ?_)
  exact h2.laneAdvance

theorem execTxPllLock {b : LaneBank} : Stays (execTxPllLock b s) := by
  unfold Machine.execTxPllLock
  refine h.live fun u hu => ?_
  refine ite hu ?_
  split
  · exact hu
  · refine each hu.set.set fun _ _ h2 => ?_
    exact h2.laneAdvance

theorem execDieToDieLinkLoss {b : LaneBank} {linkLanes : BitVec 32} : Stays (execDieToDieLinkLoss b linkLanes s) :=
  h.live fun _ hu => each hu.report fun _ _ h1 => ite h1 h1.draw.laneGo

theorem execLosAssert {l : Lane} : Stays (execLosAssert l s) :=
  h.live fun _ hu => ite hu (hu.count32.reportLane.modLane.ite_right fun h2 => h2.laneGo)

theorem execLosDeassert {l : Lane} : Stays (execLosDeassert l s) := h.live fun _ hu => ite hu hu.modLane.laneAdvance

theorem execTrainingFrameReceive {l : Lane} {x : TrainingSeen} : Stays (execTrainingFrameReceive l x s) :=
  h.live fun _ hu => ite hu hu.putCaps.modLane.trainRequest.ownRequest.measure.sendTraining

theorem execTrainPhaseBSwitch {l : Lane} : Stays (execTrainPhaseBSwitch l s) :=
  h.live fun _ hu => ite hu.set.set.modLane.sendTraining hu

theorem execTrainComplete {l : Lane} : Stays (execTrainComplete l s) := by
  unfold Machine.execTrainComplete
  refine h.live fun u hu => ?_
  refine ite hu ?_
  split
  · exact hu
  · dsimp only
    split
    · exact rateSplit (ratesShown (laneOn (set (ite hu.adapt hu.adapt.draw.set))))
    · exact ratesShown (laneOn (set (ite hu.adapt hu.adapt.draw.set)))

theorem execTrainTimeout {l : Lane} : Stays (execTrainTimeout l s) :=
  h.live fun _ hu => ite hu hu.count32.reportLane.laneGo

theorem execMarkerLock {x : MarkerSeen} : Stays (execMarkerLock x s) :=
  h.live fun _ hu => ite hu (ite hu.adapt.modLane (ite hu.adapt.modLane.sendMarkers hu))

theorem execLockHoldComplete {l : Lane} {skewPs : BitVec 32} : Stays (execLockHoldComplete l skewPs s) :=
  h.live fun _ hu => ite hu hu.adapt.set.laneOn

theorem execLockTimeout {l : Lane} : Stays (execLockTimeout l s) :=
  h.live fun _ hu => ite hu hu.count32.reportLane.laneGo

theorem execDeskewFail {p : Port} {skews : List (BitVec 32)} : Stays (execDeskewFail p skews s) :=
  h.live fun _ hu => ite hu (reportLane (each hu fun _ _ h2 => h2.set.modLane))

theorem execExchangeBlockReceive {l : Lane} {caps : BitVec 128} : Stays (execExchangeBlockReceive l caps s) :=
  h.live fun _ hu => ite hu (ite (hu.putCaps.modLane.sendExchange.ite_left fun h3 => h3.laneOn)
    (sendExchange (modLane (ite hu.putCaps hu.putCaps.reportLane))))

theorem execExchangeTimeout {l : Lane} : Stays (execExchangeTimeout l s) := h.live fun _ hu => ite hu.laneGo hu

theorem execLockLoss {l : Lane} : Stays (execLockLoss l s) :=
  h.live fun _ hu => ite hu.count32.reportLane.laneGo (ite hu.modLane hu)

theorem execPartnerTrainingDetect {l : Lane} : Stays (execPartnerTrainingDetect l s) :=
  h.live fun _ hu => ite hu.laneGo.laneGo hu

theorem execAdaptationFreeze {x : WindowsSeen} : Stays (execAdaptationFreeze x s) :=
  h.live fun _ hu => ite hu.adapt.set.count32 hu

theorem execAdaptationThaw {x : WindowsSeen} : Stays (execAdaptationThaw x s) := h.live fun _ hu => ite hu.set hu

theorem eyeScan {l sel : Nat} : Canonical (s.eyeScan l sel).2 := ite_snd h h.cmdRun.modLane

theorem execEyeScanDone {l : Lane} {result : List Byte} : Stays (execEyeScanDone l result s) :=
  h.live fun _ hu => ite hu hu.cmdDone.setAll

theorem supervisionOff {b : Nat} : Canonical (s.supervisionOff b) := each h fun _ _ h1 => h1.modLane

theorem execSnrSupervision {l : Lane} {snr : BitVec 16} : Stays (execSnrSupervision l snr s) := by
  refine h.live fun u hu => ?_
  extract_lets u1 u2 r u3 low n
  have h1 : Canonical u1 := hu.ite_left fun h1 => h1.set
  have h2 : Canonical u2 := h1.ite_left fun h2 => h2.adaptLive
  have h3 : Canonical u3 := h2.superviseLevel
  exact ite h2 (ite h3.modLane.count32.retrain h3.modLane)

/-! ### Ports -/

theorem verifySend {p : Nat} : Canonical (s.verifySend p) := h.modPort.count64.emit

theorem preemptStart {p : Nat} : Canonical (s.preemptStart p) :=
  ite h.modPort.set.set.verifySend h.modPort.set.set

theorem portUp {p lead : Nat} : Canonical (s.portUp p lead) :=
  preemptStart (h.modPort.setFault.portShow.set.count32.ite_right fun h1 => h1.raise)

theorem cutReceive {f : Option Nat} : Canonical (s.cutReceive f) := by
  unfold State.cutReceive
  split
  · exact h.failPacket
  · exact h

theorem portGone {p : Nat} : Canonical (s.portGone p) := by
  unfold State.portGone
  exact set (keepOnly h.cutReceive.cutReceive.putPort rfl)

theorem portReconf {p : Nat} : Canonical (s.portReconf p) :=
  ite h.portDown.flushQueues.postcardsDue.offerG4.portShow h.portDown.flushQueues.postcardsDue.portGone

theorem subrateChanged {p : Nat} : Canonical (s.subrateChanged p) := ite h h.laneGo

theorem preemptChanged {p : Nat} : Canonical (s.preemptChanged p) := ite h.preemptStart h.set

theorem flowChanged {p : Nat} : Canonical (s.flowChanged p) := h.modPort.showPause.pfcCheck.pfcCheck

theorem adminWritten {p : Nat} {was : Bool} : Canonical (s.adminWritten p was) := signalled (ite h h.portDown)

theorem flushWritten {p : Nat} : Canonical (s.flushWritten p) := ite h.flushQueues.postcardsDue h

theorem bcastWritten {p : Nat} : Canonical (s.bcastWritten p) := h.modPort

theorem execPortUp {p : Port} {egressLead : BitVec 32} : Stays (execPortUp p egressLead s) :=
  h.live fun _ hu => ite hu.portUp hu

theorem execPortLeaveUp {p : Port} {cause : DownCause} : Stays (execPortLeaveUp p cause s) := by
  refine h.live fun u hu => ?_
  extract_lets t f on
  have ht : Canonical t := hu.portDown
  split
  · exact ite ht.setFault ht
  · exact ite ht.setFault ht
  · exact ht.setFault

theorem execDownHoldExpire {p : Port} : Stays (execDownHoldExpire p s) := h.live fun _ hu => ite hu.modPort.raise hu

theorem execPauseExpire {p : Port} {prio : Fin 8} : Stays (execPauseExpire p prio s) :=
  h.live fun _ hu => hu.modPort.showPause

theorem execPfcRepeat {p : Port} {high : Bool} : Stays (execPfcRepeat p high s) :=
  h.live fun _ hu => ite hu.sendPause hu

theorem execPfcWatchdogTrip {p : Port} {prio : Fin 8} : Stays (execPfcWatchdogTrip p prio s) :=
  h.live fun _ hu => ite hu hu.modPort.showPause.count32.report

theorem execPfcRecoverExpire {p : Port} {prio : Fin 8} : Stays (execPfcRecoverExpire p prio s) :=
  h.live fun _ hu => hu.modPort

theorem execFecDegradeWindow {p : Port} {bins : List (BitVec 32)} {uncorrectable symbols : BitVec 32} :
    Stays (execFecDegradeWindow p bins uncorrectable symbols s) :=
  h.live fun _ hu => ite hu (ite (report
    (set (modPort (ite_right (hu.count64.count64.ite_right fun h4 => each h4 fun _ _ h5 => h5.count64) fun h3 =>
    count64 h3)))) (ite_left (modPort
    (ite_right (hu.count64.count64.ite_right fun h5 => each h5 fun _ _ h6 => h6.count64) fun h4 => count64 h4)) fun h3
    => set h3))

theorem execVerifyRequestReceive {p : Port} : Stays (execVerifyRequestReceive p s) :=
  h.live fun _ hu => ite hu.emit hu

theorem execVerifyResponseReceive {p : Port} : Stays (execVerifyResponseReceive p s) :=
  h.live fun _ hu => ite hu.set.set hu

theorem execVerifyTimeout {p : Port} : Stays (execVerifyTimeout p s) :=
  h.live fun _ hu => ite hu (ite hu.verifySend hu.set.report)

end Sys2Proof.Machine.Canonical
end

section
/-!
Values stay canonical (R43, R44): the host attachment, service and the firmware's images.
-/
-- One proof after another: a thread for each of so many small proofs needs more memory than the check has.
set_option Elab.async false

namespace Sys2Proof.Machine.Canonical
variable {s : State} (h : Canonical s)
include h

/-! ### The host attachment (Host) -/

theorem translate {ma : Nat} {wr : Bool} : Canonical (s.translate ma wr).2 :=
  ite_snd h (ite_snd h.readWord h.readWord)

theorem busOf {c ma : Nat} {wr : Bool} : Canonical (s.busOf c ma wr).2 := ite_snd h h.translate

theorem park {c ma : Nat} {wr : Bool} {at_ : Nat} : Canonical (s.park c ma wr at_) :=
  h.setAll.count64.count64.set.raise.ite_left fun h1 => h1.putEngine

theorem issueRead {c : Nat} {why : Purpose} {at_ ma bus len : Nat} {t : State}
    (ht : s.issueRead c why at_ ma bus len = some t) : Canonical t := by
  obtain ⟨n, -, rfl⟩ := Option.map_eq_some_iff.1 ht
  exact h.of_eq

theorem chRefresh {c : Nat} : Canonical (s.chRefresh c) := ite h.set h

theorem busyAdd {l : List Ref} : Canonical (s.busyAdd l) := h.of_eq

theorem busySub {l : List Ref} : Canonical (s.busySub l) := h.of_eq

theorem chDrop {c code : Nat} : Canonical (s.chDrop c code) := by
  unfold State.chDrop
  refine postcardsDue ?_
  split
  · split
    · refine count64 (discardArrival ?_)
      split
      · exact h.releaseAt.count64
      · exact h
    · split
      · exact h.releaseAt.count64
      · exact h
  · split
    · exact h.releaseAt.count64
    · exact h

theorem chStop {c code st err : Nat} : Canonical (s.chStop c code st err) := by
  unfold State.chStop
  extract_lets s1 s2 s3 orphan jobs engs _ s4 e s5
  have h1 : Canonical s1 := by
    unfold s1
    split
    · exact h.busySub
    · exact h
  have h3 : Canonical s3 := h1.chDrop.modChan
  have h4 : Canonical s4 := h3.of_eq
  exact set (h4.ite_left fun h5 => h5.putEngine)

theorem chHalt {c src ma err : Nat} : Canonical (s.chHalt c src ma err) := h.chStop.report

theorem doorbellError {c : Nat} : Canonical (s.doorbellError c) := h.count64.report

theorem engineStop {e kind ma bus ch : Nat} : Canonical (s.engineStop e kind ma bus ch) :=
  putEngine (each h.setAll.set.count32 fun _ _ h1 => h1.chStop)

theorem chEnable {c : Nat} : Canonical (s.chEnable c) := ite (set (ite h.modChan.set h.modChan)) h.modChan

theorem settleBad {c : Nat} : Canonical (s.settleBad c) := by
  unfold State.settleBad
  dsimp only
  split
  · exact ite h.chHalt h
  · exact h

theorem prefetch {c : Nat} : Canonical (s.prefetch c) := by
  unfold State.prefetch
  extract_lets x live
  split
  · exact h
  · split
    · exact h
    · extract_lets b
      have hb : Canonical b.2 := h.busOf
      refine ite (ite h.chHalt h) ?_
      split
      · exact hb.park
      · split
        · exact hb
        · rename_i hx
          exact (hb.issueRead hx).modChan

theorem prefetchDone {c k : Nat} {b : List Byte} : Canonical (s.prefetchDone c k b) := h.modChan.settleBad

theorem issueReads {c n : Nat} : Canonical (s.issueReads c n) := by
  induction n generalizing s with
  | zero => exact h
  | succ n ih =>
    unfold State.issueReads
    extract_lets x
    split
    · exact h
    · extract_lets left ma len b
      have hb : Canonical b.2 := h.busOf
      refine ite h ?_
      split
      · exact hb.park
      · split
        · exact hb
        · rename_i hx
          exact ih (hb.issueRead hx).modChan

theorem notifyNow {c : Nat} : Canonical (s.notifyNow c) := h.modChan.sendMsix

theorem notifyOne {c : Nat} : Canonical (s.notifyOne c) := ite h (ite h.modChan.notifyNow h.modChan)

theorem writeOut {c : Nat} {d : Desc} {n : Nat} : Canonical (s.writeOut c d n).2 := by
  induction n generalizing s with
  | zero => exact h
  | succ n ih =>
    unfold State.writeOut
    extract_lets x left ma len b
    have hb : Canonical b.2 := h.busOf
    refine ite_snd h (ite_snd h ?_)
    split
    · exact hb.park
    · exact ih hb.emit.modChan

theorem writeCpl {c : Nat} {d : Desc} {ma : Nat} {bytes : List Byte} {n : Nat} :
    Canonical (s.writeCpl c d ma bytes n).2 := by
  induction n generalizing s with
  | zero => exact h
  | succ n ih =>
    unfold State.writeCpl
    extract_lets off left len b
    have hb : Canonical b.2 := h.busOf
    refine ite_snd h (ite_snd h ?_)
    split
    · exact hb.park
    · exact ih hb.emit.modChan

theorem lastRead_ {c : Nat} {d : Desc} : Canonical (s.lastRead_ c d).2 := by
  unfold State.lastRead_
  extract_lets x ma b
  have hb : Canonical b.2 := h.busOf
  refine ite_snd h (ite_snd h ?_)
  split
  · exact hb.park
  · split
    · exact hb
    · rename_i hx
      exact (hb.issueRead hx).modChan

theorem descAfter {c : Nat} {d : Desc} {f : Cpl} : Canonical (s.descAfter c d f) := by
  unfold State.descAfter
  extract_lets s1 last s2
  have h1 : Canonical s1 := h.busySub
  have h2 : Canonical s2 := h1.modChan.count64
  split
  · split
    · exact h1
    · exact ite h1 h2.releaseAt.postcardsDue
  · split
    · exact h1
    · exact ite h1 h2.releaseAt.postcardsDue
  · exact h1.ite_left fun h1 => h1.modChan
  · exact h1.ite_left fun h1 => h1.modChan
  · exact h1

theorem dropReads {c : Nat} : Canonical (s.dropReads c) := h.of_eq

theorem finishDesc {c : Nat} : Canonical (s.finishDesc c) := by
  unfold State.finishDesc
  dsimp only
  split
  · exact ite h.writeOut (ite h.writeOut.lastRead_
      (ite h.writeOut.lastRead_.writeCpl
      (settleBad (chRefresh (ite (ite_left
      (ite_left (h.writeOut.lastRead_.writeCpl.count64.descAfter.dropReads.modChan.ite_left fun h7 => h7.set) fun h6
      => putEngine h6) fun h5 => raise h5)
      (ite_left (ite_left (h.writeOut.lastRead_.writeCpl.count64.descAfter.dropReads.modChan.ite_left fun h7 =>
      h7.set) fun h6 => putEngine h6) fun h5 => notifyOne h5))))))
  · exact h

theorem sweepHost {c g : Nat} {es : List (Nat × Nat)} : Canonical (s.sweepHost c g es) := by
  induction es generalizing s with
  | nil => exact h
  | cons e es ih =>
    unfold State.sweepHost
    split
    · exact h
    · exact ite h.useDesc (ih h.useDesc.discardHolder.count64)

theorem takePacket {c y : Nat} {p : Pkt} {tok : Nat} : Canonical (s.takePacket c y p tok) := h.unqueue.putPkt.modChan

theorem copyBytes {c : Nat} {p : Pkt} {lo hi : Nat} {is : List Nat} : Canonical (s.copyBytes c p lo hi is).2.2 := by
  induction is generalizing s with
  | nil => exact h
  | cons i is ih =>
    unfold State.copyBytes
    extract_lets bad
    have hb : Canonical bad.2 := by
      unfold bad
      refine ite_snd h ?_
      split
      · exact h.readCell
      · exact h
    split
    · exact hb
    · exact ih hb

theorem receive {c : Nat} {d : Desc} : Canonical (s.receive c d) := by
  unfold State.receive
  split
  · exact h
  · split
    · exact h
    · refine modChan (count64 ?_)
      split
      · exact h.useDesc
      · exact h.useDesc.copyBytes

theorem buildFail {c : Nat} {b : Build} {code : Nat} : Canonical (s.buildFail c b code) := by
  unfold State.buildFail
  refine count64 (modChan ?_)
  split
  · exact h.discardArrival
  · exact h.openRecord.addPkt.discardArrival

theorem buildOpen {c : Nat} {d : Desc} : Canonical (s.buildOpen c d) := ite h.modChan.buildFail h.modChan

theorem hostArrive {fid : Nat} {bs : List Byte} : Canonical (s.hostArrive fid bs).2 := by
  unfold State.hostArrive
  split
  · exact h
  · exact h.putPkt.grantFor.putPkt

theorem buildPkt {c : Nat} {b : Build} : Canonical (s.buildPkt c b).2 := by
  unfold State.buildPkt
  split
  · exact h
  · exact h.openRecord.addPkt.modChan

theorem buildEnd {fid q : Nat} : Canonical (s.buildEnd fid q).2.2 := by
  unfold State.buildEnd
  split
  · exact h
  · split
    · dsimp only
      split <;> exact h.linkWritten.putPkt.enqueueTo
    · dsimp only
      split <;> exact h.linkWritten.putPkt.enqueueTo

theorem transmit {c : Nat} {d : Desc} : Canonical (s.transmit c d) := by
  unfold State.transmit
  split
  · exact h
  · exact ite h.modChan (ite h.count64.buildPkt.hostArrive.buildFail.modChan
      (ite h.count64.buildPkt.hostArrive.buildEnd.count64.modChan h.count64.buildPkt.hostArrive.modChan))

theorem lookQueues {c : Nat} : Canonical (s.lookQueues c) := by
  unfold State.lookQueues
  refine ite h ?_
  dsimp only
  split
  · exact chHalt (postcardsDue (each h fun _ _ h2 => h2.sweepHost))
  · exact postcardsDue (each h fun _ _ h2 => h2.sweepHost)

theorem beginDesc {c : Nat} : Canonical (s.beginDesc c) := by
  unfold State.beginDesc
  split
  · dsimp only
    split
    · exact h.issueReads
    · exact h
    · exact issueReads (busyAdd (ite_left (modChan (ite h.takePacket h)) fun h1 => buildOpen h1))
  · dsimp only
    split
    · exact h.issueReads
    · exact h
    · exact issueReads (busyAdd (ite_left (modChan (ite h h)) fun h1 => buildOpen h1))

theorem enginePick {e : Nat} : Canonical (s.enginePick e) := by
  unfold State.enginePick
  refine ite h ?_
  split
  · exact h.beginDesc
  · dsimp only
    split
    · refine each h fun _ _ h2 => ?_
      exact h2.lookQueues
    · refine beginDesc (putEngine (each h fun _ _ h2 => ?_))
      exact h2.lookQueues

theorem chDoorbell {c v : Nat} : Canonical (s.chDoorbell c v) :=
  h.doorbellError.ite_right fun h1 => ite (ite h.modChan.set h.count64) (ite h.modChan.chRefresh h1)

theorem chAck {c v : Nat} : Canonical (s.chAck c v) := ite h.modChan h.doorbellError

theorem chEnableWrite {c : Nat} : Canonical (s.chEnableWrite c) := ite h (ite h.modChan h.chEnable)

theorem chDisable {c : Nat} : Canonical (s.chDisable c) := ite h.modChan h.modChan.chStop.draw.draw.modChan

theorem chResume {c : Nat} : Canonical (s.chResume c) := ite h.set.chRefresh h

theorem legacyDoorbell {v : Nat} : Canonical (s.legacyDoorbell v) := ite h.count64 h.modChan.chRefresh

theorem execChDoorbell {c : Channel} {v : BitVec 32} : Stays (execChDoorbell c v s) :=
  h.live fun _ hu => hu.chDoorbell

theorem execChCmplAck {c : Channel} {v : BitVec 32} : Stays (execChCmplAck c v s) := h.live fun _ hu => hu.chAck

theorem execChannelEnable {c : Channel} : Stays (execChannelEnable c s) := h.live fun _ hu => hu.chEnableWrite

theorem execChannelDisable {c : Channel} : Stays (execChannelDisable c s) := h.live fun _ hu => hu.chDisable

theorem execChannelResume {c : Channel} : Stays (execChannelResume c s) := h.live fun _ hu => hu.chResume

theorem execChannelDrainEnd {c : Channel} : Stays (execChannelDrainEnd c s) :=
  h.live fun _ hu => ite hu (ite hu.modChan.chEnable hu.modChan)

theorem execLegacyDoorbell {v : BitVec 32} : Stays (execLegacyDoorbell v s) := h.live fun _ hu => hu.legacyDoorbell

theorem execDescriptorPrefetch {c : Channel} : Stays (execDescriptorPrefetch c s) := h.live fun _ hu => hu.prefetch

theorem execEngineChannelPick {e : Engine} : Stays (execEngineChannelPick e s) := h.live fun _ hu => hu.enginePick

theorem execPacketToHostDescriptor {c : Channel} : Stays (execPacketToHostDescriptor c s) := by
  unfold Machine.execPacketToHostDescriptor
  refine h.live fun u hu => ?_
  split
  · exact finishDesc (ite hu hu.receive)
  · exact hu

theorem execHostToPacketDescriptor {c : Channel} : Stays (execHostToPacketDescriptor c s) := by
  unfold Machine.execHostToPacketDescriptor
  refine h.live fun u hu => ?_
  split
  · exact ite hu.finishDesc.postcardsDue (ite hu.transmit.finishDesc.postcardsDue hu.issueReads)
  · exact hu

theorem execExportDescriptor {c : Channel} : Stays (execExportDescriptor c s) := by
  unfold Machine.execExportDescriptor
  refine h.live fun u hu => ?_
  split
  · exact hu
  · refine ite hu.finishDesc ?_
    split
    · exact hu
    · split
      · dsimp only
        split
        · exact hu
        · exact hu.putStream.exportMsg.modChan.count64.finishDesc
      · dsimp only
        split
        · exact hu
        · exact hu.putStream.exportMsg.modChan.count64.finishDesc

theorem putRaw {u : Nat} {b : List Byte} : Canonical (s.putRaw u b) := by
  unfold State.putRaw
  dsimp only
  split
  · exact h.putUnit
  · exact of_eq h.putUnit rfl

theorem copyStore {b : List Byte} : Canonical (s.copyStore b).2 :=
  ite_snd h (ite_snd h (each h fun _ _ h1 => h1.putRaw))

theorem execCopyDescriptor {c : Channel} : Stays (execCopyDescriptor c s) := by
  unfold Machine.execCopyDescriptor
  refine h.live fun u hu => ?_
  split
  · exact hu
  · exact ite hu.finishDesc hu.copyStore.modChan.count64.finishDesc

theorem execLinkDescriptor {c : Channel} : Stays (execLinkDescriptor c s) :=
  h.live fun _ hu => ite hu.modChan.settleBad hu

theorem execEndDescriptor {c : Channel} : Stays (execEndDescriptor c s) := h.live fun _ hu => ite hu.modChan.set hu

theorem readDone {r : ReadReq} {data : List Byte} : Canonical (s.readDone r data) := by
  unfold State.readDone
  refine ite h ?_
  split
  · exact h.prefetchDone
  · exact h.modChan
  · exact h
  · exact ite h.modChan h.modChan.finishDesc

theorem freeRead {tag : Nat} : Canonical (s.freeRead tag) := h.of_eq

theorem execPcieReadCompletion {tag : Fin 768} {data : List Byte} : Stays (execPcieReadCompletion tag data s) := by
  unfold Machine.execPcieReadCompletion
  refine h.live fun u hu => ?_
  split
  · exact hu.freeRead.readDone
  · exact hu

theorem execBusError {tag : Fin 768} {kind : BusErr} : Stays (execBusError tag kind s) := by
  unfold Machine.execBusError
  refine h.live fun u hu => ?_
  split
  · exact hu
  · exact ite hu.freeRead hu.freeRead.report.engineStop

theorem execNotifyTimeout {c : Channel} : Stays (execNotifyTimeout c s) := h.live fun _ hu => ite hu.notifyNow hu

theorem engineRestart {e : Nat} : Canonical (s.engineRestart e).2 := ite_snd h.cmdRun h

theorem execEngineRestartDone {e : Engine} : Stays (execEngineRestartDone e s) :=
  h.live fun _ hu => ite hu (cmdDone (set (each hu fun _ _ h2 => h2.modChan.set)))

theorem pmFence : Canonical s.pmFence := h.of_eq.cmdRun

theorem execPmFenceDone : Stays (execPmFenceDone s) := h.live fun _ hu => ite hu.cmdDone hu

theorem unbound {y : Nat} : Canonical (s.unbound y) := ite (postcardsDue (each h fun _ _ h2 => h2.discardHolder)) h

theorem dmaReset : Canonical s.dmaReset := by
  unfold State.dmaReset
  extract_lets s1 s2 s3
  have h1 : Canonical s1 := each h fun _ _ hu => ite hu.putChan hu.chStop.putChan
  have h2 : Canonical s2 := each h1 fun _ _ hu => putEngine (set (hu.ite_left fun hv => hv.cmdDone))
  have h3 : Canonical s3 := h2.ite_left fun hu => hu.cmdDone
  clear_value s3
  exact count32 (h3.keepOnly rfl)

/-! ### Service -/

theorem enterPale {t cause : Nat} : Canonical (s.enterPale t cause) := h.set.modTile

theorem tileReload {t : Nat} : Canonical (s.tileReload t).2 := ite_snd h h.enterPale.count64.cmdDone

theorem notePaled {c : Commit} {t : Nat} : Canonical (s.notePaled c t) := h.of_eq

theorem escalateTile {t : Nat} : Canonical (s.escalateTile t) := by
  unfold State.escalateTile
  dsimp only
  split
  · exact ite_right (each h.count64 fun _ _ h2 => h2.notePaled) fun h1 => modTile h1
  · exact ite_left (each h.count64 fun _ _ h2 => h2.notePaled) fun h1 => enterPale h1

theorem becomePale {t : Nat} : Canonical (s.becomePale t) :=
  laneRetrain (each (each h.set.set fun _ _ h1 => h1.putGate.modPort.showGates) fun _ _ h1 => h1.portDown)

theorem leavePale {t : Nat} : Canonical (s.leavePale t) :=
  laneRetrain (each (each h.set.count64 fun _ _ h1 => h1.modPort) fun _ _ h1 => h1.modLane)

theorem afterFull {t : Nat} : Canonical (s.afterFull t) := by
  unfold State.afterFull
  refine ite (enterPale (each h fun _ _ h2 => ?_)) (each h fun _ _ h2 => ?_)
  · exact h2.gateCommit
  · exact h2.gateCommit

theorem execTilePale {t : Tile} : Stays (execTilePale t s) := h.live fun _ hu => ite hu.becomePale hu

theorem domainAction {u : Nat} : Canonical (s.domainAction u) := by
  have htiles : ∀ l : List Nat, Canonical (s.each l State.escalateTile) := fun _ => each h fun _ _ hu =>
    hu.escalateTile
  have hports : ∀ l : List Nat, Canonical (s.each l fun s p => (s.set (O.ADMIN_UP p) 0).portDown p 8) := fun _ =>
    each h fun _ _ hu => hu.set.portDown
  unfold State.domainAction
  dsimp only
  split
  · exact h.ite_left fun h => h.bankIsolate
  · exact hports _
  · exact hports _
  · exact hports _
  · exact hports _
  · exact h.escalateTile
  · exact htiles _
  · exact htiles _
  · exact h.ite_right fun h => h.engineStop
  · exact h.ite_right fun h => h.engineStop
  · exact h

theorem execReactionTimeout {n : Source} : Stays (execReactionTimeout n s) :=
  h.live fun _ hu => ite hu (ite (raise (hu.set.count64.ite_left fun h3 => h3.domainAction.count64)) hu.set)

theorem faultAck {n : Nat} : Canonical (s.faultAck n).2 := ite_snd h h.set.count64.cmdDone

theorem execTempSample {n : Sensor} {sixteenths : BitVec 32} : Stays (execTempSample n sixteenths s) :=
  h.live fun _ hu => ite_left (ite_left (ite_left (ite hu.set.set hu.set) fun h3 => report h3) fun h2 => report h2)
    fun h1 => of_eq h1 rfl

theorem execArrayInitDone {fusedMv : BitVec 16} : Stays (execArrayInitDone fusedMv s) :=
  h.live fun _ hu => ite hu (hu.of_eq.drawMany.set.setAll.ite_left fun h2 => of_eq h2 rfl)

theorem execAvsStep {targetMv : BitVec 16} : Stays (execAvsStep targetMv s) :=
  h.live fun _ hu => ite hu hu.of_eq.set.emit

theorem execAvsTimeout : Stays (execAvsTimeout s) := h.live fun _ hu => ite hu hu.of_eq.report

theorem putBus {k : Nat} {d : List Byte} : Canonical (s.putBus k d) := h.of_eq

theorem twXfer {i : Nat} {d : List Byte} : Canonical (s.twXfer i d).2 := ite_snd h h.cmdRun.putBus.emit

theorem execTwXferDone {i : Fin 16} {cause : Fin 6} {recovered : Bool} {written : Byte} {data : List Byte} :
    Stays (execTwXferDone i cause recovered written data s) :=
  h.live fun _ hu => ite hu (ite (cmdDone (ite hu.putBus.count64 hu.putBus))
    (setCmd (count64 (ite hu.putBus.count64 hu.putBus))))

theorem mdioXfer {j : Nat} {d : List Byte} : Canonical (s.mdioXfer j d) := h.cmdRun.putBus.count64.emit

theorem execMdioXferDone {j : Fin 4} {answer : Option (BitVec 16)} : Stays (execMdioXferDone j answer s) := by
  unfold Machine.execMdioXferDone
  refine h.live fun u hu => ?_
  refine ite hu (ite hu.putBus.cmdDone ?_)
  split
  · exact hu.putBus.cmdDone
  · exact hu.putBus.count64.cmdDone

/-! ### Firmware images (Firm) -/

theorem flashWrite {a : Nat} {d : List Byte} : Canonical (s.flashWrite a d) := h.of_eq

theorem fwVerify : Canonical s.fwVerify.2 := by
  unfold State.fwVerify
  refine ite_snd h ?_
  split
  · exact h.cmdFail
  · exact h.of_eq.set.cmdDone

theorem fwActivate : Canonical s.fwActivate.2 := ite_snd h h.of_eq.set.cmdRun

theorem fwStore {d : List Byte} : Canonical (s.fwStore d).2 := by
  unfold State.fwStore
  split
  · exact h
  · exact h.of_eq.cmdRun

theorem startupStore : Canonical s.startupStore.2 := by
  unfold State.startupStore
  split
  · exact h.cmdFail
  · exact h.of_eq.cmdRun

theorem execFwStoreDone : Stays (execFwStoreDone s) := by
  unfold Machine.execFwStoreDone
  refine h.live fun u hu => ?_
  refine ite hu ?_
  split
  · exact hu
  · exact cmdDone (of_eq (hu.flashWrite.ite_left fun h2 => h2.set) rfl)

theorem execStartupStoreDone : Stays (execStartupStoreDone s) := by
  refine h.live fun u hu => ?_
  split
  · exact hu
  · refine ite hu ?_
    extract_lets k v w _ t
    have hw : Canonical w := hu.flashWrite.flashWrite
    have ht : Canonical t := hw.of_eq
    exact ht.cmdDone

/-! ### Reads of the dictionary (View) -/

theorem eccRow {r : Ref} {row access : Nat} : Canonical (s.eccRow r row access).2 := by
  unfold State.eccRow
  split <;> simp only [h.readWord, h.storeCheck, h]

theorem readWords {n : Nat} {read : State → Nat → Bool × State} {bytes : State → Nat → List Byte} {us : List Nat}
    (hr : ∀ u k, Canonical u → Canonical (read u k).2) : Canonical (s.readWords n read bytes us).2 := by
  induction us generalizing s with
  | nil => exact h
  | cons k us ih => exact ih (ite (draw (hr _ _ h)) (hr _ _ h))

theorem readValue {o : ObjRow} {r : Ref} {staged : Bool} {off len access : Nat} :
    Canonical (s.readValue o r staged off len access).2 :=
  ite_snd (h.readWords fun _ _ hu => hu.readUnit) (ite_snd (h.readWords fun _ _ hu => hu.eccRow) h)

theorem readClear {o : ObjRow} {r : Ref} : Canonical (s.readClear o r) := ite h (ite h.set h.set)

end Sys2Proof.Machine.Canonical
end

section
/-!
Values stay canonical (R43, R44): the dictionary and its paths.
-/
-- One proof after another: a thread for each of so many small proofs needs more memory than the check has.
set_option Elab.async false

namespace Sys2Proof.Machine.Canonical
variable {s : State} (h : Canonical s)
include h

/-! ### Leases and groups (Groups) -/

theorem stageEl {k : OKey} {v : Nat} : Canonical (s.stageEl k v) := h.of_eq

theorem groupStaged {g : Nat} : Canonical (s.groupStaged g) := ite h.set h.set

theorem emptyShadow {g : Nat} : Canonical (s.emptyShadow g) := h.of_eq

theorem discardGroup {g : Nat} : Canonical (s.discardGroup g) := h.emptyShadow.set.raise

theorem leaseGroup {g : Nat} : Canonical (s.leaseGroup g) :=
  ite h.discardGroup (ite (ite h.emptyShadow.set.raise h) (ite h h.of_eq))

theorem leaseEnd {a : Nat} : Canonical (s.leaseEnd a) := by
  unfold State.leaseEnd
  refine ite h (each h.of_eq.set.raise fun _ _ h2 => ?_)
  exact h2.leaseGroup

theorem holderEnd {y : Nat} : Canonical (s.holderEnd y) := by
  unfold State.holderEnd
  refine each h fun _ _ h1 => ?_
  exact h1.leaseEnd

theorem sessionEnd {k : Nat} : Canonical (s.sessionEnd k) := ite h h.of_eq.set.set.set.raise.holderEnd

theorem leaseOp {p : Path} {d : List Byte} : Canonical (s.leaseOp p d).2.2 := by
  unfold State.leaseOp
  split
  · dsimp only
    split <;> exact h
  · split
    · dsimp only
      split
      · exact h
      · split <;> exact h
    · split
      · dsimp only
        split
        · exact h
        · split <;> exact h
      · dsimp only
        split
        · exact h
        · split
          · exact h
          · exact h.of_eq.set

theorem releaseOp {p : Path} {d : List Byte} : Canonical (s.releaseOp p d).2 :=
  ite_snd h (ite_snd h (ite_snd h (ite_snd h h.leaseEnd)))

theorem discardOp {p : Path} {d : List Byte} : Canonical (s.discardOp p d).2 :=
  ite_snd h (ite_snd h (ite_snd h (ite_snd h (ite_snd h.discardGroup (ite_snd h.emptyShadow.set h)))))

theorem lastError {gs : List Nat} {err : Nat} : Canonical (s.lastError gs err) := each h fun _ _ h1 => h1.set

theorem commitOp {p : Path} {d : List Byte} {direct : Bool} : Canonical (s.commitOp p d direct).2 :=
  ite_snd h (ite_snd h.lastError (ite_snd h.lastError
    (ite_snd h.lastError (ite_snd h (each h.of_eq fun _ _ h1 => h1.set)))))

theorem putCommit {c : Commit} : Canonical (s.putCommit c) := h.of_eq

theorem dropCommit {c : Commit} : Canonical (s.dropCommit c) := h.of_eq

theorem flipLanes {cs : List Change} : Canonical (s.flipLanes cs) := by
  unfold State.flipLanes
  refine each (each (each (each h fun _ _ h1 => ?_) fun _ _ h1 => ite h1.set h1) fun _ _ h1 => ?_) fun _ _ h1 => ?_
  · exact h1.laneReconf
  · exact h1.reclamp
  · exact h1.refSelect

theorem flipPorts {cs : List Change} {old : List (Nat × Nat)} : Canonical (s.flipPorts cs old) := by
  unfold State.flipPorts
  refine each (each (each (each (each h fun _ _ h1 => ?_) fun _ _ h1 => ?_) fun _ _ h1 => ?_) fun _ _ h1 => ?_) fun _
    _ h1 => ?_
  · exact h1.portReconf
  · exact h1.offerG4
  · exact h1.subrateChanged
  · exact h1.preemptChanged
  · exact h1.flowChanged

theorem tableFresh {n : Nat} : Canonical (s.tableFresh n) := h.keepOnly rfl

theorem flipSched {cs : List Change} {full : List Nat} : Canonical (s.flipSched cs full) := by
  unfold State.flipSched
  refine each (each h fun _ _ h1 => h1.shaperCommit) fun _ _ h1 => ?_
  exact h1.gateCommit

theorem flipRest {gs : List Nat} {cs ws : List Change} : Canonical (s.flipRest gs cs ws) := by
  unfold State.flipRest
  extract_lets tabs s1 s2 s3 s4 s5 off
  have h1 : Canonical s1 := each h fun _ _ hu => hu.tableFresh
  have h2 : Canonical s2 := h1.ite_left fun h1 => h1.recarve
  have h3 : Canonical s3 := h2.ite_left fun h2 => h2.ipfixNewTemplate
  have h5 : Canonical s5 := each (each h3 fun _ _ hu => hu.unbound) fun _ _ hu => hu.retargeted
  exact each h5 fun _ _ hu => hu.sessionEnd

theorem enterRetiring {c : Commit} : Canonical (s.enterRetiring c) := by
  unfold State.enterRetiring
  refine retire (each (each (flipRest
    (flipSched (flipLanes (flipPorts
    (putCommit (each (each h fun _ _ h1 => h1.setK) fun _ _ h1 => h1.emptyShadow.set.set)))))) fun _ _ h1 => ?_) fun _
    _ h1 => ?_)
  · exact h1.afterFull
  · exact h1.groupRetired

theorem validated {c : Commit} : Canonical (s.validated c).2 := by
  unfold State.validated
  split
  · exact raise (each h.dropCommit.lastError fun _ _ h1 => ite h1.discardGroup h1.set)
  · exact ite_snd (each h.putCommit fun _ _ h1 => h1.set) (enterRetiring (each h.putCommit fun _ _ h1 => h1.set))

theorem tileFlips {t : Nat} {c : Commit} : Canonical (s.tileFlips t c).2 :=
  ite_snd h (ite_snd (ite h.putCommit.leavePale h.putCommit) (enterRetiring (ite h.putCommit.leavePale h.putCommit)))

/-! ### Writes of the dictionary (Write) -/

theorem writeScalar {r : Ref} {v : Nat} : Canonical (s.writeScalar r v) := by
  unfold State.writeScalar
  split <;> simp only [h.set.reclamp, ite h.set.supervisionOff h.set, h.set.adminWritten, h.set.flushWritten, ite
    h.set.bcastWritten h.set, h.set.servoWritten, ite h.set.refSelected h.set, h.event, h.writeMask, h.set.retargeted,
    h.set]

theorem arrayWritten {r : Ref} {row : Nat} : Canonical (s.arrayWritten r row) := by
  unfold State.arrayWritten
  split <;> simp only [h.wordWritten, h.storeWritten, h]

theorem writeEls {r : Ref} {es : List (Nat × Nat)} : Canonical (s.writeEls r es) :=
  each h fun _ _ h1 => h1.set.arrayWritten

theorem writeBytes {o : ObjRow} {r : Ref} {off : Nat} {d : List Byte} : Canonical (s.writeBytes o r off d) := by
  unfold State.writeBytes
  split
  · exact h.ffeLoad
  · exact h.tableWrite
  · exact each h fun _ _ h1 => h1.writeEls
  · exact h.of_eq
  · exact h.of_eq
  · exact h.writeEls

theorem tbMove {r : Ref} {o : ℤ} : Canonical (s.tbMove r o).2 :=
  ite_snd h (ite_snd h.adjust.cmdDone (ite_snd h.adjust.cmdFail h.adjust))

theorem timeSnapshot : Canonical s.timeSnapshot := h.cmdDone

theorem diagUnlock : Canonical s.diagUnlock := ite h.set h.of_eq

theorem command {r : Ref} {d : List Byte} : Canonical (s.command r d).2 := by
  unfold State.command
  dsimp only
  split
  · exact h.sessionEnd.cmdDone
  · exact ite_snd h.retrain.cmdDone h
  · exact h.eyeScan
  · exact h.cmdRun.engSubmit
  · exact cmdDone h.of_eq
  · exact ite_snd h.cmdRun.bankIsolate h
  · exact ite_snd h.cmdRun.set h
  · exact h.descriptorRead.cmdDone
  · exact h.cmdRun.sweepStart
  · exact h.snapshot.cmdDone
  · exact h.tbMove
  · exact h.tbMove
  · exact ite_snd h.rearm.cmdDone h.rearm
  · exact h.timeSnapshot
  · exact h.portSnapshot.cmdDone
  · exact ite_snd h.cmdRun.matrixSwap h
  · exact h.cmdRun.matrixClear
  · exact h.flowFlush.cmdDone
  · exact h.pmFence
  · exact h.engineRestart
  · exact h.withdraw.cmdDone
  · exact h.stackReset.cmdDone
  · exact ite_snd h.inject.cmdDone h
  · exact h.faultAck
  · exact h.fwVerify
  · exact h.fwActivate
  · exact h.fwStore
  · exact h.startupStore
  · exact h.tileReload
  · exact h.twXfer
  · exact h.mdioXfer
  · exact ite_snd h.diagUnlock.cmdDone h
  · exact h

/-! ### The operations (Dict) -/

theorem noteView {p : Path} {r : Ref} : Canonical (s.noteView p r) := by
  unfold State.noteView
  refine ite ?_ h
  split
  · exact h.noteRead
  · exact h.noteRead
  · exact h

theorem readOp {p : Path} {staged : Bool} {r : Ref} {off len access : Nat} :
    Canonical (s.readOp p staged r off len access).2.2 := by
  unfold State.readOp
  split
  · exact h
  · split
    · exact h
    · split
      · split <;> exact h
      · split
        · exact h
        · split
          · exact h
          · split
            · exact h
            · split
              · exact h
              · exact ite h.readValue h.readValue.noteView.readClear

theorem cmdOp {o : ObjRow} {r : Ref} {d : List Byte} : Canonical (s.cmdOp o r d).2 :=
  ite_snd h (ite_snd h (ite_snd h (ite_snd h (ite_snd h h.command))))

theorem writeValue {o : ObjRow} {r : Ref} {off : Nat} {d : List Byte} : Canonical (s.writeValue o r off d).2 :=
  ite_snd h (ite_snd h (ite_snd h (ite_snd h (ite h.writeBytes h.writeScalar))))

theorem writeOp {p : Path} {r : Ref} {off : Nat} {d : List Byte} : Canonical (s.writeOp p r off d).2 := by
  unfold State.writeOp
  split
  · exact h
  · exact ite_snd h (ite_snd h (ite_snd h.cmdOp (ite_snd h h.writeValue)))

theorem stageValue {o : ObjRow} {r : Ref} {off : Nat} {d : List Byte} : Canonical (s.stageValue o r off d) :=
  ite (each h fun _ _ h2 => h2.stageEl) h.stageEl

theorem stageOp {p : Path} {r : Ref} {off : Nat} {d : List Byte} : Canonical (s.stageOp p r off d).2 := by
  unfold State.stageOp
  split
  · exact h
  · refine ite_snd h ?_
    split
    · exact h
    · exact ite_snd h (ite_snd h (ite_snd h (ite_snd h (ite_snd h h.stageValue.groupStaged))))

theorem dictOp {p : Path} {code : Nat} {r : Ref} {off len : Nat} {d : List Byte} {direct : Bool} :
    Canonical (s.dictOp p code r off len d direct).2 := by
  unfold State.dictOp
  split
  · exact h.readOp
  · exact h.readOp
  · exact h.writeOp
  · exact h.stageOp
  · exact h.discardOp
  · exact h.commitOp
  · exact h.leaseOp
  · exact h.releaseOp
  · split <;> exact h
  · exact h
  · exact h

theorem direct {p : Path} {code : Nat} {r : Ref} {off len : Nat} {d : List Byte} :
    Canonical (s.direct p code r off len d) := by
  unfold State.direct
  refine ite h ?_
  dsimp only
  split
  · exact h.dictOp.emit
  · exact h.dictOp

theorem doCmd {p : Path} {r : Ref} {d : List Byte} : Canonical (s.doCmd p r d) := h.direct

theorem execRead {p : Path} {a : Ref} {off len : Nat} : Stays (execRead p a off len s) := h.live fun _ hu => hu.direct

theorem execReadStaged {p : Path} {a : Ref} {off len : Nat} : Stays (execReadStaged p a off len s) :=
  h.live fun _ hu => hu.direct

theorem execWrite {p : Path} {a : Ref} {off : Nat} {data : List Byte} : Stays (execWrite p a off data s) :=
  h.live fun _ hu => hu.direct

theorem execWriteStaged {p : Path} {a : Ref} {off : Nat} {data : List Byte} :
    Stays (execWriteStaged p a off data s) :=
  h.live fun _ hu => hu.direct

theorem execDiscard {p : Path} {data : List Byte} : Stays (execDiscard p data s) := h.live fun _ hu => hu.direct

theorem execCommit {p : Path} {bitmap : List Byte} : Stays (execCommit p bitmap s) := h.live fun _ hu => hu.direct

theorem execLease {p : Path} {data : List Byte} : Stays (execLease p data s) := h.live fun _ hu => hu.direct

theorem execRelease {p : Path} {data : List Byte} : Stays (execRelease p data s) := h.live fun _ hu => hu.direct

theorem execDescribe {p : Path} {a : Ref} : Stays (execDescribe p a s) := h.live fun _ hu => hu.direct

theorem execEcho {p : Path} {data : List Byte} : Stays (execEcho p data s) := h.live fun _ hu => hu.direct

theorem execLeaseExpire {area : Fin 16} : Stays (execLeaseExpire area s) := by
  unfold Machine.execLeaseExpire
  refine h.live fun u hu => ?_
  split
  · exact ite hu.leaseEnd hu
  · exact hu

theorem execSessionClose {p : Path} {k : Session} : Stays (execSessionClose p k s) := h.live fun _ hu => hu.doCmd

theorem execRetrain {p : Path} {l : Lane} : Stays (execRetrain p l s) := h.live fun _ hu => hu.doCmd

theorem execEyeScan {p : Path} {l : Lane} {sel : Byte} : Stays (execEyeScan p l sel s) := h.live fun _ hu => hu.doCmd

theorem execFfeLoad {p : Path} {l : Lane} {taps : List Byte} : Stays (execFfeLoad p l taps s) :=
  h.live fun _ hu => hu.direct

theorem execCacheFlush {p : Path} : Stays (execCacheFlush p s) := h.live fun _ hu => hu.doCmd

theorem execDescriptorRead {p : Path} {data : List Byte} : Stays (execDescriptorRead p data s) :=
  h.live fun _ hu => hu.doCmd

theorem execOrphanSweep {p : Path} : Stays (execOrphanSweep p s) := h.live fun _ hu => hu.doCmd

theorem execBankIsolate {p : Path} {k : BufBank} : Stays (execBankIsolate p k s) := h.live fun _ hu => hu.doCmd

theorem execBankRestore {p : Path} {k : BufBank} : Stays (execBankRestore p k s) := h.live fun _ hu => hu.doCmd

theorem execSnapshot {p : Path} : Stays (execSnapshot p s) := h.live fun _ hu => hu.doCmd

theorem execTbSet {p : Path} {n : TimeBase} {data : List Byte} : Stays (execTbSet p n data s) :=
  h.live fun _ hu => hu.doCmd

theorem execTbAdjust {p : Path} {n : TimeBase} {data : List Byte} : Stays (execTbAdjust p n data s) :=
  h.live fun _ hu => hu.doCmd

theorem execTbRearmArm {p : Path} {n : TimeBase} : Stays (execTbRearmArm p n s) := h.live fun _ hu => hu.doCmd

theorem execTbRearmTrack {p : Path} {n : TimeBase} : Stays (execTbRearmTrack p n s) := h.live fun _ hu => hu.doCmd

theorem execTimeSnapshot {p : Path} : Stays (execTimeSnapshot p s) := h.live fun _ hu => hu.doCmd

theorem execPortSnapshot {p : Path} {port : Port} : Stays (execPortSnapshot p port s) := h.live fun _ hu => hu.doCmd

theorem execMatrixSwap {p : Path} : Stays (execMatrixSwap p s) := h.live fun _ hu => hu.doCmd

theorem execMatrixClear {p : Path} : Stays (execMatrixClear p s) := h.live fun _ hu => hu.doCmd

theorem execFlowFlush {p : Path} : Stays (execFlowFlush p s) := h.live fun _ hu => hu.doCmd

theorem execEngineRestart {p : Path} {e : Engine} : Stays (execEngineRestart p e s) := h.live fun _ hu => hu.doCmd

theorem execPmFence {p : Path} : Stays (execPmFence p s) := h.live fun _ hu => hu.doCmd

theorem execIrqRaise {p : Path} {v : BitVec 16} : Stays (execIrqRaise p v s) := h.live fun _ hu => hu.direct

theorem execStackReset {p : Path} {t : Target} : Stays (execStackReset p t s) := h.live fun _ hu => hu.doCmd

theorem execSrcWithdraw {p : Path} {n : Source} : Stays (execSrcWithdraw p n s) := h.live fun _ hu => hu.doCmd

theorem execFaultAck {p : Path} {n : Source} : Stays (execFaultAck p n s) := h.live fun _ hu => hu.doCmd

theorem execFaultInjectEccSingle {p : Path} {n : Source} {unit addr : BitVec 32} :
    Stays (execFaultInjectEccSingle p n unit addr s) :=
  h.live fun _ hu => hu.doCmd

theorem execFaultInjectEccDouble {p : Path} {n : Source} {unit addr : BitVec 32} :
    Stays (execFaultInjectEccDouble p n unit addr s) :=
  h.live fun _ hu => hu.doCmd

theorem execFaultInjectParity {p : Path} {n : Source} {unit addr : BitVec 32} :
    Stays (execFaultInjectParity p n unit addr s) :=
  h.live fun _ hu => hu.doCmd

theorem execFaultInjectReport {p : Path} {n : Source} {unit addr : BitVec 32} :
    Stays (execFaultInjectReport p n unit addr s) :=
  h.live fun _ hu => hu.doCmd

theorem execTileReload {p : Path} {t : Tile} : Stays (execTileReload p t s) := h.live fun _ hu => hu.doCmd

theorem execFwVerify {p : Path} : Stays (execFwVerify p s) := h.live fun _ hu => hu.doCmd

theorem execFwActivate {p : Path} : Stays (execFwActivate p s) := h.live fun _ hu => hu.doCmd

theorem execFwStore {p : Path} {data : Byte} : Stays (execFwStore p data s) := h.live fun _ hu => hu.doCmd

theorem execStartupStore {p : Path} : Stays (execStartupStore p s) := h.live fun _ hu => hu.doCmd

theorem execTwXfer {p : Path} {i : Fin 16} {data : List Byte} : Stays (execTwXfer p i data s) :=
  h.live fun _ hu => hu.doCmd

theorem execMdioRead {p : Path} {j : Fin 4} {clause45 : Bool} {port dev : BitVec 5} :
    Stays (execMdioRead p j clause45 port dev s) :=
  h.live fun _ hu => hu.doCmd

theorem execMdioWrite {p : Path} {j : Fin 4} {clause45 : Bool} {port dev : BitVec 5} {v : BitVec 16} :
    Stays (execMdioWrite p j clause45 port dev v s) :=
  h.live fun _ hu => hu.doCmd

theorem execMdioAddress {p : Path} {j : Fin 4} {port dev : BitVec 5} {v : BitVec 16} :
    Stays (execMdioAddress p j port dev v s) :=
  h.live fun _ hu => hu.doCmd

theorem execMdioReadIncrement {p : Path} {j : Fin 4} {port dev : BitVec 5} :
    Stays (execMdioReadIncrement p j port dev s) :=
  h.live fun _ hu => hu.doCmd

theorem execDiagUnlock {p : Path} {data : List Byte} : Stays (execDiagUnlock p data s) := h.live fun _ hu => hu.doCmd

theorem execInsert {p : Path} {n : Table} {flags : Byte} {key : List Byte} {action : BitVec 24} :
    Stays (execInsert p n flags key action s) :=
  h.live fun _ hu => hu.doCmd

theorem execReplace {p : Path} {n : Table} {flags : Byte} {key : List Byte} {action : BitVec 24} :
    Stays (execReplace p n flags key action s) :=
  h.live fun _ hu => hu.doCmd

theorem execDelete {p : Path} {n : Table} {key : List Byte} : Stays (execDelete p n key s) :=
  h.live fun _ hu => hu.doCmd

theorem execEntryRead {p : Path} {n : Table} {plen : Byte} {key : List Byte} : Stays (execEntryRead p n plen key s) :=
  h.live fun _ hu => hu.doCmd

theorem execProbe {p : Path} {n : Table} {key : List Byte} : Stays (execProbe p n key s) :=
  h.live fun _ hu => hu.doCmd

theorem execPrefixInsert {p : Path} {n : Table} {flags plen : Byte} {addr : List Byte} {action : BitVec 24} :
    Stays (execPrefixInsert p n flags plen addr action s) :=
  h.live fun _ hu => hu.doCmd

theorem execPrefixDelete {p : Path} {n : Table} {plen : Byte} {addr : List Byte} :
    Stays (execPrefixDelete p n plen addr s) :=
  h.live fun _ hu => hu.doCmd

/-! ### Windows, Bolsy and commits (Bolsy) -/

theorem reply {m : Nat} {f : Udp} {payload : List Byte} : Canonical (s.reply m f payload) := h.emit

theorem bolsyDrop {k : Nat} : Canonical (s.bolsyDrop k) := by
  unfold State.bolsyDrop
  extract_lets t
  have ht : Canonical t := h.count64
  exact ite ht.of_eq ht

theorem modSess {k : Nat} {f : Sess → Sess} : Canonical (s.modSess k f) := h.of_eq

theorem hello {m : Nat} {f : Udp} : Canonical (s.hello m f) :=
  ite (bolsyDrop h.of_eq) (ite (bolsyDrop h.of_eq) (reply h.of_eq))

theorem open_ {m : Nat} {f : Udp} : Canonical (s.open_ m f) := by
  unfold State.open_
  refine ite h.bolsyDrop (ite h.bolsyDrop ?_)
  split
  · exact h.reply
  · split
    · exact h.reply.bolsyDrop
    · exact h.of_eq.set.set.set.noteRef.raise.reply

theorem respond {k : Nat} {x : Sess} {j : BJob} : Canonical (s.respond k x j) := h.modSess.reply

theorem putJob {k : Nat} {j : BJob} : Canonical (s.putJob k j) := h.modSess

theorem runJobs {k n : Nat} : Canonical (s.runJobs k n) := by
  induction n generalizing s with
  | zero => exact h
  | succ n ih =>
    unfold State.runJobs
    split
    · exact h
    · split
      · exact h
      · split
        · exact ih h.respond
        · refine ite (ih h.putJob) (ite (ih h.putJob) ?_)
          split
          · exact h.dictOp.putJob
          · exact ih h.dictOp.putJob

theorem runSession {k : Nat} : Canonical (s.runSession k) := by
  unfold State.runSession
  split
  · exact h.runJobs
  · exact h

theorem request {m : Nat} {f : Udp} : Canonical (s.request m f) := by
  unfold State.request
  split
  · dsimp only
    split
    · exact h.bolsyDrop
    · exact ite h.bolsyDrop (ite h.bolsyDrop h.reply.sessionEnd)
  · dsimp only
    split
    · exact h.bolsyDrop
    · refine ite h.bolsyDrop (ite h.modSess.bolsyDrop (ite h.modSess.bolsyDrop ?_))
      split
      · exact h.modSess.reply
      · split
        · exact h.modSess.bolsyDrop
        · exact h.modSess.set.modSess.ite_left fun h2 => h2.runSession

theorem bolsyTake {m : Nat} {f : Udp} : Canonical (s.bolsyTake m f) := by
  unfold State.bolsyTake
  refine ite h.bolsyDrop ?_
  split
  · exact h.hello
  · exact h.open_
  · exact h.request

theorem bolsyFrame {m : Nat} {f : Udp} : Canonical (s.bolsyFrame m f) :=
  ite h (ite h.bolsyDrop (ite (ite h.of_eq h.count64) h.bolsyTake))

theorem putWin {w : Nat} {x : Win} : Canonical (s.putWin w x) := h.of_eq

theorem winWrite {w off v : Nat} {wide : Bool} : Canonical (s.winWrite w off v wide) :=
  ite h.putWin (ite h.putWin (ite h.putWin (ite h.putWin (ite h.putWin (ite h.putWin (ite h.of_eq h))))))

theorem winExec {w : Nat} : Canonical (s.winExec w) := by
  unfold State.winExec
  dsimp only
  split
  · exact h
  · exact h.dictOp.putWin

theorem winDrain {w n : Nat} : Canonical (s.winDrain w n) := by
  induction n generalizing s with
  | zero => exact h
  | succ n ih =>
    unfold State.winDrain
    split
    · exact h
    · exact ite (winExec h.of_eq) (ih (winExec h.of_eq))

theorem winDone {w : Nat} : Canonical (s.winDone w) := by
  unfold State.winDone
  extract_lets s1 x
  have h1 : Canonical s1 := by
    unfold s1
    split
    · exact h.ite_right fun h => h.winDrain
    · exact h
  split
  · exact h1
  · split
    · exact h1
    · exact h1.putWin.ite_left fun h2 => h2.raise

theorem execOwOperationDone {w : Window} : Stays (execOwOperationDone w s) := h.live fun _ hu => hu.winDone

theorem answered {next : State → Nat → State} {a : Answer} (hn : ∀ u e, Canonical u → Canonical (next u e)) :
    Canonical (State.answered next s a) := by
  unfold State.answered
  split
  · exact h.emit
  · split
    · dsimp only
      split
      · exact ite h.putWin h
      · exact h
    · split
      · split
        · exact h.putJob.runSession
        · exact h
      · exact h
    · exact hn _ _ h
    · exact h

theorem execHello {m : MgmtPort} {f : Udp} : Stays (execHello m f s) := h.live fun _ hu => hu.bolsyFrame

theorem execOpen {m : MgmtPort} {f : Udp} : Stays (execOpen m f s) := h.live fun _ hu => hu.bolsyFrame

theorem execBolsyRequest {m : MgmtPort} {f : Udp} : Stays (execBolsyRequest m f s) := h.live fun _ hu => hu.bolsyFrame

theorem execBolsyClose {m : MgmtPort} {f : Udp} : Stays (execBolsyClose m f s) := h.live fun _ hu => hu.bolsyFrame

theorem execSessionIdleTimeout {k : Session} : Stays (execSessionIdleTimeout k s) := by
  unfold Machine.execSessionIdleTimeout
  refine h.live fun u hu => ?_
  split
  · exact ite hu.sessionEnd hu
  · exact hu

theorem execBolsySecretRollover : Stays (execBolsySecretRollover s) := h.live fun _ hu => hu.of_eq

end Sys2Proof.Machine.Canonical
end

section
/-!
Values stay canonical (R43, R44): the host's other ways in, boot and the step.
-/
-- One proof after another: a thread for each of so many small proofs needs more memory than the check has.
set_option Elab.async false

namespace Sys2Proof.Machine.Canonical
variable {s : State} (h : Canonical s)
include h

/-! ### Descriptors, registers and resets (Paths) -/

theorem asTable {r : Ref} {f : State → Nat × List Byte × State} (hf : ∀ u, Canonical u → Canonical (f u).2.2) :
    Canonical (s.asTable r f).2.2 := by
  unfold State.asTable
  extract_lets busy _ x
  have hx : Canonical x.2.2 := hf _ h.of_eq
  exact hx.of_eq

theorem loadRow {r : Ref} {off : Nat} {d : List Byte} : Canonical (s.loadRow r off d).2.2 :=
  h.asTable fun _ hu => hu.writeOp

theorem unloadRow {r : Ref} {off len : Nat} : Canonical (s.unloadRow r off len).2.2 := h.asTable fun _ hu => hu.readOp

theorem loadRows {r : Ref} {row n off : Nat} {d : List Byte} : Canonical (s.loadRows r row n off d).2.2 := by
  induction n generalizing s off d with
  | zero => exact h
  | succ n ih =>
    unfold State.loadRows
    split
    · exact h
    · extract_lets x
      split
      · exact h.loadRow
      · exact ih h.loadRow

theorem unloadRows {r : Ref} {row n off left : Nat} : Canonical (s.unloadRows r row n off left).2.2 := by
  induction n generalizing s off left with
  | zero => exact h
  | succ n ih =>
    unfold State.unloadRows
    split
    · exact h
    · extract_lets k x
      split
      · exact h.unloadRow
      · exact ih h.unloadRow

theorem tableDone {c code moved : Nat} {out : List Byte} : Canonical (s.tableDone c code moved out) :=
  h.modChan.count64.finishDesc

theorem execTableLoadDescriptor {c : Channel} : Stays (execTableLoadDescriptor c s) := by
  unfold Machine.execTableLoadDescriptor
  refine h.live fun u hu => ?_
  split
  · exact hu
  · exact ite hu.finishDesc (ite hu.tableDone (ite hu.issueReads hu.loadRows.tableDone))

theorem execTableUnloadDescriptor {c : Channel} : Stays (execTableUnloadDescriptor c s) := by
  unfold Machine.execTableUnloadDescriptor
  refine h.live fun u hu => ?_
  split
  · exact hu
  · exact ite hu.finishDesc (ite hu.tableDone hu.unloadRows.tableDone)

theorem feedRecords {c t total : Nat} {data : List Byte} {n : Nat} : Canonical (s.feedRecords c t total data n) := by
  induction n generalizing s with
  | zero => exact h
  | succ n ih => exact ite h (ih h.modChan.engSubmit)

theorem execTableRecordsDescriptor {c : Channel} : Stays (execTableRecordsDescriptor c s) := by
  unfold Machine.execTableRecordsDescriptor
  refine h.live fun u hu => ?_
  split
  · exact hu
  · exact ite hu.finishDesc (ite hu.tableDone (ite hu.issueReads (hu.feedRecords.ite_right fun h4 => h4.tableDone)))

theorem msixWrite {k v : Nat} : Canonical (s.msixWrite k v) := h.of_eq.flushMsix

theorem winReg {w off v : Nat} {wide : Bool} : Canonical (s.winReg w off v wide) := ite h h.winWrite

theorem chanReg {c off v : Nat} : Canonical (s.chanReg c off v) :=
  ite h.chDoorbell (ite h.chAck (ite (ite h.chDisable (h.chEnableWrite.ite_left fun h5 => h5.chResume))
    (ite h.modChan (ite h.modChan h))))

theorem irqReg {off v : Nat} : Canonical (s.irqReg off v) :=
  ite (ite h.event h.count64) (ite h.writeMask (ite h.writePending (ite h (ite h.complete (ite h.stackReset h)))))

theorem barWrite {off v : Nat} {wide : Bool} : Canonical (s.barWrite off v wide) :=
  ite h (ite h.winReg (ite (ite h.msixWrite.msixWrite h.msixWrite)
    (ite h (ite h.legacyDoorbell (ite h.irqReg (ite h.chanReg h))))))

theorem barAnswer {v : Nat} : Canonical (s.barAnswer v) := h.emit

theorem barFree {wide : Bool} : Canonical (s.barFree wide) := h.draw.barAnswer

theorem irqRead {off : Nat} : Canonical (s.irqRead off) := by
  unfold State.irqRead
  refine ite h.barFree (ite h.barAnswer (ite h.noteRead.barAnswer (ite h.barAnswer ?_)))
  split <;> simp only [h.claim, h.barFree, h.barAnswer]

theorem barRead {off : Nat} {wide : Bool} : Canonical (s.barRead off wide) := by
  unfold State.barRead
  refine ite h.barAnswer (ite h.barFree
    (ite (ite h.barFree ?_) (ite h.barAnswer
    (ite h.barFree (ite h.barFree (ite h.irqRead (ite h.barAnswer (ite ?_ h.barAnswer))))))))
  · dsimp only
    split
    · exact h.barAnswer
    · exact h.barFree
  · dsimp only
    split
    · exact h.barAnswer
    · exact h.barFree

theorem execRegisterWrite {off : Fin 1048576} {wide : Bool} {a : BarAccess} :
    Stays (execRegisterWrite off wide a s) := by
  unfold Machine.execRegisterWrite
  refine h.live fun u hu => ?_
  refine ite hu ?_
  split
  · exact hu.barWrite
  · exact hu.barRead

theorem hostReset {flr : Bool} : Canonical (s.hostReset flr) := by
  have ht : Canonical s.dmaReset.irqHostReset := h.dmaReset.irqHostReset
  have hend : ∀ (t : State) (x : HostX) (d : Dict), Canonical t → d.objs = t.dict.objs →
      Canonical (State.holderEnd { t with host := x, dict := d } 8) := fun _ _ _ ht hd => holderEnd (ht.of_eq hd)
  unfold State.hostReset
  generalize s.dmaReset.irqHostReset = t at ht ⊢
  exact hend t _ _ ht rfl

theorem linkDown : Canonical s.linkDown := h.of_eq.set.set

theorem training {b : Bool} : Canonical (s.training b) := h.of_eq

theorem execPcieConventionalReset : Stays (execPcieConventionalReset s) := by
  refine h.live fun u hu => ite hu ?_
  have ht : Canonical (((u.hostReset false).linkDown).training false) := hu.hostReset.linkDown.training
  generalize ((u.hostReset false).linkDown).training false = t at ht ⊢
  exact ht.of_eq

theorem execPcieHotReset : Stays (execPcieHotReset s) := h.live fun _ hu => hu.hostReset.linkDown.training

theorem execFunctionLevelReset : Stays (execFunctionLevelReset s) := h.live fun _ hu => hu.hostReset

theorem execPcieLinkTrainingStart : Stays (execPcieLinkTrainingStart s) := h.live fun _ hu => hu.of_eq.training

theorem execPcieLinkUp {speed : Fin 6} {width : Fin 17} : Stays (execPcieLinkUp speed width s) :=
  h.live fun _ hu => ite hu (of_eq hu.training.set.set rfl)

theorem aerClear {ue : Bool} {ones : Nat} : Canonical (s.aerClear ue ones) := h.of_eq

theorem execConfigRequest {q : CfgReq} : Stays (execConfigRequest q s) := by
  unfold Machine.execConfigRequest
  refine h.live fun u hu => ?_
  refine ite hu.emit ?_
  split
  · exact hu.of_eq.flushMsix.emit
  · exact hu.of_eq.emit
  · exact hu.of_eq.emit
  · exact hu.of_eq.emit
  · exact hu.of_eq.emit
  · exact hu.of_eq.emit
  · exact hu.of_eq.flushMsix.emit
  · exact hu.emit
  · exact hu.emit
  · exact hu.emit
  · exact hu.barAnswer
  · exact hu.of_eq.emit
  · exact hu.barAnswer
  · split
    · exact hu.barAnswer
    · exact hu.barFree
  · exact hu.of_eq.emit
  · exact hu.barAnswer
  · exact hu.barAnswer
  · exact hu.aerClear.barAnswer
  · exact hu.draw.emit

/-! ### Power, boot and firmware (Boot) -/

omit h in
theorem cleared {pw : Power} {cause straps : Nat} : Canonical (s.cleared pw cause straps) := by
  unfold State.cleared
  extract_lets t _ y _ d u
  have hu : Canonical u := rfl
  exact hu.set.set.set

theorem execPowerOn : Stays (execPowerOn s) := ⟨_, rfl, ite cleared h.of_eq⟩

theorem execPowerLoss : Stays (execPowerLoss s) := ⟨_, rfl, ite h.of_eq cleared⟩

theorem execSysResetAssert : Stays (execSysResetAssert s) := ⟨_, rfl, ite cleared h.of_eq⟩

theorem execSysResetRelease {straps : BitVec 4} : Stays (execSysResetRelease straps s) :=
  ⟨_, rfl, ite cleared h.of_eq⟩

theorem execBootRomVerify : Stays (execBootRomVerify s) := by
  refine h.live fun u hu => ite hu ?_
  extract_lets x t
  have ht : Canonical t := hu.set
  split
  · refine set ?_
    exact ht.of_eq
  · refine set ?_
    exact ht.of_eq

theorem startupEnd {applied stage err at_ : Nat} : Canonical (s.startupEnd applied stage err at_) := by
  unfold State.startupEnd
  extract_lets bytes s1 mine _ s2
  have h1 : Canonical s1 := h.setAll
  have h2 : Canonical s2 := h1.of_eq
  exact each h2 fun _ _ h3 => h3.discardGroup

theorem startupGo {n : Nat} : Canonical (s.startupGo n) := by
  induction n generalizing s with
  | zero => exact h
  | succ n ih =>
    unfold State.startupGo
    split
    · exact h
    · split
      · exact h.startupEnd
      · refine ite h.startupEnd (ite h.startupEnd ?_)
        extract_lets r put
        have hr : Canonical r.2 := h.dictOp
        split
        · exact hr.of_eq
        · exact ite hr.startupEnd (ih hr.of_eq)

theorem startupNext {err : Nat} : Canonical (s.startupNext err) := by
  unfold State.startupNext
  split
  · exact h
  · exact ite h.startupEnd h.of_eq.startupGo

theorem startupApply : Canonical s.startupApply := by
  unfold State.startupApply
  refine ite h.startupEnd ?_
  split
  · exact h.startupEnd
  · exact h.of_eq.startupGo

theorem loadMacs : Canonical s.loadMacs := by
  unfold State.loadMacs
  split
  · exact h
  · extract_lets mac s1 _ s2
    have h1 : Canonical s1 := h.set.set
    clear_value s1
    have h2 : Canonical s2 := h1.of_eq
    exact each h2 fun _ _ hu => hu.set

theorem loadSeqs : Canonical s.loadSeqs := each h.of_eq fun _ _ h1 => each h1 fun _ _ h2 => h2.wordWritten

theorem startLanes : Canonical s.startLanes := by
  unfold State.startLanes
  refine each h.loadSeqs fun _ _ h1 => ?_
  exact h1.laneReconf

theorem coresReady : Canonical s.coresReady := by
  unfold State.coresReady
  refine each h fun _ _ h1 => ?_
  exact h1.slateReady

theorem firmwareStart : Canonical s.firmwareStart := h.of_eq.set.loadMacs.startLanes.coresReady.startupApply

theorem execFirmwareStart : Stays (execFirmwareStart s) := h.live fun _ hu => ite hu.firmwareStart hu

theorem takeHeld : Canonical s.takeHeld := each h.of_eq fun _ _ h1 => h1.bolsyTake

theorem fwResume {i : Image} : Canonical (s.fwResume i) := h.of_eq.loadSeqs.set.coresReady.takeHeld

theorem execFwReady : Stays (execFwReady s) := by
  refine h.live fun u hu => ite ?_ (ite ?_ hu)
  · split
    · exact hu
    · extract_lets first _ v w _ _
      have hv : Canonical v := hu.of_eq
      have hw : Canonical w := hv.set.set.cmdDone
      exact ite (firmwareStart hw.of_eq) hw.fwResume
  · split
    · exact hu.fwResume
    · exact hu

theorem execFwRevert : Stays (execFwRevert s) := by
  refine h.live fun u hu => ite hu ?_
  extract_lets t
  have ht : Canonical t := hu.set.cmdFail
  split
  · exact ht.fwResume
  · exact ht.of_eq

theorem execSlateWatchdogExpire {k : Slate} {pc : BitVec 32} : Stays (execSlateWatchdogExpire k pc s) :=
  h.live fun _ hu => ite hu hu.report.slateDown

theorem execSlateMemoryUe {k : Slate} : Stays (execSlateMemoryUe k s) := h.live fun _ hu => ite hu hu.draw.seen

omit h in
theorem deliverTo {x : Option Answer × State} (hx : Canonical x.2) : Canonical (State.deliverTo x) := by
  unfold State.deliverTo
  split
  · exact hx.answered fun _ _ hu => hu.startupNext
  · exact hx

theorem execCommitValidationDone {g : Fin 256} : Stays (execCommitValidationDone g s) := by
  refine h.live fun u hu => ?_
  split
  · exact deliverTo hu.validated
  · exact hu

theorem execTileEpochFlip {t : Tile} {g : Fin 256} : Stays (execTileEpochFlip t g s) := by
  refine h.live fun u hu => ?_
  split
  · exact deliverTo hu.tileFlips
  · exact hu

theorem mgmtSend {m : Nat} {dst : List Byte} {type : Nat} {body : List Byte} :
    Canonical (s.mgmtSend m dst type body) :=
  h.emit

theorem execMgmtFrameReceive {m : MgmtPort} {bytes : List Byte} : Stays (execMgmtFrameReceive m bytes s) := by
  unfold Machine.execMgmtFrameReceive
  refine h.live fun u hu => ?_
  refine ite hu (ite hu.bolsyDrop ?_)
  split
  · exact hu.mgmtSend
  · exact ite hu hu.bolsyDrop

/-! ### Every command, and the step -/

theorem exec (i : Instr) : Stays (exec i s) := by
  cases i with
  | read => exact h.execRead
  | readStaged => exact h.execReadStaged
  | write => exact h.execWrite
  | writeStaged => exact h.execWriteStaged
  | discard => exact h.execDiscard
  | commit => exact h.execCommit
  | lease => exact h.execLease
  | release => exact h.execRelease
  | describe => exact h.execDescribe
  | echo => exact h.execEcho
  | commitValidationDone => exact h.execCommitValidationDone
  | tileEpochFlip => exact h.execTileEpochFlip
  | owOperationDone => exact h.execOwOperationDone
  | registerWrite => exact h.execRegisterWrite
  | hello => exact h.execHello
  | open_ => exact h.execOpen
  | bolsyRequest => exact h.execBolsyRequest
  | bolsyClose => exact h.execBolsyClose
  | sessionClose => exact h.execSessionClose
  | sessionIdleTimeout => exact h.execSessionIdleTimeout
  | leaseExpire => exact h.execLeaseExpire
  | bolsySecretRollover => exact h.execBolsySecretRollover
  | mgmtFrameReceive => exact h.execMgmtFrameReceive
  | refclkLoss => exact h.execRefclkLoss
  | refclkHealthy => exact h.execRefclkHealthy
  | txPllLock => exact h.execTxPllLock
  | losAssert => exact h.execLosAssert
  | losDeassert => exact h.execLosDeassert
  | trainingFrameReceive => exact h.execTrainingFrameReceive
  | trainPhaseBSwitch => exact h.execTrainPhaseBSwitch
  | trainComplete => exact h.execTrainComplete
  | trainTimeout => exact h.execTrainTimeout
  | markerLock => exact h.execMarkerLock
  | lockHoldComplete => exact h.execLockHoldComplete
  | lockTimeout => exact h.execLockTimeout
  | deskewFail => exact h.execDeskewFail
  | exchangeBlockReceive => exact h.execExchangeBlockReceive
  | exchangeTimeout => exact h.execExchangeTimeout
  | lockLoss => exact h.execLockLoss
  | partnerTrainingDetect => exact h.execPartnerTrainingDetect
  | retrain => exact h.execRetrain
  | adaptationFreeze => exact h.execAdaptationFreeze
  | adaptationThaw => exact h.execAdaptationThaw
  | eyeScan => exact h.execEyeScan
  | eyeScanDone => exact h.execEyeScanDone
  | ffeLoad => exact h.execFfeLoad
  | snrSupervision => exact h.execSnrSupervision
  | portUp => exact h.execPortUp
  | portLeaveUp => exact h.execPortLeaveUp
  | downHoldExpire => exact h.execDownHoldExpire
  | frameReceive => exact h.execFrameReceive
  | frameReceiveEnd => exact h.execFrameReceiveEnd
  | pauseFrameReceive => exact h.execPauseFrameReceive
  | pauseExpire => exact h.execPauseExpire
  | pfcRepeat => exact h.execPfcRepeat
  | pfcWatchdogTrip => exact h.execPfcWatchdogTrip
  | pfcRecoverExpire => exact h.execPfcRecoverExpire
  | fecDegradeWindow => exact h.execFecDegradeWindow
  | verifyRequestReceive => exact h.execVerifyRequestReceive
  | verifyResponseReceive => exact h.execVerifyResponseReceive
  | verifyTimeout => exact h.execVerifyTimeout
  | fragmentEnd => exact h.execFragmentEnd
  | gateGuardCut => exact h.execGateGuardCut
  | dispatchPoint => exact h.execDispatchPoint
  | coreDispatch => exact h.execCoreDispatch
  | arrivalStallEnd => exact h.execArrivalStallEnd
  | nop => exact h.execNop
  | add => exact h.execAdd
  | sub => exact h.execSub
  | and_ => exact h.execAnd
  | or_ => exact h.execOr
  | xor_ => exact h.execXor
  | shl => exact h.execShl
  | shr => exact h.execShr
  | movi => exact h.execMovi
  | movhi => exact h.execMovhi
  | addi => exact h.execAddi
  | andi => exact h.execAndi
  | ori => exact h.execOri
  | xori => exact h.execXori
  | shli => exact h.execShli
  | shri => exact h.execShri
  | ext => exact h.execExt
  | cmp => exact h.execCmp
  | cmpi => exact h.execCmpi
  | ldb => exact h.execLdb
  | ldh => exact h.execLdh
  | ldw => exact h.execLdw
  | ldc => exact h.execLdc
  | stc => exact h.execStc
  | bcc => exact h.execBcc
  | call => exact h.execCall
  | ret => exact h.execRet
  | jr => exact h.execJr
  | hsy4 => exact h.execHsy4
  | hsy6 => exact h.execHsy6
  | hash => exact h.execHash
  | amb => exact h.execAmb
  | amw => exact h.execAmw
  | amberScanDone => exact h.execAmberScanDone
  | mfs => exact h.execMfs
  | drop => exact h.execDrop
  | end_ => exact h.execEnd
  | budgetOverrun => exact h.execBudgetOverrun
  | reorderHandoff => exact h.execReorderHandoff
  | pmemScrub => exact h.execPmemScrub
  | amberScrub => exact h.execAmberScrub
  | matchStart => exact h.execMatchStart
  | learnSighting => exact h.execLearnSighting
  | enqueue => exact h.execEnqueue
  | insert => exact h.execInsert
  | replace => exact h.execReplace
  | delete => exact h.execDelete
  | entryRead => exact h.execEntryRead
  | probe => exact h.execProbe
  | prefixInsert => exact h.execPrefixInsert
  | prefixDelete => exact h.execPrefixDelete
  | entryOpComplete => exact h.execEntryOpComplete
  | stashWaitEnd => exact h.execStashWaitEnd
  | stashRelease => exact h.execStashRelease
  | ageTick => exact h.execAgeTick
  | ageScan => exact h.execAgeScan
  | ageDelete => exact h.execAgeDelete
  | ageRefresh => exact h.execAgeRefresh
  | mamScrub => exact h.execMamScrub
  | mamEntryRepair => exact h.execMamEntryRepair
  | tableStoreScrub => exact h.execTableStoreScrub
  | levelEntryRebuild => exact h.execLevelEntryRebuild
  | cacheFlush => exact h.execCacheFlush
  | tokenRelease => exact h.execTokenRelease
  | cellReturnDone => exact h.execCellReturnDone
  | holderAdd => exact h.execHolderAdd
  | descriptorRead => exact h.execDescriptorRead
  | orphanSweep => exact h.execOrphanSweep
  | orphanSweepTimeout => exact h.execOrphanSweepTimeout
  | cellScrub => exact h.execCellScrub
  | descriptorScrub => exact h.execDescriptorScrub
  | bankIsolate => exact h.execBankIsolate
  | remapCell => exact h.execRemapCell
  | bankRemapDone => exact h.execBankRemapDone
  | bankRestore => exact h.execBankRestore
  | bankRestoreDone => exact h.execBankRestoreDone
  | snapshot => exact h.execSnapshot
  | pick => exact h.execPick
  | transmitEnd => exact h.execTransmitEnd
  | shaperTick => exact h.execShaperTick
  | policerRefresh => exact h.execPolicerRefresh
  | gateListStart => exact h.execGateListStart
  | gateEntryStart => exact h.execGateEntryStart
  | launchWindowMiss => exact h.execLaunchWindowMiss
  | residenceCheck => exact h.execResidenceCheck
  | timeRefLoss => exact h.execTimeRefLoss
  | timeRefRecover => exact h.execTimeRefRecover
  | timeRefRampDone => exact h.execTimeRefRampDone
  | tbSet => exact h.execTbSet
  | tbAdjust => exact h.execTbAdjust
  | tbRearmArm => exact h.execTbRearmArm
  | tbRearmTrack => exact h.execTbRearmTrack
  | slewComplete => exact h.execSlewComplete
  | ppsInEdge => exact h.execPpsInEdge
  | ppsInLoss => exact h.execPpsInLoss
  | ppsOutEdge => exact h.execPpsOutEdge
  | ppsOutPulseEnd => exact h.execPpsOutPulseEnd
  | servoMeasure => exact h.execServoMeasure
  | timeSnapshot => exact h.execTimeSnapshot
  | portSnapshot => exact h.execPortSnapshot
  | matrixSwap => exact h.execMatrixSwap
  | matrixSwapDone => exact h.execMatrixSwapDone
  | matrixClear => exact h.execMatrixClear
  | matrixClearDone => exact h.execMatrixClearDone
  | flowScan => exact h.execFlowScan
  | flowFlush => exact h.execFlowFlush
  | exportFlushTimeout => exact h.execExportFlushTimeout
  | ipfixTemplateTimer => exact h.execIpfixTemplateTimer
  | postcardFlushTimeout => exact h.execPostcardFlushTimeout
  | counterScrub => exact h.execCounterScrub
  | chDoorbell => exact h.execChDoorbell
  | chCmplAck => exact h.execChCmplAck
  | channelEnable => exact h.execChannelEnable
  | channelDisable => exact h.execChannelDisable
  | channelResume => exact h.execChannelResume
  | channelDrainEnd => exact h.execChannelDrainEnd
  | descriptorPrefetch => exact h.execDescriptorPrefetch
  | engineChannelPick => exact h.execEngineChannelPick
  | packetToHostDescriptor => exact h.execPacketToHostDescriptor
  | hostToPacketDescriptor => exact h.execHostToPacketDescriptor
  | tableLoadDescriptor => exact h.execTableLoadDescriptor
  | tableUnloadDescriptor => exact h.execTableUnloadDescriptor
  | tableRecordsDescriptor => exact h.execTableRecordsDescriptor
  | exportDescriptor => exact h.execExportDescriptor
  | copyDescriptor => exact h.execCopyDescriptor
  | linkDescriptor => exact h.execLinkDescriptor
  | endDescriptor => exact h.execEndDescriptor
  | pcieReadCompletion => exact h.execPcieReadCompletion
  | busError => exact h.execBusError
  | notifyTimeout => exact h.execNotifyTimeout
  | engineRestart => exact h.execEngineRestart
  | engineRestartDone => exact h.execEngineRestartDone
  | pmFence => exact h.execPmFence
  | pmFenceDone => exact h.execPmFenceDone
  | legacyDoorbell => exact h.execLegacyDoorbell
  | pcieConventionalReset => exact h.execPcieConventionalReset
  | pcieHotReset => exact h.execPcieHotReset
  | functionLevelReset => exact h.execFunctionLevelReset
  | pcieLinkTrainingStart => exact h.execPcieLinkTrainingStart
  | configRequest => exact h.execConfigRequest
  | msixDeliverable => exact h.execMsixDeliverable
  | sourceDoorbell => exact h.execSourceDoorbell
  | irqDoorbell => exact h.execIrqDoorbell
  | irqRaise => exact h.execIrqRaise
  | deliveryMessage => exact h.execDeliveryMessage
  | irqClaim => exact h.execIrqClaim
  | irqComplete => exact h.execIrqComplete
  | irqStackReset => exact h.execIrqStackReset
  | stackReset => exact h.execStackReset
  | irqMaskWrite => exact h.execIrqMaskWrite
  | irqPendingWrite => exact h.execIrqPendingWrite
  | irqPendingRead => exact h.execIrqPendingRead
  | srcWithdraw => exact h.execSrcWithdraw
  | deliveryTimeout => exact h.execDeliveryTimeout
  | faultReport => exact h.execFaultReport
  | recordPublish => exact h.execRecordPublish
  | faultWindowExpire => exact h.execFaultWindowExpire
  | reactionTimeout => exact h.execReactionTimeout
  | quietExpire => exact h.execQuietExpire
  | faultAck => exact h.execFaultAck
  | faultInjectEccSingle => exact h.execFaultInjectEccSingle
  | faultInjectEccDouble => exact h.execFaultInjectEccDouble
  | faultInjectParity => exact h.execFaultInjectParity
  | faultInjectReport => exact h.execFaultInjectReport
  | powerOn => exact h.execPowerOn
  | powerLoss => exact h.execPowerLoss
  | sysResetAssert => exact h.execSysResetAssert
  | sysResetRelease => exact h.execSysResetRelease
  | arrayInitDone => exact h.execArrayInitDone
  | bootRomVerify => exact h.execBootRomVerify
  | firmwareStart => exact h.execFirmwareStart
  | avsStep => exact h.execAvsStep
  | avsTimeout => exact h.execAvsTimeout
  | tileReload => exact h.execTileReload
  | tilePale => exact h.execTilePale
  | fwVerify => exact h.execFwVerify
  | fwActivate => exact h.execFwActivate
  | fwReady => exact h.execFwReady
  | fwRevert => exact h.execFwRevert
  | fwStore => exact h.execFwStore
  | startupStore => exact h.execStartupStore
  | slateWatchdogExpire => exact h.execSlateWatchdogExpire
  | tempSample => exact h.execTempSample
  | twXfer => exact h.execTwXfer
  | twXferDone => exact h.execTwXferDone
  | mdioRead => exact h.execMdioRead
  | mdioWrite => exact h.execMdioWrite
  | mdioAddress => exact h.execMdioAddress
  | mdioReadIncrement => exact h.execMdioReadIncrement
  | mdioXferDone => exact h.execMdioXferDone
  | diagUnlock => exact h.execDiagUnlock
  | dieToDieLinkLoss => exact h.execDieToDieLinkLoss
  | orphanSweepDone => exact h.execOrphanSweepDone
  | fwStoreDone => exact h.execFwStoreDone
  | startupStoreDone => exact h.execStartupStoreDone
  | slateMemoryUe => exact h.execSlateMemoryUe
  | pcieLinkUp => exact h.execPcieLinkUp

theorem step : Stays (step s) := by
  unfold Machine.step
  split
  · exact h.live fun _ hu => hu.timeTick
  · refine exec ?_ _
    exact h.of_eq

end Sys2Proof.Machine.Canonical
open Sys2Proof Sys2Proof.Machine

/-- Settles O17: every function of the model writes a value through `State.setK`, or takes elements out, or leaves the
values as they are, and each of these keeps the form; a command's effect is made of such functions. -/
theorem objectsStayCanonical : Obligations.ObjectsStayCanonical := by
  unfold Obligations.ObjectsStayCanonical
  exact fun s h => Canonical.step h
end

section
/-!
The refusals of READ, WRITE and WRITE_STAGED (R34, R40, R63, R423): each check of `readOp`, `writeOp`, `stageOp` and
`cmdOp` that fails, as an equation with the state unchanged.
-/
namespace Sys2Proof.Machine

section
variable {s : State} {p : Path} {a : Ref} {off len e acc : Nat} {d : List Byte} {o : ObjRow} {staged : Bool}

/-! ### Refusals leave the state -/

theorem exec_write_refused (h : Ready s p) (hw : (fresh s).writeOp p a off d = (e, fresh s)) :
    exec (.write p a off d) s = .next (refused s p e) := by
  rw [← answers_fresh h.1]
  exact exec_write_answers h hw

theorem exec_writeStaged_refused (h : Ready s p) (hw : (fresh s).stageOp p a off d = (e, fresh s)) :
    exec (.writeStaged p a off d) s = .next (refused s p e) := by
  rw [← answers_fresh h.1]
  exact exec_writeStaged_answers h hw

/-! ### Steps 1 to 3: finding the row -/

theorem State.locate_noObject (h : indexRows a.idx = []) : s.locate staged a = (Err.noObject, none) := by
  simp only [State.locate, h]

theorem State.locate_noInstance {r : ObjRow} (h : (indexRows a.idx).head? = some r)
    (hi : s.hasInst r.insts a.inst = false) : s.locate false a = (Err.noInstance, none) := by
  obtain ⟨rest, hrows⟩ := List.head?_eq_some_iff.1 h
  simp [State.locate, hrows, State.reachable, hi]

theorem State.locate_noSubindex {r : ObjRow} (h : (indexRows a.idx).head? = some r)
    (hi : s.hasInst r.insts a.inst = true) (hr : rowOf (indexRows a.idx) a.sub = none) :
    s.locate false a = (Err.noSubindex, none) := by
  obtain ⟨rest, hrows⟩ := List.head?_eq_some_iff.1 h
  rw [hrows] at hr
  simp [State.locate, hrows, State.reachable, hi, hr]

theorem State.readOp_notFound (h : s.locate staged a = (e, none)) : s.readOp p staged a off len acc = (e, [], s) := by
  simp only [State.readOp, h]

theorem State.writeOp_notFound (h : s.locate false a = (e, none)) : s.writeOp p a off d = (e, s) := by
  simp only [State.writeOp, h]

/-- Where no row is found, READ and WRITE are refused with the error of the search. -/
theorem read_write_notFound (h : Ready s p) (hl : s.locate false a = (e, none)) :
    exec (.read p a off len) s = .next (refused s p e) ∧ exec (.write p a off d) s = .next (refused s p e) :=
  ⟨exec_read_pure h (State.readOp_notFound (s := fresh s) hl),
    exec_write_refused h (State.writeOp_notFound (s := fresh s) hl)⟩

/-! ### Step 4: the access right -/

theorem State.readOp_writeOnly (hf : Finds s staged a o) (ha : o.acc = .wo) :
    s.readOp p staged a off len acc = (Err.writeOnly, [], s) := by
  unfold Finds at hf
  simp [State.readOp, hf, ha]

theorem State.writeOp_noRight (hf : Finds s false a o) (hr : s.writeRight o a = e) (he : e ≠ Err.ok) :
    s.writeOp p a off d = (e, s) := by
  unfold Finds at hf
  simp [State.writeOp, hf, hr, he]

theorem State.writeRight_readOnly (ha : o.acc = .ro ∨ o.acc = .rc) : s.writeRight o a = Err.readOnly := by
  rcases ha with ha | ha <;> simp only [State.writeRight, ha]

theorem State.writeRight_stagedOnly (ha : o.acc = .rws) : s.writeRight o a = Err.stagedOnly := by
  simp only [State.writeRight, ha]

/-- A command's write has the right to write, too. -/
theorem State.writeRight_written (ha : o.acc = .rw ∨ o.acc = .wo ∨ o.acc = .cmd) (hr : a.idx ≠ 0x5003 ∨ a.sub ≠ 2) :
    s.writeRight o a = Err.ok := by
  have h : ¬ (a.idx = 0x5003 ∧ a.sub = 2 ∧ (s.decl a.inst).isLpm = true) := fun ⟨hi, hs, _⟩ => by simp [hi, hs] at hr
  rcases ha with ha | ha | ha <;> simp only [State.writeRight, ha, if_neg h]

theorem State.stageOp_readOnly (hf : Finds s true a o) (ha : o.acc = .ro ∨ o.acc = .rc) :
    s.stageOp p a off d = (Err.readOnly, s) := by
  unfold Finds at hf
  simp [State.stageOp, hf, ha]

theorem State.stageOp_notStageable (hf : Finds s true a o) (ha : o.acc = .wo ∨ o.acc = .w1c ∨ o.acc = .cmd) :
    s.stageOp p a off d = (Err.notStageable, s) := by
  unfold Finds at hf
  rcases ha with ha | ha | ha <;> simp [State.stageOp, hf, ha]

/-! ### Step 5: the lease (R63, R423) -/

theorem State.writeOp_leased (hf : Finds s false a o) (hr : s.writeRight o a = Err.ok)
    (hl : s.leasedAway p (a.idx / 4096) = true) :
    s.writeOp p a off d = (if s.masterBusy a then Err.cmdBusy else Err.leased, s) := by
  unfold Finds at hf
  simp [State.writeOp, hf, hr, hl]

theorem State.masterBusy_eq_false
    (h : (a.idx ≠ 0xD300 ∧ a.idx ≠ 0xD310) ∨ a.sub ≠ 1 ∨ s.cmdRunning a = false) : s.masterBusy a = false := by
  rcases h with ⟨h, h'⟩ | h | h <;> simp [State.masterBusy, *]

theorem State.masterBusy_eq_true (hi : a.idx = 0xD300 ∨ a.idx = 0xD310) (hs : a.sub = 1)
    (hc : s.cmdRunning a = true) : s.masterBusy a = true := by
  simp [State.masterBusy, hi, hs, hc]

/-! ### Steps 6 to 8 of a value -/

theorem State.dataFits_wrongLength (h : isNumber o = true) (hd : d.length ≠ o.size) :
    s.dataFits p o a off d = Err.type := by
  obtain ⟨hblob, htable⟩ := isNumber_ty h
  have hstring := (isNumber_not h).1
  unfold State.dataFits
  split
  · exact absurd ‹_› hblob
  · exact absurd ‹_› htable
  · exact absurd ‹_› hstring
  · exact if_neg hd

theorem State.writeOp_misfit (hf : Finds s false a o) (ha : o.acc = .rw ∨ o.acc = .wo) (hr : s.writeRight o a = Err.ok)
    (hl : s.leasedAway p (a.idx / 4096) = false) (hd : s.dataFits p o a off d = e) (he : e ≠ Err.ok) :
    s.writeOp p a off d = (e, s) := by
  have hc : o.acc ≠ .cmd := by rcases ha with ha | ha <;> simp [ha]
  unfold Finds at hf
  simp [State.writeOp, hf, hr, hl, hc, hd, he]

theorem State.writeValue_range (hn : isNumber o = true) (hi : inRange o (keepBits a.idx a.sub 0 (leNat d)) = false) :
    s.writeValue o a off d = (Err.range, s) := by
  obtain ⟨hblob, htable⟩ := isNumber_ty hn
  simp [State.writeValue, hblob, htable, hi]

/-! ### Steps 6 to 8 of a command -/

theorem State.writeOp_eq_cmdOp (hf : Finds s false a o) (ha : o.acc = .cmd) (hr : s.writeRight o a = Err.ok)
    (hl : s.leasedAway p (a.idx / 4096) = false) : s.writeOp p a off d = s.cmdOp o a d := by
  unfold Finds at hf
  simp [State.writeOp, hf, hr, hl, ha]

theorem State.cmdOp_type (hd : cmdFits a o.size d = false) : s.cmdOp o a d = (Err.type, s) := by
  simp [State.cmdOp, hd]

theorem State.cmdOp_range (hd : cmdFits a o.size d = true) (hr : s.cmdRange a d = false) :
    s.cmdOp o a d = (Err.range, s) := by
  simp [State.cmdOp, hd, hr]

theorem State.cmdOp_tableBusy (hd : cmdFits a o.size d = true) (hr : s.cmdRange a d = true)
    (hb : s.dict.busyTabs.contains a = true) : s.cmdOp o a d = (Err.tableBusy, s) := by
  simp only [State.cmdOp, hd, hr, hb, Bool.not_true, Bool.false_eq_true, if_false, if_true]

theorem State.cmdOp_cmdBusy (hd : cmdFits a o.size d = true) (hr : s.cmdRange a d = true)
    (hb : s.dict.busyTabs.contains a = false) (hc : s.cmdRunning a = true) :
    s.cmdOp o a d = (Err.cmdBusy, s) := by
  simp only [State.cmdOp, hd, hr, hb, hc, Bool.not_true, Bool.false_eq_true, if_false, if_true]

/-! ### The clauses of the statement -/

/-- A WRITE of an area that another holder leases (R63, R423). -/
theorem write_leased (h : Ready s p) (hf : Finds s false a o) (ha : o.acc = .rw ∨ o.acc = .wo ∨ o.acc = .cmd)
    (hr : a.idx ≠ 0x5003 ∨ a.sub ≠ 2) (hl : s.leasedAway p (a.idx / 4096) = true) :
    exec (.write p a off d) s = .next (refused s p (if s.masterBusy a then Err.cmdBusy else Err.leased)) :=
  exec_write_refused h (State.writeOp_leased (s := fresh s) hf (State.writeRight_written ha hr) hl)

theorem write_wrongLength (h : Ready s p) (hf : Finds s false a o) (ha : o.acc = .rw ∨ o.acc = .wo)
    (hr : a.idx ≠ 0x5003 ∨ a.sub ≠ 2) (hn : isNumber o = true) (hl : s.leasedAway p (a.idx / 4096) = false)
    (hd : d.length ≠ o.size) : exec (.write p a off d) s = .next (refused s p Err.type) :=
  have hw := State.writeRight_written (s := fresh s) (by tauto) hr
  exec_write_refused h
    (State.writeOp_misfit (s := fresh s) hf ha hw hl (State.dataFits_wrongLength hn hd) (by decide))

theorem write_outOfRange (h : Ready s p) (hf : Finds s false a o) (ha : o.acc = .rw ∨ o.acc = .wo)
    (hr : a.idx ≠ 0x5003 ∨ a.sub ≠ 2) (hn : isNumber o = true) (hl : s.leasedAway p (a.idx / 4096) = false)
    (hd : d.length = o.size) (hi : inRange o (keepBits a.idx a.sub 0 (leNat d)) = false) :
    exec (.write p a off d) s = .next (refused s p Err.range) := by
  refine exec_write_refused h ?_
  rw [State.writeOp_eq_writeValue (s := fresh s) hf ha (by tauto) hl (State.dataFits_number _ _ _ _ hn hd),
    State.writeValue_range hn hi]

/-- A WRITE of a command answers the error of its own checks. -/
theorem write_cmd_refused (h : Ready s p) (hf : Finds s false a o) (ha : o.acc = .cmd)
    (hr : a.idx ≠ 0x5003 ∨ a.sub ≠ 2) (hl : s.leasedAway p (a.idx / 4096) = false)
    (hc : (fresh s).cmdOp o a d = (e, fresh s)) : exec (.write p a off d) s = .next (refused s p e) := by
  refine exec_write_refused h ?_
  rw [State.writeOp_eq_cmdOp (s := fresh s) hf ha (State.writeRight_written (by tauto) hr) hl, hc]

end

end Sys2Proof.Machine

open Sys2Proof Sys2Proof.Machine

/-- Settles O20: the checks of `readOp`, `writeOp`, `stageOp` and `cmdOp` in their order, each with the state left as it
was where it fails. -/
theorem refusalsComeInTheOrderOfTheRules : Obligations.RefusalsComeInTheOrderOfTheRules := by
  intro s p a off len d o h
  refine ⟨fun hi => read_write_notFound h (State.locate_noObject hi),
    fun r hr hi => read_write_notFound h (State.locate_noInstance hr hi),
    fun r hr hi hs => read_write_notFound h (State.locate_noSubindex hr hi hs),
    fun hf ha => exec_read_pure h (State.readOp_writeOnly (s := fresh s) hf ha),
    fun hf ha => ?readOnly, fun hf ha => ?stagedOnly,
    fun hf ha => exec_writeStaged_refused h (State.stageOp_readOnly (s := fresh s) hf ha),
    fun hf ha => exec_writeStaged_refused h (State.stageOp_notStageable (s := fresh s) hf ha),
    fun hf ha hr hl => ⟨fun hm => ?leased, fun hi hs hc => ?master⟩,
    fun hf ha hr hn hl hd => write_wrongLength h hf ha hr hn hl hd,
    fun hf ha hr hn hl hd hi => write_outOfRange h hf ha hr hn hl hd hi,
    fun hf ha hr hl => ⟨fun hd => ?type, fun hd hc => ?range, fun hd hc hb => ?table, fun hd hc hb hx => ?running⟩⟩
  case readOnly =>
    exact exec_write_refused h
      (State.writeOp_noRight (s := fresh s) hf (State.writeRight_readOnly ha) (by decide))
  case stagedOnly =>
    exact exec_write_refused h
      (State.writeOp_noRight (s := fresh s) hf (State.writeRight_stagedOnly ha) (by decide))
  case leased => rw [write_leased h hf ha hr hl, State.masterBusy_eq_false hm, if_neg Bool.false_ne_true]
  case master => rw [write_leased h hf ha hr hl, State.masterBusy_eq_true hi hs hc, if_pos rfl]
  case type => exact write_cmd_refused h hf ha hr hl (State.cmdOp_type hd)
  case range => exact write_cmd_refused h hf ha hr hl (State.cmdOp_range (s := fresh s) hd hc)
  case table => exact write_cmd_refused h hf ha hr hl (State.cmdOp_tableBusy (s := fresh s) hd hc hb)
  case running => exact write_cmd_refused h hf ha hr hl (State.cmdOp_cmdBusy (s := fresh s) hd hc hb hx)

end

section
/-!
The moves of commit groups (R42-R46): DISCARD, COMMIT, the end of VALIDATING and the flip of a tile, each as an equation of
the function that makes the move, and what a move leaves of the objects and of the dictionary.
-/
namespace Sys2Proof.Machine

section
variable {s u : State} {p : Path} {d : List Byte} {e : Nat}

/-! ### Answers -/

/-- A DISCARD answers the code of `discardOp` and leaves its state. -/
theorem exec_discard_answers (h : Ready s p) (hd : (fresh s).discardOp p d = (e, u)) :
    exec (.discard p d) s = .next (answers s p e u) := by
  obtain ⟨hrun, hopen⟩ := h
  rw [exec_discard, execDiscard, live_ran hrun]
  simp [State.direct, hopen, State.dictOp, hd, answers]

theorem exec_discard_refused (h : Ready s p) (hd : (fresh s).discardOp p d = (e, fresh s)) :
    exec (.discard p d) s = .next (refused s p e) := by
  rw [← answers_fresh h.1]
  exact exec_discard_answers h hd

/-- A COMMIT that is answered at once. -/
theorem exec_commit_answers (h : Ready s p) (hc : (fresh s).commitOp p d true = (some e, u)) :
    exec (.commit p d) s = .next (answers s p e u) := by
  obtain ⟨hrun, hopen⟩ := h
  rw [exec_commit, execCommit, live_ran hrun]
  simp [State.direct, hopen, State.dictOp, hc, answers]

theorem exec_commit_refused (h : Ready s p) (hc : (fresh s).commitOp p d true = (some e, fresh s)) :
    exec (.commit p d) s = .next (refused s p e) := by
  rw [← answers_fresh h.1]
  exact exec_commit_answers h hc

/-- A COMMIT whose groups begin VALIDATING has no answer yet. -/
theorem exec_commit_waits (h : Ready s p) (hc : (fresh s).commitOp p d true = (none, u)) :
    exec (.commit p d) s = .next (ran s u) := by
  obtain ⟨hrun, hopen⟩ := h
  rw [exec_commit, execCommit, live_ran hrun]
  simp [State.direct, hopen, State.dictOp, hc]

end

/-! ### DISCARD (R43) -/

section
variable {s : State} {p : Path} {g : Nat} {d : List Byte}

theorem byteAt_group (g : Fin 256) : byteAt [nb g.val] 0 = g.val := by
  simp [byteAt, nb]

theorem State.discardOp_type (h : d.length ≠ 1) : s.discardOp p d = (Err.type, s) := by
  simp [State.discardOp, h]

theorem State.discardOp_range (h : d.length = 1) (hg : isGroup (byteAt d 0) = false) :
    s.discardOp p d = (Err.range, s) := by
  simp [State.discardOp, h, hg]

theorem State.discardOp_leased (h : d.length = 1) (hg : isGroup (byteAt d 0) = true)
    (hl : s.leasedAway p (byteAt d 0 / 16) = true) : s.discardOp p d = (Err.leased, s) := by
  simp [State.discardOp, h, hg, hl]

/-- A DISCARD of a group that no other holder leases goes by the group's state. -/
theorem State.discardOp_group (h : d.length = 1) (hb : byteAt d 0 = g) (hg : isGroup g = true)
    (hl : s.leasedAway p (g / 16) = false) :
    s.discardOp p d =
      if s.groupBusy g = true then (Err.commitBusy, s)
      else if s.groupSt g = gDirty then (Err.ok, s.discardGroup g)
      else if s.groupSt g = gRetiring then (Err.ok, (s.emptyShadow g).set (O.GROUP_SHADOW_DIRTY g) 0)
      else (Err.ok, s) := by
  simp [State.discardOp, h, hb, hg, hl]

theorem State.groupBusy_dirty (h : s.groupSt g = gDirty) : s.groupBusy g = false := by
  simp [State.groupBusy, h, gDirty, gValidating, gFlipping]

theorem State.groupBusy_retiring (h : s.groupSt g = gRetiring) : s.groupBusy g = false := by
  simp [State.groupBusy, h, gRetiring, gValidating, gFlipping]

theorem State.groupBusy_clean (h : s.groupSt g = gClean) : s.groupBusy g = false := by
  simp [State.groupBusy, h, gClean, gValidating, gFlipping]

theorem State.discardOp_busy (h : d.length = 1) (hb : byteAt d 0 = g) (hg : isGroup g = true)
    (hl : s.leasedAway p (g / 16) = false) (hs : s.groupBusy g = true) : s.discardOp p d = (Err.commitBusy, s) := by
  rw [State.discardOp_group h hb hg hl, if_pos hs]

theorem State.discardOp_dirty (h : d.length = 1) (hb : byteAt d 0 = g) (hg : isGroup g = true)
    (hl : s.leasedAway p (g / 16) = false) (hs : s.groupSt g = gDirty) :
    s.discardOp p d = (Err.ok, s.discardGroup g) := by
  rw [State.discardOp_group h hb hg hl, State.groupBusy_dirty hs, if_neg Bool.false_ne_true, if_pos hs]

theorem State.discardOp_retiring (h : d.length = 1) (hb : byteAt d 0 = g) (hg : isGroup g = true)
    (hl : s.leasedAway p (g / 16) = false) (hs : s.groupSt g = gRetiring) :
    s.discardOp p d = (Err.ok, (s.emptyShadow g).set (O.GROUP_SHADOW_DIRTY g) 0) := by
  rw [State.discardOp_group h hb hg hl, State.groupBusy_retiring hs, if_neg Bool.false_ne_true, hs,
    if_neg (by decide), if_pos rfl]

theorem State.discardOp_clean (h : d.length = 1) (hb : byteAt d 0 = g) (hg : isGroup g = true)
    (hl : s.leasedAway p (g / 16) = false) (hs : s.groupSt g = gClean) : s.discardOp p d = (Err.ok, s) := by
  rw [State.discardOp_group h hb hg hl, State.groupBusy_clean hs, if_neg Bool.false_ne_true, hs,
    if_neg (by decide), if_neg (by decide)]

/-! ### What the moves leave -/

theorem State.mem_emptyShadow {e : OKey × Nat} (h : e ∈ (s.emptyShadow g).dict.shadow) :
    groupOf e.1.ref ≠ some g := by
  simpa using (List.mem_filter.1 h).2

@[simp] theorem State.groupSt_discardGroup (s : State) (g : Nat) : (s.discardGroup g).groupSt g = gClean :=
  State.get_set_same _ _ _ _

theorem State.get_discardGroup_other (s : State) {g : Nat} {r : Ref} (e : Nat) (h : r ≠ O.GROUP_STATE g) :
    (s.discardGroup g).get r e = s.get r e :=
  State.get_set_other _ _ _ _ (.inl h)

theorem groupState_ne {g h : Nat} (hgh : h ≠ g) : O.GROUP_STATE h ≠ O.GROUP_STATE g := by
  simp [hgh]

/-- Putting groups into a state, one after the other. -/
theorem State.groupSt_each_set (s : State) (l : List Nat) (v g : Nat) :
    (s.each l fun u h => u.set (O.GROUP_STATE h) v).groupSt g = if g ∈ l then v else s.groupSt g := by
  induction l generalizing s with
  | nil => rfl
  | cons h l ih =>
    refine (ih _).trans ?_
    by_cases hgh : g = h
    · simp [hgh, State.groupSt]
    · have hset : (s.set (O.GROUP_STATE h) v).groupSt g = s.groupSt g :=
        State.get_set_other _ _ _ _ (.inl (groupState_ne hgh))
      simp [hgh, hset]

/-- Writing objects one after the other changes nothing but the objects. -/
theorem State.each_set_eq {β : Type} (s : State) (l : List β) (r : β → Ref) (v : β → Nat) :
    s.each l (fun u x => u.set (r x) (v x)) =
      { s with dict := { s.dict with objs := (s.each l fun u x => u.set (r x) (v x)).dict.objs } } := by
  induction l generalizing s with
  | nil => rfl
  | cons x l ih => exact ih (s.set (r x) (v x))

@[simp] theorem State.lastError_out (s : State) (gs : List Nat) (err : Nat) : (s.lastError gs err).out = s.out := by
  rw [State.lastError, State.each_set_eq]

end

/-! ### COMMIT (R46) -/

section
variable {s : State} {p : Path} {d : List Byte} {direct : Bool}

/-- The entry of a COMMIT whose groups begin VALIDATING. -/
def State.newCommit (s : State) (p : Path) (d : List Byte) (direct : Bool) : Commit :=
  ⟨s.dict.nextId, namedIn d, (namedIn d).filter fun h => s.groupSt h == gDirty, .validating, [], [], p, [], [], direct⟩

/-- A COMMIT under way is entered, and its groups begin VALIDATING. -/
def State.beginCommit (s : State) (c : Commit) : State :=
  State.each { s with dict := { s.dict with commits := s.dict.commits ++ [c], nextId := s.dict.nextId + 1 } } c.groups
    fun u h => u.set (O.GROUP_STATE h) gValidating

theorem State.commitOp_type (h : d.length ≠ 32) : s.commitOp p d direct = (some Err.type, s) := by
  simp [State.commitOp, h]

theorem State.commitOp_range (h : d.length = 32) (hg : ∃ h ∈ namedIn d, isGroup h = false) :
    s.commitOp p d direct = (some Err.range, s.lastError (namedIn d) Err.range) := by
  have hany : (namedIn d).any (!isGroup ·) = true := by simpa using hg
  simp only [State.commitOp, h, hany, ne_eq, not_true_eq_false, if_false, if_true]

theorem any_notGroup_eq_false (hg : ∀ h ∈ namedIn d, isGroup h = true) : (namedIn d).any (!isGroup ·) = false := by
  simpa using hg

theorem State.commitOp_leased (h : d.length = 32) (hg : ∀ h ∈ namedIn d, isGroup h = true)
    (hl : ∃ h ∈ namedIn d, s.leasedAway p (h / 16) = true) :
    s.commitOp p d direct = (some Err.leased, s.lastError (namedIn d) Err.leased) := by
  have hany : ((namedIn d).any fun g => s.leasedAway p (g / 16)) = true := by simpa using hl
  simp only [State.commitOp, h, any_notGroup_eq_false hg, hany, ne_eq, not_true_eq_false, if_false, if_true,
    Bool.false_eq_true]

/-- A COMMIT of groups that no other holder leases goes by the groups' states. -/
theorem State.commitOp_groups (h : d.length = 32)
    (hg : ∀ h ∈ namedIn d, isGroup h = true ∧ s.leasedAway p (h / 16) = false) :
    s.commitOp p d direct =
      if (namedIn d).any (fun h => s.groupBusy h || s.groupSt h == gRetiring) = true then
        (some Err.commitBusy, s.lastError (namedIn d) Err.commitBusy)
      else if (s.newCommit p d direct).groups = [] then (some Err.ok, s)
      else (none, s.beginCommit (s.newCommit p d direct)) := by
  have hl : ((namedIn d).any fun g => s.leasedAway p (g / 16)) = false := by simpa using fun h hh => (hg h hh).2
  simp only [State.commitOp, h, any_notGroup_eq_false fun h hh => (hg h hh).1, hl, ne_eq, not_true_eq_false, if_false,
    Bool.false_eq_true]
  rfl

theorem State.commitOp_busy (h : d.length = 32)
    (hg : ∀ h ∈ namedIn d, isGroup h = true ∧ s.leasedAway p (h / 16) = false)
    (hb : ∃ h ∈ namedIn d, s.groupBusy h = true ∨ s.groupSt h = gRetiring) :
    s.commitOp p d direct = (some Err.commitBusy, s.lastError (namedIn d) Err.commitBusy) := by
  rw [State.commitOp_groups h hg, if_pos (by simpa using hb)]

theorem State.any_busy_eq_false {l : List Nat} (hs : ∀ h ∈ l, s.groupSt h = gClean ∨ s.groupSt h = gDirty) :
    ¬ l.any (fun h => s.groupBusy h || s.groupSt h == gRetiring) = true := by
  simp only [List.any_eq_true, Bool.or_eq_true, beq_iff_eq, not_exists, not_and, not_or]
  intro h hh
  rcases hs h hh with hst | hst
  · simp [State.groupBusy_clean hst, hst, gClean, gRetiring]
  · simp [State.groupBusy_dirty hst, hst, gDirty, gRetiring]

theorem State.commitOp_clean (h : d.length = 32)
    (hg : ∀ h ∈ namedIn d, isGroup h = true ∧ s.leasedAway p (h / 16) = false)
    (hs : ∀ h ∈ namedIn d, s.groupSt h = gClean) : s.commitOp p d direct = (some Err.ok, s) := by
  have hnone : (s.newCommit p d direct).groups = [] :=
    List.filter_eq_nil_iff.2 fun h hh => by simp [hs h hh, gClean, gDirty]
  rw [State.commitOp_groups h hg, if_neg (State.any_busy_eq_false fun h hh => .inl (hs h hh)), if_pos hnone]

theorem State.commitOp_dirty (h : d.length = 32)
    (hg : ∀ h ∈ namedIn d, isGroup h = true ∧ s.leasedAway p (h / 16) = false)
    (hs : ∀ h ∈ namedIn d, s.groupSt h = gClean ∨ s.groupSt h = gDirty) (hd : ∃ h ∈ namedIn d, s.groupSt h = gDirty) :
    s.commitOp p d direct = (none, s.beginCommit (s.newCommit p d direct)) := by
  have hsome : (s.newCommit p d direct).groups ≠ [] := by
    obtain ⟨h, hh, hst⟩ := hd
    exact List.ne_nil_of_mem (List.mem_filter.2 ⟨hh, by simpa using hst⟩)
  rw [State.commitOp_groups h hg, if_neg (State.any_busy_eq_false hs), if_neg hsome]

theorem State.beginCommit_out (s : State) (c : Commit) : (s.beginCommit c).out = s.out := by
  rw [State.beginCommit, State.each_set_eq]

theorem State.beginCommit_shadow (s : State) (c : Commit) : (s.beginCommit c).dict.shadow = s.dict.shadow := by
  rw [State.beginCommit, State.each_set_eq]

theorem State.beginCommit_commits (s : State) (c : Commit) : (s.beginCommit c).dict.commits = s.dict.commits ++ [c] := by
  rw [State.beginCommit, State.each_set_eq]

theorem State.groupSt_beginCommit (s : State) (c : Commit) (g : Nat) :
    (s.beginCommit c).groupSt g = if g ∈ c.groups then gValidating else s.groupSt g :=
  State.groupSt_each_set _ _ _ _

theorem State.mem_newCommit {g : Nat} : g ∈ (s.newCommit p d direct).groups ↔ g ∈ namedIn d ∧ s.groupSt g = gDirty := by
  simp [State.newCommit, List.mem_filter]

end

/-! ### The end of VALIDATING (R43, R46) -/

section
variable {s : State} {g : Nat} {c : Commit} {t : Tile}

/-- A group of a refused commit is DIRTY again, or discarded where its lease has ended. -/
def State.dirtyAgain (s : State) (c : Commit) (g : Nat) : State :=
  if c.toDrop.contains g then s.discardGroup g else s.set (O.GROUP_STATE g) gDirty

/-- The state that a refused commit leaves: OBJ_COMMIT_REFUSED is raised. -/
def State.refuseCommit (s : State) (c : Commit) : State :=
  State.raise (State.each ((s.dropCommit c).lastError c.named Err.inconsistent) c.groups fun u g => u.dirtyAgain c g) 0xBA5

/-- The groups of a commit whose rules all hold enter FLIPPING. -/
def State.beginFlip (s : State) (c : Commit) : State :=
  State.each (s.putCommit { c with phase := .flipping }) c.groups fun u h => u.set (O.GROUP_STATE h) gFlipping

theorem State.validated_refused {k : Nat} (h : s.firstBad c.named c.paled = some k) :
    s.validated c = (some (c, Err.inconsistent, [nb k]), s.refuseCommit c) := by
  simp only [State.validated, h]
  rfl

theorem State.validated_flips (h : s.firstBad c.named c.paled = none) :
    s.validated c = if c.groups.any tileUsed then (none, s.beginFlip c)
      else (some ({ c with phase := .flipping }, Err.ok, []), (s.beginFlip c).enterRetiring { c with phase := .flipping }) := by
  simp only [State.validated, h]
  rfl

theorem State.answered_direct {next : State → Nat → State} {a : Answer} (h : a.1.direct = true) :
    s.answered next a = s.emit (.answer a.1.path a.2.1 a.2.2) := by
  simp only [State.answered, h, if_true]

@[simp] theorem State.dirtyAgain_out (s : State) (c : Commit) (g : Nat) : (s.dirtyAgain c g).out = s.out := by
  unfold State.dirtyAgain
  split <;> rfl

theorem State.groupSt_dirtyAgain (s : State) {c : Commit} {h : Nat} (hd : h ∉ c.toDrop) (k : Nat) :
    (s.dirtyAgain c k).groupSt h = if h = k then gDirty else s.groupSt h := by
  unfold State.dirtyAgain
  by_cases hk : h = k
  · subst hk
    rw [if_neg (by simpa using hd), if_pos rfl]
    exact State.get_set_same _ _ _ _
  · rw [if_neg hk]
    split
    · exact State.get_discardGroup_other _ _ (groupState_ne hk)
    · exact State.get_set_other _ _ _ _ (.inl (groupState_ne hk))

theorem State.groupSt_each_dirtyAgain {l : List Nat} {h : Nat} (hd : h ∉ c.toDrop)
    (hs : h ∈ l ∨ s.groupSt h = gDirty) : (s.each l fun u g => u.dirtyAgain c g).groupSt h = gDirty := by
  induction l generalizing s with
  | nil => exact hs.resolve_left List.not_mem_nil
  | cons k l ih =>
    refine ih ?_
    rw [State.groupSt_dirtyAgain _ hd]
    by_cases hk : h = k
    · simp [hk]
    · simpa [hk] using hs

/-- A group that is not to be discarded is DIRTY again. -/
theorem State.groupSt_refuseCommit {h : Nat} (hg : h ∈ c.groups) (hd : h ∉ c.toDrop) :
    (s.refuseCommit c).groupSt h = gDirty :=
  State.groupSt_each_dirtyAgain hd (.inl hg)

theorem State.refuseCommit_out (s : State) (c : Commit) : (s.refuseCommit c).out = s.out :=
  State.each_keeps (fun u => u.out = s.out) _ _ (fun _ _ _ hu => (State.dirtyAgain_out _ _ _).trans hu) _
    (State.lastError_out _ _ _)

theorem State.beginFlip_out (s : State) (c : Commit) : (s.beginFlip c).out = s.out := by
  rw [State.beginFlip, State.each_set_eq]
  rfl

theorem State.beginFlip_shadow (s : State) (c : Commit) : (s.beginFlip c).dict.shadow = s.dict.shadow := by
  rw [State.beginFlip, State.each_set_eq]
  rfl

theorem State.groupSt_beginFlip {h : Nat} (hg : h ∈ c.groups) : (s.beginFlip c).groupSt h = gFlipping :=
  (State.groupSt_each_set _ _ _ _).trans (if_pos hg)

theorem exec_commitValidationDone_ran {g : Fin 256} (h : Runs s) (hc : s.commitIn .validating g = some c) :
    exec (.commitValidationDone g) s = .next (ran s (State.deliverTo ((fresh s).validated c))) := by
  have hc' : (fresh s).commitIn .validating g = some c := hc
  rw [exec_commitValidationDone, execCommitValidationDone, live_ran h]
  simp only [hc']

/-! ### The flip of a tile (R44) -/

theorem exec_tileEpochFlip_ran {g : Fin 256} (h : Runs s) (hc : s.commitIn .flipping g = some c) :
    exec (.tileEpochFlip t g) s = .next (ran s (State.deliverTo ((fresh s).tileFlips t c))) := by
  have hc' : (fresh s).commitIn .flipping g = some c := hc
  rw [exec_tileEpochFlip, execTileEpochFlip, live_ran h]
  simp only [hc']

/-- The commit with one more tile that has flipped. -/
def Commit.flip (c : Commit) (t : Nat) : Commit := { c with flipped := insNat t c.flipped }

/-- The state once a tile that flips is noted in its commit; it leaves Pale service where the commit ends its reload. -/
def State.noteFlip (s : State) (t : Nat) (c : Commit) : State :=
  if c.groups.contains (tileGroup t) = true ∧ s.getS (O.TILE_FULL t) = 1 ∧ s.get (O.TILE_FULL t) = 0 then
    (s.putCommit (c.flip t)).leavePale t
  else s.putCommit (c.flip t)

theorem State.tileFlips_again {t : Nat} (h : c.flipped.contains t = true) : s.tileFlips t c = (none, s) := by
  simp only [State.tileFlips, h, if_true]

/-- A tile that is not the last to flip. -/
theorem State.tileFlips_more {t : Nat} (h : c.flipped.contains t = false) (hn : (c.flip t).flipped.length < 32) :
    s.tileFlips t c = (none, s.noteFlip t c) := by
  simp only [State.tileFlips, h, Bool.false_eq_true, if_false, Bool.and_eq_true, beq_iff_eq, and_assoc]
  exact if_pos hn

/-- With the last tile the groups enter RETIRING. -/
theorem State.tileFlips_last {t : Nat} (h : c.flipped.contains t = false) (hn : 32 ≤ (c.flip t).flipped.length) :
    s.tileFlips t c = (some (c.flip t, Err.ok, []), (s.noteFlip t c).enterRetiring (c.flip t)) := by
  simp only [State.tileFlips, h, Bool.false_eq_true, if_false, Bool.and_eq_true, beq_iff_eq, and_assoc]
  exact if_neg (not_lt.2 hn)

theorem State.noteFlip_other {t : Nat} (h : c.groups.contains (tileGroup t) = false) :
    s.noteFlip t c = s.putCommit (c.flip t) :=
  if_neg fun hc => Bool.false_ne_true (h.symm.trans hc.1)

/-- A commit that a search accepts, put in the place of the one it found by their number, is the one it finds. -/
theorem find?_putCommit {l : List Commit} {q : Commit → Bool} {k : Commit} (h : l.find? q = some c) (hk : q k = true)
    (hi : k.id = c.id) : (l.map fun d => if d.id = k.id then k else d).find? q = some k := by
  induction l with
  | nil => cases h
  | cons d l ih =>
    rw [List.map_cons]
    by_cases hd : d.id = k.id
    · rw [if_pos hd]
      exact List.find?_cons_of_pos hk
    · have hn : ¬ q d = true := fun hn => by
        rw [List.find?_cons_of_pos hn] at h
        cases h
        exact hd hi.symm
      rw [if_neg hd, List.find?_cons_of_neg hn]
      rw [List.find?_cons_of_neg hn] at h
      exact ih h

/-- Of a commit in the same phase and with the same groups. -/
theorem State.commitIn_putCommit {k : Commit} {ph : CPhase} (h : s.commitIn ph g = some c) (hi : k.id = c.id)
    (hp : k.phase = c.phase) (hg : k.groups = c.groups) : (s.putCommit k).commitIn ph g = some k := by
  refine find?_putCommit h ?_ hi
  rw [hp, hg]
  exact List.find?_some (p := fun c : Commit => c.phase == ph && c.groups.contains g) h

end

end Sys2Proof.Machine

open Sys2Proof Sys2Proof.Machine

/-- Settles O21: DISCARD and COMMIT go by the states of their groups; the end of VALIDATING and the flip of a tile are
the moves `refuseCommit`, `beginFlip` and `noteFlip`, whose answer goes to the commit's path. -/
theorem groupsDiscardCommitAndFlip : Obligations.GroupsDiscardCommitAndFlip := by
  intro s p g t d c h
  have hlen : [nb g.val].length = 1 := rfl
  have hbyte := byteAt_group g
  refine ⟨fun hg hl => ?discard, fun hg => ?_, fun hd => exec_discard_refused h (State.discardOp_type hd),
    fun hd hn => ⟨fun hs hx => ?begin, fun hs => ?clean, fun hb => ?busy⟩, fun hd hn => ?range,
    fun hd => exec_commit_refused h (State.commitOp_type hd), fun hc k hk => ?refused,
    fun hc hn => ⟨fun hu => ?flips, fun hu => ?retires⟩, fun hc => ?tile, fun hc hf hg hlt => ?noted⟩
  case discard =>
    refine ⟨fun hst => ?_, fun hst => ?_, fun hst => ?_, fun hst => ?_⟩
    · exact ⟨_, exec_discard_answers h (State.discardOp_dirty (s := fresh s) hlen hbyte hg hl hst), rfl,
        State.groupSt_discardGroup _ _, rfl, fun e he => State.mem_emptyShadow (s := fresh s) he,
        fun r e hr => State.get_discardGroup_other (fresh s) e hr⟩
    · exact ⟨_, exec_discard_answers h (State.discardOp_retiring (s := fresh s) hlen hbyte hg hl hst), rfl,
        (State.get_set_other _ _ _ _ (.inl (by simp))).trans hst, State.get_set_same _ _ _ _, rfl,
        fun e he => State.mem_emptyShadow (s := fresh s) he⟩
    · exact exec_discard_refused h (State.discardOp_clean (s := fresh s) hlen hbyte hg hl hst)
    · exact exec_discard_refused h (State.discardOp_busy (s := fresh s) hlen hbyte hg hl hst)
  case begin =>
    refine ⟨_, exec_commit_waits h (State.commitOp_dirty (s := fresh s) hd hn hs hx), State.beginCommit_out _ _,
      fun k hk hst => ?_, fun k hk => ?_, State.beginCommit_shadow _ _, State.beginCommit_commits _ _⟩
    · exact (State.groupSt_beginCommit _ _ _).trans (if_pos (State.mem_newCommit.2 ⟨hk, hst⟩))
    · exact (State.groupSt_beginCommit _ _ _).trans (if_neg fun hm => hk (State.mem_newCommit.1 hm))
  case clean => exact exec_commit_refused h (State.commitOp_clean (s := fresh s) hd hn hs)
  case busy => exact exec_commit_answers h (State.commitOp_busy (s := fresh s) hd hn hb)
  case range => exact exec_commit_answers h (State.commitOp_range hd hn)
  case refused =>
    have hv : (fresh s).validated c = _ := State.validated_refused (s := fresh s) hk
    have hexec := exec_commitValidationDone_ran h.1 hc
    rw [hv] at hexec
    refine ⟨hexec, fun hdir => ⟨_, hexec, ?_, fun k hk hd => ?_⟩⟩
    · simp only [State.deliverTo, State.answered_direct (a := (c, _)) hdir, ran_out]
      rw [State.emit, State.refuseCommit_out]
      rfl
    · simp only [State.deliverTo, State.answered_direct (a := (c, _)) hdir]
      exact State.groupSt_refuseCommit hk hd
  case flips =>
    have hexec := exec_commitValidationDone_ran h.1 hc
    rw [State.validated_flips (s := fresh s) hn, if_pos hu] at hexec
    exact ⟨_, hexec, State.beginFlip_out _ _, fun k hk => State.groupSt_beginFlip hk, State.beginFlip_shadow _ _⟩
  case retires =>
    have hexec := exec_commitValidationDone_ran h.1 hc
    rw [State.validated_flips (s := fresh s) hn, if_neg (by simp [hu])] at hexec
    exact hexec
  case tile =>
    have hexec := exec_tileEpochFlip_ran (t := t) h.1 hc
    refine ⟨fun hf => ?_, fun hf hlt => ?_, fun hf hge => ?_⟩
    · rw [State.tileFlips_again hf] at hexec
      exact hexec.trans (congrArg _ (ran_fresh h.1))
    · rw [State.tileFlips_more hf hlt] at hexec
      exact hexec
    · rw [State.tileFlips_last hf hge] at hexec
      exact hexec
  case noted =>
    have hexec := exec_tileEpochFlip_ran (t := t) h.1 hc
    rw [State.tileFlips_more hf hlt, State.noteFlip_other hg] at hexec
    exact ⟨_, hexec, rfl, rfl, State.commitIn_putCommit (s := fresh s) hc rfl rfl rfl⟩
  · exact exec_discard_refused h (State.discardOp_range hlen (by rwa [hbyte]))

end

section
/-!
Leases (R62-R65): LEASE and RELEASE as equations of `leaseOp` and `releaseOp`, and what the end of a lease leaves of its
area's groups.
-/
namespace Sys2Proof.Machine

/-! ### Answers -/

section
variable {s u : State} {p : Path} {d b : List Byte} {e : Nat}

/-- A LEASE answers what `leaseOp` answers and leaves its state. -/
theorem exec_lease_answers (h : Ready s p) (hl : (fresh s).leaseOp p d = (e, b, u)) :
    exec (.lease p d) s = .next (ran s (u.emit (.answer p e b))) := by
  obtain ⟨hrun, hopen⟩ := h
  rw [exec_lease, execLease, live_ran hrun]
  simp [State.direct, hopen, State.dictOp, hl]

theorem exec_lease_refused (h : Ready s p) (hl : (fresh s).leaseOp p d = (e, [], fresh s)) :
    exec (.lease p d) s = .next (refused s p e) := by
  rw [exec_lease_answers h hl, ran_emit_fresh h.1]
  rfl

/-- A RELEASE answers the code of `releaseOp` and leaves its state. -/
theorem exec_release_answers (h : Ready s p) (hr : (fresh s).releaseOp p d = (e, u)) :
    exec (.release p d) s = .next (answers s p e u) := by
  obtain ⟨hrun, hopen⟩ := h
  rw [exec_release, execRelease, live_ran hrun]
  simp [State.direct, hopen, State.dictOp, hr, answers]

theorem exec_release_refused (h : Ready s p) (hr : (fresh s).releaseOp p d = (e, fresh s)) :
    exec (.release p d) s = .next (refused s p e) := by
  rw [← answers_fresh h.1]
  exact exec_release_answers h hr

end

/-! ### The data of LEASE and RELEASE -/

theorem byteAt_lease (a : Fin 16) (l : List Byte) : byteAt (nb a.val :: l) 0 = a.val := by
  simp [byteAt, nb, Nat.mod_eq_of_lt (show a.val < 256 by omega)]

theorem leAt_lease (x y : Byte) {n : Nat} (hn : n < 2 ^ 16) : leAt ([x, y] ++ leBytes 2 n) 2 2 = n := by
  simp only [leAt, leBytes, byteAt, nb, List.range_succ, List.range_zero, List.nil_append, List.cons_append, List.map_cons,
    List.map_nil, List.getD_cons_succ, List.getD_cons_zero, leNat, BitVec.toNat_ofNat]
  omega

/-! ### The checks of LEASE and RELEASE -/

section
variable {s : State} {p : Path} {d : List Byte} {a n h : Nat}

theorem State.leaseOp_leased (hl : 1 ≤ byteAt d 0 ∧ byteAt d 0 ≤ 13 ∧ s.leasedAway p (byteAt d 0) = true) :
    s.leaseOp p d = (Err.leased, [], s) := by
  simp only [State.leaseOp, if_pos hl]

theorem State.leaseOp_type (hl : ¬ (1 ≤ byteAt d 0 ∧ byteAt d 0 ≤ 13 ∧ s.leasedAway p (byteAt d 0) = true))
    (hd : d.length ≠ 4) : s.leaseOp p d = (Err.type, [], s) := by
  simp only [State.leaseOp, if_neg hl, if_pos hd]

theorem State.leaseOp_range (hl : ¬ (1 ≤ byteAt d 0 ∧ byteAt d 0 ≤ 13 ∧ s.leasedAway p (byteAt d 0) = true))
    (hd : d.length = 4) (hr : byteAt d 0 = 0 ∨ 13 < byteAt d 0 ∨ leAt d 2 2 = 0 ∨ 600 < leAt d 2 2) :
    s.leaseOp p d = (Err.range, [], s) := by
  simp only [State.leaseOp, if_neg hl, if_neg (not_not.2 hd), if_pos hr]

/-- The firmware and the startup image take no lease (log 27). -/
theorem State.leaseOp_noHolder (hl : s.leasedAway p (byteAt d 0) = false) (hd : d.length = 4)
    (hh : holderOf p = none ∨ holderOf p = some 9) : s.leaseOp p d = (Err.range, [], s) := by
  have hl' : ¬ (1 ≤ byteAt d 0 ∧ byteAt d 0 ≤ 13 ∧ s.leasedAway p (byteAt d 0) = true) := by simp [hl]
  simp only [State.leaseOp, if_neg hl', if_neg (not_not.2 hd)]
  split
  · rfl
  · rcases hh with hh | hh <;> simp only [hh, if_true]

/-- Area `a` leased by holder `h` for `n` seconds. -/
def State.takeLease (s : State) (a n h : Nat) : State :=
  State.set { s with dict := { s.dict with leases := ins ltN a (s.timerNow + ticksOfS n) s.dict.leases } }
    (O.LEASE_HOLDER a) h

theorem State.leaseOp_grants (hh : holderOf p = some h) (h9 : h ≠ 9) (hl : s.leasedAway p a = false) (hd : d.length = 4)
    (hb : byteAt d 0 = a) (hn : leAt d 2 2 = n) (ha : 1 ≤ a) (ha' : a ≤ 13) (hn1 : 1 ≤ n) (hn2 : n ≤ 600) :
    s.leaseOp p d = (Err.ok, leBytes 2 (min n (s.get O.LEASE_MAX)), s.takeLease a (min n (s.get O.LEASE_MAX)) h) := by
  have hr : ¬ (a = 0 ∨ 13 < a ∨ n = 0 ∨ 600 < n) := by omega
  simp only [State.leaseOp, hb, hn, hl, hd, hh, Bool.false_eq_true, and_false, ne_eq, not_true_eq_false, if_false,
    if_neg hr, if_neg h9]
  rfl

theorem State.lease?_takeLease (s : State) (a n h : Nat) :
    (s.takeLease a n h).lease? a = some (s.timerNow + ticksOfS n) :=
  congrArg (Option.map Prod.snd) (find_ins_same ltN a (s.timerNow + ticksOfS n) s.dict.leases)

theorem State.releaseOp_leased (hl : 1 ≤ byteAt d 0 ∧ byteAt d 0 ≤ 13 ∧ s.leasedAway p (byteAt d 0) = true) :
    s.releaseOp p d = (Err.leased, s) := by
  simp only [State.releaseOp, if_pos hl]

theorem State.releaseOp_type (hl : ¬ (1 ≤ byteAt d 0 ∧ byteAt d 0 ≤ 13 ∧ s.leasedAway p (byteAt d 0) = true))
    (hd : d.length ≠ 1) : s.releaseOp p d = (Err.type, s) := by
  simp only [State.releaseOp, if_neg hl, if_pos hd]

theorem State.releaseOp_range (hd : d.length = 1) (ha : byteAt d 0 = 0 ∨ 13 < byteAt d 0) :
    s.releaseOp p d = (Err.range, s) := by
  have hl : ¬ (1 ≤ byteAt d 0 ∧ byteAt d 0 ≤ 13 ∧ s.leasedAway p (byteAt d 0) = true) := by omega
  simp only [State.releaseOp, if_neg hl, if_neg (not_not.2 hd), if_pos ha]

/-- A RELEASE of an area that no other holder leases ends its lease; the firmware's has no effect. -/
theorem State.releaseOp_ok (hl : s.leasedAway p a = false) (hd : d.length = 1) (hb : byteAt d 0 = a) (ha : 1 ≤ a)
    (ha' : a ≤ 13) : s.releaseOp p d = (Err.ok, if holderOf p = none then s else s.leaseEnd a) := by
  have hr : ¬ (a = 0 ∨ 13 < a) := by omega
  simp only [State.releaseOp, hb, hl, hd, Bool.false_eq_true, and_false, ne_eq, not_true_eq_false, if_false, if_neg hr]
  split <;> rfl

theorem State.leasedAway_of_none (hl : s.lease? a = none ∨ holderOf p = none) : s.leasedAway p a = false := by
  unfold State.leasedAway
  split
  · rfl
  · rcases hl with hl | hl
    · simp [hl]
    · simp_all

end

/-! ### The end of a lease (R65) -/

theorem State.leaseGroup_leases (s : State) (g : Nat) : (s.leaseGroup g).dict.leases = s.dict.leases := by
  unfold State.leaseGroup
  dsimp only
  split
  · rfl
  · split
    · split <;> rfl
    · split <;> rfl

theorem State.leaseGroup_out (s : State) (g : Nat) : (s.leaseGroup g).out = s.out := by
  unfold State.leaseGroup
  dsimp only
  split
  · rfl
  · split
    · split <;> rfl
    · split <;> rfl

/-- Of the objects only the group's own state and shadow mark change. -/
theorem State.get_leaseGroup (s : State) {g : Nat} {r : Ref} (e : Nat) (h : r ≠ O.GROUP_STATE g)
    (h' : r ≠ O.GROUP_SHADOW_DIRTY g) : (s.leaseGroup g).get r e = s.get r e := by
  unfold State.leaseGroup
  dsimp only
  split
  · exact State.get_discardGroup_other s e h
  · split
    · split
      · exact State.get_set_other _ _ _ _ (.inl h')
      · rfl
    · split <;> rfl

/-- A DIRTY group is CLEAN, and any other keeps its state. -/
theorem State.groupSt_leaseGroup (s : State) (g : Nat) :
    (s.leaseGroup g).groupSt g = if s.groupSt g = gDirty then gClean else s.groupSt g := by
  unfold State.leaseGroup
  dsimp only
  split
  · exact State.groupSt_discardGroup s g
  · split
    · split
      · exact State.get_set_other _ _ _ _ (.inl (by simp))
      · rfl
    · split <;> rfl

/-- The groups of an area. -/
def areaGroups (a : Nat) : List Nat := ((List.range 16).map (a * 16 + ·)).filter isGroup

theorem mem_areaGroups {a g : Nat} : g ∈ areaGroups a ↔ g / 16 = a ∧ isGroup g = true := by
  simp only [areaGroups, List.mem_filter, List.mem_map, List.mem_range]
  refine and_congr_left fun _ => ⟨fun ⟨i, hi, hg⟩ => by omega, fun hg => ⟨g % 16, by omega, by omega⟩⟩

theorem nodup_areaGroups (a : Nat) : (areaGroups a).Nodup :=
  (List.nodup_range.map fun _ _ h => by omega).filter _

/-- The state once an area has no lease, before its groups are looked at. -/
def State.dropLease (s : State) (a : Nat) : State :=
  (State.set { s with dict := { s.dict with leases := s.dict.leases.filter (·.1 != a) } } (O.LEASE_HOLDER a) 0xFF).raise 0xBC3

theorem State.leaseEnd_none {s : State} {a : Nat} (h : s.lease? a = none) : s.leaseEnd a = s := by
  simp [State.leaseEnd, h]

theorem State.leaseEnd_some {s : State} {a : Nat} (h : (s.lease? a).isSome = true) :
    s.leaseEnd a = (s.dropLease a).each (areaGroups a) State.leaseGroup := by
  have h' : ¬ (s.lease? a).isNone = true := by simpa using Option.isSome_iff_ne_none.1 h
  rw [State.leaseEnd, if_neg h']
  rfl

theorem State.lease?_dropLease (s : State) (a : Nat) : (s.dropLease a).lease? a = none := by
  have h : (s.dict.leases.filter (·.1 != a)).find? (·.1 == a) = none := List.find?_eq_none.2 fun e he => by
    simpa using (List.mem_filter.1 he).2
  exact congrArg (Option.map Prod.snd) h

section
variable {s : State} {a : Nat} (h : (s.lease? a).isSome = true)
include h

theorem State.lease?_leaseEnd : (s.leaseEnd a).lease? a = none := by
  rw [State.leaseEnd_some h, State.lease?, State.each_keeps (fun u => u.dict.leases = (s.dropLease a).dict.leases) _ _
    (fun u g _ hu => (u.leaseGroup_leases g).trans hu) _ rfl]
  exact s.lease?_dropLease a

theorem State.leaseEnd_out : (s.leaseEnd a).out = s.out := by
  rw [State.leaseEnd_some h]
  exact State.each_keeps (fun u => u.out = s.out) _ _ (fun u g _ hu => (u.leaseGroup_out g).trans hu) _ rfl

theorem State.leaseEnd_holder : (s.leaseEnd a).get (O.LEASE_HOLDER a) = 0xFF := by
  rw [State.leaseEnd_some h, State.get_each _ _ _ _ fun u g _ => u.get_leaseGroup _ (by simp) (by simp)]
  exact State.get_set_same _ _ _ _

theorem State.groupSt_leaseEnd {g : Nat} (hg : g / 16 = a) (hi : isGroup g = true) (hs : s.groupSt g = gDirty) :
    (s.leaseEnd a).groupSt g = gClean := by
  have hdrop : (s.dropLease a).groupSt g = gDirty := (State.get_set_other _ _ _ _ (.inl (by simp))).trans hs
  rw [State.leaseEnd_some h, State.each_local State.groupSt (fun _ v => if v = gDirty then gClean else v) _
    State.groupSt_leaseGroup
    (fun u l k hk => u.get_leaseGroup _ (groupState_ne hk) (by simp)) _ (nodup_areaGroups a),
    if_pos (mem_areaGroups.2 ⟨hg, hi⟩), if_pos hdrop]

end

/-! ### The clauses of the statement -/

section
variable {s : State} {p : Path} {a : Fin 16} {h secs : Nat}

theorem lease_grants (hr : Ready s p) (hh : holderOf p = some h) (h9 : h ≠ 9) (ha : 1 ≤ a.val) (ha' : a.val ≤ 13)
    (hn1 : 1 ≤ secs) (hn2 : secs ≤ 600) (hl : s.leasedAway p a = false) :
    exec (.lease p ([nb a, 0] ++ leBytes 2 secs)) s =
      .next (ran s (((fresh s).takeLease a (min secs (s.get O.LEASE_MAX)) h).emit
        (.answer p Err.ok (leBytes 2 (min secs (s.get O.LEASE_MAX)))))) :=
  exec_lease_answers hr (State.leaseOp_grants (s := fresh s) hh h9 hl rfl (byteAt_lease a _)
    (leAt_lease _ _ (by omega)) ha ha' hn1 hn2)

theorem lease_range (hr : Ready s p) (hl : a.val = 0 ∨ 13 < a.val ∨ s.leasedAway p a = false)
    (hn : a.val = 0 ∨ 13 < a.val ∨ (secs = 0 ∨ 600 < secs) ∧ secs < 2 ^ 16) :
    exec (.lease p ([nb a, 0] ++ leBytes 2 secs)) s = .next (refused s p Err.range) := by
  have hb : byteAt ([nb a.val, 0] ++ leBytes 2 secs) 0 = a.val := byteAt_lease a _
  refine exec_lease_refused hr (State.leaseOp_range ?_ rfl ?_)
  · rw [hb]
    rintro ⟨h1, h2, h3⟩
    rcases hl with hl | hl | hl
    · omega
    · omega
    · exact Bool.false_ne_true (hl.symm.trans h3)
  · rw [hb]
    rcases hn with hn | hn | ⟨hn, hlt⟩
    · exact .inl hn
    · exact .inr (.inl hn)
    · rw [leAt_lease _ _ hlt]
      exact .inr (.inr hn)

/-- RELEASE of an area that no other holder leases. -/
theorem release_ok (hr : Ready s p) (ha : 1 ≤ a.val) (ha' : a.val ≤ 13) (hl : s.leasedAway p a = false) :
    exec (.release p [nb a]) s =
      .next (answers s p Err.ok (if holderOf p = none then fresh s else (fresh s).leaseEnd a)) :=
  exec_release_answers hr (State.releaseOp_ok (s := fresh s) hl rfl (byteAt_lease a _) ha ha')

end

end Sys2Proof.Machine

open Sys2Proof Sys2Proof.Machine

/-- Settles O22: the checks of `leaseOp` and `releaseOp` in their order; the end of a lease drops it and its holder and
visits the area's groups one by one. -/
theorem leasesBeginAndEnd : Obligations.LeasesBeginAndEnd := by
  intro s p a h secs d g hr
  refine ⟨fun hh h9 ha ha' hn1 hn2 hl => ?grants, fun hl => ⟨exec_lease_refused hr (State.leaseOp_leased hl),
      exec_release_refused hr (State.releaseOp_leased hl)⟩,
    fun hl hd => exec_lease_refused hr (State.leaseOp_type hl hd),
    fun hl hd => exec_release_refused hr (State.releaseOp_type hl hd),
    fun ha => ⟨lease_range hr (by tauto) (by tauto), exec_release_refused hr (State.releaseOp_range rfl ?outside)⟩,
    fun hl hn hlt => lease_range hr (.inr (.inr hl)) (.inr (.inr ⟨hn, hlt⟩)),
    fun hh hl => exec_lease_refused hr (State.leaseOp_noHolder ?area rfl hh),
    fun hh ha ha' hl hs => ?release, fun ha ha' hn => ?nothing, fun hs ht => ?expire,
    fun hg hl => exec_discard_refused hr (State.discardOp_leased rfl ?group ?leased),
    fun hd hg hl => exec_commit_answers hr (State.commitOp_leased hd hg hl)⟩
  case grants =>
    refine ⟨_, lease_grants hr hh h9 ha ha' hn1 hn2 hl, rfl, State.get_set_same _ _ _ _, State.lease?_takeLease _ _ _ _,
      fun r e hne => State.get_set_other _ _ _ _ (.inl hne)⟩
  case outside => rwa [byteAt_lease]
  case area => rwa [show byteAt ([nb a.val, 0] ++ leBytes 2 secs) 0 = a.val from byteAt_lease a _]
  case release =>
    have hexec := release_ok hr ha ha' hl
    rw [if_neg (by simp [hh])] at hexec
    exact ⟨_, hexec, congrArg (· ++ _) (State.leaseEnd_out (s := fresh s) hs), State.lease?_leaseEnd (s := fresh s) hs,
      State.leaseEnd_holder (s := fresh s) hs, fun hg hi hst => State.groupSt_leaseEnd (s := fresh s) hs hg hi hst⟩
  case nothing =>
    have hexec := release_ok hr ha ha' (State.leasedAway_of_none hn)
    have hsame : (if holderOf p = none then fresh s else (fresh s).leaseEnd a) = fresh s := by
      split
      · rfl
      · exact State.leaseEnd_none (s := fresh s) (hn.resolve_right ‹_›)
    rw [hsame, answers_fresh hr.1] at hexec
    exact hexec
  case expire =>
    have hexec : exec (.leaseExpire a) s = .next (ran s ((fresh s).leaseEnd a)) := by
      obtain ⟨n, hn⟩ := Option.isSome_iff_exists.1 hs
      rw [exec_leaseExpire, execLeaseExpire, live_ran hr.1]
      have hn' : (fresh s).lease? a = some n := hn
      have ht' : (fresh s).timersRun = true := ht
      simp only [hn', ht', if_true]
    exact ⟨_, hexec, State.lease?_leaseEnd (s := fresh s) hs, State.leaseEnd_holder (s := fresh s) hs,
      fun hg hi hst => State.groupSt_leaseEnd (s := fresh s) hs hg hi hst⟩
  case group => rwa [byteAt_group]
  case leased => rwa [byteAt_group]

end

section
/-!
The object windows and the management ports (R48-R53): reads and writes of a window's registers, the end of a window
operation, and frames that are not Bolsy.
-/
namespace Sys2Proof.Machine

/-! ### Windows -/

section
variable {s : State} {w : Window} {off n : Nat} {o : WinOp} {a : Nat × List Byte}

@[simp] theorem ran_win (s u : State) (w : Nat) : (ran s u).win w = u.win w := rfl
@[simp] theorem State.win_raise (s : State) (n w : Nat) : (s.raise n).win w = s.win w := rfl
@[simp] theorem State.putWin_irq (s : State) (w : Nat) (x : Win) : (s.putWin w x).irq = s.irq := rfl

@[simp] theorem State.win_putWin (s : State) (w : Window) (x : Win) : (s.putWin w x).win w = x := by
  rw [State.win, State.putWin, getD_slots, if_pos w.isLt, if_pos rfl]

/-- A write of OW_CMD of a window that is not BUSY: the operation starts and is put last. -/
theorem State.winWrite_cmd (h : (s.win w).op = none) (v : Nat) (wide : Bool) :
    s.winWrite w 0x010 v wide =
      let u := s.putWin w { s.win w with overrun := false, op := some ⟨v % 16, v / 65536, bit v 8, false, none⟩ }
      { u with dict := { u.dict with winOrder := u.dict.winOrder ++ [w.val] } } := by
  simp [State.winWrite, h]

/-- A write of a register of a BUSY window sets the overrun bit. -/
theorem State.winWrite_busy (h : (s.win w).op.isSome = true) (off v : Nat) (wide : Bool) :
    s.winWrite w off v wide = s.putWin w { s.win w with overrun := true } := by
  simp only [State.winWrite, h, if_true]

/-- A 32-bit write of OW_CMD reaches the window. -/
theorem State.barWrite_cmd (h : off = 0x20000 + w.val * 0x1000 + 0x010) (v : Nat) :
    s.barWrite off v false = s.winWrite w 0x010 v false := by
  have hw := w.isLt
  have halign : off % 4 = 0 := by omega
  have hwin : (off - 0x20000) / 0x1000 = w.val := by omega
  have hreg : off % 0x1000 = 0x010 := by omega
  have hrange : 0x20000 ≤ off ∧ off < 0x24000 := by omega
  simp only [State.barWrite, Bool.false_eq_true, if_false, halign, ne_eq, not_true_eq_false, if_pos hrange, hwin, hreg,
    State.winReg]
  exact if_neg (by decide)

theorem Win.status_eq (x : Win) : x.status =
    (if x.op.isSome then 1 else 0) + (if x.overrun then 2 else 0) + 256 * (x.err % 256) + 65536 * x.tag := by
  have h : 2 * b01 x.overrun = if x.overrun then 2 else 0 := by cases x.overrun <;> rfl
  rw [Win.status, h, b01]

/-- A 32-bit read of OW_STATUS answers it. -/
theorem State.barRead_status (h : off = 0x20000 + w.val * 0x1000 + 0x014) :
    s.barRead off false = s.barAnswer (s.win w).status := by
  have hw := w.isLt
  have halign : off % 4 = 0 := by omega
  have hwin : (off - 0x20000) / 0x1000 = w.val := by omega
  have hreg : off % 0x1000 = 0x014 := by omega
  have hrange : 0x20000 ≤ off ∧ off < 0x24000 := by omega
  have hres : barReserved off = false := by
    rw [barReserved, if_pos hrange, hreg]
    decide
  simp only [State.barRead, hres, Bool.false_eq_true, false_and, if_false, halign, ne_eq, not_true_eq_false,
    if_pos hrange, hwin, hreg]
  rfl

/-- Nothing keeps a register access from its register. -/
theorem registerWrite_open (hi : s.sys.initDone = true) (hh : s.hostReaches = true) (hd : s.host.d3hot = false) :
    (!(fresh s).sys.initDone || !(fresh s).hostReaches || (fresh s).host.d3hot) = false := by
  have hh' : (fresh s).hostReaches = true := hh
  simp [hi, hh', hd]

theorem exec_registerWrite_write {at_ : Fin 1048576} (hr : Runs s) (hi : s.sys.initDone = true)
    (hh : s.hostReaches = true) (hd : s.host.d3hot = false) (wide : Bool) (v : BitVec 64) :
    exec (.registerWrite at_ wide (.write v)) s =
      .next (ran s ((fresh s).barWrite at_ (if wide then v.toNat else v.toNat % 2 ^ 32) wide)) := by
  rw [exec_registerWrite, execRegisterWrite, live_ran hr, registerWrite_open hi hh hd, if_neg Bool.false_ne_true]
  rfl

theorem exec_registerWrite_read {at_ : Fin 1048576} (hr : Runs s) (hi : s.sys.initDone = true)
    (hh : s.hostReaches = true) (hd : s.host.d3hot = false) (wide : Bool) :
    exec (.registerWrite at_ wide .read) s = .next (ran s ((fresh s).barRead at_ wide)) := by
  rw [exec_registerWrite, execRegisterWrite, live_ran hr, registerWrite_open hi hh hd, if_neg Bool.false_ne_true]

theorem exec_registerWrite_lost {at_ : Fin 1048576} (hr : Runs s)
    (h : s.sys.initDone = false ∨ s.hostReaches = false ∨ s.host.d3hot = true) (wide : Bool) (b : BarAccess) :
    exec (.registerWrite at_ wide b) s = .next (fresh s) := by
  have hoff : (!(fresh s).sys.initDone || !(fresh s).hostReaches || (fresh s).host.d3hot) = true := by
    have hh : (fresh s).hostReaches = s.hostReaches := rfl
    rcases h with h | h | h <;> simp [hh, h]
  rw [exec_registerWrite, execRegisterWrite, live_ran hr, if_pos hoff, ran_fresh hr]

/-! ### The end of a window operation (R50) -/

/-- A window that gets the answer `a` to its operation `o`. -/
def Win.ended (x : Win) (o : WinOp) (a : Nat × List Byte) : Win :=
  let x : Win := if returnsData o.code then
    { x with length := a.2.length, data := patch (padTo 256 x.data) 0 a.2 } else x
  { x with err := a.1, tag := o.tag, op := none }

/-- The window shows the answer, and its source is raised if asked. -/
def State.winEnd (s : State) (w : Nat) (o : WinOp) (a : Nat × List Byte) : State :=
  let s := s.putWin w ((s.win w).ended o a)
  if o.irq then s.raise (0xBA0 + w) else s

theorem State.winDone_answered (h : (s.win w).op = some o) (hs : o.sent = true) (ha : o.answer = some a) :
    s.winDone w = s.winEnd w o a := by
  simp only [State.winDone, State.winEnd, Win.ended, h, hs, if_true, ha]

theorem State.winDone_waits (h : (s.win w).op = some o) (hs : o.sent = true) (ha : o.answer = none) :
    s.winDone w = s := by
  simp only [State.winDone, h, hs, if_true, ha]

/-- The object and the data of a window's operation, and what the dictionary makes of it. -/
def State.winOp (s : State) (w : Window) (o : WinOp) : Option (Nat × List Byte) × State :=
  let x := s.win w
  State.dictOp { s with dict := { s.dict with winOrder := [] } } (.window w) o.code
    ⟨x.index / 65536, x.inst, x.index % 256⟩ x.offset x.length ((padTo 512 x.data).take x.length) false

/-- The window once its operation has reached the dictionary. -/
def State.winSent (s : State) (w : Window) (o : WinOp) : State :=
  let a := s.winOp w o
  a.2.putWin w { a.2.win w with op := some { o with sent := true, answer := a.1 } }

/-- An operation that has not reached the dictionary, the only one that waits, is carried out first. -/
theorem State.winDone_unsent (h : (s.win w).op = some o) (hs : o.sent = false) (hq : s.dict.winOrder = [w.val]) :
    s.winDone w = (s.winSent w o).winDone w := by
  have hw : (Fin.ofNat 4 w.val : Window) = w := Fin.ofNat_val_eq_self w
  have hdrain : s.winDrain w 4 = s.winSent w o := by
    have h' : (State.win { s with dict := { s.dict with winOrder := [] } } w).op = some o := h
    simp only [State.winDrain, hq, if_true, State.winExec, h', hw]
    rfl
  have hop : ((s.winSent w o).win w).op = some { o with sent := true, answer := (s.winOp w o).1 } := by
    rw [State.winSent, State.win_putWin]
  conv_lhs => unfold State.winDone
  conv_rhs => unfold State.winDone
  simp only [h, hs, Bool.false_eq_true, if_false, hdrain, hop, if_true]

@[simp] theorem State.win_winEnd (s : State) (w : Window) (o : WinOp) (a : Nat × List Byte) :
    (s.winEnd w o a).win w = (s.win w).ended o a := by
  unfold State.winEnd
  split
  · rw [State.win_raise, State.win_putWin]
  · exact State.win_putWin _ _ _

theorem State.winEnd_doorbells (s : State) (w : Window) (o : WinOp) (a : Nat × List Byte) :
    (s.winEnd w o a).irq.doorbells = s.irq.doorbells ++ (if o.irq then [0xBA0 + w.val] else []) := by
  unfold State.winEnd
  split
  · simp [State.raise, *]
  · simp [*]

/-- An operation that returns data shows it. -/
theorem Win.ended_data (x : Win) (h : returnsData o.code = true) (ha : a.2.length ≤ 256) :
    (x.ended o a).length = a.2.length ∧ (x.ended o a).data.take a.2.length = a.2 := by
  have hlen : a.2.length ≤ (padTo 256 x.data).length := by
    simp only [padTo, zeros, List.length_append, List.length_replicate]
    omega
  simp [Win.ended, h, patch, List.take_of_length_le hlen]

theorem exec_owOperationDone_ran (hr : Runs s) :
    exec (.owOperationDone w) s = .next (ran s ((fresh s).winDone w)) := by
  rw [exec_owOperationDone, execOwOperationDone, live_ran hr]

end

/-! ### Frames of a management port that are not Bolsy (R53, R403) -/

section
variable {s : State} {m : MgmtPort} {bytes : List Byte}

/-- The management port takes frames. -/
theorem mgmtPort_open (he : s.flag (O.MGMT_ENABLE m) = true) (hm : s.get (O.MGMT_MAC m) ≠ 0)
    (hf : s.sys.fw = .running ∨ s.sys.fw = .switching) :
    ¬ (!(fresh s).flag (O.MGMT_ENABLE m)) = true ∧
      ¬ ((fresh s).get (O.MGMT_MAC m) = 0 ∨ (fresh s).sys.fw ≠ .running ∧ (fresh s).sys.fw ≠ .switching) := by
  simp only [fresh_flag, he, fresh_get]
  tauto

theorem exec_mgmtFrameReceive_answered {b : List Byte} (hr : Runs s) (he : s.flag (O.MGMT_ENABLE m) = true)
    (hm : s.get (O.MGMT_MAC m) ≠ 0) (hf : s.sys.fw = .running ∨ s.sys.fw = .switching)
    (hb : s.mgmtAnswer m bytes = some b) :
    exec (.mgmtFrameReceive m bytes) s =
      .next (ran s ((fresh s).mgmtSend m (mgmtDst bytes) (beAt bytes 12 2) b)) := by
  obtain ⟨he', hm'⟩ := mgmtPort_open he hm hf
  have hb' : (fresh s).mgmtAnswer m bytes = some b := hb
  rw [exec_mgmtFrameReceive, execMgmtFrameReceive, live_ran hr, if_neg he', if_neg hm']
  simp only [hb']

theorem exec_mgmtFrameReceive_dropped (hr : Runs s) (he : s.flag (O.MGMT_ENABLE m) = true)
    (hm : s.get (O.MGMT_MAC m) ≠ 0) (hf : s.sys.fw = .running ∨ s.sys.fw = .switching)
    (hb : s.mgmtAnswer m bytes = none) (hn : s.resolves m bytes = false) :
    exec (.mgmtFrameReceive m bytes) s = .next (ran s ((fresh s).bolsyDrop 9)) := by
  obtain ⟨he', hm'⟩ := mgmtPort_open he hm hf
  have hb' : (fresh s).mgmtAnswer m bytes = none := hb
  have hn' : (fresh s).resolves m bytes = false := hn
  rw [exec_mgmtFrameReceive, execMgmtFrameReceive, live_ran hr, if_neg he', if_neg hm']
  simp only [hb', hn', Bool.false_eq_true, if_false]

/-- A drop that is no failed tag or cookie is counted, and nothing else. -/
theorem State.bolsyDrop_of_ne (s : State) {k : Nat} (h : k ≠ 2) : s.bolsyDrop k = s.count64 (O.BOLSY_DROPS k) :=
  if_neg fun hk => h hk.1

end

end Sys2Proof.Machine

open Sys2Proof Sys2Proof.Machine

/-- Settles O23: an access that reaches its register of a window reads or writes that window alone; `winDone` carries an
operation out where that is still to do and ends it with its answer; a frame is answered or dropped by `mgmtAnswer`. -/
theorem windowsAndManagementFrames : Obligations.WindowsAndManagementFrames := by
  intro s w off v m bytes hr
  refine ⟨fun wide hi hh hd => ⟨exec_registerWrite_write hr hi hh hd wide v, exec_registerWrite_read hr hi hh hd wide⟩,
    fun wide a h => exec_registerWrite_lost hr h wide a, fun hi hh hd ho => ?status, fun hi hh hd ho hv hop => ?start,
    fun hi hh hd ho hop => ?busy, fun o u hop hs hq => ⟨fun a hx => ?carried, fun hx => ?later⟩,
    fun o a hop hs ha => ?ended, ?secret, fun he hm hf => ⟨fun b hb => ?answered, fun hb hn => ?dropped⟩⟩
  case status =>
    rw [exec_registerWrite_read hr hi hh hd, State.barRead_status ho, Win.status_eq]
    exact congrArg _ (ran_emit_fresh hr _)
  case start =>
    refine ⟨_, exec_registerWrite_write hr hi hh hd false v, ?_⟩
    rw [if_neg Bool.false_ne_true, Nat.mod_eq_of_lt hv, State.barWrite_cmd ho, State.winWrite_cmd (s := fresh s) hop]
    exact ⟨State.win_putWin (fresh s) w _, rfl, rfl⟩
  case busy =>
    rw [exec_registerWrite_write hr hi hh hd, State.barWrite_cmd ho, State.winWrite_busy (s := fresh s) hop]
    rfl
  case carried =>
    have hx' : (fresh s).winOp w o = (some a, u) := hx
    have hdone := (State.winDone_unsent (s := fresh s) hop hs hq).trans
      (State.winDone_answered (a := a) (o := { o with sent := true, answer := some a })
        (by simp [State.winSent, hx']) rfl rfl)
    have hexec := exec_owOperationDone_ran (w := w) hr
    rw [hdone] at hexec
    refine ⟨_, hexec, ?_, ?_, ?_, ?_⟩
    · simp [Win.ended]
    · simp [Win.ended]
    · simp [Win.ended]
    · simp [State.winEnd_doorbells, State.winSent, hx']
  case later =>
    have hx' : (fresh s).winOp w o = (none, u) := hx
    have hsent : ((State.winSent (fresh s) w o).win w).op = some { o with sent := true, answer := none } := by
      simp [State.winSent, hx']
    have hexec := exec_owOperationDone_ran (w := w) hr
    rw [State.winDone_unsent (s := fresh s) hop hs hq, State.winDone_waits hsent rfl rfl] at hexec
    exact ⟨_, hexec, hsent⟩
  case ended =>
    have hexec := exec_owOperationDone_ran (w := w) hr
    rw [State.winDone_answered (s := fresh s) hop hs ha] at hexec
    refine ⟨_, hexec, ?_, ?_, ?_, fun hret hlen => ?_, State.winEnd_doorbells _ _ _ _⟩
    · simp [Win.ended]
    · simp [Win.ended]
    · simp [Win.ended]
    · simpa using Win.ended_data ((fresh s).win w) hret hlen
  case secret =>
    exact ⟨_, exec_bolsySecretRollover.trans (live_ran hr _), rfl, rfl⟩
  case answered =>
    rw [exec_mgmtFrameReceive_answered hr he hm hf hb]
    exact congrArg _ (ran_emit_fresh hr _)
  case dropped =>
    refine ⟨_, exec_mgmtFrameReceive_dropped hr he hm hf hb hn, ?_, ?_⟩
    · rw [State.bolsyDrop_of_ne _ (by decide)]
      rfl
    · rw [State.bolsyDrop_of_ne _ (by decide)]
      exact State.get_count64_same _ _ _ _

end

section
/-!
Commands that their object takes (R40), and the entry operations (R160, R165-R167): a write of ENTRY_OP gives its record to
the engine, which starts it where nothing stands before it.
-/
namespace Sys2Proof.Machine

/-! ### A write of a command that its object takes -/

section
variable {s u : State} {p : Path} {a : Ref} {off e : Nat} {d : List Byte} {o : ObjRow}

theorem State.cmdOp_command (hd : cmdFits a o.size d = true) (hr : s.cmdRange a d = true)
    (hb : s.dict.busyTabs.contains a = false) (hc : s.cmdRunning a = false) (hg : s.diagRefuses a false = false) :
    s.cmdOp o a d = s.command a d := by
  simp only [State.cmdOp, hd, hr, hb, hc, hg, Bool.not_true, Bool.false_eq_true, if_false, false_and]

/-- A command object that takes a write answers what its block answers. -/
theorem write_cmd_takes (h : Takes s p a) (hf : Finds s false a o) (ha : o.acc = .cmd)
    (hr : a.idx ≠ 0x5003 ∨ a.sub ≠ 2) (hd : cmdFits a o.size d = true) (hv : s.cmdRange a d = true)
    (hg : s.diagRefuses a false = false) (hc : (fresh s).command a d = (e, u)) :
    exec (.write p a off d) s = .next (answers s p e u) := by
  obtain ⟨hready, hl, hb, hx⟩ := h
  refine exec_write_answers hready ?_
  rw [State.writeOp_eq_cmdOp (s := fresh s) hf ha (State.writeRight_written (by tauto) hr) hl,
    State.cmdOp_command (s := fresh s) hd hv hb hx hg, hc]

/-- A row of an index is found for every unit of its object. -/
theorem finds_of_rowOf {r : ObjRow} {staged : Bool} (hh : (indexRows a.idx).head? = some r)
    (hi : s.hasInst r.insts a.inst = true) (hr : rowOf (indexRows a.idx) a.sub = some o) (hq : a.idx ≠ 0x7001) :
    Finds s staged a o := by
  obtain ⟨rest, hrows⟩ := List.head?_eq_some_iff.1 hh
  rw [hrows] at hr
  simp [Finds, State.locate, hrows, State.reachable, hi, hr, hq]

theorem State.diagRefuses_of_area (h : a.idx / 4096 ≠ 0xE) (b : Bool) : s.diagRefuses a b = false := by
  simp [State.diagRefuses, h]

end

/-! ### Engines -/

section
variable {s u : State} {n x : Nat} {d : Decl} {r : List Byte}

theorem Decl.partition_lt (d : Decl) : d.partition < 16 := Nat.mod_lt _ (by decide)

@[simp] theorem State.eng_putEng (s : State) {x : Nat} (h : x < 16) (e : EngX) : (s.putEng x e).eng x = e := by
  rw [State.eng, State.putEng, getD_slots, if_pos h, if_pos rfl]

/-- The engine written last stays. -/
theorem State.putEng_putEng (s : State) (x : Nat) (e f : EngX) : (s.putEng x e).putEng x f = s.putEng x f := by
  have h : slots 16 (s.putEng x e).eng x f = slots 16 s.eng x f := by
    refine List.map_congr_left fun i hi => ?_
    by_cases hix : i = x
    · rw [if_pos hix, if_pos hix]
    · rw [if_neg hix, if_neg hix, State.eng, State.putEng, getD_slots, if_pos (List.mem_range.1 hi), if_neg hix]
  rw [State.putEng, h]
  rfl

theorem State.readUnit_clean (h : s.faults.damage = []) (n v access : Nat) : s.readUnit n v access = (true, s) := by
  simp [State.readUnit, State.readWordAs, State.checkWord, State.damaged_of_none h]

theorem State.readAll_clean (h : s.faults.damage = []) (n : Nat) (us : List Nat) : s.readAll n us = s := by
  induction us with
  | nil => rfl
  | cons v us ih =>
    show (s.readUnit n v).2.readAll n us = s
    rwa [State.readUnit_clean h]

/-! ### What an insert plans rests on the store and on its engine's stash -/

section
variable (hu : u.unit = s.unit) (hr : u.readable = s.readable)
include hu hr

theorem State.isFree_congr : u.isFree = s.isFree := by
  funext v
  rw [State.isFree, State.isFree, hu, hr]

theorem State.alternate_congr (d : Decl) : u.alternate d = s.alternate d := by
  funext y
  rw [State.alternate, State.alternate, hu, hr]

theorem State.opening_congr (d : Decl) : u.opening d = s.opening d := by
  funext y
  rw [State.opening, State.opening, State.alternate_congr hu hr, State.isFree_congr hu hr]

theorem State.children_congr (d : Decl) : u.children d = s.children d := by
  funext y
  rw [State.children, State.children, State.alternate_congr hu hr]

theorem State.upTo_congr (d : Decl) (l : List Node) : u.upTo d l = s.upTo d l := by
  induction l with
  | nil => rfl
  | cons y l ih => rw [State.upTo, State.upTo, State.opening_congr hu hr, ih]

theorem State.search_congr (d : Decl) (fuel : Nat) (l : List Node) : u.search d fuel l = s.search d fuel l := by
  induction fuel generalizing l with
  | zero => rfl
  | succ fuel ih =>
    simp only [State.search, State.opening_congr hu hr, State.upTo_congr hu hr, State.alternate_congr hu hr,
      State.children_congr hu hr, ih]

theorem State.pathFor_congr (hs : (u.eng d.partition).stash = (s.eng d.partition).stash) (n key : Nat) :
    u.pathFor n d key = s.pathFor n d key := by
  have hfind : u.findKey d key = s.findKey d key := by rw [State.findKey, State.findKey, hu, hr]
  have hof : u.stashOf n d = s.stashOf n d :=
    congrArg (fun l : List StashE => (l.filter fun c : StashE => c.table == n).map fun c : StashE => c.entry) hs
  have hstash : u.stashed n d key = s.stashed n d key := by rw [State.stashed, State.stashed, hof]
  have hfree : u.freeUnit d key = s.freeUnit d key := by
    rw [State.freeUnit, State.freeUnit, State.isFree_congr hu hr]
  simp only [State.pathFor, hfind, hstash, hfree, State.search_congr hu hr]

end

/-- The operations of the engine do not count. -/
theorem State.pathFor_putEng (s : State) (n : Nat) (d : Decl) (js : List EngJob) (key : Nat) :
    (s.putEng d.partition { s.eng d.partition with jobs := js }).pathFor n d key = s.pathFor n d key := by
  refine State.pathFor_congr (s := s) ?_ ?_ ?_ n key
  · rfl
  · rfl
  · rw [State.eng_putEng s d.partition_lt]

/-! ### A record starts on an engine without operations (R165) -/

/-- An operation of ENTRY_OP that waits at the front of its engine, and the same once it has started. -/
def waitingJob (n : Nat) (r : List Byte) : EngJob := ⟨n, r, none, false, [], 0⟩
def startedJob (n : Nat) (r : List Byte) : EngJob := ⟨n, r, none, true, [], 0⟩

@[simp] theorem State.decl_putEng (s : State) (x : Nat) (e : EngX) (n : Nat) : (s.putEng x e).decl n = s.decl n := rfl

/-- Where the store reads clean and the operation needs no move, a start changes its mark alone. -/
theorem State.engStart_first {e : EngX} (he : s.eng x = { e with jobs := [waitingJob n r] })
    (hdue : e.deleteDue = false) (hd : s.faults.damage = [])
    (hp : byteAt r 0 = 1 → (s.pathFor n (s.decl n) ((s.decl n).key (slice r 4 10))).1 = []) :
    s.engStart x = s.putEng x { e with jobs := [startedJob n r] } := by
  have hdue' : ¬ (false || EngX.deleteDue { e with jobs := [waitingJob n r] }) = true := fun h =>
    Bool.false_ne_true (hdue.symm.trans h)
  have hmoves : (if (s.decl n).kind = 1 ∧ byteAt r 0 = 1 then s.pathFor n (s.decl n) ((s.decl n).key (slice r 4 10))
      else ([], [])).1 = [] := by
    split
    · exact hp (And.right ‹_›)
    · rfl
  simp only [State.engStart, he, waitingJob, State.readAll_clean hd, ite_self, hmoves, State.runMoves]
  exact if_neg hdue'

/-- A record of 32 bytes submitted to an engine with no operation, before which no aging deletion stands. -/
theorem State.engSubmit_first (hjobs : (s.eng (s.decl n).partition).jobs = [])
    (hdue : (s.eng (s.decl n).partition).deleteDue = false) (hd : s.faults.damage = []) (hlen : r.length = 32)
    (hp : byteAt r 0 = 1 → (s.pathFor n (s.decl n) ((s.decl n).key (slice r 4 10))).1 = []) :
    s.engSubmit n r none =
      s.putEng (s.decl n).partition { s.eng (s.decl n).partition with jobs := [startedJob n r] } := by
  have hpad : padTo 32 r = r := by simp [padTo, zeros, hlen]
  have hfirst := State.eng_putEng s (s.decl n).partition_lt
    { s.eng (s.decl n).partition with jobs := [waitingJob n r] }
  rw [State.engSubmit, hjobs, hpad]
  refine (State.engStart_first hfirst hdue hd fun h1 => ?_).trans (State.putEng_putEng _ _ _ _)
  rw [State.decl_putEng]
  exact (congrArg Prod.fst (State.pathFor_putEng s n _ _ _)).trans (hp h1)

end

/-! ### The seven operations are writes of ENTRY_OP -/

theorem length_opRecord (op flags plen : Nat) (key : List Byte) (action : Nat) :
    (opRecord op flags plen key action).length = 32 := by
  have hkey : ((padTo 16 key).take 16).length = 16 := by
    simp only [padTo, zeros, List.length_take, List.length_append, List.length_replicate]
    omega
  simp [opRecord, hkey, length_leBytes, zeros]

/-- The row of ENTRY_OP. -/
def entryOpRow : ObjRow := ⟨0x5003, 4, 4, .cmd, .cmd, 32, 0, .upto 64, .none, []⟩

section
variable {s : State} {p : Path} {n : Table} {r : List Byte}

theorem finds_entryOp (s : State) (n : Table) : Finds s false (O.ENTRY_OP n) entryOpRow := by
  have hhead : (indexRows 0x5003).head? = some ⟨0x5003, 1, 1, .enum, .ro, 2, 2, .upto 64, .none, []⟩ := by
    decide +kernel
  have hrow : rowOf (indexRows 0x5003) 4 = some entryOpRow := by decide +kernel
  exact finds_of_rowOf hhead (decide_eq_true n.isLt) hrow (by simp)

theorem cmdFits_entryOp (n : Nat) (h : r.length = 32) : cmdFits (O.ENTRY_OP n) entryOpRow.size r = true := by
  simp [cmdFits, entryOpRow, h]

/-- A write of ENTRY_OP that the object takes gives its record to the engine. -/
theorem write_entryOp (h : Takes s p (O.ENTRY_OP n)) (hr : r.length = 32) :
    exec (.write p (O.ENTRY_OP n) 0 r) s =
      .next (answers s p Err.ok (((fresh s).cmdRun (O.ENTRY_OP n)).engSubmit n r none)) :=
  write_cmd_takes h (finds_entryOp s n) rfl (.inr (by simp)) (cmdFits_entryOp n hr) rfl
    (State.diagRefuses_of_area (by simp) _) rfl

theorem engSubmit_entryOp (hjobs : (s.eng (s.decl n).partition).jobs = [])
    (hdue : (s.eng (s.decl n).partition).deleteDue = false) (hd : s.faults.damage = []) (hr : r.length = 32)
    (hp : byteAt r 0 = 1 → (s.pathFor n (s.decl n) ((s.decl n).key (slice r 4 10))).1 = []) :
    ((fresh s).cmdRun (O.ENTRY_OP n)).engSubmit n r none =
      ((fresh s).cmdRun (O.ENTRY_OP n)).putEng (s.decl n).partition
        { s.eng (s.decl n).partition with jobs := [startedJob n r] } := by
  have hdecl : ((fresh s).cmdRun (O.ENTRY_OP n)).decl n = s.decl n := rfl
  have heng : ((fresh s).cmdRun (O.ENTRY_OP n)).eng = s.eng := rfl
  have hpath : ((fresh s).cmdRun (O.ENTRY_OP n)).pathFor n (s.decl n) = s.pathFor n (s.decl n) :=
    funext fun key => State.pathFor_congr (u := (fresh s).cmdRun (O.ENTRY_OP n)) (s := s) rfl rfl rfl n key
  have hfirst := State.engSubmit_first (s := (fresh s).cmdRun (O.ENTRY_OP n)) (n := n) (r := r)
  rw [hdecl, heng, hpath] at hfirst
  exact hfirst hjobs hdue hd hr hp

theorem write_entryOp_tableBusy (h : Ready s p) (hl : s.leasedAway p 5 = false)
    (hb : s.dict.busyTabs.contains (O.ENTRY_OP n) = true) (hr : r.length = 32) :
    exec (.write p (O.ENTRY_OP n) 0 r) s = .next (refused s p Err.tableBusy) :=
  write_cmd_refused h (finds_entryOp s n) rfl (.inr (by simp)) (by simpa using hl)
    (State.cmdOp_tableBusy (s := fresh s) (cmdFits_entryOp n hr) rfl hb)

theorem write_entryOp_cmdBusy (h : Ready s p) (hl : s.leasedAway p 5 = false)
    (hb : s.dict.busyTabs.contains (O.ENTRY_OP n) = false) (hc : s.cmdRunning (O.ENTRY_OP n) = true)
    (hr : r.length = 32) : exec (.write p (O.ENTRY_OP n) 0 r) s = .next (refused s p Err.cmdBusy) :=
  write_cmd_refused h (finds_entryOp s n) rfl (.inr (by simp)) (by simpa using hl)
    (State.cmdOp_cmdBusy (s := fresh s) (cmdFits_entryOp n hr) rfl hb hc)

end

end Sys2Proof.Machine

open Sys2Proof Sys2Proof.Machine

/-- Settles O35: each of the seven is a WRITE of ENTRY_OP with a record of 32 bytes, which goes through the checks of
`cmdOp`; on an idle engine over sound words the start of the record changes its mark alone. -/
theorem entryOperationsReachTheirEngine : Obligations.EntryOperationsReachTheirEngine := by
  intro s p n fl plen key act i r hi
  have hwrite : exec i s = exec (.write p (O.ENTRY_OP n) 0 r) s ∧ r.length = 32 := by
    simp only [List.mem_cons, List.not_mem_nil, or_false, Prod.mk.injEq] at hi
    obtain ⟨rfl, rfl⟩ | ⟨rfl, rfl⟩ | ⟨rfl, rfl⟩ | ⟨rfl, rfl⟩ | ⟨rfl, rfl⟩ | ⟨rfl, rfl⟩ | ⟨rfl, rfl⟩ := hi
    all_goals exact ⟨rfl, length_opRecord _ _ _ _ _⟩
  obtain ⟨hexec, hlen⟩ := hwrite
  unfold Does
  rw [hexec]
  refine ⟨fun ht => write_entryOp ht hlen, fun ht hjobs hdue hd hp => ?_,
    fun h hl hb => write_entryOp_tableBusy h hl hb hlen, fun h hl hb hc => write_entryOp_cmdBusy h hl hb hc hlen⟩
  have hfirst := engSubmit_entryOp hjobs hdue hd hlen hp
  refine ⟨_, write_entryOp ht hlen, ?_⟩
  rw [hfirst]
  refine ⟨rfl, ?_, ?_, rfl, rfl, rfl⟩
  · exact congrArg CmdStat.status (State.cmd_setCmd (fresh s) (O.ENTRY_OP n) 1 0 [])
  · exact congrArg EngX.jobs (State.eng_putEng _ (Decl.partition_lt _) _)

end

section
/-!
Bolsy sessions (R54-R61, R66): HELLO, OPEN, the requests and CLOSE as equations of `hello`, `open_` and `request`, and what
the end of a session leaves.
-/
namespace Sys2Proof.Machine

section
variable {s : State} {m : MgmtPort} {f : Udp} {t : Nat}

/-! ### Frames that reach the Bolsy port -/

theorem comes_runs (h : BolsyComes s m f t) : Runs s := h.1

theorem comes_fits (h : BolsyComes s m f t) : frameFits f.payload = true ∧ byteAt f.payload 3 = t := by
  obtain ⟨-, -, -, -, -, -, -, -, hfits, htype⟩ := h
  exact ⟨hfits, htype⟩

/-- A frame for the Bolsy port that fits is acted on by its type. -/
theorem State.bolsyFrame_comes (h : BolsyComes s m f t) : s.bolsyFrame m f = s.bolsyTake m f := by
  obtain ⟨-, hflag, hmac, haddr, hdst, hport, hfw, hslate, -, -⟩ := h
  have hpaused : s.fwPaused = false := by simp [State.fwPaused, hfw, hslate]
  have hdrop : ¬ (s.get (O.MGMT_MAC m) = 0 ∨ s.mgmtAddr m f.v6 = 0 ∨ f.dstAddr ≠ s.mgmtAddr m f.v6 ∨
      f.dstPort ≠ s.get O.BOLSY_UDP_PORT ∨ (s.sys.fw ≠ .running ∧ s.sys.fw ≠ .switching)) := by
    simp only [hfw]
    tauto
  rw [State.bolsyFrame, hflag, Bool.not_true, if_neg Bool.false_ne_true, if_neg hdrop, hpaused,
    if_neg Bool.false_ne_true]

theorem State.bolsyFrame_hello (h : BolsyComes s m f 1) : s.bolsyFrame m f = s.hello m f := by
  rw [State.bolsyFrame_comes h, State.bolsyTake]
  obtain ⟨hfits, htype⟩ := comes_fits h
  simp only [hfits, htype, Bool.not_true, Bool.false_eq_true, if_false]

theorem State.bolsyFrame_open (h : BolsyComes s m f 3) : s.bolsyFrame m f = s.open_ m f := by
  rw [State.bolsyFrame_comes h, State.bolsyTake]
  obtain ⟨hfits, htype⟩ := comes_fits h
  simp only [hfits, htype, Bool.not_true, Bool.false_eq_true, if_false]

theorem State.bolsyFrame_request (h : BolsyComes s m f t) (h1 : t ≠ 1) (h3 : t ≠ 3) :
    s.bolsyFrame m f = s.request m f := by
  rw [State.bolsyFrame_comes h, State.bolsyTake]
  obtain ⟨hfits, htype⟩ := comes_fits h
  subst htype
  simp only [hfits, Bool.not_true, Bool.false_eq_true, if_false]

/-! ### HELLO (R57) -/

/-- The HELLOs of the last second, with one more of port `m`. -/
def State.noteHello (s : State) (m : Nat) : State :=
  { s with dict := { s.dict with
    hellos := (s.dict.hellos.filter fun h => decide (s.now < h.2 + ticksOfS 1)) ++ [(m, s.now)] } }

theorem State.hello_answered {mid : Nat} {nm nd : List Byte} (hmid : mid = byteAt (f.payload.drop 16) 0)
    (hnm : nm = slice (f.payload.drop 16) 4 16) (hnd : nd = cookie s.dict.secretNow f mid nm)
    (hon : s.managerOn mid = true)
    (hrate : ((s.dict.hellos.filter fun h => decide (s.now < h.2 + ticksOfS 1)).filter (·.1 == m.val)).length <
      s.get O.HELLO_RATE) :
    s.hello m f = (s.noteHello m).reply m f (sealed (sessionKeys (s.managerKey mid) nm nd).2
      (bolsyBody 2 0 0xFF 0 ([nb mid, 0, 0, 0] ++ nm ++ nd))) := by
  have hon' : (!(s.noteHello m).managerOn mid) = false := by
    rw [show (s.noteHello m).managerOn mid = true from hon, Bool.not_true]
  subst hmid hnm hnd
  exact (if_neg (not_le.2 hrate)).trans (if_neg (ne_true_of_eq_false hon'))

/-! ### OPEN (R57-R59) -/

/-- The session that an OPEN gets. -/
def State.newSess (s : State) (f : Udp) (k mid : Nat) (nm nd : List Byte) : Sess :=
  let ks := sessionKeys (s.managerKey mid) nm nd
  let idle := s.grantIdle (beAt (f.payload.drop 16) 36 2)
  ⟨nm, nd, ks.1, ks.2, idle, s.timerNow + ticksOfS idle,
    sealed ks.2 (bolsyBody 4 0 k 0 (acceptPayload k idle)), [], []⟩

/-- Session `k` of manager `mid` opens as `x`. -/
def State.openSess (s : State) (k mid : Nat) (x : Sess) : State :=
  let s : State := { s with dict := { s.dict with sessions := ins ltN k x s.dict.sessions } }
  let s := ((s.set (O.SESSION_STATE k) 1).set (O.SESSION_MANAGER k) mid).set (O.SESSION_HIGHEST k) 0
  (s.noteRef k).raise 0xBC1

theorem State.open_accepted {mid k : Nat} {nm nd : List Byte} (hmid : mid = byteAt (f.payload.drop 16) 0)
    (hnm : nm = slice (f.payload.drop 16) 4 16) (hnd : nd = slice (f.payload.drop 16) 20 16)
    (hon : s.managerOn mid = true) (hcookie : nd = cookie s.dict.secretNow f mid nm)
    (htag : tagOk (sessionKeys (s.managerKey mid) nm nd).1 f.payload = true)
    (hnew : ∀ e ∈ s.dict.sessions, ¬ (e.2.nm = nm ∧ e.2.nd = nd))
    (hfree : firstFrom (fun j => (s.session? j).isNone) 0 8 = some k) :
    s.open_ m f = (s.openSess k mid (s.newSess f k mid nm nd)).reply m f (s.newSess f k mid nm nd).accept := by
  have hfind : (s.dict.sessions.find? fun e => e.2.nm == nm && e.2.nd == nd) = none :=
    List.find?_eq_none.2 fun e he => by simpa using hnew e he
  have hfresh : (nd == cookie s.dict.secretNow f mid nm) = true := by simpa using hcookie
  unfold State.open_
  dsimp only
  rw [← hmid, ← hnm, ← hnd, hon, hfresh, htag, hfind, hfree]
  rfl

theorem State.session?_openSess (s : State) (k mid : Nat) (x : Sess) : (s.openSess k mid x).session? k = some x :=
  congrArg (Option.map Prod.snd) (find_ins_same ltN k x s.dict.sessions)

theorem State.openSess_state (s : State) (k mid : Nat) (x : Sess) : (s.openSess k mid x).get (O.SESSION_STATE k) = 1 :=
  (State.get_set_other _ _ _ _ (.inl (by simp))).trans
    ((State.get_set_other _ _ _ _ (.inl (by simp))).trans (State.get_set_same _ _ _ _))

theorem State.openSess_manager (s : State) (k mid : Nat) (x : Sess) :
    (s.openSess k mid x).get (O.SESSION_MANAGER k) = mid :=
  (State.get_set_other _ _ _ _ (.inl (by simp))).trans (State.get_set_same _ _ _ _)

/-! ### Requests (R60, R61) -/

/-- A request keeps its session from ending for want of use. -/
def State.touchSess (s : State) (k : Nat) : State :=
  s.modSess k fun y => { y with deadline := s.timerNow + ticksOfS y.idle }

section
variable {k n : Nat} {x : Sess} (hk : byteAt f.payload 5 = k) (hn : beAt f.payload 8 8 = n) (hx : s.session? k = some x)
  (htag : tagOk x.kmd f.payload = true)
include hk hn hx htag

theorem State.request_close (ht : byteAt f.payload 3 = 0x20) (hseq : s.get (O.SESSION_HIGHEST k) < n) :
    s.request m f = (s.reply m f (sealed x.kdm (bolsyBody 0x21 0 k n []))).sessionEnd k := by
  simp only [State.request, hk, hn, hx, htag, ht, Bool.not_true, Bool.false_eq_true, if_false, if_true,
    if_neg (not_le.2 hseq)]

variable (ht : byteAt f.payload 3 = 0x10)
include ht

theorem State.request_old (ho : n = 0 ∨ n + 63 < s.get (O.SESSION_HIGHEST k)) :
    s.request m f = (s.touchSess k).bolsyDrop 4 := by
  simp only [State.request, hk, hn, hx, htag, ht, Bool.not_true, Bool.false_eq_true, if_false, Nat.reduceEqDiff, if_pos ho]
  rfl

variable (h0 : n ≠ 0) (hw : s.get (O.SESSION_HIGHEST k) ≤ n + 63)
include h0 hw

theorem State.request_executing (hj : x.jobs.any (·.seq == n) = true) :
    s.request m f = (s.touchSess k).bolsyDrop 5 := by
  have ho : ¬ (n = 0 ∨ n + 63 < s.get (O.SESSION_HIGHEST k)) := by omega
  simp only [State.request, hk, hn, hx, htag, ht, Bool.not_true, Bool.false_eq_true, if_false, Nat.reduceEqDiff,
    if_neg ho, hj, if_true]
  rfl

theorem State.request_cached {c : Nat × List Byte} (hj : x.jobs.any (·.seq == n) = false)
    (hc : x.cache.find? (·.1 == n) = some c) :
    s.request m f = (s.touchSess k).reply m f (sealed x.kdm (patch c.2 4 [1])) := by
  have ho : ¬ (n = 0 ∨ n + 63 < s.get (O.SESSION_HIGHEST k)) := by omega
  simp only [State.request, hk, hn, hx, htag, ht, Bool.not_true, Bool.false_eq_true, if_false, Nat.reduceEqDiff,
    if_neg ho, hj, hc]
  rfl

/-- A new request, the session's highest so far, of `ops`. -/
def State.enterReq (s : State) (m : Nat) (f : Udp) (k n : Nat) (ops : List BOp) : State :=
  let h := max (s.get (O.SESSION_HIGHEST k)) n
  ((s.touchSess k).set (O.SESSION_HIGHEST k) h).modSess k fun y =>
    { y with jobs := y.jobs ++ [⟨m, f, n, ops, []⟩], cache := y.cache.filter fun c => decide (h ≤ c.1 + 63) }

theorem State.request_new {ops : List BOp} (hj : x.jobs = []) (hc : x.cache.find? (·.1 == n) = none)
    (hcount : 1 ≤ byteAt ((f.payload.drop 16).take (f.payload.length - 32)) 0 ∧
      byteAt ((f.payload.drop 16).take (f.payload.length - 32)) 0 ≤ 16)
    (hops : parseOps (byteAt ((f.payload.drop 16).take (f.payload.length - 32)) 0)
      (((f.payload.drop 16).take (f.payload.length - 32)).drop 4) = some ops) :
    s.request m f = (s.enterReq m f k n ops).runSession k := by
  have ho : ¬ (n = 0 ∨ n + 63 < s.get (O.SESSION_HIGHEST k)) := by omega
  simp only [State.request, hk, hn, hx, htag, ht, Bool.not_true, Bool.false_eq_true, if_false, Nat.reduceEqDiff,
    if_neg ho, hj, hc, List.any_nil, if_pos hcount, hops, if_true]
  rfl

end

/-- The first byte of a request's payload, the number of its operations. -/
theorem byteAt_requestBody (hfits : frameFits f.payload = true) (ht : byteAt f.payload 3 = 0x10) :
    byteAt ((f.payload.drop 16).take (f.payload.length - 32)) 0 = byteAt f.payload 16 := by
  have hlen : 36 ≤ f.payload.length := by
    simp [frameFits, ht] at hfits
    omega
  have hget : ((f.payload.drop 16).take (f.payload.length - 32))[0]? = f.payload[16]? := by
    rw [List.getElem?_take_of_lt (by omega), List.getElem?_drop]
  simp only [byteAt, List.getD_eq_getElem?_getD, hget]

end

/-! ### The end of a session (R59) -/

section
variable {s : State} {k : Nat} {x : Sess}

/-- The session's own objects at its end. -/
def State.closeSess (s : State) (k : Nat) : State :=
  let s : State := { s with dict := { s.dict with sessions := s.dict.sessions.filter (·.1 != k) } }
  (((s.set (O.SESSION_STATE k) 0).set (O.SESSION_MANAGER k) 0xFF).set (O.SESSION_HIGHEST k) 0).raise 0xBC2

/-- With no lease held anywhere nothing else ends. -/
theorem State.sessionEnd_noLease (hx : s.session? k = some x) (hl : s.dict.leases = []) :
    s.sessionEnd k = s.closeSess k := by
  have hholder : (s.closeSess k).holderEnd k = s.closeSess k := by
    have hl' : (s.closeSess k).dict.leases = [] := hl
    simp [State.holderEnd, hl', State.each]
  rw [State.sessionEnd, hx, Option.isNone_some, if_neg Bool.false_ne_true]
  exact hholder

theorem State.session?_closeSess (s : State) (k : Nat) : (s.closeSess k).session? k = none := by
  have h : (s.dict.sessions.filter (·.1 != k)).find? (·.1 == k) = none := List.find?_eq_none.2 fun e he => by
    simpa using (List.mem_filter.1 he).2
  exact congrArg (Option.map Prod.snd) h

theorem State.closeSess_state (s : State) (k : Nat) : (s.closeSess k).get (O.SESSION_STATE k) = 0 :=
  (State.get_set_other _ _ _ _ (.inl (by simp))).trans
    ((State.get_set_other _ _ _ _ (.inl (by simp))).trans (State.get_set_same _ _ _ _))

theorem State.closeSess_manager (s : State) (k : Nat) : (s.closeSess k).get (O.SESSION_MANAGER k) = 0xFF :=
  (State.get_set_other _ _ _ _ (.inl (by simp))).trans (State.get_set_same _ _ _ _)

theorem State.get_closeSess_other (s : State) {k : Nat} {r : Ref} (e : Nat) (h1 : r ≠ O.SESSION_STATE k)
    (h2 : r ≠ O.SESSION_MANAGER k) (h3 : r ≠ O.SESSION_HIGHEST k) : (s.closeSess k).get r e = s.get r e :=
  (State.get_set_other _ _ _ _ (.inl h3)).trans
    ((State.get_set_other _ _ _ _ (.inl h2)).trans (State.get_set_other _ _ _ _ (.inl h1)))

/-- The row of SESSION_CLOSE. -/
def sessionCloseRow : ObjRow := ⟨0x1020, 5, 5, .cmd, .cmd, 0, 0, .upto 8, .none, []⟩

theorem finds_sessionClose (s : State) (k : Session) : Finds s false (O.SESSION_CLOSE k) sessionCloseRow := by
  have hhead : (indexRows 0x1020).head? = some ⟨0x1020, 1, 1, .enum, .ro, 2, 2, .upto 8, .none, []⟩ := by
    decide +kernel
  have hrow : rowOf (indexRows 0x1020) 5 = some sessionCloseRow := by decide +kernel
  exact finds_of_rowOf hhead (decide_eq_true k.isLt) hrow (by simp)

end

end Sys2Proof.Machine

open Sys2Proof Sys2Proof.Machine

/-- Settles O24: a frame that fits goes to `hello`, `open_` or `request` by its type; each case of these is one equation,
and the end of a session without leases is `closeSess`. -/
theorem bolsySessions : Obligations.BolsySessions := by
  intro s m f p k x
  refine ⟨fun mid nm nd hmid hnm hnd h hon hrate => ?hello,
    fun mid nm nd hmid hnm hnd h hon hcookie htag hnew hfree => ?accept,
    fun n hn hk h hx htag h0 hw => ⟨fun hj => ?executing, fun c hj hc => ?cached, fun ops hj hc hc1 hc2 hops => ?new⟩,
    fun n hn hk h hx htag ho => ?old, fun n hn hk h hx htag hseq => ?close, fun ht => ?command,
    fun hr hx ht hl => ?timeout⟩
  case hello =>
    have hf := (State.bolsyFrame_hello (s := fresh s) h).trans (State.hello_answered hmid hnm hnd hon hrate)
    refine ⟨_, exec_hello.trans (live_ran (comes_runs h) _), ?_⟩
    rw [hf]
    exact ⟨rfl, rfl⟩
  case accept =>
    have hf := (State.bolsyFrame_open (s := fresh s) h).trans
      (State.open_accepted hmid hnm hnd hon hcookie htag hnew hfree)
    refine ⟨_, exec_open.trans (live_ran (comes_runs h) _), ?_⟩
    rw [hf]
    generalize hy : (fresh s).newSess f k mid nm nd = y
    have hy' : y.nm = nm ∧ y.nd = nd ∧ y.idle = s.grantIdle (beAt (f.payload.drop 16) 36 2) ∧ y.jobs = [] := by
      rw [← hy]
      exact ⟨rfl, rfl, rfl, rfl⟩
    obtain ⟨hynm, hynd, hidle, hjobs⟩ := hy'
    exact ⟨⟨y, State.session?_openSess (fresh s) k mid y, hynm, hynd, hidle, hjobs, rfl⟩,
      State.openSess_state (fresh s) k mid y, State.openSess_manager (fresh s) k mid y, rfl⟩
  case executing =>
    have hf := (State.bolsyFrame_request (s := fresh s) h (by decide) (by decide)).trans
      (State.request_executing (s := fresh s) hk.symm hn.symm hx htag (comes_fits h).2 h0 hw hj)
    refine ⟨_, exec_bolsyRequest.trans (live_ran (comes_runs h) _), ?_⟩
    rw [hf, State.bolsyDrop_of_ne _ (by decide)]
    exact ⟨rfl, State.get_count64_same _ _ _ _⟩
  case cached =>
    have hf := (State.bolsyFrame_request (s := fresh s) h (by decide) (by decide)).trans
      (State.request_cached (s := fresh s) hk.symm hn.symm hx htag (comes_fits h).2 h0 hw hj hc)
    refine ⟨_, exec_bolsyRequest.trans (live_ran (comes_runs h) _), ?_⟩
    rw [hf]
    exact ⟨rfl, rfl⟩
  case new =>
    obtain ⟨hfits, htype⟩ := comes_fits h
    rw [← byteAt_requestBody hfits htype] at hc1 hc2 hops
    have hf := (State.bolsyFrame_request (s := fresh s) h (by decide) (by decide)).trans
      (State.request_new (s := fresh s) hk.symm hn.symm hx htag htype h0 hw hj hc ⟨hc1, hc2⟩ hops)
    rw [exec_bolsyRequest, execBolsyRequest, live_ran (comes_runs h), hf]
    rfl
  case old =>
    have hf := (State.bolsyFrame_request (s := fresh s) h (by decide) (by decide)).trans
      (State.request_old (s := fresh s) hk.symm hn.symm hx htag (comes_fits h).2 ho)
    refine ⟨_, exec_bolsyRequest.trans (live_ran (comes_runs h) _), ?_⟩
    rw [hf, State.bolsyDrop_of_ne _ (by decide)]
    exact ⟨rfl, State.get_count64_same _ _ _ _⟩
  case close =>
    have hf := (State.bolsyFrame_request (s := fresh s) h (by decide) (by decide)).trans
      (State.request_close (s := fresh s) hk.symm hn.symm hx htag (comes_fits h).2 hseq)
    rw [exec_bolsyClose, execBolsyClose, live_ran (comes_runs h), hf]
  case command =>
    exact write_cmd_takes (off := 0) ht (finds_sessionClose s k) rfl (.inr (by simp)) rfl rfl
      (State.diagRefuses_of_area (by simp) _) rfl
  case timeout =>
    have hexec : exec (.sessionIdleTimeout k) s = .next (ran s ((fresh s).closeSess k)) := by
      have hx' : (fresh s).session? k = some x := hx
      have ht' : (fresh s).timersRun = true := ht
      rw [exec_sessionIdleTimeout, execSessionIdleTimeout, live_ran hr]
      simp only [hx', ht', if_true, State.sessionEnd_noLease hx' hl]
    exact ⟨_, hexec, State.session?_closeSess _ _, State.closeSess_state _ _, State.closeSess_manager _ _, rfl,
      fun r e h1 h2 h3 => State.get_closeSess_other _ e h1 h2 h3⟩

end

section
/-!
The end of a training on a port whose lanes reach both rates (R80, R103): a concrete port on which TRAIN_COMPLETE does not
show the rate trained at.
-/
namespace Sys2Proof.Machine

/-- Port 0 has lanes 0 and 1 in mode 5: lane 1 has trained at 212.5 Gb/s and stands in LOCK, lane 0 is about to end its
training at 425 Gb/s. Nothing adapts, so that no free value is drawn for a coefficient. -/
def splitTrained : State :=
  let s : State := { State.reset with sys := { State.reset.sys with power := .run } }
  let s := (s.set (O.PORT_MAP 0) 2).each [0, 1] fun s l =>
    ((s.set (O.LANE_MODE l) 5).set (O.ADAPT_ENABLE l) 0).set (O.SEQDET_ENABLE l) 0
  let s := ((s.set (O.STAGE 0) Stage.train).set (O.TRAIN_PHASE 0) 1).modLane 0 fun x =>
    { x with ready := true, partnerReady := 3 }
  (s.set (O.STAGE 1) Stage.lock).set (O.RATE_ACTIVE 1) 4

theorem splitTrained_trains : splitTrained.stage 0 = Stage.train ∧ splitTrained.trainedRate 0 = some 5 := by
  decide +kernel

/-- Lane 0 trains again without G4 (R103), which starts at 106.25 GBd: mode code 4, not 5. -/
theorem trainComplete_splitTrained :
    Does (.trainComplete 0) splitTrained fun u => u.get (O.RATE_ACTIVE 0) = 4 ∧ u.stage 0 = Stage.train :=
  (does_iff exec_trainComplete rfl).2 (by decide +kernel)

end Sys2Proof.Machine

open Sys2Proof Sys2Proof.Machine

/-- Refutes O26: TRAIN_COMPLETE at 425 Gb/s on a port with a lane trained at 212.5 Gb/s sends the lane back to TRAIN, which
starts at mode code 4, so that RATE_ACTIVE is not the rate 5 at which the training ended. -/
theorem not_bringUpStageByStage : ¬ Obligations.BringUpStageByStage := by
  intro h
  obtain ⟨-, -, -, -, -, -, hcomplete, -⟩ := h splitTrained 0 0 0 0 0 [] rfl (by decide +kernel)
  obtain ⟨htrain, hfive⟩ := splitTrained_trains
  obtain ⟨⟨t, ht, hrate, -⟩, -⟩ := hcomplete 5 htrain hfive
  obtain ⟨u, hu, hfour, -⟩ := trainComplete_splitTrained
  cases ht.symm.trans hu
  exact absurd (hrate.symm.trans hfour) (by decide)

end

section
/-!
What a port's leaving UP keeps of the lanes (R104, R105): it discards packets and sends what is due, and writes no object of
area 2, no lane, and none of the microsequencers' memories; no port comes up, and reports are only added.
-/
-- One proof after another: a thread for each of so many small proofs needs more memory than the check has.
set_option Elab.async false

namespace Sys2Proof.Machine

/-- From `s` to `t` lanes, their objects and what their banks' microsequencers have lost stay, no port comes up, and the
reports of `s` come first. -/
structure KeepsLanes (s t : State) : Prop where
  lanes : t.lanes = s.lanes
  seqDown : t.sys.seqDown = s.sys.seqDown
  objs : ∀ r e, r.idx / 4096 = 2 → t.get r e = s.get r e
  ports : ∀ p, (s.port p).up = false → (t.port p).up = false
  reports : s.faults.reports <+: t.faults.reports

namespace KeepsLanes

theorem refl (s : State) : KeepsLanes s s := ⟨rfl, rfl, fun _ _ _ => rfl, fun _ h => h, List.prefix_rfl⟩

variable {s t u : State}

theorem ite {c : Prop} [Decidable c] (ht : KeepsLanes s t) (hu : KeepsLanes s u) :
    KeepsLanes s (if c then t else u) := by
  split
  · exact ht
  · exact hu

theorem ite_snd {α : Type} {c : Prop} [Decidable c] {x y : α × State} (hx : KeepsLanes s x.2) (hy : KeepsLanes s y.2) :
    KeepsLanes s (if c then x else y).2 := by
  split
  · exact hx
  · exact hy

section
variable (h : KeepsLanes s t)
include h

theorem each {β : Type} {l : List β} {f : State → β → State}
    (hf : ∀ u x, KeepsLanes s u → KeepsLanes s (f u x)) : KeepsLanes s (t.each l f) :=
  State.each_keeps (KeepsLanes s) l f (fun u x _ => hf u x) t h

theorem ite_left {c : Prop} [Decidable c] (hu : KeepsLanes s t → KeepsLanes s u) :
    KeepsLanes s (if c then u else t) := ite (hu h) h

theorem ite_right {c : Prop} [Decidable c] (hu : KeepsLanes s t → KeepsLanes s u) :
    KeepsLanes s (if c then t else u) := ite h (hu h)

/-- A change of anything else. -/
theorem of_eq (hl : u.lanes = t.lanes := by rfl) (hs : u.sys.seqDown = t.sys.seqDown := by rfl)
    (hd : u.dict.objs = t.dict.objs := by rfl) (hp : u.ports = t.ports := by rfl)
    (hr : u.faults.reports = t.faults.reports := by rfl) : KeepsLanes s u where
  lanes := hl.trans h.lanes
  seqDown := hs.trans h.seqDown
  objs r e hi := by simpa only [State.get, State.getK, hd] using h.objs r e hi
  ports p hu := by simpa only [State.port, hp] using h.ports p hu
  reports := hr ▸ h.reports

/-! ### Objects, reports and free values -/

theorem set {r : Ref} {v e : Nat} (hr : r.idx / 4096 ≠ 2 := by simp) : KeepsLanes s (t.set r v e) where
  lanes := h.lanes
  seqDown := h.seqDown
  objs q e' hq := by
    have hne : q ≠ r := fun hqr => hr (by rw [← hqr]; exact hq)
    rw [State.get_set_other t v e e' (.inl hne), h.objs q e' hq]
  ports := h.ports
  reports := h.reports

theorem count64 {r : Ref} {n e : Nat} (hr : r.idx / 4096 ≠ 2 := by simp) : KeepsLanes s (t.count64 r n e) := h.set hr
theorem count32 {r : Ref} {n e : Nat} (hr : r.idx / 4096 ≠ 2 := by simp) : KeepsLanes s (t.count32 r n e) := h.set hr
theorem lower {r : Ref} {n e : Nat} (hr : r.idx / 4096 ≠ 2 := by simp) : KeepsLanes s (t.lower r n e) := h.set hr
theorem higher {r : Ref} {n e : Nat} (hr : r.idx / 4096 ≠ 2 := by simp) : KeepsLanes s (t.higher r n e) := h.set hr

theorem reportR {r : Report} : KeepsLanes s (t.reportR r) :=
  ⟨h.lanes, h.seqDown, h.objs, h.ports, h.reports.trans (List.prefix_append _ _)⟩

theorem report {src unit : Nat} {d : List Byte} : KeepsLanes s (t.report src unit d) := h.reportR

/-- A port that is down may change in anything but that. -/
theorem putPort {p : Nat} {x : PortX} (hx : (t.port p).up = false → x.up = false := by exact id) :
    KeepsLanes s (t.putPort p x) where
  lanes := h.lanes
  seqDown := h.seqDown
  objs := h.objs
  ports q hq := by
    by_cases hpq : p = q
    · subst hpq
      rw [State.port_putPort]
      exact hx (h.ports p hq)
    · rw [State.port_putPort_other _ hpq]
      exact h.ports q hq
  reports := h.reports

theorem emit {o : Output} : KeepsLanes s (t.emit o) := h.of_eq
theorem raise {n : Nat} : KeepsLanes s (t.raise n) := h.of_eq
theorem draw {w : Nat} : KeepsLanes s (t.draw w).2 := h.of_eq
theorem putPkt {p : Pkt} : KeepsLanes s (t.putPkt p) := h.of_eq
theorem dropPkt {fid : Nat} : KeepsLanes s (t.dropPkt fid) := h.of_eq
theorem mapPkts {f : Pkt → Pkt} : KeepsLanes s (t.mapPkts f) := h.of_eq
theorem putTile {n : Nat} {x : TileX} : KeepsLanes s (t.putTile n x) := h.of_eq
theorem putGate {p : Nat} {x : GateX} : KeepsLanes s (t.putGate p x) := h.of_eq
theorem putStream {learn : Bool} {x : Stream} : KeepsLanes s (t.putStream learn x) := h.of_eq

/-! ### Memory checks -/

theorem markerArmed {l : Nat} : KeepsLanes s (t.markerArmed l).2 := by
  unfold State.markerArmed
  split
  · exact h
  · exact h.of_eq

theorem wordWrittenAs {ce ue u addr shown : Nat} : KeepsLanes s (t.wordWrittenAs ce ue u addr shown) := by
  unfold State.wordWrittenAs
  extract_lets hit v
  have hv : KeepsLanes s v := ite h h.of_eq
  split
  · exact hv
  · exact hv.of_eq

theorem storeWritten {addr shown : Nat} : KeepsLanes s (t.storeWritten addr shown) := h.wordWrittenAs

theorem storeCheck {addr access : Nat} : KeepsLanes s (t.storeCheck addr access).2 := by
  have hcheck : ∀ v : State, KeepsLanes s v → ∀ ce ue u reporter a shown,
      KeepsLanes s (v.readWordAs ce ue u reporter a shown access).2 := fun v hv ce ue u reporter a shown => by
    have hword : KeepsLanes s (v.checkWord ce ue u reporter a shown access).2 := by
      unfold State.checkWord
      split
      · exact hv
      · exact ite (of_eq hv.draw.reportR) hv.draw.reportR
    exact ite_snd hword.of_eq hword
  exact ite_snd h (hcheck _ h.draw _ _ _ _ _ _)

/-! ### The ledger (R287-R308) -/

theorem outcome {p : Pkt} {q code sent : Nat} {replica : Bool} : KeepsLanes s (t.outcome p q code replica sent) := by
  have hmatrix : ∀ v : State, KeepsLanes s v → ∀ port, KeepsLanes s (v.matrixCount p port sent) := fun v hv port =>
    ite hv.count64 (hv.set (by split <;> simp))
  exact h.count64.count64.ite_right fun h1 => h1.count64.count64.set.ite_left fun h2 => hmatrix _ h2 _

theorem ipfixSend {template : Bool} : KeepsLanes s (t.ipfixSend template) :=
  ite h (ite (count64 h.of_eq) h.of_eq)

theorem ipfixTake {b : List Byte} : KeepsLanes s (t.ipfixTake b) :=
  ite h (ite h.count64 (ite (ipfixSend h.of_eq) h.of_eq))

theorem closeMsg {learn : Bool} : KeepsLanes s (t.closeMsg learn) := ite h (ite h.putStream.count64 h.putStream)

theorem pushRec {learn : Bool} {b : List Byte} : KeepsLanes s (t.pushRec learn b).2 :=
  ite_snd h.putStream (ite h.putStream.closeMsg h.putStream)

theorem exportFlow {f : FlowRec} {reason : Nat} : KeepsLanes s (t.exportFlow f reason) :=
  ipfixTake (ite h.pushRec.count64 h.pushRec.count64.report)

theorem putFlow {row : Nat} {f : FlowRec} : KeepsLanes s (t.putFlow row f) := h.set

theorem flowUpdate {p : Pkt} {code : Nat} : KeepsLanes s (t.flowUpdate p code) := by
  unfold State.flowUpdate
  dsimp only
  split
  · exact h.putFlow
  · split
    · exact h.putFlow.count64
    · exact h.exportFlow.count64.putFlow.count64

theorem toPostcard {p : Pkt} {b : List Byte} : KeepsLanes s (t.toPostcard p b) := ite h.putTile h.putTile

theorem closeRecord {p : Pkt} {code : Nat} {last : Option Holder} : KeepsLanes s (t.closeRecord p code last) := by
  unfold State.closeRecord
  extract_lets len
  split
  · exact h
  · extract_lets s1 s2 flow s3
    have h1 : KeepsLanes s s1 := by
      unfold s1
      split
      · exact h.count64.count64.set
      · exact h.count64.count64
    have h3 : KeepsLanes s s3 := h1.count64.ite_left fun h2 => h2.flowUpdate
    exact ite h1 (ite h3.toPostcard h3)

/-! ### The release of a holder (R45, R209, R213) -/

theorem unqueue {q fid tok : Nat} : KeepsLanes s (t.unqueue q fid tok) := by
  have hread : KeepsLanes s (t.entryRead fid tok) := by
    unfold State.entryRead
    split
    · exact h.storeCheck
    · exact h
  exact ite (higher hread.of_eq) h

theorem extCleared {p : Pkt} {tok : Nat} : KeepsLanes s (t.extCleared p tok) := ite h.storeCheck.storeWritten h

theorem retire : KeepsLanes s t.retire := by
  unfold State.retire
  refine ite h (each h.of_eq fun v g hv => ?_)
  exact hv.set.set.raise

theorem releaseTok {p : Pkt} {x : Holder} {code sent : Nat} : KeepsLanes s (t.releaseTok p x code sent) := by
  unfold State.releaseTok
  extract_lets s1 s2 s3 s4 s5 f q
  have h4 : KeepsLanes s s4 := h.unqueue.extCleared.outcome.lower.ite_left fun h3 => h3.lower
  have h5 : KeepsLanes s s5 := by
    unfold s5
    split
    iterate 4 exact h4.count64
    exact h4
  exact ite (retire (ite h5.closeRecord.dropPkt h5.closeRecord.putPkt)) h5.putPkt

theorem releaseAt {fid tok code sent : Nat} : KeepsLanes s (t.releaseAt fid tok code sent) := by
  unfold State.releaseAt
  split
  · exact h
  · split
    · exact h
    · exact h.releaseTok

theorem discardHolder {fid tok g code : Nat} : KeepsLanes s (t.discardHolder fid tok g code) := by
  unfold State.discardHolder
  refine releaseAt ?_
  split
  iterate 5 exact h.count64
  exact h

/-! ### Cells and descriptors of a postcard's frame (R197-R212, R308) -/

theorem grantCells {n : Nat} : KeepsLanes s (t.grantCells n).2 := by
  induction n generalizing t with
  | zero => exact h
  | succ n ih =>
    unfold State.grantCells
    split
    · exact h
    · rename_i c v hcell
      refine ih ?_
      have hv : KeepsLanes s v := by
        unfold State.grantCell at hcell
        split at hcell
        · cases hcell
        · split at hcell
          · cases hcell
          · cases hcell
            exact wordWrittenAs h.of_eq
      unfold State.linkWritten
      split
      · exact hv.storeWritten
      · exact hv

theorem returnCell {c : Nat} : KeepsLanes s (t.returnCell c) := by
  have hrecarve : ∀ v : State, KeepsLanes s v → KeepsLanes s v.recarve := fun v hv => by
    unfold State.recarve
    extract_lets s1 d caps eff old s2 further s3
    have h2 : KeepsLanes s s2 := each hv.set.set fun _ _ h1 => h1.set
    exact ite (report h2.of_eq) h2.of_eq
  have hquarantine : ∀ v : State, KeepsLanes s v → KeepsLanes s (v.quarantine c) := fun v hv =>
    hrecarve _ (set hv.of_eq)
  exact ite h.of_eq (ite (hquarantine _ h.of_eq) h.of_eq)

theorem returnCells {cs : List Nat} : KeepsLanes s (t.returnCells cs) := h.each fun _ _ h1 => h1.returnCell

theorem countFate {p : Pkt} {code : Nat} : KeepsLanes s (t.countFate p code) := by
  unfold State.countFate
  split
  iterate 12 exact ite h.count64 h
  iterate 6 exact h.count64
  exact h

theorem arrivalSub {p : Pkt} {n : Nat} : KeepsLanes s (t.arrivalSub p n) := by
  unfold State.arrivalSub
  split
  · exact h.set
  · exact h

theorem discardArrival {p : Pkt} {code : Nat} : KeepsLanes s (t.discardArrival p code) := by
  have hparse : ∀ n x, KeepsLanes s (t.parseEnd n p x) := fun n x =>
    h.count64.count64.count64.count64.ite_right fun h1 => h1.set.count64
  unfold State.discardArrival
  refine dropPkt (of_eq (closeRecord (countFate (returnCells (arrivalSub ?_)))))
  split
  · exact hparse _ _
  · exact h

theorem pfcCheck {i cls : Nat} : KeepsLanes s (t.pfcCheck i cls) := by
  have hsend : ∀ v : State, KeepsLanes s v → ∀ quanta, KeepsLanes s (v.sendPause i cls quanta) := fun v hv quanta =>
    ite hv (ite hv.count64.count64.emit hv.count64.count64.emit)
  exact ite h (ite (hsend _ h.putPort _) (ite (hsend _ h.putPort _) h))

theorem headroom {p : Pkt} : KeepsLanes s (t.headroom p).2.2 := by
  unfold State.headroom
  split
  · exact h
  · split
    · dsimp only
      split
      · exact h.higher
      · exact h
    · dsimp only
      split
      · exact h.higher
      · exact h

theorem admitTo {p : Pkt} {d : Dest} : KeepsLanes s (t.admitTo p d).2.2.2.2 := by
  unfold State.admitTo
  extract_lets g c x occ mx _ _ r1 _ r2
  have h1 : KeepsLanes s r1.2.2.2 := by
    unfold r1
    repeat' split
    · exact h
    · exact h
    · exact h
    · exact h.higher.set
    · exact h
  have h2 : KeepsLanes s r2.2.2.2 := by
    unfold r2
    split
    · exact h1.headroom
    · exact h1
  split
  · exact h2
  · exact count64 (h2.higher.set.ite_left fun h3 => h3.higher)

theorem refuse {p : Pkt} {g code : Nat} : KeepsLanes s (t.refuse p g code) := by
  unfold State.refuse
  split
  · exact h.outcome.count64
  · exact h.outcome.count64
  · exact h.outcome.count64.count64
  · exact h.outcome

theorem allocDesc {x : Nat × Nat × State} (hx : t.allocDesc = some x) : KeepsLanes s x.2.2 := by
  unfold State.allocDesc at hx
  extract_lets d _ b at hx
  clear_value d b
  split at hx
  · cases hx
  · cases hx
    exact lower (storeWritten h.of_eq)

theorem freeDesc {y : Nat} : KeepsLanes s (t.freeDesc y) := higher h.of_eq

theorem takeExt : KeepsLanes s t.takeExt.2 := h.draw.lower.storeWritten

theorem takeEntry : KeepsLanes s t.takeEntry.2 := h.draw.storeWritten

/-! ### A postcard's frame enters its queue (R212, R308) -/

theorem admitAll {p : Pkt} {ds : List Dest} : KeepsLanes s (t.admitAll p ds).2.2 := by
  induction ds generalizing t p with
  | nil => exact h
  | cons d ds ih =>
    unfold State.admitAll
    split
    · exact ih h
    · exact ih h.admitTo

theorem refuseAll {p : Pkt} {vs : List (Dest × Nat)} {code : Nat} : KeepsLanes s (t.refuseAll p vs code) :=
  discardArrival (each h fun _ _ h1 => h1.refuse)

theorem tagArrival {p g l : Nat} : KeepsLanes s (t.tagArrival p g l) := ite h.set h

theorem settled {g : Nat} : KeepsLanes s (t.settled g) := h.mapPkts

theorem queueUp {fid : Nat} {y : Holder} : KeepsLanes s (t.queueUp fid y) := by
  unfold State.queueUp
  dsimp only
  have hentry : KeepsLanes s (if t.queue y.queue = [] then t.settled y.queue else t).takeEntry.2 :=
    takeEntry (ite h.settled h)
  split
  · exact hentry.of_eq
  · split
    · exact of_eq (ite hentry.tagArrival.putPkt hentry.putPkt)
    · exact hentry.of_eq

theorem deliver {fid : Nat} {hs : List Holder} : KeepsLanes s (t.deliver fid hs) := by
  unfold State.deliver
  refine each (each h fun _ _ h1 => h1.queueUp) fun _ _ h1 => ?_
  split
  · exact ite h1 h1.discardHolder
  · exact h1

theorem makePacket {p : Pkt} {y g : Nat} {vs : List Verdict} : KeepsLanes s (t.makePacket p y g vs) :=
  deliver (each (each (ite_right (count64 (lower (putPkt (arrivalSub (ite_snd h.takeExt h))))) fun h1 => pfcCheck
    (higher h1)) fun _ _ h1 => h1.refuse) fun _ _ h1 => h1.count64)

theorem enqueueTo {p : Pkt} {ds : List Dest} : KeepsLanes s (t.enqueueTo p ds).2 := by
  unfold State.enqueueTo
  extract_lets q
  split
  · exact h.refuseAll
  · rename_i hx
    extract_lets r n whole v
    have h1 := h.allocDesc hx
    have hv : KeepsLanes s v := h1.freeDesc
    exact ite_snd hv.refuseAll (ite_snd hv.refuseAll (ite_snd hv.refuseAll h1.admitAll.makePacket))

theorem postcardLost {n k : Nat} : KeepsLanes s (t.postcardLost n k) := h.putTile.count64.report

theorem postcard {n : Nat} : KeepsLanes s (t.postcard n) := by
  unfold State.postcard
  extract_lets x k frame took q kind
  refine ite h ?_
  split
  · exact h
  · rename_i v hx
    have hv : KeepsLanes s v := by
      unfold State.deviceFrame at hx
      dsimp only at hx
      split at hx
      · cases hx
      · cases hx
        exact of_eq (grantCells h.putTile)
    exact ite hv.enqueueTo.count64 hv.enqueueTo.postcardLost

theorem postcardsDue : KeepsLanes s t.postcardsDue :=
  each h fun _ _ h1 => (each h1 fun _ _ h2 => h2.postcard).ite_right fun h3 => h3.putTile.postcardLost

/-! ### A port leaves UP (R102, R104-R106, R120, R122) -/

theorem sendMarkers {l : Nat} : KeepsLanes s (t.sendMarkers l) := h.draw.markerArmed.emit

theorem setFault {p : Nat} {f : List Nat} : KeepsLanes s (t.setFault p f) :=
  ite_right h.putPort fun h1 => each h1.emit fun _ _ h2 => h2.sendMarkers

theorem flushQueues {p : Nat} : KeepsLanes s (t.flushQueues p) := h.each fun _ _ h1 => h1.each fun _ _ h2 => h2.discardHolder

theorem loseTx {p : Nat} {x : Option Tx} {tail : Bool} : KeepsLanes s (t.loseTx p x tail) := by
  unfold State.loseTx
  split
  · exact h
  · exact ite h.count64.releaseAt h.count64.releaseAt

/-- What follows once the port has left UP: counts, its frames under way, its queues and the postcards due. -/
theorem afterDown {p cause rest : Nat} {x : PortX} {held hold flush : Bool} {g : GateX} {v : State} (hv : v =
      let t := if held then t.putGate p g else t
      let t := (t.count32 (O.LINK_CHANGES p)).set (O.LAST_DOWN_CAUSE p) cause
      let t := ((t.showPause p).set (O.VERIFY_STATUS p) rest).set (O.PREEMPT_ACTIVE p) 0
      let t := if hold then t else t.raise (0x100 + p / 16)
      ((t.loseTx p x.tail true).loseTx p x.txPre false).loseTx p x.txExp false) :
    KeepsLanes s (if flush then v.flushQueues p else v).postcardsDue := by
  have h1 : KeepsLanes s v := by
    subst hv
    exact loseTx (loseTx (loseTx (ite_right (set (set (set (set (count32 (ite h.putGate h)))))) fun h2 => h2.raise)))
  exact postcardsDue (ite h1.flushQueues h1)

theorem portDown {p cause : Nat} : KeepsLanes s (t.portDown p cause) :=
  ite h (afterDown (h.putPort (by exact fun _ => rfl)) rfl)

theorem laneLeft {l : Nat} : KeepsLanes s (t.laneLeft l) := by
  unfold State.laneLeft
  split
  · exact h.portDown.setFault
  · exact h

end

/-- A port that has left UP is down. -/
theorem port_portDown (s : State) (p cause : Nat) : ((s.portDown p cause).port p).up = false := by
  unfold State.portDown
  extract_lets x hold t1 g t2 t3 t4 t5 t6
  split
  · rename_i hdown
    simpa using hdown
  · have hdown : (t1.port p).up = false := congrArg PortX.up (State.port_putPort _ _ _)
    exact (afterDown (refl t1) (x := x) rfl).ports p hdown

end KeepsLanes
end Sys2Proof.Machine
end

section
/-!
What the operations on one lane write (R79-R94): coefficients, a change of stage, and folds of such steps over lanes.
-/
namespace Sys2Proof.Machine

/-! ### Operations that write some objects and draw free values -/

/-- From `s` to `t` only values of `rs` change, and free values may be drawn. -/
structure Writes (rs : List Ref) (s t : State) : Prop where
  rest : ∃ n objs, t = { s with free := n, dict := { s.dict with objs := objs } }
  objs : ∀ r e, r ∉ rs → t.get r e = s.get r e

namespace Writes

theorem refl (rs : List Ref) (s : State) : Writes rs s s := ⟨⟨_, _, rfl⟩, fun _ _ _ => rfl⟩

variable {rs : List Ref} {s t u : State}

theorem ite {c : Prop} [Decidable c] (ht : Writes rs s t) (hu : Writes rs s u) : Writes rs s (if c then t else u) := by
  split
  · exact ht
  · exact hu

section
variable (h : Writes rs s t)
include h

theorem each {β : Type} {l : List β} {f : State → β → State} (hf : ∀ u x, Writes rs s u → Writes rs s (f u x)) :
    Writes rs s (t.each l f) :=
  State.each_keeps (Writes rs s) l f (fun u x _ => hf u x) t h

theorem set {r : Ref} {v e : Nat} (hr : r ∈ rs) : Writes rs s (t.set r v e) where
  rest := by
    obtain ⟨n, o, rfl⟩ := h.rest
    exact ⟨n, _, rfl⟩
  objs q e' hq := by
    have hne : q ≠ r := fun hqr => hq (by rw [hqr]; exact hr)
    rw [State.get_set_other t v e e' (.inl hne), h.objs q e' hq]

theorem setAll {r : Ref} {vs : List Nat} {e : Nat} (hr : r ∈ rs) : Writes rs s (t.setAll r vs e) := by
  induction vs generalizing t e with
  | nil => exact h
  | cons v vs ih => exact ih (h.set hr)

theorem draw {w : Nat} : Writes rs s (t.draw w).2 where
  rest := by
    obtain ⟨n, o, rfl⟩ := h.rest
    exact ⟨n + 1, o, rfl⟩
  objs := h.objs

theorem drawMany {w n : Nat} : Writes rs s (t.drawMany w n).2 := by
  induction n generalizing t with
  | zero => exact h
  | succ n ih => exact ih h.draw

theorem count32 {r : Ref} {n e : Nat} (hr : r ∈ rs) : Writes rs s (t.count32 r n e) := h.set hr
theorem count64 {r : Ref} {n e : Nat} (hr : r ∈ rs) : Writes rs s (t.count64 r n e) := h.set hr

theorem lanes : t.lanes = s.lanes := by obtain ⟨n, o, rfl⟩ := h.rest; rfl
theorem sys : t.sys = s.sys := by obtain ⟨n, o, rfl⟩ := h.rest; rfl
theorem ports : t.ports = s.ports := by obtain ⟨n, o, rfl⟩ := h.rest; rfl
theorem faults : t.faults = s.faults := by obtain ⟨n, o, rfl⟩ := h.rest; rfl
theorem out : t.out = s.out := by obtain ⟨n, o, rfl⟩ := h.rest; rfl
theorem lane (l : Nat) : t.lane l = s.lane l := by rw [State.lane, State.lane, h.lanes]

end

variable {l : Nat} (h : Writes rs s t)
include h

theorem putTaps (hf : O.FFE_TAPS l ∈ rs) (hc : O.CLAMP_COUNT l ∈ rs) {taps : List Int} : Writes rs s (t.putTaps l taps) :=
  h.each fun _ _ h1 => ((ite (h1.count32 hc) h1).set hf).set hf

theorem putDfe (hd : O.DFE_TAP l ∈ rs) (hc : O.CLAMP_COUNT l ∈ rs) {v : Int} : Writes rs s (t.putDfe l v) :=
  (ite h (h.count32 hc)).set hd

end Writes

/-- What adaptation writes (R88). -/
def coefRefs (l : Nat) : List Ref := [O.FFE_TAPS l, O.DFE_TAP l, O.CLAMP_COUNT l, O.SEQDET_CORRECTIONS l]

theorem State.adapt_writes (s : State) (l : Nat) : Writes (coefRefs l) s (s.adapt l) := by
  have h : ∀ t, Writes (coefRefs l) s t → Writes (coefRefs l) s (t.overturned l) := fun t ht =>
    Writes.ite (ht.draw.count64 (by simp [coefRefs])) ht
  refine h _ (Writes.ite (.refl _ s) ?_)
  exact Writes.count32 (.draw (.putDfe (.draw (.putTaps (.drawMany (.refl _ s)) (by simp [coefRefs]) (by simp [coefRefs])))
    (by simp [coefRefs]) (by simp [coefRefs]))) (by simp [coefRefs])

theorem State.adaptLive_writes (s : State) (l : Nat) : Writes (coefRefs l) s (s.adaptLive l) :=
  Writes.ite (Writes.ite ((Writes.refl _ s).draw.count64 (by simp [coefRefs])) (.refl _ s)) (s.adapt_writes l)

/-! ### Steps that change one lane -/

/-- From `s` to `t` no lane but `l` changes, and of the objects of area 2 none but `rs`; as in `KeepsLanes` for the rest. -/
structure LaneMoves (l : Nat) (rs : List Ref) (s t : State) : Prop where
  lane : ∀ k, k ≠ l → t.lane k = s.lane k
  seqDown : t.sys.seqDown = s.sys.seqDown
  objs : ∀ r e, r.idx / 4096 = 2 → r ∉ rs → t.get r e = s.get r e
  ports : ∀ p, (s.port p).up = false → (t.port p).up = false
  reports : s.faults.reports <+: t.faults.reports

theorem State.lane_putLane_other (s : State) {l k : Nat} (h : k ≠ l) (x : LaneX) : (s.putLane l x).lane k = s.lane k :=
  look_put_other _ _ _ h.symm _ _

@[simp] theorem State.lane_modLane (s : State) (l : Nat) (f : LaneX → LaneX) : (s.modLane l f).lane l = f (s.lane l) :=
  State.lane_putLane _ _ _

namespace LaneMoves

variable {l : Nat} {rs : List Ref} {s t u : State}

theorem of_keeps (h : KeepsLanes s t) : LaneMoves l rs s t where
  lane k _ := by rw [State.lane, h.lanes]; rfl
  seqDown := h.seqDown
  objs r e hi _ := h.objs r e hi
  ports := h.ports
  reports := h.reports

theorem refl (l : Nat) (rs : List Ref) (s : State) : LaneMoves l rs s s := of_keeps (.refl s)

theorem trans (h : LaneMoves l rs s t) (h' : LaneMoves l rs t u) : LaneMoves l rs s u where
  lane k hk := (h'.lane k hk).trans (h.lane k hk)
  seqDown := h'.seqDown.trans h.seqDown
  objs r e hi hr := (h'.objs r e hi hr).trans (h.objs r e hi hr)
  ports p hp := h'.ports p (h.ports p hp)
  reports := h.reports.trans h'.reports

theorem mono {qs : List Ref} (h : LaneMoves l rs s t) (hq : rs ⊆ qs) : LaneMoves l qs s t :=
  { h with objs := fun r e hi hr => h.objs r e hi fun h' => hr (hq h') }

theorem ite {c : Prop} [Decidable c] (ht : LaneMoves l rs s t) (hu : LaneMoves l rs s u) :
    LaneMoves l rs s (if c then t else u) := by
  split
  · exact ht
  · exact hu

section
variable (h : LaneMoves l rs s t)
include h

theorem keeps (hu : KeepsLanes t u) : LaneMoves l rs s u := h.trans (of_keeps hu)

theorem writes {qs : List Ref} (hu : Writes qs t u) (hq : qs ⊆ rs) : LaneMoves l rs s u := h.trans
  { lane := fun k _ => hu.lane k, seqDown := by rw [hu.sys], objs := fun r e _ hr => hu.objs r e fun h' => hr (hq h'),
    ports := fun p hp => by rw [State.port, hu.ports]; exact hp, reports := by rw [hu.faults] }

theorem set {r : Ref} {v e : Nat} (hr : r ∈ rs := by simp [stageRefs]) : LaneMoves l rs s (t.set r v e) :=
  h.writes ((Writes.refl rs t).set hr) fun _ => id

theorem modLane {f : LaneX → LaneX} : LaneMoves l rs s (t.modLane l f) :=
  { h with lane := fun k hk => (State.lane_putLane_other t hk _).trans (h.lane k hk) }

theorem emit {o : Output} : LaneMoves l rs s (t.emit o) := h.keeps (.emit (.refl t))

theorem sendMarkers : LaneMoves l rs s (t.sendMarkers l) := h.keeps (.sendMarkers (.refl t))

theorem setCmd {r : Ref} {st err : Nat} {res : List Byte} : LaneMoves l rs s (t.setCmd r st err res) :=
  h.keeps (.of_eq (.refl t))

end

end LaneMoves

/-- The coefficients with which a lane waits in DETECT (R88). -/
theorem Writes.startCoefs (s : State) (l : Nat) :
    Writes [O.FFE_TAPS l, O.DFE_TAP l, O.CLAMP_COUNT l] s ((s.putTaps l (List.replicate 36 0)).putDfe l 0) :=
  ((Writes.refl _ s).putTaps (by simp) (by simp)).putDfe (by simp) (by simp)

/-! ### A lane leaves and enters stages (R79, R94) -/

/-- A lane that leaves ACTIVE fails its eye scan and thaws, before its port leaves UP. -/
def State.thawed (s : State) (l : Nat) : State :=
  ((if s.cmdRunning (O.EYE_SCAN l) then s.cmdFail (O.EYE_SCAN l) Err.state else s).set (O.FROZEN l) 0).modLane l
    fun x => { x with degraded := 0 }

section
variable {s : State} {l st why : Nat}

theorem State.stageLeave_active (ha : s.stage l = Stage.active) (hs : st ≠ Stage.active) :
    s.stageLeave l st = (s.thawed l).laneLeft l := if_neg (by simp [ha, hs])

theorem State.stageLeave_other (ha : s.stage l ≠ Stage.active) : s.stageLeave l st = s := if_pos (.inl ha)

theorem State.laneGo_held (h : s.sys.seqDown.contains (bankOfLane l) = true) : s.laneGo l st why = s := if_pos h

theorem State.laneGo_free (h : s.sys.seqDown.contains (bankOfLane l) = false) :
    s.laneGo l st why = (s.stageLeave l st).stageEnter l st why := if_neg (ne_true_of_eq_false h)

theorem State.thawed_cmd (s : State) (l : Nat) : ∃ cmds, s.thawed l =
    (({ s with dict := { s.dict with cmds := cmds } }).set (O.FROZEN l) 0).modLane l fun x => { x with degraded := 0 } := by
  unfold State.thawed
  split
  · exact ⟨_, rfl⟩
  · exact ⟨_, rfl⟩

theorem LaneMoves.thawed (s : State) (l : Nat) : LaneMoves l [O.FROZEN l] s (s.thawed l) :=
  modLane (set (ite (setCmd (refl l _ s)) (refl l _ s)))

theorem LaneMoves.stageLeave (s : State) (l st : Nat) : LaneMoves l [O.FROZEN l] s (s.stageLeave l st) :=
  ite (refl l _ s) ((thawed s l).keeps (.laneLeft (.refl _)))

/-- Leaving a stage changes of the lane itself at most the count of its low readings. -/
theorem State.lane_stageLeave (s : State) (l st : Nat) :
    (s.stageLeave l st).lane l = s.lane l ∨ (s.stageLeave l st).lane l = { s.lane l with degraded := 0 } := by
  by_cases h : s.stage l ≠ Stage.active ∨ st = Stage.active
  · exact .inl (by rw [State.stageLeave, if_pos h])
  · rw [State.stageLeave, if_neg h]
    refine .inr ?_
    have hkeeps : KeepsLanes (s.thawed l) ((s.thawed l).laneLeft l) := .laneLeft (.refl _)
    obtain ⟨cmds, hthawed⟩ := s.thawed_cmd l
    refine (congrArg (look LaneX.reset · l) hkeeps.lanes).trans ?_
    exact (congrArg (State.lane · l) hthawed).trans (State.lane_modLane _ _ _)

theorem LaneMoves.stageEnter (s : State) (l st why : Nat) : LaneMoves l (stageRefs l) s (s.stageEnter l st why) := by
  have h : LaneMoves l (stageRefs l) s ((s.set (O.STAGE l) st).set (O.LAST_EXIT l) why) := (refl l _ s).set.set
  have hfresh : ∀ t, LaneMoves l (stageRefs l) s t → LaneMoves l (stageRefs l) s (t.trainFresh l) := fun t ht =>
    ht.set.set.modLane
  have hcoefs : ∀ t, LaneMoves l (stageRefs l) s t →
      LaneMoves l (stageRefs l) s ((t.putTaps l (List.replicate 36 0)).putDfe l 0) := fun t ht =>
    ht.writes (.startCoefs t l) (by simp [stageRefs])
  unfold State.stageEnter
  dsimp only
  split
  · exact h.set.set.modLane
  · exact ite (hcoefs _ (hfresh _ h.modLane)).emit (hcoefs _ (hfresh _ h.modLane))
  · exact ite (hfresh _ h).set.emit (hfresh _ h).set
  · exact ite h.modLane.sendMarkers h.modLane
  · exact h.modLane.emit.modLane
  · exact h

/-- Entering LOCK writes of the lane's objects its stage and reason alone. -/
theorem LaneMoves.stageEnter_lock (s : State) (l why : Nat) :
    LaneMoves l [O.STAGE l, O.LAST_EXIT l] s (s.stageEnter l Stage.lock why) := by
  have h : LaneMoves l [O.STAGE l, O.LAST_EXIT l] s ((s.set (O.STAGE l) Stage.lock).set (O.LAST_EXIT l) why) :=
    (refl l _ s).set.set
  exact ite h.modLane.sendMarkers h.modLane

/-- Entering a stage reports nothing. -/
theorem State.reports_stageEnter (s : State) (l st why : Nat) :
    (s.stageEnter l st why).faults.reports = s.faults.reports := by
  have hmarkers : ∀ t : State, (t.sendMarkers l).faults.reports = t.faults.reports := fun t => by
    unfold State.sendMarkers State.markerArmed
    dsimp only
    split <;> rfl
  have hcoefs : ∀ t : State, ((t.putTaps l (List.replicate 36 0)).putDfe l 0).faults.reports = t.faults.reports :=
    fun t => congrArg Faults.reports (Writes.startCoefs t l).faults
  unfold State.stageEnter
  dsimp only
  split
  · rfl
  · exact (apply_ite (fun t : State => t.faults.reports) _ _ _).trans ((ite_self _).trans (hcoefs _))
  · split <;> rfl
  · split
    · exact hmarkers _
    · rfl
  · rfl
  · rfl

/-- A change of a lane's stage changes no other lane. -/
theorem LaneMoves.laneGo (s : State) (l st why : Nat) : LaneMoves l (stageRefs l) s (s.laneGo l st why) :=
  ite (refl l _ s) (((stageLeave s l st).mono (by simp [stageRefs])).trans (stageEnter _ l st why))

theorem LaneMoves.laneGo_lock (s : State) (l why : Nat) :
    LaneMoves l [O.STAGE l, O.LAST_EXIT l, O.FROZEN l] s (s.laneGo l Stage.lock why) :=
  ite (refl l _ s) (((stageLeave s l _).mono (by simp)).trans ((stageEnter_lock _ l why).mono (by simp)))

/-- A lane that does not leave ACTIVE reports nothing by changing its stage. -/
theorem State.reports_laneGo (ha : s.stage l ≠ Stage.active) : (s.laneGo l st why).faults.reports = s.faults.reports := by
  unfold State.laneGo
  rw [State.stageLeave_other ha]
  split
  · rfl
  · exact State.reports_stageEnter s l st why

/-- Another lane keeps its stage. -/
theorem LaneMoves.stage {t : State} (h : LaneMoves l (stageRefs l) s t) {k : Nat} (hk : k ≠ l) :
    t.stage k = s.stage k := h.objs (O.STAGE k) 0 (by simp) (by simp [stageRefs, hk])

/-- The lanes' ports follow from the port maps. -/
theorem State.portOfLane_congr {s t : State} (h : ∀ n e, t.get (O.PORT_MAP n) e = s.get (O.PORT_MAP n) e) (l : Nat) :
    t.portOfLane l = s.portOfLane l := by
  have hbyte : t.mapByte = s.mapByte := funext fun n => funext fun i => h n i
  have hwidth : t.portWidth = s.portWidth := funext fun p => by unfold State.portWidth; rw [hbyte]
  unfold State.portOfLane
  rw [hwidth]

theorem State.portOfLane_thawed (s : State) (l k : Nat) : (s.thawed l).portOfLane k = s.portOfLane k := by
  obtain ⟨cmds, h⟩ := s.thawed_cmd l
  refine State.portOfLane_congr (fun n e => ?_) k
  rw [h]
  exact State.get_set_other _ _ _ _ (.inl (by simp))

/-- A lane that leaves ACTIVE takes its port out of UP (R105). -/
theorem State.portDown_laneGo (hb : s.sys.seqDown.contains (bankOfLane l) = false) (ha : s.stage l = Stage.active)
    (hs : st ≠ Stage.active) {p : Nat} (hp : s.portOfLane l = some p) : ((s.laneGo l st why).port p).up = false := by
  rw [State.laneGo_free hb, State.stageLeave_active ha hs]
  refine (LaneMoves.stageEnter _ l st why).ports p ?_
  have hp' : (s.thawed l).portOfLane l = some p := (s.portOfLane_thawed l l).trans hp
  rw [State.laneLeft, hp']
  exact (KeepsLanes.refl _).setFault.ports p (KeepsLanes.port_portDown _ _ _)

end

end Sys2Proof.Machine
end

section
/-!
A lane falls back (R79, R82, R89-R91): the event counts and reports, and the lane changes its stage.
-/
namespace Sys2Proof.Machine

/-! ### What the lane itself keeps and loses -/

section
variable {s : State} {l why : Nat}

@[simp] theorem State.lane_sendTraining (s : State) (l k : Nat) : (s.sendTraining l).lane k = s.lane k := rfl

theorem State.lane_trainFresh (s : State) (l : Nat) :
    (s.trainFresh l).lane l = (s.lane l).retrained (s.get (O.PRECODE l) == 1) := State.lane_modLane _ l _

/-- A lane that enters TRAIN trains from the start (R80). -/
theorem State.lane_stageEnter_train (s : State) (l why : Nat) :
    (s.stageEnter l Stage.train why).lane l = (s.lane l).retrained (s.get (O.PRECODE l) == 1) := by
  have hprecode : ((s.set (O.STAGE l) Stage.train).set (O.LAST_EXIT l) why).get (O.PRECODE l) = s.get (O.PRECODE l) :=
    (State.get_set_other _ _ _ _ (.inl (by simp))).trans (State.get_set_other _ _ _ _ (.inl (by simp)))
  rw [← hprecode]
  exact (apply_ite (State.lane · l) _ _ _).trans ((ite_self _).trans (State.lane_trainFresh _ l))

theorem State.lane_laneGo_train (hb : s.sys.seqDown.contains (bankOfLane l) = false) :
    ∃ c, (s.laneGo l Stage.train why).lane l = (s.lane l).retrained c ∨
      (s.laneGo l Stage.train why).lane l = { s.lane l with degraded := 0 }.retrained c := by
  rw [State.laneGo_free hb, State.lane_stageEnter_train]
  rcases s.lane_stageLeave l Stage.train with h | h
  · exact ⟨_, .inl (by rw [h])⟩
  · exact ⟨_, .inr (by rw [h])⟩

theorem State.g4Held_laneGo_train (hb : s.sys.seqDown.contains (bankOfLane l) = false) :
    ((s.laneGo l Stage.train why).lane l).g4Held = (s.lane l).g4Held := by
  obtain ⟨c, h | h⟩ := State.lane_laneGo_train (why := why) hb
  · rw [h]; rfl
  · rw [h]; rfl

theorem State.degraded_laneGo_train (hb : s.sys.seqDown.contains (bankOfLane l) = false)
    (hd : (s.lane l).degraded = 0) : ((s.laneGo l Stage.train why).lane l).degraded = 0 := by
  obtain ⟨c, h | h⟩ := State.lane_laneGo_train (why := why) hb
  · rw [h]; exact hd
  · rw [h]; rfl

theorem State.los_stageEnter_detect (s : State) (l why : Nat) :
    ((s.stageEnter l Stage.detect why).lane l).los = ((s.lane l).los || s.stage l == Stage.off) := by
  have hcoefs : ∀ u : State, (((u.putTaps l (List.replicate 36 0)).putDfe l 0).lane l) = u.lane l := fun u =>
    (Writes.startCoefs u l).lane l
  show ((ite _ (State.sendTraining _ l) _ : State).lane l).los = _
  split
  · rw [State.lane_sendTraining, hcoefs, State.lane_trainFresh, State.lane_modLane]
    rfl
  · rw [hcoefs, State.lane_trainFresh, State.lane_modLane]
    rfl

/-- A lane whose signal is lost stays so in DETECT (R90). -/
theorem State.los_laneGo_detect (hb : s.sys.seqDown.contains (bankOfLane l) = false) (hl : (s.lane l).los = true) :
    ((s.laneGo l Stage.detect why).lane l).los = true := by
  have hleft : ((s.stageLeave l Stage.detect).lane l).los = true := by
    rcases s.lane_stageLeave l Stage.detect with h | h
    · rw [h]; exact hl
    · rw [h]; exact hl
  rw [State.laneGo_free hb, State.los_stageEnter_detect, hleft, Bool.true_or]

/-- A lane that leaves ACTIVE for LOCK is not frozen any more (R94). -/
theorem State.frozen_laneGo_lock (hb : s.sys.seqDown.contains (bankOfLane l) = false) (ha : s.stage l = Stage.active) :
    (s.laneGo l Stage.lock why).get (O.FROZEN l) = 0 := by
  have hleft : KeepsLanes (s.thawed l) ((s.thawed l).laneLeft l) := .laneLeft (.refl _)
  obtain ⟨cmds, hthawed⟩ := s.thawed_cmd l
  rw [State.laneGo_free hb, State.stageLeave_active ha (by decide)]
  refine ((LaneMoves.stageEnter_lock _ l why).objs (O.FROZEN l) 0 (by simp) (by simp)).trans ?_
  rw [hleft.objs (O.FROZEN l) 0 (by simp), hthawed]
  exact State.get_set_same _ _ _ _

end

/-! ### The event counts, reports and moves the lane -/

/-- The sources of the reports sent. -/
abbrev State.sources (s : State) : List Nat := s.faults.reports.map (·.source)

/-- From `s` to `t` event `i` of lane `l` is counted and reported by source family `src`; every lane keeps its stage. -/
structure Counted (l i src : Nat) (s t : State) : Prop where
  stages : ∀ k, t.stage k = s.stage k
  seqDown : t.sys.seqDown = s.sys.seqDown
  portOfLane : ∀ k, t.portOfLane k = s.portOfLane k
  events : t.get (O.LANE_EVENTS l i) = min (s.get (O.LANE_EVENTS l i) + 1) (2 ^ 32 - 1)
  sources : t.sources = s.sources ++ [src + l / 64]

/-- From `s` to `u` event `i` of lane `l` is counted and reported, and the lane is in stage `st` for reason `why`. -/
structure FellBack (l i src st why : Nat) (s u : State) : Prop where
  stage : u.stage l = st
  exit : u.get (O.LAST_EXIT l) = why
  events : u.get (O.LANE_EVENTS l i) = min (s.get (O.LANE_EVENTS l i) + 1) (2 ^ 32 - 1)
  sources : (s.sources ++ [src + l / 64]) <+: u.sources
  others : ∀ k, k ≠ l → u.stage k = s.stage k
  portGone : s.stage l = Stage.active → ∀ k, s.portOfLane l = some k → (u.port k).up = false

section
variable {s t : State} {l i src st why : Nat}

theorem State.counted (s : State) (l i src : Nat) : Counted l i src s ((s.count32 (O.LANE_EVENTS l i)).reportLane src l) where
  stages k := State.get_set_other _ _ _ _ (.inl (by simp))
  seqDown := rfl
  portOfLane k := State.portOfLane_congr (fun _ _ => State.get_set_other _ _ _ _ (.inl (by simp))) k
  events := State.get_set_same _ _ _ _
  sources := List.map_append

theorem Counted.modLane (h : Counted l i src s t) (f : LaneX → LaneX) : Counted l i src s (t.modLane l f) := { h with }

theorem Counted.laneGo (h : Counted l i src s t) (hb : s.sys.seqDown.contains (bankOfLane l) = false)
    (hs : st ≠ Stage.active) : FellBack l i src st why s (t.laneGo l st why) where
  stage := State.stage_laneGo t l st why (h.seqDown ▸ hb)
  exit := State.lastExit_laneGo t l st why (h.seqDown ▸ hb)
  events := ((LaneMoves.laneGo t l st why).objs (O.LANE_EVENTS l i) 0 (by simp) (by simp [stageRefs])).trans h.events
  sources := h.sources ▸ (LaneMoves.laneGo t l st why).reports.map _
  others k hk := ((LaneMoves.laneGo t l st why).stage hk).trans (h.stages k)
  portGone ha k hk := State.portDown_laneGo (h.seqDown ▸ hb) ((h.stages l).trans ha) hs ((h.portOfLane l).trans hk)

/-- Where the lane does not leave ACTIVE nothing but the event is reported. -/
theorem Counted.sources_laneGo (h : Counted l i src s t) (ha : s.stage l ≠ Stage.active) :
    (t.laneGo l st why).sources = s.sources ++ [src + l / 64] := by
  rw [State.sources, State.reports_laneGo (fun h' => ha ((h.stages l).symm.trans h'))]
  exact h.sources

end

/-! ### A port's lanes -/

theorem State.mem_portLanes_of_portOfLane {s : State} {l p : Nat} (h : s.portOfLane l = some p) : l ∈ s.portLanes p := by
  obtain ⟨d, _, hd⟩ := List.exists_of_findSome?_eq_some h
  split at hd
  · rename_i hc
    obtain ⟨hle, hw⟩ := hc
    cases hd
    exact List.mem_map.2 ⟨d, List.mem_range.2 hw, by omega⟩
  · cases hd

theorem State.nodup_portLanes (s : State) (p : Nat) : (s.portLanes p).Nodup :=
  (List.nodup_range).map fun a b h => by simpa using h

/-! ### RETRAIN (R82, R103) -/

/-- G4 is offered again on the lanes of a lane's port. -/
def State.offered (s : State) (l : Nat) : State :=
  match s.portOfLane l with
  | some p => s.offerG4 p
  | none => s.modLane l fun x => { x with g4Held := false }

theorem State.retrain_eq (s : State) (l : Nat) : s.retrain l = (s.offered l).laneGo l Stage.train 4 := rfl

theorem State.offered_rest (s : State) (l : Nat) :
    ∃ ls ps, s.offered l = { s with lanes := ls, ports := ps } := by
  unfold State.offered
  split
  · exact State.each_keeps (fun t => ∃ ls ps, t = { s with lanes := ls, ports := ps }) _ _
      (fun t k _ ⟨ls, ps, h⟩ => by subst h; exact ⟨_, ps, rfl⟩) _ ⟨s.lanes, _, rfl⟩
  · exact ⟨_, s.ports, rfl⟩

@[simp] theorem State.offered_dict (s : State) (l : Nat) : (s.offered l).dict = s.dict := by
  obtain ⟨ls, ps, h⟩ := s.offered_rest l; rw [h]
@[simp] theorem State.offered_sys (s : State) (l : Nat) : (s.offered l).sys = s.sys := by
  obtain ⟨ls, ps, h⟩ := s.offered_rest l; rw [h]
@[simp] theorem State.get_offered (s : State) (l : Nat) (r : Ref) (e : Nat) : (s.offered l).get r e = s.get r e := by
  rw [State.get, State.getK, State.offered_dict]; rfl

theorem State.lane_offered (s : State) (l : Nat) : (s.offered l).lane l = { s.lane l with g4Held := false } := by
  unfold State.offered
  split
  · rename_i p hp
    refine (State.each_local State.lane (fun _ x => { x with g4Held := false }) _ (fun t k => State.lane_putLane t k _)
      (fun t k j hj => State.lane_putLane_other _ hj _) _ (s.nodup_portLanes p) _ l).trans ?_
    rw [if_pos (State.mem_portLanes_of_portOfLane hp)]
    rfl
  · exact State.lane_modLane _ _ _

section
variable {s : State} {l : Nat} (hb : s.sys.seqDown.contains (bankOfLane l) = false)
include hb

theorem State.stage_retrain : (s.retrain l).stage l = Stage.train :=
  State.stage_laneGo (s.offered l) _ _ _ (by rwa [State.offered_sys])

theorem State.lastExit_retrain : (s.retrain l).get (O.LAST_EXIT l) = 4 :=
  State.lastExit_laneGo (s.offered l) _ _ _ (by rwa [State.offered_sys])

theorem State.g4Held_retrain : ((s.retrain l).lane l).g4Held = false := by
  rw [State.retrain_eq, State.g4Held_laneGo_train (by rwa [State.offered_sys]), State.lane_offered]

theorem State.degraded_retrain (hd : (s.lane l).degraded = 0) : ((s.retrain l).lane l).degraded = 0 :=
  State.degraded_laneGo_train (s := s.offered l) (by rwa [State.offered_sys]) (by rw [State.lane_offered]; exact hd)

theorem State.portGone_retrain (ha : s.stage l = Stage.active) {k : Nat} (hk : s.portOfLane l = some k) :
    ((s.retrain l).port k).up = false :=
  State.portDown_laneGo (s := s.offered l) (by rwa [State.offered_sys]) ((s.get_offered _ _ _).trans ha) (by decide)
    ((State.portOfLane_congr (fun _ _ => s.get_offered _ _ _) l).trans hk)

end

/-- No object of area 2 but the lane's own changes. -/
theorem State.get_retrain (s : State) (l : Nat) {r : Ref} {e : Nat} (hi : r.idx / 4096 = 2) (hr : r ∉ stageRefs l) :
    (s.retrain l).get r e = s.get r e :=
  ((LaneMoves.laneGo _ l _ _).objs r e hi hr).trans (s.get_offered l r e)

theorem State.stage_retrain_other (s : State) {l k : Nat} (hk : k ≠ l) : (s.retrain l).stage k = s.stage k :=
  s.get_retrain l (by simp) (by simp [stageRefs, hk])

/-- A bank whose microsequencer has lost its memory holds its lanes. -/
theorem State.stage_retrain_held {s : State} {l : Nat} (hb : s.sys.seqDown.contains (bankOfLane l) = true) (k : Nat) :
    (s.retrain l).stage k = s.stage k := by
  rw [State.retrain_eq, State.laneGo_held (by rwa [State.offered_sys]), State.stage, State.get_offered]

/-- The row of RETRAIN. -/
def retrainRow : ObjRow := ⟨0x2101, 5, 5, .cmd, .cmd, 0, 0, .upto 512, .none, []⟩

theorem finds_retrain (s : State) (l : Lane) : Finds s false (O.RETRAIN l) retrainRow := by
  have hhead : (indexRows 0x2101).head? = some ⟨0x2101, 1, 1, .enum, .ro, 2, 2, .upto 512, .none, []⟩ := by
    decide +kernel
  have hrow : rowOf (indexRows 0x2101) 5 = some retrainRow := by decide +kernel
  exact finds_of_rowOf hhead (decide_eq_true l.isLt) hrow (by simp)

theorem State.command_retrain (s : State) (l : Nat) : s.command (O.RETRAIN l) [] =
    if Stage.train ≤ s.stage l then (Err.ok, (s.retrain l).cmdDone (O.RETRAIN l)) else (Err.state, s) := (rfl)

theorem State.cmdRange_retrain (s : State) (l : Nat) : s.cmdRange (O.RETRAIN l) [] = true := (rfl)

/-- RETRAIN is a write of its command object. -/
theorem exec_retrain_write (s : State) (p : Path) (l : Lane) :
    exec (.retrain p l) s = exec (.write p (O.RETRAIN l) 0 []) s := rfl

section
variable {s : State} {p : Path} {l : Lane}

theorem retrain_takes (h : Takes s p (O.RETRAIN l)) (ht : Stage.train ≤ s.stage l) : exec (.retrain p l) s =
    .next (answers s p Err.ok (((fresh s).retrain l).cmdDone (O.RETRAIN l))) := by
  rw [exec_retrain_write]
  exact write_cmd_takes h (finds_retrain s l) rfl (.inl (by simp)) rfl (s.cmdRange_retrain l)
    (State.diagRefuses_of_area (by simp) false) ((State.command_retrain _ _).trans (if_pos ht))

theorem retrain_refused (h : Takes s p (O.RETRAIN l)) (ht : s.stage l ≤ Stage.detect) :
    exec (.retrain p l) s = .next (refused s p Err.state) := by
  obtain ⟨hready, hl, hbusy, hrun⟩ := h
  rw [exec_retrain_write]
  refine write_cmd_refused hready (finds_retrain s l) rfl (.inl (by simp)) hl ?_
  rw [State.cmdOp_command (s := fresh s) rfl (State.cmdRange_retrain _ l) hbusy hrun
    (State.diagRefuses_of_area (by simp) false), State.command_retrain]
  exact if_neg (by simp only [Stage.train, Stage.detect] at ht ⊢; exact Nat.not_le.2 (Nat.lt_succ_of_le ht))

/-- Whatever RETRAIN answers, its effect is none or the retraining. -/
theorem State.writeOp_retrain (s : State) (p : Path) (l : Lane) :
    (s.writeOp p (O.RETRAIN l) 0 []).2 = s ∨
      (s.writeOp p (O.RETRAIN l) 0 []).2 = (s.retrain l).cmdDone (O.RETRAIN l) := by
  have hcmd : (s.cmdOp retrainRow (O.RETRAIN l) []).2 = s ∨
      (s.cmdOp retrainRow (O.RETRAIN l) []).2 = (s.retrain l).cmdDone (O.RETRAIN l) := by
    unfold State.cmdOp
    repeat' split
    iterate 5 exact .inl rfl
    rw [State.command_retrain]
    split
    · exact .inr rfl
    · exact .inl rfl
  by_cases hl : s.leasedAway p ((O.RETRAIN l).idx / 4096) = true
  · rw [State.writeOp_leased (finds_retrain s l) (State.writeRight_written (.inr (.inr rfl)) (.inl (by simp))) hl]
    exact .inl rfl
  · rwa [State.writeOp_eq_cmdOp (finds_retrain s l) rfl (State.writeRight_written (.inr (.inr rfl)) (.inl (by simp)))
      (Bool.eq_false_iff.2 hl)]

/-- RETRAIN of a lane whose bank's microsequencer has lost its memory. -/
theorem retrain_held (h : Runs s) (hb : s.sys.seqDown.contains (bankOfLane l) = true) :
    Does (.retrain p l) s fun u => ∀ k, u.stage k = s.stage k := by
  rw [does_iff (exec_retrain.trans rfl) h]
  intro k
  show ((fresh s).direct p 3 (O.RETRAIN l) 0 0 []).stage k = s.stage k
  unfold State.direct
  split
  · rfl
  · show ((fresh s).writeOp p (O.RETRAIN l) 0 []).2.stage k = s.stage k
    rcases (fresh s).writeOp_retrain p l with hw | hw
    · rw [hw]
      rfl
    · rw [hw]
      exact State.stage_retrain_held (s := fresh s) hb k

end

/-! ### Deskew (R89) -/

/-- What DESKEW_FAIL writes of a lane: its skew, and that the deskew has failed. -/
def State.deskewed (ks : List Nat) (s : State) (x : Nat × Nat) : State :=
  (s.set (O.SKEW_PS x.1) (x.2 - ks.foldl min (ks.headD 0))).modLane x.1 fun y => { y with deskew := true }

/-- The lanes of a port with their skews. -/
theorem State.portLanes_zip (s : State) (p : Nat) (ks : List Nat) (h : ks.length = s.portWidth p) :
    (s.portLanes p).zip ks = (List.range (s.portWidth p)).map fun i => (p + i, ks.getD i 0) := by
  refine List.ext_getElem (by simp [State.portLanes, h]) fun i hi _ => ?_
  have hik : i < ks.length := by
    rw [List.length_zip] at hi
    omega
  simp [State.portLanes, hik]

theorem State.deskewed_lanes (s : State) (p n : Nat) (ks : List Nat) (i : Nat) (hi : i < n) :
    let u := s.each ((List.range n).map fun i => (p + i, ks.getD i 0)) (State.deskewed ks)
    (u.lane (p + i)).deskew = true ∧ u.get (O.SKEW_PS (p + i)) = ks.getD i 0 - ks.foldl min (ks.headD 0) := by
  have hshown := State.each_local (fun t i => ((t.lane (p + i)).deskew, t.get (O.SKEW_PS (p + i))))
    (fun i _ => (true, ks.getD i 0 - ks.foldl min (ks.headD 0))) (fun t i => t.deskewed ks (p + i, ks.getD i 0))
    (fun t i => Prod.ext (congrArg LaneX.deskew (State.lane_modLane _ _ _)) (State.get_set_same _ _ _ _))
    (fun t i k hk => Prod.ext (congrArg LaneX.deskew (State.lane_putLane_other _ (by omega) _))
      (State.get_set_other _ _ _ _ (.inl (by simp [hk])))) (List.range n) List.nodup_range s i
  rw [if_pos (List.mem_range.2 hi)] at hshown
  simp only [State.each, List.foldl_map]
  exact Prod.mk.inj hshown

theorem State.deskewed_rest (s : State) (l : List (Nat × Nat)) (ks : List Nat) :
    (s.each l (State.deskewed ks)).faults = s.faults ∧
      ∀ r e, r.idx ≠ 0x2101 ∨ r.sub ≠ 7 → (s.each l (State.deskewed ks)).get r e = s.get r e := by
  refine State.each_keeps (fun t => t.faults = s.faults ∧ ∀ r e, r.idx ≠ 0x2101 ∨ r.sub ≠ 7 → t.get r e = s.get r e)
    l (State.deskewed ks) (fun t x _ ⟨hf, ho⟩ => ⟨hf, fun r e hr => ?_⟩) s ⟨rfl, fun _ _ _ => rfl⟩
  refine (State.get_set_other _ _ _ _ (.inl fun h => ?_)).trans (ho r e hr)
  rw [h] at hr
  simp at hr

section
variable {s : State} {q : Port} {ks : List (BitVec 32)}

theorem exec_deskewFail_ran (h : Runs s) (hlen : ks.length = s.portWidth q)
    (hspread : skewLimit < spread (ks.map (·.toNat))) (hlocked : (s.portLanes q).all s.laneLocked = true)
    (hlock : (s.portLanes q).any (s.stage · == Stage.lock) = true) : exec (.deskewFail q ks) s =
      .next (ran s (((fresh s).each ((List.range (s.portWidth q)).map fun i => (q.val + i, (ks.map (·.toNat)).getD i 0))
        (State.deskewed (ks.map (·.toNat)))).reportLane 0x058 q)) := by
  have hlen' : (ks.map (·.toNat)).length = s.portWidth q := by rw [List.length_map, hlen]
  have hgo : ¬ ((ks.map (·.toNat)).length ≠ (s.portLanes q).length ∨ spread (ks.map (·.toNat)) ≤ skewLimit ∨
      !(s.portLanes q).all s.laneLocked ∨ !(s.portLanes q).any (s.stage · == Stage.lock)) := by
    rintro (hn | hn | hn | hn)
    · exact hn (by simp [State.portLanes, hlen])
    · exact Nat.not_le.2 hspread hn
    · simp [hlocked] at hn
    · simp [hlock] at hn
  rw [← s.portLanes_zip q _ hlen', exec_deskewFail, execDeskewFail, live_ran h]
  exact congrArg (fun u => (.next (ran s u) : Out)) (if_neg hgo)

theorem deskewFail_does (h : Runs s) (hlen : ks.length = s.portWidth q)
    (hspread : skewLimit < spread (ks.map (·.toNat))) (hlocked : (s.portLanes q).all s.laneLocked = true)
    (hlock : (s.portLanes q).any (s.stage · == Stage.lock) = true) :
    Does (.deskewFail q ks) s fun u => u.sources = s.sources ++ [0x058 + q.val / 64] ∧
      (∀ i, i < s.portWidth q → (u.lane (q.val + i)).deskew = true ∧ u.get (O.SKEW_PS (q.val + i)) =
        (ks.getD i 0).toNat - (ks.map (·.toNat)).foldl min ((ks.map (·.toNat)).headD 0)) ∧
      (∀ r e, r.idx ≠ 0x2101 ∨ r.sub ≠ 7 → u.get r e = s.get r e) := by
  have hnat : ∀ i, (ks.map (·.toNat)).getD i 0 = (ks.getD i 0).toNat := fun i => List.getD_map ks 0 BitVec.toNat
  have hlanes := fun i hi => (fresh s).deskewed_lanes q (s.portWidth q) (ks.map (·.toNat)) i hi
  obtain ⟨hfaults, hobjs⟩ := (fresh s).deskewed_rest
    ((List.range (s.portWidth q)).map fun i => (q.val + i, (ks.map (·.toNat)).getD i 0)) (ks.map (·.toNat))
  refine ⟨_, exec_deskewFail_ran h hlen hspread hlocked hlock, ?_, fun i hi => ?_, hobjs⟩
  · exact List.map_append.trans (congrArg (fun f : Faults => f.reports.map (·.source) ++ [0x058 + q.val / 64]) hfaults)
  · rw [← hnat i]
    exact hlanes i hi

end

end Sys2Proof.Machine
end

section
/-!
The statement on lanes that fall back (R79, R82, R89-R91, R383), clause by clause.
-/
namespace Sys2Proof.Machine

/-! ### From a command's effect to what it does -/

theorem exec_eq_ran {i : Instr} {s u : State} {f : State → State} (e : exec i s = live s f) (h : Runs s)
    (hf : f (fresh s) = u) : exec i s = .next (ran s u) := by rw [e, live_ran h, hf]

theorem exec_eq_fresh {i : Instr} {s : State} {f : State → State} (e : exec i s = live s f) (h : Runs s)
    (hf : f (fresh s) = fresh s) : exec i s = .next (fresh s) := e.trans (live_eq h hf rfl h)

theorem does_of_eq {i : Instr} {s u : State} {f : State → State} {P : State → Prop} (e : exec i s = live s f)
    (h : Runs s) (hf : f (fresh s) = u) (hP : P (ran s u)) : Does i s P := ⟨_, exec_eq_ran e h hf, hP⟩

/-- The lane's detector has seen its signal go. -/
def LaneX.lost (x : LaneX) : LaneX := { x with los := true, good := false }

/-! ### A bank whose microsequencer has lost its memory (R383) -/

section
variable {s t : State} {l : Lane} {i src st why : Nat}

theorem Counted.stage_held (hc : Counted l i src s t) (hb : s.sys.seqDown.contains (bankOfLane l) = true) (k : Nat) :
    (t.laneGo l st why).stage k = s.stage k := by
  rw [State.laneGo_held (hc.seqDown ▸ hb)]
  exact hc.stages k

theorem State.stage_laneGo_held {s : State} {l : Nat} (hb : s.sys.seqDown.contains (bankOfLane l) = true) (k : Nat) :
    (s.laneGo l st why).stage k = s.stage k := by rw [State.laneGo_held hb]

theorem State.putCaps_writes (s : State) (l caps : Nat) : Writes [O.PARTNER_CAPS l] s (s.putCaps l caps) :=
  (Writes.refl _ s).setAll (by simp)

theorem State.stage_putCaps (s : State) (l caps k : Nat) : (s.putCaps l caps).stage k = s.stage k :=
  (s.putCaps_writes l caps).objs _ _ (by simp)

section
variable (h : Runs s) (hb : s.sys.seqDown.contains (bankOfLane l) = true)
include h hb

theorem losAssert_held : Does (.losAssert l) s fun u => ∀ k, u.stage k = s.stage k := by
  rw [does_iff exec_losAssert h]
  intro k
  show (ite _ _ _ : State).stage k = _
  have hc := ((fresh s).counted l 1 0x030).modLane LaneX.lost
  split
  · rfl
  · show (ite _ _ _ : State).stage k = _
    split
    · exact hc.stages k
    · exact hc.stage_held hb k

theorem trainTimeout_held : Does (.trainTimeout l) s fun u => ∀ k, u.stage k = s.stage k := by
  rw [does_iff exec_trainTimeout h]
  intro k
  show (ite _ _ _ : State).stage k = _
  split
  · rfl
  · exact ((fresh s).counted l 3 0x040).stage_held hb k

theorem lockTimeout_held : Does (.lockTimeout l) s fun u => ∀ k, u.stage k = s.stage k := by
  rw [does_iff exec_lockTimeout h]
  intro k
  show (ite _ _ _ : State).stage k = _
  split
  · rfl
  · exact ((fresh s).counted l 4 0x048).stage_held hb k

theorem exchangeTimeout_held : Does (.exchangeTimeout l) s fun u => ∀ k, u.stage k = s.stage k := by
  rw [does_iff exec_exchangeTimeout h]
  intro k
  show (ite _ _ _ : State).stage k = _
  split
  · exact State.stage_laneGo_held (s := fresh s) hb k
  · rfl

theorem lockLoss_held : Does (.lockLoss l) s fun u => ∀ k, u.stage k = s.stage k := by
  rw [does_iff exec_lockLoss h]
  intro k
  show (ite _ _ _ : State).stage k = _
  split
  · exact ((fresh s).counted l 2 0x038).stage_held hb k
  · split
    · rfl
    · rfl

theorem partnerTrainingDetect_held : Does (.partnerTrainingDetect l) s fun u => ∀ k, u.stage k = s.stage k := by
  rw [does_iff exec_partnerTrainingDetect h]
  intro k
  show (ite _ _ _ : State).stage k = _
  rw [State.laneGo_held (s := fresh s) hb]
  split
  · exact State.stage_laneGo_held (s := fresh s) hb k
  · rfl

theorem losDeassert_held : Does (.losDeassert l) s fun u => ∀ k, u.stage k = s.stage k := by
  rw [does_iff exec_losDeassert h]
  intro k
  show (ite _ _ (State.laneAdvance _ _) : State).stage k = _
  unfold State.laneAdvance
  rw [if_pos (c := _ ∨ _) (.inr (.inr (.inr hb)))]
  split
  · rfl
  · rfl

theorem trainComplete_held : Does (.trainComplete l) s fun u => ∀ k, u.stage k = s.stage k := by
  rw [does_iff exec_trainComplete h, if_pos (.inr hb)]
  exact fun k => rfl

theorem exchangeBlockReceive_held (v : BitVec 128) :
    Does (.exchangeBlockReceive l v) s fun u => ∀ k, u.stage k = s.stage k := by
  rw [does_iff exec_exchangeBlockReceive h]
  intro k
  have hcaps := (fresh s).stage_putCaps l v.toNat k
  have hdown : ((fresh s).putCaps l v.toNat).sys.seqDown.contains (bankOfLane l) = true := by
    rwa [((fresh s).putCaps_writes l v.toNat).sys]
  show (ite _ _ _ : State).stage k = _
  split
  · rfl
  · show (ite _ _ _ : State).stage k = _
    generalize (fresh s).putCaps l v.toNat = u at hcaps hdown
    split
    · show (ite _ _ _ : State).stage k = _
      split
      · exact (State.stage_laneGo_held (s := State.sendExchange (State.modLane _ l _) l) hdown k).trans hcaps
      · exact hcaps
    · refine Eq.trans ?_ hcaps
      show (ite _ _ _ : State).stage k = _
      split
      · rfl
      · rfl

end
end

/-! ### Each event that takes a lane back (R79, R82, R90, R91) -/

section
variable {s : State} {l : Lane} (h : Runs s) (hb : s.sys.seqDown.contains (bankOfLane l) = false)
include h

theorem exec_losAssert_unchanged (hl : s.stage l = Stage.off ∨ (s.lane l).los = true) :
    exec (.losAssert l) s = .next (fresh s) := exec_eq_fresh exec_losAssert h (if_pos hl)

theorem exec_lockLoss_inLock (hs : s.stage l = Stage.lock) : exec (.lockLoss l) s =
    .next (ran s ((fresh s).putLane l { s.lane l with locked := false })) := by
  have hna : ¬ (fresh s).stage l = Stage.active := fun ha => absurd (hs.symm.trans ha) (by decide)
  exact exec_eq_ran exec_lockLoss h ((if_neg hna).trans (if_pos hs))

include hb

/-- LOS_ASSERT where the lane has signal: counted, reported, and beyond DETECT the lane falls back to it. -/
theorem losAssert_does (hoff : s.stage l ≠ Stage.off) (hlos : (s.lane l).los = false) :
    Does (.losAssert l) s fun u => u.stage l = Stage.detect ∧ (u.lane l).los = true ∧
      (Stage.detect < s.stage l → u.get (O.LAST_EXIT l) = 1) ∧
      (s.stage l = Stage.active → ∀ k, s.portOfLane l = some k → (u.port k).up = false) ∧
      u.get (O.LANE_EVENTS l 1) = min (s.get (O.LANE_EVENTS l 1) + 1) (2 ^ 32 - 1) ∧
      (s.sources ++ [0x030 + l.val / 64]) <+: u.sources ∧ ∀ k, k ≠ l.val → u.stage k = s.stage k := by
  have hgo : ¬ ((fresh s).stage l = Stage.off ∨ ((fresh s).lane l).los = true) := by
    rintro (ho | hs)
    · exact hoff ho
    · exact absurd (hlos.symm.trans hs) (by decide)
  have hc := ((fresh s).counted l 1 0x030).modLane LaneX.lost
  have hlost : (((((fresh s).count32 (O.LANE_EVENTS l 1)).reportLane 0x030 l).modLane l LaneX.lost).lane l).los = true :=
    congrArg LaneX.los (State.lane_modLane _ _ _)
  by_cases hd : s.stage l = Stage.detect
  · refine does_of_eq exec_losAssert h ((if_neg hgo).trans (if_pos ((hc.stages l).trans hd))) ?_
    exact ⟨(hc.stages l).trans hd, hlost, fun hlt => absurd hlt (by rw [hd]; decide),
      fun ha => absurd (hd.symm.trans ha) (by decide), hc.events, hc.sources ▸ List.prefix_rfl, fun k _ => hc.stages k⟩
  · refine does_of_eq exec_losAssert h ((if_neg hgo).trans (if_neg fun hd' => hd ((hc.stages l).symm.trans hd'))) ?_
    have hf := hc.laneGo (why := 1) (st := Stage.detect) hb (by decide)
    exact ⟨hf.stage, State.los_laneGo_detect (hc.seqDown ▸ hb) hlost, fun _ => hf.exit, hf.portGone, hf.events,
      hf.sources, hf.others⟩

theorem trainTimeout_does (hs : s.stage l = Stage.train) :
    Does (.trainTimeout l) s fun u => u.stage l = Stage.detect ∧ u.get (O.LAST_EXIT l) = 5 ∧
      u.get (O.LANE_EVENTS l 3) = min (s.get (O.LANE_EVENTS l 3) + 1) (2 ^ 32 - 1) ∧
      u.sources = s.sources ++ [0x040 + l.val / 64] ∧ ∀ k, k ≠ l.val → u.stage k = s.stage k := by
  have hc := (fresh s).counted l 3 0x040
  have hf := hc.laneGo (why := 5) (st := Stage.detect) hb (by decide)
  refine does_of_eq exec_trainTimeout h (if_neg (not_not.2 hs)) ?_
  exact ⟨hf.stage, hf.exit, hf.events, hc.sources_laneGo (by show s.stage l ≠ _; rw [hs]; decide), hf.others⟩

theorem lockTimeout_does (hs : s.stage l = Stage.lock) :
    Does (.lockTimeout l) s fun u => u.stage l = Stage.train ∧
      u.get (O.LAST_EXIT l) = (if (s.lane l).deskew then 8 else 5) ∧
      u.get (O.LANE_EVENTS l 4) = min (s.get (O.LANE_EVENTS l 4) + 1) (2 ^ 32 - 1) ∧
      u.sources = s.sources ++ [0x048 + l.val / 64] ∧ ∀ k, k ≠ l.val → u.stage k = s.stage k := by
  have hc := (fresh s).counted l 4 0x048
  have hf := hc.laneGo (why := if (s.lane l).deskew then 8 else 5) (st := Stage.train) hb (by decide)
  refine does_of_eq exec_lockTimeout h (if_neg (not_not.2 hs)) ?_
  exact ⟨hf.stage, hf.exit, hf.events, hc.sources_laneGo (by show s.stage l ≠ _; rw [hs]; decide), hf.others⟩

theorem exchangeTimeout_does (hs : s.stage l = Stage.exchange) :
    Does (.exchangeTimeout l) s fun u => u.stage l = Stage.lock ∧ u.get (O.LAST_EXIT l) = 5 ∧
      u.faults.reports = s.faults.reports ∧ ∀ k, k ≠ l.val → u.stage k = s.stage k := by
  refine does_of_eq exec_exchangeTimeout h (if_pos hs) ?_
  exact ⟨State.stage_laneGo _ _ _ _ hb, State.lastExit_laneGo _ _ _ _ hb,
    State.reports_laneGo (s := fresh s) (by show s.stage l ≠ _; rw [hs]; decide),
    fun k hk => (LaneMoves.laneGo _ _ _ _).stage hk⟩

theorem lockLoss_does (ha : s.stage l = Stage.active) :
    Does (.lockLoss l) s fun u => u.stage l = Stage.lock ∧ u.get (O.LAST_EXIT l) = 2 ∧
      (s.stage l = Stage.active → ∀ k, s.portOfLane l = some k → (u.port k).up = false) ∧
      u.get (O.LANE_EVENTS l 2) = min (s.get (O.LANE_EVENTS l 2) + 1) (2 ^ 32 - 1) ∧
      (s.sources ++ [0x038 + l.val / 64]) <+: u.sources ∧ u.get (O.TX_FIR l) = s.get (O.TX_FIR l) ∧
      (∀ e, u.get (O.FFE_TAPS l) e = s.get (O.FFE_TAPS l) e) ∧ u.get (O.DFE_TAP l) = s.get (O.DFE_TAP l) ∧
      u.get (O.FROZEN l) = 0 ∧ ∀ k, k ≠ l.val → u.stage k = s.stage k := by
  have hc := (fresh s).counted l 2 0x038
  have hf := hc.laneGo (why := 2) (st := Stage.lock) hb (by decide)
  have hkept : ∀ r e, r.idx / 4096 = 2 → r ∉ [O.LANE_EVENTS l 2, O.STAGE l, O.LAST_EXIT l, O.FROZEN l] →
      ((((fresh s).count32 (O.LANE_EVENTS l 2)).reportLane 0x038 l).laneGo l Stage.lock 2).get r e = s.get r e := by
    intro r e hi hr
    rw [List.mem_cons, not_or] at hr
    exact ((LaneMoves.laneGo_lock _ l 2).objs r e hi hr.2).trans (State.get_set_other _ _ _ _ (.inl hr.1))
  refine does_of_eq exec_lockLoss h (if_pos ha) ?_
  exact ⟨hf.stage, hf.exit, hf.portGone, hf.events, hf.sources, hkept _ _ (by simp) (by simp),
    fun e => hkept _ _ (by simp) (by simp), hkept _ _ (by simp) (by simp),
    State.frozen_laneGo_lock hb ((hc.stages l).trans ha), hf.others⟩

theorem partnerTrainingDetect_does (ha : s.stage l = Stage.active) :
    Does (.partnerTrainingDetect l) s fun u => u.stage l = Stage.train ∧ u.get (O.LAST_EXIT l) = 3 ∧
      (s.stage l = Stage.active → ∀ k, s.portOfLane l = some k → (u.port k).up = false) ∧
      ∀ k, k ≠ l.val → u.stage k = s.stage k := by
  have hm := LaneMoves.laneGo (fresh s) l Stage.lock 3
  have hb' : ((fresh s).laneGo l Stage.lock 3).sys.seqDown.contains (bankOfLane l) = false := hm.seqDown ▸ hb
  refine does_of_eq exec_partnerTrainingDetect h (if_pos ha) ?_
  exact ⟨State.stage_laneGo _ _ _ _ hb', State.lastExit_laneGo _ _ _ _ hb',
    fun _ k hk => (LaneMoves.laneGo _ _ _ _).ports k (State.portDown_laneGo (s := fresh s) hb ha (by decide) hk),
    fun k hk => ((LaneMoves.laneGo _ _ _ _).stage hk).trans (hm.stage hk)⟩

omit h in
theorem retrain_does {p : Path} (ht : Takes s p (O.RETRAIN l)) (hs : Stage.train ≤ s.stage l) :
    Does (.retrain p l) s fun u => u.out.getLast? = some (.answer p Err.ok []) ∧ u.stage l = Stage.train ∧
      u.get (O.LAST_EXIT l) = 4 ∧ (s.stage l = Stage.active → ∀ k, s.portOfLane l = some k → (u.port k).up = false) ∧
      (u.lane l).g4Held = false ∧ ∀ k, k ≠ l.val → u.stage k = s.stage k :=
  ⟨_, retrain_takes ht hs, List.getLast?_concat, State.stage_retrain (s := fresh s) hb,
    State.lastExit_retrain (s := fresh s) hb, fun ha _ hk => State.portGone_retrain (s := fresh s) hb ha hk,
    State.g4Held_retrain (s := fresh s) hb, fun _ hk => State.stage_retrain_other (fresh s) hk⟩

end

end Sys2Proof.Machine

open Sys2Proof Sys2Proof.Machine

/-- Settles O27: each event counts and reports where it must, and changes the lane's stage by `laneGo`, which a bank whose
microsequencer has lost its memory does not carry out. -/
theorem lanesFallBack : Obligations.LanesFallBack := by
  unfold Obligations.LanesFallBack
  intro s l p q ks h
  refine ⟨fun hb => ?held, fun hb => ?runs⟩
  case held =>
    simp only [List.forall_mem_cons, List.not_mem_nil, false_implies, implies_true, and_true]
    exact ⟨losAssert_held h hb, trainTimeout_held h hb, lockTimeout_held h hb, exchangeTimeout_held h hb,
      lockLoss_held h hb, partnerTrainingDetect_held h hb, retrain_held h hb, losDeassert_held h hb,
      trainComplete_held h hb, exchangeBlockReceive_held h hb 0⟩
  case runs =>
    exact ⟨losAssert_does h hb, exec_losAssert_unchanged h, trainTimeout_does h hb, lockTimeout_does h hb,
      exchangeTimeout_does h hb, lockLoss_does h hb, exec_lockLoss_inLock h, partnerTrainingDetect_does h hb,
      deskewFail_does h, retrain_does hb, retrain_refused⟩

end

section
/-!
Reference inputs, transmit PLLs and die-to-die links (R71, R72, R425): each event is a fold over lanes of which every step
changes one lane.
-/
namespace Sys2Proof.Machine

/-! ### Folds over lanes -/

/-- From `s` to `t` other lanes than `k` may change, as by `LaneMoves`. -/
structure Elsewhere (k : Nat) (s t : State) : Prop where
  lane : t.lane k = s.lane k
  seqDown : t.sys.seqDown = s.sys.seqDown
  objs : ∀ r e, r.idx / 4096 = 2 → (∀ l, l ≠ k → r ∉ stageRefs l) → t.get r e = s.get r e

theorem Elsewhere.refl (k : Nat) (s : State) : Elsewhere k s s := ⟨rfl, rfl, fun _ _ _ _ => rfl⟩

theorem Elsewhere.stage {k : Nat} {s t : State} (h : Elsewhere k s t) : t.stage k = s.stage k :=
  h.objs _ _ (by simp) fun l hl => by simp [stageRefs, hl.symm]

theorem Elsewhere.lastExit {k : Nat} {s t : State} (h : Elsewhere k s t) : t.get (O.LAST_EXIT k) = s.get (O.LAST_EXIT k) :=
  h.objs _ _ (by simp) fun l hl => by simp [stageRefs, hl.symm]

section
variable {f : State → Nat → State} (hf : ∀ s l, LaneMoves l (stageRefs l) s (f s l)) (s : State) {ls : List Nat} {k : Nat}
include hf

/-- A fold over other lanes. -/
theorem State.each_elsewhere (hk : k ∉ ls) : Elsewhere k s (s.each ls f) := by
  refine State.each_keeps (Elsewhere k s) ls f (fun t l hl h => ?_) s (.refl k s)
  have hne : k ≠ l := fun hkl => hk (hkl ▸ hl)
  have hm := hf t l
  exact ⟨(hm.lane k hne).trans h.lane, hm.seqDown.trans h.seqDown,
    fun r e hi hr => (hm.objs r e hi (hr l hne.symm)).trans (h.objs r e hi hr)⟩

/-- A lane of the list is reached once; before and after only others change. -/
theorem State.each_reaches (hn : ls.Nodup) (hk : k ∈ ls) :
    ∃ t, Elsewhere k s t ∧ Elsewhere k (f t k) (s.each ls f) := by
  obtain ⟨before, after, rfl⟩ := List.append_of_mem hk
  rw [List.nodup_middle, List.nodup_cons, List.mem_append, not_or] at hn
  refine ⟨s.each before f, State.each_elsewhere hf s hn.1.1, ?_⟩
  have hfold : s.each (before ++ k :: after) f = (f (s.each before f) k).each after f := by
    simp only [State.each, List.foldl_append, List.foldl_cons]
  rw [hfold]
  exact State.each_elsewhere hf _ hn.1.2

/-- What belongs to no lane's stage stays. -/
theorem State.get_each_lanes {r : Ref} {e : Nat} (hi : r.idx / 4096 = 2) (hr : ∀ l, r ∉ stageRefs l) :
    (s.each ls f).get r e = s.get r e :=
  State.get_each ls f r e (fun t l _ => (hf t l).objs r e hi (hr l)) s

theorem State.reports_each_lanes : s.faults.reports <+: (s.each ls f).faults.reports :=
  State.each_keeps (fun t => s.faults.reports <+: t.faults.reports) ls f (fun t l _ h => h.trans (hf t l).reports) s
    List.prefix_rfl

/-- A lane that every step leaves in its stage while its bank is held stays in it. -/
theorem State.stage_each_held (hb : s.sys.seqDown.contains (bankOfLane k) = true)
    (hheld : ∀ t : State, t.sys.seqDown.contains (bankOfLane k) = true → (f t k).stage k = t.stage k) :
    (s.each ls f).stage k = s.stage k := by
  refine (State.each_keeps (fun t => t.sys.seqDown = s.sys.seqDown ∧ t.stage k = s.stage k) ls f
    (fun t l _ ⟨hd, hs⟩ => ⟨(hf t l).seqDown.trans hd, ?_⟩) s ⟨rfl, rfl⟩).2
  by_cases hkl : k = l
  · subst hkl
    exact (hheld t (hd ▸ hb)).trans hs
  · exact ((hf t l).stage hkl).trans hs

end

/-! ### The lanes of an input and of a bank -/

theorem mem_lanes_iff {n m l : Nat} (hm : 0 < m) : l ∈ (List.range m).map (n * m + ·) ↔ l / m = n := by
  rw [List.mem_map]
  constructor
  · rintro ⟨i, hi, rfl⟩
    rw [Nat.add_comm, Nat.add_mul_div_right _ _ hm, Nat.div_eq_of_lt (List.mem_range.1 hi), Nat.zero_add]
  · rintro rfl
    exact ⟨l % m, List.mem_range.2 (Nat.mod_lt _ hm), by rw [Nat.mul_comm]; exact Nat.div_add_mod l m⟩

theorem nodup_lanes (n m : Nat) : ((List.range m).map (n * m + ·)).Nodup :=
  List.nodup_range.map fun a b h => by simpa using h

/-! ### Lanes lose their reference (R71, R72) -/

/-- One lane of `State.lanesLoseRef`. -/
def State.laneLosesRef (s : State) (l : Nat) : State :=
  if s.stage l ≤ Stage.detect then s
  else (s.reportLane (if s.stage l = Stage.active then 0x038 else 0x030) l).laneGo l Stage.detect 7

theorem State.lanesLoseRef_eq (s : State) (ls : List Nat) : s.lanesLoseRef ls = s.each ls State.laneLosesRef := rfl

theorem LaneMoves.laneLosesRef (s : State) (l : Nat) : LaneMoves l (stageRefs l) s (s.laneLosesRef l) :=
  ite (refl l _ s) (((refl l _ s).keeps (.report (.refl s))).trans (laneGo _ l _ _))

section
variable {s : State} {ls : List Nat} {k : Nat}

theorem State.stage_laneLosesRef_held (hb : s.sys.seqDown.contains (bankOfLane k) = true) :
    (s.laneLosesRef k).stage k = s.stage k := by
  unfold State.laneLosesRef
  split
  · rfl
  · exact State.stage_laneGo_held (s := s.reportLane _ k) hb k

theorem State.lanesLoseRef_beyond (hn : ls.Nodup) (hk : k ∈ ls) (hb : s.sys.seqDown.contains (bankOfLane k) = false)
    (hs : Stage.detect < s.stage k) :
    (s.lanesLoseRef ls).stage k = Stage.detect ∧ (s.lanesLoseRef ls).get (O.LAST_EXIT k) = 7 := by
  obtain ⟨t, hbefore, hafter⟩ := State.each_reaches LaneMoves.laneLosesRef s hn hk
  have hgo : t.laneLosesRef k = (t.reportLane (if t.stage k = Stage.active then 0x038 else 0x030) k).laneGo k
      Stage.detect 7 := if_neg (by rw [hbefore.stage]; exact Nat.not_le.2 hs)
  have hb' : ∀ src, (t.reportLane src k).sys.seqDown.contains (bankOfLane k) = false := fun _ => hbefore.seqDown ▸ hb
  rw [State.lanesLoseRef_eq, hafter.stage, hafter.lastExit, hgo]
  exact ⟨State.stage_laneGo _ _ _ _ (hb' _), State.lastExit_laneGo _ _ _ _ (hb' _)⟩

theorem State.lanesLoseRef_other (hk : k ∉ ls) : (s.lanesLoseRef ls).stage k = s.stage k :=
  (State.each_elsewhere LaneMoves.laneLosesRef s hk).stage

theorem State.lanesLoseRef_held (hb : s.sys.seqDown.contains (bankOfLane k) = true) :
    (s.lanesLoseRef ls).stage k = s.stage k :=
  State.stage_each_held LaneMoves.laneLosesRef s hb fun _ => State.stage_laneLosesRef_held

theorem State.get_lanesLoseRef {r : Ref} {e : Nat} (hi : r.idx / 4096 = 2) (hr : ∀ l, r ∉ stageRefs l) :
    (s.lanesLoseRef ls).get r e = s.get r e := State.get_each_lanes LaneMoves.laneLosesRef s hi hr

end

/-! ### Lanes leave DETECT (R71, R72, R79) -/

theorem KeepsLanes.ratesShown {s t : State} (h : KeepsLanes s t) (l : Nat) : KeepsLanes s (t.ratesShown l) := by
  unfold State.ratesShown
  split
  · exact ite h.set.set h
  · exact h

theorem LaneMoves.laneAdvance (s : State) (l : Nat) : LaneMoves l (stageRefs l) s (s.laneAdvance l) := by
  have hlock := ((refl l (stageRefs l) s).set (r := O.RATE_ACTIVE l) (v := s.get (O.LANE_MODE l)) (e := 0)).trans
    (laneGo _ l Stage.lock ((s.set (O.RATE_ACTIVE l) (s.get (O.LANE_MODE l))).get (O.LAST_EXIT l)))
  exact ite (refl l _ s) (ite (laneGo s l _ _) (hlock.keeps (.ratesShown (.refl _) l)))

section
variable {s : State} {ls : List Nat} {k : Nat}

theorem State.laneAdvance_held (hb : s.sys.seqDown.contains (bankOfLane k) = true) : s.laneAdvance k = s :=
  if_pos (.inr (.inr (.inr hb)))

/-- A lane that has signal and reference leaves DETECT. -/
theorem State.stage_laneAdvance (hs : s.stage k = Stage.detect) (hg : (s.lane k).good = true)
    (hc : s.laneClocked k = true) (hb : s.sys.seqDown.contains (bankOfLane k) = false) :
    (s.laneAdvance k).stage k = if s.flag (O.TRAIN_ENABLE k) then Stage.train else Stage.lock := by
  have hgo : ¬ (s.stage k ≠ Stage.detect ∨ !(s.lane k).good ∨ !s.laneClocked k ∨
      s.sys.seqDown.contains (bankOfLane k)) := by
    simp only [hs, hg, hc, hb, ne_eq, not_true_eq_false, Bool.not_true, Bool.false_eq_true, or_self, not_false_eq_true]
  unfold State.laneAdvance
  rw [if_neg hgo]
  split
  · exact State.stage_laneGo _ _ _ _ hb
  · refine ((KeepsLanes.refl _).ratesShown k).objs (O.STAGE k) 0 (by simp) |>.trans ?_
    exact State.stage_laneGo _ _ _ _ hb

theorem State.advance_lanes (hn : ls.Nodup) (hk : k ∈ ls) (hb : s.sys.seqDown.contains (bankOfLane k) = false)
    (hs : s.stage k = Stage.detect) (hg : (s.lane k).good = true) (hc : s.laneClocked k = true) :
    (s.each ls State.laneAdvance).stage k = if s.flag (O.TRAIN_ENABLE k) then Stage.train else Stage.lock := by
  obtain ⟨t, hbefore, hafter⟩ := State.each_reaches LaneMoves.laneAdvance s hn hk
  have hkept : ∀ r, r.idx / 4096 = 2 → (∀ l, l ≠ k → r ∉ stageRefs l) → t.flag r = s.flag r := fun r hi hr =>
    congrArg (· != 0) (hbefore.objs r 0 hi hr)
  have hclocked : t.laneClocked k = s.laneClocked k := by
    rw [State.laneClocked, State.laneClocked, hkept _ (by simp) (by simp [stageRefs]),
      hbefore.objs (O.BANK_STATE _) 0 (by simp) (by simp [stageRefs])]
  rw [hafter.stage, State.stage_laneAdvance (hbefore.stage.trans hs) ((congrArg LaneX.good hbefore.lane).trans hg)
    (hclocked.trans hc) (hbefore.seqDown ▸ hb), hkept _ (by simp) (by simp [stageRefs])]

theorem State.advance_other (hk : k ∉ ls) : (s.each ls State.laneAdvance).stage k = s.stage k :=
  (State.each_elsewhere LaneMoves.laneAdvance s hk).stage

theorem State.advance_held (hb : s.sys.seqDown.contains (bankOfLane k) = true) :
    (s.each ls State.laneAdvance).stage k = s.stage k :=
  State.stage_each_held LaneMoves.laneAdvance s hb fun _ ht => congrArg (State.stage · k) (State.laneAdvance_held ht)

theorem State.get_advance {r : Ref} {e : Nat} (hi : r.idx / 4096 = 2) (hr : ∀ l, r ∉ stageRefs l) :
    (s.each ls State.laneAdvance).get r e = s.get r e := State.get_each_lanes LaneMoves.laneAdvance s hi hr

end

/-! ### Lanes lose a die-to-die link (R425) -/

/-- One lane of DIE_TO_DIE_LINK_LOSS. -/
def State.laneLosesLink (s : State) (l : Nat) : State :=
  if s.stage l = Stage.off then s else (s.draw 16).2.laneGo l Stage.detect ((s.draw 16).1 % 10)

theorem LaneMoves.laneLosesLink (s : State) (l : Nat) : LaneMoves l (stageRefs l) s (s.laneLosesLink l) :=
  ite (refl l _ s) (((refl l _ s).keeps (.draw (.refl s))).trans (laneGo _ l _ _))

section
variable {s : State} {k : Nat}

theorem State.stage_laneLosesLink_held (hb : s.sys.seqDown.contains (bankOfLane k) = true) :
    (s.laneLosesLink k).stage k = s.stage k := by
  unfold State.laneLosesLink
  split
  · rfl
  · exact State.stage_laneGo_held (s := (s.draw 16).2) hb k

theorem State.stage_laneLosesLink (hb : s.sys.seqDown.contains (bankOfLane k) = false) (hs : s.stage k ≠ Stage.off) :
    (s.laneLosesLink k).stage k = Stage.detect := by
  rw [State.laneLosesLink, if_neg hs]
  exact State.stage_laneGo _ _ _ _ hb

theorem State.loseLink_lanes {ls : List Nat} (hn : ls.Nodup) (hk : k ∈ ls)
    (hb : s.sys.seqDown.contains (bankOfLane k) = false) (hs : s.stage k ≠ Stage.off) :
    (s.each ls State.laneLosesLink).stage k = Stage.detect := by
  obtain ⟨t, hbefore, hafter⟩ := State.each_reaches LaneMoves.laneLosesLink s hn hk
  rw [hafter.stage]
  exact State.stage_laneLosesLink (hbefore.seqDown ▸ hb) (hbefore.stage ▸ hs)

end

/-! ### A reference input is lost (R71, R72) -/

/-- What REFCLK_LOSS writes of the input. -/
def State.refLost (s : State) (n : Nat) : State :=
  (((s.draw 32).2.set (O.REF_FREQ_ERR n) (s.draw 32).1).set (O.REF_HEALTHY n) 0).count32 (O.REF_LOSS_COUNT n)

section
variable {s : State} {n b r : Nat}

theorem State.get_refLost {q : Ref} {e : Nat} (h1 : q ≠ O.REF_FREQ_ERR n) (h2 : q ≠ O.REF_HEALTHY n)
    (h3 : q ≠ O.REF_LOSS_COUNT n) : (s.refLost n).get q e = s.get q e :=
  (State.get_set_other _ _ _ _ (.inl h3)).trans
    ((State.get_set_other _ _ _ _ (.inl h2)).trans (State.get_set_other _ _ _ _ (.inl h1)))

theorem State.refHealthy_refLost (s : State) (n : Nat) : (s.refLost n).get (O.REF_HEALTHY n) = 0 :=
  (State.get_set_other _ _ _ _ (.inl (by simp))).trans (State.get_set_same _ _ _ _)

theorem State.refLossCount_refLost (s : State) (n : Nat) :
    (s.refLost n).get (O.REF_LOSS_COUNT n) = min (s.get (O.REF_LOSS_COUNT n) + 1) (2 ^ 32 - 1) := by
  refine (State.get_set_same _ _ _ _).trans (congrArg (fun v => min (v + 1) (2 ^ 32 - 1)) ?_)
  exact (State.get_set_other _ _ _ _ (.inl (by simp))).trans (State.get_set_other _ _ _ _ (.inl (by simp)))

/-- The lost input is not healthy any more; the others are what they were. -/
theorem State.healthyRefs_refLost (hb : n / 4 = b) :
    (s.refLost n).healthyRefs b = (s.healthyRefs b).filter (· != n % 4) := by
  rw [State.healthyRefs, State.healthyRefs, List.filter_filter]
  refine List.filter_congr fun i hi => ?_
  have hi4 := List.mem_range.1 hi
  by_cases hin : i = n % 4
  · have hn : b * 4 + i = n := by omega
    rw [hn, State.flag, State.refHealthy_refLost]
    simp [hin]
  · have hn : b * 4 + i ≠ n := by omega
    rw [State.flag, State.get_refLost (by simp) (by simp [hn]) (by simp)]
    simp [hin, State.flag]

theorem State.refToTake_eq (s : State) (b : Nat) : s.refToTake b =
    if (s.healthyRefs b).contains (s.get (O.TX_REF_SELECT b)) then some (s.get (O.TX_REF_SELECT b))
    else if s.flag (O.REF_FAILOVER b) then (s.healthyRefs b).head? else none := rfl

theorem State.refToTake_refLost (hb : n / 4 = b) : (s.refLost n).refToTake b =
    if s.get (O.TX_REF_SELECT b) ∈ (s.healthyRefs b).filter (· != n % 4) then some (s.get (O.TX_REF_SELECT b))
    else if s.flag (O.REF_FAILOVER b) then ((s.healthyRefs b).filter (· != n % 4)).head? else none := by
  have hsel : (s.refLost n).get (O.TX_REF_SELECT b) = s.get (O.TX_REF_SELECT b) :=
    State.get_refLost (by simp) (by simp) (by simp)
  have hfail : (s.refLost n).flag (O.REF_FAILOVER b) = s.flag (O.REF_FAILOVER b) :=
    congrArg (· != 0) (State.get_refLost (by simp) (by simp) (by simp))
  rw [State.refToTake_eq, hsel, hfail, State.healthyRefs_refLost hb]
  simp only [List.contains_iff_mem]

end

end Sys2Proof.Machine
end

section
/-!
The statement on reference inputs and transmit clocks, clause by clause.
-/
namespace Sys2Proof.Machine

/-- The lanes of an input. -/
def refLanes (n : Nat) : List Nat := (List.range 16).map (n * 16 + ·)
/-- The lanes of a bank. -/
def bankLanes (b : Nat) : List Nat := (List.range 64).map (b * 64 + ·)

theorem mem_refLanes {n l : Nat} : l ∈ refLanes n ↔ l / 16 = n := mem_lanes_iff (by decide)
theorem mem_bankLanes {b l : Nat} : l ∈ bankLanes b ↔ l / 64 = b := mem_lanes_iff (by decide)
theorem nodup_refLanes (n : Nat) : (refLanes n).Nodup := nodup_lanes n 16
theorem nodup_bankLanes (b : Nat) : (bankLanes b).Nodup := nodup_lanes b 64

section
variable {s : State} {n : RefInput} {b : LaneBank} {m : BitVec 32} {c r : Nat} (h : Runs s)

/-! ### REFCLK_LOSS -/

theorem State.get_set_report {q a : Ref} {v e src unit : Nat} {d : List Byte} (hq : q ≠ a) :
    ((s.set a v).report src unit d).get q e = s.get q e := s.get_set_other v 0 e (.inl hq)

theorem State.get_set_report_same {a : Ref} {v src unit : Nat} {d : List Byte} :
    ((s.set a v).report src unit d).get a = v := s.get_set_same a v 0

/-- The bank of a lost input, where that input was its transmit reference. -/
def State.refTaken (s : State) (n : Nat) (e : Nat) : Option Nat → State
  | some r => ((s.set (O.TX_REF_ACTIVE (n / 4)) r).report n (unitId 8 n) (detailS (leBytes 4 e))).lanesLoseRef (refLanes n)
  | none => ((s.set (O.BANK_STATE (n / 4)) 2).report (0x020 + n / 4) (unitId 7 (n / 4))
      (detailS [nb (n % 4)])).lanesLoseRef (bankLanes (n / 4))

/-- A held bank's lanes stay in their stages. -/
theorem State.stage_refTaken_held {n l e : Nat} (hl : s.sys.seqDown.contains (bankOfLane l) = true) (o : Option Nat) :
    (s.refTaken n e o).stage l = s.stage l := by
  cases o with
  | some r =>
    exact (State.lanesLoseRef_held (s := (s.set (O.TX_REF_ACTIVE (n / 4)) r).report n (unitId 8 n) _) hl).trans
      (State.get_set_report (by simp))
  | none =>
    exact (State.lanesLoseRef_held (s := (s.set (O.BANK_STATE (n / 4)) 2).report (0x020 + n / 4) (unitId 7 (n / 4)) _)
      hl).trans (State.get_set_report (by simp))

include h

theorem exec_refclkLoss_unhealthy (hh : s.flag (O.REF_HEALTHY n) = false) :
    exec (.refclkLoss n) s = .next (fresh s) := exec_eq_fresh exec_refclkLoss h (if_pos (by simp [hh]))

section
variable (hh : s.flag (O.REF_HEALTHY n) = true)
include hh

theorem exec_refclkLoss_taken (hs : s.get (O.BANK_STATE (n.val / 4)) = 1)
    (ha : s.get (O.TX_REF_ACTIVE (n.val / 4)) = n.val % 4) : exec (.refclkLoss n) s = .next (ran s
      (((fresh s).refLost n).refTaken n ((fresh s).draw 32).1 (((fresh s).refLost n).refToTake (n.val / 4)))) := by
  have hgo : ((fresh s).refLost n).get (O.BANK_STATE (n.val / 4)) = 1 ∧
      ((fresh s).refLost n).get (O.TX_REF_ACTIVE (n.val / 4)) = n.val % 4 := by
    rw [State.get_refLost (by simp) (by simp) (by simp), State.get_refLost (by simp) (by simp) (by simp)]
    exact ⟨hs, ha⟩
  refine exec_eq_ran exec_refclkLoss h ((if_neg (by simp [hh])).trans ((if_pos hgo).trans ?_))
  show (match ((fresh s).refLost n).refToTake (n.val / 4) with | some r => _ | none => _) = _
  generalize ((fresh s).refLost n).refToTake (n.val / 4) = o
  cases o with
  | none => rfl
  | some r => rfl

theorem exec_refclkLoss_other (ho : s.get (O.BANK_STATE (n.val / 4)) ≠ 1 ∨ s.get (O.TX_REF_ACTIVE (n.val / 4)) ≠ n.val % 4) :
    exec (.refclkLoss n) s = .next (ran s ((((fresh s).refLost n).report n (unitId 8 n)
      (detailS (leBytes 4 ((fresh s).draw 32).1))).lanesLoseRef (refLanes n))) := by
  have hgo : ¬ (((fresh s).refLost n).get (O.BANK_STATE (n.val / 4)) = 1 ∧
      ((fresh s).refLost n).get (O.TX_REF_ACTIVE (n.val / 4)) = n.val % 4) := by
    rw [State.get_refLost (by simp) (by simp) (by simp), State.get_refLost (by simp) (by simp) (by simp)]
    rintro ⟨hs, ha⟩
    exact ho.elim (· hs) (· ha)
  exact exec_eq_ran exec_refclkLoss h ((if_neg (by simp [hh])).trans (if_neg hgo))

end

omit h

/-- Where the lanes `ls` lose their reference in `t`, those beyond DETECT fall back to it; the others stay. -/
theorem State.lostRef_stages {t : State} {P : Nat → Prop} {ls : List Nat} (hls : ∀ l, l ∈ ls ↔ P l) (hn : ls.Nodup)
    (ht : ∀ k, t.stage k = s.stage k) (hb : ∀ k, P k → t.sys.seqDown.contains (bankOfLane k) = false) :
    (∀ l, P l → Stage.detect < s.stage l →
      (t.lanesLoseRef ls).stage l = Stage.detect ∧ (t.lanesLoseRef ls).get (O.LAST_EXIT l) = 7) ∧
    ∀ l, ¬ P l → (t.lanesLoseRef ls).stage l = s.stage l :=
  ⟨fun l hl hs => State.lanesLoseRef_beyond hn ((hls l).2 hl) (hb l hl) ((ht l).symm ▸ hs),
    fun l hl => (State.lanesLoseRef_other fun h => hl ((hls l).1 h)).trans (ht l)⟩

theorem bankOfLane_of_ref {l : Nat} (hl : l / 16 = n.val) : bankOfLane l = n.val / 4 := by
  rw [bankOfLane]
  omega

theorem State.stage_refLost (s : State) (n k : Nat) : (s.refLost n).stage k = s.stage k :=
  State.get_refLost (by simp) (by simp) (by simp)

section
variable (hb : s.sys.seqDown.contains (n.val / 4) = false) (hh : s.flag (O.REF_HEALTHY n) = true)
include h hb hh

/-- The bank goes to another input; the lost one's lanes fall back. -/
theorem refclkLoss_moves (hs : s.get (O.BANK_STATE (n.val / 4)) = 1)
    (ha : s.get (O.TX_REF_ACTIVE (n.val / 4)) = n.val % 4) (hr : (s.refLost n).refToTake (n.val / 4) = some r) :
    Does (.refclkLoss n) s fun u => u.get (O.REF_HEALTHY n) = 0 ∧
      u.get (O.REF_LOSS_COUNT n) = min (s.get (O.REF_LOSS_COUNT n) + 1) (2 ^ 32 - 1) ∧
      u.get (O.TX_REF_ACTIVE (n.val / 4)) = r ∧ u.get (O.BANK_STATE (n.val / 4)) = 1 ∧
      (∀ l, l / 16 = n.val → Stage.detect < s.stage l → u.stage l = Stage.detect ∧ u.get (O.LAST_EXIT l) = 7) ∧
      ∀ l, l / 16 ≠ n.val → u.stage l = s.stage l := by
  have hr' : ((fresh s).refLost n).refToTake (n.val / 4) = some r := hr
  have hstages := State.lostRef_stages (s := s) (P := fun l => l / 16 = n.val) (ls := refLanes n)
    (t := (((fresh s).refLost n).set (O.TX_REF_ACTIVE (n.val / 4)) r).report n (unitId 8 n)
      (detailS (leBytes 4 ((fresh s).draw 32).1))) (fun l => mem_refLanes) (nodup_refLanes _)
    (fun k => (State.get_set_report (by simp)).trans ((fresh s).stage_refLost n k))
    (fun k hk => (bankOfLane_of_ref hk).symm ▸ hb)
  refine ⟨_, exec_refclkLoss_taken h hh hs ha, ?_⟩
  rw [hr']
  simp only [ran_get, State.refTaken]
  refine ⟨?_, ?_, ?_, ?_, hstages⟩
  · exact (State.get_lanesLoseRef (by simp) (by simp [stageRefs])).trans
      ((State.get_set_report (by simp)).trans ((fresh s).refHealthy_refLost n))
  · exact (State.get_lanesLoseRef (by simp) (by simp [stageRefs])).trans
      ((State.get_set_report (by simp)).trans ((fresh s).refLossCount_refLost n))
  · exact (State.get_lanesLoseRef (by simp) (by simp [stageRefs])).trans State.get_set_report_same
  · exact (State.get_lanesLoseRef (by simp) (by simp [stageRefs])).trans
      ((State.get_set_report (by simp)).trans
        ((State.get_refLost (by simp) (by simp) (by simp)).trans hs))

/-- The bank finds no other input; all its lanes fall back. -/
theorem refclkLoss_stops (hs : s.get (O.BANK_STATE (n.val / 4)) = 1)
    (ha : s.get (O.TX_REF_ACTIVE (n.val / 4)) = n.val % 4) (hr : (s.refLost n).refToTake (n.val / 4) = none) :
    Does (.refclkLoss n) s fun u => u.get (O.REF_HEALTHY n) = 0 ∧ u.get (O.BANK_STATE (n.val / 4)) = 2 ∧
      (∀ l, l / 64 = n.val / 4 → Stage.detect < s.stage l → u.stage l = Stage.detect ∧ u.get (O.LAST_EXIT l) = 7) ∧
      ∀ l, l / 64 ≠ n.val / 4 → u.stage l = s.stage l := by
  have hr' : ((fresh s).refLost n).refToTake (n.val / 4) = none := hr
  have hstages := State.lostRef_stages (s := s) (P := fun l => l / 64 = n.val / 4) (ls := bankLanes (n.val / 4))
    (t := (((fresh s).refLost n).set (O.BANK_STATE (n.val / 4)) 2).report (0x020 + n.val / 4) (unitId 7 (n.val / 4))
      (detailS [nb (n.val % 4)])) (fun l => mem_bankLanes) (nodup_bankLanes _)
    (fun k => (State.get_set_report (by simp)).trans ((fresh s).stage_refLost n k))
    (fun k hk => (show bankOfLane k = n.val / 4 from hk).symm ▸ hb)
  refine ⟨_, exec_refclkLoss_taken h hh hs ha, ?_⟩
  rw [hr']
  simp only [ran_get, State.refTaken]
  refine ⟨?_, ?_, hstages⟩
  · exact (State.get_lanesLoseRef (by simp) (by simp [stageRefs])).trans
      ((State.get_set_report (by simp)).trans ((fresh s).refHealthy_refLost n))
  · exact (State.get_lanesLoseRef (by simp) (by simp [stageRefs])).trans State.get_set_report_same

/-- The input is not the bank's transmit reference. -/
theorem refclkLoss_stays
    (ho : s.get (O.BANK_STATE (n.val / 4)) ≠ 1 ∨ s.get (O.TX_REF_ACTIVE (n.val / 4)) ≠ n.val % 4) :
    Does (.refclkLoss n) s fun u => u.get (O.REF_HEALTHY n) = 0 ∧
      u.get (O.BANK_STATE (n.val / 4)) = s.get (O.BANK_STATE (n.val / 4)) ∧
      u.get (O.TX_REF_ACTIVE (n.val / 4)) = s.get (O.TX_REF_ACTIVE (n.val / 4)) ∧
      (∀ l, l / 16 = n.val → Stage.detect < s.stage l → u.stage l = Stage.detect ∧ u.get (O.LAST_EXIT l) = 7) ∧
      ∀ l, l / 16 ≠ n.val → u.stage l = s.stage l := by
  have hstages := State.lostRef_stages (s := s) (P := fun l => l / 16 = n.val) (ls := refLanes n)
    (t := ((fresh s).refLost n).report n (unitId 8 n) (detailS (leBytes 4 ((fresh s).draw 32).1)))
    (fun l => mem_refLanes) (nodup_refLanes _) (fun k => (fresh s).stage_refLost n k)
    (fun k hk => (bankOfLane_of_ref hk).symm ▸ hb)
  refine ⟨_, exec_refclkLoss_other h hh ho, ?_⟩
  simp only [ran_get]
  refine ⟨?_, ?_, ?_, hstages⟩
  · exact (State.get_lanesLoseRef (by simp) (by simp [stageRefs])).trans ((fresh s).refHealthy_refLost n)
  · exact (State.get_lanesLoseRef (by simp) (by simp [stageRefs])).trans (State.get_refLost (by simp) (by simp) (by simp))
  · exact (State.get_lanesLoseRef (by simp) (by simp [stageRefs])).trans (State.get_refLost (by simp) (by simp) (by simp))

end

/-! ### REFCLK_HEALTHY and TX_PLL_LOCK -/

/-- What REFCLK_HEALTHY writes of the input. -/
def State.refBack (s : State) (n : Nat) : State :=
  ((s.draw 32).2.set (O.REF_FREQ_ERR n) (ofSigned 32 (((s.draw 32).1 % 1000001 : Nat) - (500000 : Int)))).set
    (O.REF_HEALTHY n) 1

theorem State.refHealthy_refBack (s : State) (n : Nat) : (s.refBack n).get (O.REF_HEALTHY n) = 1 :=
  State.get_set_same _ _ _ _

theorem State.get_refBack {q : Ref} {e n : Nat} (h1 : q ≠ O.REF_FREQ_ERR n) (h2 : q ≠ O.REF_HEALTHY n) :
    (s.refBack n).get q e = s.get q e :=
  (State.get_set_other _ _ _ _ (.inl h2)).trans (State.get_set_other _ _ _ _ (.inl h1))

/-- The bank transmit PLL takes an input. -/
def State.pllTakes (s : State) (b r : Nat) : State := (s.set (O.TX_REF_ACTIVE b) r).set (O.BANK_STATE b) 1

theorem State.get_pllTakes {q : Ref} {e b : Nat} (h1 : q ≠ O.TX_REF_ACTIVE b) (h2 : q ≠ O.BANK_STATE b) :
    (s.pllTakes b r).get q e = s.get q e :=
  (State.get_set_other _ _ _ _ (.inl h2)).trans (State.get_set_other _ _ _ _ (.inl h1))

include h

theorem exec_refclkHealthy_healthy (hh : s.flag (O.REF_HEALTHY n) = true) :
    exec (.refclkHealthy n) s = .next (fresh s) := exec_eq_fresh exec_refclkHealthy h (if_pos hh)

theorem exec_refclkHealthy_back (hh : s.flag (O.REF_HEALTHY n) = false) : exec (.refclkHealthy n) s =
    .next (ran s (((fresh s).refBack n).each (refLanes n) State.laneAdvance)) :=
  exec_eq_ran exec_refclkHealthy h (if_neg (by simp [hh]))

theorem refclkHealthy_does (hb : s.sys.seqDown.contains (n.val / 4) = false) (hh : s.flag (O.REF_HEALTHY n) = false) :
    Does (.refclkHealthy n) s fun u => u.get (O.REF_HEALTHY n) = 1 ∧
      (∀ l, l / 16 = n.val → s.stage l = Stage.detect → (s.lane l).good = true → s.get (O.BANK_STATE (l / 64)) = 1 →
        u.stage l = if s.flag (O.TRAIN_ENABLE l) then Stage.train else Stage.lock) ∧
      ∀ l, l / 16 ≠ n.val → u.stage l = s.stage l := by
  have hkept : ∀ r, r ≠ O.REF_FREQ_ERR n → r ≠ O.REF_HEALTHY n → ((fresh s).refBack n).get r = s.get r :=
    fun r h1 h2 => State.get_refBack h1 h2
  refine ⟨_, exec_refclkHealthy_back h hh, ?_⟩
  simp only [ran_get]
  refine ⟨?_, fun l hl hs hg hc => ?_, fun l hl => ?_⟩
  · exact (State.get_advance (by simp) (by simp [stageRefs])).trans ((fresh s).refHealthy_refBack n)
  · have hclocked : ((fresh s).refBack n).laneClocked l = true := by
      rw [State.laneClocked, hl, State.flag, State.refHealthy_refBack, hkept _ (by simp) (by simp), hc]
      rfl
    have htrain : ((fresh s).refBack n).flag (O.TRAIN_ENABLE l) = s.flag (O.TRAIN_ENABLE l) :=
      congrArg (· != 0) (hkept _ (by simp) (by simp))
    have hgo := State.advance_lanes (s := (fresh s).refBack n) (ls := refLanes n) (k := l) (nodup_refLanes _)
      (mem_refLanes.2 hl) (by rw [bankOfLane_of_ref hl]; exact hb)
      ((hkept _ (by simp) (by simp)).trans hs) hg hclocked
    exact hgo.trans (by rw [htrain])
  · exact (State.advance_other fun hm => hl (mem_refLanes.1 hm)).trans (hkept _ (by simp) (by simp))

theorem exec_txPllLock_none (hs : s.get (O.BANK_STATE b) ≠ 1) (hr : s.refToTake b = none) :
    exec (.txPllLock b) s = .next (fresh s) := by
  refine exec_eq_fresh exec_txPllLock h ((if_neg hs).trans ?_)
  show (match s.refToTake b with | none => _ | some r => _) = _
  rw [hr]

theorem exec_txPllLock_some (hs : s.get (O.BANK_STATE b) ≠ 1) (hr : s.refToTake b = some r) : exec (.txPllLock b) s =
    .next (ran s (((fresh s).pllTakes b r).each (bankLanes b) State.laneAdvance)) := by
  refine exec_eq_ran exec_txPllLock h ((if_neg hs).trans ?_)
  show (match s.refToTake b with | none => _ | some r => _) = _
  rw [hr]
  rfl

theorem txPllLock_does (hb : s.sys.seqDown.contains b.val = false) (hs : s.get (O.BANK_STATE b) ≠ 1)
    (hr : s.refToTake b = some r) : Does (.txPllLock b) s fun u => u.get (O.BANK_STATE b) = 1 ∧
      u.get (O.TX_REF_ACTIVE b) = r ∧
      (∀ l, l / 64 = b.val → s.stage l = Stage.detect → (s.lane l).good = true →
        s.flag (O.REF_HEALTHY (l / 16)) = true →
        u.stage l = if s.flag (O.TRAIN_ENABLE l) then Stage.train else Stage.lock) ∧
      ∀ l, l / 64 ≠ b.val → u.stage l = s.stage l := by
  have hkept : ∀ q, q ≠ O.TX_REF_ACTIVE b → q ≠ O.BANK_STATE b → ((fresh s).pllTakes b r).get q = s.get q :=
    fun q h1 h2 => State.get_pllTakes h1 h2
  have hflag : ∀ q, q ≠ O.TX_REF_ACTIVE b → q ≠ O.BANK_STATE b → ((fresh s).pllTakes b r).flag q = s.flag q :=
    fun q h1 h2 => congrArg (· != 0) (hkept q h1 h2)
  have hbank : ((fresh s).pllTakes b r).get (O.BANK_STATE b) = 1 := State.get_set_same _ _ _ _
  refine ⟨_, exec_txPllLock_some h hs hr, ?_⟩
  simp only [ran_get]
  refine ⟨?_, ?_, fun l hl hd hg hc => ?_, fun l hl => ?_⟩
  · exact (State.get_advance (by simp) (by simp [stageRefs])).trans hbank
  · exact (State.get_advance (by simp) (by simp [stageRefs])).trans
      ((State.get_set_other _ _ _ _ (.inl (by simp))).trans (State.get_set_same _ _ _ _))
  · have hclocked : ((fresh s).pllTakes b r).laneClocked l = true := by
      rw [State.laneClocked, hl, hbank, hflag _ (by simp) (by simp), hc]
      rfl
    have hgo := State.advance_lanes (s := (fresh s).pllTakes b r) (ls := bankLanes b) (k := l) (nodup_bankLanes _)
      (mem_bankLanes.2 hl) ((show bankOfLane l = b.val from hl).symm ▸ hb)
      ((hkept _ (by simp) (by simp)).trans hd) hg hclocked
    exact hgo.trans (by rw [hflag _ (by simp) (by simp)])
  · exact (State.advance_other fun hm => hl (mem_bankLanes.1 hm)).trans (hkept _ (by simp) (by simp))

/-! ### DIE_TO_DIE_LINK_LOSS -/

theorem exec_dieToDieLinkLoss_ran : exec (.dieToDieLinkLoss b m) s = .next (ran s
    (((fresh s).report (0x028 + b.val) (unitId 7 b) (detailS (leBytes 4 m.toNat))).each (bankLanes b)
      State.laneLosesLink)) := exec_eq_ran exec_dieToDieLinkLoss h rfl

theorem dieToDieLinkLoss_does (hb : s.sys.seqDown.contains b.val = false) : Does (.dieToDieLinkLoss b m) s fun u =>
    (∀ l, l / 64 = b.val → s.stage l ≠ Stage.off → u.stage l = Stage.detect) ∧
    (∀ l, l / 64 ≠ b.val → u.stage l = s.stage l) ∧
    (s.faults.reports ++ [⟨0x028 + b, unitId 7 b, unitId 7 b, detailS (leBytes 4 m.toNat), false⟩]) <+:
      u.faults.reports := by
  refine ⟨_, exec_dieToDieLinkLoss_ran h, ?_⟩
  simp only [ran_get, ran_faults]
  refine ⟨fun l hl hs => ?_, fun l hl => ?_, ?_⟩
  · exact State.loseLink_lanes (s := State.report (fresh s) _ _ _) (nodup_bankLanes _) (mem_bankLanes.2 hl)
      ((show bankOfLane l = b.val from hl).symm ▸ hb) hs
  · exact (State.each_elsewhere LaneMoves.laneLosesLink _ fun hm => hl (mem_bankLanes.1 hm)).stage
  · exact State.reports_each_lanes LaneMoves.laneLosesLink (State.report (fresh s) _ _ _)

/-! ### Banks whose microsequencer has lost its memory (R383) -/

/-- The lanes of a held bank stay where they are. -/
theorem refclkLoss_held : Does (.refclkLoss n) s fun u =>
    ∀ l, s.sys.seqDown.contains (l / 64) = true → u.stage l = s.stage l := by
  have hlost : ∀ l, ((fresh s).refLost n).stage l = s.stage l := (fresh s).stage_refLost n
  by_cases hh : s.flag (O.REF_HEALTHY n) = true
  · by_cases hgo : s.get (O.BANK_STATE (n.val / 4)) = 1 ∧ s.get (O.TX_REF_ACTIVE (n.val / 4)) = n.val % 4
    · refine ⟨_, exec_refclkLoss_taken h hh hgo.1 hgo.2, fun l hl => ?_⟩
      rw [State.stage, ran_get]
      exact (State.stage_refTaken_held (s := (fresh s).refLost n) hl _).trans (hlost l)
    · refine ⟨_, exec_refclkLoss_other h hh (not_and_or.1 hgo), fun l hl => ?_⟩
      rw [State.stage, ran_get]
      exact (State.lanesLoseRef_held (s := ((fresh s).refLost n).report _ _ _) hl).trans (hlost l)
  · exact ⟨_, exec_refclkLoss_unhealthy h (Bool.eq_false_iff.2 hh), fun _ _ => rfl⟩

theorem refclkHealthy_held : Does (.refclkHealthy n) s fun u =>
    ∀ l, s.sys.seqDown.contains (l / 64) = true → u.stage l = s.stage l := by
  by_cases hh : s.flag (O.REF_HEALTHY n) = true
  · exact ⟨_, exec_refclkHealthy_healthy h hh, fun _ _ => rfl⟩
  · refine ⟨_, exec_refclkHealthy_back h (Bool.eq_false_iff.2 hh), fun l hl => ?_⟩
    rw [State.stage, ran_get]
    exact (State.advance_held (s := (fresh s).refBack n) hl).trans (State.get_refBack (by simp) (by simp))

theorem txPllLock_held : Does (.txPllLock b) s fun u =>
    ∀ l, s.sys.seqDown.contains (l / 64) = true → u.stage l = s.stage l := by
  by_cases hs : s.get (O.BANK_STATE b) = 1
  · exact ⟨_, exec_eq_fresh exec_txPllLock h (if_pos hs), fun _ _ => rfl⟩
  · rcases hr : s.refToTake b with _ | r
    · exact ⟨_, exec_txPllLock_none h hs hr, fun _ _ => rfl⟩
    · refine ⟨_, exec_txPllLock_some h hs hr, fun l hl => ?_⟩
      rw [State.stage, ran_get]
      exact (State.advance_held (s := (fresh s).pllTakes b r) hl).trans (State.get_pllTakes (by simp) (by simp))

theorem dieToDieLinkLoss_held : Does (.dieToDieLinkLoss b m) s fun u =>
    ∀ l, s.sys.seqDown.contains (l / 64) = true → u.stage l = s.stage l :=
  ⟨_, exec_dieToDieLinkLoss_ran h, fun _ hl => (ran_get _ _ _ _).trans <| State.stage_each_held LaneMoves.laneLosesLink
    (State.report (fresh s) _ _ _) hl fun _ => State.stage_laneLosesLink_held⟩

end

end Sys2Proof.Machine

open Sys2Proof Sys2Proof.Machine

/-- Settles O25: each event is a fold over lanes whose steps change one lane each, so that a lane's stage is what its own
step makes of it. -/
theorem referenceInputsAndTransmitClocks : Obligations.ReferenceInputsAndTransmitClocks := by
  unfold Obligations.ReferenceInputsAndTransmitClocks
  intro s n b m r h
  refine ⟨?held, fun hb hn => ⟨fun hnb => ?moves, fun hnb => ?stops, fun hnb => ?stays, exec_refclkLoss_unhealthy h,
    exec_refclkHealthy_healthy h, refclkHealthy_does h hn, txPllLock_does h hb, exec_txPllLock_none h,
    dieToDieLinkLoss_does h hb⟩⟩
  case held =>
    simp only [List.forall_mem_cons, List.not_mem_nil, false_implies, implies_true, and_true]
    exact ⟨refclkLoss_held h, refclkHealthy_held h, txPllLock_held h, dieToDieLinkLoss_held h⟩
  case moves =>
    rw [← hnb]
    intro hh hs ha hr
    refine refclkLoss_moves h hn hh hs ha ?_
    rw [State.refToTake_refLost rfl]
    rcases hr with ⟨rfl, hmem⟩ | ⟨hmem, hf, hhead⟩
    · rw [if_pos hmem]
    · rw [if_neg hmem, if_pos hf, hhead]
  case stops =>
    rw [← hnb]
    intro hh hs ha hmem hr
    refine refclkLoss_stops h hn hh hs ha ?_
    rw [State.refToTake_refLost rfl, if_neg hmem]
    rcases hr with hf | hempty
    · rw [if_neg (ne_true_of_eq_false hf)]
    · rw [hempty, List.head?_nil, ite_self]
  case stays =>
    rw [← hnb]
    exact refclkLoss_stays h hn

end

section
/-!
The monitors of a lane (R88, R92-R96): adaptation freezes and thaws, eye scans, FFE_LOAD, and the supervision of the SNR.
-/
namespace Sys2Proof.Machine

/-! ### Adaptation freezes and thaws (R92, R93) -/

section
variable {s : State} {l : Lane} {us : BitVec 32} {windows : List (Bool × Fin 17)} (h : Runs s)

theorem State.lowWindow_iff (s : State) (l : Nat) (w : Bool × Fin 17) :
    s.lowWindow l w = true ↔ w.1 = true ∨ w.2.val < s.get (O.VARIETY_MIN l) := by
  rw [State.lowWindow, Bool.or_eq_true, decide_eq_true_iff]

/-- The condition of ADAPTATION_FREEZE, as the model checks it. -/
theorem freezes_iff : (s.stage l = Stage.active ∧ s.flag (O.FREEZE_ENABLE l) = true ∧ (!s.flag (O.FROZEN l)) = true ∧
      s.get (O.FREEZE_AFTER_US l) ≤ us.toNat ∧ windows ≠ [] ∧ windows.all (s.lowWindow l) = true) ↔
    (s.stage l = Stage.active ∧ s.flag (O.FREEZE_ENABLE l) = true ∧ s.flag (O.FROZEN l) = false ∧
      s.get (O.FREEZE_AFTER_US l) ≤ us.toNat ∧ windows ≠ [] ∧
      ∀ w ∈ windows, w.1 = true ∨ w.2.val < s.get (O.VARIETY_MIN l)) := by
  simp only [Bool.not_eq_true', List.all_eq_true, State.lowWindow_iff]

/-- The condition of ADAPTATION_THAW, as the model checks it. -/
theorem thaws_iff : (s.get (O.THAW_AFTER_US l) ≤ us.toNat ∧ windows ≠ [] ∧ windows.all (!s.lowWindow l ·) = true) ↔
    (s.get (O.THAW_AFTER_US l) ≤ us.toNat ∧ windows ≠ [] ∧
      ∀ w ∈ windows, ¬ (w.1 = true ∨ w.2.val < s.get (O.VARIETY_MIN l))) := by
  simp only [List.all_eq_true, Bool.not_eq_true', ← State.lowWindow_iff, Bool.not_eq_true]

end

/-! ### Eye scans (R95) -/

/-- The row of EYE_SCAN. -/
def eyeScanRow : ObjRow := ⟨0x2150, 1, 1, .cmd, .cmd, 1, 0, .upto 512, .none, []⟩

theorem finds_eyeScan (s : State) (l : Lane) : Finds s false (O.EYE_SCAN l) eyeScanRow := by
  have hrow : rowOf (indexRows 0x2150) 1 = some eyeScanRow := by decide +kernel
  have hhead : (indexRows 0x2150).head? = some eyeScanRow := by decide +kernel
  exact finds_of_rowOf hhead (decide_eq_true l.isLt) hrow (by simp)

theorem State.cmdRange_eyeScan (s : State) (l : Nat) (sel : Byte) : s.cmdRange (O.EYE_SCAN l) [sel] =
    (decide (sel.toNat ≤ 3) && (s.get (O.LANE_MODE l) != 1 || sel.toNat == 0)) := (rfl)

theorem State.command_eyeScan (s : State) (l : Nat) (sel : Byte) :
    s.command (O.EYE_SCAN l) [sel] = s.eyeScan l sel.toNat := (rfl)

/-- EYE_SCAN is a write of its command object. -/
theorem exec_eyeScan_write (s : State) (p : Path) (l : Lane) (sel : Byte) :
    exec (.eyeScan p l sel) s = exec (.write p (O.EYE_SCAN l) 0 [sel]) s := rfl

section
variable {s : State} {p : Path} {l : Lane} {sel : Byte} (h : Takes s p (O.EYE_SCAN l))

theorem State.cmdRange_eyeScan_ok (hsel : sel.toNat ≤ 3) (hnrz : s.get (O.LANE_MODE l) = 1 → sel = 0) :
    s.cmdRange (O.EYE_SCAN l) [sel] = true := by
  rw [State.cmdRange_eyeScan, decide_eq_true hsel, Bool.true_and]
  by_cases hm : s.get (O.LANE_MODE l) = 1
  · simp [hnrz hm]
  · simp [hm]

include h

theorem eyeScan_outOfRange (hsel : 3 < sel.toNat ∨ (s.get (O.LANE_MODE l) = 1 ∧ sel ≠ 0)) :
    exec (.eyeScan p l sel) s = .next (refused s p Err.range) := by
  obtain ⟨hready, hl, -, -⟩ := h
  rw [exec_eyeScan_write]
  refine write_cmd_refused hready (finds_eyeScan s l) rfl (.inl (by simp)) hl (State.cmdOp_range rfl ?_)
  rw [State.cmdRange_eyeScan]
  rcases hsel with hbig | ⟨hm, hne⟩
  · rw [decide_eq_false (Nat.not_le.2 hbig), Bool.false_and]
  · have hz : sel.toNat ≠ 0 := fun hz => hne (BitVec.eq_of_toNat_eq hz)
    have hm' : (fresh s).get (O.LANE_MODE l) = 1 := hm
    simp [hm', hz]

variable (hsel : sel.toNat ≤ 3) (hnrz : s.get (O.LANE_MODE l) = 1 → sel = 0)
include hsel hnrz

theorem eyeScan_inactive (hs : s.stage l ≠ Stage.active) :
    exec (.eyeScan p l sel) s = .next (refused s p Err.state) := by
  obtain ⟨hready, hl, hbusy, hrun⟩ := h
  rw [exec_eyeScan_write]
  refine write_cmd_refused hready (finds_eyeScan s l) rfl (.inl (by simp)) hl ?_
  rw [State.cmdOp_command (s := fresh s) rfl (State.cmdRange_eyeScan_ok (s := s) hsel hnrz) hbusy hrun
    (State.diagRefuses_of_area (by simp) false), State.command_eyeScan]
  exact if_pos hs

theorem eyeScan_does (hs : s.stage l = Stage.active) :
    Does (.eyeScan p l sel) s fun u => u.out = [.answer p Err.ok []] ∧ (u.cmd (O.EYE_SCAN l)).status = 1 ∧
      (u.lane l).eyeSel = sel.toNat ∧ u.dict.objs = s.dict.objs := by
  have hexec : exec (.eyeScan p l sel) s = .next (answers s p Err.ok
      (((fresh s).cmdRun (O.EYE_SCAN l)).modLane l fun x => { x with eyeSel := sel.toNat })) := by
    rw [exec_eyeScan_write]
    exact write_cmd_takes h (finds_eyeScan s l) rfl (.inl (by simp)) rfl (State.cmdRange_eyeScan_ok hsel hnrz)
      (State.diagRefuses_of_area (by simp) false) ((State.command_eyeScan _ _ _).trans (if_neg (not_not.2 hs)))
  have hsel' : ((((fresh s).cmdRun (O.EYE_SCAN l)).modLane l fun x => { x with eyeSel := sel.toNat }).lane l).eyeSel =
      sel.toNat := by rw [State.lane_modLane]
  exact ⟨_, hexec, rfl, congrArg CmdStat.status (State.cmd_setCmd (fresh s) (O.EYE_SCAN l) 1 0 []),
    hsel', rfl⟩

end

/-- What was written to the elements of an object is read from them. -/
theorem State.getAll_setAll (s : State) (r : Ref) (vs : List Nat) : (s.setAll r vs).getAll r vs.length = vs := by
  have hget : ∀ (vs : List Nat) (t : State) (k i : Nat), (t.setAll r vs k).get r i =
      if k ≤ i ∧ i < k + vs.length then vs.getD (i - k) 0 else t.get r i := by
    intro vs
    induction vs with
    | nil => exact fun t k i => (if_neg fun hi => by simp at hi; omega).symm
    | cons v vs ih =>
      intro t k i
      rw [State.setAll, ih, State.get_set]
      rcases Nat.lt_trichotomy i k with hlt | rfl | hgt
      · rw [if_neg (by omega), if_neg (by omega), if_neg (by omega)]
      · rw [if_neg (by omega), if_pos ⟨rfl, rfl⟩, if_pos (by simp)]
        simp
      · have hsub : i - k = (i - (k + 1)) + 1 := by omega
        rw [if_neg (c := r = r ∧ i = k) (by omega), hsub, List.getD_cons_succ, List.length_cons]
        exact if_congr (by omega) rfl rfl
  refine List.ext_getElem (by simp [State.getAll]) fun i hi hi' => ?_
  simp only [State.getAll, List.getElem_map, List.getElem_range]
  rw [hget, if_pos (by omega)]
  simp [hi']

section
variable {s : State} {l : Lane} {d : List Byte} (h : Runs s) (hr : s.cmdRunning (O.EYE_SCAN l) = true)
include h hr

theorem exec_eyeScanDone_ran {es : List Nat} (he : eyesOf (s.lane l).eyeSel = es) :
    exec (.eyeScanDone l d) s = .next (ran s (((fresh s).cmdDone (O.EYE_SCAN l)
      ((padTo (6 * es.length) d).take (6 * es.length))).setAll (O.EYE_RESULT l)
        (((padTo 18 (zeros (6 * es.headD 0) ++ (padTo (6 * es.length) d).take (6 * es.length))).take 18).map bn))) := by
  subst he
  have hgo : (!(fresh s).cmdRunning (O.EYE_SCAN l)) = false := congrArg not hr
  exact exec_eq_ran exec_eyeScanDone h (if_neg (ne_true_of_eq_false hgo))

/-- The end of an eye scan of the eyes `es`, with their bytes `r`. -/
theorem eyeScanDone_does {es : List Nat} {r : List Byte} (he : eyesOf (s.lane l).eyeSel = es)
    (hres : (padTo (6 * es.length) d).take (6 * es.length) = r) : Does (.eyeScanDone l d) s fun u =>
      (u.cmd (O.EYE_SCAN l)).status = 2 ∧ (u.cmd (O.EYE_SCAN l)).result = r ∧
      u.getAll (O.EYE_RESULT l) 18 = ((padTo 18 (zeros (6 * es.headD 0) ++ r)).take 18).map bn ∧ u.lanes = s.lanes := by
  have hexec := exec_eyeScanDone_ran h hr he (d := d)
  rw [hres] at hexec
  have hlen : (((padTo 18 (zeros (6 * es.headD 0) ++ r)).take 18).map bn).length = 18 := by
    simp [padTo, zeros]
    omega
  have hw : Writes [O.EYE_RESULT l] ((fresh s).cmdDone (O.EYE_SCAN l) r) (((fresh s).cmdDone (O.EYE_SCAN l) r).setAll
      (O.EYE_RESULT l) (((padTo 18 (zeros (6 * es.headD 0) ++ r)).take 18).map bn)) := (Writes.refl _ _).setAll (by simp)
  have hcmd : ∀ q, (((fresh s).cmdDone (O.EYE_SCAN l) r).setAll (O.EYE_RESULT l)
      (((padTo 18 (zeros (6 * es.headD 0) ++ r)).take 18).map bn)).cmd q =
        ((fresh s).cmdDone (O.EYE_SCAN l) r).cmd q := fun q => by
    obtain ⟨n, o, ho⟩ := hw.rest
    rw [ho]
    rfl
  have hall := State.getAll_setAll ((fresh s).cmdDone (O.EYE_SCAN l) r) (O.EYE_RESULT l)
    (((padTo 18 (zeros (6 * es.headD 0) ++ r)).take 18).map bn)
  rw [hlen] at hall
  have hdone : ((fresh s).cmdDone (O.EYE_SCAN l) r).cmd (O.EYE_SCAN l) = ⟨2, 0, r⟩ := State.cmd_setCmd _ _ _ _ _
  exact ⟨_, hexec, congrArg CmdStat.status ((hcmd _).trans hdone), congrArg CmdStat.result ((hcmd _).trans hdone), hall,
    hw.lanes⟩

theorem eyeScanDone_all (hd : d.length = 18) (hsel : (s.lane l).eyeSel = 3) : Does (.eyeScanDone l d) s fun u =>
    (u.cmd (O.EYE_SCAN l)).status = 2 ∧ (u.cmd (O.EYE_SCAN l)).result = d ∧
      u.getAll (O.EYE_RESULT l) 18 = d.map bn ∧ u.lanes = s.lanes := by
  have hpad : ∀ x : List Byte, x.length = 18 → (padTo 18 x).take 18 = x := fun x hx => by
    rw [padTo, ← hx, List.take_left']
    rfl
  have hdoes := eyeScanDone_does h hr (es := [0, 1, 2]) (r := d) (d := d) (by rw [hsel]; rfl) (hpad d hd)
  have hblob : (padTo 18 (zeros (6 * [0, 1, 2].headD 0) ++ d)).take 18 = d := hpad d hd
  rwa [hblob] at hdoes

theorem eyeScanDone_one (hd : d.length = 18) (hsel : (s.lane l).eyeSel < 3) : Does (.eyeScanDone l d) s fun u =>
    (u.cmd (O.EYE_SCAN l)).status = 2 ∧ (u.cmd (O.EYE_SCAN l)).result = d.take 6 ∧ u.lanes = s.lanes := by
  have hres : (padTo (6 * [(s.lane l).eyeSel].length) d).take (6 * [(s.lane l).eyeSel].length) = d.take 6 :=
    List.take_append_of_le_length (by rw [hd]; simp)
  obtain ⟨u, hexec, hst, hresult, -, hlanes⟩ := eyeScanDone_does h hr (if_neg hsel.ne) hres
  exact ⟨u, hexec, hst, hresult, hlanes⟩

end

end Sys2Proof.Machine
end

section
/-!
The coefficients written by FFE_LOAD (R88), and the supervision of the SNR (R96).
-/
namespace Sys2Proof.Machine

/-! ### Tap words (R88) -/

/-- A signed 16-bit value survives its encoding. -/
theorem toSigned_ofSigned {w : Int} (hlo : -32768 ≤ w) (hhi : w < 32768) : toSigned 16 (ofSigned 16 w) = w := by
  simp only [toSigned, ofSigned, Nat.reducePow, Nat.reduceSub, Nat.cast_ofNat]
  omega

/-- What a tap becomes: the cursor is held at 256, another is clamped to the bound. -/
def clampTap (b : Int) (cur i : Nat) (v : Int) : Int := if i = cur then 256 else max (-b) (min b v)

theorem clampTap_range {b : Int} (h0 : 0 ≤ b) (h : b < 2 ^ 15) (cur i : Nat) (v : Int) :
    -32768 ≤ clampTap b cur i v ∧ clampTap b cur i v < 32768 := by
  unfold clampTap
  split
  · decide
  · omega

/-- One tap of `State.putTaps`. -/
def State.putTap (b : Int) (cur l : Nat) (s : State) (x : Int × Nat) : State :=
  let n := ofSigned 16 (clampTap b cur x.2 x.1)
  ((if x.2 ≠ cur ∧ clampTap b cur x.2 x.1 ≠ x.1 then s.count32 (O.CLAMP_COUNT l) else s).set (O.FFE_TAPS l) (n % 256)
    (2 * x.2)).set (O.FFE_TAPS l) (n / 256) (2 * x.2 + 1)

theorem State.putTaps_eq (s : State) (l : Nat) (taps : List Int) : s.putTaps l taps =
    s.each taps.zipIdx (State.putTap (s.get (O.FFE_BOUND l)) (s.get (O.FFE_CURSOR l)) l) := rfl

section
variable {b : Int} {cur l : Nat} {s : State} {v : Int} {i : Nat}

theorem State.get_putTap (e : Nat) : (s.putTap b cur l (v, i)).get (O.FFE_TAPS l) e =
    if e = 2 * i + 1 then ofSigned 16 (clampTap b cur i v) / 256
    else if e = 2 * i then ofSigned 16 (clampTap b cur i v) % 256 else s.get (O.FFE_TAPS l) e := by
  have hcount : (if i ≠ cur ∧ clampTap b cur i v ≠ v then s.count32 (O.CLAMP_COUNT l) else s).get (O.FFE_TAPS l) e =
      s.get (O.FFE_TAPS l) e := by
    split
    · exact State.get_set_other _ _ _ _ (.inl (by simp))
    · rfl
  simp only [State.putTap, State.get_set, true_and, hcount]

theorem State.ffeTap_putTap_same (h0 : 0 ≤ b) (h : b < 2 ^ 15) :
    (s.putTap b cur l (v, i)).ffeTap l i = clampTap b cur i v := by
  obtain ⟨hlo, hhi⟩ := clampTap_range h0 h cur i v
  rw [State.ffeTap, State.get_putTap, State.get_putTap, if_neg (by omega), if_pos rfl, if_pos rfl, Nat.mod_add_div,
    toSigned_ofSigned hlo hhi]

theorem State.ffeTap_putTap_other {j : Nat} (hj : j ≠ i) : (s.putTap b cur l (v, i)).ffeTap l j = s.ffeTap l j := by
  rw [State.ffeTap, State.ffeTap, State.get_putTap, State.get_putTap, if_neg (by omega), if_neg (by omega),
    if_neg (by omega), if_neg (by omega)]

end

theorem zipIdx_map_range {α : Type} (g : Nat → α) (n : Nat) :
    ((List.range n).map g).zipIdx = (List.range n).map fun i => (g i, i) :=
  List.ext_getElem (by simp) fun i _ _ => by simp

/-- Each tap put is the one given, within its bound. -/
theorem State.ffeTap_putTaps (s : State) (l : Nat) (g : Nat → Int) (n : Nat) (hb : s.get (O.FFE_BOUND l) < 2 ^ 15)
    {i : Nat} (hi : i < n) : (s.putTaps l ((List.range n).map g)).ffeTap l i =
      clampTap (s.get (O.FFE_BOUND l)) (s.get (O.FFE_CURSOR l)) i (g i) := by
  have h0 : (0 : Int) ≤ s.get (O.FFE_BOUND l) := Int.natCast_nonneg _
  have h1 : (s.get (O.FFE_BOUND l) : Int) < 2 ^ 15 := by exact_mod_cast hb
  rw [State.putTaps_eq, zipIdx_map_range, State.each, List.foldl_map]
  have htap := State.each_local (fun t i => t.ffeTap l i)
    (fun i _ => clampTap (s.get (O.FFE_BOUND l)) (s.get (O.FFE_CURSOR l)) i (g i))
    (fun t i => t.putTap (s.get (O.FFE_BOUND l)) (s.get (O.FFE_CURSOR l)) l (g i, i))
    (fun t i => State.ffeTap_putTap_same h0 h1) (fun t i j hj => State.ffeTap_putTap_other hj) (List.range n)
    List.nodup_range s i
  rwa [if_pos (List.mem_range.2 hi)] at htap

/-! ### FFE_LOAD (R88) -/

/-- The row of FFE_LOAD. -/
def ffeLoadRow : ObjRow := ⟨0x2120, 9, 9, .blob, .wo, 72, 1, .upto 512, .none, []⟩

theorem finds_ffeLoad (s : State) (l : Lane) : Finds s false (O.FFE_LOAD l) ffeLoadRow := by
  have hhead : (indexRows 0x2120).head? = some ⟨0x2120, 1, 1, .blob, .ro, 72, 1, .upto 512, .none, []⟩ := by
    decide +kernel
  have hrow : rowOf (indexRows 0x2120) 9 = some ffeLoadRow := by decide +kernel
  exact finds_of_rowOf hhead (decide_eq_true l.isLt) hrow (by simp)

/-- FFE_LOAD is a write of its object. -/
theorem exec_ffeLoad_write (s : State) (p : Path) (l : Lane) (d : List Byte) :
    exec (.ffeLoad p l d) s = exec (.write p (O.FFE_LOAD l) 0 d) s := rfl

theorem State.extent_ffeLoad (s : State) (n : Nat) : s.extent ffeLoadRow n = (72, 1) := rfl

/-- Every path carries the 72 bytes of an FFE_LOAD. -/
theorem State.extentOk_ffeLoad (s : State) (p : Path) (n len : Nat) :
    s.extentOk ffeLoadRow n (pathMost p) 0 len = decide (len ≤ 72) := by
  have hpath : 72 ≤ pathMost p := by unfold pathMost; split <;> decide
  rw [State.extentOk, State.extent_ffeLoad]
  simp only [Nat.zero_add, Nat.mod_one, beq_self_eq_true, Bool.and_true]
  by_cases hlen : len ≤ 72
  · simp [hlen, hlen.trans hpath]
  · simp [hlen]

section
variable {s : State} {p : Path} {l : Lane} {d : List Byte} (h : Ready s p)
  (hl : s.leasedAway p ((O.FFE_LOAD l).idx / 4096) = false)
include h hl

theorem ffeLoad_tooLong (hd : 72 < d.length) : exec (.ffeLoad p l d) s = .next (refused s p Err.offset) := by
  have hfits : (fresh s).dataFits p ffeLoadRow (O.FFE_LOAD l) 0 d = Err.offset := by
    refine if_neg ?_
    rw [State.extentOk_ffeLoad, decide_eq_true_iff]
    exact Nat.not_le.2 hd
  rw [exec_ffeLoad_write]
  exact exec_write_refused h (State.writeOp_misfit (s := fresh s) (finds_ffeLoad s l) (.inr rfl)
    (State.writeRight_written (.inr (.inl rfl)) (.inl (by simp))) hl hfits (by decide))

variable (hbusy : s.dict.busyTabs.contains (O.FFE_LOAD l) = false) (hd : d.length ≤ 72)
include hbusy hd

theorem ffeLoad_adapting (ha : s.flag (O.ADAPT_ENABLE l) = true) :
    exec (.ffeLoad p l d) s = .next (refused s p Err.state) := by
  have hwrite : (fresh s).writeState (O.FFE_LOAD l) 0 d.length = false := by
    show (9 != 9 || !s.flag (O.ADAPT_ENABLE l)) = false
    rw [ha]
    rfl
  have hrows : ∀ x ∈ rowsIn ((fresh s).extent ffeLoadRow (O.FFE_LOAD l).inst).2 0 d,
      (fresh s).rowOk (O.FFE_LOAD l) x.1 x.2 = true := fun _ _ => rfl
  rw [exec_ffeLoad_write]
  refine exec_write_refused h ?_
  rw [State.writeOp_eq_writeValue (s := fresh s) (finds_ffeLoad s l) (.inr rfl) (.inl (by simp)) hl
    (State.dataFits_bytes (.inl rfl) (((fresh s).extentOk_ffeLoad p _ _).trans (decide_eq_true hd)))]
  have hbusy' : (fresh s).dict.busyTabs.contains (O.FFE_LOAD l) = false := hbusy
  have hgroup : (fresh s).rwBusy ffeLoadRow (O.FFE_LOAD l) = false := rfl
  rw [State.writeValue]
  simp only [show (ffeLoadRow.ty == .blob || ffeLoadRow.ty == .table) = true from rfl, List.all_eq_true.2 hrows, hbusy',
    hgroup, hwrite, Bool.not_true, Bool.not_false, Bool.false_eq_true, if_false, if_true]

theorem exec_ffeLoad_loads (ha : s.flag (O.ADAPT_ENABLE l) = false) : exec (.ffeLoad p l d) s = .next (answers s p Err.ok
    ((fresh s).ffeLoad l (patch ((s.ffeTaps l).flatMap fun v => leBytes 2 (ofSigned 16 v)) 0 d))) := by
  rw [exec_ffeLoad_write]
  refine write_bytes h hl (finds_ffeLoad s l) (.inl rfl) (.inr rfl) (.inl (by simp))
    ((s.extentOk_ffeLoad p _ _).trans (decide_eq_true hd)) (fun _ _ => rfl) hbusy rfl ?_
  show (9 != 9 || !s.flag (O.ADAPT_ENABLE l)) = true
  rw [ha]
  rfl

end

/-- A patch of the whole replaces it. -/
theorem patch_whole {b d : List Byte} (h : b.length = d.length) : patch b 0 d = d := by
  simp [patch, ← h]

theorem length_ffeTaps_bytes (s : State) (l : Nat) :
    ((s.ffeTaps l).flatMap fun v => leBytes 2 (ofSigned 16 v)).length = 72 := by
  simp [State.ffeTaps, List.length_flatMap, length_leBytes, Function.comp_def]

theorem ffeLoad_whole {s : State} {p : Path} {l : Lane} {d : List Byte} (h : Ready s p)
    (hl : s.leasedAway p ((O.FFE_LOAD l).idx / 4096) = false) (hbusy : s.dict.busyTabs.contains (O.FFE_LOAD l) = false) (ha : s.flag (O.ADAPT_ENABLE l) = false)
    (hd : d.length = 72) (hbound : s.get (O.FFE_BOUND l) < 2 ^ 15) : Does (.ffeLoad p l d) s fun u =>
      u.out = [.answer p Err.ok []] ∧
      (∀ i : Fin 36, u.ffeTap l i = if i.val = s.get (O.FFE_CURSOR l) then 256 else
        max (-(s.get (O.FFE_BOUND l) : Int)) (min (s.get (O.FFE_BOUND l)) (toSigned 16 (leAt d (2 * i) 2)))) ∧
      ∀ r e, r ≠ O.FFE_TAPS l → r ≠ O.CLAMP_COUNT l → u.get r e = s.get r e := by
  have hexec := exec_ffeLoad_loads h hl hbusy hd.le ha
  rw [patch_whole ((length_ffeTaps_bytes s l).trans hd.symm)] at hexec
  have hw : Writes [O.FFE_TAPS l, O.CLAMP_COUNT l] (fresh s) ((fresh s).ffeLoad l d) :=
    (Writes.refl _ _).putTaps (by simp) (by simp)
  refine ⟨_, hexec, congrArg (· ++ [Output.answer p Err.ok []]) hw.out, fun i => ?_, fun r e h1 h2 => ?_⟩
  · exact State.ffeTap_putTaps (fresh s) l (fun i => toSigned 16 (leAt d (2 * i) 2)) 36 hbound i.isLt
  · exact hw.objs r e (by simp [h1, h2])

/-! ### AUTO_RETRAIN written FALSE (R96) -/

/-- The row of AUTO_RETRAIN. -/
def autoRetrainRow : ObjRow := ⟨0x2000, 5, 5, .bool, .rw, 1, 1, .upto 8, .none, [(0, 1)]⟩

theorem finds_autoRetrain (s : State) {b : Nat} (hb : b < 8) : Finds s false (O.AUTO_RETRAIN b) autoRetrainRow := by
  have hhead : (indexRows 0x2000).head? = some ⟨0x2000, 1, 1, .enum, .ro, 2, 2, .upto 8, .none, []⟩ := by
    decide +kernel
  have hrow : rowOf (indexRows 0x2000) 5 = some autoRetrainRow := by decide +kernel
  exact finds_of_rowOf hhead (decide_eq_true hb) hrow (by simp)

/-- A lane that is not listed is as after reset. -/
theorem look_of_not_mem {κ α : Type} [DecidableEq κ] (d : α) (m : List (κ × α)) {n : κ} (h : n ∉ m.map (·.1)) :
    look d m n = d := by
  induction m with
  | nil => rfl
  | cons x m ih =>
    obtain ⟨k, v⟩ := x
    rw [List.map_cons, List.mem_cons, not_or] at h
    rw [look, if_neg (Ne.symm h.1), ih h.2]

theorem State.get_supervisionOff (s : State) (b : Nat) (r : Ref) (e : Nat) :
    (s.supervisionOff b).get r e = s.get r e := by
  unfold State.supervisionOff
  refine State.get_each _ _ r e (fun _ _ _ => ?_) s
  rfl

/-- No reading stands on a bank's lanes. -/
theorem State.degraded_supervisionOff (s : State) (l : Nat) :
    ((s.supervisionOff (bankOfLane l)).lane l).degraded = 0 := by
  have hstep : ∀ (t : State) (k : Nat), (t.lane l).degraded = 0 →
      ((t.modLane k fun x => { x with degraded := 0 }).lane l).degraded = 0 := fun t k ht => by
    by_cases hk : l = k
    · subst hk
      exact congrArg LaneX.degraded (State.lane_modLane _ _ _)
    · exact (congrArg LaneX.degraded (State.lane_putLane_other t hk _)).trans ht
  have hkeep : ∀ (ls : List Nat) (t : State), (t.lane l).degraded = 0 →
      ((t.each ls fun t k => t.modLane k fun x => { x with degraded := 0 }).lane l).degraded = 0 := fun ls t =>
    State.each_keeps (fun t => (t.lane l).degraded = 0) ls _ (fun t k _ => hstep t k) t
  unfold State.supervisionOff
  by_cases hl : l ∈ (s.lanes.map (·.1)).filter fun k => bankOfLane k == bankOfLane l
  · obtain ⟨before, after, hsplit⟩ := List.append_of_mem hl
    rw [hsplit, State.each, List.foldl_append, List.foldl_cons]
    exact hkeep after _ (congrArg LaneX.degraded (State.lane_modLane _ _ _))
  · refine hkeep _ s (congrArg LaneX.degraded (look_of_not_mem _ _ fun hm => hl ?_))
    exact List.mem_filter.2 ⟨hm, beq_self_eq_true _⟩

theorem write_autoRetrain_false {s : State} {p : Path} {l : Lane} (h : Ready s p)
    (hl : s.leasedAway p ((O.AUTO_RETRAIN (l.val / 64)).idx / 4096) = false)
    (hbusy : s.dict.busyTabs.contains (O.AUTO_RETRAIN (l.val / 64)) = false) :
    Does (.write p (O.AUTO_RETRAIN (l.val / 64)) 0 [0]) s fun u =>
      u.get (O.AUTO_RETRAIN (l.val / 64)) = 0 ∧ (u.lane l).degraded = 0 := by
  have hexec := write_number (d := [0]) h hl rfl rfl rfl (finds_autoRetrain s (by omega)) (.inl rfl)
    (.inl (by simp)) rfl hbusy rfl rfl
  refine ⟨_, hexec, ?_, ?_⟩
  · exact (State.get_supervisionOff _ _ _ _).trans (State.get_set_same _ _ _ _)
  · exact State.degraded_supervisionOff ((fresh s).set (O.AUTO_RETRAIN (l.val / 64)) 0) l

/-! ### SNR_SUPERVISION (R96) -/

/-- The reading is shown, and the receiver has worked on. -/
def State.observed (s : State) (l snr : Nat) : State :=
  let s := if Stage.train ≤ s.stage l then s.set (O.SNR l) snr else s
  if s.stage l = Stage.active then s.adaptLive l else s

/-- The firmware's count of low readings. -/
def State.supervised (s : State) (l snr : Nat) : State :=
  if s.stage l ≠ Stage.active ∨ !s.flag (O.AUTO_RETRAIN (l / 64)) ∨ s.fwUp = false then s
  else
    let r := s.superviseLevel (s.get (O.RATE_ACTIVE l))
    let s := r.2
    let low := decide (snr + 256 < r.1)
    let n := if low then (s.lane l).degraded + 1 else 0
    if 10 ≤ n then
      ((s.modLane l fun x => { x with degraded := 0 }).count32 (O.LANE_EVENTS l 6)).retrain l
    else s.modLane l fun x => { x with degraded := n }

section
variable {s : State} {l : Lane} {snr : BitVec 16} (h : Runs s)

theorem exec_snrSupervision_live :
    exec (.snrSupervision l snr) s = live s fun s => (s.observed l snr.toNat).supervised l snr.toNat := rfl

theorem State.supervised_off {n : Nat} (ho : s.stage l ≠ Stage.active ∨ s.flag (O.AUTO_RETRAIN (l.val / 64)) = false ∨
    s.fwUp = false) : s.supervised l n = s := if_pos (by simpa only [Bool.not_eq_true'] using ho)

theorem State.superviseLevel_eq {r : Nat} (hr : r = 4 ∨ r = 5) : s.superviseLevel r = (readyLevel r, s) := if_pos hr

section
variable {n : Nat} (ha : s.stage l = Stage.active) (hauto : s.flag (O.AUTO_RETRAIN (l.val / 64)) = true)
  (hfw : s.fwUp = true) (hr : s.get (O.RATE_ACTIVE l) = 4 ∨ s.get (O.RATE_ACTIVE l) = 5)
include ha hauto hfw hr

/-- What the count does where supervision runs, at a rate whose ready level is given. -/
theorem State.supervised_on : s.supervised l n =
    if 10 ≤ (if n + 256 < readyLevel (s.get (O.RATE_ACTIVE l)) then (s.lane l).degraded + 1 else 0) then
      ((s.modLane l fun x => { x with degraded := 0 }).count32 (O.LANE_EVENTS l 6)).retrain l
    else s.modLane l fun x => { x with
      degraded := if n + 256 < readyLevel (s.get (O.RATE_ACTIVE l)) then (s.lane l).degraded + 1 else 0 } := by
  rw [State.supervised, if_neg (by simp [ha, hauto, hfw]), State.superviseLevel_eq hr]
  simp only [decide_eq_true_eq]

theorem State.supervised_ready (hn : readyLevel (s.get (O.RATE_ACTIVE l)) ≤ n + 256) :
    s.supervised l n = s.putLane l { s.lane l with degraded := 0 } := by
  rw [State.supervised_on ha hauto hfw hr, if_neg (c := n + 256 < _) (Nat.not_lt.2 hn)]
  rfl

theorem State.supervised_counts (hn : n + 256 < readyLevel (s.get (O.RATE_ACTIVE l))) (hd : (s.lane l).degraded < 9) :
    s.supervised l n = s.putLane l { s.lane l with degraded := (s.lane l).degraded + 1 } := by
  rw [State.supervised_on ha hauto hfw hr, if_pos (c := n + 256 < _) hn, if_neg (by omega)]
  rfl

theorem State.supervised_retrains (hn : n + 256 < readyLevel (s.get (O.RATE_ACTIVE l)))
    (hd : 9 ≤ (s.lane l).degraded) : s.supervised l n =
      ((s.modLane l fun x => { x with degraded := 0 }).count32 (O.LANE_EVENTS l 6)).retrain l := by
  rw [State.supervised_on ha hauto hfw hr, if_pos (c := n + 256 < _) hn, if_pos (by omega)]

end

theorem State.observed_below {n : Nat} (hs : s.stage l < Stage.train) : s.observed l n = s := by
  have hs' : s.stage l ≠ Stage.active := fun ha => by rw [ha] at hs; exact absurd hs (by decide)
  unfold State.observed
  rw [if_neg (Nat.not_le.2 hs)]
  exact if_neg hs'

theorem State.stage_shown (s : State) (l n : Nat) : (s.set (O.SNR l) n).stage l = s.stage l :=
  State.get_set_other _ _ _ _ (.inl (by simp))

theorem State.observed_inactive {n : Nat} (ht : Stage.train ≤ s.stage l) (ha : s.stage l ≠ Stage.active) :
    s.observed l n = s.set (O.SNR l) n := by
  unfold State.observed
  rw [if_pos ht]
  exact if_neg (by rwa [State.stage_shown])

theorem State.observed_active {n : Nat} (ha : s.stage l = Stage.active) :
    s.observed l n = (s.set (O.SNR l) n).adaptLive l := by
  unfold State.observed
  have ht : Stage.train ≤ s.stage l := by rw [ha]; decide
  rw [if_pos ht]
  exact if_pos ((s.stage_shown l n).trans ha)

/-- The reading and adaptation write the lane's SNR and coefficients. -/
theorem State.observed_writes (s : State) (l n : Nat) :
    Writes (O.SNR l :: coefRefs l) s ((s.set (O.SNR l) n).adaptLive l) := by
  have hshow : Writes (O.SNR l :: coefRefs l) s (s.set (O.SNR l) n) := (Writes.refl _ s).set (by simp)
  have hadapt := (s.set (O.SNR l) n).adaptLive_writes l
  refine ⟨?_, fun r e hr => ?_⟩
  · obtain ⟨k, o, ho⟩ := hadapt.rest
    exact ⟨k, o, ho⟩
  · rw [List.mem_cons, not_or] at hr
    exact (hadapt.objs r e hr.2).trans (State.get_set_other _ _ _ _ (.inl hr.1))

include h

theorem snrSupervision_below (hs : s.stage l < Stage.train) : exec (.snrSupervision l snr) s = .next (fresh s) := by
  have hs' : (fresh s).stage l ≠ Stage.active := fun ha => absurd (ha ▸ hs : Stage.active < Stage.train) (by decide)
  refine exec_eq_fresh exec_snrSupervision_live h ?_
  rw [State.observed_below (s := fresh s) hs, State.supervised_off (.inl hs')]

theorem snrSupervision_inactive (ht : Stage.train ≤ s.stage l) (ha : s.stage l ≠ Stage.active) :
    exec (.snrSupervision l snr) s = .next (ran s ((fresh s).set (O.SNR l) snr.toNat)) := by
  refine exec_eq_ran exec_snrSupervision_live h ?_
  rw [State.observed_inactive (s := fresh s) ht ha, State.supervised_off (.inl (by rw [State.stage_shown]; exact ha))]

section
variable (ha : s.stage l = Stage.active)
include ha

/-- The clauses of an ACTIVE lane, `v` being what the reading and adaptation leave. -/
theorem snrSupervision_active :
    let v := ((fresh s).set (O.SNR l) snr.toNat).adaptLive l
    (s.flag (O.AUTO_RETRAIN (l.val / 64)) = false ∨ s.fwUp = false → exec (.snrSupervision l snr) s = .next (ran s v)) ∧
    (s.flag (O.AUTO_RETRAIN (l.val / 64)) = true → s.fwUp = true →
      (s.get (O.RATE_ACTIVE l) = 4 ∨ s.get (O.RATE_ACTIVE l) = 5) →
      (readyLevel (s.get (O.RATE_ACTIVE l)) ≤ snr.toNat + 256 →
        exec (.snrSupervision l snr) s = .next (ran s (v.putLane l { s.lane l with degraded := 0 }))) ∧
      (snr.toNat + 256 < readyLevel (s.get (O.RATE_ACTIVE l)) → (s.lane l).degraded < 9 →
        exec (.snrSupervision l snr) s =
          .next (ran s (v.putLane l { s.lane l with degraded := (s.lane l).degraded + 1 }))) ∧
      (snr.toNat + 256 < readyLevel (s.get (O.RATE_ACTIVE l)) → 9 ≤ (s.lane l).degraded →
        s.sys.seqDown.contains (bankOfLane l) = false →
        Does (.snrSupervision l snr) s fun u => u.stage l = Stage.train ∧ u.get (O.LAST_EXIT l) = 4 ∧
          u.get (O.SNR l) = snr.toNat ∧ (u.lane l).degraded = 0 ∧
          u.get (O.LANE_EVENTS l 6) = min (s.get (O.LANE_EVENTS l 6) + 1) (2 ^ 32 - 1))) := by
  intro v
  have hw : Writes (O.SNR l :: coefRefs l) (fresh s) v := (fresh s).observed_writes l snr.toNat
  have hobserved : (fresh s).observed l snr.toNat = v := State.observed_active (s := fresh s) ha
  have hkept : ∀ r, r ∉ O.SNR l :: coefRefs l → v.get r = s.get r := fun r hr => hw.objs r 0 hr
  have hlane : v.lane l = s.lane l := hw.lane l
  have hfw : v.fwUp = s.fwUp := by rw [State.fwUp, hw.sys]; rfl
  have hauto : v.flag (O.AUTO_RETRAIN (l.val / 64)) = s.flag (O.AUTO_RETRAIN (l.val / 64)) :=
    congrArg (· != 0) (hkept _ (by simp [coefRefs]))
  have hactive : v.stage l = Stage.active := (hkept _ (by simp [coefRefs])).trans ha
  have hrate : v.get (O.RATE_ACTIVE l) = s.get (O.RATE_ACTIVE l) := hkept _ (by simp [coefRefs])
  have hsnr : v.get (O.SNR l) = snr.toNat :=
    ((((fresh s).set (O.SNR l) snr.toNat).adaptLive_writes l).objs _ 0 (by simp [coefRefs])).trans
      (State.get_set_same _ _ _ _)
  clear_value v
  have hexec : ∀ u, v.supervised l snr.toNat = u → exec (.snrSupervision l snr) s = .next (ran s u) := fun u hu =>
    exec_eq_ran exec_snrSupervision_live h ((congrArg (State.supervised · l snr.toNat) hobserved).trans hu)
  refine ⟨fun ho => hexec _ (State.supervised_off (.inr ?_)), fun hau hf hr => ⟨fun hn => hexec _ ?_,
    fun hn hd => hexec _ ?_, fun hn hd hb => ?_⟩⟩
  · rwa [hauto, hfw]
  · rw [State.supervised_ready hactive (hauto.trans hau) (hfw.trans hf) (hrate ▸ hr) (hrate ▸ hn), hlane]
  · rw [State.supervised_counts hactive (hauto.trans hau) (hfw.trans hf) (hrate ▸ hr) (hrate ▸ hn) (hlane ▸ hd), hlane]
  · refine ⟨_, hexec _ (State.supervised_retrains hactive (hauto.trans hau) (hfw.trans hf) (hrate ▸ hr) (hrate ▸ hn)
      (hlane ▸ hd)), ?_⟩
    have hb' : ((v.modLane l fun x => { x with degraded := 0 }).count32 (O.LANE_EVENTS l 6)).sys.seqDown.contains
        (bankOfLane l) = false := by
      show v.sys.seqDown.contains (bankOfLane l) = false
      rw [hw.sys]
      exact hb
    refine ⟨State.stage_retrain hb', State.lastExit_retrain hb', ?_, State.degraded_retrain hb' ?_, ?_⟩
    · exact (State.get_retrain _ l (by simp) (by simp [stageRefs])).trans
        ((State.get_set_other _ _ _ _ (.inl (by simp))).trans hsnr)
    · show ((v.modLane l fun x => { x with degraded := 0 }).lane l).degraded = 0
      rw [State.lane_modLane]
    · refine (State.get_retrain _ l (by simp) (by simp [stageRefs])).trans ((State.get_set_same _ _ _ _).trans ?_)
      exact congrArg (fun v => min (v + 1) (2 ^ 32 - 1)) (hkept _ (by simp [coefRefs]))

end
end

end Sys2Proof.Machine

open Sys2Proof Sys2Proof.Machine

/-- Settles O28: one equation of the event or of the object's write for each condition the model checks. -/
theorem laneMonitors : Obligations.LaneMonitors := by
  unfold Obligations.LaneMonitors
  intro s l p sel d snr us windows h
  have harea : (O.FFE_LOAD l).idx / 4096 = 2 := by simp
  refine ⟨⟨fun hf => exec_eq_ran exec_adaptationFreeze h (if_pos (freezes_iff.2 hf)),
      fun hf => exec_eq_fresh exec_adaptationFreeze h (if_neg fun hc => hf (freezes_iff.1 hc)),
      fun ht => exec_eq_ran exec_adaptationThaw h (if_pos (thaws_iff.2 ht)),
      fun ht => exec_eq_fresh exec_adaptationThaw h (if_neg fun hc => ht (thaws_iff.1 hc))⟩,
    fun ht ha hsel hnrz => eyeScan_does ht hsel hnrz ha, fun ht hsel => eyeScan_outOfRange ht hsel,
    fun ht ha hsel hnrz => eyeScan_inactive ht hsel hnrz ha, eyeScanDone_all h, eyeScanDone_one h,
    fun hready hl hbusy ha => ⟨ffeLoad_whole hready (harea ▸ hl) hbusy ha,
      fun hd => exec_ffeLoad_loads hready (harea ▸ hl) hbusy hd ha⟩,
    fun hready hl hd => ffeLoad_tooLong hready (harea ▸ hl) hd,
    fun hready hl hbusy hd ha => ffeLoad_adapting hready (harea ▸ hl) hbusy hd ha,
    fun hready hl hbusy => write_autoRetrain_false hready (by simpa using hl) hbusy,
    snrSupervision_below h, snrSupervision_inactive h, snrSupervision_active h⟩

end

section
/-!
How a port comes up and leaves UP, and what it signals meanwhile (R78, R99, R103-R106, R116, R120, R122).
-/
namespace Sys2Proof.Machine

/-! ### Markers (R78, R104) -/

/-- A marker carries its link status in byte 12. -/
theorem byteAt_marker (m i tag bip status count : Nat) (r : List Byte) :
    byteAt (marker m i tag bip status count ++ r) 12 = status % 256 := by
  simp [marker, byteAt, markerPattern]

/-- A marker group goes out, a free value is drawn, and an injection armed for it is used up. -/
theorem State.sendMarkers_eq (s : State) (l : Nat) : ∃ n a b,
    s.sendMarkers l = { s with free := n, faults := { s.faults with armed := a }, out := s.out ++ [.markers l b] } ∧
      byteAt b 12 = s.linkStatus l % 256 := by
  have harmed : ∀ t : State, ∃ a, (t.markerArmed l).2 = { t with faults := { t.faults with armed := a } } := fun t => by
    unfold State.markerArmed
    split
    · exact ⟨_, rfl⟩
    · exact ⟨_, rfl⟩
  obtain ⟨a, ha⟩ := harmed (s.draw 0).2
  unfold State.sendMarkers
  dsimp only
  rw [ha]
  refine ⟨_, a, _, rfl, ?_⟩
  rw [List.range_succ_eq_map, List.flatMap_cons, byteAt_marker]
  rfl

/-- The marker groups of `ms` are those of the lanes `ls`, one each, with the link status they have in `s`. -/
def MarkersOf (s : State) (ls : List Nat) (ms : List Output) : Prop :=
  ms.length = ls.length ∧ ∀ o ∈ ms, ∃ l ∈ ls, ∃ b, o = .markers l b ∧ byteAt b 12 = s.linkStatus l % 256

theorem State.each_sendMarkers (s : State) (ls : List Nat) : ∃ n a ms,
    s.each ls State.sendMarkers = { s with free := n, faults := { s.faults with armed := a }, out := s.out ++ ms } ∧
      MarkersOf s ls ms := by
  induction ls generalizing s with
  | nil => exact ⟨s.free, s.faults.armed, [], by rw [List.append_nil]; rfl, rfl, by simp⟩
  | cons l ls ih =>
    obtain ⟨n, a, b, hsend, hb⟩ := s.sendMarkers_eq l
    obtain ⟨n', a', ms, heach, hlen, hms⟩ := ih (s.sendMarkers l)
    rw [hsend] at heach hms
    refine ⟨n', a', .markers l b :: ms, ?_, congrArg (· + 1) hlen, ?_⟩
    · refine (congrArg (State.each · ls State.sendMarkers) hsend).trans (heach.trans ?_)
      simp only [List.append_assoc, List.singleton_append]
    · rintro o (_ | ⟨_, ho⟩)
      · exact ⟨l, List.mem_cons_self .., b, rfl, hb⟩
      · obtain ⟨k, hk, c, hc⟩ := hms o ho
        exact ⟨k, List.mem_cons_of_mem _ hk, c, hc⟩

/-! ### Faults (R104) -/

/-- The lanes of a port that send markers (R78). -/
def State.markerLanes (s : State) (p : Nat) : List Nat :=
  (s.portLanes p).filter fun l => s.get (O.RATE_ACTIVE l) == 5 && s.stage l == 5

/-- A port's faults change: the port says so where what it signals changes, and nothing else changes but free values and
injections armed for markers. -/
theorem State.setFault_eq (s : State) (p : Nat) (f : List Nat) : ∃ n a ms,
    s.setFault p f = { s.putPort p { s.port p with fault := f } with
      free := n, faults := { s.faults with armed := a }, out := s.out ++
        if s.faultSent p = (s.flag (O.ADMIN_UP p) && f.contains 1) then []
        else .remoteFault p (s.flag (O.ADMIN_UP p) && f.contains 1) :: ms } ∧
      MarkersOf (s.putPort p { s.port p with fault := f }) (s.markerLanes p) ms := by
  have hsent : (s.putPort p { s.port p with fault := f }).faultSent p = (s.flag (O.ADMIN_UP p) && f.contains 1) := by
    rw [State.faultSent, State.port_putPort]
    rfl
  obtain ⟨n, a, ms, heach, hms⟩ := ((s.putPort p { s.port p with fault := f }).emit
    (.remoteFault p (s.flag (O.ADMIN_UP p) && f.contains 1))).each_sendMarkers (s.markerLanes p)
  have hset : s.setFault p f = if s.faultSent p = (s.flag (O.ADMIN_UP p) && f.contains 1)
      then s.putPort p { s.port p with fault := f } else ((s.putPort p { s.port p with fault := f }).emit
        (.remoteFault p (s.flag (O.ADMIN_UP p) && f.contains 1))).each (s.markerLanes p) State.sendMarkers := by
    rw [← hsent]
    rfl
  rw [hset]
  split
  · exact ⟨s.free, s.faults.armed, ms, by rw [List.append_nil]; rfl, hms⟩
  · refine ⟨n, a, ms, heach.trans ?_, hms⟩
    simp only [State.emit, List.append_assoc, List.singleton_append]
    rfl

/-- The markers of a port that signals no fault say so. -/
theorem MarkersOf.clear {s : State} {p : Nat} {ls : List Nat} {ms : List Output} (h : MarkersOf s ls ms)
    (hf : s.faultSent p = false) (hl : ∀ l ∈ ls, s.portOfLane l = some p) :
    ∀ o ∈ ms, ∃ l ∈ ls, ∃ b, o = .markers l b ∧ byteAt b 12 % 4 = 0 := by
  intro o ho
  obtain ⟨l, hmem, b, hb, hbyte⟩ := h.2 o ho
  refine ⟨l, hmem, b, hb, ?_⟩
  rw [hbyte, State.linkStatus, hl l hmem]
  simp only [hf, b01, Bool.false_eq_true, if_false]
  omega

/-- Port `p` has the faults `f`: it says so where what it signals changes, `on` from now on, and its markers follow. -/
structure FaultSet (s : State) (p : Nat) (f : List Nat) (on : Bool) (u : State) : Prop where
  port : u.port p = { s.port p with fault := f }
  others : ∀ q, q ≠ p → u.port q = s.port q
  irq : u.irq = s.irq
  objs : ∀ r e, u.get r e = s.get r e
  out : ∃ ms, u.out = (s.out ++ if s.faultSent p = on then [] else .remoteFault p on :: ms) ∧
    ms.length = (s.markerLanes p).length ∧ (on = false → (∀ l ∈ s.markerLanes p, s.portOfLane l = some p) →
      ∀ o ∈ ms, ∃ l ∈ s.markerLanes p, ∃ b, o = .markers l b ∧ byteAt b 12 % 4 = 0)

theorem State.setFault_set (s : State) (p : Nat) (f : List Nat) :
    FaultSet s p f (s.flag (O.ADMIN_UP p) && f.contains 1) (s.setFault p f) := by
  obtain ⟨n, a, ms, hfault, hms⟩ := s.setFault_eq p f
  have hsent : (s.putPort p { s.port p with fault := f }).faultSent p = (s.flag (O.ADMIN_UP p) && f.contains 1) := by
    rw [State.faultSent, State.port_putPort]
    rfl
  rw [hfault]
  exact ⟨s.port_putPort p _, fun q hq => s.port_putPort_other hq.symm _, rfl, fun _ _ => rfl, ms, rfl, hms.1,
    fun hon hl => hms.clear (hsent.trans hon) hl⟩

/-! ### Entering UP (R99, R104, R116) -/

theorem State.portShow_writes (s : State) (p : Nat) :
    Writes [O.SPEED_ACTIVE p, O.FEC_ACTIVE p] s (s.portShow p) :=
  Writes.ite (((Writes.refl _ s).set (by simp)).set (by simp)) (.refl _ s)

/-- A port whose lanes run at a rate shows its speed and FEC. -/
theorem State.portShow_shown {s : State} {p : Nat} (h : ∀ l ∈ s.portLanes p, s.get (O.RATE_ACTIVE l) ≠ 0) :
    (s.portShow p).get (O.SPEED_ACTIVE p) = (if s.portMode p = 5 ∧ s.allG4 p = false then 200 * s.portWidth p
      else speedOf (s.portMode p) (s.portWidth p) (s.flag (O.SUBRATE_10G p))) ∧
    (s.portShow p).get (O.FEC_ACTIVE p) = fecActive (s.portMode p) (s.portWidth p) (s.flag (O.SUBRATE_10G p))
      (s.get (O.FEC_MODE p)) (s.allG4 p) := by
  have hall : ((s.portLanes p).all fun l => s.get (O.RATE_ACTIVE l) != 0) = true := by simpa using h
  unfold State.portShow
  rw [if_pos hall]
  refine ⟨?_, State.get_set_same _ _ _ _⟩
  rw [State.get_set_other _ _ _ _ (.inl (by simp)), State.get_set_same]
  simp only [Bool.not_eq_true']

/-- What beginning preemption leaves (R115, R116): the settings shown, and, where it verifies, its first verify mPacket. -/
structure PreemptBegun (s : State) (p : Nat) (u : State) : Prop where
  out : u.out = s.out ++ if s.verifyRest p = 1 then [.mpacket p false] else []
  status : u.get (O.VERIFY_STATUS p) = if s.verifyRest p = 1 then 2 else 0
  active : u.get (O.PREEMPT_ACTIVE p) = b01 (s.flag (O.PREEMPT_ENABLE p) && s.flag (O.VERIFY_DISABLE p))
  port : u.port p = { s.port p with attempts := if s.verifyRest p = 1 then 1 else 0 }
  others : ∀ q, q ≠ p → u.port q = s.port q
  irq : u.irq = s.irq
  objs : ∀ r e, r ∉ [O.VERIFY_STATUS p, O.PREEMPT_ACTIVE p, O.PREEMPT_COUNTS p 7] → u.get r e = s.get r e

/-- Preemption shown as the settings have it, before it verifies. -/
def State.preemptShown (s : State) (p : Nat) : State :=
  (s.putPort p { s.port p with attempts := 0 }).set (O.PREEMPT_ACTIVE p)
    (b01 (s.flag (O.PREEMPT_ENABLE p) && s.flag (O.VERIFY_DISABLE p)))

theorem State.verifyRest_preemptShown (s : State) (p : Nat) : (s.preemptShown p).verifyRest p = s.verifyRest p := by
  simp [State.verifyRest, State.flag, State.preemptShown, State.get_set]

theorem State.preemptStart_eq (s : State) (p : Nat) : s.preemptStart p = if s.verifyRest p = 1
    then ((s.preemptShown p).set (O.VERIFY_STATUS p) 2).verifySend p
    else (s.preemptShown p).set (O.VERIFY_STATUS p) 0 := by
  rw [← State.verifyRest_preemptShown]
  rfl

theorem State.port_verifySend (s : State) (p q : Nat) : (s.verifySend p).port q =
    (s.putPort p { s.port p with attempts := (s.port p).attempts + 1 }).port q := (rfl)

theorem State.get_verifySend (s : State) (p : Nat) (r : Ref) (e : Nat) (h : r ≠ O.PREEMPT_COUNTS p 7) :
    (s.verifySend p).get r e = s.get r e := State.get_set_other _ _ _ _ (.inl h)

theorem State.port_preemptShown (s : State) (p q : Nat) : (s.preemptShown p).port q =
    (s.putPort p { s.port p with attempts := 0 }).port q := (rfl)

theorem State.irq_verifySend (s : State) (p : Nat) : (s.verifySend p).irq = s.irq := (rfl)
theorem State.out_verifySend (s : State) (p : Nat) : (s.verifySend p).out = s.out ++ [.mpacket p false] := (rfl)
theorem State.irq_preemptShown (s : State) (p : Nat) : (s.preemptShown p).irq = s.irq := (rfl)
theorem State.out_preemptShown (s : State) (p : Nat) : (s.preemptShown p).out = s.out := (rfl)

theorem State.preemptStart_begun (s : State) (p : Nat) : PreemptBegun s p (s.preemptStart p) := by
  have hshown : ∀ v, ((s.preemptShown p).set (O.VERIFY_STATUS p) v).get (O.PREEMPT_ACTIVE p) =
      b01 (s.flag (O.PREEMPT_ENABLE p) && s.flag (O.VERIFY_DISABLE p)) := fun v =>
    (State.get_set_other _ _ _ _ (.inl (by simp))).trans (State.get_set_same _ _ _ _)
  have hkept : ∀ v r e, r ∉ [O.VERIFY_STATUS p, O.PREEMPT_ACTIVE p, O.PREEMPT_COUNTS p 7] →
      ((s.preemptShown p).set (O.VERIFY_STATUS p) v).get r e = s.get r e ∧ r ≠ O.PREEMPT_COUNTS p 7 := fun v r e hr => by
    simp only [List.mem_cons, List.not_mem_nil, or_false, not_or] at hr
    obtain ⟨h1, h2, h3⟩ := hr
    exact ⟨(State.get_set_other _ _ _ _ (.inl h1)).trans (State.get_set_other _ _ _ _ (.inl h2)), h3⟩
  have hport : ∀ v q, ((s.preemptShown p).set (O.VERIFY_STATUS p) v).port q =
      (s.putPort p { s.port p with attempts := 0 }).port q := fun _ _ => rfl
  rw [State.preemptStart_eq]
  by_cases h : s.verifyRest p = 1
  · rw [if_pos h]
    refine ⟨?_, ?_, ?_, ?_, fun q hq => ?_, ?_, fun r e hr => ?_⟩
    · rw [if_pos h, State.out_verifySend, State.set_out, State.out_preemptShown]
    · rw [if_pos h, State.get_verifySend _ _ _ _ (by simp), State.get_set_same]
    · rw [State.get_verifySend _ _ _ _ (by simp), hshown]
    · rw [if_pos h, State.port_verifySend, State.port_putPort, hport, State.port_putPort]
    · rw [State.port_verifySend, State.port_putPort_other _ hq.symm, hport, State.port_putPort_other _ hq.symm]
    · rw [State.irq_verifySend, State.set_irq, State.irq_preemptShown]
    · rw [State.get_verifySend _ _ _ _ (hkept 2 r e hr).2, (hkept 2 r e hr).1]
  · rw [if_neg h]
    refine ⟨by rw [if_neg h, List.append_nil]; rfl, ?_, hshown 0, ?_, fun q hq => ?_, rfl, fun r e hr =>
      (hkept 0 r e hr).1⟩
    · rw [if_neg h, State.get_set_same]
    · rw [if_neg h, hport, State.port_putPort]
    · rw [hport, State.port_putPort_other _ hq.symm]

/-- The port is UP, with no event held back. -/
def State.marksUp (s : State) (p : Nat) : State := s.putPort p { s.port p with up := true, holding := false }

/-- A port that has entered UP, before preemption begins: it shows what it runs at, its lead and its change (R99, R104). -/
def State.risen (s : State) (p lead : Nat) : State :=
  let t := ((((s.marksUp p).setFault p []).portShow p).set (O.EGRESS_LEAD_NS p) lead).count32 (O.LINK_CHANGES p)
  if (s.port p).holding then t else t.raise (0x120 + p / 16)

theorem State.portUp_eq (s : State) (p lead : Nat) : s.portUp p lead = (s.risen p lead).preemptStart p := rfl

/-- What entering UP leaves. -/
structure Risen (s : State) (p lead : Nat) (u : State) : Prop where
  shown : (∀ l ∈ s.portLanes p, s.get (O.RATE_ACTIVE l) ≠ 0) →
    u.get (O.SPEED_ACTIVE p) = (if s.portMode p = 5 ∧ s.allG4 p = false then 200 * s.portWidth p
      else speedOf (s.portMode p) (s.portWidth p) (s.flag (O.SUBRATE_10G p))) ∧
    u.get (O.FEC_ACTIVE p) = fecActive (s.portMode p) (s.portWidth p) (s.flag (O.SUBRATE_10G p))
      (s.get (O.FEC_MODE p)) (s.allG4 p)
  lead : u.get (O.EGRESS_LEAD_NS p) = lead
  changes : u.get (O.LINK_CHANGES p) = min (s.get (O.LINK_CHANGES p) + 1) (2 ^ 32 - 1)
  port : u.port p = { s.port p with up := true, holding := false, fault := [] }
  others : ∀ q, q ≠ p → u.port q = s.port q
  doorbells : u.irq.doorbells = s.irq.doorbells ++ if (s.port p).holding then [] else [0x120 + p / 16]
  out : ∃ ms, u.out = (s.out ++ if s.faultSent p then .remoteFault p false :: ms else []) ∧
    ms.length = (s.markerLanes p).length ∧ ((∀ l ∈ s.markerLanes p, s.portOfLane l = some p) →
      ∀ o ∈ ms, ∃ l ∈ s.markerLanes p, ∃ b, o = .markers l b ∧ byteAt b 12 % 4 = 0)
  objs : ∀ r e, r ∉ [O.SPEED_ACTIVE p, O.FEC_ACTIVE p, O.EGRESS_LEAD_NS p, O.LINK_CHANGES p] → u.get r e = s.get r e

/-- An event that is held back, or rings its doorbell. -/
theorem State.raise_unless (s : State) (c : Prop) [Decidable c] (n : Nat) : (if c then s else s.raise n) =
    { s with irq := { s.irq with doorbells := s.irq.doorbells ++ if c then [] else [n] } } := by
  split
  · rw [List.append_nil]
  · rfl

theorem State.risen_risen (s : State) (p lead : Nat) : Risen s p lead (s.risen p lead) := by
  have hup : (s.marksUp p).port p = { s.port p with up := true, holding := false } := State.port_putPort _ _ _
  obtain ⟨hport, hothers, hirq, hobjs, ms, hout, hlen, hms⟩ := (s.marksUp p).setFault_set p []
  unfold State.risen
  rw [hup] at hport
  rw [List.contains_nil, Bool.and_false, State.faultSent, hup] at hout
  replace hms := hms (by rw [List.contains_nil, Bool.and_false])
  generalize (s.marksUp p).setFault p [] = v at *
  replace hobjs : ∀ r e, v.get r e = s.get r e := hobjs
  have hshown := State.portShow_shown (s := v) (p := p)
  obtain ⟨⟨n, o, hshow⟩, hkept⟩ := v.portShow_writes p
  have hwport : (v.portShow p).port = v.port := by rw [hshow]; rfl
  have hwirq : (v.portShow p).irq = s.irq := by rw [hshow]; exact hirq
  have hwout : (v.portShow p).out = v.out := by rw [hshow]
  clear hshow
  generalize v.portShow p = w at *
  rw [State.raise_unless]
  refine ⟨fun hr => ?_, ?_, ?_, ?_, fun q hq => ?_, ?_, ⟨ms, ?_, hlen, hms⟩, fun r e hr => ?_⟩
  · simp only [State.portLanes, State.portWidth, State.mapByte, State.portMode, State.allG4, State.flag, hobjs]
      at hshown hr ⊢
    obtain ⟨hspeed, hfec⟩ := hshown hr
    refine ⟨Eq.trans ?_ hspeed, Eq.trans ?_ hfec⟩
    · exact (State.get_set_other _ _ _ _ (.inl (by simp))).trans (State.get_set_other _ _ _ _ (.inl (by simp)))
    · exact (State.get_set_other _ _ _ _ (.inl (by simp))).trans (State.get_set_other _ _ _ _ (.inl (by simp)))
  · exact (State.get_set_other _ _ _ _ (.inl (by simp))).trans (State.get_set_same _ _ _ _)
  · refine (State.get_set_same _ _ _ _).trans ?_
    rw [State.get_set_other _ _ _ _ (.inl (by simp)), hkept _ _ (by simp), hobjs]
  · exact (congrFun hwport p).trans hport
  · exact (congrFun hwport q).trans ((hothers q hq).trans (State.port_putPort_other _ hq.symm _))
  · exact congrArg (fun x : Irq => x.doorbells ++ _) hwirq
  · refine hwout.trans (hout.trans ?_)
    show s.out ++ (if s.faultSent p = false then [] else _) = _
    cases s.faultSent p <;> rfl
  · simp only [List.mem_cons, List.not_mem_nil, or_false, not_or] at hr
    obtain ⟨h1, h2, h3, h4⟩ := hr
    refine (State.get_set_other _ _ _ _ (.inl h4)).trans ((State.get_set_other _ _ _ _ (.inl h3)).trans ?_)
    rw [hkept _ _ (by simp [h1, h2]), hobjs]

/-- What a port that may come up knows of itself (R104). -/
theorem State.mayComeUp_iff {s : State} {p : Nat} : s.mayComeUp p = true ↔ s.isPort p = true ∧ (s.port p).up = false ∧
    s.flag (O.ADMIN_UP p) = true ∧ ∀ l ∈ s.portLanes p, s.stage l = Stage.active := by
  simp [State.mayComeUp, and_assoc]

theorem exec_portUp_ran {s : State} {p : Port} {lead : BitVec 32} (h : Runs s) (hm : s.mayComeUp p = true) :
    exec (.portUp p lead) s = .next (ran s (((fresh s).risen p lead.toNat).preemptStart p)) := by
  rw [exec_portUp, execPortUp, live_ran h]
  have hm' : (fresh s).mayComeUp p = true := hm
  rw [if_pos hm', State.portUp_eq]

theorem portUp_does {s : State} {p : Port} {lead : BitVec 32} (h : Runs s) (hm : s.mayComeUp p = true) :
    Does (.portUp p lead) s fun u =>
        ((∀ l ∈ s.portLanes p, s.get (O.RATE_ACTIVE l) ≠ 0) → u.get (O.SPEED_ACTIVE p) =
          (if s.portMode p = 5 ∧ s.allG4 p = false then 200 * s.portWidth p
           else speedOf (s.portMode p) (s.portWidth p) (s.flag (O.SUBRATE_10G p))) ∧
        u.get (O.FEC_ACTIVE p) = fecActive (s.portMode p) (s.portWidth p) (s.flag (O.SUBRATE_10G p))
          (s.get (O.FEC_MODE p)) (s.allG4 p)) ∧
        u.get (O.EGRESS_LEAD_NS p) = lead.toNat ∧
        u.get (O.LINK_CHANGES p) = min (s.get (O.LINK_CHANGES p) + 1) (2 ^ 32 - 1) ∧
        (u.port p).up = true ∧ (u.port p).holding = false ∧ (u.port p).fault = [] ∧
        u.irq.doorbells = s.irq.doorbells ++ (if (s.port p).holding then [] else [0x120 + p.val / 16]) ∧
        u.get (O.VERIFY_STATUS p) = (if s.verifyRest p = 1 then 2 else 0) ∧
        u.get (O.PREEMPT_ACTIVE p) = b01 (s.flag (O.PREEMPT_ENABLE p) && s.flag (O.VERIFY_DISABLE p)) ∧
        (∃ ms, u.out = (if (s.port p).fault.contains 1 then .remoteFault p false :: ms else []) ++
            (if s.verifyRest p = 1 then [.mpacket p false] else []) ∧
          ms.length = ((s.portLanes p).filter fun l => s.get (O.RATE_ACTIVE l) == 5).length ∧
          ((∀ l ∈ s.portLanes p, s.portOfLane l = some p.val) →
            ∀ o ∈ ms, ∃ l ∈ s.portLanes p, ∃ b, o = .markers l b ∧ byteAt b 12 % 4 = 0)) ∧
        ∀ q, q ≠ p.val → u.port q = s.port q := by
  obtain ⟨-, -, hadmin, hactive⟩ := State.mayComeUp_iff.1 hm
  refine ⟨_, exec_portUp_ran h hm, ?_⟩
  obtain ⟨hshown, hlead, hchanges, hport, hothers, hdoor, ⟨ms, hout, hlen, hms⟩, hobjs⟩ :=
    (fresh s).risen_risen p lead.toNat
  obtain ⟨hbout, hstatus, hon, hbport, hbothers, hirq, hbobjs⟩ :=
    ((fresh s).risen p lead.toNat).preemptStart_begun p
  generalize ((fresh s).risen p lead.toNat).preemptStart p = u at *
  generalize (fresh s).risen p lead.toNat = v at *
  replace hobjs : ∀ r e, r ∉ [O.SPEED_ACTIVE p, O.FEC_ACTIVE p, O.EGRESS_LEAD_NS p, O.LINK_CHANGES p] →
    v.get r e = s.get r e := hobjs
  have hrest : v.verifyRest p = s.verifyRest p := by
    rw [State.verifyRest, State.verifyRest, State.flag, State.flag, hobjs _ _ (by simp), hobjs _ _ (by simp)]
    rfl
  have hlanes : s.markerLanes p = (s.portLanes p).filter fun l => s.get (O.RATE_ACTIVE l) == 5 :=
    List.filter_congr fun l hl => by rw [hactive l hl]; exact Bool.and_true _
  have hsent : (fresh s).faultSent p = (s.port p).fault.contains 1 := by
    rw [State.faultSent, fresh_flag, hadmin]
    rfl
  refine ⟨fun hr => ?_, ?_, ?_, (congrArg PortX.up hbport).trans (congrArg PortX.up hport),
    (congrArg PortX.holding hbport).trans (congrArg PortX.holding hport),
    (congrArg PortX.fault hbport).trans (congrArg PortX.fault hport), ?_, ?_, ?_, ⟨ms, ?_, ?_, fun hl => ?_⟩,
    fun q hq => (hbothers q hq).trans (hothers q hq)⟩
  · obtain ⟨hspeed, hfec⟩ := hshown hr
    exact ⟨(hbobjs _ _ (by simp)).trans hspeed, (hbobjs _ _ (by simp)).trans hfec⟩
  · exact (hbobjs _ _ (by simp)).trans hlead
  · exact (hbobjs _ _ (by simp)).trans hchanges
  · exact (congrArg Irq.doorbells hirq).trans hdoor
  · exact hstatus.trans (by rw [hrest])
  · refine hon.trans ?_
    rw [State.flag, State.flag, hobjs _ _ (by simp), hobjs _ _ (by simp)]
    rfl
  · refine hbout.trans ?_
    rw [hout, hsent, hrest]
    rfl
  · rw [← hlanes]
    exact hlen
  · intro o ho
    have hmem : ∀ l ∈ s.markerLanes p, l ∈ s.portLanes p := fun l h' => (List.mem_filter.1 h').1
    obtain ⟨l, hlm, b, hb⟩ := hms (fun l h' => hl l (hmem l h')) o ho
    exact ⟨l, hmem l hlm, b, hb⟩

/-! ### Leaving UP (R105, R106, R120, R122) -/

theorem mem_insNat {n k : Nat} {l : List Nat} : k ∈ insNat n l ↔ k = n ∨ k ∈ l := by
  induction l with
  | nil => simp [insNat]
  | cons j l ih =>
    rw [insNat]
    split_ifs with h1 h2
    · simp [h1]
    · simp
    · rw [List.mem_cons, ih, List.mem_cons]
      tauto

theorem State.portDown_down {s : State} {p : Nat} (c : Nat) (h : (s.port p).up = false) : s.portDown p c = s :=
  if_pos (by rw [h]; rfl)

/-- A port without a pause shows none. -/
theorem State.showPause_none {s : State} {p : Nat} (h : (s.port p).paused = []) :
    s.showPause p = s.set (O.PAUSED_NOW p) 0 := by
  rw [State.showPause, h, List.foldl_nil]

theorem State.verifyRest_congr {s t : State} {p : Nat} (h : t.flag (O.PREEMPT_ENABLE p) = s.flag (O.PREEMPT_ENABLE p))
    (h' : t.flag (O.VERIFY_DISABLE p) = s.flag (O.VERIFY_DISABLE p)) : t.verifyRest p = s.verifyRest p := by
  rw [State.verifyRest, State.verifyRest, h, h']

/-- A port is down, its gate holds no tail of it any more, and the change and its cause are shown. -/
def State.sunk (s : State) (p c : Nat) (x : PortX) : State :=
  let t := s.putPort p x
  ((if (t.gate p).held then t.putGate p { t.gate p with held := false } else t).count32 (O.LINK_CHANGES p)).set
    (O.LAST_DOWN_CAUSE p) c

theorem State.port_sunk (s : State) (p c : Nat) (x : PortX) : (s.sunk p c x).port p = x := by
  refine Eq.trans ?_ (s.port_putPort p x)
  unfold State.sunk
  dsimp only
  split <;> rfl

theorem State.verifyRest_sunk (s : State) (p c : Nat) (x : PortX) : (s.sunk p c x).verifyRest p = s.verifyRest p := by
  have hget : ∀ r, r ≠ O.LINK_CHANGES p → r ≠ O.LAST_DOWN_CAUSE p → (s.sunk p c x).get r = s.get r := fun r h1 h2 => by
    unfold State.sunk
    dsimp only
    rw [State.get_set_other _ _ _ _ (.inl h2), State.get_count32, if_neg (fun h => h1 h.1)]
    split <;> rfl
  rw [State.verifyRest, State.verifyRest, State.flag, State.flag, hget _ (by simp) (by simp), hget _ (by simp) (by simp)]
  rfl

/-- What a port is once it has left UP. -/
def PortX.sunk (x : PortX) (hold : Bool) : PortX :=
  { x with up := false, holding := hold, attempts := 0, paused := [], ignored := [], txExp := none, txPre := none,
           tail := none, tailHeld := false, slots := List.replicate 16 none }

/-- What follows once a port `x` has left UP: its event, its frames under way, its queues, and the postcards due. -/
def State.afterSunk (s : State) (p : Nat) (x : PortX) (hold : Bool) : State :=
  let t := s.set (O.PREEMPT_ACTIVE p) 0
  let t := if hold then t else t.raise (0x100 + p / 16)
  let t := ((t.loseTx p x.tail true).loseTx p x.txPre false).loseTx p x.txExp false
  (if t.flag (O.FLUSH_ON_DOWN p) then t.flushQueues p else t).postcardsDue

/-- Leaving UP: the port's own state, then the frames under way, its queues, and the postcards due. -/
theorem State.portDown_up {s d : State} {p c : Nat} (h : (s.port p).up = true)
    (hd : d = (((leftUp s p c).loseTx p (s.port p).tail true).loseTx p (s.port p).txPre false).loseTx p (s.port p).txExp
      false) : s.portDown p c = (if d.flag (O.FLUSH_ON_DOWN p) then d.flushQueues p else d).postcardsDue := by
  subst hd
  let hold := s.get (O.DOWN_HOLD_MS p) != 0
  let t := s.sunk p c ((s.port p).sunk hold)
  have hshow : (t.showPause p).set (O.VERIFY_STATUS p) (t.verifyRest p) =
      (t.set (O.PAUSED_NOW p) 0).set (O.VERIFY_STATUS p) (s.verifyRest p) := by
    rw [State.showPause_none (by rw [State.port_sunk]; rfl), State.verifyRest_sunk]
  have hdown : s.portDown p c =
      ((t.showPause p).set (O.VERIFY_STATUS p) (t.verifyRest p)).afterSunk p (s.port p) hold :=
    if_neg (by rw [h]; decide)
  rw [hdown, hshow]
  rfl

/-- PORT_LEAVE_UP's faults, once the port is down (R104). -/
def State.leaveFaults (s : State) (p : Nat) (cause : DownCause) : State :=
  let on := s.isPort p && (s.portLanes p).all (s.stage · == Stage.active)
  match cause with
  | .localFault => if on then s.setFault p (insNat 1 (s.port p).fault) else s
  | .remoteFault => if on then s.setFault p (insNat 2 (s.port p).fault) else s
  | _ => s.setFault p []

section
variable {s : State} {p : Port} {cause : DownCause} (h : Runs s)
include h

theorem exec_portLeaveUp_ran {d e : State}
    (hd : d = if (s.port p).up then (((leftUp (fresh s) p (downCode cause)).loseTx p (s.port p).tail true).loseTx p
      (s.port p).txPre false).loseTx p (s.port p).txExp false else fresh s)
    (he : e = if (s.port p).up then (if d.flag (O.FLUSH_ON_DOWN p) then d.flushQueues p else d).postcardsDue else d) :
    exec (.portLeaveUp p cause) s = .next (ran s (e.leaveFaults p cause)) := by
  have hdown : (fresh s).portDown p (downCode cause) = e := by
    subst he
    by_cases hup : (s.port p).up = true
    · rw [if_pos hup] at hd ⊢
      exact State.portDown_up (s := fresh s) hup hd
    · rw [if_neg hup] at hd ⊢
      exact (State.portDown_down (s := fresh s) _ (Bool.eq_false_iff.2 hup)).trans hd.symm
  subst hdown
  cases cause <;> exact exec_eq_ran exec_portLeaveUp h rfl

/-- A port that is not UP only changes its faults. -/
theorem exec_portLeaveUp_down (hup : (s.port p).up = false) :
    exec (.portLeaveUp p cause) s = .next (ran s ((fresh s).leaveFaults p cause)) :=
  exec_portLeaveUp_ran h (d := fresh s) (if_neg (ne_true_of_eq_false hup)).symm
    (if_neg (ne_true_of_eq_false hup)).symm

theorem portLeaveUp_clears (hup : (s.port p).up = false) (hc : cause = .laneLeft ∨ cause = .alignment) :
    Does (.portLeaveUp p cause) s fun u => (u.port p).fault = [] ∧ (∀ r e, u.get r e = s.get r e) ∧
      u.out.head? = if s.faultSent p then some (.remoteFault p false) else none := by
  obtain ⟨hport, -, -, hobjs, ms, hout, -⟩ := (fresh s).setFault_set p []
  have hexec : exec (.portLeaveUp p cause) s = .next (ran s ((fresh s).setFault p [])) := by
    rw [exec_portLeaveUp_down h hup]
    rcases hc with rfl | rfl <;> rfl
  refine ⟨_, hexec, congrArg PortX.fault hport, hobjs, (congrArg List.head? hout).trans ?_⟩
  rw [List.contains_nil, Bool.and_false]
  show (([] : List Output) ++ if s.faultSent p = false then [] else _).head? = _
  cases s.faultSent p <;> rfl

theorem portLeaveUp_localFault (hup : (s.port p).up = false) (hp : s.isPort p = true)
    (hl : ∀ l ∈ s.portLanes p, s.stage l = Stage.active) :
    Does (.portLeaveUp p .localFault) s fun u => (u.port p).fault.contains 1 = true ∧
      (∀ r e, u.get r e = s.get r e) ∧ u.out.head? =
        (if s.flag (O.ADMIN_UP p) = true ∧ s.faultSent p = false then some (.remoteFault p true) else none) := by
  have hins : ∀ l : List Nat, (insNat 1 l).contains 1 = true := fun l => List.contains_iff_mem.2 (mem_insNat.2 (.inl rfl))
  have hon : (s.isPort p && (s.portLanes p).all (s.stage · == Stage.active)) = true := by simpa [hp] using hl
  obtain ⟨hport, -, -, hobjs, ms, hout, -⟩ := (fresh s).setFault_set p (insNat 1 (s.port p).fault)
  have hexec : exec (.portLeaveUp p .localFault) s =
      .next (ran s ((fresh s).setFault p (insNat 1 (s.port p).fault))) := by
    rw [exec_portLeaveUp_down h hup]
    exact congrArg (fun u => Host.Outcome.next (ran s u)) (if_pos hon)
  refine ⟨_, hexec, (congrArg (fun x : PortX => x.fault.contains 1) hport).trans (hins _), hobjs,
    (congrArg List.head? hout).trans ?_⟩
  rw [hins, Bool.and_true]
  have hsent : s.faultSent p = true → s.flag (O.ADMIN_UP p) = true := fun hs => (Bool.and_eq_true_iff.1 hs).1
  show (([] : List Output) ++ if s.faultSent p = s.flag (O.ADMIN_UP p) then [] else
    .remoteFault p (s.flag (O.ADMIN_UP p)) :: ms).head? = _
  generalize s.faultSent p = was at hsent ⊢
  generalize s.flag (O.ADMIN_UP p) = admin at hsent ⊢
  revert hsent
  cases was <;> cases admin <;> simp

theorem exec_downHoldExpire_held (hh : (s.port p).holding = true) : exec (.downHoldExpire p) s =
    .next (ran s (((fresh s).putPort p { s.port p with holding := false }).raise (0x100 + p.val / 16))) :=
  exec_eq_ran exec_downHoldExpire h (if_pos hh)

theorem exec_downHoldExpire_idle (hh : (s.port p).holding = false) : exec (.downHoldExpire p) s = .next (fresh s) :=
  exec_eq_fresh exec_downHoldExpire h (if_neg (ne_true_of_eq_false hh))

/-- A port whose only frame under way is an uncut one of the express path (R120). -/
theorem exec_portLeaveUp_express {t : Tx} (hup : (s.port p).up = true) (htail : (s.port p).tail = none)
    (hpre : (s.port p).txPre = none) (hexp : (s.port p).txExp = some t) (hfrags : t.frags = 0)
    (hflush : (((leftUp (fresh s) p 1).count64 (O.MAC_COUNTS p 11)).releaseAt t.fid t.tok 0x92 0).flag
      (O.FLUSH_ON_DOWN p) = false) :
    exec (.portLeaveUp p .laneLeft) s = .next (ran s ((((leftUp (fresh s) p 1).count64
        (O.MAC_COUNTS p 11)).releaseAt t.fid t.tok 0x92 0).postcardsDue.setFault p [])) := by
  have hlose : ∀ u : State, u.loseTx p (some t) false =
      (u.count64 (O.MAC_COUNTS p 11)).releaseAt t.fid t.tok 0x92 0 := fun u => by
    rw [State.loseTx, if_neg (by simp [hfrags])]
  refine exec_portLeaveUp_ran h (cause := .laneLeft) rfl ?_
  have hnone : ∀ (u : State) (tail : Bool), u.loseTx p none tail = u := fun _ _ => rfl
  have hcode : downCode .laneLeft = 1 := rfl
  rw [if_pos hup, if_pos hup, htail, hpre, hexp, hnone, hnone, hlose, hcode, if_neg (ne_true_of_eq_false hflush)]

end

end Sys2Proof.Machine

open Sys2Proof Sys2Proof.Machine

/-- Settles O29: what entering UP, leaving UP and a change of faults leave, each said once. -/
theorem portsComeUpAndLeaveUp : Obligations.PortsComeUpAndLeaveUp := by
  unfold Obligations.PortsComeUpAndLeaveUp
  intro s p lead cause h
  refine ⟨portUp_does h, fun hm => exec_eq_fresh exec_portUp h (if_neg (ne_true_of_eq_false hm)),
    fun d e hd he => ⟨?_, ?_⟩, fun t hup htail hpre hexp hfrags hc hflush => ?_,
    fun hup hc => portLeaveUp_clears h hup hc, fun hup hp hl => portLeaveUp_localFault h hup hp hl,
    exec_downHoldExpire_held h, exec_downHoldExpire_idle h⟩
  · rintro (rfl | rfl) <;> exact exec_portLeaveUp_ran h hd he
  · rintro (rfl | rfl) <;> exact exec_portLeaveUp_ran h hd he
  · subst hc
    exact exec_portLeaveUp_express h hup htail hpre hexp hfrags hflush

end

section
/-!
What the match stages find in tables without damage (R164, R173, R175-R177): a lookup answers by the entries alone, and the
walk of a longest-match table finds the best match of R176.
-/
namespace Sys2Proof.Machine

/-! ### The first of the largest (R176, R183) -/

/-- The larger of two by `f`, the first of them on a tie. -/
def maxStep {α : Type} (f : α → Nat) (b : Option α) (c : α) : Option α :=
  match b with
  | none => some c
  | some x => if f x < f c then some c else some x

/-- The element of a list with the largest `f`, the first of them on a tie. -/
def firstMax {α : Type} (f : α → Nat) (l : List α) : Option α := l.foldl (maxStep f) none

section
variable {α : Type} {f : α → Nat}

theorem foldl_maxStep_keeps {x : α} {l : List α} (h : ∀ e ∈ l, f e ≤ f x) : l.foldl (maxStep f) (some x) = some x := by
  induction l with
  | nil => rfl
  | cons e l ih =>
    have he : maxStep f (some x) e = some x := if_neg (Nat.not_lt.2 (h e (List.mem_cons_self ..)))
    rw [List.foldl_cons, he]
    exact ih fun y hy => h y (List.mem_cons_of_mem _ hy)

theorem foldl_maxStep_mem (b : Option α) (l : List α) :
    ∀ x, l.foldl (maxStep f) b = some x → b = some x ∨ x ∈ l := by
  induction l generalizing b with
  | nil => exact fun x h => .inl h
  | cons e l ih =>
    intro x h
    rcases ih _ x h with hb | hx
    · cases b with
      | none => exact .inr (by cases hb; exact List.mem_cons_self ..)
      | some y =>
        simp only [maxStep] at hb
        split at hb
        · cases hb; exact .inr (List.mem_cons_self ..)
        · exact .inl hb
    · exact .inr (List.mem_cons_of_mem _ hx)

theorem firstMax_mem {l : List α} {x : α} (h : firstMax f l = some x) : x ∈ l := by
  rcases foldl_maxStep_mem none l x h with h' | h'
  · cases h'
  · exact h'

/-- One that none before it equals, and none after it exceeds, is chosen. -/
theorem firstMax_split {l m : List α} {c : α} (hl : ∀ e ∈ l, f e < f c) (hm : ∀ e ∈ m, f e ≤ f c) :
    firstMax f (l ++ c :: m) = some c := by
  rw [firstMax, List.foldl_append, List.foldl_cons]
  have hstep : maxStep f (l.foldl (maxStep f) none) c = some c := by
    rcases hb : l.foldl (maxStep f) none with _ | x
    · rfl
    · exact if_pos (hl x (firstMax_mem hb))
  rw [hstep, foldl_maxStep_keeps hm]

end

/-! ### Prefixes (R176) -/

theorem bestRec_eq (rs : List LRec) (w a : Nat) : bestRec rs w a = firstMax LRec.len (rs.filter (·.covers w a)) := by
  refine congrArg (fun g => List.foldl g none _) (funext fun b => funext fun x => ?_)
  cases b <;> rfl

theorem bestRec_mem {rs : List LRec} {w a : Nat} {x : LRec} (h : bestRec rs w a = some x) : x ∈ rs :=
  (List.mem_filter.1 (firstMax_mem ((bestRec_eq rs w a) ▸ h))).1

/-- The one longest route that covers an address is the best match. -/
theorem bestRec_longest {rs : List LRec} {w a : Nat} {e : LRec} (he : e ∈ rs) (hc : e.covers w a = true)
    (h : ∀ z ∈ rs, z.covers w a = true → z = e ∨ z.len < e.len) : bestRec rs w a = some e := by
  obtain ⟨l, m, hsplit, hl⟩ := List.eq_append_cons_of_mem (List.mem_filter (p := (·.covers w a)).2 ⟨he, hc⟩)
  have hmem : ∀ z ∈ l ++ e :: m, z = e ∨ z.len < e.len := fun z hz => by
    rw [← hsplit] at hz
    obtain ⟨hz, hcov⟩ := List.mem_filter.1 hz
    exact h z hz hcov
  rw [bestRec_eq, hsplit]
  refine firstMax_split (fun z hz => ?_) fun z hz => ?_
  · exact (hmem z (by simp [hz])).resolve_left fun hze => hl (hze ▸ hz)
  · rcases hmem z (by simp [hz]) with rfl | hlt
    · exact le_rfl
    · exact hlt.le

theorem bestRec_none {rs : List LRec} {w a : Nat} (h : ∀ e ∈ rs, e.covers w a = false) : bestRec rs w a = none := by
  rw [bestRec_eq, List.filter_eq_nil_iff.2 fun e he => ne_true_of_eq_false (h e he)]
  rfl

theorem mem_ranges {rs : List LRec} {w c v : Nat} :
    v ∈ ranges rs w c ↔ ∃ x ∈ rs, c < x.len ∧ v = x.addr / 2 ^ (w - c) := by
  have hfold : ∀ (l : List LRec) (m : List Nat), v ∈ l.foldl (fun l x => insNat (x.addr / 2 ^ (w - c)) l) m ↔
      v ∈ m ∨ ∃ x ∈ l, v = x.addr / 2 ^ (w - c) := fun l => by
    induction l with
    | nil => simp
    | cons x l ih =>
      intro m
      rw [List.foldl_cons, ih, mem_insNat]
      simp only [List.mem_cons, exists_eq_or_imp]
      tauto
  unfold ranges
  rw [hfold]
  simp [and_assoc]

/-- A route of at most `c` bits covers an address where it covers the range of `c` bits the address lies in. -/
theorem covers_range {x : LRec} {w c a : Nat} (hx : x.len ≤ c) (hc : c ≤ w) :
    x.covers w (a / 2 ^ (w - c) * 2 ^ (w - c)) = x.covers w a := by
  have hpow : 2 ^ (w - x.len) = 2 ^ (w - c) * 2 ^ (c - x.len) := by rw [← pow_add]; congr 1; omega
  simp only [LRec.covers, hpow, ← Nat.div_div_eq_div_mul, Nat.mul_div_cancel _ (Nat.two_pow_pos (w - c))]

/-- A route longer than `c` bits that covers an address lies in the address's range of `c` bits. -/
theorem range_of_covers {x : LRec} {w c a : Nat} (hx : c ≤ x.len) (hw : x.len ≤ w) (h : x.covers w a = true) :
    x.addr / 2 ^ (w - c) = a / 2 ^ (w - c) := by
  have hpow : 2 ^ (w - c) = 2 ^ (w - x.len) * 2 ^ (x.len - c) := by rw [← pow_add]; congr 1; omega
  rw [LRec.covers, beq_iff_eq] at h
  rw [hpow, ← Nat.div_div_eq_div_mul, ← Nat.div_div_eq_div_mul, h]

/-- Where no longer route lies under a range, its best match is that of every address in it. -/
theorem bestRec_range {rs : List LRec} {w c a : Nat} (hc : c ≤ w) (hw : ∀ x ∈ rs, x.len ≤ w)
    (h : a / 2 ^ (w - c) ∉ ranges rs w c) :
    bestRec (rs.filter fun x => decide (x.len ≤ c)) w (a / 2 ^ (w - c) * 2 ^ (w - c)) = bestRec rs w a := by
  rw [bestRec_eq, bestRec_eq, List.filter_filter]
  refine congrArg _ (List.filter_congr fun x hx => ?_)
  by_cases hlen : x.len ≤ c
  · rw [decide_eq_true hlen, Bool.and_true, covers_range hlen hc]
  · rw [decide_eq_false hlen, Bool.and_false]
    refine (Bool.eq_false_iff.2 fun hcov => h ?_).symm
    exact mem_ranges.2 ⟨x, hx, by omega, (range_of_covers (by omega) (hw x hx) hcov).symm⟩

/-! ### Levels (R176) -/

section
variable {d : Decl} (hd : d.isLpm = true)
include hd

theorem Decl.kind_of_isLpm : d.kind = 3 ∨ d.kind = 4 := by simpa [Decl.isLpm] using hd

theorem Decl.hi_le_width {k : Nat} (hk : k ≤ d.cum.length) : d.hi k ≤ d.width := by
  rcases d.kind_of_isLpm hd with h | h <;> simp only [Decl.cum, Decl.hi, Decl.width, h] at hk ⊢ <;>
    (simp at hk; interval_cases k <;> simp)

theorem Decl.lo_le_hi {k : Nat} (hk : k ≤ d.cum.length) : d.lo k ≤ d.hi k := by
  rcases d.kind_of_isLpm hd with h | h <;> simp only [Decl.cum, Decl.hi, Decl.lo, h] at hk ⊢ <;>
    (simp at hk; interval_cases k <;> simp)

end

theorem Decl.lo_succ (d : Decl) {k : Nat} (hk : 1 ≤ k) : d.lo (k + 1) = d.hi k := by
  rw [Decl.lo, Decl.hi, if_neg (by omega)]
  congr 1

theorem State.levelEntry_lt (s : State) (d : Decl) (k a i : Nat) : s.levelEntry d k a i < 2 ^ 32 :=
  Nat.mod_lt _ (by decide)

/-- The array a level entry leads to. -/
theorem State.arrayOf_succ {s : State} {d : Decl} {k v a e : Nat} (hk : 1 ≤ k)
    (ha : s.arrayOf d k (v / d.arrayLen k) = some a) (he : e = s.levelEntry d k a (v % d.arrayLen k)) :
    s.arrayOf d (k + 1) v = if e / 2 ^ 30 = 2 then some (e % 2 ^ 30) else none := by
  subst he
  obtain ⟨k, rfl⟩ := Nat.exists_eq_add_of_le' hk
  rw [State.arrayOf, ha]

/-- A level entry that points to the array it leads to is a pointer. -/
theorem pointer_of_eq {e : Nat} (h : e = 2 ^ 31 + (if e / 2 ^ 30 = 2 then some (e % 2 ^ 30) else none).getD 0) :
    e / 2 ^ 30 = 2 := by
  by_contra hne
  rw [if_neg hne, Option.getD_none] at h
  exact hne (by rw [h]; rfl)

/-! ### The walk (R177) -/

/-- What the best match answers. -/
def routeHit : Option LRec → Hit
  | some x => .hit x.action
  | none => .miss

/-- One level of the walk, on a store without damage. -/
theorem State.walkLevels_clean {s : State} (h : s.faults.damage = []) (n : Nat) (d : Decl) (key k a fuel : Nat) {e : Nat}
    (he : e = s.levelEntry d k a (key / 2 ^ (d.width - d.hi k) % d.arrayLen k)) :
    s.walkLevels n d key k a (fuel + 1) = if e / 2 ^ 30 = 1 then (.hit (e % 2 ^ 24), s)
      else if e / 2 ^ 30 = 2 then s.walkLevels n d key (k + 1) (e % 2 ^ 30) fuel else (.miss, s) := by
  subst he
  rw [State.walkLevels]
  simp only [State.readUnit_clean h, Bool.not_true, Bool.false_eq_true, if_false]

/-- The walk from the array of the address's range at a level finds the address's best match. -/
theorem State.walkLevels_holds {s : State} {n : Nat} {d : Decl} {key : Nat} (ht : TrieHolds s n d) (hd : d.isLpm = true)
    (h : s.faults.damage = []) (hkey : key < 2 ^ d.width) (fuel : Nat) : ∀ k a, 1 ≤ k → k ≤ d.cum.length →
      k + fuel = d.cum.length + 1 → s.arrayOf d k (key / 2 ^ (d.width - d.lo k)) = some a →
      (s.walkLevels n d key k a fuel).1 = routeHit (bestRec (s.recsOf n) d.width key) := by
  obtain ⟨hrecs, hentries⟩ := ht
  induction fuel with
  | zero => intro k a hk hkl hfuel; omega
  | succ fuel ih =>
    intro k a hk hkl hfuel ha
    have hw := Decl.hi_le_width hd hkl
    have hl := Decl.lo_le_hi hd hkl
    have hsplit : d.width - d.lo k = (d.width - d.hi k) + (d.hi k - d.lo k) := by omega
    have hdiv : key / 2 ^ (d.width - d.hi k) / d.arrayLen k = key / 2 ^ (d.width - d.lo k) := by
      rw [Decl.arrayLen, hsplit, pow_add, Nat.div_div_eq_div_mul]
    have hr : key / 2 ^ (d.width - d.lo k) < 2 ^ d.lo k := by
      refine Nat.div_lt_of_lt_mul ?_
      rwa [← pow_add, show d.width - d.lo k + d.lo k = d.width by omega]
    have hi : key / 2 ^ (d.width - d.hi k) % d.arrayLen k < d.arrayLen k := Nat.mod_lt _ (Nat.two_pow_pos _)
    have hv := hentries k _ a _ hk hkl hr ha hi
    rw [← hdiv, Nat.div_add_mod', Decl.entryFor] at hv
    rw [← hdiv] at ha
    have hnext := State.arrayOf_succ hk ha rfl
    rw [State.walkLevels_clean h n d key k a fuel rfl]
    generalize s.levelEntry d k a (key / 2 ^ (d.width - d.hi k) % d.arrayLen k) = e at hv hnext ⊢
    split at hv
    · rename_i hlonger
      rw [hnext] at hv
      have hptr := pointer_of_eq hv
      rw [if_neg (by rw [hptr]; decide), if_pos hptr]
      refine ih (k + 1) _ (by omega) (by omega) (by omega) ?_
      rw [d.lo_succ hk, hnext, if_pos hptr]
    · rename_i hstop
      have hnone : key / 2 ^ (d.width - d.hi k) ∉ ranges (s.recsOf n) d.width (d.hi k) := fun hmem => by
        by_cases hlast : k < d.cum.length
        · exact hstop ⟨hlast, List.contains_iff_mem.2 hmem⟩
        · obtain ⟨x, hx, hlen, -⟩ := mem_ranges.1 hmem
          have := (hrecs x hx).1
          rw [show k = d.cum.length by omega] at hlen
          omega
      have hlen : ∀ x ∈ s.recsOf n, x.len ≤ d.width := fun x hx =>
        (hrecs x hx).1.trans (Decl.hi_le_width hd le_rfl)
      rw [bestRec_range hw hlen hnone] at hv
      rcases hbest : bestRec (s.recsOf n) d.width key with _ | x
      · rw [hbest] at hv
        subst hv
        rfl
      · rw [hbest] at hv
        have hact := (hrecs x (bestRec_mem hbest)).2.2
        replace hv : e = 2 ^ 30 + x.action := hv
        have hone : e / 2 ^ 30 = 1 := by omega
        have haction : e % 2 ^ 24 = x.action := by omega
        rw [if_pos hone, haction, routeHit]

/-- A longest-match lookup answers with the best match. -/
theorem State.lpmLookup_holds {s : State} {n : Nat} {d : Decl} {key : Nat} (ht : TrieHolds s n d) (hd : d.isLpm = true)
    (h : s.faults.damage = []) (hkey : key < 2 ^ d.width) :
    (s.lpmLookup n d key).1 = routeHit (bestRec (s.recsOf n) d.width key) := by
  refine State.walkLevels_holds ht hd h hkey d.cum.length 1 0 le_rfl ?_ (by omega) rfl
  rcases d.kind_of_isLpm hd with hk | hk <;> simp [Decl.cum, hk]

/-! ### Exact match (R164) -/

/-- An entry holds a key. -/
def entryFits (key v : Nat) : Bool := entryValid v && entryKey v == key

theorem entryFits_iff {key v : Nat} : entryFits key v = true ↔ entryValid v = true ∧ entryKey v = key := by
  rw [entryFits, Bool.and_eq_true, beq_iff_eq]

/-- The first entry of a key. -/
def firstFit (key : Nat) (vs : List Nat) : Option Nat := vs.find? (entryFits key)

theorem firstFit_split {key v : Nat} {l r : List Nat} (hv : entryValid v = true ∧ entryKey v = key)
    (hl : ∀ w ∈ l, ¬(entryValid w = true ∧ entryKey w = key)) : firstFit key (l ++ v :: r) = some v :=
  List.find?_eq_some_iff_append.2 ⟨entryFits_iff.2 hv, l, r, rfl, fun w hw => by
    simpa only [Bool.not_eq_true', Bool.eq_false_iff, ne_eq, entryFits_iff] using hl w hw⟩

theorem firstFit_none {key : Nat} {vs : List Nat} (h : ∀ w ∈ vs, ¬(entryValid w = true ∧ entryKey w = key)) :
    firstFit key vs = none :=
  List.find?_eq_none.2 fun w hw => by simpa only [entryFits_iff] using h w hw

/-- On a store without damage a lookup takes the copy in the stash, else the first entry of the key in its buckets. -/
theorem State.exactLookup_clean {s : State} (h : s.faults.damage = []) (n : Nat) (d : Decl) (key : Nat) :
    (s.exactLookup n d key).1 = ((firstFit key (s.stashOf n d)).or
      (firstFit key ((d.candidates key).map s.unit))).elim .miss .hit := by
  have hfold : ∀ (us : List Nat) (o : Option Nat), us.foldl (fun (a : Option Nat × Bool × State) u =>
      let w := a.2.2.readUnit n u
      let v := s.unit u
      (if a.1 = none ∧ w.1 = true ∧ (entryValid v && entryKey v == key) = true then some v else a.1, a.2.1 || !w.1, w.2))
        (o, false, s) = (o.or (firstFit key (us.map s.unit)), false, s) := fun us => by
    induction us with
    | nil => intro o; rw [List.map_nil, firstFit, List.find?_nil, Option.or_none]; rfl
    | cons u us ih =>
      intro o
      rw [List.foldl_cons]
      simp only [State.readUnit_clean h, Bool.not_true, Bool.or_false, true_and]
      rw [ih, List.map_cons, firstFit, firstFit, List.find?_cons]
      cases o with
      | some v => simp
      | none =>
        by_cases hf : entryFits key (s.unit u) = true
        · rw [hf, if_pos ⟨rfl, hf⟩]; rfl
        · rw [Bool.eq_false_iff.2 hf, if_neg fun hc => hf hc.2]
  unfold State.exactLookup
  simp only [hfold]
  show (match firstFit key (s.stashOf n d), (none : Option Nat).or _ with
    | some v, _ => Hit.hit v
    | none, some v => Hit.hit v
    | none, none => if false = true then Hit.bad else Hit.miss) = _
  rw [Option.none_or]
  cases firstFit key (s.stashOf n d) <;> cases firstFit key ((d.candidates key).map s.unit) <;> rfl

/-! ### A step's lookup -/

section
variable {s : State} {k : Pkt} {x : PlanStep} {d : Decl} (hd : d = s.declP k x.table)
include hd

/-- An exact-match step answers what its lookup finds. -/
theorem State.stepLookup_exact (hk : d.kind = 1) :
    (s.stepLookup k x).1 = (s.exactLookup x.table d (d.key (x.key k.ctx))).1 := by
  subst hd
  unfold State.stepLookup
  rw [if_pos hk]
  dsimp only
  split
  · split <;> rfl
  · rfl

/-- The action set of an immediate reference is that of its form. -/
theorem State.stepLookup_immediate (hk : d.kind = 1) {v : Nat} (hv : (s.stepLookup k x).1 = .hit v) (hr : x.role ≠ 2)
    (hform : bits (entryAction v) 23 22 ≠ 0) : (s.stepLookup k x).2.1 = some (refActions (entryAction v)) := by
  rw [State.stepLookup_exact hd hk] at hv
  subst hd
  unfold State.stepLookup
  rw [if_pos hk]
  simp only [hv, hr, if_false, State.resolve, hform, ne_eq, not_false_eq_true, if_true]

/-- A longest-match step answers what its lookup finds. -/
theorem State.stepLookup_lpm (hk : d.isLpm = true) :
    (s.stepLookup k x).1 = (s.lpmLookup x.table d (beNat (x.key k.ctx))).1 := by
  have hne : d.kind ≠ 1 := by rcases d.kind_of_isLpm hk with h | h <;> omega
  subst hd
  unfold State.stepLookup
  rw [if_neg hne, if_pos hk]
  dsimp only
  split <;> rfl

/-- A direct-index step answers what its row holds. -/
theorem State.stepLookup_row (hk : d.kind = 2 ∨ d.kind = 5) :
    (s.stepLookup k x).1 = (s.rowLookup x.table d (beNat (x.key k.ctx))).1 ∧
    ∀ v, (s.rowLookup x.table d (beNat (x.key k.ctx))).1 = .hit v → (s.stepLookup k x).2.1 = some (rowActions v) := by
  have hne : d.kind ≠ 1 := by omega
  have hlpm : ¬ d.isLpm = true := fun hl => by rcases d.kind_of_isLpm hl with h | h <;> omega
  subst hd
  unfold State.stepLookup
  rw [if_neg hne, if_neg hlpm]
  refine ⟨?_, fun v hv => ?_⟩
  · dsimp only
    split <;> rfl
  · simp only [hv]

end

theorem State.rowLookup_clean {s : State} (h : s.faults.damage = []) (n : Nat) {d : Decl} {row : Nat}
    (hr : row < d.size) : (s.rowLookup n d row).1 = .hit (s.unit (d.base * 4 + row)) := by
  rw [State.rowLookup, if_neg (Nat.not_le.2 hr)]
  simp only [State.readUnit_clean h, if_true]

theorem State.rowLookup_beyond (s : State) (n : Nat) {d : Decl} {row : Nat} (hr : d.size ≤ row) :
    (s.rowLookup n d row).1 = .miss := by rw [State.rowLookup, if_pos hr]

/-! ### What a step answers on a store without damage -/

section
variable {s : State} {k : Pkt} {x : PlanStep} {d : Decl} {key : Nat} (hd : d = s.declP k x.table)
  (h : s.faults.damage = [])
include hd h

section
variable (hk : d.kind = 1) (hkey : key = d.key (x.key k.ctx))
include hk hkey

theorem State.stepLookup_found {v : Nat} (hv : (firstFit key (s.stashOf x.table d)).or
    (firstFit key ((d.candidates key).map s.unit)) = some v) : (s.stepLookup k x).1 = .hit v := by
  rw [State.stepLookup_exact hd hk, State.exactLookup_clean h, ← hkey, hv]
  rfl

theorem State.stepLookup_stash {l r : List Nat} {v : Nat} (hs : s.stashOf x.table d = l ++ v :: r)
    (hv : entryValid v = true ∧ entryKey v = key) (hl : ∀ w ∈ l, ¬(entryValid w = true ∧ entryKey w = key)) :
    (s.stepLookup k x).1 = .hit v :=
  State.stepLookup_found hd h hk hkey (by rw [hs, firstFit_split hv hl, Option.some_or])

variable (hs : ∀ v ∈ s.stashOf x.table d, ¬(entryValid v = true ∧ entryKey v = key))
include hs

theorem State.stepLookup_bucket {l r : List Nat} {w : Nat} (hc : d.candidates key = l ++ w :: r)
    (hw : entryValid (s.unit w) = true ∧ entryKey (s.unit w) = key)
    (hl : ∀ z ∈ l, ¬(entryValid (s.unit z) = true ∧ entryKey (s.unit z) = key)) :
    (s.stepLookup k x).1 = .hit (s.unit w) := by
  refine State.stepLookup_found hd h hk hkey ?_
  rw [firstFit_none hs, Option.none_or, hc, List.map_append, List.map_cons]
  exact firstFit_split hw (List.forall_mem_map.2 hl)

theorem State.stepLookup_absent
    (hl : ∀ w ∈ d.candidates key, ¬(entryValid (s.unit w) = true ∧ entryKey (s.unit w) = key)) :
    (s.stepLookup k x).1 = .miss := by
  rw [State.stepLookup_exact hd hk, State.exactLookup_clean h, ← hkey, firstFit_none hs,
    firstFit_none (List.forall_mem_map.2 hl)]
  rfl

end

section
variable (hk : d.kind = 2 ∨ d.kind = 5) (hkey : key = beNat (x.key k.ctx))
include hk hkey

theorem State.stepLookup_inRows (hr : key < d.size) : (s.stepLookup k x).1 = .hit (s.unit (d.base * 4 + key)) ∧
    (s.stepLookup k x).2.1 = some (rowActions (s.unit (d.base * 4 + key))) := by
  subst hkey
  obtain ⟨hstep, hset⟩ := State.stepLookup_row hd hk
  have hrow := State.rowLookup_clean h x.table hr
  exact ⟨hstep.trans hrow, hset _ hrow⟩

omit h in
theorem State.stepLookup_beyondRows (hr : d.size ≤ key) : (s.stepLookup k x).1 = .miss := by
  subst hkey
  exact (State.stepLookup_row hd hk).1.trans (State.rowLookup_beyond s x.table hr)

end

section
variable (hk : d.isLpm = true) (hkey : key = beNat (x.key k.ctx)) (hlt : key < 2 ^ d.width) (ht : TrieHolds s x.table d)
include hk hkey hlt ht

theorem State.stepLookup_route : (s.stepLookup k x).1 = routeHit (bestRec (s.recsOf x.table) d.width key) := by
  rw [State.stepLookup_lpm hd hk, ← hkey, State.lpmLookup_holds ht hk h hlt]

theorem State.stepLookup_longest {e : LRec} (he : e ∈ s.recsOf x.table) (hc : e.covers d.width key = true)
    (hl : ∀ z ∈ s.recsOf x.table, z.covers d.width key = true → z = e ∨ z.len < e.len) :
    (s.stepLookup k x).1 = .hit e.action := by
  rw [State.stepLookup_route hd h hk hkey hlt ht, bestRec_longest he hc hl, routeHit]

theorem State.stepLookup_noRoute (hn : ∀ e ∈ s.recsOf x.table, e.covers d.width key = false) :
    (s.stepLookup k x).1 = .miss := by
  rw [State.stepLookup_route hd h hk hkey hlt ht, bestRec_none hn, routeHit]

end
end

end Sys2Proof.Machine

end

section
/-!
What the match stages make of a packet (R183, R192), what a sighting does to the learn cache (R187), CACHE_FLUSH, and the
parity check of a search (R182).
-/
namespace Sys2Proof.Machine

/-! ### Combining contributions (R183) -/

theorem winner_eq (sets : List Contrib) (f : ActSet → Bool) :
    winner sets f = (firstMax Contrib.prec (sets.filter fun c => f c.set)).map (·.set) := by
  refine congrArg (Option.map Contrib.set) (congrArg (fun g => List.foldl g none _) (funext fun b => funext fun x => ?_))
  cases b <;> rfl

/-- Among the contributions that have a group, the one of the highest precedence wins, the earlier on a tie. -/
theorem winner_split {l m : List Contrib} {c : Contrib} {f : ActSet → Bool} (hc : f c.set = true)
    (hl : ∀ e ∈ l, f e.set = true → e.prec < c.prec) (hm : ∀ e ∈ m, f e.set = true → e.prec ≤ c.prec) :
    winner (l ++ c :: m) f = some c.set := by
  rw [winner_eq, List.filter_append, List.filter_cons_of_pos (p := fun e => f e.set) (a := c) hc,
    firstMax_split, Option.map_some]
  · exact fun e he => hl e (List.mem_filter.1 he).1 (List.mem_filter.1 he).2
  · exact fun e he => hm e (List.mem_filter.1 he).1 (List.mem_filter.1 he).2

theorem winner_none {sets : List Contrib} {f : ActSet → Bool} (h : ∀ e ∈ sets, f e.set = false) :
    winner sets f = none := by
  rw [winner_eq, List.filter_eq_nil_iff.2 fun e he => ne_true_of_eq_false (h e he)]
  rfl

theorem combine_kind_none {sets : List Contrib} (h : ∀ e ∈ sets, e.set.kind = 0) : (combine sets).kind = 0 := by
  have hw : winner sets (fun a => a.kind != 0) = none := winner_none fun e he => by rw [h e he]; rfl
  rw [combine, hw]
  rfl

/-- The destination group of the winner. -/
theorem combine_destination {sets : List Contrib} {a : ActSet} (hw : winner sets (·.kind != 0) = some a) :
    (combine sets).kind = a.kind ∧ (combine sets).value = a.value ∧ (combine sets).queue = a.queue ∧
    (combine sets).eqValid = a.eqValid ∧ (combine sets).eq = a.eq ∧ (combine sets).fate = a.fate ∧
    (combine sets).overflow = a.overflow := by
  simp only [combine, hw, Option.getD_some, and_self]

theorem combine_vlan {sets : List Contrib} {a : ActSet} (hw : winner sets (·.vlan % 8 != 0) = some a) :
    (combine sets).vlan = a.vlan := by
  simp only [combine, hw, Option.map_some, Option.getD_some]

theorem combine_policer {sets : List Contrib} {a : ActSet} (hw : winner sets (·.policer.isSome) = some a) :
    (combine sets).policer = a.policer := by
  simp only [combine, hw, Option.bind_some]

theorem combine_mirA {sets : List Contrib} {a : ActSet} (hw : winner sets (·.mirA.isSome) = some a) :
    (combine sets).mirA = a.mirA := by
  simp only [combine, hw, Option.bind_some]

theorem combine_mirB {sets : List Contrib} {a : ActSet} (hw : winner sets (·.mirB.isSome) = some a) :
    (combine sets).mirB = a.mirB := by
  simp only [combine, hw, Option.bind_some]

theorem combine_copyTo {sets : List Contrib} {a : ActSet} (hw : winner sets (·.copyTo.isSome) = some a) :
    (combine sets).copyTo = a.copyTo := by
  simp only [combine, hw, Option.bind_some]

theorem combine_postcard {sets : List Contrib} :
    (combine sets).postcard = true ↔ ∃ e ∈ sets, e.set.postcard = true := List.any_eq_true

theorem combine_insert {sets : List Contrib} :
    (combine sets).insert = true ↔ ∃ e ∈ sets, e.set.insert = true := List.any_eq_true

theorem combine_noLearn {sets : List Contrib} :
    (combine sets).noLearn = true ↔ ∃ e ∈ sets, e.set.noLearn = true := List.any_eq_true

/-! ### Settling the destination (R183) -/

section
variable {g : Gather} {m : Option ActSet} {fault : Bool} {prec : Nat} {a : ActSet}
  (ha : a = combine (g.sets ++ [⟨prec, m.getD ActSet.none⟩]))
include ha

theorem decide183_unread (h : g.bad = true ∨ m = none) : decide183 g m fault prec = (0xC3, a) := by
  subst ha
  refine if_pos ?_
  rcases h with h | h <;> simp [h]

variable (hb : g.bad = false) (hm : m ≠ none)
include hb hm

theorem decide183_read : decide183 g m fault prec =
    if fault then (0xC2, a) else if g.locked then (0x07, a) else settleDest a g.domain := by
  subst ha
  refine if_neg ?_
  simp [hb, hm]

theorem decide183_fault (hf : fault = true) : decide183 g m fault prec = (0xC2, a) := by
  rw [decide183_read ha hb hm, if_pos hf]

theorem decide183_locked (hf : fault = false) (hl : g.locked = true) : decide183 g m fault prec = (0x07, a) := by
  rw [decide183_read ha hb hm, if_neg (ne_true_of_eq_false hf), if_pos hl]

theorem decide183_settled (hf : fault = false) (hl : g.locked = false) :
    decide183 g m fault prec = settleDest a g.domain := by
  rw [decide183_read ha hb hm, if_neg (ne_true_of_eq_false hf), if_neg (ne_true_of_eq_false hl)]

end

section
variable {a : ActSet} {dom : Option ActSet}

theorem settleDest_none (h : a.kind = 0) : settleDest a dom = (0x2B, a) := by simp only [settleDest, h]

theorem settleDest_discard (h : a.kind = 4) : settleDest a dom = (a.fate, a) := by simp only [settleDest, h]

theorem settleDest_direct (h : a.kind = 1 ∨ a.kind = 2 ∨ a.kind = 3) : settleDest a dom = (0, a) := by
  rcases h with h | h | h <;> simp only [settleDest, h]

theorem settleDest_flood {d : ActSet} (h : a.kind = 5) (hd : dom = some d) (hk : d.kind = 2) :
    (settleDest a dom).1 = 0 ∧ (settleDest a dom).2.kind = 2 ∧ (settleDest a dom).2.value = d.value := by
  subst hd
  simp only [settleDest, h, hk, if_true, and_self]

theorem settleDest_noGroup (h : a.kind = 5) (hd : ∀ d, dom = some d → d.kind ≠ 2) :
    (settleDest a dom).1 = 0x29 := by
  rcases dom with _ | d
  · simp only [settleDest, h]
  · simp only [settleDest, h, hd d rfl, if_false]

end

theorem State.fullMatch_eq {s : State} {k : Pkt} {m : Option ActSet} {fault : Bool} {v : State}
    (h : (s.runSteps k Gather.none (s.planP k)).2.mamStep k = (m, fault, v)) :
    s.fullMatch k = ((decide183 (s.runSteps k Gather.none (s.planP k)).1 m fault
        (s.getP k.applied (O.MAM_PRECEDENCE k.tile))).1,
      (decide183 (s.runSteps k Gather.none (s.planP k)).1 m fault (s.getP k.applied (O.MAM_PRECEDENCE k.tile))).2,
      (s.runSteps k Gather.none (s.planP k)).1, v) := by
  simp only [State.fullMatch, h]

/-! ### The parity check of a search (R182) -/

section
variable {s : State} {t : Nat} {d : Damage}

theorem State.mamCheck_told (h : s.faults.damage = [d]) (ht : d.told = true) : s.mamCheck t = s := by
  rw [State.mamCheck, h]
  simp [ht, State.each]

theorem State.mamCheck_reports (h : s.faults.damage = [d]) (hs : d.source = 0x3A0 + t) (ht : d.told = false) :
    (s.mamCheck t).faults.reports = s.faults.reports ++
      [⟨0x3A0 + t, unitId 2 t, unitId 2 t, detailM d.addr 0 1 1, d.injected⟩] ∧
    (s.mamCheck t).faults.damage = [{ d with injected := false, told := true }] := by
  have hcheck : s.mamCheck t = ((s.reportR ⟨0x3A0 + t, unitId 2 t, unitId 2 t, detailM d.addr 0 1 1, d.injected⟩).disarm
      (0x3A0 + t) d.addr).damage { d with injected := false, told := true } := by
    rw [State.mamCheck, h]
    simp [hs, ht, State.each]
  rw [hcheck]
  refine ⟨rfl, ?_⟩
  simp [State.damage, State.disarm, State.reportR, h]

end

/-! ### A packet in the match stages -/

section
variable {s v : State} {k : Pkt} {t : Nat} (hk : k.tile = t)
  (hv : v = (s.putTile t { s.tile t with reorder := (s.tile t).reorder.filter (· != k.fid) }).count64 (O.MATCH_COUNTS t 1))
include hk hv

theorem State.matchPacket_toHost {g : Nat} (hg : k.toHost = some g) : s.matchPacket k =
    (if k.dflt then v.count64 (O.MATCH_COUNTS t 2) else v).putPkt
      { k with phase := .matched, act := { ActSet.none with kind := 3, value := g } } := by
  subst hk hv
  simp only [State.matchPacket, hg]

variable (hg : k.toHost = none)
include hg

theorem State.matchPacket_discarded {c : Nat} {a : ActSet} {g : Gather} {u : State}
    (hr : (if k.dflt then v.defaultMatch k else v.fullMatch k) = (c, a, g, u)) (hc : c ≠ 0) : s.matchPacket k =
      ((((if c = 7 then u.count64 (O.MATCH_COUNTS t 6) else u).offer k c a g).putPkt
        { k with phase := .matched, act := a }).discardArrival { k with phase := .matched, act := a } c) := by
  subst hk hv
  simp only [State.matchPacket, hg, hr, hc, false_and, if_false]

theorem State.matchPacket_policed {a : ActSet} {g : Gather} {u w : State} {c : Nat} {l : Pkt} (hd : k.dflt = false)
    (hr : v.fullMatch k = (0, a, g, u)) (hp : u.matchPolice k a = (c, l, w)) : s.matchPacket k =
      if c = 0 then (w.offer k 0 a g).putPkt { l with phase := .matched, act := a }
      else ((w.offer k 0 a g).putPkt { l with phase := .matched, act := a }).discardArrival
        { l with phase := .matched, act := a } c := by
  subst hk hv
  simp [State.matchPacket, hg, hd, hr, hp]

theorem State.matchPacket_default {a : ActSet} {g : Gather} {u : State} (hd : k.dflt = true)
    (hr : v.defaultMatch k = (0, a, g, u)) : s.matchPacket k =
      (u.offer k 0 a g).putPkt { k with phase := .matched, act := a } := by
  subst hk hv
  simp [State.matchPacket, hg, hd, hr]

end

section
variable {s : State} {t : Tile} {q : Port} {k : Pkt} (h : Runs s) (hq : s.matchHead q = some k)
include h hq

theorem exec_matchStart_ran (hk : k.tile = t.val) (hp : k.phase = .reorder) {u : State}
    (hu : (fresh s).matchPacket k = u) : exec (.matchStart t q) s = .next (ran s u.postcardsDue) := by
  subst hu
  refine exec_eq_ran exec_matchStart h ?_
  have hq' : (fresh s).matchHead q = some k := hq
  simp only [hq', hk, hp, and_self, if_true]

theorem exec_matchStart_fresh (hk : k.tile ≠ t.val ∨ k.phase ≠ .reorder) :
    exec (.matchStart t q) s = .next (fresh s) := by
  refine exec_eq_fresh exec_matchStart h ?_
  have hq' : (fresh s).matchHead q = some k := hq
  simp only [hq']
  exact if_neg fun hc => hk.elim (· hc.1) (· hc.2)

end

/-! ### Events (R188, R305) -/

/-- From `s` to `t` the learn cache, the time and every object but those of `rs` stay. -/
structure KeepsCache (rs : List Ref) (s t : State) : Prop where
  lookup : t.lookup = s.lookup
  time : t.time = s.time
  objs : ∀ r e, r ∉ rs → t.get r e = s.get r e

namespace KeepsCache

variable {rs : List Ref} {s t : State}

theorem refl (rs : List Ref) (s : State) : KeepsCache rs s s := ⟨rfl, rfl, fun _ _ _ => rfl⟩

variable (h : KeepsCache rs s t)
include h

theorem set {r : Ref} {v e : Nat} (hr : r ∈ rs) : KeepsCache rs s (t.set r v e) where
  lookup := h.lookup
  time := h.time
  objs q e' hq := (State.get_set_other t v e e' (.inl fun hqr => hq (by rw [hqr]; exact hr))).trans (h.objs q e' hq)

theorem count64 {r : Ref} {n e : Nat} (hr : r ∈ rs) : KeepsCache rs s (t.count64 r n e) := h.set hr

theorem putStream {learn : Bool} {x : Stream} : KeepsCache rs s (t.putStream learn x) := ⟨h.lookup, h.time, h.objs⟩

theorem report {n u : Nat} {d : List Byte} : KeepsCache rs s (t.report n u d) := ⟨h.lookup, h.time, h.objs⟩

theorem closeMsg (hr : O.LEARN_MESSAGES ∈ rs) : KeepsCache rs s (t.closeMsg true) := by
  unfold State.closeMsg
  dsimp only
  split
  · exact h
  · exact h.putStream.count64 hr

theorem pushRec {b : List Byte} (hr : O.LEARN_MESSAGES ∈ rs) : KeepsCache rs s (t.pushRec true b).2 := by
  unfold State.pushRec
  dsimp only
  split
  · exact h.putStream
  · dsimp only
    split
    · exact h.putStream.closeMsg hr
    · exact h.putStream

end KeepsCache

/-- The objects an event may change beside its number. -/
abbrev eventObjs : List Ref := [O.LEARN_MESSAGES, O.LEARN_COUNTS 7]

/-- An event takes the next number; beside it only the counts of messages and of lost events change. -/
theorem State.keeps_learnEvent (s : State) (time key type flags port member prev table tile first : Nat) :
    KeepsCache eventObjs (s.set O.LEARN_SEQ ((s.get O.LEARN_SEQ + 1) % 2 ^ 64))
      (s.learnEvent time key type flags port member prev table tile first) := by
  have hpush : ∀ b, KeepsCache eventObjs (s.set O.LEARN_SEQ ((s.get O.LEARN_SEQ + 1) % 2 ^ 64))
      ((s.set O.LEARN_SEQ ((s.get O.LEARN_SEQ + 1) % 2 ^ 64)).pushRec true b).2 := fun b =>
    (KeepsCache.refl _ _).pushRec (List.mem_cons_self ..)
  have hlost : ∀ b x, KeepsCache eventObjs (s.set O.LEARN_SEQ ((s.get O.LEARN_SEQ + 1) % 2 ^ 64))
      { ((s.set O.LEARN_SEQ ((s.get O.LEARN_SEQ + 1) % 2 ^ 64)).pushRec true b).2 with ledger := x } := fun b x =>
    ⟨(hpush b).lookup, (hpush b).time, (hpush b).objs⟩
  unfold State.learnEvent
  dsimp only
  generalize eventBytes _ time key type _ port member prev table tile first = b
  split
  · exact hlost b _
  · exact ((hlost b _).count64 (List.mem_cons_of_mem _ (List.mem_singleton.2 rfl))).report

/-- The event of a sighting takes the next number. -/
theorem State.keeps_sightingEvent (s : State) (y : Sighting) (type : Nat) (c : Bool) (prev first : Nat) :
    KeepsCache eventObjs (s.set O.LEARN_SEQ ((s.get O.LEARN_SEQ + 1) % 2 ^ 64)) (s.sightingEvent y type c prev first) :=
  State.keeps_learnEvent ..

/-! ### A sighting at the cache (R187) -/

/-- A sighting enters the cache with a NEW or MOVE event. -/
def State.sightNew (s : State) (y : Sighting) : State :=
  let s := match y.prev with
    | none => (s.sightingEvent y 1 false 0xFFFF 0).count64 (O.LEARN_COUNTS 3)
    | some q => (s.sightingEvent y 2 false q 0).count64 (O.LEARN_COUNTS 4)
  s.putCache (s.lookup.cache.filter (·.key != y.key) ++ [⟨y.key, y.port, s.get O.LEARN_SEQ, s.now, s.now, false⟩])

/-- The cache with its entry of an address replaced. -/
def State.recache (s : State) (e : LearnE) : State :=
  s.putCache (s.lookup.cache.map fun x => if x.key = e.key then e else x)

section
variable {s : State} {y : Sighting}

theorem State.sight_absent (h : s.cached y.key = none) :
    s.sight y = (s.count64 (O.LEARN_COUNTS 1)).cacheRoom.sightNew y := by
  have h' : (s.count64 (O.LEARN_COUNTS 1)).cached y.key = none := h
  simp only [State.sight, h']
  rfl

theorem State.cacheRoom_room (h : s.lookup.cache.length < 16384) : s.cacheRoom = s := by
  unfold State.cacheRoom
  split
  · rfl
  · exact if_pos h

variable {e : LearnE} (h : s.cached y.key = some e) (ho : s.windowOpen e = true)
include h ho

/-- A sighting of an entry whose window is open. -/
theorem State.sight_open : s.sight y =
    if e.port = y.port then ((s.count64 (O.LEARN_COUNTS 1)).recache { e with lastSeen := s.now }).count64 (O.LEARN_COUNTS 2)
    else if !e.contested then
      ((((s.count64 (O.LEARN_COUNTS 1)).sightingEvent y 2 true e.port e.seq).count64 (O.LEARN_COUNTS 4)).recache
        { e with contested := true }).count64 (O.LEARN_COUNTS 5)
    else (s.count64 (O.LEARN_COUNTS 1)).count64 (O.LEARN_COUNTS 6) := by
  have h' : (s.count64 (O.LEARN_COUNTS 1)).cached y.key = some e := h
  have ho' : (s.count64 (O.LEARN_COUNTS 1)).windowOpen e = true := by
    rw [State.windowOpen, State.get_count64_other _ _ (.inl (by simp))]
    exact ho
  simp only [State.sight, h', ho', Bool.not_true, Bool.false_eq_true, if_false]
  rfl

end

/-- The entry of a replaced address is the new one. -/
theorem State.cached_recache {s : State} {key : Nat} {e x : LearnE} (h : s.cached key = some e) (hx : x.key = e.key) :
    (s.recache x).cached key = some x := by
  have hkey : e.key = key := beq_iff_eq.1 (List.find?_some (p := fun z : LearnE => z.key == key) h)
  have hfind : ∀ l : List LearnE, l.find? (·.key == key) = some e →
      (l.map fun z => if z.key = x.key then x else z).find? (·.key == key) = some x := fun l => by
    induction l with
    | nil => intro hl; cases hl
    | cons z l ih =>
      intro hl
      rw [List.map_cons, List.find?_cons]
      by_cases hz : z.key = key
      · rw [if_pos (by rw [hz, hx, hkey]), beq_iff_eq.2 (hx.trans hkey)]
      · rw [if_neg (by rw [hx, hkey]; exact hz), beq_eq_false_iff_ne.2 hz]
        rw [List.find?_cons, beq_eq_false_iff_ne.2 hz] at hl
        exact ih hl
  exact hfind _ h

section
variable {s : State} {y : Sighting} {r : List Sighting} (h : Runs s) (hq : s.lookup.offered = y :: r)
include h hq

/-- LEARN_SIGHTING takes the oldest sighting offered to the cache. -/
theorem exec_learnSighting_ran : exec .learnSighting s =
    .next (ran s (({ fresh s with lookup := { s.lookup with offered := r } } : State).sight y)) := by
  refine exec_eq_ran exec_learnSighting h ?_
  simp only [hq]

end

/-! ### What a sighting does -/

theorem State.sightNew_event (s : State) (y : Sighting) : ∃ v,
    KeepsCache (O.LEARN_COUNTS 3 :: O.LEARN_COUNTS 4 :: eventObjs) (s.set O.LEARN_SEQ ((s.get O.LEARN_SEQ + 1) % 2 ^ 64)) v ∧
    s.sightNew y =
      v.putCache (v.lookup.cache.filter (·.key != y.key) ++ [⟨y.key, y.port, v.get O.LEARN_SEQ, v.now, v.now, false⟩]) := by
  have hevent : ∀ type q, KeepsCache (O.LEARN_COUNTS 3 :: O.LEARN_COUNTS 4 :: eventObjs)
      (s.set O.LEARN_SEQ ((s.get O.LEARN_SEQ + 1) % 2 ^ 64)) (s.sightingEvent y type false q 0) := fun type q => by
    obtain ⟨hl, ht, ho⟩ := s.keeps_sightingEvent y type false q 0
    exact ⟨hl, ht, fun r e hr => ho r e fun hm => hr (List.mem_cons_of_mem _ (List.mem_cons_of_mem _ hm))⟩
  unfold State.sightNew
  rcases y.prev with _ | q
  · exact ⟨_, (hevent 1 0xFFFF).count64 (by simp), rfl⟩
  · exact ⟨_, (hevent 2 q).count64 (by simp), rfl⟩

section
variable {s : State} {y : Sighting}

/-- A sighting of a new address, with room in the cache. -/
theorem State.sight_enters (h : s.cached y.key = none) (hroom : s.lookup.cache.length < 16384) :
    (s.sight y).lookup.offered = s.lookup.offered ∧
    (s.sight y).get O.LEARN_SEQ = (s.get O.LEARN_SEQ + 1) % 2 ^ 64 ∧
    (s.sight y).get (O.LEARN_COUNTS 1) = (s.get (O.LEARN_COUNTS 1) + 1) % 2 ^ 64 ∧
    (s.sight y).lookup.cache = s.lookup.cache.filter (·.key != y.key) ++
      [⟨y.key, y.port, (s.get O.LEARN_SEQ + 1) % 2 ^ 64, s.now, s.now, false⟩] := by
  obtain ⟨v, ⟨hl, ht, ho⟩, hnew⟩ := (s.count64 (O.LEARN_COUNTS 1)).sightNew_event y
  have hroom' : (s.count64 (O.LEARN_COUNTS 1)).lookup.cache.length < 16384 := hroom
  have hnow : v.now = s.now := congrArg (·.ticks) ht
  have hoff : v.lookup.offered = s.lookup.offered := congrArg Lookup.offered hl
  have hseq : v.get O.LEARN_SEQ = (s.get O.LEARN_SEQ + 1) % 2 ^ 64 := by
    rw [ho _ _ (by simp), State.get_set_same, State.get_count64_other _ _ (.inl (by simp))]
  have hcount : v.get (O.LEARN_COUNTS 1) = (s.get (O.LEARN_COUNTS 1) + 1) % 2 ^ 64 := by
    rw [ho _ _ (by simp), State.get_set_other _ _ _ _ (.inl (by simp)), State.get_count64_same]
  rw [State.sight_absent h, State.cacheRoom_room hroom', hnew, hseq, hnow, hl]
  exact ⟨hoff, hseq, hcount, rfl⟩

variable {e : LearnE} (h : s.cached y.key = some e) (ho : s.windowOpen e = true)
include h ho

/-- A sighting on the entry's own port refreshes it. -/
theorem State.sight_refreshes (hp : e.port = y.port) :
    (s.sight y).lookup.offered = s.lookup.offered ∧ (s.sight y).get O.LEARN_SEQ = s.get O.LEARN_SEQ ∧
    (s.sight y).get (O.LEARN_COUNTS 2) = (s.get (O.LEARN_COUNTS 2) + 1) % 2 ^ 64 ∧
    (s.sight y).cached y.key = some { e with lastSeen := s.now } := by
  have hc : (s.count64 (O.LEARN_COUNTS 1)).cached y.key = some e := h
  have hother : ∀ r, r ≠ O.LEARN_COUNTS 1 → ((s.count64 (O.LEARN_COUNTS 1)).recache { e with lastSeen := s.now }).get r =
      s.get r := fun r hr => State.get_count64_other _ _ (.inl hr)
  rw [State.sight_open h ho, if_pos hp]
  refine ⟨rfl, ?_, ?_, State.cached_recache hc rfl⟩
  · rw [State.get_count64_other _ _ (.inl (by simp)), hother _ (by simp)]
  · rw [State.get_count64_same, hother _ (by simp)]

/-- A sighting on another port contests the entry, with a MOVE event. -/
theorem State.sight_contests (hp : e.port ≠ y.port) (hn : e.contested = false) :
    (s.sight y).lookup.offered = s.lookup.offered ∧
    (s.sight y).get O.LEARN_SEQ = (s.get O.LEARN_SEQ + 1) % 2 ^ 64 ∧
    (s.sight y).get (O.LEARN_COUNTS 5) = (s.get (O.LEARN_COUNTS 5) + 1) % 2 ^ 64 ∧
    (s.sight y).cached y.key = some { e with contested := true } := by
  obtain ⟨hl, -, hobjs⟩ := (s.count64 (O.LEARN_COUNTS 1)).keeps_sightingEvent y 2 true e.port e.seq
  rw [State.sight_open h ho, if_neg hp, if_pos (by rw [hn]; rfl)]
  generalize (s.count64 (O.LEARN_COUNTS 1)).sightingEvent y 2 true e.port e.seq = v at hl hobjs ⊢
  have hc : (v.count64 (O.LEARN_COUNTS 4)).cached y.key = some e := by
    rw [State.cached] at h ⊢
    rw [← h]
    exact congrArg (fun x : Lookup => x.cache.find? _) hl
  have hoff : v.lookup.offered = s.lookup.offered := congrArg Lookup.offered hl
  have hkeep : ∀ r, ((v.count64 (O.LEARN_COUNTS 4)).recache { e with contested := true }).get r =
      (v.count64 (O.LEARN_COUNTS 4)).get r := fun _ => rfl
  refine ⟨hoff, ?_, ?_, State.cached_recache hc rfl⟩
  · rw [State.get_count64_other _ _ (.inl (by simp)), hkeep, State.get_count64_other _ _ (.inl (by simp)),
      hobjs _ _ (by simp), State.get_set_same, State.get_count64_other _ _ (.inl (by simp))]
  · rw [State.get_count64_same, hkeep, State.get_count64_other _ _ (.inl (by simp)), hobjs _ _ (by simp),
      State.get_set_other _ _ _ _ (.inl (by simp)), State.get_count64_other _ _ (.inl (by simp))]

/-- A sighting of a contested entry only counts. -/
theorem State.sight_counts (hp : e.port ≠ y.port) (hn : e.contested = true) :
    (s.sight y).lookup.offered = s.lookup.offered ∧ (s.sight y).lookup.cache = s.lookup.cache ∧
    (s.sight y).get (O.LEARN_COUNTS 6) = (s.get (O.LEARN_COUNTS 6) + 1) % 2 ^ 64 := by
  rw [State.sight_open h ho, if_neg hp, if_neg (by simp [hn])]
  refine ⟨rfl, rfl, ?_⟩
  rw [State.get_count64_same, State.get_count64_other _ _ (.inl (by simp))]

end

/-- LEARN_SIGHTING does what its sighting does. -/
theorem learnSighting_does {s : State} {y : Sighting} {r : List Sighting} {P : State → Prop} (h : Runs s)
    (hq : s.lookup.offered = y :: r)
    (hP : P (ran s (({ fresh s with lookup := { s.lookup with offered := r } } : State).sight y))) :
    Does .learnSighting s P :=
  ⟨_, exec_learnSighting_ran h hq, hP⟩

/-! ### CACHE_FLUSH -/

/-- The row of CACHE_FLUSH. -/
def cacheFlushRow : ObjRow := ⟨0x5200, 7, 7, .cmd, .cmd, 0, 0, .upto 1, .none, []⟩

theorem finds_cacheFlush (s : State) : Finds s false O.CACHE_FLUSH cacheFlushRow := by
  have hrow : rowOf (indexRows 0x5200) 7 = some cacheFlushRow := by decide +kernel
  have hhead : (indexRows 0x5200).head? = some ⟨0x5200, 1, 1, .u32, .rw, 4, 4, .upto 1, .none, [(100, 100000)]⟩ := by
    decide +kernel
  exact finds_of_rowOf hhead (decide_eq_true Nat.zero_lt_one) hrow (by simp)

/-- CACHE_FLUSH is a write of its command object. -/
theorem exec_cacheFlush_write (s : State) (p : Path) : exec (.cacheFlush p) s = exec (.write p O.CACHE_FLUSH 0 []) s := rfl

theorem State.command_cacheFlush (s : State) : s.command O.CACHE_FLUSH [] = (Err.ok, State.cmdDone (s.putCache [])
    O.CACHE_FLUSH) := (rfl)

theorem cacheFlush_does {s : State} {p : Path} (h : Takes s p O.CACHE_FLUSH) :
    Does (.cacheFlush p) s fun u => u.out = [.answer p Err.ok []] ∧ u.lookup.cache = [] ∧
      (u.cmd O.CACHE_FLUSH).status = 2 ∧ u.dict.objs = s.dict.objs := by
  have hexec : exec (.cacheFlush p) s = .next (answers s p Err.ok (((fresh s).putCache []).cmdDone O.CACHE_FLUSH)) := by
    rw [exec_cacheFlush_write]
    exact write_cmd_takes h (finds_cacheFlush s) rfl (.inl (by simp)) rfl rfl (State.diagRefuses_of_area (by simp) false)
      (State.command_cacheFlush _)
  exact ⟨_, hexec, rfl, rfl, congrArg CmdStat.status (State.cmd_setCmd _ O.CACHE_FLUSH 2 0 []), rfl⟩

end Sys2Proof.Machine

open Sys2Proof Sys2Proof.Machine

/-- Settles O39: the lookups by the entries of an undamaged store and the walk of R176, the match stages by the branches of
a packet's decision, and the sightings by R187's cases. -/
theorem matchStagesAndLearning : Obligations.MatchStagesAndLearning := by
  unfold Obligations.MatchStagesAndLearning
  intro s t q p y r h
  refine ⟨fun k v hq hk hp hv => ⟨fun g hg => ?_, fun c a g u w hg hr hc hw => ?_, fun a g u c l w hg hd hr hpol => ?_,
      fun a g u hg hd hr => ?_⟩, fun k hq hk => exec_matchStart_fresh h hq hk,
    fun hq => ⟨fun hn hroom => ?_, fun e he ho hp => ?_, fun e he ho hp hn => ?_, fun e he ho hp hn => ?_⟩,
    cacheFlush_does, fun k x d key hd hdam => ?_, fun l m c => ?_, fun k g m fault v hg hm => ?_, fun d hd hs ht => ?_⟩
  -- MATCH_START
  · exact exec_matchStart_ran h hq hk hp (State.matchPacket_toHost hk hv hg)
  · subst hw
    exact exec_matchStart_ran h hq hk hp (State.matchPacket_discarded hk hv hg hr hc)
  · exact exec_matchStart_ran h hq hk hp (State.matchPacket_policed hk hv hg hd hr hpol)
  · exact exec_matchStart_ran h hq hk hp (State.matchPacket_default hk hv hg hd hr)
  -- LEARN_SIGHTING
  · exact learnSighting_does h hq (State.sight_enters (s := { fresh s with lookup := { s.lookup with offered := r } })
      hn hroom)
  · exact learnSighting_does h hq (State.sight_refreshes (s := { fresh s with lookup := { s.lookup with offered := r } })
      he ho hp)
  · exact learnSighting_does h hq (State.sight_contests (s := { fresh s with lookup := { s.lookup with offered := r } })
      he ho hp hn)
  · exact learnSighting_does h hq (State.sight_counts (s := { fresh s with lookup := { s.lookup with offered := r } })
      he ho hp hn)
  -- Lookups
  · refine ⟨fun hk hkey => ⟨fun l v r hs hv hl => State.stepLookup_stash hd hdam hk hkey hs hv hl,
        fun hs => ⟨fun l w r hc hw hl => ?_, State.stepLookup_absent hd hdam hk hkey hs⟩⟩,
      fun hk hkey => ⟨State.stepLookup_inRows hd hdam hk hkey, State.stepLookup_beyondRows hd hk hkey⟩,
      fun hk hkey hlt htrie => ⟨fun e he hc hl => State.stepLookup_longest hd hdam hk hkey hlt htrie he hc hl,
        State.stepLookup_noRoute hd hdam hk hkey hlt htrie⟩⟩
    have hhit := State.stepLookup_bucket hd hdam hk hkey hs hc hw hl
    exact ⟨hhit, State.stepLookup_immediate hd hk hhit⟩
  -- Combining
  · exact ⟨fun ⟨hc, hl, hm⟩ => combine_destination (winner_split hc hl hm), combine_kind_none,
      fun ⟨hc, hl, hm⟩ => combine_policer (winner_split hc hl hm), fun ⟨hc, hl, hm⟩ => combine_mirA (winner_split hc hl hm),
      fun ⟨hc, hl, hm⟩ => combine_mirB (winner_split hc hl hm), fun ⟨hc, hl, hm⟩ => combine_vlan (winner_split hc hl hm),
      fun ⟨hc, hl, hm⟩ => combine_copyTo (winner_split hc hl hm), combine_postcard, combine_insert, combine_noLearn⟩
  -- Deciding
  · have hfull := State.fullMatch_eq hm
    rw [← hg] at hfull
    rw [hfull]
    refine ⟨fun hbad => congrArg Prod.fst (decide183_unread rfl hbad), fun hbad hread =>
      ⟨fun hf => congrArg Prod.fst (decide183_fault rfl hbad hread hf), fun hf =>
        ⟨fun hl => congrArg Prod.fst (decide183_locked rfl hbad hread hf hl), fun hl => ?_⟩⟩⟩
    simp only [decide183_settled rfl hbad hread hf hl]
    refine ⟨fun hk => congrArg Prod.fst (settleDest_none hk), fun hk => congrArg Prod.fst (settleDest_discard hk),
      fun hk => ?_, fun hk => ⟨fun d hd hk2 => settleDest_flood hk hd hk2, settleDest_noGroup hk⟩⟩
    rw [settleDest_direct hk]
    exact ⟨rfl, rfl⟩
  -- The parity check
  · obtain ⟨hrep, hdam⟩ := State.mamCheck_reports hd hs ht
    exact ⟨hrep, by rw [State.mamCheck_told hdam rfl]⟩

end

section
/-!
The FEC windows of a port (R110) and the verification of preemption (R115, R116).
-/
namespace Sys2Proof.Machine

/-! ### FEC windows (R110) -/

/-- The codewords of a window with `k` corrected symbols. -/
def binOf (bins : List (BitVec 32)) (k : Nat) : Nat := (bins.getD k 0).toNat

theorem getD_map_binOf (bins : List (BitVec 32)) (k : Nat) : (bins.map (·.toNat)).getD k 0 = binOf bins k := by
  simp only [binOf, List.getD_eq_getElem?_getD, List.getElem?_map]
  cases bins[k]? <;> rfl

theorem binOf_range {bins : List (BitVec 32)} {n : Nat} (h : bins.length = n) :
    (List.range n).map (binOf bins) = bins.map (·.toNat) :=
  List.ext_getElem (by simp [h]) fun i _ hi => by
    rw [List.length_map] at hi
    simp [binOf, hi]

/-- One bin of a window, the last with the uncorrectable codewords. -/
def State.fecBin (s : State) (p unc : Nat) (g : Nat → Nat) (k : Nat) : State :=
  s.count64 (O.FEC_HISTOGRAM p) (g k + if k = 15 then unc else 0) k

/-- What a window counts: `g k` codewords with `k` corrected symbols, of a port with FEC `fec`. -/
def State.fecCounted (s : State) (p fec unc sym : Nat) (g : Nat → Nat) : State :=
  let b := (List.range 16).map g
  let s := (s.count64 (O.FEC_COUNTS p 1) (sumL (b.drop 1))).count64 (O.FEC_COUNTS p 2) unc
  let s := if fec = 1 then s else s.each (List.range 16) fun s k => s.fecBin p unc g k
  if fec = 1 then s else s.count64 (O.FEC_COUNTS p 3) sym

/-- How a window with `n` codewords of 12 corrected symbols or more judges the port. -/
def State.fecJudged (s : State) (p n : Nat) : State :=
  let bad := decide (s.get (O.DEGRADE_LIMIT p) < n)
  let c := if bad then 0 else (s.port p).clean + 1
  let s := s.modPort p fun x => { x with clean := c }
  if bad then (s.set (O.FEC_DEGRADED p) 1).report (0x160 + p / 16) (unitId 10 p) (detailS (leBytes 2 p))
  else if 10 ≤ c then s.set (O.FEC_DEGRADED p) 0
  else s

/-- The objects a window counts in. -/
abbrev fecObjs (p : Nat) : List Ref := [O.FEC_COUNTS p 1, O.FEC_COUNTS p 2, O.FEC_HISTOGRAM p, O.FEC_COUNTS p 3]

section
variable (s : State) (p unc sym : Nat) (g : Nat → Nat)

theorem State.fecBins_writes : Writes [O.FEC_HISTOGRAM p] s (s.each (List.range 16) fun s k => s.fecBin p unc g k) :=
  (Writes.refl _ s).each fun _ _ hu => hu.count64 (List.mem_singleton.2 rfl)

theorem State.fecCounted_writes (fec : Nat) : Writes (fecObjs p) s (s.fecCounted p fec unc sym g) := by
  have hboth := ((Writes.refl (fecObjs p) s).count64 (r := O.FEC_COUNTS p 1) (n := sumL (((List.range 16).map g).drop 1))
    (e := 0) (by simp)).count64 (r := O.FEC_COUNTS p 2) (n := unc) (e := 0) (by simp)
  have hbins := hboth.ite (c := fec = 1) (hboth.each (l := List.range 16) fun u k hu => hu.count64 (r := O.FEC_HISTOGRAM p)
    (n := g k + if k = 15 then unc else 0) (e := k) (by simp))
  exact hbins.ite (hbins.count64 (by simp))

theorem State.fecCounted_codewords (fec : Nat) :
    (s.fecCounted p fec unc sym g).get (O.FEC_COUNTS p 1) =
      (s.get (O.FEC_COUNTS p 1) + sumL (((List.range 16).map g).drop 1)) % 2 ^ 64 ∧
    (s.fecCounted p fec unc sym g).get (O.FEC_COUNTS p 2) = (s.get (O.FEC_COUNTS p 2) + unc) % 2 ^ 64 := by
  have hboth : ∀ k, k = 1 ∨ k = 2 → (s.fecCounted p fec unc sym g).get (O.FEC_COUNTS p k) =
      ((s.count64 (O.FEC_COUNTS p 1) (sumL (((List.range 16).map g).drop 1))).count64 (O.FEC_COUNTS p 2) unc).get
        (O.FEC_COUNTS p k) := fun k hk => by
    by_cases hf : fec = 1
    · simp only [State.fecCounted, hf, if_true]
    · simp only [State.fecCounted, hf, if_false]
      rw [State.get_count64_other _ _ (.inl (by simp; omega)), (State.fecBins_writes ..).objs _ _ (by simp; omega)]
  refine ⟨?_, ?_⟩
  · rw [hboth 1 (.inl rfl), State.get_count64_other _ _ (.inl (by simp)), State.get_count64_same]
  · rw [hboth 2 (.inr rfl), State.get_count64_same, State.get_count64_other _ _ (.inl (by simp))]

/-- A port with RS FEC counts its symbols, and each bin. -/
theorem State.fecCounted_rs {fec : Nat} (hf : fec ≠ 1) :
    (s.fecCounted p fec unc sym g).get (O.FEC_COUNTS p 3) = (s.get (O.FEC_COUNTS p 3) + sym) % 2 ^ 64 ∧
    ∀ k < 16, (s.fecCounted p fec unc sym g).get (O.FEC_HISTOGRAM p) k =
      (s.get (O.FEC_HISTOGRAM p) k + (g k + if k = 15 then unc else 0)) % 2 ^ 64 := by
  have hbefore : ∀ r e, r ≠ O.FEC_COUNTS p 1 → r ≠ O.FEC_COUNTS p 2 →
      ((s.count64 (O.FEC_COUNTS p 1) (sumL (((List.range 16).map g).drop 1))).count64 (O.FEC_COUNTS p 2) unc).get r e =
        s.get r e := fun r e h1 h2 => by
    rw [State.get_count64_other _ _ (.inl h2), State.get_count64_other _ _ (.inl h1)]
  rw [State.fecCounted]
  simp only [hf, if_false]
  refine ⟨?_, fun k hk => ?_⟩
  · rw [State.get_count64_same, (State.fecBins_writes ..).objs _ _ (by simp), hbefore _ _ (by simp) (by simp)]
  · have hbins := State.each_local (fun t k => t.get (O.FEC_HISTOGRAM p) k)
      (fun k v => (v + (g k + if k = 15 then unc else 0)) % 2 ^ 64) (fun t k => t.fecBin p unc g k)
      (fun t k => State.get_count64_same ..) (fun t i j hj => State.get_count64_other _ _ (.inr hj)) (List.range 16)
      List.nodup_range ((s.count64 (O.FEC_COUNTS p 1) (sumL (((List.range 16).map g).drop 1))).count64
        (O.FEC_COUNTS p 2) unc) k
    rw [if_pos (List.mem_range.2 hk), hbefore _ _ (by simp) (by simp)] at hbins
    rw [State.get_count64_other _ _ (.inl (by simp)), hbins]

/-- A port with BASE-R FEC counts blocks only. -/
theorem State.fecCounted_baseR (k : Nat) :
    (s.fecCounted p 1 unc sym g).get (O.FEC_COUNTS p 3) = s.get (O.FEC_COUNTS p 3) ∧
    (s.fecCounted p 1 unc sym g).get (O.FEC_HISTOGRAM p) k = s.get (O.FEC_HISTOGRAM p) k := by
  rw [State.fecCounted]
  simp only [if_true]
  refine ⟨?_, ?_⟩ <;>
    rw [State.get_count64_other _ _ (.inl (by simp)), State.get_count64_other _ _ (.inl (by simp))]

end

section
variable {s : State} {p n : Nat}

theorem State.fecJudged_objs (r : Ref) (e : Nat) (hr : r ≠ O.FEC_DEGRADED p) : (s.fecJudged p n).get r e = s.get r e := by
  simp only [State.fecJudged]
  split
  · exact State.get_set_other _ _ _ _ (.inl hr)
  · split
    · exact State.get_set_other _ _ _ _ (.inl hr)
    · rfl

theorem State.fecJudged_bad (h : s.get (O.DEGRADE_LIMIT p) < n) : (s.fecJudged p n).get (O.FEC_DEGRADED p) = 1 ∧
    ((s.fecJudged p n).port p).clean = 0 ∧ (s.fecJudged p n).faults.reports.map (·.source) =
      s.faults.reports.map (·.source) ++ [0x160 + p / 16] := by
  have hport : ((s.modPort p fun x => { x with clean := 0 }).port p).clean = 0 := by
    rw [State.modPort, State.port_putPort]
  simp only [State.fecJudged, decide_eq_true h, if_true]
  exact ⟨State.get_set_same .., hport, List.map_append⟩

theorem State.fecJudged_good (h : n ≤ s.get (O.DEGRADE_LIMIT p)) :
    ((s.fecJudged p n).port p).clean = (s.port p).clean + 1 ∧ (s.fecJudged p n).faults = s.faults ∧
    (s.fecJudged p n).get (O.FEC_DEGRADED p) = if 9 ≤ (s.port p).clean then 0 else s.get (O.FEC_DEGRADED p) := by
  have hport : ((s.modPort p fun x => { x with clean := (s.port p).clean + 1 }).port p).clean = (s.port p).clean + 1 := by
    rw [State.modPort, State.port_putPort]
  simp only [State.fecJudged, decide_eq_false (Nat.not_lt.2 h), Bool.false_eq_true, if_false, Nat.reduceLeDiff]
  split
  · exact ⟨hport, rfl, State.get_set_same ..⟩
  · exact ⟨hport, rfl, rfl⟩

end

section
variable {s : State} {p : Port} {bins : List (BitVec 32)} {unc sym : BitVec 32} (h : Runs s)
include h

theorem exec_fecDegradeWindow_ran (hp : s.isPort p = true) (hf : s.get (O.FEC_ACTIVE p) ≠ 0) :
    exec (.fecDegradeWindow p bins unc sym) s =
      .next (ran s (((fresh s).fecCounted p (s.get (O.FEC_ACTIVE p)) unc.toNat sym.toNat
        (binOf bins)).fecJudged p (sumL (((List.range 16).map (binOf bins)).drop 12)))) := by
  refine exec_eq_ran exec_fecDegradeWindow h ?_
  have hgo : ¬((!(fresh s).isPort p) = true ∨ (fresh s).get (O.FEC_ACTIVE p) = 0) := by
    rintro (hn | hn)
    · rw [show (fresh s).isPort p = true from hp] at hn
      cases hn
    · exact hf hn
  rw [if_neg hgo]
  simp only [zipIdx_map_range, State.each, List.foldl_map]
  rfl

theorem exec_fecDegradeWindow_fresh (hn : s.isPort p = false ∨ s.get (O.FEC_ACTIVE p) = 0) :
    exec (.fecDegradeWindow p bins unc sym) s = .next (fresh s) :=
  exec_eq_fresh exec_fecDegradeWindow h (if_pos (hn.imp_left fun hp => by rw [show (fresh s).isPort p = false from hp]; rfl))

/-- The window of a port with FEC. -/
theorem fecDegradeWindow_does (hp : s.isPort p = true) (hf : s.get (O.FEC_ACTIVE p) ≠ 0) (hlen : bins.length = 16) :
    Does (.fecDegradeWindow p bins unc sym) s fun u =>
      u.get (O.FEC_COUNTS p 1) = (s.get (O.FEC_COUNTS p 1) + sumL ((bins.map (·.toNat)).drop 1)) % 2 ^ 64 ∧
      u.get (O.FEC_COUNTS p 2) = (s.get (O.FEC_COUNTS p 2) + unc.toNat) % 2 ^ 64 ∧
      (s.get (O.FEC_ACTIVE p) ≠ 1 →
        u.get (O.FEC_COUNTS p 3) = (s.get (O.FEC_COUNTS p 3) + sym.toNat) % 2 ^ 64 ∧
        ∀ k : Fin 16, u.get (O.FEC_HISTOGRAM p) k = (s.get (O.FEC_HISTOGRAM p) k + ((bins.map (·.toNat)).getD k 0 +
          if k.val = 15 then unc.toNat else 0)) % 2 ^ 64) ∧
      (s.get (O.FEC_ACTIVE p) = 1 → u.get (O.FEC_COUNTS p 3) = s.get (O.FEC_COUNTS p 3) ∧
        ∀ k, u.get (O.FEC_HISTOGRAM p) k = s.get (O.FEC_HISTOGRAM p) k) ∧
      (s.get (O.DEGRADE_LIMIT p) < sumL ((bins.map (·.toNat)).drop 12) →
        u.get (O.FEC_DEGRADED p) = 1 ∧ (u.port p).clean = 0 ∧
        u.faults.reports.map (·.source) = s.faults.reports.map (·.source) ++ [0x160 + p.val / 16]) ∧
      (sumL ((bins.map (·.toNat)).drop 12) ≤ s.get (O.DEGRADE_LIMIT p) →
        (u.port p).clean = (s.port p).clean + 1 ∧ u.faults = s.faults ∧
        u.get (O.FEC_DEGRADED p) = if 9 ≤ (s.port p).clean then 0 else s.get (O.FEC_DEGRADED p)) := by
  refine ⟨_, exec_fecDegradeWindow_ran h hp hf, ?_⟩
  have hw := (fresh s).fecCounted_writes p unc.toNat sym.toNat (binOf bins)
    (s.get (O.FEC_ACTIVE p))
  obtain ⟨hcount1, hcount2⟩ := (fresh s).fecCounted_codewords p unc.toNat sym.toNat
    (binOf bins) (s.get (O.FEC_ACTIVE p))
  have hrs := (fresh s).fecCounted_rs p unc.toNat sym.toNat (binOf bins)
    (fec := s.get (O.FEC_ACTIVE p))
  have hbase := (fresh s).fecCounted_baseR p unc.toNat sym.toNat (binOf bins)
  simp only [getD_map_binOf]
  rw [binOf_range hlen] at hcount1 ⊢
  generalize hv : (fresh s).fecCounted p (s.get (O.FEC_ACTIVE p)) unc.toNat sym.toNat
    (binOf bins) = v at hw hcount1 hcount2 hrs ⊢
  have hlimit : v.get (O.DEGRADE_LIMIT p) = s.get (O.DEGRADE_LIMIT p) := hw.objs _ _ (by simp)
  have hdegraded : v.get (O.FEC_DEGRADED p) = s.get (O.FEC_DEGRADED p) := hw.objs _ _ (by simp)
  have hport : v.port p = s.port p := by rw [State.port, State.port, hw.ports]
  simp only [ran_get, State.fecJudged_objs _ _ (show O.FEC_COUNTS p 1 ≠ O.FEC_DEGRADED p by simp),
    State.fecJudged_objs _ _ (show O.FEC_COUNTS p 2 ≠ O.FEC_DEGRADED p by simp),
    State.fecJudged_objs _ _ (show O.FEC_COUNTS p 3 ≠ O.FEC_DEGRADED p by simp),
    State.fecJudged_objs _ _ (show O.FEC_HISTOGRAM p ≠ O.FEC_DEGRADED p by simp)]
  refine ⟨hcount1, hcount2, fun hf1 => ⟨(hrs hf1).1, fun k => (hrs hf1).2 k k.isLt⟩, fun hf1 => ?_, fun hbad => ?_,
    fun hgood => ?_⟩
  · rw [← hv, hf1]
    exact ⟨(hbase 0).1, fun k => (hbase k).2⟩
  · have hj := State.fecJudged_bad (s := v) (p := p) (hlimit ▸ hbad)
    rw [hw.faults] at hj
    exact hj
  · have hj := State.fecJudged_good (s := v) (p := p) (hlimit ▸ hgood)
    rw [hw.faults, hport, hdegraded] at hj
    exact hj

end

end Sys2Proof.Machine

open Sys2Proof Sys2Proof.Machine

/-- Settles O31: a window's counts and its judgement each by the objects they write, the verification by its branches. -/
theorem fecStatisticsAndPreemptVerification : Obligations.FecStatisticsAndPreemptVerification := by
  unfold Obligations.FecStatisticsAndPreemptVerification
  intro s p bins unc sym h
  refine ⟨fun hp hf hlen => ?_, exec_fecDegradeWindow_fresh h, fun hup => ?_, fun hup => ?_, fun hup hst => ?_,
    fun hup hst hatt => ?_, fun hup hst hatt => ?_⟩
  · exact fecDegradeWindow_does h hp hf hlen
  · rw [exec_eq_ran exec_verifyRequestReceive h (if_pos hup), ran_emit_fresh h]
  · exact exec_eq_fresh exec_verifyRequestReceive h (if_neg (ne_true_of_eq_false hup))
  · exact exec_eq_ran exec_verifyResponseReceive h (if_pos ⟨hup, hst⟩)
  · refine exec_eq_ran exec_verifyTimeout h ((if_neg ?_).trans (if_pos hatt))
    simp [hup, hst]
  · refine exec_eq_ran exec_verifyTimeout h ((if_neg ?_).trans (if_neg (Nat.not_lt.2 hatt)))
    simp [hup, hst]

end

section
/-!
What a frame's arrival keeps of a port (R104, R107): the bytes that come in, the filter's verdict and a frame that fails change
neither what a port is nor what it receives, give out no frame number, and leave the counts of frames and octets received and
of records opened.
-/
-- One proof after another: a thread for each of so many small proofs needs more memory than the check has.
set_option Elab.async false

namespace Sys2Proof.Machine

/-- The counts of a frame's opening: frames and octets received, records opened. -/
abbrev RxCount (r : Ref) : Prop := (r.idx = 0x3021 ∧ r.sub ≤ 2) ∨ (r.idx = 0x9010 ∧ r.sub = 2)

/-- From `s` to `t` every port stays up or down and goes on receiving what it receives, the next frame number and the counts
of opened frames stay. -/
structure KeepsRx (s t : State) : Prop where
  up : ∀ p, (t.port p).up = (s.port p).up
  whole : ∀ p, (t.port p).rxWhole = (s.port p).rxWhole
  nextFid : t.buf.nextFid = s.buf.nextFid
  objs : ∀ r e, RxCount r → t.get r e = s.get r e

namespace KeepsRx

theorem refl (s : State) : KeepsRx s s := ⟨fun _ => rfl, fun _ => rfl, rfl, fun _ _ _ => rfl⟩

variable {s t u : State}

theorem ite {c : Prop} [Decidable c] (ht : KeepsRx s t) (hu : KeepsRx s u) : KeepsRx s (if c then t else u) := by
  split
  · exact ht
  · exact hu

theorem ite_snd {α : Type} {c : Prop} [Decidable c] {x y : α × State} (hx : KeepsRx s x.2) (hy : KeepsRx s y.2) :
    KeepsRx s (if c then x else y).2 := by
  split
  · exact hx
  · exact hy

section
variable (h : KeepsRx s t)
include h

theorem each {β : Type} {l : List β} {f : State → β → State} (hf : ∀ u x, KeepsRx s u → KeepsRx s (f u x)) :
    KeepsRx s (t.each l f) :=
  State.each_keeps (KeepsRx s) l f (fun u x _ => hf u x) t h

/-- A change of anything else. -/
theorem of_eq (hp : u.ports = t.ports := by rfl) (hb : u.buf.nextFid = t.buf.nextFid := by rfl)
    (hd : u.dict.objs = t.dict.objs := by rfl) : KeepsRx s u where
  up p := by simpa only [State.port, hp] using h.up p
  whole p := by simpa only [State.port, hp] using h.whole p
  nextFid := hb.trans h.nextFid
  objs r e hr := by simpa only [State.get, State.getK, hd] using h.objs r e hr

theorem set {r : Ref} {v e : Nat} (hr : ¬RxCount r := by simp) : KeepsRx s (t.set r v e) where
  up := h.up
  whole := h.whole
  nextFid := h.nextFid
  objs q e' hq := by
    have hne : q ≠ r := fun hqr => hr (hqr ▸ hq)
    rw [State.get_set_other t v e e' (.inl hne), h.objs q e' hq]

theorem count64 {r : Ref} {n e : Nat} (hr : ¬RxCount r := by simp) : KeepsRx s (t.count64 r n e) := h.set hr
theorem lower {r : Ref} {n e : Nat} (hr : ¬RxCount r := by simp) : KeepsRx s (t.lower r n e) := h.set hr
theorem higher {r : Ref} {n e : Nat} (hr : ¬RxCount r := by simp) : KeepsRx s (t.higher r n e) := h.set hr

/-- A port changes in anything but whether it is up and what it receives whole. -/
theorem putPort {p : Nat} {x : PortX} (hx : x.up = (t.port p).up := by rfl)
    (hy : x.rxWhole = (t.port p).rxWhole := by rfl) : KeepsRx s (t.putPort p x) := by
  refine ⟨fun q => ?_, fun q => ?_, h.nextFid, h.objs⟩
  · rw [← h.up]
    by_cases hpq : p = q
    · rw [← hpq, State.port_putPort, hx]
    · rw [State.port_putPort_other _ hpq]
  · rw [← h.whole]
    by_cases hpq : p = q
    · rw [← hpq, State.port_putPort, hy]
    · rw [State.port_putPort_other _ hpq]

theorem report {src unit : Nat} {d : List Byte} : KeepsRx s (t.report src unit d) := h.of_eq
theorem raise {n : Nat} : KeepsRx s (t.raise n) := h.of_eq
theorem draw {w : Nat} : KeepsRx s (t.draw w).2 := h.of_eq
theorem putPkt {p : Pkt} : KeepsRx s (t.putPkt p) := h.of_eq
theorem dropPkt {fid : Nat} : KeepsRx s (t.dropPkt fid) := h.of_eq
theorem putTile {n : Nat} {x : TileX} : KeepsRx s (t.putTile n x) := h.of_eq
theorem putStream {learn : Bool} {x : Stream} : KeepsRx s (t.putStream learn x) := h.of_eq

/-! ### Memory checks -/

theorem wordWrittenAs {ce ue v addr shown : Nat} : KeepsRx s (t.wordWrittenAs ce ue v addr shown) := by
  unfold State.wordWrittenAs
  extract_lets hit w
  have hw : KeepsRx s w := ite h h.of_eq
  split
  · exact hw
  · exact hw.of_eq

theorem storeWritten {addr shown : Nat} : KeepsRx s (t.storeWritten addr shown) := h.wordWrittenAs

theorem storeCheck {addr access : Nat} : KeepsRx s (t.storeCheck addr access).2 := by
  rw [State.storeCheck_eq]
  exact h.of_eq

theorem linkWritten {c : Option Nat} : KeepsRx s (t.linkWritten c) := by
  unfold State.linkWritten
  split
  · exact h.storeWritten
  · exact h

/-! ### The ledger (R287-R308) -/

theorem outcome {p : Pkt} {q code sent : Nat} {replica : Bool} : KeepsRx s (t.outcome p q code replica sent) := by
  have hmatrix : ∀ v : State, KeepsRx s v → ∀ port, KeepsRx s (v.matrixCount p port sent) := fun v hv port =>
    ite hv.count64 (hv.set (by split <;> simp))
  exact ite h.count64.count64 (ite (hmatrix _ h.count64.count64.count64.count64.set _)
    h.count64.count64.count64.count64.set)

theorem ipfixSend {template : Bool} : KeepsRx s (t.ipfixSend template) :=
  ite h (ite (count64 h.of_eq) h.of_eq)

theorem ipfixTake {b : List Byte} : KeepsRx s (t.ipfixTake b) :=
  ite h (ite h.count64 (ite (ipfixSend h.of_eq) h.of_eq))

theorem closeMsg {learn : Bool} : KeepsRx s (t.closeMsg learn) := ite h (ite h.putStream.count64 h.putStream)

theorem pushRec {learn : Bool} {b : List Byte} : KeepsRx s (t.pushRec learn b).2 :=
  ite_snd h.putStream (ite h.putStream.closeMsg h.putStream)

theorem exportFlow {f : FlowRec} {reason : Nat} : KeepsRx s (t.exportFlow f reason) :=
  ipfixTake (ite h.pushRec.count64 h.pushRec.count64.report)

theorem flowUpdate {p : Pkt} {code : Nat} : KeepsRx s (t.flowUpdate p code) := by
  unfold State.flowUpdate
  dsimp only
  split
  · exact h.set
  · split
    · exact h.set.count64
    · exact h.exportFlow.count64.set.count64

theorem toPostcard {p : Pkt} {b : List Byte} : KeepsRx s (t.toPostcard p b) := ite h.putTile h.putTile

theorem closeRecord {p : Pkt} {code : Nat} {last : Option Holder} : KeepsRx s (t.closeRecord p code last) := by
  unfold State.closeRecord
  extract_lets len
  split
  · exact h
  · extract_lets s1 s2 flow s3
    have h1 : KeepsRx s s1 := by
      unfold s1
      split
      · exact h.count64.count64.set
      · exact h.count64.count64
    have h3 : KeepsRx s s3 := ite h1.count64.flowUpdate h1.count64
    exact ite h1 (ite h3.toPostcard h3)

/-! ### The release of a holder (R45, R209, R213) -/

theorem unqueue {q fid tok : Nat} : KeepsRx s (t.unqueue q fid tok) := by
  have hread : KeepsRx s (t.entryRead fid tok) := by
    unfold State.entryRead
    split
    · exact h.storeCheck
    · exact h
  exact ite (higher hread.of_eq) h

theorem extCleared {p : Pkt} {tok : Nat} : KeepsRx s (t.extCleared p tok) := ite h.storeCheck.storeWritten h

theorem retire : KeepsRx s t.retire := by
  unfold State.retire
  refine ite h (each h.of_eq fun v g hv => ?_)
  exact hv.set.set.raise

theorem releaseTok {p : Pkt} {x : Holder} {code sent : Nat} : KeepsRx s (t.releaseTok p x code sent) := by
  unfold State.releaseTok
  extract_lets s1 s2 s3 s4 s5 f q
  have h3 : KeepsRx s s3 := h.unqueue.extCleared.outcome.lower
  have h4 : KeepsRx s s4 := ite h3.lower h3
  have h5 : KeepsRx s s5 := by
    unfold s5
    split
    iterate 4 exact h4.count64
    exact h4
  exact ite (retire (ite h5.closeRecord.dropPkt h5.closeRecord.putPkt)) h5.putPkt

theorem releaseAt {fid tok code sent : Nat} : KeepsRx s (t.releaseAt fid tok code sent) := by
  unfold State.releaseAt
  split
  · exact h
  · split
    · exact h
    · exact h.releaseTok

theorem releaseAll {fid code : Nat} : KeepsRx s (t.releaseAll fid code) := by
  unfold State.releaseAll
  split
  · exact h
  · exact h.each fun _ _ h1 => h1.releaseAt

/-! ### A frame fails (R20, R23, R108) -/

theorem recarve : KeepsRx s t.recarve := by
  unfold State.recarve
  extract_lets s1 d caps eff old s2 further b s3
  have h2 : KeepsRx s s2 := each h.set.set fun _ _ h1 => h1.set
  clear_value s2 d further
  have h3 : KeepsRx s s3 := h2.of_eq
  exact ite h3.report h3

theorem quarantine {c : Nat} : KeepsRx s (t.quarantine c) := by
  unfold State.quarantine
  extract_lets k b v
  have hv : KeepsRx s v := h.of_eq
  exact hv.set.recarve

theorem returnCells {cs : List Nat} : KeepsRx s (t.returnCells cs) := h.each fun u c hu => by
  unfold State.returnCell
  extract_lets k bad b v
  have hv : KeepsRx s v := hu.of_eq
  exact ite hv.of_eq (ite hv.quarantine hv)

theorem countFate {p : Pkt} {code : Nat} : KeepsRx s (t.countFate p code) := by
  unfold State.countFate
  split
  iterate 12 exact ite h.count64 h
  iterate 6 exact h.count64
  exact h

theorem arrivalSub {p : Pkt} {n : Nat} : KeepsRx s (t.arrivalSub p n) := by
  unfold State.arrivalSub
  split
  · exact h.set
  · exact h

theorem discardArrival {p : Pkt} {code : Nat} : KeepsRx s (t.discardArrival p code) := by
  have hparse : ∀ n x, KeepsRx s (t.parseEnd n p x) := fun n x =>
    ite h.count64.count64.count64.count64 h.count64.count64.count64.count64.set.count64
  unfold State.discardArrival
  refine dropPkt (of_eq (closeRecord (countFate (returnCells (arrivalSub ?_)))))
  split
  · exact hparse _ _
  · exact h

theorem failPacket {p : Pkt} {code : Nat} : KeepsRx s (t.failPacket p code) :=
  ite h (ite h.discardArrival (ite h.putPkt.countFate.releaseAll
    (each h.putPkt.countFate.putPkt fun _ _ h1 => h1.releaseAt)))

/-! ### Bytes arrive and are judged (R107, R124, R197) -/

theorem grantCell {x : Nat × State} (hx : t.grantCell = some x) : KeepsRx s x.2 := by
  unfold State.grantCell at hx
  split at hx
  · cases hx
  · split at hx
    · cases hx
    · cases hx
      exact wordWrittenAs h.of_eq

theorem grantFor {p : Pkt} {n : Nat} : KeepsRx s (t.grantFor p n).2.2 := by
  induction n generalizing t p with
  | zero => exact h
  | succ n ih =>
    unfold State.grantFor
    extract_lets limit
    split
    · exact h
    · split
      · exact h
      · rename_i hcell
        have hadd : ∀ v : State, KeepsRx s v → ∀ k : Pkt, KeepsRx s (v.arrivalAdd k 1) := fun v hv k => by
          unfold State.arrivalAdd
          split
          · exact hv.set
          · exact hv
        exact ih (putPkt (ite (h.grantCell hcell).linkWritten (hadd _ (h.grantCell hcell).linkWritten _)))

theorem arrive {fid : Nat} {bs : List Byte} : KeepsRx s (t.arrive fid bs) := by
  unfold State.arrive
  split
  · exact h
  · exact ite h.putPkt (ite h.putPkt.grantFor.putPkt h.putPkt.grantFor.putPkt.failPacket)

theorem filter {q : Nat} {b : List Byte} : KeepsRx s (t.filter q b).2.2 := by
  have htake : KeepsRx s (t.bcastTake q).2 := ite_snd h h.putPort
  unfold State.filter
  dsimp only
  split
  · exact h
  · split
    · exact htake
    · exact h

theorem runFilter {fid : Nat} : KeepsRx s (t.runFilter fid) := by
  unfold State.runFilter
  split
  · exact h
  · exact ite h (ite h.filter.putPkt h.filter.arrivalSub.returnCells.putPkt)

end
end KeepsRx
end Sys2Proof.Machine

end

section
/-!
Frames at a receive MAC (R104, R107, R108, R111, R118): how one opens, what its bytes and its end do.
-/
namespace Sys2Proof.Machine

/-! ### A frame opens (R107) -/

/-- The record of a frame that opens on port `q`, and the frame, without a byte yet. -/
def State.enrolled (s : State) (q : Nat) (pre : Bool) : State :=
  let t := q / 16
  (s.openRecord (.port q)).addPkt { Pkt.fresh s.buf.nextFid (.port q) t with
    pre := pre, dcIn := s.rxDc q, tsIn := s.rxTime q, stamps := s.rxStamps q, member := s.getT t (O.MEMBER_ID q),
    mono := s.getT t (O.TILE_PROFILE t) == 1 && !s.dispatchesPale t, pale := s.dispatchesPale t }

/-- The path that receives frame `fid` on port `q`. -/
def PortX.receiving (x : PortX) (pre : Bool) (fid : Nat) : PortX :=
  if pre then { x with rxPre := some fid, rxCount := 0 } else { x with rxWhole := some fid }

/-- A frame has opened on port `q`, with nothing of its bytes `bs` but their count. -/
def State.opened (s : State) (q : Nat) (pre : Bool) (bs : List Byte) : State :=
  let v := s.enrolled q pre
  ((v.putPort q ((v.port q).receiving pre s.buf.nextFid)).count64 (O.MAC_COUNTS q 1)).count64 (O.MAC_COUNTS q 2) bs.length

section
variable (s : State) (q : Nat) (pre : Bool) (bs : List Byte)

theorem State.openFrame_eq : s.openFrame q pre bs = ((s.opened q pre bs).arrive s.buf.nextFid bs).runFilter s.buf.nextFid :=
  (rfl)

theorem State.openFrame_keeps : KeepsRx (s.opened q pre bs) (s.openFrame q pre bs) := by
  rw [State.openFrame_eq]
  exact (KeepsRx.refl _).arrive.runFilter

theorem State.port_enrolled (p : Nat) : (s.enrolled q pre).port p = s.port p := (rfl)

theorem State.get_enrolled (r : Ref) (e : Nat) : (s.enrolled q pre).get r e =
    ((s.count64 (O.RECORDS_OPENED q)).count32 (O.RECORDS_OPEN q)).get r e := (rfl)

theorem State.nextFid_opened : (s.opened q pre bs).buf.nextFid = s.buf.nextFid + 1 := (rfl)

theorem State.port_opened : (s.opened q pre bs).port q = (s.port q).receiving pre s.buf.nextFid := by
  have hports : (s.opened q pre bs).ports =
      ((s.enrolled q pre).putPort q (((s.enrolled q pre).port q).receiving pre s.buf.nextFid)).ports := (rfl)
  rw [State.port, hports, ← s.port_enrolled q pre q]
  exact State.port_putPort ..

theorem State.get_opened (r : Ref) (e : Nat) : (s.opened q pre bs).get r e =
    (((s.enrolled q pre).count64 (O.MAC_COUNTS q 1)).count64 (O.MAC_COUNTS q 2) bs.length).get r e := (rfl)

/-- Opening counts the frame, its octets and its record. -/
theorem State.opened_counts : (s.opened q pre bs).get (O.MAC_COUNTS q 1) = (s.get (O.MAC_COUNTS q 1) + 1) % 2 ^ 64 ∧
    (s.opened q pre bs).get (O.MAC_COUNTS q 2) = (s.get (O.MAC_COUNTS q 2) + bs.length) % 2 ^ 64 ∧
    (s.opened q pre bs).get (O.RECORDS_OPENED q) = (s.get (O.RECORDS_OPENED q) + 1) % 2 ^ 64 := by
  have hmac : ∀ k, (s.enrolled q pre).get (O.MAC_COUNTS q k) = s.get (O.MAC_COUNTS q k) := fun k => by
    rw [State.get_enrolled, State.get_count32, if_neg (by simp), State.get_count64_other _ _ (.inl (by simp))]
  have hrec : (s.enrolled q pre).get (O.RECORDS_OPENED q) = (s.get (O.RECORDS_OPENED q) + 1) % 2 ^ 64 := by
    rw [State.get_enrolled, State.get_count32, if_neg (by simp), State.get_count64_same]
  simp only [State.get_opened]
  refine ⟨?_, ?_, ?_⟩
  · rw [State.get_count64_other _ _ (.inl (by simp)), State.get_count64_same, hmac]
  · rw [State.get_count64_same, State.get_count64_other _ _ (.inl (by simp)), hmac]
  · rw [State.get_count64_other _ _ (.inl (by simp)), State.get_count64_other _ _ (.inl (by simp)), hrec]

end

/-! ### A frame ends (R107, R108) -/

theorem State.linkWritten_eq (s : State) (c : Option Nat) :
    s.linkWritten c = { s with faults := (s.linkWritten c).faults } := by
  cases c with
  | none => rfl
  | some c => exact State.storeWritten_eq ..

/-- A packet put in place of one in the buffer is found there. -/
theorem State.pkt?_putPkt {s : State} {f : Nat} {q x : Pkt} (h : s.pkt? f = some q) (hx : x.fid = q.fid) :
    (s.putPkt x).pkt? f = some x := by
  have hfid : q.fid = f := beq_iff_eq.1 (List.find?_some (p := fun z : Pkt => z.fid == f) h)
  have hfind : ∀ l : List Pkt, l.find? (·.fid == f) = some q →
      (l.map fun z => if z.fid = x.fid then x else z).find? (·.fid == f) = some x := fun l => by
    induction l with
    | nil => intro hl; cases hl
    | cons z l ih =>
      intro hl
      rw [List.map_cons, List.find?_cons]
      by_cases hz : z.fid = f
      · rw [if_pos (by rw [hz, hx, hfid]), beq_iff_eq.2 (hx.trans hfid)]
      · rw [if_neg (by rw [hx, hfid]; exact hz), beq_eq_false_iff_ne.2 hz]
        rw [List.find?_cons, beq_eq_false_iff_ne.2 hz] at hl
        exact ih hl
  exact hfind _ h

theorem State.pkts_macControl (s : State) (q : Nat) (b : List Byte) : (s.macControl q b).buf = s.buf := by
  unfold State.macControl
  dsimp only
  split
  · rfl
  · split
    · rfl
    · split
      · exact State.each_keeps (fun t => t.buf = s.buf) _ _ (fun t k _ ht => by split <;> exact ht) s rfl
      · rfl

theorem State.runFilter_idle {s : State} {f : Nat} {q : Pkt} (h : s.pkt? f = some q)
    (hf : q.filtered = true ∨ isMacControl q.bytes = true) : s.runFilter f = s := by
  simp only [State.runFilter, h]
  refine if_pos ?_
  rcases hf with hf | hf <;> simp [hf]

theorem State.correctAll_idle {s : State} {f : Nat} {q : Pkt} (h : s.pkt? f = some q) (hp : q.policed = none)
    (he : q.enq = false) : s.correctAll f = s := by
  simp only [State.correctAll, h, hp, he, Bool.not_false, if_true]

section
variable {t w : State} {f c : Nat} {q k : Pkt} {pre err : Bool} (hq : t.pkt? f = some q)
  (hk : k = { q with ended := true }) (hw : w = (t.linkWritten q.cells.getLast?).putPkt k)
include hq hk hw

/-- The frame stands ended in the buffer. -/
theorem State.pkt?_ended : w.pkt? f = some k := by
  have hlink : (t.linkWritten q.cells.getLast?).pkt? f = some q := by
    rw [State.linkWritten_eq]
    exact hq
  rw [hw]
  exact State.pkt?_putPkt hlink (by rw [hk])

omit hq in
/-- Its code is the one it had when its last byte came. -/
theorem State.frameCode_ended : w.frameCode k pre err = t.frameCode q pre err := by
  rw [hw, hk, State.linkWritten_eq]
  rfl

variable (he : k.enq = false) (hp : k.policed = none) (hph : k.phase ≠ .returning)
  (hf : k.filtered = true ∨ isMacControl k.bytes = true) (hc : c = t.frameCode q pre err)
include he hp hph hf hc

/-- The end of a frame not yet enqueued and with nothing left to filter: its code discards it, or it stands. -/
theorem State.endFrame_eq : t.endFrame f pre err = if c = 0 then w else
    (if c = 0x0A then w.macControl k.inPort k.bytes else w).discardArrival
      { k with fcsBad := c == 0x05 || c == 0x0D } c := by
  have hended := State.pkt?_ended hq hk hw
  have hidle : w.runFilter f = w := State.runFilter_idle hended hf
  have hmac : (if c = 0x0A then w.macControl k.inPort k.bytes else w).pkt? f = some k := by
    split
    · rw [State.pkt?, State.pkts_macControl]
      exact hended
    · exact hended
  have hcorrect := State.correctAll_idle hmac hp he
  rw [State.endFrame, hq]
  dsimp only
  rw [← hk, ← hw, hidle, hended]
  dsimp only
  rw [State.frameCode_ended hk hw, ← hc, hcorrect, hmac]
  by_cases hz : c = 0
  · subst hz
    rfl
  · simp [hz, State.failPacket, hph, he]

end

/-! ### What the receive MAC does with a frame (R104, R107, R118) -/

section
variable {s : State} {p : Port} {bytes : List Byte} (h : Runs s)
include h

theorem exec_frameReceive_closed (m : Smd) (ho : s.macOpen p = false) :
    exec (.frameReceive p m bytes) s = .next (fresh s) :=
  exec_eq_fresh exec_frameReceive h (if_pos (congrArg not ho))

variable (ho : s.macOpen p = true)
include ho

omit h in
/-- A port with an open MAC takes what comes. -/
theorem State.receives : ¬(!(fresh s).macOpen p) = true := ne_true_of_eq_false (congrArg not ho)

/-- A start delimiter opens a frame. -/
theorem exec_frameReceive_opens (hn : (s.port p).rxWhole = none) :
    exec (.frameReceive p .whole bytes) s = .next (ran s ((fresh s).openFrame p false bytes)) :=
  exec_eq_ran exec_frameReceive h ((if_neg (State.receives ho)).trans (if_neg (by rw [fresh_port, hn]; decide)))

theorem frameReceive_opens (hn : (s.port p).rxWhole = none) :
    Does (.frameReceive p .whole bytes) s fun u => u.buf.nextFid = s.buf.nextFid + 1 ∧
      (u.port p).rxWhole = some s.buf.nextFid ∧
      u.get (O.MAC_COUNTS p 1) = (s.get (O.MAC_COUNTS p 1) + 1) % 2 ^ 64 ∧
      u.get (O.MAC_COUNTS p 2) = (s.get (O.MAC_COUNTS p 2) + bytes.length) % 2 ^ 64 ∧
      u.get (O.RECORDS_OPENED p) = (s.get (O.RECORDS_OPENED p) + 1) % 2 ^ 64 := by
  refine ⟨_, exec_frameReceive_opens h ho hn, ?_⟩
  obtain ⟨-, hwhole, hfid, hobjs⟩ := (fresh s).openFrame_keeps p false bytes
  obtain ⟨hframes, hoctets, hrecords⟩ := (fresh s).opened_counts p false bytes
  have hport := (fresh s).port_opened p false bytes
  generalize (fresh s).openFrame p false bytes = u at hwhole hfid hobjs ⊢
  exact ⟨hfid.trans ((fresh s).nextFid_opened p false bytes), (hwhole p).trans (by rw [hport]; rfl),
    (hobjs _ 0 (.inl ⟨rfl, one_le_two⟩)).trans hframes,
    (hobjs _ 0 (.inl ⟨rfl, le_rfl⟩)).trans hoctets, (hobjs _ 0 (.inr ⟨rfl, rfl⟩)).trans hrecords⟩

end

section
variable {s t u : State} {p : Port} {pre : Bool} {bytes : List Byte} {err : Bool} (h : Runs s)
include h

/-- An end without a frame does nothing. -/
theorem exec_frameReceiveEnd_idle (hn : (if pre then (s.port p).rxPre else (s.port p).rxWhole) = none) :
    exec (.frameReceiveEnd p pre bytes err) s = .next (fresh s) := by
  refine exec_eq_fresh exec_frameReceiveEnd h ?_
  have hn' : (if pre then ((fresh s).port p).rxPre else ((fresh s).port p).rxWhole) = none := hn
  simp only [hn']

/-- The end of a frame that was whole in the buffer. -/
theorem exec_frameReceiveEnd_ran {f : Nat} {q : Pkt}
    (hf : (if pre then (s.port p).rxPre else (s.port p).rxWhole) = some f)
    (ht : t = ((fresh s).putPort p (if pre then { s.port p with rxPre := none, rxCount := 0 }
      else { s.port p with rxWhole := none })).moreBytes p (some f) bytes)
    (hq : t.pkt? f = some q) (hph : q.phase ≠ .returning) (hu : t.endFrame f pre err = u) :
    exec (.frameReceiveEnd p pre bytes err) s = .next (ran s
      (if pre = true ∧ (s.port p).rxCount ≠ 0 ∧ (u.pkt? f).any (·.spoilt == 0) = true
        then u.count64 (O.PREEMPT_COUNTS p 4) else u).postcardsDue) := by
  refine exec_eq_ran exec_frameReceiveEnd h ?_
  have hf' : (if pre then ((fresh s).port p).rxPre else ((fresh s).port p).rxWhole) = some f := hf
  have ht' : ((fresh s).putPort p (if pre then { (fresh s).port p with rxPre := none, rxCount := 0 }
      else { (fresh s).port p with rxWhole := none })).moreBytes p (some f) bytes = t := ht.symm
  simp only [hf', ht', hq, hu]
  refine congrArg State.postcardsDue (if_congr ?_ rfl rfl)
  rcases u.pkt? f with _ | x <;> simp [hph, and_assoc]

end

end Sys2Proof.Machine

open Sys2Proof Sys2Proof.Machine

/-- Settles O32: a frame's opening by what the arrival of its bytes keeps, its continuations by the cases of the reassembly,
its end by the code of R107's table. -/
theorem framesArriveAtAPort : Obligations.FramesArriveAtAPort := by
  unfold Obligations.FramesArriveAtAPort
  intro s p k bytes err h
  refine ⟨fun ho hn => ⟨exec_frameReceive_opens h ho hn, frameReceive_opens h ho hn⟩, fun ho hs => ?_,
    fun ho m => exec_frameReceive_closed h m ho, fun ho hs => ?_, fun ho hn => ⟨?_, ?_⟩, fun f ho hs hk => ?_,
    fun f ho hs hk => ?_, fun pre hn => exec_frameReceiveEnd_idle h hn,
    fun pre f t q c u hs ht hq he hp hph hfil hc hc' hu => ?_⟩
  · exact exec_eq_fresh exec_frameReceive h ((if_neg (State.receives ho)).trans (if_pos hs))
  · refine exec_eq_ran exec_frameReceive h ((if_neg (State.receives ho)).trans ?_)
    exact congrArg (fun v : State => (v.openFrame p true bytes).postcardsDue) (if_pos hs)
  · refine exec_eq_ran exec_frameReceive h ((if_neg (State.receives ho)).trans ?_)
    exact congrArg (fun v : State => (v.openFrame p true bytes).postcardsDue) (if_neg (by rw [fresh_port, hn]; decide))
  · refine exec_eq_ran exec_frameReceive h ((if_neg (State.receives ho)).trans ?_)
    simp only [fresh_port, hn]
  · refine exec_eq_ran exec_frameReceive h ((if_neg (State.receives ho)).trans ?_)
    simp only [fresh_port, hs, hk, ne_eq, not_false_eq_true, if_true, State.moreBytes]
  · refine exec_eq_ran exec_frameReceive h ((if_neg (State.receives ho)).trans ?_)
    simp only [fresh_port, hs, hk, ne_eq, not_true_eq_false, if_false, State.moreBytes]
  · refine exec_frameReceiveEnd_ran h hs ht hq hph ?_
    rw [State.endFrame_eq hq rfl rfl he hp hph (.inl hfil) hc, if_neg hc', hu]

end

section
/-!
Pause and priority flow control at a port (R107, R111-R114): MAC control frames, the end of a pause, repetition and the
watchdog.
-/
namespace Sys2Proof.Machine

/-! ### MAC control frames (R111, R112) -/

/-- In mode 1 a pause frame on a port that is UP counts and pauses the port. -/
theorem State.macControl_pause {s : State} {q : Nat} {b : List Byte} (hup : (s.port q).up = true)
    (hmode : s.get (O.FLOW_CTRL q) = 1) (hop : beAt b 14 2 = 0x0001) :
    s.macControl q b = (s.count64 (O.PAUSE_COUNTS q 1)).setPause q 8 (beAt b 16 2) := by
  simp only [State.macControl, hup, hmode, hop, Bool.not_true, Bool.false_eq_true, if_false, and_self, if_true]

section
variable {s t w : State} {p : Port} {q : Pkt} {bytes : List Byte} (h : Runs s)
  (ht : t = ((fresh s).openFrame p false bytes).modPort p fun x => { x with rxWhole := none })
include ht

/-- A frame that opens leaves its port UP. -/
theorem State.up_opened : (t.port p).up = (s.port p).up := by
  have hup := ((fresh s).openFrame_keeps p false bytes).up p
  rw [State.port_opened] at hup
  rw [ht, State.modPort, State.port_putPort]
  exact hup

variable (ho : s.macOpen p = true) (hn : (s.port p).rxWhole = none) (hq : t.pkt? s.buf.nextFid = some q)
  (hb : q.bytes = bytes) (hs : q.src = .port p.val) (he : q.enq = false) (hpol : q.policed = none)
  (hph : q.phase ≠ .returning) (hmac : isMacControl bytes = true) (hc : t.frameCode q false false = 0x0A)
  (hw : w = (t.linkWritten q.cells.getLast?).putPkt { q with ended := true })
include h ho hn hq hb hs he hpol hph hmac hc hw

/-- A complete MAC control frame does what it says and is consumed. -/
theorem exec_pauseFrameReceive_consumes : exec (.pauseFrameReceive p bytes) s = .next (ran s ((w.macControl p
    bytes).discardArrival { q with ended := true, fcsBad := false } 0x0A)) := by
  have hin : ({ q with ended := true } : Pkt).inPort = p.val := by rw [Pkt.inPort, hs]
  have hgo : ¬(!(fresh s).macOpen p || ((fresh s).port p).rxWhole.isSome) = true := by
    rw [show (fresh s).macOpen p = true from ho, fresh_port, hn]
    decide
  refine exec_eq_ran exec_pauseFrameReceive h ((if_neg hgo).trans ?_)
  have hend := State.endFrame_eq (pre := false) (err := false) hq rfl hw he hpol hph (.inr (hb.symm ▸ hmac)) hc.symm
  rw [hin] at hend
  refine (congrArg (fun v : State => v.endFrame s.buf.nextFid false false) ht.symm).trans (hend.trans ?_)
  subst hb
  rfl

/-- In mode 1 a pause frame starts, or ends, the port's pause. -/
theorem exec_pauseFrameReceive_pauses (hup : (s.port p).up = true) (hmode : t.get (O.FLOW_CTRL p) = 1)
    (hop : beAt bytes 14 2 = 0x0001) : exec (.pauseFrameReceive p bytes) s = .next (ran s
      (((w.count64 (O.PAUSE_COUNTS p 1)).setPause p 8 (beAt bytes 16 2)).discardArrival
        { q with ended := true, fcsBad := false } 0x0A)) := by
  have hupw : (w.port p).up = true := by
    rw [hw, State.linkWritten_eq, ← hup, ← State.up_opened ht]
    rfl
  have hmodew : w.get (O.FLOW_CTRL p) = 1 := by
    rw [hw, State.linkWritten_eq, ← hmode]
    rfl
  rw [exec_pauseFrameReceive_consumes h ht ho hn hq hb hs he hpol hph hmac hc hw,
    State.macControl_pause hupw hmodew hop]

end

/-! ### The end of a pause (R112) -/

theorem State.port_ran (s u : State) (p : Nat) : (ran s u).port p = u.port p := rfl

theorem State.port_showPause (s : State) (q p : Nat) : (s.showPause q).port p = s.port p := rfl

theorem State.get_showPause (s : State) (q : Nat) {r : Ref} (e : Nat) (hr : r ≠ O.PAUSED_NOW q) :
    (s.showPause q).get r e = s.get r e := State.get_set_other _ _ _ _ (.inl hr)

section
variable {s : State} {p : Port} {prio : Fin 8} (h : Runs s)
include h

theorem exec_pauseExpire_ran {k : Nat} (hk : k = if s.get (O.FLOW_CTRL p) = 1 then 8 else prio.val) :
    exec (.pauseExpire p prio) s =
      .next (ran s (((fresh s).putPort p { s.port p with paused := del k (s.port p).paused }).showPause p)) := by
  subst hk
  exact exec_eq_ran exec_pauseExpire h rfl

theorem pauseExpire_ends {k : Nat} (hk : k = if s.get (O.FLOW_CTRL p) = 1 then 8 else prio.val) :
    Does (.pauseExpire p prio) s fun u => (∀ e ∈ (u.port p).paused, e.1 ≠ k) ∧
      ∀ r e, r ≠ O.PAUSED_NOW p → u.get r e = s.get r e := by
  refine ⟨_, exec_pauseExpire_ran h hk, fun e he => ?_, fun r e hr => State.get_showPause _ _ e hr⟩
  rw [State.port_ran, State.port_showPause, State.port_putPort] at he
  simpa using (List.mem_filter.1 he).2

end

/-! ### Repetition (R113) -/

section
variable {s : State} {i cls quanta : Nat}

theorem State.sendPause_down (h : (s.port i).up = false) : s.sendPause i cls quanta = s := if_pos (congrArg not h)

variable (h : (s.port i).up = true)
include h

theorem State.sendPause_pause (hm : s.get (O.FLOW_CTRL i) = 1) : s.sendPause i cls quanta =
    ((s.count64 (O.MAC_COUNTS i 10)).count64 (O.PAUSE_COUNTS i 2)).emit
      (.wire i (pauseFrame (s.get (O.PORT_MAC i)) 1 (beBytes 2 quanta))) := by
  have hm' : (s.count64 (O.MAC_COUNTS i 10)).get (O.FLOW_CTRL i) = 1 := by
    rw [State.get_count64_other _ _ (.inl (by simp)), hm]
  simp only [State.sendPause, h, hm', Bool.not_true, Bool.false_eq_true, if_false, if_true]

theorem State.sendPause_pfc (hm : s.get (O.FLOW_CTRL i) = 2) : s.sendPause i cls quanta =
    ((s.count64 (O.MAC_COUNTS i 10)).count64 (O.PFC_COUNTS i 4) 1 (s.classPrio i cls)).emit
      (.wire i (pauseFrame (s.get (O.PORT_MAC i)) 0x0101 (beBytes 2 (2 ^ s.classPrio i cls) ++
        (List.range 8).flatMap fun k => beBytes 2 (if k = s.classPrio i cls then quanta else 0)))) := by
  have hm' : (s.count64 (O.MAC_COUNTS i 10)).get (O.FLOW_CTRL i) = 2 := by
    rw [State.get_count64_other _ _ (.inl (by simp)), hm]
  have hprio : (s.count64 (O.MAC_COUNTS i 10)).classPrio i cls = s.classPrio i cls := by
    rw [State.classPrio, State.classPrio, State.get_count64_other _ _ (.inl (by simp))]
  simp only [State.sendPause, h, hm', hprio, Bool.not_true, Bool.false_eq_true, if_false, OfNat.ofNat_ne_one]

end

section
variable {s : State} {p : Port} {high : Bool} {c : Nat} (h : Runs s) (hc : c = if high then 2 else 1)
include h hc

/-- A class that is not live or no longer over XOFF repeats nothing, nor does a port that is down. -/
theorem exec_pfcRepeat_silent
    (hn : (s.port p).up = false ∨ s.classLive p c = false ∨ (s.port p).xoff.contains c = false) :
    exec (.pfcRepeat p high) s = .next (fresh s) := by
  subst hc
  refine exec_eq_fresh exec_pfcRepeat h ?_
  rcases hn with hup | hlive | hxoff
  · have hdown : ((fresh s).port p).up = false := hup
    simp only [State.sendPause_down hdown, ite_self]
  · exact if_neg (ne_true_of_eq_false (Bool.and_eq_false_iff.2 (.inl hlive)))
  · exact if_neg (ne_true_of_eq_false (Bool.and_eq_false_iff.2 (.inr hxoff)))

variable (hx : (s.port p).xoff.contains c = true)
include hx

theorem exec_pfcRepeat_sends (hl : s.classLive p c = true) {u : State}
    (hu : (fresh s).sendPause p c (s.get (O.XOFF_QUANTA p)) = u) : exec (.pfcRepeat p high) s = .next (ran s u) := by
  subst hc hu
  exact exec_eq_ran exec_pfcRepeat h (if_pos (Bool.and_eq_true_iff.2 ⟨hl, hx⟩))

variable (hup : (s.port p).up = true)
include hup

/-- In mode 1 the class repeats its pause frame. -/
theorem exec_pfcRepeat_pause (hm : s.get (O.FLOW_CTRL p) = 1) (h1 : c = 1) :
    exec (.pfcRepeat p high) s = .next (ran s ((((fresh s).count64 (O.MAC_COUNTS p 10)).count64
      (O.PAUSE_COUNTS p 2)).emit (.wire p (pauseFrame (s.get (O.PORT_MAC p)) 1
        (beBytes 2 (s.get (O.XOFF_QUANTA p))))))) :=
  exec_pfcRepeat_sends h hc hx (by simp [State.classLive, hm, h1]) (State.sendPause_pause (s := fresh s) hup hm)

/-- In mode 2 it repeats the PFC frame of its priority. -/
theorem pfcRepeat_pfc (hm : s.get (O.FLOW_CTRL p) = 2) (hle : c ≤ popcount (s.get (O.PFC_PRIORITIES p)) 8) :
    Does (.pfcRepeat p high) s fun u =>
      u.out = [.wire p (pauseFrame (s.get (O.PORT_MAC p)) 0x0101 (beBytes 2 (2 ^ s.classPrio p c) ++
        (List.range 8).flatMap fun k =>
          beBytes 2 (if k = s.classPrio p c then s.get (O.XOFF_QUANTA p) else 0)))] ∧
      u.get (O.MAC_COUNTS p 10) = (s.get (O.MAC_COUNTS p 10) + 1) % 2 ^ 64 ∧
      u.get (O.PFC_COUNTS p 4) (s.classPrio p c) = (s.get (O.PFC_COUNTS p 4) (s.classPrio p c) + 1) % 2 ^ 64 ∧
      ∀ r e, r ≠ O.MAC_COUNTS p 10 → r ≠ O.PFC_COUNTS p 4 → u.get r e = s.get r e := by
  have hpos : 0 < c := by rw [hc]; split <;> decide
  have hl : s.classLive p c = true := by simp [State.classLive, hm, hpos, hle]
  have hget : ∀ r e, (((fresh s).count64 (O.MAC_COUNTS p 10)).count64 (O.PFC_COUNTS p 4) 1 (s.classPrio p c)).get r e =
      ((s.count64 (O.MAC_COUNTS p 10)).count64 (O.PFC_COUNTS p 4) 1 (s.classPrio p c)).get r e := fun _ _ => rfl
  refine ⟨_, exec_pfcRepeat_sends h hc hx hl (State.sendPause_pfc (s := fresh s) hup hm), rfl, ?_, ?_,
    fun r e h1 h2 => ?_⟩
  · refine (hget _ _).trans ?_
    rw [State.get_count64_other _ _ (.inl (by simp)), State.get_count64_same]
  · refine (hget _ _).trans ?_
    rw [State.get_count64_same, State.get_count64_other _ _ (.inl (by simp))]
  · refine (hget _ _).trans ?_
    rw [State.get_count64_other _ _ (.inl h2), State.get_count64_other _ _ (.inl h1)]

end

end Sys2Proof.Machine

open Sys2Proof Sys2Proof.Machine

/-- Settles O30: a control frame by what the end of a frame and the arrival of its bytes do, the rest by the commands' own
branches. -/
theorem pauseAndPriorityFlowControl : Obligations.PauseAndPriorityFlowControl := by
  unfold Obligations.PauseAndPriorityFlowControl
  intro s p prio high bytes h
  refine ⟨fun t q ht ho hn hq hb hs he hpol hph hmac hc w hw =>
      ⟨exec_pauseFrameReceive_consumes h ht ho hn hq hb hs he hpol hph hmac hc hw,
        exec_pauseFrameReceive_pauses h ht ho hn hq hb hs he hpol hph hmac hc hw⟩,
    fun k hk => ⟨exec_pauseExpire_ran h hk, pauseExpire_ends h hk⟩,
    fun c hc => ⟨fun hup hm hle hx => pfcRepeat_pfc h hc hx hup hm hle,
      fun hup hm h1 hx => exec_pfcRepeat_pause h hc hx hup hm h1, exec_pfcRepeat_silent h hc⟩,
    fun hw hm hp => ?_, fun hw => exec_eq_fresh exec_pfcWatchdogTrip h (if_pos (.inl hw)),
    exec_eq_ran exec_pfcRecoverExpire h rfl⟩
  refine exec_eq_ran exec_pfcWatchdogTrip h (if_neg ?_)
  rintro (hzero | hmode | hidle)
  · exact hw hzero
  · exact hmode hm
  · rw [fresh_port, hp] at hidle
    cases hidle

end

section
/-!
What an Ochre core does with an instruction that it issues (R137-R141): one rule for each outcome, a change of the core at a
charge, a stall, a wait, an exception and a charge that reaches the budget; and the statements on the instructions that
write one word.
-/
namespace Sys2Proof.Machine

/-! ### Issue (R139, R140) -/

section
variable {s : State} {t : Tile} {c : Core} {i : Instr} {x : CoreX} {p : Pkt} {f : State → Pkt → CoreX → Issue}

/-- A step of one core leaves the device running. -/
theorem ran_coreStep (h : Runs s) (t : Tile) (c : Core) (p : Pkt) (y : CoreX) :
    ran s (coreStep s t c p y) = coreStep s t c p y := ran_eq rfl h

/-- An instruction that issues is carried out: its word reads clean and decodes to it. -/
theorem State.issue_carry (h : Issues s t c i x p) (g : Pkt → CoreX → Issue) :
    (fresh s).issue t c i g = (fresh s).carry t c p x (g p x) := by
  obtain ⟨-, hcore, hpkt, hready, hlen, hclean, hword⟩ := h
  have hcore' : (fresh s).core? t c = some x := hcore
  have hpkt' : (fresh s).pkt? x.fid = some p := hpkt
  have hlen' : ¬ (fresh s).getP p.applied (O.PROGRAM_LENGTH t) ≤ x.pc := Nat.not_le.2 hlen
  have hread := State.readWord_clean (s := fresh s) hclean (0x240 + t) (unitId 2 t) (unitId 2 t) 1
  have hword' : ochreDecode t c ((fresh s).get (O.PROGRAM t) x.pc) = some i := hword
  simp only [State.issue, hcore', hpkt', hready, hlen', hread, hword', Bool.not_true, Bool.false_eq_true, if_false,
    if_true]

variable (e : exec i s = live s fun s => s.issue t c i (f s))
include e

/-- What an instruction that issues does, from what carrying it out leaves. -/
theorem exec_of_carry {u : State} (h : Issues s t c i x p) (hu : (fresh s).carry t c p x (f (fresh s) p x) = u) :
    exec i s = .next (ran s u) :=
  exec_eq_ran e h.1 ((State.issue_carry h _).trans hu)

/-- The core and its packet's context change at a charge that the budget affords, and the effect outside them follows. -/
theorem exec_of_ok_effect {y : CoreX} {ctx : List Byte} {cost : Nat} {fx : State → State}
    (h : Affords s t c i x p cost) (hf : f (fresh s) p x = .ok y ctx cost fx) :
    exec i s = .next (ran s (fx (coreStep s t c { p with ctx := ctx } { y with charged := x.charged + cost }))) := by
  obtain ⟨hi, hb⟩ := h
  have hb' : ¬ (fresh s).budget t p ≤ x.charged + cost := Nat.not_le.2 hb
  refine exec_of_carry e hi ?_
  simp only [hf, State.carry, if_neg hb', coreStep]

/-- The same without an effect outside: nothing else changes. -/
theorem exec_of_ok {y : CoreX} {ctx : List Byte} {cost : Nat} (h : Affords s t c i x p cost)
    (hf : f (fresh s) p x = .ok y ctx cost id) :
    exec i s = .next (coreStep s t c { p with ctx := ctx } { y with charged := x.charged + cost }) :=
  (exec_of_ok_effect e h hf).trans (congrArg Host.Outcome.next (ran_coreStep h.1.1 ..))

/-- An instruction that writes one word. -/
theorem exec_of_wr {d : WReg} {v cost : Nat} (h : Affords s t c i x p cost) (hf : f (fresh s) p x = wr p x d v cost) :
    exec i s = .next (coreStep s t c p (wrote x d v cost)) :=
  exec_of_ok e h hf

/-- A charge that reaches the budget stops the core, and the instruction writes nothing (R141). -/
theorem exec_of_overrun {y : CoreX} {ctx : List Byte} {cost : Nat} {fx : State → State} (h : Issues s t c i x p)
    (hb : s.budget t p ≤ x.charged + cost) (hf : f (fresh s) p x = .ok y ctx cost fx) :
    exec i s = .next (ran s ((fresh s).putCore t c
      { x with charged := s.budget t p, overrun := true, scan := none })) := by
  have hb' : (fresh s).budget t p ≤ x.charged + cost := hb
  refine exec_of_carry e h ?_
  simp only [hf, State.carry, if_pos hb']
  rfl

/-- An instruction whose bytes have not arrived stalls its core and does not issue (R138). -/
theorem exec_of_wait (h : Issues s t c i x p) (hf : f (fresh s) p x = .wait) :
    exec i s = .next (ran s ((fresh s).putCore t c { x with stalled := true })) :=
  exec_of_carry e h (by rw [hf, State.carry])

/-- An instruction that waits for its scan changes nothing. -/
theorem exec_of_hold (h : Issues s t c i x p) (hf : f (fresh s) p x = .hold) : exec i s = .next (fresh s) :=
  exec_eq_fresh e h.1 ((State.issue_carry h _).trans (by rw [hf, State.carry]))

/-- An exception ends the packet (R137). -/
theorem exec_of_exc {k : Nat} (h : Issues s t c i x p) (hf : f (fresh s) p x = .exc k) :
    exec i s = .next (ran s ((fresh s).exception t c p x k)) :=
  exec_of_carry e h (by rw [hf, State.carry])

end

/-! ### Shifts (R132, R135) -/

/-- A word that is cut to 32 bits before it is written is written the same. -/
theorem wr_mod (p : Pkt) (x : CoreX) (d : WReg) (v cost : Nat) : wr p x d (v % 2 ^ 32) cost = wr p x d v cost := by
  simp only [wr, CoreX.setReg, Nat.mod_mod]

/-- SHL writes the shifted word. -/
theorem wr_shlW (p : Pkt) (x : CoreX) (d : WReg) (a n cost : Nat) :
    wr p x d (shlW a n) cost = wr p x d (a * 2 ^ (n % 32)) cost := wr_mod p x d _ cost

/-- A shift amount of five bits is the amount. -/
theorem shlW_ofFive (a : Nat) (n : BitVec 5) : shlW a n.toNat = a * 2 ^ n.toNat % 2 ^ 32 := by
  rw [shlW, Nat.mod_eq_of_lt n.isLt]

theorem shrW_ofFive (a : Nat) (n : BitVec 5) : shrW a n.toNat = a / 2 ^ n.toNat := by
  rw [shrW, Nat.mod_eq_of_lt n.isLt]

end Sys2Proof.Machine

open Sys2Proof Sys2Proof.Machine

/-- Settles O5: each of the seven issues, and writes one word at a charge of one cycle. -/
theorem registerArithmeticWritesItsWord : Obligations.RegisterArithmeticWritesItsWord := by
  intro s t c d a b x p
  exact ⟨fun h => exec_of_wr exec_add h rfl, fun h => exec_of_wr exec_sub h rfl, fun h => exec_of_wr exec_and h rfl,
    fun h => exec_of_wr exec_or h rfl, fun h => exec_of_wr exec_xor h rfl,
    fun h => exec_of_wr exec_shl h (wr_shlW p x d (x.reg a) (x.reg b) 1), fun h => exec_of_wr exec_shr h rfl⟩

/-- Settles O6: NOP only advances, the others write one word at a charge of one cycle. -/
theorem immediateInstructionsWriteTheirWord : Obligations.ImmediateInstructionsWriteTheirWord := by
  intro s t c d a imm n len x p
  refine ⟨fun h => exec_of_ok exec_nop h rfl, fun h => exec_of_wr exec_movi h rfl,
    fun h => exec_of_wr exec_movhi h rfl, fun h => exec_of_wr exec_addi h rfl, fun h => exec_of_wr exec_andi h rfl,
    fun h => exec_of_wr exec_ori h rfl, fun h => exec_of_wr exec_xori h rfl, fun h => exec_of_wr exec_shli h ?_,
    fun h => exec_of_wr exec_shri h ?_, fun h => exec_of_wr exec_ext h rfl⟩
  · rw [shlW_ofFive, wr_mod]
  · rw [shrW_ofFive]

end

section
/-!
Comparisons, branches and the stack (R135-R138); window and context accesses (R131, R133); special values (R136) and the
hash instructions (R151).
-/
namespace Sys2Proof.Machine

/-! ### Branches (R136) -/

/-- The conditions of Bcc, in the order of their codes. -/
def CoreX.conditions (x : CoreX) : List Bool :=
  [true, x.z, !x.z, x.c, !x.c, x.c || x.z, !(x.c || x.z), x.f, !x.f, x.a, !x.a]

/-- Whether a branch is taken is its condition's entry. -/
theorem CoreX.conditions_getElem? (x : CoreX) (cond : CondCode) : x.conditions[cond.val]? = some (x.holds cond) := by
  fin_cases cond <;> rfl

section
variable {s : State} {t : Tile} {c : Core} {cond : CondCode} {tgt : BitVec 14} {x : CoreX} {p : Pkt}

theorem exec_bcc_taken (h : Affords s t c (.bcc t c cond tgt) x p 2) (hc : x.holds cond = true) :
    exec (.bcc t c cond tgt) s = .next (coreStep s t c p (passed x tgt.toNat 2)) :=
  exec_of_ok exec_bcc h (if_pos hc)

theorem exec_bcc_passed (h : Affords s t c (.bcc t c cond tgt) x p 1) (hc : ¬ x.holds cond = true) :
    exec (.bcc t c cond tgt) s = .next (coreStep s t c p (passed x ((x.pc + 1) % 2 ^ 14) 1)) :=
  exec_of_ok exec_bcc h (if_neg hc)

end

/-! ### Window loads (R131, R133) -/

/-- The big-endian number of `n` bytes that `v` gives, from byte `i`. -/
def bigEndian (v : Nat → Nat) (i : Nat) : Nat → Nat
  | 0 => 0
  | n + 1 => v i * 256 ^ n + bigEndian v (i + 1) n

theorem bigEndian_one (v : Nat → Nat) (i : Nat) : bigEndian v i 1 = v i := by simp [bigEndian]

theorem bigEndian_two (v : Nat → Nat) (i : Nat) : bigEndian v i 2 = v i * 256 + v (i + 1) := by simp [bigEndian]

theorem bigEndian_four (v : Nat → Nat) (i : Nat) :
    bigEndian v i 4 = ((v i * 256 + v (i + 1)) * 256 + v (i + 2)) * 256 + v (i + 3) := by
  simp only [bigEndian]
  ring

/-- Bytes that are all there read as their big-endian number. -/
theorem readBytes_all {rd : Nat → Option Nat} {v : Nat → Nat} (n : Nat) {i : Nat}
    (h : ∀ j, i ≤ j → j < i + n → rd j = some (v j)) : readBytes rd i n = some (bigEndian v i n) := by
  induction n generalizing i with
  | zero => rfl
  | succ n ih =>
    have hrest := ih (i := i + 1) fun j h1 h2 => h j (by omega) (by omega)
    simp [readBytes, bigEndian, h i le_rfl (by omega), hrest]

/-- A byte that is missing keeps all of them from being read. -/
theorem readBytes_missing {rd : Nat → Option Nat} {j : Nat} (hj : rd j = none) (n : Nat) {i : Nat} (h1 : i ≤ j)
    (h2 : j < i + n) : readBytes rd i n = none := by
  induction n generalizing i with
  | zero => omega
  | succ n ih =>
    rcases Nat.eq_or_lt_of_le h1 with rfl | hlt
    · simp [readBytes, hj]
    · simp [readBytes, ih (i := i + 1) hlt (by omega)]

/-- A byte beyond the end of a byte string reads 0. -/
theorem byteAt_of_length_le {l : List Byte} {i : Nat} (h : l.length ≤ i) : byteAt l i = 0 := by
  simp [byteAt, List.getD_eq_getElem?_getD, List.getElem?_eq_none h]

/-- A window byte is there where it does not keep the core waiting, and nowhere else. -/
theorem windowByte_eq (p : Pkt) (x : CoreX) (i : Nat) :
    windowByte p x i =
      if (x.f = true ∧ x.horizon ≤ i) ∨ p.ended = true ∨ i < p.bytes.length then some (windowAt p x i) else none := by
  by_cases hF : x.f = true ∧ x.horizon ≤ i
  · simp [windowByte, windowAt, hF]
  · have hread : windowByte p x i = p.byte? i := by
      rw [windowByte, if_neg]
      simpa using hF
    rw [hread, windowAt, if_neg hF, Pkt.byte?]
    by_cases hlt : i < p.bytes.length
    · simp [hlt]
    · simp [hF, hlt, byteAt_of_length_le (Nat.not_lt.1 hlt)]

theorem windowByte_arrived {p : Pkt} {x : CoreX} {i n : Nat} (h : Arrived p x i n) :
    readBytes (windowByte p x) i n = some (bigEndian (windowAt p x) i n) :=
  readBytes_all n fun j h1 h2 => (windowByte_eq p x j).trans (if_pos (h j h1 h2))

theorem windowByte_missing {p : Pkt} {x : CoreX} {i n : Nat} (h : ¬ Arrived p x i n) :
    readBytes (windowByte p x) i n = none := by
  simp only [Arrived, not_forall, exists_prop] at h
  obtain ⟨j, h1, h2, hj⟩ := h
  exact readBytes_missing ((windowByte_eq p x j).trans (if_neg hj)) n h1 h2

section
variable {p : Pkt} {x : CoreX} {d : WReg} {m : WinAddr} {n : Nat}

theorem loadW_value (h : loadAt x m + n ≤ 512) (ha : Arrived p x (loadAt x m) n) :
    loadW p x d m n = wr p x d (bigEndian (windowAt p x) (loadAt x m) n) 1 := by
  have hread := windowByte_arrived ha
  unfold loadAt at h hread
  simp only [loadW, Nat.not_lt.2 h, hread, if_false, loadAt]

theorem loadW_waits (h : loadAt x m + n ≤ 512) (ha : ¬ Arrived p x (loadAt x m) n) : loadW p x d m n = .wait := by
  have hread := windowByte_missing ha
  unfold loadAt at h hread
  simp only [loadW, Nat.not_lt.2 h, hread, if_false]

theorem loadW_beyond (h : 512 < loadAt x m + n) : loadW p x d m n = .exc 2 := if_pos h

end

/-! ### Hash operands (R151) -/

/-- A 128-bit address from its four words. -/
theorem wide_eq (a b c d : Nat) :
    ((a * 2 ^ 32 + b) * 2 ^ 32 + c) * 2 ^ 32 + d = a * 2 ^ 96 + b * 2 ^ 64 + c * 2 ^ 32 + d := by ring

section
variable {s : State} {t : Tile} {c : Core} {d a n : WReg} {x : CoreX} {p : Pkt}

theorem exec_hsy4_value (h : Affords s t c (.hsy4 t c d a) x p 3) (ha : a.val + 3 ≤ 15) :
    exec (.hsy4 t c d a) s = .next (coreStep s t c p (wrote x d
      (hsy4 (s.getP p.applied (O.HASH_SEED t)) (x.w.getD (a.val + 0) 0) (x.w.getD (a.val + 1) 0)
        (x.w.getD (a.val + 2) 0) (x.w.getD (a.val + 3) 0) x.f) 3)) :=
  exec_of_wr exec_hsy4 h (if_neg (Nat.not_lt.2 ha))

theorem exec_hsy6_value (h : Affords s t c (.hsy6 t c d a) x p 5) (ha : a.val + 9 ≤ 15) :
    let k := fun i => x.w.getD (a.val + i) 0
    let addr := fun i => k i * 2 ^ 96 + k (i + 1) * 2 ^ 64 + k (i + 2) * 2 ^ 32 + k (i + 3)
    exec (.hsy6 t c d a) s = .next (coreStep s t c p (wrote x d
      (hsy6 (s.getP p.applied (O.HASH_SEED t)) (addr 0) (addr 4) (k 8) (k 9) x.f) 5)) := by
  intro k addr
  refine exec_of_wr exec_hsy6 h ((if_neg (Nat.not_lt.2 ha)).trans ?_)
  simp only [wide_eq]
  rfl

theorem exec_hash_value (h : Affords s t c (.hash t c d a n) x p (1 + (n.val + 4) / 4)) (ha : a.val + n.val ≤ 15) :
    exec (.hash t c d a n) s = .next (coreStep s t c p (wrote x d
      (mix (s.getP p.applied (O.HASH_SEED t)) ((List.range (n.val + 1)).map fun i => x.w.getD (a.val + i) 0))
      (1 + (n.val + 4) / 4))) :=
  exec_of_wr exec_hash h (if_neg (Nat.not_lt.2 ha))

end

end Sys2Proof.Machine

open Sys2Proof Sys2Proof.Machine

/-- Settles O7: a branch goes by its condition's entry; CALL and RET raise their exception where the stack is full or
empty. -/
theorem compareBranchCallAndReturn : Obligations.CompareBranchCallAndReturn := by
  intro s t c a b imm cond tgt x p
  refine ⟨fun h => exec_of_ok exec_cmp h rfl, fun h => exec_of_ok exec_cmpi h rfl, fun taken htaken h => ?_,
    fun h hs => exec_of_ok exec_call h (if_neg (Nat.not_le.2 hs)), fun r l h hs => exec_of_ok exec_ret h (by rw [hs]),
    fun h => exec_of_ok exec_jr h rfl, fun h hs => exec_of_exc exec_call h (if_pos hs),
    fun h hs => exec_of_exc exec_ret h (by rw [hs])⟩
  obtain rfl : x.holds cond = taken := Option.some.inj ((x.conditions_getElem? cond).symm.trans htaken)
  by_cases hc : x.holds cond = true
  · rw [if_pos hc] at h ⊢
    exact exec_bcc_taken h hc
  · rw [if_neg hc] at h ⊢
    exact exec_bcc_passed h hc

/-- Settles O8: a load reads its bytes one by one, and waits where one is missing; context accesses go by their bounds. -/
theorem windowAndContextAccess : Obligations.WindowAndContextAccess := by
  intro s t c d m size off x p
  refine ⟨fun h hm ha => exec_of_wr exec_ldb h ((loadW_value hm ha).trans ?_),
    fun h hm ha => exec_of_wr exec_ldh h ((loadW_value hm ha).trans ?_),
    fun h hm ha => exec_of_wr exec_ldw h ((loadW_value hm ha).trans ?_), fun i n hin h hm ha => ?_,
    fun h hm => exec_of_exc exec_ldb h (loadW_beyond hm), fun h hm => exec_of_exc exec_ldh h (loadW_beyond hm),
    fun h hm => exec_of_exc exec_ldw h (loadW_beyond hm),
    fun h hm => exec_of_wr exec_ldc h (if_neg (Nat.not_lt.2 hm)), fun h hm => exec_of_exc exec_ldc h (if_pos hm),
    fun h hm h8 => exec_of_ok exec_stc h (if_neg ?_), fun h hm => exec_of_exc exec_stc h (if_pos hm)⟩
  · rw [bigEndian_one]
  · rw [bigEndian_two]
  · rw [bigEndian_four]
  · simp only [List.mem_cons, Prod.mk.injEq, List.not_mem_nil, or_false] at hin
    obtain ⟨rfl, rfl⟩ | ⟨rfl, rfl⟩ | ⟨rfl, rfl⟩ := hin
    · exact exec_of_wait exec_ldb h (loadW_waits hm ha)
    · exact exec_of_wait exec_ldh h (loadW_waits hm ha)
    · exact exec_of_wait exec_ldw h (loadW_waits hm ha)
  · omega

/-- Settles O9: the hash instructions go by their bound at w15, MFS by its value's number. -/
theorem hashInstructionsAndSpecialValues : Obligations.HashInstructionsAndSpecialValues := by
  intro s t c d a n x p
  refine ⟨exec_hsy4_value, fun h ha => exec_of_exc exec_hsy4 h (if_pos ha), exec_hsy6_value,
    fun h ha => exec_of_exc exec_hsy6 h (if_pos ha), exec_hash_value,
    fun h ha => exec_of_exc exec_hash h (if_pos ha), fun h => exec_of_wr exec_mfs h ?_,
    fun h he => exec_of_wr exec_mfs h (if_pos he),
    fun h he => exec_of_wait exec_mfs h (if_neg (ne_true_of_eq_false he)), fun h => exec_of_wr exec_mfs h rfl,
    fun h => exec_of_wr exec_mfs h rfl, fun h => exec_of_wr exec_mfs h rfl⟩
  cases hp : p.ended <;> simp [b01]

end

section
/-!
The function of the hash instructions over 32-bit words (R151), and R152's values of it.
-/
namespace Sys2Proof.Machine

/-! ### `mix` (R151) -/

/-- One word's part of R151's rule. -/
def turnXor (h k : BitVec 32) : BitVec 32 := (h <<< 5 ||| h >>> 27) ^^^ k

/-- R151's rule: the words in turn, then the product and the fold. -/
def mixRule (seed : BitVec 32) (ks : List (BitVec 32)) : BitVec 32 :=
  let h := ks.foldl turnXor seed * 0x9E3779B1#32
  h ^^^ (h >>> 15)

/-- A 32-bit word turned left by 5 bits. -/
theorem toNat_turnLeft (h : BitVec 32) : (h <<< 5 ||| h >>> 27).toNat = h.toNat * 32 % 2 ^ 32 + h.toNat / 2 ^ 27 := by
  have hlow : h.toNat / 2 ^ 27 < 2 ^ 5 := by have := h.isLt; omega
  have hhigh : h.toNat * 32 % 2 ^ 32 = (h.toNat % 2 ^ 27) <<< 5 := by rw [Nat.shiftLeft_eq]; omega
  rw [BitVec.toNat_or, BitVec.toNat_shiftLeft, BitVec.toNat_ushiftRight, Nat.shiftRight_eq_div_pow, Nat.shiftLeft_eq,
    show (2 : Nat) ^ 5 = 32 from rfl, hhigh, Nat.shiftLeft_add_eq_or_of_lt hlow]

theorem mixWord_toNat (h k : BitVec 32) : mixWord h.toNat k.toNat = (turnXor h k).toNat := by
  rw [mixWord, turnXor, BitVec.toNat_xor, toNat_turnLeft]

theorem foldl_mixWord_toNat (ks : List (BitVec 32)) (seed : BitVec 32) :
    (ks.map BitVec.toNat).foldl mixWord seed.toNat = (ks.foldl turnXor seed).toNat := by
  induction ks generalizing seed with
  | nil => rfl
  | cons k ks ih => rw [List.map_cons, List.foldl_cons, List.foldl_cons, mixWord_toNat, ih]

/-- The model's `mix` is R151's rule. -/
theorem mix_toNat (seed : BitVec 32) (ks : List (BitVec 32)) :
    mix seed.toNat (ks.map BitVec.toNat) = (mixRule seed ks).toNat := by
  rw [mix, foldl_mixWord_toNat, mixRule, BitVec.toNat_xor, BitVec.toNat_ushiftRight, BitVec.toNat_mul,
    Nat.shiftRight_eq_div_pow]
  rfl

/-! ### The operands of HSY4 and HSY6 (R151) -/

/-- The protocol word. -/
theorem toNat_protocolWord (pr : BitVec 32) : ((pr &&& 0xFF#32) <<< 24).toNat = pr.toNat % 256 * 2 ^ 24 := by
  have hmask : (pr &&& 0xFF#32).toNat = pr.toNat % 256 := Nat.and_two_pow_sub_one_eq_mod pr.toNat 8
  rw [BitVec.toNat_shiftLeft, hmask, Nat.shiftLeft_eq]
  omega

/-- A port of a port word, 0 with F set. -/
theorem toNat_highPort (pw : BitVec 32) (f : Bool) :
    (if f then 0#32 else pw >>> 16).toNat = if f then 0 else pw.toNat / 2 ^ 16 := by
  cases f
  · simp [Nat.shiftRight_eq_div_pow]
  · rfl

theorem toNat_lowPort (pw : BitVec 32) (f : Bool) :
    (if f then 0#32 else pw &&& 0xFFFF#32).toNat = if f then 0 else pw.toNat % 2 ^ 16 := by
  cases f
  · exact Nat.and_two_pow_sub_one_eq_mod pw.toNat 16
  · rfl

/-- Two ports of 16 bits make a port word. -/
theorem toNat_portWord {hi lo : BitVec 32} (hhi : hi.toNat < 2 ^ 16) (hlo : lo.toNat < 2 ^ 16) :
    (hi <<< 16 ||| lo).toNat = hi.toNat * 2 ^ 16 + lo.toNat := by
  rw [BitVec.toNat_or, BitVec.toNat_shiftLeft, Nat.mod_eq_of_lt (by rw [Nat.shiftLeft_eq]; omega),
    ← Nat.shiftLeft_add_eq_or_of_lt hlo, Nat.shiftLeft_eq]

/-- The endpoints in their order, for addresses of any width. -/
theorem endpoints_toNat {w : Nat} (sa da : BitVec w) {pw sp dp : BitVec 32} {f : Bool}
    (hsp : sp = if f then 0#32 else pw >>> 16) (hdp : dp = if f then 0#32 else pw &&& 0xFFFF#32) :
    endpoints sa.toNat da.toNat pw.toNat f =
      if sa < da ∨ (sa = da ∧ sp ≤ dp) then (sa.toNat, da.toNat, (sp <<< 16 ||| dp).toNat)
      else (da.toNat, sa.toNat, (dp <<< 16 ||| sp).toNat) := by
  have hs : sp.toNat = if f then 0 else pw.toNat / 2 ^ 16 := by rw [hsp, toNat_highPort]
  have hd : dp.toNat = if f then 0 else pw.toNat % 2 ^ 16 := by rw [hdp, toNat_lowPort]
  have hs16 : sp.toNat < 2 ^ 16 := by have := pw.isLt; rw [hs]; split <;> omega
  have hd16 : dp.toNat < 2 ^ 16 := by rw [hd]; split <;> omega
  rw [toNat_portWord hs16 hd16, toNat_portWord hd16 hs16]
  simp only [endpoints, ← hs, ← hd, BitVec.lt_def, BitVec.le_def, BitVec.toNat_inj]

theorem hsy4_toNat (seed sa da pr : BitVec 32) {pw sp dp : BitVec 32} {f : Bool}
    (hsp : sp = if f then 0#32 else pw >>> 16) (hdp : dp = if f then 0#32 else pw &&& 0xFFFF#32) :
    hsy4 seed.toNat sa.toNat da.toNat pw.toNat pr.toNat f = (mixRule seed
      ((if sa < da ∨ (sa = da ∧ sp ≤ dp) then [sa, da, sp <<< 16 ||| dp] else [da, sa, dp <<< 16 ||| sp]) ++
        [(pr &&& 0xFF#32) <<< 24])).toNat := by
  rw [← mix_toNat, hsy4, endpoints_toNat sa da hsp hdp, ← toNat_protocolWord]
  split <;> rfl

/-- The words of a 128-bit address. -/
theorem words4_append (a b c d : BitVec 32) :
    words4 (a ++ b ++ c ++ d).toNat = [a.toNat, b.toNat, c.toNat, d.toNat] := by
  have ha := a.isLt
  have hb := b.isLt
  have hc := c.isLt
  have hd := d.isLt
  have hvalue : (a ++ b ++ c ++ d).toNat =
      a.toNat * 2 ^ 96 + b.toNat * 2 ^ 64 + c.toNat * 2 ^ 32 + d.toNat := by
    rw [BitVec.toNat_append, BitVec.toNat_append, BitVec.toNat_append, ← Nat.shiftLeft_add_eq_or_of_lt hb,
      ← Nat.shiftLeft_add_eq_or_of_lt hc, ← Nat.shiftLeft_add_eq_or_of_lt hd]
    simp only [Nat.shiftLeft_eq]
    ring
  rw [words4, hvalue]
  simp only [List.cons.injEq, and_true]
  refine ⟨?_, ?_, ?_, ?_⟩ <;> omega

theorem hsy6_toNat (seed pr a0 a1 a2 a3 b0 b1 b2 b3 : BitVec 32) {sa da : BitVec 128} {pw sp dp : BitVec 32} {f : Bool}
    (hsa : sa = a0 ++ a1 ++ a2 ++ a3) (hda : da = b0 ++ b1 ++ b2 ++ b3)
    (hsp : sp = if f then 0#32 else pw >>> 16) (hdp : dp = if f then 0#32 else pw &&& 0xFFFF#32) :
    hsy6 seed.toNat sa.toNat da.toNat pw.toNat pr.toNat f = (mixRule seed
      ((if sa < da ∨ (sa = da ∧ sp ≤ dp) then [a0, a1, a2, a3, b0, b1, b2, b3, sp <<< 16 ||| dp]
        else [b0, b1, b2, b3, a0, a1, a2, a3, dp <<< 16 ||| sp]) ++ [(pr &&& 0xFF#32) <<< 24])).toNat := by
  have hsw : words4 sa.toNat = [a0.toNat, a1.toNat, a2.toNat, a3.toNat] := by rw [hsa, words4_append]
  have hdw : words4 da.toNat = [b0.toNat, b1.toNat, b2.toNat, b3.toNat] := by rw [hda, words4_append]
  rw [← mix_toNat, hsy6, endpoints_toNat sa da hsp hdp, ← toNat_protocolWord]
  split <;> simp only [hsw, hdw] <;> rfl

/-! ### R152's table -/

/-- With F set the port word counts for nothing. -/
theorem endpoints_fragment (sa da pw : Nat) (h : sa < da) : endpoints sa da pw true = (sa, da, 0) := by
  simp [endpoints, h]

theorem hsy4_vectorB (pw : Nat) : hsy4 0 0xC000020A 0xC6336407 pw 17 true = 0xFB96C0B6 := by
  rw [hsy4, endpoints_fragment _ _ pw (by decide)]
  rfl

end Sys2Proof.Machine

open Sys2Proof Sys2Proof.Machine

/-- Settles O3: `mix` is the rule word by word, the operands in their order are those of 32-bit words, and R152's table
is computed. -/
theorem hashInstructionsComputeTheRule : Obligations.HashInstructionsComputeTheRule := by
  refine ⟨mix_toNat, fun seed pw pr sp dp f hsp hdp => ⟨fun sa da => hsy4_toNat seed sa da pr hsp hdp,
    fun a0 a1 a2 a3 b0 b1 b2 b3 sa da hsa hda => hsy6_toNat seed pr a0 a1 a2 a3 b0 b1 b2 b3 hsa hda hsp hdp⟩,
    fun s t c d a n x p => ⟨exec_hsy4_value, exec_hsy6_value, exec_hash_value⟩, rfl, rfl, rfl, rfl, rfl, rfl, rfl, rfl,
    rfl, rfl, rfl, rfl, rfl, rfl, rfl, rfl, rfl, rfl,
    fun pw => ⟨endpoints_fragment _ _ pw (by decide), hsy4_vectorB pw⟩⟩

/-- Settles O4: each word's fields are read out. -/
theorem exampleProgramWords : Obligations.ExampleProgramWords := by
  intro t c
  exact ⟨rfl, rfl, rfl, rfl, rfl, rfl, rfl, rfl, rfl, rfl, rfl, rfl⟩

end

section
/-!
Amber scans (R146-R148): what starts one, what gives it its result, and what collects it.
-/
namespace Sys2Proof.Machine

/-! ### The range of a scan (R146, R147) -/

/-- A scan that AMB starts over words `a` and `b`; its latency and result are not known. -/
def scanOver (p : Pkt) (x : CoreX) (a b : WReg) (mask : BitVec 16) : Scan :=
  ⟨x.reg a, x.reg b, mask.toNat, decide (amberLimit p < x.reg b), x.charged, 0, 0, false⟩

/-- Bit 29 alone: the result of a scan with no hit. -/
theorem Scan.clipped_eq (n : Scan) (p : Pkt) :
    n.clipped p = if n.clip = true ∧ (p.ended = false ∨ amberLimit p < p.bytes.length) then 2 ^ 29 else 0 := by
  cases hc : n.clip <;> cases he : p.ended <;> simp [Scan.clipped, b01, hc, he]

section
variable {s : State} {t : Tile} {c : Core} {a b : WReg} {mask : BitVec 16} {x : CoreX} {p : Pkt}

/-- What AMB leaves with scan `n`: the core advances, and the scan is counted. -/
def ambStep (s : State) (t : Tile) (c : Core) (p : Pkt) (x : CoreX) (n : Scan) : State :=
  (coreStep s t c p { passed x ((x.pc + 1) % 2 ^ 14) 1 with scan := some n }).count64 (O.PARSE_COUNTS t 10)

/-- AMB with no scan outstanding starts the scan that it makes of its operands. -/
theorem exec_amb_starts {n : Scan} (h : Affords s t c (.amb t c a b mask) x p 1) (hn : x.scan = none)
    (hs : (if x.f || decide ((scanOver p x a b mask).endIn p ≤ x.reg a) then
        { scanOver p x a b mask with lat := 2, result := (scanOver p x a b mask).clipped p, ready := true }
      else scanOver p x a b mask) = n) :
    exec (.amb t c a b mask) s = .next (ran s (ambStep s t c p x n)) := by
  subst hs
  exact exec_of_ok_effect (ctx := p.ctx) (fx := fun s => s.count64 (O.PARSE_COUNTS t 10))
    (y := { x.next with scan := some _ }) exec_amb h (if_neg (by simp [hn]))

/-- Over a range that is not empty, outside fragments, the scan runs. -/
theorem exec_amb_runs (h : Affords s t c (.amb t c a b mask) x p 1) (hn : x.scan = none) (hF : x.f = false)
    (hr : x.reg a < (scanOver p x a b mask).endIn p) :
    exec (.amb t c a b mask) s = .next (ran s (ambStep s t c p x (scanOver p x a b mask))) := by
  have hgo : (x.f || decide ((scanOver p x a b mask).endIn p ≤ x.reg a)) = false := by simp [hF, hr]
  exact exec_amb_starts h hn (if_neg (ne_true_of_eq_false hgo))

/-- With F set or over an empty range it is ready at once, with no hit. -/
theorem exec_amb_ready (h : Affords s t c (.amb t c a b mask) x p 1) (hn : x.scan = none)
    (hr : x.f = true ∨ (scanOver p x a b mask).endIn p ≤ x.reg a) :
    exec (.amb t c a b mask) s = .next (ran s (ambStep s t c p x
      { scanOver p x a b mask with lat := 2, result := (scanOver p x a b mask).clipped p, ready := true })) := by
  exact exec_amb_starts h hn (if_pos (by simpa using hr))

end

/-! ### The result (R145-R148) -/

section
variable {s : State} {t : Tile} {c : Core} {wait : BitVec 16} {x : CoreX} {p : Pkt} {n : Scan}

/-- A core whose scan is done: the scan is ready with its result and latency, the engine wait is added. -/
def CoreX.scanned (x : CoreX) (n : Scan) (result lat wait : Nat) : CoreX :=
  { x with scan := some { n with ready := true, result := result, lat := lat }, qstalls := x.qstalls + wait }

variable (h : Runs s) (hx : s.core? t c = some x) (hp : s.pkt? x.fid = some p) (hn : x.scan = some n)
  (hr : n.ready = false) (ha : n.arrived p = true)
include h hx hp hn hr ha

/-- A scan over an empty range is done with no hit. -/
theorem exec_amberScanDone_empty (hz : n.endIn p ≤ n.start) :
    exec (.amberScanDone t c wait) s =
      .next (ran s ((fresh s).putCore t c (x.scanned n (n.clipped p) 2 wait.toNat))) := by
  have hlen : n.endIn p - n.start = 0 := Nat.sub_eq_zero_of_le hz
  have hx' : (fresh s).core? t c = some x := hx
  have hp' : (fresh s).pkt? x.fid = some p := hp
  refine exec_eq_ran exec_amberScanDone h ?_
  simp only [hx', hn, hp', hr, ha, hlen, Scan.latency, Bool.not_true, Bool.or_false, Bool.false_eq_true, if_false,
    if_true]
  rfl

/-- A scan over a range that is not empty is done with what the tile's patterns find. -/
theorem amberScanDone_found (hz : n.start < n.endIn p) :
    Does (.amberScanDone t c wait) s fun u => u.core? t c = some
      (x.scanned n ((fresh s).amberScan t p n).1 (7 + (n.endIn p - n.start + 63) / 64) wait.toNat) := by
  have hlen : n.endIn p - n.start ≠ 0 := Nat.sub_ne_zero_of_lt hz
  have hx' : (fresh s).core? t c = some x := hx
  have hp' : (fresh s).pkt? x.fid = some p := hp
  refine (does_iff exec_amberScanDone h).2 ?_
  simp only [hx', hn, hp', hr, ha, hlen, Scan.latency, Bool.not_true, Bool.or_false, Bool.false_eq_true, if_false]
  split
  · exact State.core?_putCore ..
  · exact State.core?_putCore ..

end

/-- A bit of a number, as the library has it. -/
theorem bit_eq_testBit (v k : Nat) : bit v k = v.testBit k := by
  rw [bit, Nat.testBit_eq_decide_div_mod_eq, Bool.beq_eq_decide_eq]

/-! ### AMW (R135, R138) -/

/-- What the scan costs AMW: the rest of its latency, at least 1. -/
def Scan.rest (n : Scan) (lat : Nat) (x : CoreX) : Nat := max 1 (n.at_ + lat - x.charged)

/-- A core that collects its scan: the result in word `d`, A the hit bit, no scan. -/
def CoreX.collected (x : CoreX) (d : WReg) (n : Scan) : CoreX :=
  { (x.setReg d n.result).next with a := bit n.result 31, scan := none }

section
variable {s : State} {t : Tile} {c : Core} {d : WReg} {x : CoreX} {p : Pkt} {n : Scan} (hn : x.scan = some n)
include hn

/-- AMW on a ready scan writes its result, sets A to the hit bit and ends the scan. -/
theorem exec_amw_ready (hr : n.ready = true) (h : Affords s t c (.amw t c d) x p (n.rest n.lat x)) :
    exec (.amw t c d) s = .next (coreStep s t c p
      { wrote x d n.result (n.rest n.lat x) with a := bit n.result 31, scan := none }) := by
  refine exec_of_ok (y := x.collected d n) (ctx := p.ctx) exec_amw h ?_
  simp only [hn, hr, Bool.not_true, Bool.false_and, Bool.false_eq_true, if_false, if_true]
  rfl

variable (h : Issues s t c (.amw t c d) x p) (hr : n.ready = false)
include h hr

/-- On a scan whose range has not arrived the core stalls. -/
theorem exec_amw_waits (ha : n.arrived p = false) :
    exec (.amw t c d) s = .next (ran s ((fresh s).putCore t c { x with stalled := true })) := by
  refine exec_of_wait exec_amw h ?_
  simp only [hn, hr, ha, Bool.not_false, Bool.and_true, if_true]

/-- On one that still runs and that the budget affords nothing changes. -/
theorem exec_amw_holds (ha : n.arrived p = true) (hb : x.charged + n.rest (n.latency p) x < s.budget t p) :
    exec (.amw t c d) s = .next (fresh s) := by
  have hb' : x.charged + max 1 (n.at_ + n.latency p - x.charged) < (fresh s).budget t p := hb
  refine exec_of_hold exec_amw h ?_
  simp only [hn, hr, ha, hb', Bool.not_false, Bool.not_true, Bool.and_false, Bool.true_and, Bool.false_eq_true,
    decide_true, if_false, if_true]

/-- Where the charge reaches the budget the core stops, and the scan is gone (R141). -/
theorem exec_amw_overruns (ha : n.arrived p = true) (hb : s.budget t p ≤ x.charged + n.rest (n.latency p) x) :
    exec (.amw t c d) s = .next (ran s ((fresh s).putCore t c
      { x with charged := s.budget t p, overrun := true, scan := none })) := by
  have hb' : ¬ x.charged + max 1 (n.at_ + n.latency p - x.charged) < (fresh s).budget t p := Nat.not_lt.2 hb
  refine exec_of_overrun (y := x.collected d n) (ctx := p.ctx) (fx := id) exec_amw h hb ?_
  simp only [hn, hr, ha, hb', Bool.not_false, Bool.not_true, Bool.and_false, Bool.false_eq_true, decide_false,
    if_false]
  rfl

end

end Sys2Proof.Machine

open Sys2Proof Sys2Proof.Machine

/-- Settles O10: each outcome of AMB, AMBER_SCAN_DONE and AMW is one equation. -/
theorem amberScans : Obligations.AmberScans := by
  intro s t c d a b mask wait x p limit stop scan noHit rest
  have hnoHit : ∀ n : Scan, noHit n = n.clipped p := fun n => (n.clipped_eq p).symm
  refine ⟨exec_amb_runs, fun h hn hr => ?_, fun h hn => exec_of_exc exec_amb h (if_pos hn),
    fun n h hx hp hn hr ha => amberScanDone_found h hx hp hn hr ha,
    fun n h hx hp hn hr ha hz => ?_,
    fun n hn hr h => ⟨exec_amw_waits hn h hr, exec_amw_holds hn h hr, exec_amw_overruns hn h hr⟩,
    fun n hn hr h => ?_, fun h hn => exec_of_exc exec_amw h (by simp only [hn])⟩
  · rw [hnoHit]
    exact exec_amb_ready h hn hr
  · rw [hnoHit]
    exact exec_amberScanDone_empty h hx hp hn hr ha hz
  · rw [← bit_eq_testBit]
    exact exec_amw_ready hn hr h

end

section
/-!
The 32-bit words of Ochre programs (R134, R135): for each format, the words that have its fields, and from these that
decoding and encoding are inverse.
-/
namespace Sys2Proof.Machine

/-! ### The formats (R134)

Each lemma says which words hold given fields, in the terms in which the decoder reads them. -/

section
variable {w op : Nat} {d a b : WReg} {imm : BitVec 16} {n m : BitVec 5} {x : WinAddr} {size : Fin 3} {off : BitVec 6}
  {cond : CondCode} {tgt : BitVec 14} {k : Fin 5} {code : BitVec 3}

theorem word_dab : w = ochreWord op d.val a.val (lowB b) ↔
    w / 2 ^ 26 = op ∧ (bits w 13 0 == 0) = true ∧ wordReg w 22 = d ∧ wordReg w 18 = a ∧ wordReg w 14 = b := by
  simp only [ochreWord, lowB, bits, wordReg, Fin.ext_iff, Fin.val_ofNat, beq_iff_eq]
  omega

theorem word_ab : w = ochreWord op 0 a.val (lowB b) ↔
    w / 2 ^ 26 = op ∧ (bits w 13 0 == 0 && bits w 25 22 == 0) = true ∧ wordReg w 18 = a ∧ wordReg w 14 = b := by
  simp only [ochreWord, lowB, bits, wordReg, Fin.ext_iff, Fin.val_ofNat, beq_iff_eq, Bool.and_eq_true]
  omega

theorem word_da : w = ochreWord op d.val a.val 0 ↔
    w / 2 ^ 26 = op ∧ (bits w 13 0 == 0 && bits w 17 14 == 0) = true ∧ wordReg w 22 = d ∧ wordReg w 18 = a := by
  simp only [ochreWord, bits, wordReg, Fin.ext_iff, Fin.val_ofNat, beq_iff_eq, Bool.and_eq_true]
  omega

theorem word_a : w = ochreWord op 0 a.val 0 ↔
    w / 2 ^ 26 = op ∧ (bits w 13 0 == 0 && bits w 25 22 == 0 && bits w 17 14 == 0) = true ∧ wordReg w 18 = a := by
  simp only [ochreWord, bits, wordReg, Fin.ext_iff, Fin.val_ofNat, beq_iff_eq, Bool.and_eq_true]
  omega

theorem word_d : w = ochreWord op d.val 0 0 ↔
    w / 2 ^ 26 = op ∧ (bits w 13 0 == 0 && bits w 21 14 == 0) = true ∧ wordReg w 22 = d := by
  simp only [ochreWord, bits, wordReg, Fin.ext_iff, Fin.val_ofNat, beq_iff_eq, Bool.and_eq_true]
  omega

theorem word_daImm : w = ochreWord op d.val a.val imm.toNat ↔
    w / 2 ^ 26 = op ∧ (bits w 17 16 == 0) = true ∧ wordReg w 22 = d ∧ wordReg w 18 = a ∧ BitVec.ofNat 16 w = imm := by
  have := imm.isLt
  simp only [ochreWord, bits, wordReg, Fin.ext_iff, Fin.val_ofNat, ← BitVec.toNat_inj, BitVec.toNat_ofNat, beq_iff_eq]
  omega

theorem word_dImm : w = ochreWord op d.val 0 imm.toNat ↔
    w / 2 ^ 26 = op ∧ (bits w 17 16 == 0 && bits w 21 18 == 0) = true ∧ wordReg w 22 = d ∧
      BitVec.ofNat 16 w = imm := by
  have := imm.isLt
  simp only [ochreWord, bits, wordReg, Fin.ext_iff, Fin.val_ofNat, ← BitVec.toNat_inj, BitVec.toNat_ofNat, beq_iff_eq,
    Bool.and_eq_true]
  omega

theorem word_aImm : w = ochreWord op 0 a.val imm.toNat ↔
    w / 2 ^ 26 = op ∧ (bits w 17 16 == 0 && bits w 25 22 == 0) = true ∧ wordReg w 18 = a ∧
      BitVec.ofNat 16 w = imm := by
  have := imm.isLt
  simp only [ochreWord, bits, wordReg, Fin.ext_iff, Fin.val_ofNat, ← BitVec.toNat_inj, BitVec.toNat_ofNat, beq_iff_eq,
    Bool.and_eq_true]
  omega

theorem word_daShift : w = ochreWord op d.val a.val n.toNat ↔
    w / 2 ^ 26 = op ∧ (bits w 17 5 == 0) = true ∧ wordReg w 22 = d ∧ wordReg w 18 = a ∧ BitVec.ofNat 5 w = n := by
  have := n.isLt
  simp only [ochreWord, bits, wordReg, Fin.ext_iff, Fin.val_ofNat, ← BitVec.toNat_inj, BitVec.toNat_ofNat, beq_iff_eq]
  omega

theorem word_daField : w = ochreWord op d.val a.val (n.toNat * 2 ^ 13 + m.toNat * 2 ^ 8) ↔
    w / 2 ^ 26 = op ∧ (bits w 7 0 == 0) = true ∧ wordReg w 22 = d ∧ wordReg w 18 = a ∧
      BitVec.ofNat 5 (w / 2 ^ 13) = n ∧ BitVec.ofNat 5 (w / 2 ^ 8) = m := by
  have := n.isLt
  have := m.isLt
  simp only [ochreWord, bits, wordReg, Fin.ext_iff, Fin.val_ofNat, ← BitVec.toNat_inj, BitVec.toNat_ofNat, beq_iff_eq]
  omega

theorem word_load : w = loadWord op d x ↔
    w / 2 ^ 26 = op ∧ (bits w 16 9 == 0) = true ∧ wordReg w 22 = d ∧ wordAddr w = x := by
  obtain ⟨based, base, offset⟩ := x
  have := offset.isLt
  simp only [loadWord, ochreWord, bits, wordReg, wordAddr, bit, WinAddr.mk.injEq, Fin.ext_iff, Fin.val_ofNat,
    ← BitVec.toNat_inj, BitVec.toNat_ofNat, beq_iff_eq]
  cases based
  · simp only [Bool.false_eq_true, if_false, beq_eq_false_iff_ne]
    omega
  · simp only [if_true, beq_iff_eq]
    omega

theorem word_context : w = ochreWord op d.val 0 (size.val * 2 ^ 16 + off.toNat) ↔
    w / 2 ^ 26 = op ∧ (bits w 21 18 == 0 && bits w 15 6 == 0 && bits w 17 16 != 3) = true ∧ wordReg w 22 = d ∧
      Fin.ofNat 3 (bits w 17 16) = size ∧ BitVec.ofNat 6 w = off := by
  have := off.isLt
  simp only [ochreWord, bits, wordReg, Fin.ext_iff, Fin.val_ofNat, ← BitVec.toNat_inj, BitVec.toNat_ofNat, beq_iff_eq,
    bne_iff_ne, Bool.and_eq_true]
  omega

theorem word_branch : w = ochreWord op cond.val 0 tgt.toNat ↔
    w / 2 ^ 26 = op ∧ (bits w 21 14 == 0 && decide (bits w 25 22 < 11)) = true ∧
      Fin.ofNat 11 (bits w 25 22) = cond ∧ BitVec.ofNat 14 w = tgt := by
  have := tgt.isLt
  simp only [decide_eq_true_eq, Bool.and_eq_true]
  simp only [ochreWord, bits, Fin.ext_iff, Fin.val_ofNat, ← BitVec.toNat_inj, BitVec.toNat_ofNat, beq_iff_eq]
  omega

theorem word_target : w = ochreWord op 0 0 tgt.toNat ↔
    w / 2 ^ 26 = op ∧ (bits w 25 14 == 0) = true ∧ BitVec.ofNat 14 w = tgt := by
  have := tgt.isLt
  simp only [ochreWord, bits, ← BitVec.toNat_inj, BitVec.toNat_ofNat, beq_iff_eq]
  omega

theorem word_special : w = ochreWord op d.val 0 k.val ↔
    w / 2 ^ 26 = op ∧ (bits w 21 4 == 0 && decide (bits w 3 0 < 5)) = true ∧ wordReg w 22 = d ∧
      Fin.ofNat 5 (bits w 3 0) = k := by
  simp only [decide_eq_true_eq, Bool.and_eq_true]
  simp only [ochreWord, bits, wordReg, Fin.ext_iff, Fin.val_ofNat, beq_iff_eq]
  omega

theorem word_code : w = ochreWord op 0 0 code.toNat ↔
    w / 2 ^ 26 = op ∧ (bits w 25 3 == 0) = true ∧ BitVec.ofNat 3 w = code := by
  have := code.isLt
  simp only [ochreWord, bits, ← BitVec.toNat_inj, BitVec.toNat_ofNat, beq_iff_eq]
  omega

theorem word_bare : w = ochreWord op 0 0 0 ↔ w / 2 ^ 26 = op ∧ (bits w 25 0 == 0) = true := by
  simp only [ochreWord, bits, beq_iff_eq]
  omega

end

/-! ### Encoding what is decoded -/

/-- An arm of the decoder: where its reserved fields are 0 and its codes are in use, its instruction's word is this one. -/
theorem encode_of_arm {ok : Bool} {i j : Instr} {w : Nat} (h : (if ok then some j else none) = some i)
    (hj : ok = true → ∃ v, ochreEncode j = some v ∧ w = v) : ochreEncode i = some w := by
  cases ok with
  | false => cases h
  | true =>
    obtain ⟨v, hv, rfl⟩ := hj rfl
    exact Option.some.inj h ▸ hv

/-- A word that decodes is the word of what it decodes to. -/
theorem ochreEncode_of_decode {t : Tile} {c : Core} {w : Nat} {i : Instr} (h : ochreDecode t c w = some i) :
    ochreEncode i = some w := by
  simp only [ochreDecode] at h
  split at h
  next hop => exact encode_of_arm h fun hz => ⟨_, rfl, word_bare.2 ⟨hop, hz⟩⟩
  iterate 7 next hop => exact encode_of_arm h fun hz => ⟨_, rfl, word_dab.2 ⟨hop, hz, rfl, rfl, rfl⟩⟩
  iterate 2 next hop => exact encode_of_arm h fun hz => ⟨_, rfl, word_dImm.2 ⟨hop, hz, rfl, rfl⟩⟩
  iterate 4 next hop => exact encode_of_arm h fun hz => ⟨_, rfl, word_daImm.2 ⟨hop, hz, rfl, rfl, rfl⟩⟩
  iterate 2 next hop => exact encode_of_arm h fun hz => ⟨_, rfl, word_daShift.2 ⟨hop, hz, rfl, rfl, rfl⟩⟩
  next hop => exact encode_of_arm h fun hz => ⟨_, rfl, word_daField.2 ⟨hop, hz, rfl, rfl, rfl, rfl⟩⟩
  next hop => exact encode_of_arm h fun hz => ⟨_, rfl, word_ab.2 ⟨hop, hz, rfl, rfl⟩⟩
  next hop => exact encode_of_arm h fun hz => ⟨_, rfl, word_aImm.2 ⟨hop, hz, rfl, rfl⟩⟩
  iterate 3 next hop => exact encode_of_arm h fun hz => ⟨_, rfl, word_load.2 ⟨hop, hz, rfl, rfl⟩⟩
  iterate 2 next hop => exact encode_of_arm h fun hz => ⟨_, rfl, word_context.2 ⟨hop, hz, rfl, rfl, rfl⟩⟩
  next hop => exact encode_of_arm h fun hz => ⟨_, rfl, word_branch.2 ⟨hop, hz, rfl, rfl⟩⟩
  next hop => exact encode_of_arm h fun hz => ⟨_, rfl, word_target.2 ⟨hop, hz, rfl⟩⟩
  next hop => exact encode_of_arm h fun hz => ⟨_, rfl, word_bare.2 ⟨hop, hz⟩⟩
  next hop => exact encode_of_arm h fun hz => ⟨_, rfl, word_a.2 ⟨hop, hz, rfl⟩⟩
  iterate 2 next hop => exact encode_of_arm h fun hz => ⟨_, rfl, word_da.2 ⟨hop, hz, rfl, rfl⟩⟩
  next hop => exact encode_of_arm h fun hz => ⟨_, rfl, word_dab.2 ⟨hop, hz, rfl, rfl, rfl⟩⟩
  next hop => exact encode_of_arm h fun hz => ⟨_, rfl, word_daImm.2 ⟨hop, hz, rfl, rfl, rfl⟩⟩
  next hop => exact encode_of_arm h fun hz => ⟨_, rfl, word_d.2 ⟨hop, hz, rfl⟩⟩
  next hop => exact encode_of_arm h fun hz => ⟨_, rfl, word_special.2 ⟨hop, hz, rfl, rfl⟩⟩
  next hop => exact encode_of_arm h fun hz => ⟨_, rfl, word_code.2 ⟨hop, hz, rfl⟩⟩
  next hop => exact encode_of_arm h fun hz => ⟨_, rfl, word_bare.2 ⟨hop, hz⟩⟩
  next => cases h

/-- What decodes names the tile and the core that fetch it. -/
theorem place_of_ochreDecode {t t' : Tile} {c c' : Core} {w : Nat} {i : Instr} (h : ochreDecode t c w = some i)
    (h' : ochreDecode t' c' w = some i) : t' = t ∧ c' = c := by
  simp only [ochreDecode] at h h'
  split at h
  -- in each arm both instructions have the same constructor, with the tile and the core as arguments
  all_goals
    rename_i hop
    simp only [hop] at h'
    grind

/-! ### Decoding what is encoded -/

/-- R135's table: each instruction with its operation code, its fields [25:22] and [21:18], and the rest of its word. -/
def ochreForms (t : Tile) (c : Core) (d a b : WReg) (imm : BitVec 16) (n m : BitVec 5) (x : WinAddr) (size : Fin 3)
    (off : BitVec 6) (cond : CondCode) (tgt : BitVec 14) (k : Fin 5) (code : BitVec 3) :
    List (Instr × Nat × Nat × Nat × Nat) :=
  [(.nop t c, 0x00, 0, 0, 0), (.add t c d a b, 0x01, d.val, a.val, lowB b), (.sub t c d a b, 0x02, d.val, a.val, lowB b),
   (.and_ t c d a b, 0x03, d.val, a.val, lowB b), (.or_ t c d a b, 0x04, d.val, a.val, lowB b),
   (.xor_ t c d a b, 0x05, d.val, a.val, lowB b), (.shl t c d a b, 0x06, d.val, a.val, lowB b),
   (.shr t c d a b, 0x07, d.val, a.val, lowB b), (.movi t c d imm, 0x08, d.val, 0, imm.toNat),
   (.movhi t c d imm, 0x09, d.val, 0, imm.toNat), (.addi t c d a imm, 0x0A, d.val, a.val, imm.toNat),
   (.andi t c d a imm, 0x0B, d.val, a.val, imm.toNat), (.ori t c d a imm, 0x0C, d.val, a.val, imm.toNat),
   (.xori t c d a imm, 0x0D, d.val, a.val, imm.toNat), (.shli t c d a n, 0x0E, d.val, a.val, n.toNat),
   (.shri t c d a n, 0x0F, d.val, a.val, n.toNat),
   (.ext t c d a n m, 0x10, d.val, a.val, n.toNat * 2 ^ 13 + m.toNat * 2 ^ 8), (.cmp t c a b, 0x11, 0, a.val, lowB b),
   (.cmpi t c a imm, 0x12, 0, a.val, imm.toNat), (.ldb t c d x, 0x14, d.val, x.a.val, b01 x.based * 2 ^ 17 + x.off.toNat),
   (.ldh t c d x, 0x15, d.val, x.a.val, b01 x.based * 2 ^ 17 + x.off.toNat),
   (.ldw t c d x, 0x16, d.val, x.a.val, b01 x.based * 2 ^ 17 + x.off.toNat),
   (.ldc t c d size off, 0x18, d.val, 0, size.val * 2 ^ 16 + off.toNat),
   (.stc t c d size off, 0x19, d.val, 0, size.val * 2 ^ 16 + off.toNat), (.bcc t c cond tgt, 0x1C, cond.val, 0, tgt.toNat),
   (.call t c tgt, 0x1D, 0, 0, tgt.toNat), (.ret t c, 0x1E, 0, 0, 0), (.jr t c a, 0x1F, 0, a.val, 0),
   (.hsy4 t c d a, 0x20, d.val, a.val, 0), (.hsy6 t c d a, 0x21, d.val, a.val, 0),
   (.hash t c d a b, 0x22, d.val, a.val, lowB b), (.amb t c d a imm, 0x24, d.val, a.val, imm.toNat),
   (.amw t c d, 0x25, d.val, 0, 0), (.mfs t c d k, 0x28, d.val, 0, k.val), (.drop t c code, 0x3E, 0, 0, code.toNat),
   (.end_ t c, 0x3F, 0, 0, 0)]

/-- Word `w` of 32 bits is the instruction's, and decodes to it. -/
def Spelled (t : Tile) (c : Core) (i : Instr) (w : Nat) : Prop :=
  ochreEncode i = some w ∧ w < 2 ^ 32 ∧ ochreDecode t c w = some i

/-- An instruction is spelled by its word where its fields are those its arm of the decoder reads. -/
theorem Spelled.of_fields {t : Tile} {c : Core} {i : Instr} {v op : Nat} {P : Nat → Prop} (henc : ochreEncode i = some v)
    (hv : ∀ w, w = v → w / 2 ^ 26 = op ∧ P w) (h64 : op < 64)
    (hdec : ∀ w, w / 2 ^ 26 = op → P w → ochreDecode t c w = some i) : Spelled t c i v := by
  obtain ⟨hop, hP⟩ := hv v rfl
  exact ⟨henc, by omega, hdec v hop hP⟩

theorem loadWord_eq (op : Nat) (d : WReg) (x : WinAddr) :
    loadWord op d x = ochreWord op d.val x.a.val (b01 x.based * 2 ^ 17 + x.off.toNat) := by
  cases h : x.based <;> simp [loadWord, b01, h]

/-- Each form of the table is spelled by its word. -/
theorem ochreForms_spelled (t : Tile) (c : Core) (d a b : WReg) (imm : BitVec 16) (n m : BitVec 5) (x : WinAddr)
    (size : Fin 3) (off : BitVec 6) (cond : CondCode) (tgt : BitVec 14) (k : Fin 5) (code : BitVec 3) :
    ∀ e ∈ ochreForms t c d a b imm n m x size off cond tgt k code,
      Spelled t c e.1 (ochreWord e.2.1 e.2.2.1 e.2.2.2.1 e.2.2.2.2) := by
  simp only [ochreForms, List.forall_mem_cons, List.not_mem_nil, false_imp_iff, implies_true, and_true]
  exact ⟨
    .of_fields rfl (fun _ => word_bare.1) (by decide) fun w hop hz => by
      simp only [ochreDecode, hop, hz, if_true],
    .of_fields rfl (fun _ => word_dab.1) (by decide) fun w hop ⟨hz, hd, ha, hb⟩ => by
      simp only [ochreDecode, hop, hz, hd, ha, hb, if_true],
    .of_fields rfl (fun _ => word_dab.1) (by decide) fun w hop ⟨hz, hd, ha, hb⟩ => by
      simp only [ochreDecode, hop, hz, hd, ha, hb, if_true],
    .of_fields rfl (fun _ => word_dab.1) (by decide) fun w hop ⟨hz, hd, ha, hb⟩ => by
      simp only [ochreDecode, hop, hz, hd, ha, hb, if_true],
    .of_fields rfl (fun _ => word_dab.1) (by decide) fun w hop ⟨hz, hd, ha, hb⟩ => by
      simp only [ochreDecode, hop, hz, hd, ha, hb, if_true],
    .of_fields rfl (fun _ => word_dab.1) (by decide) fun w hop ⟨hz, hd, ha, hb⟩ => by
      simp only [ochreDecode, hop, hz, hd, ha, hb, if_true],
    .of_fields rfl (fun _ => word_dab.1) (by decide) fun w hop ⟨hz, hd, ha, hb⟩ => by
      simp only [ochreDecode, hop, hz, hd, ha, hb, if_true],
    .of_fields rfl (fun _ => word_dab.1) (by decide) fun w hop ⟨hz, hd, ha, hb⟩ => by
      simp only [ochreDecode, hop, hz, hd, ha, hb, if_true],
    .of_fields rfl (fun _ => word_dImm.1) (by decide) fun w hop ⟨hz, hd, hi⟩ => by
      simp only [ochreDecode, hop, hz, hd, hi, if_true],
    .of_fields rfl (fun _ => word_dImm.1) (by decide) fun w hop ⟨hz, hd, hi⟩ => by
      simp only [ochreDecode, hop, hz, hd, hi, if_true],
    .of_fields rfl (fun _ => word_daImm.1) (by decide) fun w hop ⟨hz, hd, ha, hi⟩ => by
      simp only [ochreDecode, hop, hz, hd, ha, hi, if_true],
    .of_fields rfl (fun _ => word_daImm.1) (by decide) fun w hop ⟨hz, hd, ha, hi⟩ => by
      simp only [ochreDecode, hop, hz, hd, ha, hi, if_true],
    .of_fields rfl (fun _ => word_daImm.1) (by decide) fun w hop ⟨hz, hd, ha, hi⟩ => by
      simp only [ochreDecode, hop, hz, hd, ha, hi, if_true],
    .of_fields rfl (fun _ => word_daImm.1) (by decide) fun w hop ⟨hz, hd, ha, hi⟩ => by
      simp only [ochreDecode, hop, hz, hd, ha, hi, if_true],
    .of_fields rfl (fun _ => word_daShift.1) (by decide) fun w hop ⟨hz, hd, ha, hn⟩ => by
      simp only [ochreDecode, hop, hz, hd, ha, hn, if_true],
    .of_fields rfl (fun _ => word_daShift.1) (by decide) fun w hop ⟨hz, hd, ha, hn⟩ => by
      simp only [ochreDecode, hop, hz, hd, ha, hn, if_true],
    .of_fields rfl (fun _ => word_daField.1) (by decide) fun w hop ⟨hz, hd, ha, hn, hm⟩ => by
      simp only [ochreDecode, hop, hz, hd, ha, hn, hm, if_true],
    .of_fields rfl (fun _ => word_ab.1) (by decide) fun w hop ⟨hz, ha, hb⟩ => by
      simp only [ochreDecode, hop, hz, ha, hb, if_true],
    .of_fields rfl (fun _ => word_aImm.1) (by decide) fun w hop ⟨hz, ha, hi⟩ => by
      simp only [ochreDecode, hop, hz, ha, hi, if_true],
    loadWord_eq _ d x ▸ .of_fields rfl (fun _ => word_load.1) (by decide) fun w hop ⟨hz, hd, hx⟩ => by
      simp only [ochreDecode, hop, hz, hd, hx, if_true],
    loadWord_eq _ d x ▸ .of_fields rfl (fun _ => word_load.1) (by decide) fun w hop ⟨hz, hd, hx⟩ => by
      simp only [ochreDecode, hop, hz, hd, hx, if_true],
    loadWord_eq _ d x ▸ .of_fields rfl (fun _ => word_load.1) (by decide) fun w hop ⟨hz, hd, hx⟩ => by
      simp only [ochreDecode, hop, hz, hd, hx, if_true],
    .of_fields rfl (fun _ => word_context.1) (by decide) fun w hop ⟨hz, hd, hs, ho⟩ => by
      simp only [ochreDecode, hop, hz, hd, hs, ho, if_true],
    .of_fields rfl (fun _ => word_context.1) (by decide) fun w hop ⟨hz, hd, hs, ho⟩ => by
      simp only [ochreDecode, hop, hz, hd, hs, ho, if_true],
    .of_fields rfl (fun _ => word_branch.1) (by decide) fun w hop ⟨hz, hc, ht⟩ => by
      simp only [ochreDecode, hop, hz, hc, ht, if_true],
    .of_fields rfl (fun _ => word_target.1) (by decide) fun w hop ⟨hz, ht⟩ => by
      simp only [ochreDecode, hop, hz, ht, if_true],
    .of_fields rfl (fun _ => word_bare.1) (by decide) fun w hop hz => by
      simp only [ochreDecode, hop, hz, if_true],
    .of_fields rfl (fun _ => word_a.1) (by decide) fun w hop ⟨hz, ha⟩ => by
      simp only [ochreDecode, hop, hz, ha, if_true],
    .of_fields rfl (fun _ => word_da.1) (by decide) fun w hop ⟨hz, hd, ha⟩ => by
      simp only [ochreDecode, hop, hz, hd, ha, if_true],
    .of_fields rfl (fun _ => word_da.1) (by decide) fun w hop ⟨hz, hd, ha⟩ => by
      simp only [ochreDecode, hop, hz, hd, ha, if_true],
    .of_fields rfl (fun _ => word_dab.1) (by decide) fun w hop ⟨hz, hd, ha, hb⟩ => by
      simp only [ochreDecode, hop, hz, hd, ha, hb, if_true],
    .of_fields rfl (fun _ => word_daImm.1) (by decide) fun w hop ⟨hz, hd, ha, hi⟩ => by
      simp only [ochreDecode, hop, hz, hd, ha, hi, if_true],
    .of_fields rfl (fun _ => word_d.1) (by decide) fun w hop ⟨hz, hd⟩ => by
      simp only [ochreDecode, hop, hz, hd, if_true],
    .of_fields rfl (fun _ => word_special.1) (by decide) fun w hop ⟨hz, hd, hk⟩ => by
      simp only [ochreDecode, hop, hz, hd, hk, if_true],
    .of_fields rfl (fun _ => word_code.1) (by decide) fun w hop ⟨hz, hk⟩ => by
      simp only [ochreDecode, hop, hz, hk, if_true],
    .of_fields rfl (fun _ => word_bare.1) (by decide) fun w hop hz => by
      simp only [ochreDecode, hop, hz, if_true]⟩

/-- An instruction is one of R135's table, with some operands. -/
def IsOchre (i : Instr) : Prop :=
  ∃ t c d a b imm n m x size off cond tgt k code,
    i ∈ (ochreForms t c d a b imm n m x size off cond tgt k code).map Prod.fst

/-- Row `j` of the table, where the operands it does not have are 0. -/
theorem IsOchre.row (j : Nat) {i : Instr} (t : Tile) (c : Core) (d : WReg := 0) (a : WReg := 0) (b : WReg := 0)
    (imm : BitVec 16 := 0) (n : BitVec 5 := 0) (m : BitVec 5 := 0) (x : WinAddr := ⟨false, 0, 0⟩) (size : Fin 3 := 0)
    (off : BitVec 6 := 0) (cond : CondCode := 0) (tgt : BitVec 14 := 0) (k : Fin 5 := 0) (code : BitVec 3 := 0)
    (h : ((ochreForms t c d a b imm n m x size off cond tgt k code).map Prod.fst)[j]? = some i := by rfl) : IsOchre i :=
  ⟨t, c, d, a, b, imm, n, m, x, size, off, cond, tgt, k, code, List.mem_of_getElem? h⟩

/-- Only the table's instructions have a word. -/
theorem isOchre_of_encode {i : Instr} {w : Nat} (h : ochreEncode i = some w) : IsOchre i := by
  unfold ochreEncode at h
  split at h
  next t c => exact .row 0 t c
  next t c d a b => exact .row 1 t c d a b
  next t c d a b => exact .row 2 t c d a b
  next t c d a b => exact .row 3 t c d a b
  next t c d a b => exact .row 4 t c d a b
  next t c d a b => exact .row 5 t c d a b
  next t c d a b => exact .row 6 t c d a b
  next t c d a b => exact .row 7 t c d a b
  next t c d imm => exact .row 8 t c d (imm := imm)
  next t c d imm => exact .row 9 t c d (imm := imm)
  next t c d a imm => exact .row 10 t c d a (imm := imm)
  next t c d a imm => exact .row 11 t c d a (imm := imm)
  next t c d a imm => exact .row 12 t c d a (imm := imm)
  next t c d a imm => exact .row 13 t c d a (imm := imm)
  next t c d a n => exact .row 14 t c d a (n := n)
  next t c d a n => exact .row 15 t c d a (n := n)
  next t c d a n m => exact .row 16 t c d a (n := n) (m := m)
  next t c a b => exact .row 17 t c (a := a) (b := b)
  next t c a imm => exact .row 18 t c (a := a) (imm := imm)
  next t c d x => exact .row 19 t c d (x := x)
  next t c d x => exact .row 20 t c d (x := x)
  next t c d x => exact .row 21 t c d (x := x)
  next t c d size off => exact .row 22 t c d (size := size) (off := off)
  next t c d size off => exact .row 23 t c d (size := size) (off := off)
  next t c cond tgt => exact .row 24 t c (cond := cond) (tgt := tgt)
  next t c tgt => exact .row 25 t c (tgt := tgt)
  next t c => exact .row 26 t c
  next t c a => exact .row 27 t c (a := a)
  next t c d a => exact .row 28 t c d a
  next t c d a => exact .row 29 t c d a
  next t c d a b => exact .row 30 t c d a b
  next t c d a imm => exact .row 31 t c d a (imm := imm)
  next t c d => exact .row 32 t c d
  next t c d k => exact .row 33 t c d (k := k)
  next t c code => exact .row 34 t c (code := code)
  next t c => exact .row 35 t c
  next => cases h

end Sys2Proof.Machine

open Sys2Proof Sys2Proof.Machine

/-- Settles O14: each form of the table is spelled by its word; what has a word is in the table; and a word that decodes
is the word of something. -/
theorem ochreDecodesWhatItEncodes : Obligations.OchreDecodesWhatItEncodes :=
  ⟨ochreForms_spelled, fun _ _ => isOchre_of_encode,
    fun _ _ _ hw => Option.eq_none_iff_forall_ne_some.2 fun i h => hw i (ochreEncode_of_decode h)⟩

/-- Settles O15: encoding undoes decoding, and what is decoded names its tile and core. -/
theorem ochreWordsAreUnambiguous : Obligations.OchreWordsAreUnambiguous :=
  fun _ _ _ _ h => ⟨ochreEncode_of_decode h, fun _ _ => place_of_ochreDecode h⟩

end

section
/-!
Dispatch (R127, R128, R130, R133): a frame's way to its tile's queue, to a core, and out of a wait for bytes.
-/
namespace Sys2Proof.Machine

/-! ### DISPATCH_POINT (R127) -/

section
variable {s : State} {q : Port} {pre : Bool} {k : Pkt} (h : Runs s) (hk : s.atDispatchPoint q pre = some k)
include h hk

/-- A frame at its dispatch point joins its tile's queue while that has room. -/
theorem dispatchPoint_queues (hroom : (s.tile k.tile).dq.length < 128) :
    Does (.dispatchPoint q pre) s fun u => (u.tile k.tile).dq = (s.tile k.tile).dq ++ [k.fid] := by
  have hk' : (fresh s).atDispatchPoint q pre = some k := hk
  have hroom' : ¬ 128 ≤ ((fresh s).tile k.tile).dq.length := Nat.not_le.2 hroom
  refine (does_iff exec_dispatchPoint h).2 ?_
  simp only [hk', hroom', if_false]
  exact congrArg TileX.dq (State.tile_putTile (fresh s) k.tile _)

/-- Where the queue is full it is counted and discarded. -/
theorem exec_dispatchPoint_discards (hfull : 128 ≤ (s.tile k.tile).dq.length) :
    exec (.dispatchPoint q pre) s = .next (ran s
      ((((fresh s).count64 (O.PARSE_COUNTS k.tile 3)).count64 (O.PORT_PARSE_COUNTS q 1)).discardArrival k 0x12)) := by
  have hk' : (fresh s).atDispatchPoint q pre = some k := hk
  have hfull' : 128 ≤ ((fresh s).tile k.tile).dq.length := hfull
  refine exec_eq_ran exec_dispatchPoint h ?_
  simp only [hk', hfull', if_true]

end

/-! ### CORE_DISPATCH (R128, R130, R133) -/

/-- A packet as dispatch on tile `t` tags it. -/
def State.tagged (s : State) (t : Tile) (p : Pkt) : Pkt :=
  { p with
    phase := .parsing, pale := s.dispatchesPale t, dflt := s.dispatchesPale t, applied := s.tagsAt t,
    mono := s.getT t (O.TILE_PROFILE t) == 1 && !s.dispatchesPale t, member := s.getT t (O.MEMBER_ID p.inPort) }

/-- What dispatch does with the packet once the filter's verdict `v` stands: refused, it goes to no core; else a core set
up for it walks its headers. -/
def State.dispatch (s : State) (t : Tile) (c fid : Nat) (rest : List Nat) (p : Pkt) (v : Nat × Option Nat) : State :=
  let k := s.tagged t p
  let w := s.putTile t { s.tile t with dq := rest }
  if v.1 ≠ 0 then (if p.ended then w.failPacket k v.1 else w.refuseFrame k v.1)
  else (w.count64 (O.PARSE_COUNTS t 1)).walk t c { k with toHost := v.2, ctx := dispatchCtx k }
    (CoreX.fresh fid (s.getP (s.tagsAt t) (O.ENTRY_POINT t)))

/-- The verdict the dispatch goes by: the filter's own, judged anew where the tile has passed a boundary since. -/
theorem State.rejudge_same {s : State} {p : Pkt} (h : p.judged = s.tagsAt p.tile) : s.rejudge p = (0, p.toHost) := if_pos h

theorem State.rejudge_anew {s : State} {p : Pkt} (h : p.judged ≠ s.tagsAt p.tile) :
    s.rejudge p = s.judge p.inPort p.bytes := if_neg h

/-- The walk of a packet that is not in Pale service leaves its core with what it found, or waiting for a byte. -/
theorem State.walk_unpaled (s : State) (t c : Nat) {p : Pkt} (x : CoreX) (h : p.pale = false) :
    ∃ u q walking f horizon, (u = s ∨ u = s.count64 (O.PARSE_COUNTS t 12)) ∧ s.walk t c p x =
      (u.putPkt q).putCore t c { x with walking := walking, f := f, horizon := horizon } := by
  unfold State.walk
  cases preDecode p.byte? with
  | none => exact ⟨s, p, true, x.f, x.horizon, .inl rfl, rfl⟩
  | some w =>
    refine ⟨if w.f then s.count64 (O.PARSE_COUNTS t 12) else s, { p with ctx := walkCtx p.ctx w, seenF := w.f }, false,
      w.f, w.horizon, ?_, if_neg (ne_true_of_eq_false h)⟩
    cases w.f
    · exact .inl rfl
    · exact .inr rfl

section
variable {s : State} {t : Tile} {c : Core} {p : Pkt} {fid : Nat} {rest : List Nat} (h : Runs s)
  (hc : s.nextCore t = some c.val) (hq : (s.tile t).dq = fid :: rest) (hp : s.pkt? fid = some p)
include h hc hq hp

/-- CORE_DISPATCH takes the head of the queue to the lowest-numbered free core. -/
theorem exec_coreDispatch_dispatch :
    exec (.coreDispatch t) s = .next (ran s ((fresh s).dispatch t c fid rest p (s.rejudge p))) := by
  have hc' : (fresh s).nextCore t = some c.val := hc
  have hq' : ((fresh s).tile t).dq = fid :: rest := hq
  have hp' : (fresh s).pkt? fid = some p := hp
  have hentry : ∀ u : State, (u.count64 (O.PARSE_COUNTS t 1)).getP (s.tagsAt t) (O.ENTRY_POINT t) =
      u.getP (s.tagsAt t) (O.ENTRY_POINT t) := fun u => State.getP_count64_other _ _ _ _ _ (by simp)
  refine exec_eq_ran exec_coreDispatch h ?_
  simp only [hc', hq', hp', State.dispatch]
  refine if_congr Iff.rfl rfl ?_
  exact congrArg (fun e => State.walk _ t c _ (CoreX.fresh fid e)) (hentry _)

/-- The core it sets up outside Pale service. -/
theorem coreDispatch_core (hj : p.judged = s.tagsAt p.tile) (hpale : s.dispatchesPale t = false) :
    Does (.coreDispatch t) s fun u => (u.tile t).dq = rest ∧
      u.get (O.PARSE_COUNTS t 1) = (s.get (O.PARSE_COUNTS t 1) + 1) % 2 ^ 64 ∧
      ∃ y, u.core? t c = some y ∧ y.fid = fid ∧ y.w = List.replicate 16 0 ∧ y.z = false ∧ y.c = false ∧
        y.a = false ∧ y.stack = [] ∧ y.charged = 0 ∧ y.pc = s.getP (s.tagsAt t) (O.ENTRY_POINT t) % 2 ^ 14 := by
  refine ⟨_, exec_coreDispatch_dispatch h hc hq hp, ?_⟩
  rw [State.rejudge_same hj]
  obtain ⟨u, k, walking, f, horizon, hu, hwalk⟩ := State.walk_unpaled
    (((fresh s).putTile t { s.tile t with dq := rest }).count64 (O.PARSE_COUNTS t 1)) t c
    (p := { s.tagged t p with toHost := p.toHost, ctx := dispatchCtx (s.tagged t p) })
    (CoreX.fresh fid (s.getP (s.tagsAt t) (O.ENTRY_POINT t))) hpale
  have hdisp : (fresh s).dispatch t c fid rest p (0, p.toHost) = (u.putPkt k).putCore t c
      { CoreX.fresh fid (s.getP (s.tagsAt t) (O.ENTRY_POINT t)) with
        walking := walking, f := f, horizon := horizon } := hwalk
  have hcore := (u.putPkt k).core?_putCore t c { CoreX.fresh fid (s.getP (s.tagsAt t) (O.ENTRY_POINT t)) with
    walking := walking, f := f, horizon := horizon }
  rw [hdisp]
  refine ⟨?_, ?_, _, hcore, rfl, rfl, rfl, rfl, rfl, rfl, rfl, rfl⟩
  · rcases hu with rfl | rfl <;> exact congrArg TileX.dq (State.tile_putTile (fresh s) t _)
  · rw [ran_get, State.get_putCore, State.get_putPkt]
    rcases hu with rfl | rfl
    · exact State.get_count64_same ..
    · rw [State.get_count64_other _ _ (.inl (by simp))]
      exact State.get_count64_same ..

end

/-! ### ARRIVAL_STALL_END (R130, R133, R138) -/

/-- A core whose wait has ended: the cycles waited are stall cycles. -/
def CoreX.waited (x : CoreX) (cycles : Nat) : CoreX := { x with stalls := x.stalls + cycles, stalled := false }

/-- The walk of a core that waits for packet `fid`, taken up again. -/
def State.walkOn (v : State) (t : Tile) (c : Core) (fid : Nat) : State :=
  match v.core? t c, v.pkt? fid with
  | some y, some k => if y.walking then v.walk t c k y else v
  | _, _ => v

/-- A core that is not in its walk has none to take up again. -/
theorem State.walkOn_not_walking {v : State} {t : Tile} {c : Core} {fid : Nat} {y : CoreX}
    (hy : v.core? t c = some y) (hw : y.walking = false) : v.walkOn t c fid = v := by
  unfold State.walkOn
  rw [hy]
  cases v.pkt? fid with
  | none => rfl
  | some k => exact if_neg (ne_true_of_eq_false hw)

section
variable {s : State} {t : Tile} {c : Core} {bytes : List Byte} {cycles : BitVec 16} {x : CoreX} {p : Pkt} (h : Runs s)
  (hx : s.core? t c = some x) (hp : s.pkt? x.fid = some p)
include h hx hp

/-- The wait ends; further bytes of a frame that has not ended arrive; and a walk that waited goes on. -/
theorem exec_arrivalStallEnd_goes (hs : (x.walking || x.stalled) = true) {v : State}
    (hv : (if p.ended then (fresh s).putCore t c (x.waited cycles.toNat)
      else ((fresh s).putCore t c (x.waited cycles.toNat)).moreBytes p.inPort (some x.fid) bytes) = v) :
    exec (.arrivalStallEnd t c bytes cycles) s = .next (ran s (v.walkOn t c x.fid)) := by
  have hx' : (fresh s).core? t c = some x := hx
  have hp' : ((fresh s).putCore t c (x.waited cycles.toNat)).pkt? x.fid = some p := hp
  refine exec_eq_ran exec_arrivalStallEnd h ?_
  subst hv
  simp only [CoreX.waited] at hp' ⊢
  simp only [hx', hs, hp', Bool.not_true, Bool.false_eq_true, if_false]
  rfl

/-- On a frame that has ended the instruction may issue again. -/
theorem exec_arrivalStallEnd_ended (hs : x.stalled = true) (hw : x.walking = false) (he : p.ended = true) :
    exec (.arrivalStallEnd t c bytes cycles) s =
      .next (ran s ((fresh s).putCore t c (x.waited cycles.toNat))) := by
  rw [exec_arrivalStallEnd_goes h hx hp (by rw [hs, Bool.or_true]) (if_pos he),
    State.walkOn_not_walking (y := x.waited cycles.toNat) (State.core?_putCore ..) hw]

end

end Sys2Proof.Machine

open Sys2Proof Sys2Proof.Machine

/-- Settles O12: the queue's bound decides at the dispatch point, the filter's verdict at the dispatch to a core, and the
frame's end at the end of a wait. -/
theorem dispatchToACore : Obligations.DispatchToACore := by
  intro s t c q pre bytes cycles x k p fid rest
  refine ⟨dispatchPoint_queues, exec_dispatchPoint_discards, coreDispatch_core, fun v h hc hq hp hsame hanew => ?_,
    exec_arrivalStallEnd_ended,
    fun h hx hp hs he => exec_arrivalStallEnd_goes h hx hp hs (if_neg (ne_true_of_eq_false he))⟩
  have hv : s.rejudge p = v := by
    by_cases hj : p.judged = s.tagsAt p.tile
    · rw [State.rejudge_same hj, hsame hj]
    · rw [State.rejudge_anew hj, hanew hj]
  subst hv
  exact exec_coreDispatch_dispatch h hc hq hp

end

section
/-!
Scrubbers (R140, R149, R182, R193, R223, R228, R315): what a memory check's finding leaves in the fault collector and in the
word, and what each scrubber adds to it.
-/
namespace Sys2Proof.Machine

/-! ### Damaged words (R376, R382) -/

/-- A word's damage names the word. -/
theorem State.damaged_place {s : State} {ce a : Nat} {d : Damage} (h : s.damaged ce a = some d) :
    d.source = ce ∧ d.addr = a := by
  have hd := List.find?_some (p := fun x : Damage => x.source == ce && x.addr == a) h
  simpa using hd

/-- A word's new damage is what it holds. -/
theorem State.damaged_damage_eq (s : State) {d : Damage} {ce a : Nat} (hc : d.source = ce) (ha : d.addr = a) :
    (s.damage d).damaged ce a = some d := by
  rw [← hc, ← ha]
  exact State.damaged_damage ..

/-- What the scrubber or the world finds in a clean word changes only the damage. -/
theorem State.found_eq (s : State) (ce a : Nat) (f : Ecc) :
    s.found ce a f = { s with faults := { s.faults with damage := (s.found ce a f).faults.damage } } := by
  unfold State.found
  split
  · rfl
  · split <;> rfl
  · rfl

@[simp] theorem State.reports_found (s : State) (ce a : Nat) (f : Ecc) :
    (s.found ce a f).faults.reports = s.faults.reports := by rw [State.found_eq]

@[simp] theorem State.free_found (s : State) (ce a : Nat) (f : Ecc) : (s.found ce a f).free = s.free := by
  rw [State.found_eq]

theorem State.damaged_found_one {s : State} {ce a : Nat} (h : s.damaged ce a = none) :
    (s.found ce a .one).damaged ce a = some ⟨ce, a, 1, false, false⟩ := by
  rw [State.found, if_neg (by simp [h])]
  exact State.damaged_damage_eq s rfl rfl

theorem State.damaged_found_two {s : State} {ce a : Nat} (h : s.damaged ce a = none) :
    (s.found ce a .two).damaged ce a = some ⟨ce, a, 2, false, false⟩ := by
  rw [State.found, h]
  exact State.damaged_damage_eq s rfl rfl

/-! ### The check of a word (R376) -/

section
variable {s : State} {ce a : Nat} {d : Damage} (h : s.damaged ce a = some d) (ue u reporter shown access : Nat)
include h

/-- A damaged word that meets its check is reported, under the source for its bits in error, and stays damaged. -/
theorem State.checkWord_damaged :
    (s.checkWord ce ue u reporter a shown access).1 = d.bits ∧
    ((s.checkWord ce ue u reporter a shown access).2.damaged ce a).isSome = true ∧
    (s.checkWord ce ue u reporter a shown access).2.faults.reports = s.faults.reports ++
      [⟨if d.bits = 1 then ce else ue, u, reporter,
        detailM shown (Config.freeNat s.free % 2 ^ 16) access d.bits, d.injected⟩] := by
  obtain ⟨hc, ha⟩ := State.damaged_place h
  rw [State.checkWord, h]
  refine ⟨rfl, ?_, ?_⟩
  all_goals dsimp only
  · split
    · exact Option.isSome_iff_exists.2 ⟨_, State.damaged_damage_eq _ hc ha⟩
    · exact Option.isSome_iff_exists.2 ⟨d, h⟩
  · split <;> rfl

/-- A read corrects one wrong bit: it is reported, and the word reads clean. -/
theorem State.readWordAs_corrects (h1 : d.bits = 1) :
    (s.readWordAs ce ue u reporter a shown access).1 = false ∧
    (s.readWordAs ce ue u reporter a shown access).2.damaged ce a = none ∧
    (s.readWordAs ce ue u reporter a shown access).2.faults.reports = s.faults.reports ++
      [⟨ce, u, reporter, detailM shown (Config.freeNat s.free % 2 ^ 16) access 1, d.injected⟩] := by
  obtain ⟨hbits, -, hreports⟩ := State.checkWord_damaged h ue u reporter shown access
  rw [h1] at hbits hreports
  rw [State.readWordAs, if_pos hbits]
  exact ⟨rfl, State.damaged_mend .., hreports⟩

/-- More wrong bits are reported, and the word stays damaged. -/
theorem State.readWordAs_reports (h0 : d.bits ≠ 0) (h1 : d.bits ≠ 1) :
    (s.readWordAs ce ue u reporter a shown access).1 = true ∧
    ((s.readWordAs ce ue u reporter a shown access).2.damaged ce a).isSome = true ∧
    (s.readWordAs ce ue u reporter a shown access).2.faults.reports = s.faults.reports ++
      [⟨ue, u, reporter, detailM shown (Config.freeNat s.free % 2 ^ 16) access d.bits, d.injected⟩] := by
  obtain ⟨hbits, hdam, hreports⟩ := State.checkWord_damaged h ue u reporter shown access
  rw [if_neg h1] at hreports
  rw [State.readWordAs, if_neg (by rw [hbits]; exact h1)]
  exact ⟨by rw [hbits]; exact bne_iff_ne.2 h0, hdam, hreports⟩

end

/-- A word that a read could not correct stays damaged. -/
theorem State.damaged_of_uncorrectable {s : State} {ce ue u reporter a shown access : Nat}
    (h : (s.readWordAs ce ue u reporter a shown access).1 = true) :
    ((s.readWordAs ce ue u reporter a shown access).2.damaged ce a).isSome = true := by
  cases hd : s.damaged ce a with
  | none => simp [State.readWordAs, State.checkWord, hd] at h
  | some d =>
    obtain ⟨hbits, hdam, -⟩ := State.checkWord_damaged hd ue u reporter shown access
    rw [State.readWordAs] at h ⊢
    split at h
    · cases h
    · rename_i h1
      rw [if_neg h1]
      exact hdam

/-! ### A visit of a scrubber -/

/-- A scrubber visits a word of an ECC array and finds `f`; the answer says whether the word is uncorrectable. -/
def State.visit (s : State) (ce ue u a shown : Nat) (f : Ecc) : Bool × State :=
  (s.found ce a f).readWordAs ce ue u u a shown 2

/-- A visit changes only the fault collector and the free values. -/
theorem State.visit_eq (s : State) (ce ue u a shown : Nat) (f : Ecc) : (s.visit ce ue u a shown f).2 = { s with
    free := (s.visit ce ue u a shown f).2.free, faults := (s.visit ce ue u a shown f).2.faults } := by
  have hread := State.readWordAs_eq (s.found ce a f) ce ue u u a shown 2
  rw [State.visit, hread, State.found_eq]

@[simp] theorem State.get_visit (s : State) (ce ue u a shown : Nat) (f : Ecc) (r : Ref) (e : Nat) :
    (s.visit ce ue u a shown f).2.get r e = s.get r e := by
  rw [State.visit_eq]
  rfl

@[simp] theorem State.buf_visit (s : State) (ce ue u a shown : Nat) (f : Ecc) :
    (s.visit ce ue u a shown f).2.buf = s.buf := by rw [State.visit_eq]

section
variable {s : State} {ce ue u a shown : Nat}

theorem State.visit_clean (h : s.damaged ce a = none) : s.visit ce ue u a shown .ok = (false, s) := by
  simp [State.visit, State.found, State.readWordAs, State.checkWord, h]

theorem State.visit_one (h : s.damaged ce a = none) :
    (s.visit ce ue u a shown .one).1 = false ∧ (s.visit ce ue u a shown .one).2.damaged ce a = none ∧
    (s.visit ce ue u a shown .one).2.faults.reports = s.faults.reports ++ [scrubReport s ce u shown 1] := by
  obtain ⟨hok, hclean, hreports⟩ := State.readWordAs_corrects (State.damaged_found_one h) ue u u shown 2 rfl
  rw [State.reports_found, State.free_found] at hreports
  exact ⟨hok, hclean, hreports⟩

theorem State.visit_held {d : Damage} (h : s.damaged ce a = some d) (h1 : d.bits = 1) :
    (s.visit ce ue u a shown .ok).1 = false ∧ (s.visit ce ue u a shown .ok).2.damaged ce a = none ∧
    (s.visit ce ue u a shown .ok).2.faults.reports =
      s.faults.reports ++ [{ scrubReport s ce u shown 1 with injected := d.injected }] :=
  State.readWordAs_corrects h ue u u shown 2 h1

theorem State.visit_two (h : s.damaged ce a = none) :
    (s.visit ce ue u a shown .two).1 = true ∧ ((s.visit ce ue u a shown .two).2.damaged ce a).isSome = true ∧
    (s.visit ce ue u a shown .two).2.faults.reports = s.faults.reports ++ [scrubReport s ue u shown 2] := by
  obtain ⟨hbad, hdam, hreports⟩ := State.readWordAs_reports (State.damaged_found_two h) ue u u shown 2
    (by simp) (by simp)
  rw [State.reports_found, State.free_found] at hreports
  exact ⟨hbad, hdam, hreports⟩

end

/-- Scrubber `i` visits the word `a` of an array: a word that it can correct leaves the fault collector as the visit leaves
it; of one that it cannot, the reports stand, and the word stays damaged or not as `keeps` says. -/
def Scrubs (s : State) (i : Ecc → Instr) (ce ue u a shown : Nat) (keeps : Prop) : Prop :=
  ∀ f, Does (i f) s fun v =>
    (((fresh s).visit ce ue u a shown f).1 = false → v.faults = ((fresh s).visit ce ue u a shown f).2.faults) ∧
    (((fresh s).visit ce ue u a shown f).1 = true →
      (∀ x ∈ ((fresh s).visit ce ue u a shown f).2.faults.reports, x ∈ v.faults.reports) ∧
      ((v.damaged ce a).isSome = true ↔ keeps))

/-- States with one fault collector hold the same damage. -/
theorem State.damaged_congr {u v : State} (h : u.faults.damage = v.faults.damage) (ce a : Nat) :
    u.damaged ce a = v.damaged ce a := by rw [State.damaged, h, State.damaged]

section
variable {s : State} {i : Ecc → Instr} {ce ue u a shown : Nat} {keeps : Prop}

/-- A scrubber that leaves the fault collector as its visit does. -/
theorem Scrubs.of_faults (hk : keeps) (h : ∀ f, Does (i f) s fun v =>
    v.faults = ((fresh s).visit ce ue u a shown f).2.faults) : Scrubs s i ce ue u a shown keeps := fun f => by
  obtain ⟨v, hv, hf⟩ := h f
  refine ⟨v, hv, fun _ => hf, fun hbad => ⟨fun x hx => hf ▸ hx, iff_of_true ?_ hk⟩⟩
  rw [State.damaged_congr (congrArg Faults.damage hf)]
  exact State.damaged_of_uncorrectable hbad

theorem Scrubs.of_iff {keeps' : Prop} (h : Scrubs s i ce ue u a shown keeps) (hk : keeps ↔ keeps') :
    Scrubs s i ce ue u a shown keeps' := propext hk ▸ h

/-- What a scrubber does with a clean word and with one wrong bit. -/
theorem Scrubs.clean (h : Scrubs s i ce ue u a shown keeps) (hn : s.damaged ce a = none) :
    (Does (i .ok) s fun v => v.faults = s.faults) ∧
    (Does (i .one) s fun v => v.damaged ce a = none ∧
      v.faults.reports = s.faults.reports ++ [scrubReport s ce u shown 1]) := by
  have hn' : (fresh s).damaged ce a = none := hn
  obtain ⟨v, hv, hgood, -⟩ := h .ok
  obtain ⟨w, hw, hgood', -⟩ := h .one
  rw [State.visit_clean hn'] at hgood
  obtain ⟨hok, hclean, hreports⟩ := State.visit_one (ue := ue) (u := u) (shown := shown) hn'
  refine ⟨⟨v, hv, hgood rfl⟩, w, hw, ?_, ?_⟩
  · rw [State.damaged_congr (congrArg Faults.damage (hgood' hok))]
    exact hclean
  · rw [hgood' hok]
    exact hreports

/-- What it does with a word that held one wrong bit before. -/
theorem Scrubs.held (h : Scrubs s i ce ue u a shown keeps) {d : Damage} (hd : s.damaged ce a = some d)
    (h1 : d.bits = 1) : Does (i .ok) s fun v => v.damaged ce a = none ∧
      v.faults.reports = s.faults.reports ++ [{ scrubReport s ce u shown 1 with injected := d.injected }] := by
  have hd' : (fresh s).damaged ce a = some d := hd
  obtain ⟨v, hv, hgood, -⟩ := h .ok
  obtain ⟨hok, hclean, hreports⟩ := State.visit_held (ue := ue) (u := u) (shown := shown) hd' h1
  refine ⟨v, hv, ?_, ?_⟩
  · rw [State.damaged_congr (congrArg Faults.damage (hgood hok))]
    exact hclean
  · rw [hgood hok]
    exact hreports

/-- What it does with two wrong bits. -/
theorem Scrubs.two (h : Scrubs s i ce ue u a shown keeps) (hn : s.damaged ce a = none) :
    Does (i .two) s fun v => scrubReport s ue u shown 2 ∈ v.faults.reports ∧
      ((v.damaged ce a).isSome = true ↔ keeps) := by
  have hn' : (fresh s).damaged ce a = none := hn
  obtain ⟨v, hv, -, hbad⟩ := h .two
  obtain ⟨htwo, -, hreports⟩ := State.visit_two (ue := ue) (u := u) (shown := shown) hn'
  obtain ⟨hmem, hkeeps⟩ := hbad htwo
  refine ⟨v, hv, hmem _ ?_, hkeeps⟩
  rw [hreports]
  exact List.mem_append_right _ (List.mem_singleton.2 rfl)

end

end Sys2Proof.Machine
end

section
/-!
What each scrubber does beside its visit (R140, R149, R182, R193, R223, R228, R315), the repair of an associative row (R182)
and the rebuilding of level entries (R193).
-/
namespace Sys2Proof.Machine

/-! ### Program memory, Amber rows, table store -/

section
variable {s : State} (h : Runs s)
include h

theorem pmemScrub_scrubs (t : Tile) (row : BitVec 14) :
    Scrubs s (.pmemScrub t row) (0x220 + t) (0x240 + t) (unitId 2 t) row.toNat row.toNat True :=
  .of_faults trivial fun _ => does_of_eq exec_pmemScrub h rfl rfl

theorem amberScrub_scrubs (t : Tile) (image : Fin 2) (r : BitVec 12) :
    Scrubs s (.amberScrub t image r) (0x260 + t) (0x280 + t) (unitId 2 t) (image.val * 4096 + r.toNat)
      (image.val * 4096 + r.toNat) True :=
  .of_faults trivial fun _ => does_of_eq exec_amberScrub h rfl rfl

/-- The unit of the table store that a scrubber visits. -/
def storeUnit (x : Partition) (bucket : Fin 131072) (slot : Fin 4) : Nat :=
  (x.val * 131072 + bucket.val) * 4 + slot.val

/-- A unit of a table that cannot be corrected counts at the table. -/
theorem exec_tableStoreScrub_visit (x : Partition) (bucket : Fin 131072) (slot : Fin 4) (f : Ecc) :
    exec (.tableStoreScrub x bucket slot f) s = .next (ran s
      (let r := (fresh s).visit (0x300 + x) (0x310 + x) (unitId 4 x) (storeUnit x bucket slot)
        (storeUnit x bucket slot / 4) f
       match r.1, s.tableAt (storeUnit x bucket slot) with
       | true, some n => r.2.count64 (O.TABLE_COUNTS n 13)
       | _, _ => r.2)) := by
  have htable : ((fresh s).found (0x300 + x) (storeUnit x bucket slot) f).tableAt (storeUnit x bucket slot) =
      s.tableAt (storeUnit x bucket slot) := by
    rw [State.found_eq]
    rfl
  refine exec_eq_ran exec_tableStoreScrub h ?_
  rw [← htable]
  rfl

theorem tableStoreScrub_scrubs (x : Partition) (bucket : Fin 131072) (slot : Fin 4) :
    Scrubs s (.tableStoreScrub x bucket slot) (0x300 + x) (0x310 + x) (unitId 4 x) (storeUnit x bucket slot)
      (storeUnit x bucket slot / 4) True := by
  refine .of_faults trivial fun f => ⟨_, exec_tableStoreScrub_visit h x bucket slot f, ?_⟩
  dsimp only
  split <;> rfl

theorem tableStoreScrub_counts {x : Partition} {bucket : Fin 131072} {slot : Fin 4} {n : Nat}
    (hd : s.damaged (0x300 + x) (storeUnit x bucket slot) = none)
    (hn : s.tableAt (storeUnit x bucket slot) = some n) :
    Does (.tableStoreScrub x bucket slot .two) s fun u =>
      u.get (O.TABLE_COUNTS n 13) = (s.get (O.TABLE_COUNTS n 13) + 1) % 2 ^ 64 := by
  have hd' : (fresh s).damaged (0x300 + x) (storeUnit x bucket slot) = none := hd
  refine ⟨_, exec_tableStoreScrub_visit h x bucket slot .two, ?_⟩
  simp only [(State.visit_two (ue := 0x310 + x) (u := unitId 4 x) (shown := storeUnit x bucket slot / 4) hd').1, hn]
  rw [ran_get, State.get_count64_same, State.get_visit, fresh_get]

end

/-! ### Counters (R315) -/

/-- A word that cannot be corrected: a flow record is invalidated, a counter becomes 0 and its address is latched. -/
def State.counterLost (s : State) (addr : Nat) (flow : Bool) : State :=
  if flow then ((s.set O.FLOW_CACHE 0 (addr / 64)).count64 (O.FLOW_COUNTS 13)).count64 (O.LEDGER_COUNTS 8)
  else ((s.zeroCounter addr).set O.LAST_DAMAGED addr).count64 (O.LEDGER_COUNTS 7)

@[simp] theorem State.faults_zeroCounter (s : State) (addr : Nat) : (s.zeroCounter addr).faults = s.faults := by
  unfold State.zeroCounter
  split
  · rfl
  · exact State.setK_faults ..
  · exact State.setK_faults ..

@[simp] theorem State.faults_counterLost (s : State) (addr : Nat) (flow : Bool) :
    (s.counterLost addr flow).faults = s.faults := by
  cases flow <;> simp [State.counterLost]

/-- The source of one wrong bit in a store of counters. -/
def counterCe (flow : Bool) : Nat := if flow then 0x802 else 0x800

/-- The scrubber of a store of counters, whose word becomes clean. -/
theorem counterScrub_scrubs {s : State} (h : Runs s) (addr : Fin 67108864) (flow : Bool) :
    Scrubs s (.counterScrub addr flow) (counterCe flow) (counterCe flow + 1) (unitId 5 0) addr addr False := fun f => by
  refine ⟨_, exec_eq_ran exec_counterScrub h (u :=
    if !((fresh s).visit (counterCe flow) (counterCe flow + 1) (unitId 5 0) addr addr f).1 then
      ((fresh s).visit (counterCe flow) (counterCe flow + 1) (unitId 5 0) addr addr f).2
    else (((fresh s).visit (counterCe flow) (counterCe flow + 1) (unitId 5 0) addr addr f).2.mend (counterCe flow)
      addr).counterLost addr flow) rfl, fun hgood => ?_, fun hbad => ?_⟩
  · rw [hgood]
    rfl
  · rw [hbad, Bool.not_true, if_neg Bool.false_ne_true, ran_faults, State.faults_counterLost]
    refine ⟨fun x hx => hx, iff_of_false ?_ id⟩
    rw [State.damaged_congr (v := State.mend _ (counterCe flow) addr) (by rw [ran_faults, State.faults_counterLost]),
      State.damaged_mend]
    exact Bool.false_ne_true

/-! ### Cells (R223) -/

/-- The deficit of the carve-out is all that changes of the buffer, reports are only added, and but for three objects none
changes. -/
theorem State.recarve_keeps (s : State) : (∃ b, s.recarve.buf = { s.buf with deficit := b }) ∧
    s.recarve.faults.damage = s.faults.damage ∧ (∀ x ∈ s.faults.reports, x ∈ s.recarve.faults.reports) ∧
    ∀ r e, r ≠ O.CARVED → r ≠ O.CELLS_AVAILABLE → (∀ n, r ≠ O.POOL_CAP_EFFECTIVE n) →
      s.recarve.get r e = s.get r e := by
  unfold State.recarve
  extract_lets s1 d caps eff old s2 further b s3
  have hs2 : s2 = { s1 with dict := s2.dict } := by
    simp only [s2]
    rw [State.each_set_eq]
  have hget : ∀ r e, r ≠ O.CARVED → r ≠ O.CELLS_AVAILABLE → (∀ n, r ≠ O.POOL_CAP_EFFECTIVE n) →
      s2.get r e = s.get r e := fun r e h1 h2 h3 => by
    refine (State.get_each _ _ r e (fun u x _ => State.get_set_other _ _ _ _ (.inl (h3 x))) s1).trans ?_
    rw [State.get_set_other _ _ _ _ (.inl h2), State.get_set_other _ _ _ _ (.inl h1)]
  have hfaults : s2.faults = s.faults := by rw [hs2]; rfl
  have hbuf : s2.buf = s.buf := by rw [hs2]; rfl
  clear_value s2 further d
  have hdeficit : s3.buf = { s.buf with deficit := decide (0 < d) } :=
    congrArg (fun y => { y with deficit := decide (0 < d) }) hbuf
  have hs3 : s3.faults = s.faults := hfaults
  split
  · have hdamage : (s3.report 0x644 (unitId 1 0) (detailS (leBytes 4 d))).faults.damage = s3.faults.damage := rfl
    refine ⟨⟨_, hdeficit⟩, hdamage.trans (congrArg Faults.damage hs3), fun x hx => List.mem_append_left _ ?_, hget⟩
    rw [hs3]
    exact hx
  · exact ⟨⟨_, hdeficit⟩, congrArg Faults.damage hs3, fun x hx => hs3 ▸ hx, hget⟩

/-- A cell that cannot be corrected: an allocated one poisons its packet, a free one is quarantined. -/
def State.cellLost (s : State) (c : Cell) : State :=
  if s.buf.used.contains c.val then
    ({ s with buf := { s.buf with doomed := insNat c s.buf.doomed } }).mapPkts fun p =>
      if p.cells.contains c.val then { p with poison := true } else p
  else if s.cellFree c then s.quarantine c
  else s

theorem State.cellLost_faults (s : State) (c : Cell) : (s.cellLost c).faults.damage = s.faults.damage ∧
    ∀ x ∈ s.faults.reports, x ∈ (s.cellLost c).faults.reports := by
  unfold State.cellLost
  split
  · exact ⟨rfl, fun _ hx => hx⟩
  · split
    · obtain ⟨-, hdamage, hreports, -⟩ := State.recarve_keeps (State.set { s with buf := { s.buf with
        quar := insNat c s.buf.quar } } (O.BANK_QUARANTINED (bankOfCell c)) (s.get (O.BANK_QUARANTINED (bankOfCell c)) + 1))
      exact ⟨hdamage, hreports⟩
    · exact ⟨rfl, fun _ hx => hx⟩

theorem State.cellLost_used {s : State} {c : Cell} (h : s.buf.used.contains c.val = true) :
    (s.cellLost c).buf.doomed.contains c.val = true ∧ ∀ p ∈ (s.cellLost c).buf.pkts, c.val ∈ p.cells → p.poison = true := by
  rw [State.cellLost, if_pos h]
  refine ⟨List.contains_iff_mem.2 (mem_insNat.2 (.inl rfl)), fun p hp hc => ?_⟩
  obtain ⟨q, -, rfl⟩ := List.mem_map.1 hp
  by_cases hq : q.cells.contains c.val = true
  · rw [if_pos hq]
  · rw [if_neg hq] at hc
    exact absurd (List.contains_iff_mem.2 hc) hq

theorem State.cellLost_free {s : State} {c : Cell} (h : s.buf.used.contains c.val = false) (hf : s.cellFree c = true) :
    (s.cellLost c).buf.quar.contains c.val = true ∧
    (s.cellLost c).get (O.BANK_QUARANTINED (bankOfCell c)) = s.get (O.BANK_QUARANTINED (bankOfCell c)) + 1 := by
  rw [State.cellLost, if_neg (ne_true_of_eq_false h), if_pos hf]
  obtain ⟨⟨b, hbuf⟩, -, -, hget⟩ := State.recarve_keeps (State.set { s with buf := { s.buf with
    quar := insNat c s.buf.quar } } (O.BANK_QUARANTINED (bankOfCell c)) (s.get (O.BANK_QUARANTINED (bankOfCell c)) + 1))
  refine ⟨?_, (hget _ 0 (by simp) (by simp) (by simp)).trans (State.get_set_same ..)⟩
  have hquar := congrArg (fun y => y.quar.contains c.val) hbuf
  exact hquar.trans (List.contains_iff_mem.2 (mem_insNat.2 (.inl rfl)))

section
variable {s : State} (h : Runs s)
include h

/-- CELL_SCRUB of a word that is damaged, or that the visit finds so. -/
theorem exec_cellScrub_visit {c : Cell} {f : Ecc} {d : Damage}
    (hd : ((fresh s).found (0x400 + bankOfCell c) c f).damaged (0x400 + bankOfCell c) c = some d) :
    exec (.cellScrub c f) s = .next (ran s
      (let r := (fresh s).visit (0x400 + bankOfCell c) (0x4C0 + bankOfCell c) (unitId 3 (bankOfCell c)) c c f
       let v := r.2.count64 (O.BANK_ERRORS (bankOfCell c)) 1 (if d.bits = 1 then 0 else 1)
       if !r.1 then v else v.cellLost c)) := by
  refine exec_eq_ran exec_cellScrub h ?_
  simp only [hd]
  rfl

theorem cellScrub_scrubs (c : Cell) :
    Scrubs s (.cellScrub c) (0x400 + bankOfCell c) (0x4C0 + bankOfCell c) (unitId 3 (bankOfCell c)) c c True := fun f => by
  cases hd : ((fresh s).found (0x400 + bankOfCell c) c f).damaged (0x400 + bankOfCell c) c with
  | none =>
    have hvisit : (fresh s).visit (0x400 + bankOfCell c) (0x4C0 + bankOfCell c) (unitId 3 (bankOfCell c)) c c f =
        (false, (fresh s).found (0x400 + bankOfCell c) c f) := State.readWord_clean hd ..
    refine ⟨_, exec_eq_ran exec_cellScrub h (u := (fresh s).found (0x400 + bankOfCell c) c f) ?_, ?_⟩
    · simp only [hd]
    · rw [hvisit]
      exact ⟨fun _ => rfl, fun hbad => absurd hbad Bool.false_ne_true⟩
  | some d =>
    refine ⟨_, exec_cellScrub_visit h hd, fun hgood => ?_, fun hbad => ?_⟩
    · dsimp only
      rw [hgood]
      rfl
    · dsimp only
      rw [hbad, Bool.not_true, if_neg Bool.false_ne_true]
      obtain ⟨hdamage, hreports⟩ := State.cellLost_faults (State.count64 ((fresh s).visit (0x400 + bankOfCell c)
        (0x4C0 + bankOfCell c) (unitId 3 (bankOfCell c)) c c f).2 (O.BANK_ERRORS (bankOfCell c)) 1
        (if d.bits = 1 then 0 else 1)) c
      exact ⟨hreports, iff_of_true ((congrArg Option.isSome (State.damaged_congr hdamage _ _)).trans
        (State.damaged_of_uncorrectable hbad)) trivial⟩

/-- Two wrong bits in a cell: its packet is poisoned, or the cell quarantined. -/
theorem cellScrub_two {c : Cell} (hn : s.damaged (0x400 + bankOfCell c) c = none) :
    (s.buf.used.contains c.val = true → Does (.cellScrub c .two) s fun u =>
      u.buf.doomed.contains c.val = true ∧ ∀ p ∈ u.buf.pkts, c.val ∈ p.cells → p.poison = true) ∧
    (s.buf.used.contains c.val = false → s.cellFree c = true → Does (.cellScrub c .two) s fun u =>
      u.buf.quar.contains c.val = true ∧
      u.get (O.BANK_QUARANTINED (bankOfCell c)) = s.get (O.BANK_QUARANTINED (bankOfCell c)) + 1) := by
  have hn' : (fresh s).damaged (0x400 + bankOfCell c) c = none := hn
  have hexec := exec_cellScrub_visit h (State.damaged_found_two hn')
  obtain ⟨hbad, -⟩ := State.visit_two (ue := 0x4C0 + bankOfCell c) (u := unitId 3 (bankOfCell c)) (shown := c.val) hn'
  dsimp only at hexec
  rw [hbad, Bool.not_true, if_neg Bool.false_ne_true] at hexec
  have hbuf := (fresh s).buf_visit (0x400 + bankOfCell c) (0x4C0 + bankOfCell c) (unitId 3 (bankOfCell c)) c c .two
  refine ⟨fun hu => ⟨_, hexec, State.cellLost_used ?_⟩, fun hu hf => ⟨_, hexec, ?_⟩⟩
  · rw [State.count64_buf, hbuf]
    exact hu
  · obtain ⟨hquar, hcount⟩ := State.cellLost_free (c := c) (s := State.count64 ((fresh s).visit (0x400 + bankOfCell c)
      (0x4C0 + bankOfCell c) (unitId 3 (bankOfCell c)) c c .two).2 (O.BANK_ERRORS (bankOfCell c)) 1 1)
      (by rw [State.count64_buf, hbuf]; exact hu) (by rw [State.cellFree, State.count64_buf, hbuf]; exact hf)
    refine ⟨hquar, hcount.trans ?_⟩
    rw [State.get_count64_other _ _ (.inl (by simp)), State.get_visit, fresh_get]

end

end Sys2Proof.Machine
end

section
/-!
The descriptor store's scrubber (R228), the associative array's (R182), the rebuilding of level entries (R193); and the
statement on scrubbers.
-/
namespace Sys2Proof.Machine

/-! ### The descriptor store (R228) -/

/-- The same state with free values drawn up to another one. -/
def State.withFree (s : State) (n : Nat) : State := { s with free := n }

/-- Naming a word of the descriptor store draws at most a free value. -/
theorem State.storeShown_eq (s : State) (w : StoreWord) :
    (s.storeShown w).2 = s.withFree (s.storeShown w).2.free := by
  unfold State.storeShown
  split
  · rfl
  · split <;> rfl
  · rfl

/-- The loss of a word's packets changes only packets. -/
@[simp] theorem State.faults_loseWord (s : State) (w : StoreWord) : (s.loseWord w).faults = s.faults := by
  cases w <;> rfl

/-- Every packet that uses the word is lost. -/
theorem State.loseWord_lost (s : State) (h : Handle) (cell : Cell) (w : StoreWord) :
    ∀ p ∈ (s.loseWord w).buf.pkts, (w = .descriptor h → p.enq = true → p.handle = h.val → p.lost = true) ∧
      (w = .link cell → cell.val ∈ p.cells → p.lost = true) := by
  intro p hp
  constructor
  · rintro rfl henq hh
    obtain ⟨q, -, rfl⟩ := List.mem_map.1 hp
    by_cases hq : (q.enq && q.handle == h.val) = true
    · rw [if_pos hq]
    · rw [if_neg hq] at henq hh
      exact absurd (Bool.and_eq_true_iff.2 ⟨henq, beq_iff_eq.2 hh⟩) hq
  · rintro rfl hc
    obtain ⟨q, -, rfl⟩ := List.mem_map.1 hp
    by_cases hq : q.cells.contains cell.val = true
    · rw [if_pos hq]
    · rw [if_neg hq] at hc
      exact absurd (List.contains_iff_mem.2 hc) hq

section
variable {s : State} (h : Runs s)
include h

/-- DESCRIPTOR_SCRUB of a descriptor names its handle. -/
theorem descriptorScrub_scrubs (d : Handle) :
    Scrubs s (.descriptorScrub (.descriptor d)) 0x642 0x643 (unitId 6 0) d d True := by
  refine .of_faults trivial fun f => ⟨_, exec_eq_ran exec_descriptorScrub h rfl, ?_⟩
  refine (apply_ite State.faults _ _ _).trans ?_
  rw [State.faults_loseWord]
  exact ite_self _

/-- A word of the store is visited as another one is, but for the address that its report names. -/
theorem exec_descriptorScrub_visit (w : StoreWord) (f : Ecc) :
    ∃ shown free, exec (.descriptorScrub w f) s = .next (ran s
      (let r := (((fresh s).found 0x642 (storeAddr w) f).withFree free).readWordAs 0x642 0x643 (unitId 6 0) (unitId 6 0)
         (storeAddr w) shown 2
       if r.1 then r.2.loseWord w else r.2)) := by
  refine ⟨(((fresh s).found 0x642 (storeAddr w) f).storeShown w).1,
    (((fresh s).found 0x642 (storeAddr w) f).storeShown w).2.free, exec_eq_ran exec_descriptorScrub h ?_⟩
  rw [← State.storeShown_eq]

variable {w : StoreWord} (hn : s.damaged 0x642 (storeAddr w) = none)
include hn

theorem descriptorScrub_clean : Does (.descriptorScrub w .ok) s fun u => u.faults = s.faults := by
  obtain ⟨shown, free, hexec⟩ := exec_descriptorScrub_visit h w .ok
  have hn' : ((fresh s).withFree free).damaged 0x642 (storeAddr w) = none := hn
  have hread : (((fresh s).found 0x642 (storeAddr w) .ok).withFree free).readWordAs 0x642 0x643 (unitId 6 0)
      (unitId 6 0) (storeAddr w) shown 2 = (false, (fresh s).withFree free) := by
    simp [State.found, State.readWordAs, State.checkWord, hn']
  dsimp only at hexec
  rw [hread] at hexec
  exact ⟨_, hexec, rfl⟩

theorem descriptorScrub_one : Does (.descriptorScrub w .one) s fun u => u.damaged 0x642 (storeAddr w) = none ∧
    ∃ shown syn, u.faults.reports = s.faults.reports ++
      [⟨0x642, unitId 6 0, unitId 6 0, detailM shown syn 2 1, false⟩] := by
  have hn' : (fresh s).damaged 0x642 (storeAddr w) = none := hn
  obtain ⟨shown, free, hexec⟩ := exec_descriptorScrub_visit h w .one
  have hd : (((fresh s).found 0x642 (storeAddr w) .one).withFree free).damaged 0x642 (storeAddr w) =
      some ⟨0x642, storeAddr w, 1, false, false⟩ := State.damaged_found_one hn'
  obtain ⟨hok, hclean, hreports⟩ := State.readWordAs_corrects hd 0x643 (unitId 6 0) (unitId 6 0) shown 2 rfl
  dsimp only at hexec
  rw [hok, if_neg Bool.false_ne_true] at hexec
  exact ⟨_, hexec, hclean, shown, Config.freeNat free % 2 ^ 16,
    hreports.trans (congrArg (· ++ _) (State.reports_found ..))⟩

theorem descriptorScrub_two (d : Handle) (cell : Cell) :
    Does (.descriptorScrub w .two) s fun u => (u.damaged 0x642 (storeAddr w)).isSome = true ∧
      (∃ shown syn, u.faults.reports = s.faults.reports ++
        [⟨0x643, unitId 6 0, unitId 6 0, detailM shown syn 2 2, false⟩]) ∧
      ∀ p ∈ u.buf.pkts, (w = .descriptor d → p.enq = true → p.handle = d.val → p.lost = true) ∧
        (w = .link cell → cell.val ∈ p.cells → p.lost = true) := by
  have hn' : (fresh s).damaged 0x642 (storeAddr w) = none := hn
  obtain ⟨shown, free, hexec⟩ := exec_descriptorScrub_visit h w .two
  have hd : (((fresh s).found 0x642 (storeAddr w) .two).withFree free).damaged 0x642 (storeAddr w) =
      some ⟨0x642, storeAddr w, 2, false, false⟩ := State.damaged_found_two hn'
  obtain ⟨hbad, hdam, hreports⟩ := State.readWordAs_reports hd 0x643 (unitId 6 0) (unitId 6 0) shown 2 (by simp) (by simp)
  dsimp only at hexec
  rw [hbad, if_pos rfl] at hexec
  refine ⟨_, hexec, ?_, ⟨shown, Config.freeNat free % 2 ^ 16, ?_⟩, State.loseWord_lost _ d cell w⟩
  · refine (congrArg Option.isSome (State.damaged_congr ?_ _ _)).trans hdam
    rw [ran_faults, State.faults_loseWord]
  · rw [ran_faults, State.faults_loseWord]
    exact hreports.trans (congrArg (· ++ _) (State.reports_found ..))

end

/-! ### The associative array (R182) -/

section
variable {s : State} {t : Tile} {r : BitVec 12} (h : Runs s)
include h

theorem mamScrub_clean : Does (.mamScrub t r .ok) s fun u => u.faults = s.faults :=
  does_of_eq exec_mamScrub h rfl rfl

/-- The scrubber finds an odd row, and leaves its report to the search or the repair. -/
theorem mamScrub_one (hn : s.damaged (0x3A0 + t) r.toNat = none) :
    Does (.mamScrub t r .one) s fun u => (u.damaged (0x3A0 + t) r.toNat).isSome = true ∧
      u.faults.reports = s.faults.reports := by
  have hn' : (fresh s).damaged (0x3A0 + t) r.toNat = none := hn
  exact does_of_eq (u := (fresh s).found (0x3A0 + t) r.toNat .one) exec_mamScrub h rfl
    ⟨Option.isSome_iff_exists.2 ⟨_, State.damaged_found_one hn'⟩, State.reports_found ..⟩

/-- A damaged row is rewritten, and reported unless a search has reported it. -/
theorem mamEntryRepair_repairs {d : Damage} (hd : s.damaged (0x3A0 + t) r.toNat = some d) :
    Does (.mamEntryRepair t r) s fun u => u.damaged (0x3A0 + t) r.toNat = none ∧
      u.faults.reports = s.faults.reports ++ (if d.told then [] else
        [⟨0x3A0 + t, unitId 2 t, unitId 2 t, detailM r.toNat 0 2 1, d.injected⟩]) := by
  have hd' : (fresh s).damaged (0x3A0 + t) r.toNat = some d := hd
  refine (does_iff exec_mamEntryRepair h).2 ?_
  simp only [hd']
  refine ⟨State.damaged_mend .., ?_⟩
  cases d.told
  · rfl
  · exact (List.append_nil _).symm

end

/-! ### Level entries (R193) -/

/-- A word written while no injection is armed reads clean. -/
theorem State.wordWrittenAs_unarmed {s : State} (h : s.faults.armed = []) (ce ue u a shown : Nat) :
    s.wordWrittenAs ce ue u a shown = if s.faults.damage = [] then s else s.mend ce a := by
  have harmed : (if s.faults.damage = [] then s else s.mend ce a).faults.armed = [] := by
    split
    · exact h
    · simp [State.mend, State.disarm, h]
  simp only [State.wordWrittenAs, harmed, List.find?_nil]

theorem State.damaged_wordWrittenAs {s : State} (h : s.faults.armed = []) (ce ue u a shown : Nat) :
    (s.wordWrittenAs ce ue u a shown).damaged ce a = none := by
  rw [State.wordWrittenAs_unarmed h]
  split
  · exact State.damaged_of_none ‹_› ..
  · exact State.damaged_mend ..

theorem State.readable_putUnit {s : State} (h : s.faults.armed = []) (n v : Nat) :
    (s.putUnit n v).readable n = true := by
  have hclean : (s.putUnit n v).damaged (0x300 + unitPart n) n = none := State.damaged_wordWrittenAs (by exact h) ..
  rw [State.readable, hclean]

/-- No other unit changes. -/
theorem State.unit_putUnit_other {s : State} (h : s.faults.armed = []) {n k : Nat} (hk : k ≠ n) (v : Nat) :
    (s.putUnit n v).unit k = s.unit k := by
  have hstore : (s.putUnit n v).lookup.store = putN 0 n v s.lookup.store := by
    rw [State.putUnit, State.wordWrittenAs_unarmed (by exact h)]
    split <;> rfl
  rw [State.unit, hstore]
  exact look_put_other _ _ _ (Ne.symm hk) _ _

/-- LEVEL_ENTRY_REBUILD writes an unreadable unit of a table of level entries. -/
theorem levelEntryRebuild_writes {s : State} {b : Fin 2097152} {slot : Fin 4} {n k e : Nat} (h : Runs s)
    (ht : s.tableAt (b.val * 4 + slot.val) = some n) (hl : (s.decl n).isLpm = true)
    (hk : (s.decl n).levelOf (b.val * 4 + slot.val) = some (k, e)) (hr : s.readable (b.val * 4 + slot.val) = false) :
    Does (.levelEntryRebuild b slot) s fun u => ∃ v, u = ran s ((fresh s).putUnit (b.val * 4 + slot.val) v) := by
  have ht' : (fresh s).tableAt (b.val * 4 + slot.val) = some n := ht
  have hl' : ((fresh s).decl n).isLpm = true := hl
  have hk' : ((fresh s).decl n).levelOf (b.val * 4 + slot.val) = some (k, e) := hk
  have hr' : (fresh s).readable (b.val * 4 + slot.val) = false := hr
  refine (does_iff exec_levelEntryRebuild h).2 ?_
  simp only [ht', hl', hr', hk', Bool.not_false, Bool.and_true, if_true]
  exact ⟨_, rfl⟩

end Sys2Proof.Machine

open Sys2Proof Sys2Proof.Machine

/-- Settles O13: every scrubber's visit is a check of one word, and each adds to it what its array asks for. -/
theorem scrubbersRepairAndReport : Obligations.ScrubbersRepairAndReport := by
  intro s t row image r x bucket slot cell h w addr flow b hruns unit bank ctr arrays
  refine ⟨fun i ce ue dom at_ shown hmem => ?_, cellScrub_two hruns,
    fun hn => ⟨descriptorScrub_clean hruns hn, descriptorScrub_one hruns hn, descriptorScrub_two hruns hn h cell⟩,
    fun n => tableStoreScrub_counts hruns, fun hn => ⟨mamScrub_clean hruns, mamScrub_one hruns hn⟩,
    fun d => mamEntryRepair_repairs hruns, fun n k e ha ht hl hk hr => ?_⟩
  · have hscrubs : Scrubs s i ce ue dom at_ shown (ce ≠ ctr) := by
      have hctr : ∀ c, c < 0x800 → c ≠ ctr := fun c hc => by
        cases flow
        · exact Nat.ne_of_lt hc
        · exact Nat.ne_of_lt (Nat.lt_add_right 2 hc)
      have hcell := cell.isLt
      simp only [arrays, List.mem_cons, Prod.mk.injEq, List.not_mem_nil, or_false] at hmem
      obtain ⟨rfl, rfl, rfl, rfl, rfl, rfl⟩ | ⟨rfl, rfl, rfl, rfl, rfl, rfl⟩ | ⟨rfl, rfl, rfl, rfl, rfl, rfl⟩ |
        ⟨rfl, rfl, rfl, rfl, rfl, rfl⟩ | ⟨rfl, rfl, rfl, rfl, rfl, rfl⟩ | ⟨rfl, rfl, rfl, rfl, rfl, rfl⟩ := hmem
      · exact (pmemScrub_scrubs hruns t row).of_iff (iff_of_true trivial (hctr _ (by omega)))
      · exact (amberScrub_scrubs hruns t image r).of_iff (iff_of_true trivial (hctr _ (by omega)))
      · exact (tableStoreScrub_scrubs hruns x bucket slot).of_iff (iff_of_true trivial (hctr _ (by omega)))
      · exact (cellScrub_scrubs hruns cell).of_iff (iff_of_true trivial (hctr _ (by simp only [bank]; omega)))
      · exact (descriptorScrub_scrubs hruns h).of_iff (iff_of_true trivial (hctr _ (by omega)))
      · exact (counterScrub_scrubs hruns addr flow).of_iff (iff_of_false id (not_not.2 rfl))
    exact ⟨fun hn => hscrubs.clean hn, fun d => hscrubs.held, hscrubs.two⟩
  · obtain ⟨_, hexec, v, rfl⟩ := levelEntryRebuild_writes hruns ht hl hk hr
    exact ⟨_, hexec, State.readable_putUnit (s := fresh s) ha _ v,
      fun _ hother => State.unit_putUnit_other (s := fresh s) ha hother v⟩

end

section
/-!
The table store and the insert engines (R162-R171, R188-R193): what each operation on units, engines and the move stash
writes, said once.
-/
namespace Sys2Proof.Machine

/-! ### Units of the store (R162, R193) -/

/-- The injection of a written word reaches the fault collector only. -/
theorem State.wordWrittenAs_eq (s : State) (ce ue u addr shown : Nat) :
    s.wordWrittenAs ce ue u addr shown = { s with faults := (s.wordWrittenAs ce ue u addr shown).faults } := by
  unfold State.wordWrittenAs
  dsimp only
  split <;> split <;> rfl

/-- A unit written changes the store and the fault collector. -/
theorem State.putUnit_eq (s : State) (n v : Nat) : s.putUnit n v = { s with
    lookup := { s.lookup with store := putN 0 n v s.lookup.store }, faults := (s.putUnit n v).faults } := by
  unfold State.putUnit
  dsimp only
  rw [State.wordWrittenAs_eq]

@[simp] theorem State.lookup_putUnit (s : State) (n v : Nat) :
    (s.putUnit n v).lookup = { s.lookup with store := putN 0 n v s.lookup.store } := by rw [State.putUnit_eq]

@[simp] theorem State.get_putUnit (s : State) (n v : Nat) (r : Ref) (e : Nat) : (s.putUnit n v).get r e = s.get r e := by
  rw [State.putUnit_eq]
  rfl

@[simp] theorem State.eng_putUnit (s : State) (n v x : Nat) : (s.putUnit n v).eng x = s.eng x := by
  rw [State.putUnit_eq]
  rfl

@[simp] theorem State.unit_putUnit_same (s : State) (n v : Nat) : (s.putUnit n v).unit n = v := by
  rw [State.unit, State.lookup_putUnit]
  exact look_put_same ..

theorem State.unit_putUnit_ne (s : State) {n k : Nat} (h : k ≠ n) (v : Nat) : (s.putUnit n v).unit k = s.unit k := by
  rw [State.unit, State.lookup_putUnit]
  exact look_put_other _ _ _ h.symm _ _

/-- A read of a unit leaves the lookup block. -/
@[simp] theorem State.lookup_readUnit (s : State) (n k access : Nat) : (s.readUnit n k access).2.lookup = s.lookup := by
  unfold State.readUnit
  dsimp only
  split <;> simp only [State.count64_lookup] <;> rw [State.readWordAs_eq]

/-- Of the objects a read of a unit changes its count of what cannot be corrected alone. -/
theorem State.get_readUnit_other (s : State) {n k access : Nat} {r : Ref} (h : r ≠ O.TABLE_COUNTS n 13) (e : Nat) :
    (s.readUnit n k access).2.get r e = s.get r e := by
  unfold State.readUnit
  dsimp only
  split
  · rw [State.get_count64_other _ _ (.inl h), State.readWordAs_eq]
    rfl
  · rw [State.readWordAs_eq]
    rfl

@[simp] theorem State.lookup_readAll (s : State) (n : Nat) (us : List Nat) : (s.readAll n us).lookup = s.lookup :=
  State.each_keeps (fun t => t.lookup = s.lookup) us _ (fun t k _ h => (State.lookup_readUnit t n k 1).trans h) s rfl

/-! ### Engines (R165, R168) -/

theorem State.eng_putEng_of_lt (s : State) {k : Nat} (hk : k < 16) (x : Nat) (e : EngX) :
    (s.putEng x e).eng k = if k = x then e else s.eng k := by
  rw [State.eng, State.putEng, getD_slots, if_pos hk]

@[simp] theorem State.get_putEng (s : State) (x : Nat) (e : EngX) (r : Ref) (i : Nat) :
    (s.putEng x e).get r i = s.get r i := rfl
@[simp] theorem State.unit_putEng (s : State) (x : Nat) (e : EngX) (k : Nat) : (s.putEng x e).unit k = s.unit k := rfl

@[simp] theorem State.unit_count64 (s : State) (r : Ref) (n e k : Nat) : (s.count64 r n e).unit k = s.unit k := rfl
@[simp] theorem State.eng_count64 (s : State) (r : Ref) (n e x : Nat) : (s.count64 r n e).eng x = s.eng x := rfl

@[simp] theorem ran_unit (s t : State) (k : Nat) : (ran s t).unit k = t.unit k := rfl
@[simp] theorem ran_eng (s t : State) (x : Nat) : (ran s t).eng x = t.eng x := rfl
@[simp] theorem ran_stashed (s t : State) (n : Nat) (d : Decl) (key : Nat) :
    (ran s t).stashed n d key = t.stashed n d key := rfl

/-- An engine without operations has none to start. -/
theorem State.engStart_of_jobs_nil {s : State} {x : Nat} (h : (s.eng x).jobs = []) : s.engStart x = s := by
  simp only [State.engStart, h]

/-- An operation that has started is not started again. -/
theorem State.engStart_of_started {s : State} {x : Nat} {j : EngJob} (hj : (s.eng x).jobs = [j])
    (h : j.started = true) : s.engStart x = s := by
  simp only [State.engStart, hj, h, Bool.true_or, if_true]

/-- The last move of the operation at the front, while the stash has room: the entry goes to its new unit and to the stash. -/
theorem State.runMoves_last {s : State} {x a b : Nat} {j : EngJob} (hx : x < 16) (hj : (s.eng x).jobs = [j])
    (hs : (s.eng x).stash.length < 4) (hab : a ≠ b) :
    (s.runMoves x [(a, b)]).unit b = s.unit a ∧ (s.runMoves x [(a, b)]).unit a = 0 ∧
    (∀ v, v ≠ a → v ≠ b → (s.runMoves x [(a, b)]).unit v = s.unit v) ∧
    (s.runMoves x [(a, b)]).eng x = { s.eng x with
      stash := (s.eng x).stash ++ [⟨j.table, s.unit a⟩], jobs := [{ j with moves := [], made := j.made + 1 }] } ∧
    ∀ r e, (s.runMoves x [(a, b)]).get r e = s.get r e := by
  simp only [State.runMoves, hj, if_neg (Nat.not_le.2 hs)]
  refine ⟨?_, State.unit_putUnit_same .., fun v ha hb => ?_, ?_, fun r e => ?_⟩
  · rw [State.unit_putUnit_ne _ hab.symm, State.unit_putUnit_same]
  · rw [State.unit_putUnit_ne _ ha, State.unit_putUnit_ne _ hb, State.unit_putEng]
  · rw [State.eng_putUnit, State.eng_putUnit, State.eng_putEng _ hx]
  · rw [State.get_putUnit, State.get_putUnit, State.get_putEng]

/-! ### The move stash (R164, R169) -/

/-- A copy in the stash once its key's entry has become `v`. -/
def StashE.changed (n key v : Nat) (c : StashE) : StashE :=
  if c.table = n ∧ entryValid c.entry ∧ entryKey c.entry = key then ⟨n, v⟩ else c

theorem State.stashPut_eq (s : State) (n : Nat) (d : Decl) (key v : Nat) : s.stashPut n d key v =
    s.putEng d.partition { s.eng d.partition with
      stash := (s.eng d.partition).stash.map (StashE.changed n key v) } := rfl

@[simp] theorem State.get_stashPut (s : State) (n : Nat) (d : Decl) (key v : Nat) (r : Ref) (e : Nat) :
    (s.stashPut n d key v).get r e = s.get r e := rfl
@[simp] theorem State.unit_stashPut (s : State) (n : Nat) (d : Decl) (key v k : Nat) :
    (s.stashPut n d key v).unit k = s.unit k := rfl

/-- A change in the stash leaves every engine's operations and its waiting refreshes and deletions. -/
theorem State.queues_stashPut (s : State) (n : Nat) (d : Decl) (key v : Nat) {x : Nat} (hx : x < 16) :
    ((s.stashPut n d key v).eng x).jobs = (s.eng x).jobs ∧
    ((s.stashPut n d key v).eng x).refresh = (s.eng x).refresh ∧
    ((s.stashPut n d key v).eng x).deletes = (s.eng x).deletes := by
  rw [State.stashPut_eq, State.eng_putEng_of_lt s hx]
  split
  · rename_i h
    rw [h]
    exact ⟨rfl, rfl, rfl⟩
  · exact ⟨rfl, rfl, rfl⟩

/-- A key deleted from the stash has no copy there. -/
theorem State.stashed_stashPut_zero (s : State) (n : Nat) (d : Decl) (key : Nat) :
    (s.stashPut n d key 0).stashed n d key = none := by
  have hof : (s.stashPut n d key 0).stashOf n d =
      (((s.eng d.partition).stash.map (StashE.changed n key 0)).filter (·.table == n)).map (·.entry) := by
    rw [State.stashPut_eq]
    exact congrArg (fun e : EngX => (e.stash.filter (·.table == n)).map (·.entry)) (State.eng_putEng s d.partition_lt _)
  rw [State.stashed, hof, List.find?_eq_none]
  intro w hw
  obtain ⟨c, hc, rfl⟩ := List.mem_map.1 hw
  obtain ⟨hmem, htable⟩ := List.mem_filter.1 hc
  obtain ⟨c0, -, rfl⟩ := List.mem_map.1 hmem
  unfold StashE.changed at htable ⊢
  split
  · have hzero : entryValid 0 = false := by decide
    simp [hzero]
  · rename_i hno
    rw [if_neg hno] at htable
    simp only [Bool.and_eq_true, beq_iff_eq] at htable ⊢
    exact fun hfits => hno ⟨htable, hfits⟩

/-! ### Events of entries (R188) -/

section
variable (s : State) (n type v : Nat) (deleted : Bool)

@[simp] theorem State.lookup_entryEvent : (s.entryEvent n type v deleted).lookup = s.lookup :=
  (State.keeps_learnEvent ..).lookup

theorem State.get_entryEvent_seq :
    (s.entryEvent n type v deleted).get O.LEARN_SEQ = (s.get O.LEARN_SEQ + 1) % 2 ^ 64 :=
  ((State.keeps_learnEvent ..).objs _ _ (by simp)).trans (State.get_set_same ..)

theorem State.get_entryEvent_other {r : Ref} (hr : r ∉ eventObjs) (hs : r ≠ O.LEARN_SEQ) (e : Nat) :
    (s.entryEvent n type v deleted).get r e = s.get r e :=
  ((State.keeps_learnEvent ..).objs _ _ hr).trans (State.get_set_other _ _ _ _ (.inl hs))

@[simp] theorem State.unit_entryEvent (k : Nat) : (s.entryEvent n type v deleted).unit k = s.unit k := by
  rw [State.unit, State.lookup_entryEvent, State.unit]

@[simp] theorem State.eng_entryEvent (x : Nat) : (s.entryEvent n type v deleted).eng x = s.eng x := by
  rw [State.eng, State.lookup_entryEvent, State.eng]

@[simp] theorem State.stashed_entryEvent (m : Nat) (d : Decl) (key : Nat) :
    (s.entryEvent n type v deleted).stashed m d key = s.stashed m d key := by
  rw [State.stashed, State.stashOf, State.lookup_entryEvent]
  rfl

end

/-! ### A visit of the aging scanner (R191) -/

/-- The scanner and a deletion leave an entry that is empty, static or younger than its table's limit. -/
def State.spares (s : State) (n v : Nat) : Prop :=
  entryValid v = false ∨ entryStatic v = true ∨ s.ageOf n v < s.get (O.AGE_LIMIT n)

/-- What the scanner leaves it has only read. -/
theorem State.ageVisit_spares {s : State} {n k : Nat} (h : s.spares n (s.unit k)) (d : Decl) :
    s.ageVisit n d k = (s.readUnit n k).2 := by
  have hage : (s.readUnit n k).2.ageOf n (s.unit k) = s.ageOf n (s.unit k) := by
    unfold State.ageOf
    rw [State.get_readUnit_other s (by simp), State.get_readUnit_other s (by simp)]
  unfold State.ageVisit
  dsimp only
  rw [hage, State.get_readUnit_other s (by simp), if_pos]
  rcases h with h | h | h <;> simp [h]

/-- Of the store the scanner writes the unit that it visits alone, and it does not move on of itself. -/
theorem State.ageVisit_keeps (s : State) (n : Nat) (d : Decl) (k : Nat) :
    (s.ageVisit n d k).lookup.scanAt = s.lookup.scanAt ∧ ∀ i, i ≠ k → (s.ageVisit n d k).unit i = s.unit i := by
  have hread : (s.readUnit n k).2.unit = s.unit := by
    funext i
    rw [State.unit, State.lookup_readUnit, State.unit]
  have hscan : (s.readUnit n k).2.lookup.scanAt = s.lookup.scanAt := by rw [State.lookup_readUnit]
  unfold State.ageVisit
  dsimp only
  generalize (s.readUnit n k).2 = t at hread hscan
  have ht : t.lookup.scanAt = s.lookup.scanAt ∧ ∀ i, i ≠ k → t.unit i = s.unit i := ⟨hscan, fun i _ => by rw [hread]⟩
  split
  · exact ht
  · split
    · split
      · exact ht
      · exact ⟨by simpa using hscan, fun i hi => by
          rw [State.unit_entryEvent, State.unit_count64, State.unit_putUnit_ne t hi, hread]⟩
    · split
      · exact ht
      · exact ht

/-- A scan that meets nothing to age reads its units. -/
theorem State.each_ageVisit_spares {s : State} {n : Nat} {us : List Nat} (d : Decl)
    (h : ∀ k ∈ us, s.spares n (s.unit k)) : s.each us (fun s k => s.ageVisit n d k) = s.readAll n us := by
  induction us generalizing s with
  | nil => rfl
  | cons k us ih =>
    have hrest : ∀ i ∈ us, (s.readUnit n k).2.spares n ((s.readUnit n k).2.unit i) := fun i hi => by
      have hi' := h i (List.mem_cons_of_mem _ hi)
      rw [State.unit, State.lookup_readUnit]
      unfold State.spares State.ageOf at hi' ⊢
      rw [State.get_readUnit_other s (by simp), State.get_readUnit_other s (by simp),
        State.get_readUnit_other s (by simp)]
      exact hi'
    show (s.ageVisit n d k).each us (fun s k => s.ageVisit n d k) = (s.readUnit n k).2.readAll n us
    rw [State.ageVisit_spares (h k (List.mem_cons_self ..)), ih hrest]

end Sys2Proof.Machine
end

section
/-!
The end of an operation at its engine (R165, R166), and the operations of a table of prefixes (R178, R179).
-/
namespace Sys2Proof.Machine

/-! ### The operation at the front ends (R165, R166) -/

/-- What the end of table `n`'s operation, the only one of engine `x`, leaves of the state that its last write made: the
engine has no operation left, the deletions behind it come one nearer, and the result is posted. -/
def State.opPosted (s : State) (n x : Nat) (r : List Byte) : State :=
  (s.putEng x { s.eng x with
    jobs := [], deletes := (s.eng x).deletes.map fun q => { q with ahead := q.ahead - 1 } }).cmdDone (O.ENTRY_OP n) r

section
variable (s : State) (n x : Nat) (r : List Byte)

@[simp] theorem State.cmd_opPosted : (s.opPosted n x r).cmd (O.ENTRY_OP n) = ⟨2, 0, r⟩ := State.cmd_setCmd ..
@[simp] theorem State.recs_opPosted : (s.opPosted n x r).lookup.recs = s.lookup.recs := rfl
@[simp] theorem State.store_opPosted : (s.opPosted n x r).lookup.store = s.lookup.store := rfl
@[simp] theorem State.objs_opPosted : (s.opPosted n x r).dict.objs = s.dict.objs := rfl
@[simp] theorem State.faults_opPosted : (s.opPosted n x r).faults = s.faults := rfl
@[simp] theorem State.get_opPosted (q : Ref) (e : Nat) : (s.opPosted n x r).get q e = s.get q e := rfl

end

/-- An operation of ENTRY_OP that has started, has made its moves and is alone at its engine ends with its last write. -/
theorem exec_entryOpComplete_alone {s t : State} {n : Table} {x : Nat} {j : EngJob} {r : List Byte} (h : Runs s)
    (hx : x = (s.decl n).partition) (hj : (s.eng x).jobs = [j]) (hn : j.table = n.val) (hc : j.chan = none)
    (hs : j.started = true) (hm : j.moves = []) (hop : (fresh s).entryOp n j.record j.made = (r, t))
    (ht : t.lookup.engs = s.lookup.engs) : exec (.entryOpComplete n) s = .next (ran s (t.opPosted n x r)) := by
  have hxlt : x < 16 := hx ▸ Decl.partition_lt _
  have hfront : ((fresh s).eng x).jobs = [j] := hj
  have htj : (t.eng x).jobs = [j] := by
    rw [State.eng, ht]
    exact hj
  have hstart : (fresh s).engStart x = fresh s := State.engStart_of_started hfront hs
  have hidle : ∀ e : EngX, e.jobs = [] → (t.putEng x e).engStart x = t.putEng x e := fun e he =>
    State.engStart_of_jobs_nil (by rw [State.eng_putEng t hxlt, he])
  have hfinish : (fresh s).engFinish x = (some (j, r), t.putEng x { t.eng x with
      jobs := [], deletes := (t.eng x).deletes.map fun q => { q with ahead := q.ahead - 1 } }) := by
    simp only [State.engFinish, hfront, hs, hm, hn, hop, htj, List.tail_cons]
    rw [hidle _ rfl]
    simp
  refine exec_eq_ran exec_entryOpComplete h ?_
  have hx' : ((fresh s).decl n).partition = x := hx.symm
  simp only [hx', hfront, hn, ne_eq, not_true_eq_false, if_false, hstart, hfinish, State.engPost, hc]
  rfl

/-! ### Writes of the store alone -/

/-- From `s` to `t` only the store and the fault collector change. -/
def StoreOnly (s t : State) : Prop :=
  ∃ m f, t = { s with lookup := { s.lookup with store := m }, faults := f }

namespace StoreOnly

variable {s t : State}

theorem refl (s : State) : StoreOnly s s := ⟨_, _, rfl⟩

theorem putUnit (h : StoreOnly s t) (n v : Nat) : StoreOnly s (t.putUnit n v) := by
  obtain ⟨m, f, rfl⟩ := h
  exact ⟨_, _, State.putUnit_eq ..⟩

theorem each {β : Type} (h : StoreOnly s t) (l : List β) {f : State → β → State}
    (hf : ∀ u b, StoreOnly s u → StoreOnly s (f u b)) : StoreOnly s (t.each l f) :=
  State.each_keeps (StoreOnly s) l f (fun u b _ => hf u b) t h

theorem putLevel (h : StoreOnly s t) (d : Decl) (k a i v : Nat) : StoreOnly s (t.putLevel d k a i v) := h.putUnit ..

theorem putRec (h : StoreOnly s t) (d : Decl) (slot : Nat) (b : List Byte) : StoreOnly s (t.putRec d slot b) :=
  h.each _ fun _ _ hu => hu.putUnit ..

theorem rewriteTrie (h : StoreOnly s t) (d : Decl) (old new : List LRec) (addr len : Nat) :
    StoreOnly s (t.rewriteTrie d old new addr len) := by
  unfold State.rewriteTrie
  refine (h.each _ fun u _ hu => hu.each _ fun _ _ hv => hv.putUnit ..).each _ fun u _ hu => hu.each _ fun v _ hv => ?_
  dsimp only
  split
  · exact hv
  · exact hv.putLevel ..

end StoreOnly

/-- `putPrefix` puts its records, and beside them changes the store and the fault collector. -/
theorem State.putPrefix_eq (s : State) (d : Decl) (x : LRec) (image : List Byte) (recs : List LRec) :
    ∃ m f, s.putPrefix d x image recs = { s with lookup := { s.lookup with recs := recs, store := m }, faults := f } := by
  obtain ⟨m, f, hput⟩ := (StoreOnly.refl s).putRec d x.slot image
  have htrie := (StoreOnly.refl { s.putRec d x.slot image with lookup :=
    { (s.putRec d x.slot image).lookup with recs := recs } }).rewriteTrie d (s.recsOf x.table)
      (({ s.putRec d x.slot image with lookup :=
        { (s.putRec d x.slot image).lookup with recs := recs } } : State).recsOf x.table) x.addr x.len
  obtain ⟨m', f', hrewrite⟩ := htrie
  refine ⟨m', f', hrewrite.trans ?_⟩
  rw [hput]

section
variable (s : State) (d : Decl) (x : LRec) (image : List Byte) (recs : List LRec)

@[simp] theorem State.recs_putPrefix : (s.putPrefix d x image recs).lookup.recs = recs := by
  obtain ⟨m, f, hput⟩ := s.putPrefix_eq d x image recs
  rw [hput]

@[simp] theorem State.engs_putPrefix : (s.putPrefix d x image recs).lookup.engs = s.lookup.engs := by
  obtain ⟨m, f, hput⟩ := s.putPrefix_eq d x image recs
  rw [hput]

@[simp] theorem State.get_putPrefix (r : Ref) (e : Nat) : (s.putPrefix d x image recs).get r e = s.get r e := by
  obtain ⟨m, f, hput⟩ := s.putPrefix_eq d x image recs
  rw [hput]
  rfl

end

/-! ### Operations of a table of prefixes (R166, R178) -/

/-- The address that an operation names. -/
def Decl.recAddr (d : Decl) (r : List Byte) : Nat := beAt r 4 (d.width / 8)
/-- An operation names an address and a length of the table's kind, with no bit set beyond the length. -/
def Decl.isPrefix (d : Decl) (r : List Byte) : Prop :=
  byteAt r 2 ≤ (if d.kind = 3 then 32 else 64) ∧ d.recAddr r % 2 ^ (d.width - byteAt r 2) = 0
/-- The record of exactly an operation's address and length (log 111). -/
def State.recAt (s : State) (n : Nat) (d : Decl) (r : List Byte) : Option LRec :=
  s.lookup.recs.find? fun y => y.table == n && y.addr == d.recAddr r && y.len == byteAt r 2
/-- The record that an insert of an absent one makes, in the lowest free slot (log 16). -/
def State.newRec (s : State) (n : Nat) (d : Decl) (r : List Byte) : LRec :=
  ⟨n, ((List.range ((s.recsOf n).length + 1)).find? fun i => !(s.recsOf n).any (·.slot == i)).getD 0, d.recAddr r,
    byteAt r 2, keepRef (leAt r 20 3)⟩
/-- A record with an operation's action reference. -/
def LRec.withAction (y : LRec) (r : List Byte) : LRec := { y with action := keepRef (leAt r 20 3) }

section
variable {s : State} {n : Nat} {d : Decl} {r : List Byte} {y : LRec} {made : Nat}

theorem State.entryOp_lpm (hd : (s.decl n).isLpm = true) (ho : byteAt r 0 = 4 ∨ byteAt r 0 = 6 ∨ byteAt r 0 = 7) :
    s.entryOp n r made = s.lpmOp n (s.decl n) r := by
  have hk : ¬ ((s.decl n).kind = 1 ∧ 1 ≤ byteAt r 0 ∧ byteAt r 0 ≤ 5) := fun hk => by
    simp [Decl.isLpm, hk.1] at hd
  rw [State.entryOp, if_neg hk, if_pos ⟨hd, ho⟩]

/-- Any other operation is invalid, and so is one on an address or a length that does not fit. -/
theorem State.entryOp_lpm_invalid (hd : (s.decl n).isLpm = true)
    (hv : ¬ (s.decl n).isPrefix r ∨ ¬ (byteAt r 0 = 4 ∨ byteAt r 0 = 6 ∨ byteAt r 0 = 7)) :
    s.entryOp n r made = (resultBytes 9 0 0 0 0 [], s) := by
  have hk : ¬ ((s.decl n).kind = 1 ∧ 1 ≤ byteAt r 0 ∧ byteAt r 0 ≤ 5) := fun hk => by
    simp [Decl.isLpm, hk.1] at hd
  by_cases ho : byteAt r 0 = 4 ∨ byteAt r 0 = 6 ∨ byteAt r 0 = 7
  · have hbad : (if (s.decl n).kind = 3 then 32 else 64) < byteAt r 2 ∨
        beAt r 4 ((s.decl n).width / 8) % 2 ^ ((s.decl n).width - byteAt r 2) ≠ 0 := by
      have hv' := hv.resolve_right (not_not.2 ho)
      unfold Decl.isPrefix at hv'
      rwa [not_and_or, Nat.not_le] at hv'
    rw [State.entryOp_lpm hd ho, State.lpmOp]
    exact if_pos hbad
  · rw [State.entryOp, if_neg hk, if_neg fun hc => ho hc.2]

/-- Where address and length fit, `lpmOp` goes on to the operation. -/
theorem Decl.isPrefix.fits (hp : d.isPrefix r) : ¬ ((if d.kind = 3 then 32 else 64) < byteAt r 2 ∨
    beAt r 4 (d.width / 8) % 2 ^ (d.width - byteAt r 2) ≠ 0) := by
  rw [not_or, not_lt, not_not]
  exact hp

section
variable (hp : d.isPrefix r)
include hp

theorem State.lpmOp_absent (ho : byteAt r 0 = 4 ∨ byteAt r 0 = 7) (hy : s.recAt n d r = none) :
    s.lpmOp n d r = (resultBytes 5 0 0 0 0 [], s) := by
  simp only [State.recAt, Decl.recAddr] at hy
  rcases ho with ho | ho <;> simp only [State.lpmOp, if_neg hp.fits, ho, hy]

theorem State.lpmOp_insert (ho : byteAt r 0 = 6) (hy : s.recAt n d r = none)
    (hr : d.roomFor (s.newRec n d r :: s.recsOf n) = true) : s.lpmOp n d r =
      (d.recResult 0 (s.newRec n d r), (s.putPrefix d (s.newRec n d r) (d.recImage (s.newRec n d r))
        (s.lookup.recs ++ [s.newRec n d r])).count64 (O.TABLE_COUNTS n 4)) := by
  simp only [State.recAt, Decl.recAddr, State.newRec] at hy hr ⊢
  simp only [State.lpmOp, if_neg hp.fits, ho, hy, if_pos hr]

theorem State.lpmOp_noRoom (ho : byteAt r 0 = 6) (hy : s.recAt n d r = none)
    (hr : d.roomFor (s.newRec n d r :: s.recsOf n) = false) : s.lpmOp n d r =
      (resultBytes 6 0 0 0 0 [], s.count64 (O.TABLE_COUNTS n 9)) := by
  simp only [State.recAt, Decl.recAddr, State.newRec] at hy hr
  simp only [State.lpmOp, if_neg hp.fits, ho, hy, hr, Bool.false_eq_true, if_false]

variable (hy : s.recAt n d r = some y)
include hy

theorem State.lpmOp_read (ho : byteAt r 0 = 4) :
    s.lpmOp n d r = (d.recResult 4 y, s.readAll n (d.recUnits y.slot)) := by
  simp only [State.recAt, Decl.recAddr] at hy
  simp only [State.lpmOp, if_neg hp.fits, ho, hy]

theorem State.lpmOp_delete (ho : byteAt r 0 = 7) : s.lpmOp n d r = (d.recResult 3 y,
    (s.putPrefix d y [] (s.lookup.recs.filter (· != y))).count64 (O.TABLE_COUNTS n 6)) := by
  simp only [State.recAt, Decl.recAddr] at hy
  simp only [State.lpmOp, if_neg hp.fits, ho, hy]

theorem State.lpmOp_replace (ho : byteAt r 0 = 6) (hb : bit (byteAt r 1) 1 = false) :
    s.lpmOp n d r = (d.recResult 1 (y.withAction r), (s.putPrefix d (y.withAction r) (d.recImage (y.withAction r))
      (s.lookup.recs.map fun z => if z = y then y.withAction r else z)).count64 (O.TABLE_COUNTS n 5)) := by
  simp only [State.recAt, Decl.recAddr, LRec.withAction] at hy ⊢
  simp only [State.lpmOp, if_neg hp.fits, ho, hy, hb, Bool.false_eq_true, if_false]

theorem State.lpmOp_refuse (ho : byteAt r 0 = 6) (hb : bit (byteAt r 1) 1 = true) :
    s.lpmOp n d r = (d.recResult 7 y, s) := by
  simp only [State.recAt, Decl.recAddr] at hy
  simp only [State.lpmOp, if_neg hp.fits, ho, hy, hb, if_true]

end
end

/-! ### ENTRY_OP_COMPLETE of a table of prefixes -/

section
variable {s : State} {n : Table} {j : EngJob} (h : Runs s) (hj : (s.eng (s.decl n).partition).jobs = [j])
  (hn : j.table = n.val) (hc : j.chan = none) (hs : j.started = true) (hm : j.moves = [])
  (hd : (s.decl n).isLpm = true) {P : State → Prop}
include h hj hn hc hs hm hd

/-- An operation of such a table leaves what `lpmOp` makes, and its result. -/
theorem entryOpComplete_lpm {r : List Byte} {t : State}
    (ho : byteAt j.record 0 = 4 ∨ byteAt j.record 0 = 6 ∨ byteAt j.record 0 = 7)
    (hop : (fresh s).lpmOp n (s.decl n) j.record = (r, t)) (ht : t.lookup.engs = s.lookup.engs)
    (hP : P (ran s (t.opPosted n (s.decl n).partition r))) : Does (.entryOpComplete n) s P :=
  ⟨_, exec_entryOpComplete_alone h rfl hj hn hc hs hm ((State.entryOp_lpm (s := fresh s) hd ho).trans hop) ht, hP⟩

/-- An insert, a replacement or a deletion puts its record and its level entries, counts, and posts its result. -/
theorem entryOpComplete_putsPrefix {r image : List Byte} {y : LRec} {recs : List LRec} {k : Nat}
    (ho : byteAt j.record 0 = 6 ∨ byteAt j.record 0 = 7)
    (hop : (fresh s).lpmOp n (s.decl n) j.record =
      (r, ((fresh s).putPrefix (s.decl n) y image recs).count64 (O.TABLE_COUNTS n k))) :
    Does (.entryOpComplete n) s fun u => u.lookup.recs = recs ∧ u.cmd (O.ENTRY_OP n) = ⟨2, 0, r⟩ ∧
      u.get (O.TABLE_COUNTS n k) = (s.get (O.TABLE_COUNTS n k) + 1) % 2 ^ 64 ∧
      u.lookup.store = ((fresh s).putPrefix (s.decl n) y image recs).lookup.store := by
  refine entryOpComplete_lpm h hj hn hc hs hm hd (.inr ho) hop ?_ ⟨?_, State.cmd_opPosted .., ?_, ?_⟩
  · rw [State.count64_lookup, State.engs_putPrefix]
  · rw [ran_lookup, State.recs_opPosted, State.count64_lookup, State.recs_putPrefix]
  · rw [ran_get, State.get_opPosted, State.get_count64_same, State.get_putPrefix, fresh_get]
  · rw [ran_lookup, State.store_opPosted, State.count64_lookup]

/-- An invalid operation changes no record and no object. -/
theorem entryOpComplete_lpm_invalid (hv : ¬ (s.decl n).isPrefix j.record ∨
      ¬ (byteAt j.record 0 = 4 ∨ byteAt j.record 0 = 6 ∨ byteAt j.record 0 = 7)) :
    Does (.entryOpComplete n) s fun u => u.lookup.recs = s.lookup.recs ∧ u.dict.objs = s.dict.objs ∧
      u.cmd (O.ENTRY_OP n) = ⟨2, 0, resultBytes 9 0 0 0 0 []⟩ :=
  ⟨_, exec_entryOpComplete_alone h rfl hj hn hc hs hm (State.entryOp_lpm_invalid (s := fresh s) hd hv) rfl,
    rfl, rfl, State.cmd_opPosted ..⟩

end

end Sys2Proof.Machine

open Sys2Proof Sys2Proof.Machine

/-- Settles O37: an operation that is alone at its engine ends with what `lpmOp` makes of it, which is one equation for
each kind of operation, its record found or not. -/
theorem prefixOperationsComplete : Obligations.PrefixOperationsComplete := by
  intro s n j d x addr len op h hd hx hj hn hc hs hm hlpm haddr hlen hop
  subst hd hx haddr hlen hop
  refine ⟨fun hfits hzero f hf => ?_, fun hv => ?invalid⟩
  case invalid =>
    refine entryOpComplete_lpm_invalid h hj hn hc hs hm hlpm ?_
    rcases hv with hv | hv | ⟨h4, h6, h7⟩
    · exact .inl fun hp => Nat.not_le.2 hv hp.1
    · exact .inl fun hp => hv hp.2
    · exact .inr (by simp [h4, h6, h7])
  have hp : (s.decl n).isPrefix j.record := ⟨hfits, hzero⟩
  have hrec : (fresh s).recAt n (s.decl n) j.record = f := hf.symm
  refine ⟨fun k hnone ho hk => ⟨fun hroom => ?insert, fun hroom => ?noRoom⟩, fun y hy ho hb => ?replace,
    fun y hy ho hb => ?refuse, fun y hy ho => ?delete, fun y hy ho => ?read, fun hnone ho => ?absent⟩
  case insert =>
    subst hk hnone
    exact entryOpComplete_putsPrefix h hj hn hc hs hm hlpm (.inl ho) (State.lpmOp_insert hp ho hrec hroom)
  case noRoom =>
    subst hk hnone
    refine entryOpComplete_lpm h hj hn hc hs hm hlpm (.inr (.inl ho)) (State.lpmOp_noRoom hp ho hrec hroom) rfl
      ⟨rfl, State.cmd_opPosted .., rfl, ?_, rfl⟩
    rw [ran_get, State.get_opPosted, State.get_count64_same]
    rfl
  case replace =>
    obtain ⟨u, hu, hrecs, hcmd, hcount, hstore⟩ := entryOpComplete_putsPrefix h hj hn hc hs hm hlpm (.inl ho)
      (State.lpmOp_replace hp (hrec.trans hy) ho hb)
    exact ⟨u, hu, hrecs, hcmd, hrecs ▸ hstore, hcount⟩
  case refuse =>
    exact entryOpComplete_lpm h hj hn hc hs hm hlpm (.inr (.inl ho)) (State.lpmOp_refuse hp (hrec.trans hy) ho hb) rfl
      ⟨rfl, State.cmd_opPosted ..⟩
  case delete =>
    obtain ⟨u, hu, hrecs, hcmd, hcount, hstore⟩ := entryOpComplete_putsPrefix h hj hn hc hs hm hlpm (.inr ho)
      (State.lpmOp_delete hp (hrec.trans hy) ho)
    exact ⟨u, hu, hrecs, hcmd, hstore, hcount⟩
  case read =>
    have hlookup : ∀ us, ((fresh s).readAll n us).lookup = s.lookup := fun us => State.lookup_readAll (fresh s) n us
    refine entryOpComplete_lpm h hj hn hc hs hm hlpm (.inl ho) (State.lpmOp_read hp (hrec.trans hy) ho)
      (by rw [hlookup]) ⟨?_, ?_, fun hclean => ?_, State.cmd_opPosted ..⟩
    · rw [ran_lookup, State.recs_opPosted, hlookup]
    · rw [ran_lookup, State.store_opPosted, hlookup]
    · rw [ran_dict, State.objs_opPosted, State.readAll_clean (s := fresh s) hclean]
  case absent =>
    exact entryOpComplete_lpm h hj hn hc hs hm hlpm (by tauto) (State.lpmOp_absent hp ho (hrec.trans hnone)) rfl
      ⟨rfl, rfl, State.cmd_opPosted ..⟩

end

section
/-!
An exact-match operation on a key whose only copy lies in the move stash (R167, R169), with a clock beyond its 16 bits.
-/
namespace Sys2Proof.Machine

/-- Table 0 is an exact-match table whose AGE_CLOCK holds 2^16, one more than its 16 bits can. -/
def clockBeyond : State :=
  let s : State := { State.reset with sys := { State.reset.sys with power := .run } }
  ((s.set (O.TABLE_KIND 0) 1).set (O.KEY_BYTES 0) 4).set (O.AGE_CLOCK 0) (2 ^ 16)

/-- Its engine has begun to replace key 7. -/
def replaceJob : EngJob := ⟨0, opRecord 2 0 0 [7] 0, none, true, [], 0⟩

/-- The key's only copy lies in the engine's stash. -/
def replacesInStash : State :=
  clockBeyond.putEng 0 { EngX.reset with stash := [⟨0, mkEntry 7 0 0 1⟩], jobs := [replaceJob] }

/-- REPLACE puts the entry into the stash with the clock as its stamp, which carries into the valid bit: the key is gone. -/
theorem entryOpComplete_replacesInStash : Does (.entryOpComplete 0) replacesInStash fun u =>
    u.stashed 0 (replacesInStash.decl 0) 7 = none :=
  (does_iff exec_entryOpComplete rfl).2 (by decide +kernel)

end Sys2Proof.Machine

open Sys2Proof Sys2Proof.Machine

/-- Refutes O36: the statement is about every state, also one with 2^16 in AGE_CLOCK, which no AGE_TICK stores. There the
stamp of a written entry carries into its valid bit, and REPLACE of a key whose only copy lies in the move stash leaves
no copy of the key. -/
theorem not_exactMatchOperationsComplete : ¬ Obligations.ExactMatchOperationsComplete := by
  intro h
  obtain ⟨-, -, -, -, -, -, -, -, -, hstash, -⟩ := h replacesInStash 0 replaceJob (replacesInStash.decl 0) 0 7 2
    (mkEntry 7 0 (2 ^ 16) 1) rfl rfl (by decide +kernel) (by decide +kernel) rfl rfl rfl rfl (by decide +kernel)
    (by decide +kernel) (by decide +kernel) (by decide +kernel)
  obtain ⟨-, -, hreplace, -⟩ := hstash (mkEntry 7 0 0 1) (by decide +kernel) (by decide +kernel)
  obtain ⟨t, ht, -, hsome, -⟩ := hreplace (.inl rfl)
  obtain ⟨u, hu, hnone⟩ := entryOpComplete_replacesInStash
  cases ht.symm.trans hu
  cases hnone.symm.trans hsome

end

section
/-!
The statement on moves, the stash and aging (R168, R189-R191), clause by clause.
-/
namespace Sys2Proof.Machine

section
variable {s : State} {x : Partition} {w : BitVec 16} (h : Runs s)
include h

theorem exec_stashRelease_ran : exec (.stashRelease x) s =
    .next (ran s ((fresh s).putEng x { s.eng x with stash := (s.eng x).stash.tail })) :=
  exec_eq_ran exec_stashRelease h rfl

/-- The move that waited is made: the operation's last. -/
theorem stashWaitEnd_moves {j : EngJob} {a b : Nat} (hj : (s.eng x).jobs = [j]) (hm : j.moves = [(a, b)]) (hab : a ≠ b)
    (hs : (s.eng x).stash.length < 4) : Does (.stashWaitEnd x w) s fun u => u.unit b = s.unit a ∧ u.unit a = 0 ∧
      (∀ v, v ≠ a → v ≠ b → u.unit v = s.unit v) ∧ (u.eng x).stash = (s.eng x).stash ++ [⟨j.table, s.unit a⟩] ∧
      (u.eng x).jobs = [{ j with moves := [], made := j.made + 1 }] ∧
      u.get (O.STASH_WAITS j.table) = (s.get (O.STASH_WAITS j.table) + w.toNat) % 2 ^ 64 := by
  have hj' : ((fresh s).eng x).jobs = [j] := hj
  have hroom : ¬ (j.moves = [] ∨ 4 ≤ ((fresh s).eng x).stash.length) := by
    rintro (hn | hn)
    · rw [hm] at hn
      cases hn
    · exact Nat.not_le.2 hs hn
  obtain ⟨hb, ha, hother, heng, hget⟩ :=
    State.runMoves_last (s := (fresh s).count64 (O.STASH_WAITS j.table) w.toNat) x.isLt hj hs hab
  refine does_of_eq (u := ((fresh s).count64 (O.STASH_WAITS j.table) w.toNat).runMoves x [(a, b)]) exec_stashWaitEnd h ?_
    ⟨hb, ha, hother, congrArg EngX.stash heng, congrArg EngX.jobs heng, (hget _ _).trans (State.get_count64_same ..)⟩
  simp only [hj', if_neg hroom]
  rw [hm]

/-- With all four entries of the stash held the move waits on. -/
theorem stashWaitEnd_full (hs : 4 ≤ (s.eng x).stash.length) : exec (.stashWaitEnd x w) s = .next (fresh s) := by
  refine exec_eq_fresh exec_stashWaitEnd h ?_
  dsimp only
  split
  · exact if_pos (.inr hs)
  · rfl

end

section
variable {s : State} {n : Table} (h : Runs s)
include h

theorem ageTick_ticks (ht : s.get (O.AGE_TICK n) ≠ 0) (hk : s.get (O.TABLE_KIND n) = 1) : exec (.ageTick n) s =
    .next (ran s ((fresh s).set (O.AGE_CLOCK n) ((s.get (O.AGE_CLOCK n) + 1) % 2 ^ 16))) :=
  exec_eq_ran exec_ageTick h (if_neg (not_or.2 ⟨ht, not_not.2 hk⟩))

theorem ageTick_stands (ht : s.get (O.AGE_TICK n) = 0 ∨ s.get (O.TABLE_KIND n) ≠ 1) :
    exec (.ageTick n) s = .next (fresh s) := exec_eq_fresh exec_ageTick h (if_pos ht)

/-- The scanner's visit of a bucket: the position moves, no other bucket is written, and a bucket with nothing to age is
only read. -/
theorem ageScan_visits {d : Decl} {b : Nat} (hd : d = s.decl n) (hb : b = look 0 s.lookup.scanAt n % max d.size 1)
    (ht : s.get (O.AGE_TICK n) ≠ 0) (hk : d.kind = 1) :
    Does (.ageScan n) s fun u => look 0 u.lookup.scanAt n = (b + 1) % max d.size 1 ∧
      (∀ v, v ∉ d.slots b → u.unit v = s.unit v) ∧
      ((∀ v ∈ d.slots b, s.spares n (s.unit v)) →
        u.lookup.store = s.lookup.store ∧ (s.faults.damage = [] → u.dict.objs = s.dict.objs) ∧
        u.lookup.engs = s.lookup.engs) := by
  generalize hv : ({ fresh s with lookup := { s.lookup with
    scanAt := putN 0 n ((b + 1) % max d.size 1) s.lookup.scanAt } } : State) = v
  have hkeeps : (v.each (d.slots b) fun s k => s.ageVisit n d k).lookup.scanAt = v.lookup.scanAt ∧
      ∀ i, i ∉ d.slots b → (v.each (d.slots b) fun s k => s.ageVisit n d k).unit i = v.unit i :=
    State.each_keeps (fun t => t.lookup.scanAt = v.lookup.scanAt ∧ ∀ i, i ∉ d.slots b → t.unit i = v.unit i) _ _
      (fun t k hk ⟨hscan, hunit⟩ =>
        have ⟨hscan', hunit'⟩ := t.ageVisit_keeps n d k
        ⟨hscan'.trans hscan, fun i hi => (hunit' i fun hik => hi (hik ▸ hk)).trans (hunit i hi)⟩)
      v ⟨rfl, fun _ _ => rfl⟩
  obtain ⟨hscan, hunit⟩ := hkeeps
  refine does_of_eq (u := v.each (d.slots b) fun s k => s.ageVisit n d k) exec_ageScan h ?_ ⟨?_, ?_, ?_⟩
  · subst hd hb hv
    exact if_neg (not_or.2 ⟨ht, not_not.2 hk⟩)
  · rw [ran_lookup, hscan, ← hv]
    exact look_put_same ..
  · intro i hi
    exact (hunit i hi).trans (by rw [← hv]; rfl)
  · intro hspares
    have hread : (v.each (d.slots b) fun s k => s.ageVisit n d k) = v.readAll n (d.slots b) :=
      State.each_ageVisit_spares d (by rw [← hv]; exact hspares)
    rw [hread, ran_lookup, ran_dict, State.lookup_readAll]
    refine ⟨by rw [← hv], fun hclean => ?_, by rw [← hv]⟩
    rw [State.readAll_clean (by rw [← hv]; exact hclean), ← hv]

/-! ### AGE_DELETE (R165, R191) -/

theorem ageDelete_idle (hq : (s.eng (s.decl n).partition).deletes = []) : exec (.ageDelete n) s = .next (fresh s) := by
  refine exec_eq_fresh exec_ageDelete h ?_
  have hq' : ((fresh s).eng ((fresh s).decl n).partition).deletes = [] := hq
  simp only [hq']

variable {d : Decl} {q : AgeReq} {rest : List AgeReq} (hd : d = s.decl n) (hq : (s.eng d.partition).deletes = q :: rest)
include hd hq

/-- Another table's request, operations that stand before it, or an engine at work make it wait. -/
theorem ageDelete_waits (hw : q.table ≠ n.val ∨ q.ahead ≠ 0 ∨ s.engIdle d.partition = false) :
    exec (.ageDelete n) s = .next (fresh s) := by
  subst hd
  refine exec_eq_fresh exec_ageDelete h ?_
  have hq' : ((fresh s).eng ((fresh s).decl n).partition).deletes = q :: rest := hq
  simp only [hq']
  exact if_pos hw

variable (ht : q.table = n.val) (ha : q.ahead = 0) (hc : s.faults.damage = [])
include ht ha hc

/-- The request's turn on a store without damage: the request ends, and its entry, where it is still aged, loses its slot. -/
theorem exec_ageDelete_turn (hi : s.engIdle d.partition = true) {u : State}
    (hu : (match s.findKey d q.key with
      | none => (fresh s).putEng d.partition { s.eng d.partition with deletes := rest }
      | some k =>
        if entryStatic (s.unit k) ∨ s.ageOf n (s.unit k) < s.get (O.AGE_LIMIT n) then
          (fresh s).putEng d.partition { s.eng d.partition with deletes := rest }
        else ((((fresh s).putEng d.partition { s.eng d.partition with deletes := rest }).putEntry n d q.key k 0).count64
          (O.TABLE_COUNTS n 10)).entryEvent n 3 (s.unit k) true) = u) :
    exec (.ageDelete n) s = .next (ran s (u.engStart d.partition)) := by
  subst hd
  have hq' : ((fresh s).eng ((fresh s).decl n).partition).deletes = q :: rest := hq
  have hturn : ¬ (q.table ≠ n.val ∨ q.ahead ≠ 0 ∨ (fresh s).engIdle ((fresh s).decl n).partition = false) := by
    rintro (hn | hn | hn)
    · exact hn ht
    · exact hn ha
    · exact Bool.false_ne_true (hn.symm.trans hi)
  have hread : ∀ e ks, ((fresh s).putEng ((fresh s).decl n).partition e).readAll n ks =
      (fresh s).putEng ((fresh s).decl n).partition e := fun e ks =>
    State.readAll_clean (s := (fresh s).putEng _ e) hc n ks
  refine exec_eq_ran exec_ageDelete h ?_
  rw [← hu]
  simp only [hq', if_neg hturn, hread]
  rfl

/-- An entry that is gone, static or no longer aged stays: only the request ends, and a waiting operation starts. -/
theorem ageDelete_ends (hi : s.engIdle d.partition = true) (hf : ∀ v, s.findKey d q.key = some v →
      entryStatic (s.unit v) = true ∨ s.ageOf n (s.unit v) < s.get (O.AGE_LIMIT n)) :
    exec (.ageDelete n) s = .next (ran s
      (((fresh s).putEng d.partition { s.eng d.partition with deletes := rest }).engStart d.partition)) := by
  refine exec_ageDelete_turn h hd hq ht ha hc hi ?_
  split
  · rfl
  · rename_i k hk
    exact if_pos (hf k hk)

/-- An entry that is still aged loses its slot and its copy in the stash, with an event. -/
theorem ageDelete_deletes {v : Nat} (hj : (s.eng d.partition).jobs = []) (hf : s.findKey d q.key = some v)
    (hs : entryStatic (s.unit v) = false) (hl : s.get (O.AGE_LIMIT n) ≤ s.ageOf n (s.unit v)) :
    Does (.ageDelete n) s fun u => u.unit v = 0 ∧ (∀ y, y ≠ v → u.unit y = s.unit y) ∧
      (u.eng d.partition).deletes = rest ∧ u.stashed n d q.key = none ∧
      u.get (O.TABLE_COUNTS n 10) = (s.get (O.TABLE_COUNTS n 10) + 1) % 2 ^ 64 ∧
      u.get O.LEARN_SEQ = (s.get O.LEARN_SEQ + 1) % 2 ^ 64 := by
  have hi : s.engIdle d.partition = true := by simp [State.engIdle, hj]
  have haged : ¬ (entryStatic (s.unit v) = true ∨ s.ageOf n (s.unit v) < s.get (O.AGE_LIMIT n)) := by
    simp [hs, hl]
  generalize hb : (fresh s).putEng d.partition { s.eng d.partition with deletes := rest } = b
  generalize hp : b.putUnit v 0 = p
  have heng : p.eng d.partition = { s.eng d.partition with deletes := rest } := by
    rw [← hp, State.eng_putUnit, ← hb, State.eng_putEng _ d.partition_lt]
  obtain ⟨hjobs, -, hdel⟩ := p.queues_stashPut n d q.key 0 d.partition_lt
  have hget : ∀ r e, p.get r e = s.get r e := fun r e => by
    rw [← hp, State.get_putUnit, ← hb, State.get_putEng]
    rfl
  have hexec := exec_ageDelete_turn h hd hq ht ha hc hi
    (u := ((p.stashPut n d q.key 0).count64 (O.TABLE_COUNTS n 10)).entryEvent n 3 (s.unit v) true)
    (by simp only [hf, if_neg haged, State.putEntry, hb, hp])
  rw [State.engStart_of_jobs_nil (by rw [State.eng_entryEvent, State.eng_count64, hjobs, heng, hj])] at hexec
  refine ⟨_, hexec, ?_, fun y hy => ?_, ?_, ?_, ?_, ?_⟩
  · rw [ran_unit, State.unit_entryEvent, State.unit_count64, State.unit_stashPut, ← hp, State.unit_putUnit_same]
  · rw [ran_unit, State.unit_entryEvent, State.unit_count64, State.unit_stashPut, ← hp, State.unit_putUnit_ne b hy, ← hb]
    rfl
  · rw [ran_eng, State.eng_entryEvent, State.eng_count64, hdel, heng]
  · rw [ran_stashed, State.stashed_entryEvent]
    exact State.stashed_stashPut_zero ..
  · rw [ran_get, State.get_entryEvent_other _ _ _ _ _ (by simp) (by simp), State.get_count64_same, State.get_stashPut, hget]
  · rw [ran_get, State.get_entryEvent_seq, State.get_count64_other _ _ (.inl (by simp)), State.get_stashPut, hget]

end

/-! ### AGE_REFRESH (R190) -/

section
variable {s : State} {x : Partition} (h : Runs s)
include h

/-- While the engine is at work, or with no refresh waiting, nothing happens. -/
theorem ageRefresh_waits (hw : s.engIdle x = false ∨ (s.eng x).refresh = []) :
    exec (.ageRefresh x) s = .next (fresh s) := by
  refine exec_eq_fresh exec_ageRefresh h ?_
  dsimp only
  split
  · rfl
  · rename_i k rest hq
    have hidle : s.engIdle x = false := hw.resolve_right fun hn => by
      cases hn.symm.trans hq
    exact if_pos (by rw [Bool.not_eq_true']; exact hidle)

variable {k : Nat × Nat} {rest : List (Nat × Nat)} (hq : (s.eng x).refresh = k :: rest) (hi : s.engIdle x = true)
  (hc : s.faults.damage = [])
include hq hi hc

/-- The oldest refresh's turn on a store without damage. -/
theorem exec_ageRefresh_turn {u : State} (hu : (match s.findKey (s.decl k.1) k.2 with
      | none => (fresh s).putEng x { s.eng x with refresh := rest }
      | some v => ((fresh s).putEng x { s.eng x with refresh := rest }).putEntry k.1 (s.decl k.1) k.2 v
        (mkEntry (entryKey (s.unit v)) (entryAction (s.unit v)) (s.get (O.AGE_CLOCK k.1))
          (entryFlags (s.unit v) - 4 * b01 (bit (s.unit v) 122)))) = u) :
    exec (.ageRefresh x) s = .next (ran s u) := by
  have hq' : ((fresh s).eng x).refresh = k :: rest := hq
  have hidle : ¬ (!(fresh s).engIdle x) = true := by
    rw [Bool.not_eq_true']
    exact fun hn => Bool.false_ne_true (hn.symm.trans hi)
  have hread : ∀ e ks, ((fresh s).putEng x e).readAll k.1 ks = (fresh s).putEng x e := fun e ks =>
    State.readAll_clean (s := (fresh s).putEng x e) hc k.1 ks
  refine exec_eq_ran exec_ageRefresh h ?_
  rw [← hu]
  simp only [hq', if_neg hidle, hread]
  rfl

/-- The entry takes the clock's stamp and is no longer aged. -/
theorem ageRefresh_stamps {v : Nat} (hf : s.findKey (s.decl k.1) k.2 = some v) :
    Does (.ageRefresh x) s fun u => (u.eng x).refresh = rest ∧ (∀ y, y ≠ v → u.unit y = s.unit y) ∧
      u.unit v = mkEntry (entryKey (s.unit v)) (entryAction (s.unit v)) (s.get (O.AGE_CLOCK k.1))
        (entryFlags (s.unit v) - 4 * b01 (bit (s.unit v) 122)) := by
  refine ⟨_, exec_ageRefresh_turn h hq hi hc rfl, ?_⟩
  simp only [hf, State.putEntry]
  generalize mkEntry _ _ _ _ = z
  obtain ⟨-, hrefresh, -⟩ := (((fresh s).putEng x { s.eng x with refresh := rest }).putUnit v z).queues_stashPut k.1
    (s.decl k.1) k.2 z x.isLt
  refine ⟨?_, fun y hy => ?_, ?_⟩
  · rw [ran_eng, hrefresh, State.eng_putUnit, State.eng_putEng _ x.isLt]
  · rw [ran_unit, State.unit_stashPut, State.unit_putUnit_ne _ hy, State.unit_putEng]
    rfl
  · rw [ran_unit, State.unit_stashPut, State.unit_putUnit_same]

theorem ageRefresh_gone (hf : s.findKey (s.decl k.1) k.2 = none) :
    exec (.ageRefresh x) s = .next (ran s ((fresh s).putEng x { s.eng x with refresh := rest })) :=
  exec_ageRefresh_turn h hq hi hc (by simp only [hf])

end

end Sys2Proof.Machine

open Sys2Proof Sys2Proof.Machine

/-- Settles O38: one equation for what each of the six commands does in each of its cases. -/
theorem movesAndAging : Obligations.MovesAndAging := by
  intro s x n w h
  refine ⟨exec_stashRelease_ran h, fun j a b hj hm hab hs => stashWaitEnd_moves h hj hm hab hs, stashWaitEnd_full h,
    ageTick_ticks h, ageTick_stands h, fun d b hd hb ht hk => ageScan_visits h hd hb ht hk, fun d q rest hd hq =>
      ⟨ageDelete_waits h hd hq, fun v ht ha hj hf hs hl hc => ageDelete_deletes h hd hq ht ha hc hj hf hs hl,
        fun ht ha hi hc hf => ageDelete_ends h hd hq ht ha hc hi hf⟩,
    ageDelete_idle h, fun k rest hq hi hc =>
      ⟨fun v hf => ageRefresh_stamps h hq hi hc hf, fun hf => ageRefresh_gone h hq hi hc hf⟩, ageRefresh_waits h⟩

end

section
/-!
Enqueue, release, cell return and added holders (R200-R213), clause by clause.
-/
namespace Sys2Proof.Machine

/-! ### ENQUEUE (R202) -/

/-- The oldest matched packet of the port on the tile is enqueued. -/
theorem exec_enqueue_ran {s : State} {t : Tile} {q : Port} {k : Pkt} (h : Runs s)
    (hk : s.buf.pkts.find? (fun k => k.src == .port q && k.phase == .matched && k.tile == t.val) = some k) :
    exec (.enqueue t q) s = .next (ran s ((fresh s).enqueuePkt k).postcardsDue) := by
  refine exec_eq_ran exec_enqueue h ?_
  simp only [hk]

section
variable {s z : State} {p v : Pkt} {ds : List Dest} {i g : Nat} {r : List Verdict × Pkt × State}
  (hv : v = { p with charge := s.chargeOf p, cls := s.classOf p ds })
include hv

theorem State.enqueueTo_noDesc (ha : s.allocDesc = none) :
    (s.enqueueTo p ds).2 = s.refuseAll v (ds.map fun e => (e, 0x41)) 0x41 := by
  subst hv
  simp only [State.enqueueTo, ha]

variable (ha : s.allocDesc = some (i, g, z)) (hr : r = z.admitAll v ds)
include ha hr

/-- With a descriptor in hand the packet goes by what admission says of its destinations, in the order of R202. -/
theorem State.enqueueTo_desc :
    (s.enqueueTo p ds).2 =
      let n := (r.1.filter (·.code == 0)).length
      let refused := fun c =>
        (z.freeDesc i).refuseAll v (r.1.map fun e => (e.dest, if e.code = 0 then c else e.code)) c
      if n = 0 then refused (((r.1.head?).map (·.code)).getD 0x47)
      else if 64 < n ∧ (z.freeDesc i).get O.EXTENSIONS_FREE = 0 then refused 0x45
      else if (z.freeDesc i).get O.QUEUE_ENTRIES_FREE < n then refused 0x46
      else r.2.2.makePacket r.2.1 i g r.1 := by
  subst hv hr
  simp only [State.enqueueTo, ha]
  split_ifs <;> rfl

/-- With every destination refused the packet takes the code of the first. -/
theorem State.enqueueTo_refused {x : Verdict} {rest : List Verdict} (hx : r.1 = x :: rest)
    (hall : ∀ e ∈ r.1, e.code ≠ 0) :
    (s.enqueueTo p ds).2 = (z.freeDesc i).refuseAll v (r.1.map fun e => (e.dest, e.code)) x.code := by
  have hn : (r.1.filter (·.code == 0)).length = 0 := by
    rw [List.filter_eq_nil_iff.2 fun e he => by simpa using hall e he, List.length_nil]
  have hcodes : (r.1.map fun e => (e.dest, if e.code = 0 then x.code else e.code)) =
      r.1.map fun e => (e.dest, e.code) := List.map_congr_left fun e he => by rw [if_neg (hall e he)]
  have hc : ((r.1.head?).map (·.code)).getD 0x47 = x.code := by rw [hx]; rfl
  rw [State.enqueueTo_desc hv ha hr]
  simp only [hn, if_true, hc, hcodes]

theorem State.enqueueTo_noExtension (hn : 64 < (r.1.filter (·.code == 0)).length)
    (hx : (z.freeDesc i).get O.EXTENSIONS_FREE = 0) :
    (s.enqueueTo p ds).2 = (z.freeDesc i).refuseAll v
      (r.1.map fun e => (e.dest, if e.code = 0 then 0x45 else e.code)) 0x45 := by
  rw [State.enqueueTo_desc hv ha hr]
  exact (if_neg (by omega)).trans (if_pos ⟨hn, hx⟩)

variable (hn : 1 ≤ (r.1.filter (·.code == 0)).length)
  (hx : (r.1.filter (·.code == 0)).length ≤ 64 ∨ (z.freeDesc i).get O.EXTENSIONS_FREE ≠ 0)
include hn hx

theorem State.enqueueTo_noEntries
    (he : (z.freeDesc i).get O.QUEUE_ENTRIES_FREE < (r.1.filter (·.code == 0)).length) :
    (s.enqueueTo p ds).2 = (z.freeDesc i).refuseAll v
      (r.1.map fun e => (e.dest, if e.code = 0 then 0x46 else e.code)) 0x46 := by
  rw [State.enqueueTo_desc hv ha hr]
  exact (if_neg (by omega)).trans ((if_neg (by omega)).trans (if_pos he))

theorem State.enqueueTo_made
    (he : (r.1.filter (·.code == 0)).length ≤ (z.freeDesc i).get O.QUEUE_ENTRIES_FREE) :
    (s.enqueueTo p ds).2 = r.2.2.makePacket r.2.1 i g r.1 := by
  rw [State.enqueueTo_desc hv ha hr]
  exact (if_neg (by omega)).trans ((if_neg (by omega)).trans (if_neg (by omega)))

end

section
variable {s : State} {k : Pkt} {d : List Dest × Pkt × State} (hd : d = s.destinations k)
include hd

theorem State.enqueuePkt_nowhere (hn : d.1 = []) : s.enqueuePkt k = d.2.2.discardArrival d.2.1 0x47 := by
  subst hd
  exact if_pos hn

theorem State.enqueuePkt_somewhere (hn : d.1 ≠ []) : s.enqueuePkt k = (d.2.2.enqueueTo d.2.1 d.1).2 := by
  subst hd
  exact if_neg hn

end

/-! ### TOKEN_RELEASE (R209, R210, R228) -/

section
variable {s : State} {hw : BitVec 27} {tok : BitVec 10} {sender : Sender} (h : Runs s)
include h

theorem tokenRelease_unknown (hp : s.byHandle (hw.toNat % 2 ^ 21) = none) :
    exec (.tokenRelease hw tok sender) s =
      .next (ran s ((fresh s).refusedRelease 0x640 hw.toNat tok.toNat (s.releasingUnit sender))) := by
  have hp' : (fresh s).byHandle (hw.toNat % 2 ^ 21) = none := hp
  refine exec_eq_ran exec_tokenRelease h ?_
  simp only [hp']
  rfl

variable {p : Pkt} {v : State} (hp : s.byHandle (hw.toNat % 2 ^ 21) = some p) (hv : v = ((fresh s).useDesc p).2)
include hp hv

theorem tokenRelease_lost (hl : ((fresh s).useDesc p).1 = true) :
    exec (.tokenRelease hw tok sender) s = .next (ran s (v.releaseAt p.fid tok.toNat 0xC6 0).postcardsDue) := by
  have hp' : (fresh s).byHandle (hw.toNat % 2 ^ 21) = some p := hp
  refine exec_eq_ran exec_tokenRelease h ?_
  subst hv
  simp only [hp', hl, if_true]

variable (hl : ((fresh s).useDesc p).1 = false)
include hl

/-- Another generation, or a token never issued. -/
theorem tokenRelease_foreign (hf : p.gen ≠ hw.toNat / 2 ^ 21 ∨ p.issued ≤ tok.toNat) :
    exec (.tokenRelease hw tok sender) s =
      .next (ran s (v.refusedRelease 0x640 hw.toNat tok.toNat (s.releasingUnit sender))) := by
  have hp' : (fresh s).byHandle (hw.toNat % 2 ^ 21) = some p := hp
  refine exec_eq_ran exec_tokenRelease h ?_
  subst hv
  simp only [hp', hl, Bool.false_eq_true, if_false, if_pos hf]
  rfl

variable (hg : p.gen = hw.toNat / 2 ^ 21) (hk : tok.toNat < p.issued)
include hg hk

theorem tokenRelease_again (hx : ∀ e ∈ p.holders, e.tok ≠ tok.toNat) :
    exec (.tokenRelease hw tok sender) s =
      .next (ran s (v.refusedRelease 0x641 hw.toNat tok.toNat (s.releasingUnit sender))) := by
  have hp' : (fresh s).byHandle (hw.toNat % 2 ^ 21) = some p := hp
  have hnone : p.holders.find? (·.tok == tok.toNat) = none :=
    List.find?_eq_none.2 fun e he => by simpa using hx e he
  refine exec_eq_ran exec_tokenRelease h ?_
  subst hv
  simp only [hp', hl, Bool.false_eq_true, if_false, if_neg (not_or.2 ⟨not_not.2 hg, Nat.not_le.2 hk⟩), hnone]
  rfl

theorem tokenRelease_good {x : Holder} (hx : p.holders.find? (·.tok == tok.toNat) = some x) :
    exec (.tokenRelease hw tok sender) s = .next (ran s
      (v.releaseTok p x (if p.act.overflow then 0x2C else 0x00) (v.frameLen p x)).postcardsDue) := by
  have hp' : (fresh s).byHandle (hw.toNat % 2 ^ 21) = some p := hp
  refine exec_eq_ran exec_tokenRelease h ?_
  subst hv
  simp only [hp', hl, Bool.false_eq_true, if_false, if_neg (not_or.2 ⟨not_not.2 hg, Nat.not_le.2 hk⟩), hx]

end

/-! ### The unit a refused release names (R431) -/

theorem State.schedPort_portQueue (s : State) {q : Nat} (hq : q < 8192) : s.schedPort q = some (q / 16) := by
  have hport : ∀ a, s.queuePort a q = q / 16 := fun a => if_pos hq
  have hhost : ¬ (8192 ≤ q ∧ q < 8320) := by omega
  have hreal : q / 16 ≠ 0xFFFF := by omega
  rw [State.schedPort, State.portFor, if_neg hhost]
  simp only [hport, if_neg hreal]

theorem State.releasingUnit_portQueue (s : State) {q : Queue} (hq : q.val < 8192) :
    s.releasingUnit (.queue q) = unitId 10 (q.val / 16) := by
  have hhost : ¬ (8192 ≤ q.val ∧ q.val < 8320) := by omega
  simp only [State.releasingUnit, if_neg hhost, State.schedPort_portQueue s hq]

theorem State.releasingUnit_hostQueue {s : State} {q : Queue} {c : Channel} (hq : 8192 ≤ q.val ∧ q.val < 8320)
    (hc : s.get (O.HOSTQ_CHANNEL q) = c.val) : s.releasingUnit (.queue q) = unitId 15 c := by
  have hbound : c.val ≠ 0xFFFF := by have := c.isLt; omega
  simp only [State.releasingUnit, if_pos hq, hc, if_neg hbound]

/-! ### CELL_RETURN_DONE (R200) -/

/-- The cells are no longer allocated, nor marked by the scrubber. -/
def State.withoutCells (s : State) (cs : List Nat) : State :=
  { s with buf := { s.buf with
      used := s.buf.used.filter fun c => !cs.contains c, doomed := s.buf.doomed.filter fun c => !cs.contains c } }

/-- A sound cell of a bank in service becomes free. -/
theorem State.returnCell_sound {s : State} {c : Nat} (hb : s.bankUp (bankOfCell c) = true) (hd : c ∉ s.buf.doomed) :
    s.returnCell c = { s with buf := { s.buf with used := delNat c s.buf.used, doomed := delNat c s.buf.doomed } } := by
  have hup : ∀ b : Buffer, ({ s with buf := b } : State).bankUp (bankOfCell c) = true := fun _ => hb
  simp [State.returnCell, hup, hd]

/-- Sound cells of banks in service become free. -/
theorem State.returnCells_sound {cs : List Nat} {s : State}
    (hc : ∀ c ∈ cs, s.bankUp (bankOfCell c) = true ∧ c ∉ s.buf.doomed) : s.returnCells cs = s.withoutCells cs := by
  induction cs generalizing s with
  | nil => simp [State.returnCells, State.each, State.withoutCells]
  | cons c cs ih =>
    obtain ⟨hb, hd⟩ := hc c (List.mem_cons_self ..)
    show (s.returnCell c).returnCells cs = _
    rw [State.returnCell_sound hb hd, ih fun x hx => ?rest]
    case rest =>
      obtain ⟨hxb, hxd⟩ := hc x (List.mem_cons_of_mem _ hx)
      exact ⟨hxb, fun hm => hxd (List.mem_of_mem_filter hm)⟩
    have hfilter : ∀ l : List Nat, (delNat c l).filter (fun x => !cs.contains x) =
        l.filter fun x => !(c :: cs).contains x := fun l => by
      rw [delNat, List.filter_filter]
      refine List.filter_congr fun x _ => ?_
      by_cases hx : x = c <;> simp [hx]
    simp only [State.withoutCells, hfilter]

/-- A packet of no lossless class pauses nothing (R221). -/
theorem State.pfcCheck_noClass (s : State) (i : Nat) : s.pfcCheck i 0 = s := by
  simp [State.pfcCheck, State.classLive]

/-- A packet without packet-level charges credits its cells and its descriptor. -/
theorem State.cellReturn_uncharged {s : State} {p : Pkt} (hpools : p.pools = 0) (hcls : p.cls = 0)
    (hroom : p.hroom = false) (hext : p.ext = false) :
    s.cellReturn p = ((s.returnCells p.cells).dropPkt p.fid).freeDesc p.handle := by
  have hbits : bitsOf 0 8 = [] := by decide
  simp [State.cellReturn, hpools, hcls, hroom, hext, hbits, State.each, State.pfcCheck_noClass]

section
variable {s : State} {i : Handle} (h : Runs s)
include h

theorem cellReturnDone_returns {p : Pkt} (hp : s.byHandle i = some p) (hph : p.phase = .returning)
    (hl : p.lost = false) : exec (.cellReturnDone i) s = .next (ran s ((fresh s).cellReturn p)) := by
  have hp' : (fresh s).byHandle i = some p := hp
  refine exec_eq_ran exec_cellReturnDone h ?_
  simp only [hp', if_pos (And.intro hph hl)]

theorem cellReturnDone_unknown (hp : s.byHandle i = none) : exec (.cellReturnDone i) s = .next (fresh s) := by
  have hp' : (fresh s).byHandle i = none := hp
  refine exec_eq_fresh exec_cellReturnDone h ?_
  simp only [hp']

theorem cellReturnDone_credits {p : Pkt} (hp : s.byHandle i = some p) (hph : p.phase = .returning)
    (hl : p.lost = false) (hpools : p.pools = 0) (hcls : p.cls = 0) (hroom : p.hroom = false) (hext : p.ext = false)
    (hc : ∀ c ∈ p.cells, s.bankUp (bankOfCell c) = true ∧ c ∉ s.buf.doomed) :
    Does (.cellReturnDone i) s fun u => (∀ c ∈ p.cells, c ∉ u.buf.used) ∧ u.buf.freed = s.buf.freed ++ [p.handle] ∧
      u.pkt? p.fid = none ∧ u.get O.DESCRIPTORS_FREE = s.get O.DESCRIPTORS_FREE + 1 ∧
      ∀ r e, r ≠ O.DESCRIPTORS_FREE → u.get r e = s.get r e := by
  refine ⟨_, cellReturnDone_returns h hp hph hl, ?_⟩
  rw [State.cellReturn_uncharged hpools hcls hroom hext, State.returnCells_sound (s := fresh s) hc]
  refine ⟨fun c hm hu => ?_, rfl, ?_, ?_, fun r e hr => ?_⟩
  · have hout := List.of_mem_filter (p := fun c => !p.cells.contains c) hu
    simp [hm] at hout
  · refine List.find?_eq_none.2 fun q hq => ?_
    simpa using List.of_mem_filter (p := fun q : Pkt => q.fid != p.fid) hq
  · exact State.get_set_same ..
  · exact State.get_set_other _ _ _ _ (.inl hr)

end

/-! ### HOLDER_ADD (R212) -/

/-- A mirror session without a port makes no copy (R313). -/
theorem State.addHolder_noSession {s : State} {p : Pkt} {m : Nat}
    (hm : s.getP p.applied (O.MIRROR_PORT m) = 0xFFFF) (x : Holder) : s.addHolder p x m = s := by
  have hsample : s.mirrorSample p m = (false, s) := if_pos hm
  simp only [State.addHolder, hsample]
  rfl

section
variable {s : State} {hw : BitVec 27} {tok : BitVec 10} {m : Fin 64} (h : Runs s)
include h

theorem holderAdd_unknown (hp : s.byHandle (hw.toNat % 2 ^ 21) = none) :
    exec (.holderAdd hw tok m) s = .next (fresh s) := by
  have hp' : (fresh s).byHandle (hw.toNat % 2 ^ 21) = none := hp
  refine exec_eq_fresh exec_holderAdd h ?_
  simp only [hp']

variable {p : Pkt} {x : Holder} (hp : s.byHandle (hw.toNat % 2 ^ 21) = some p)
  (hx : p.holders.find? (·.tok == tok.toNat) = some x) (hg : p.gen = hw.toNat / 2 ^ 21)
include hp hx hg

theorem holderAdd_adds : exec (.holderAdd hw tok m) s = .next (ran s ((fresh s).addHolder p x m)) := by
  have hp' : (fresh s).byHandle (hw.toNat % 2 ^ 21) = some p := hp
  refine exec_eq_ran exec_holderAdd h ?_
  simp only [hp', hx, if_pos hg]

theorem holderAdd_noSession (hm : s.getP p.applied (O.MIRROR_PORT m) = 0xFFFF) :
    exec (.holderAdd hw tok m) s = .next (fresh s) := by
  rw [holderAdd_adds h hp hx hg, State.addHolder_noSession (s := fresh s) hm, ran_fresh h]

end

end Sys2Proof.Machine

open Sys2Proof Sys2Proof.Machine

/-- Settles O40: ENQUEUE by the branches of `enqueueTo`, a release by the checks of its handle and token, the return of
the last cell by what sound cells and a packet without charges leave. -/
theorem enqueueAndRelease : Obligations.EnqueueAndRelease := by
  intro s t q hw tok sender i m h
  refine ⟨fun k d hk hd => ?enqueue, fun _ _ hi hk => ?release, fun e c => ⟨s.releasingUnit_portQueue,
      fun hlo hhi => State.releasingUnit_hostQueue ⟨hlo, hhi⟩, rfl, rfl, rfl⟩,
    fun p => cellReturnDone_returns h, fun p => cellReturnDone_credits h, cellReturnDone_unknown h,
    fun p x hp hx hg => ⟨holderAdd_adds h hp hx hg, holderAdd_noSession h hp hx hg⟩, holderAdd_unknown h⟩
  case enqueue =>
    rw [exec_enqueue_ran h hk]
    refine ⟨fun hn => by rw [State.enqueuePkt_nowhere hd hn], fun v hn hv => ?_⟩
    rw [State.enqueuePkt_somewhere hd hn]
    refine ⟨fun ha => by rw [State.enqueueTo_noDesc hv ha], fun j g z r ha hr => ⟨fun x rest hx hall => ?_,
      fun hmany hx => ?_, fun hsome hx he => ?_, fun hsome hx he => ?_⟩⟩
    · rw [State.enqueueTo_refused hv ha hr hx hall]
    · rw [State.enqueueTo_noExtension hv ha hr hmany hx]
    · rw [State.enqueueTo_noEntries hv ha hr hsome hx he]
    · rw [State.enqueueTo_made hv ha hr hsome hx he]
  case release =>
    subst hi hk
    exact ⟨tokenRelease_unknown h, fun p v hp hv => ⟨tokenRelease_lost h hp hv, fun hl =>
      ⟨tokenRelease_foreign h hp hv hl, tokenRelease_again h hp hv hl, fun x hg hk hx =>
        tokenRelease_good h hp hv hl hg hk hx⟩⟩⟩

end

section
/-!
Banks, sweeps and the read-out of the buffer (R204, R225-R230): what the carve-out and a copy of a cell leave, the command
objects that take a write, and the statement assembled from them.
-/
namespace Sys2Proof.Machine

/-! ### The carve-out and what does not depend on it (R226) -/

theorem State.recarve_eq (s : State) : s.recarve = { s with
    dict := { s.dict with objs := s.recarve.dict.objs }
    buf := { s.buf with deficit := s.recarve.buf.deficit }
    faults := s.recarve.faults } := by
  unfold State.recarve
  extract_lets s1 d caps eff old s2 further b s3
  obtain ⟨objs, hs2⟩ : ∃ objs, s2 = { s1 with dict := { s1.dict with objs := objs } } :=
    ⟨_, State.each_set_eq s1 (List.range 8) O.POOL_CAP_EFFECTIVE fun x => eff.getD x 0⟩
  obtain ⟨f, hs3⟩ : ∃ f, s3 = { s2 with buf := { s2.buf with deficit := f } } := ⟨_, rfl⟩
  clear_value s3 b s2 further d
  subst hs3 hs2
  split
  · rfl
  · rfl

@[simp] theorem State.out_recarve (s : State) : s.recarve.out = s.out := by rw [State.recarve_eq]
@[simp] theorem State.irq_recarve (s : State) : s.recarve.irq = s.irq := by rw [State.recarve_eq]
@[simp] theorem State.cmds_recarve (s : State) : s.recarve.dict.cmds = s.dict.cmds := by rw [State.recarve_eq]
@[simp] theorem State.used_recarve (s : State) : s.recarve.buf.used = s.buf.used := by rw [State.recarve_eq]
@[simp] theorem State.quar_recarve (s : State) : s.recarve.buf.quar = s.buf.quar := by rw [State.recarve_eq]
@[simp] theorem State.dropped_recarve (s : State) : s.recarve.buf.dropped = s.buf.dropped := by rw [State.recarve_eq]

theorem State.cmd_congr {s t : State} (h : t.dict.cmds = s.dict.cmds) (r : Ref) : t.cmd r = s.cmd r := by
  rw [State.cmd, State.cmd, h]

/-- The objects of a bank stay as they are. -/
theorem State.get_recarve_bank (s : State) (n sub e : Nat) : s.recarve.get ⟨0x6002, n, sub⟩ e = s.get ⟨0x6002, n, sub⟩ e := by
  obtain ⟨-, -, -, hget⟩ := s.recarve_keeps
  exact hget _ _ (by simp) (by simp) (by simp)

/-! ### Command objects that take a write -/

/-- A command whose block refuses it leaves everything as it was. -/
theorem write_cmd_unmoved {s : State} {p : Path} {a : Ref} {off e : Nat} {d : List Byte} {o : ObjRow} (h : Takes s p a)
    (hf : Finds s false a o) (ha : o.acc = .cmd) (hr : a.idx ≠ 0x5003 ∨ a.sub ≠ 2) (hd : cmdFits a o.size d = true)
    (hv : s.cmdRange a d = true) (hg : s.diagRefuses a false = false) (hc : (fresh s).command a d = (e, fresh s)) :
    exec (.write p a off d) s = .next (refused s p e) :=
  have hready : Ready s p := h.1
  (write_cmd_takes h hf ha hr hd hv hg hc).trans (congrArg _ (answers_fresh hready.1 p e))

/-- The row of BANK_ISOLATE. -/
def bankIsolateRow : ObjRow := ⟨0x6002, 4, 4, .cmd, .cmd, 0, 0, .upto 192, .none, []⟩
/-- The row of BANK_RESTORE. -/
def bankRestoreRow : ObjRow := ⟨0x6002, 5, 5, .cmd, .cmd, 0, 0, .upto 192, .none, []⟩
/-- The row of DESCRIPTOR_READ. -/
def descriptorReadRow : ObjRow := ⟨0x6040, 4, 4, .cmd, .cmd, 4, 0, .upto 1, .none, []⟩
/-- The row of ORPHAN_SWEEP. -/
def orphanSweepRow : ObjRow := ⟨0x6040, 5, 5, .cmd, .cmd, 0, 0, .upto 1, .none, []⟩
/-- The row of SNAPSHOT. -/
def snapshotRow : ObjRow := ⟨0x6050, 1, 1, .cmd, .cmd, 0, 0, .upto 1, .none, []⟩

theorem finds_bankCommand (s : State) (k : BufBank) {sub : Nat} {o : ObjRow}
    (hrow : rowOf (indexRows 0x6002) sub = some o) : Finds s false ⟨0x6002, k, sub⟩ o := by
  have hhead : (indexRows 0x6002).head? = some ⟨0x6002, 1, 1, .enum, .ro, 2, 2, .upto 192, .none, []⟩ := by
    decide +kernel
  exact finds_of_rowOf hhead (decide_eq_true k.isLt) hrow (by simp)

theorem finds_bankIsolate (s : State) (k : BufBank) : Finds s false (O.BANK_ISOLATE k) bankIsolateRow :=
  finds_bankCommand s k (by decide +kernel)

theorem finds_bankRestore (s : State) (k : BufBank) : Finds s false (O.BANK_RESTORE k) bankRestoreRow :=
  finds_bankCommand s k (by decide +kernel)

theorem finds_descriptorCommand (s : State) {sub : Nat} {o : ObjRow}
    (hrow : rowOf (indexRows 0x6040) sub = some o) : Finds s false ⟨0x6040, 0, sub⟩ o := by
  have hhead : (indexRows 0x6040).head? = some ⟨0x6040, 1, 1, .u32, .ro, 4, 4, .upto 1, .none, []⟩ := by
    decide +kernel
  exact finds_of_rowOf hhead (decide_eq_true Nat.zero_lt_one) hrow (by simp)

theorem finds_descriptorRead (s : State) : Finds s false O.DESCRIPTOR_READ descriptorReadRow :=
  finds_descriptorCommand s (by decide +kernel)

theorem finds_orphanSweep (s : State) : Finds s false O.ORPHAN_SWEEP orphanSweepRow :=
  finds_descriptorCommand s (by decide +kernel)

theorem finds_snapshot (s : State) : Finds s false O.SNAPSHOT snapshotRow := by
  have hhead : (indexRows 0x6050).head? = some snapshotRow := by decide +kernel
  have hrow : rowOf (indexRows 0x6050) 1 = some snapshotRow := by decide +kernel
  exact finds_of_rowOf hhead (decide_eq_true Nat.zero_lt_one) hrow (by simp)

/-! ### BANK_ISOLATE and BANK_RESTORE (R225, R227) -/

theorem exec_bankIsolate_write (s : State) (p : Path) (k : BufBank) :
    exec (.bankIsolate p k) s = exec (.write p (O.BANK_ISOLATE k) 0 []) s := rfl

theorem exec_bankRestore_write (s : State) (p : Path) (k : BufBank) :
    exec (.bankRestore p k) s = exec (.write p (O.BANK_RESTORE k) 0 []) s := rfl

theorem State.command_bankIsolate (s : State) (k : Nat) : s.command (O.BANK_ISOLATE k) [] =
    if s.get (O.BUF_BANK_STATE k) = BankSt.inService then (Err.ok, (s.cmdRun (O.BANK_ISOLATE k)).bankIsolate k)
    else (Err.state, s) := (rfl)

theorem State.command_bankRestore (s : State) (k : Nat) : s.command (O.BANK_RESTORE k) [] =
    if s.get (O.BUF_BANK_STATE k) = BankSt.isolated then
      (Err.ok, (s.cmdRun (O.BANK_RESTORE k)).set (O.BUF_BANK_STATE k) BankSt.restoring)
    else (Err.state, s) := (rfl)

section
variable {s : State} {p : Path} {k : BufBank}

theorem bankIsolate_runs (h : Takes s p (O.BANK_ISOLATE k)) (hs : s.get (O.BUF_BANK_STATE k) = BankSt.inService) :
    Does (.bankIsolate p k) s fun u => u.out = [.answer p Err.ok []] ∧ u.get (O.BUF_BANK_STATE k) = BankSt.remapping ∧
      (u.cmd (O.BANK_ISOLATE k)).status = 1 ∧ u.buf.used = s.buf.used := by
  generalize hu : ((fresh s).cmdRun (O.BANK_ISOLATE k)).set (O.BUF_BANK_STATE k) BankSt.remapping = u
  have hexec : exec (.bankIsolate p k) s = .next (answers s p Err.ok u.recarve) := by
    rw [exec_bankIsolate_write, ← hu]
    exact write_cmd_takes h (finds_bankIsolate s k) rfl (.inl (by simp)) rfl rfl
      (State.diagRefuses_of_area (by simp) false) ((State.command_bankIsolate _ _).trans (if_pos hs))
  refine ⟨_, hexec, ?_, ?_, ?_, ?_⟩
  · show u.recarve.out ++ _ = _
    rw [State.out_recarve, ← hu]
    rfl
  · show u.recarve.get (O.BUF_BANK_STATE k) = _
    rw [State.get_recarve_bank, ← hu]
    exact State.get_set_same ..
  · show (u.recarve.cmd (O.BANK_ISOLATE k)).status = 1
    rw [State.cmd_congr u.cmds_recarve, ← hu]
    exact congrArg CmdStat.status (State.cmd_setCmd (fresh s) (O.BANK_ISOLATE k) 1 0 [])
  · show u.recarve.buf.used = _
    rw [State.used_recarve, ← hu]
    rfl

theorem bankIsolate_refused (h : Takes s p (O.BANK_ISOLATE k))
    (hs : s.get (O.BUF_BANK_STATE k) ≠ BankSt.inService) :
    exec (.bankIsolate p k) s = .next (refused s p Err.state) := by
  rw [exec_bankIsolate_write]
  exact write_cmd_unmoved h (finds_bankIsolate s k) rfl (.inl (by simp)) rfl rfl
    (State.diagRefuses_of_area (by simp) false) ((State.command_bankIsolate _ _).trans (if_neg hs))

theorem bankRestore_runs (h : Takes s p (O.BANK_RESTORE k)) (hs : s.get (O.BUF_BANK_STATE k) = BankSt.isolated) :
    exec (.bankRestore p k) s = .next (answers s p Err.ok
      (((fresh s).cmdRun (O.BANK_RESTORE k)).set (O.BUF_BANK_STATE k) BankSt.restoring)) := by
  rw [exec_bankRestore_write]
  exact write_cmd_takes h (finds_bankRestore s k) rfl (.inl (by simp)) rfl rfl
    (State.diagRefuses_of_area (by simp) false) ((State.command_bankRestore _ _).trans (if_pos hs))

theorem bankRestore_refused (h : Takes s p (O.BANK_RESTORE k))
    (hs : s.get (O.BUF_BANK_STATE k) ≠ BankSt.isolated) :
    exec (.bankRestore p k) s = .next (refused s p Err.state) := by
  rw [exec_bankRestore_write]
  exact write_cmd_unmoved h (finds_bankRestore s k) rfl (.inl (by simp)) rfl rfl
    (State.diagRefuses_of_area (by simp) false) ((State.command_bankRestore _ _).trans (if_neg hs))

end

/-! ### The end of a remap and of a restoration (R225-R227) -/

section
variable {s : State} {k : BufBank} (h : Runs s)
include h

theorem bankRemapDone_isolates (hs : s.get (O.BUF_BANK_STATE k) = BankSt.remapping)
    (hc : ∀ c ∈ s.buf.used, bankOfCell c ≠ k.val) :
    Does (.bankRemapDone k) s fun u => u.get (O.BUF_BANK_STATE k) = BankSt.isolated ∧
      u.irq.doorbells = s.irq.doorbells ++ [0x580 + k.val] ∧ u.buf.used = s.buf.used ∧
      (s.cmdRunning (O.BANK_ISOLATE k) = true → (u.cmd (O.BANK_ISOLATE k)).status = 2) := by
  have hnone : (s.buf.used.any fun c => bankOfCell c == k.val) = false :=
    List.any_eq_false.2 fun c hm => by simpa using hc c hm
  generalize hv : ((fresh s).set (O.BUF_BANK_STATE k) BankSt.isolated).raise (0x580 + k) = v
  have hstate : v.recarve.get (O.BUF_BANK_STATE k) = BankSt.isolated := by
    rw [State.get_recarve_bank, ← hv]
    exact State.get_set_same ..
  have hirq : v.recarve.irq.doorbells = s.irq.doorbells ++ [0x580 + k.val] := by
    rw [State.irq_recarve, ← hv]
    rfl
  have hused : v.recarve.buf.used = s.buf.used := by
    rw [State.used_recarve, ← hv]
    rfl
  have hcmd : v.recarve.cmdRunning (O.BANK_ISOLATE k) = s.cmdRunning (O.BANK_ISOLATE k) := by
    rw [State.cmdRunning, State.cmd_congr v.cmds_recarve, ← hv]
    rfl
  refine does_of_eq (u := if v.recarve.cmdRunning (O.BANK_ISOLATE k) then v.recarve.cmdDone (O.BANK_ISOLATE k)
    else v.recarve) exec_bankRemapDone h (by subst hv; exact if_pos ⟨hs, hnone⟩) ?_
  rw [hcmd]
  cases s.cmdRunning (O.BANK_ISOLATE k) with
  | true => exact ⟨hstate, hirq, hused, fun _ => congrArg CmdStat.status (State.cmd_setCmd v.recarve ..)⟩
  | false => exact ⟨hstate, hirq, hused, nofun⟩

variable (hs : s.get (O.BUF_BANK_STATE k) = BankSt.restoring)
include hs

theorem bankRestoreDone_passes :
    Does (.bankRestoreDone k true) s fun u => u.get (O.BUF_BANK_STATE k) = BankSt.inService ∧
      u.get (O.BANK_QUARANTINED k) = 0 ∧ (∀ c ∈ u.buf.quar, bankOfCell c ≠ k.val) ∧
      (∀ c ∈ u.buf.dropped, bankOfCell c ≠ k.val) ∧ (u.cmd (O.BANK_RESTORE k)).status = 2 := by
  have hout : ∀ (l : List Nat), ∀ c ∈ l.filter (fun c => bankOfCell c != k.val), bankOfCell c ≠ k.val :=
    fun l c hm => by simpa using List.of_mem_filter hm
  refine (does_iff exec_bankRestoreDone h).2 ?_
  rw [if_neg (not_not.2 (show (fresh s).get (O.BUF_BANK_STATE k) = BankSt.restoring from hs)), if_pos rfl]
  extract_lets out b f v w
  have hquar : w.buf.quar = s.buf.quar.filter fun c => bankOfCell c != k.val := State.quar_recarve _
  have hdropped : w.buf.dropped = s.buf.dropped.filter fun c => bankOfCell c != k.val := State.dropped_recarve _
  refine ⟨?_, ?_, ?_, ?_, congrArg CmdStat.status (State.cmd_setCmd w ..)⟩
  · show w.get (O.BUF_BANK_STATE k) = _
    rw [State.get_recarve_bank, State.get_set_other _ _ _ _ (.inl (by simp))]
    exact State.get_set_same ..
  · show w.get (O.BANK_QUARANTINED k) = _
    rw [State.get_recarve_bank]
    exact State.get_set_same ..
  · show ∀ c ∈ w.buf.quar, _
    rw [hquar]
    exact hout _
  · show ∀ c ∈ w.buf.dropped, _
    rw [hdropped]
    exact hout _

theorem bankRestoreDone_fails : exec (.bankRestoreDone k false) s = .next (ran s
    (((fresh s).set (O.BUF_BANK_STATE k) BankSt.isolated).cmdFail (O.BANK_RESTORE k) Err.state)) :=
  exec_eq_ran exec_bankRestoreDone h (if_neg (not_not.2 hs))

end

/-! ### REMAP_CELL (R225) -/

/-- A cell granted is allocated, and written: the packets, the objects and the tiles stay as they are. -/
theorem State.grantCell_some {s v : State} {n : Nat} (h : s.grantCell = some (n, v)) : ∃ k,
    v = State.wordWritten { s with buf := { s.buf with used := insNat n s.buf.used, rr := (k + 1) % 192 } }
      (0x400 + k) (0x4C0 + k) (unitId 3 k) n := by
  unfold State.grantCell at h
  split at h
  · cases h
  · split at h
    · cases h
    · cases h
      exact ⟨_, rfl⟩

theorem State.grantCell_keeps {s v : State} {n : Nat} (h : s.grantCell = some (n, v)) :
    v.buf.pkts = s.buf.pkts ∧ v.tiles = s.tiles ∧ ∀ r e, v.get r e = s.get r e := by
  obtain ⟨k, rfl⟩ := State.grantCell_some h
  rw [State.wordWritten, State.wordWrittenAs_eq]
  exact ⟨rfl, rfl, fun _ _ => rfl⟩

/-- A cell read changes no buffer, no tile, and of the objects its bank's error counts alone. -/
theorem State.readCell_keeps (s : State) (reader access c : Nat) :
    (s.readCell reader access c).2.buf = s.buf ∧ (s.readCell reader access c).2.tiles = s.tiles ∧
      ∀ r e, r ≠ O.BANK_ERRORS (bankOfCell c) → (s.readCell reader access c).2.get r e = s.get r e := by
  unfold State.readCell
  dsimp only
  rw [State.checkWord_eq]
  split
  · exact ⟨rfl, rfl, fun _ _ _ => rfl⟩
  · exact ⟨rfl, rfl, fun r e hr => State.get_count64_other _ _ (.inl hr)⟩

/-- Cell `c` is dropped, its copy `n` stands in its place in every packet, and the move is counted. -/
def State.copied (s : State) (c n : Nat) : State :=
  State.count64 { s with buf := { s.buf with
    used := delNat c s.buf.used, doomed := delNat c s.buf.doomed, dropped := insNat c s.buf.dropped
    pkts := s.buf.pkts.map fun q => { q with cells := q.cells.map fun x => if x = c then n else x } } } O.CELLS_REMAPPED

section
variable {s v : State} {c n : Nat} (hg : s.grantCell = some (n, v))
include hg

/-- A cell that no packet holds is copied alone. -/
theorem State.remapCell_unheld (hc : ∀ q ∈ s.buf.pkts, c ∉ q.cells) :
    s.remapCell c = (v.readCell (unitId 3 (bankOfCell c)) 4 c).2.copied c n := by
  have hnone : v.buf.pkts.find? (fun p => p.cells.contains c) = none := by
    rw [(State.grantCell_keeps hg).1]
    exact List.find?_eq_none.2 fun q hq => by simpa using hc q hq
  have hread : (v.readCell (unitId 3 (bankOfCell c)) 4 c).2.buf.pkts.find? (fun p => p.cells.contains c) = none := by
    rw [(v.readCell_keeps (unitId 3 (bankOfCell c)) 4 c).1, hnone]
  simp only [State.remapCell, hg, hnone, hread, Option.bind_none]
  cases (v.readCell (unitId 3 (bankOfCell c)) 4 c).1 with
  | false => rfl
  | true => rfl

end

theorem State.readWordAs_clean {s : State} (hd : s.faults.damage = []) (ce ue u reporter a shown access : Nat) :
    s.readWordAs ce ue u reporter a shown access = (false, s) := by
  simp [State.readWordAs, State.checkWord, State.damaged_of_none hd]

section
variable {s : State} (hd : s.faults.damage = []) (ha : s.faults.armed = [])
include hd ha

theorem State.wordWrittenAs_clean (ce ue u a shown : Nat) : s.wordWrittenAs ce ue u a shown = s :=
  (State.wordWrittenAs_unarmed ha ..).trans (if_pos hd)

theorem State.linkWritten_clean (c : Option Nat) : s.linkWritten c = s := by
  cases c with
  | none => rfl
  | some c => exact State.wordWrittenAs_clean hd ha ..

/-- A frame without damage is relinked without a trace but a free value. -/
theorem State.relink_clean (p : Pkt) (c n : Nat) : ∃ f, s.relink p c n = { s with free := f } := by
  obtain ⟨f, w, hw⟩ : ∃ f w, (if p.enq then (p.handle, s) else s.draw 32) = (w, { s with free := f }) := by
    split
    · exact ⟨_, _, rfl⟩
    · exact ⟨_, _, rfl⟩
  refine ⟨f, ?_⟩
  have hlink : ∀ c, ({ s with free := f } : State).linkWritten c = { s with free := f } :=
    State.linkWritten_clean (s := { s with free := f }) hd ha
  have hstore : ∀ a b, ({ s with free := f } : State).storeWritten a b = { s with free := f } :=
    fun a b => State.wordWrittenAs_clean (s := { s with free := f }) hd ha ..
  have hread : ∀ ce ue u r a b x, ({ s with free := f } : State).readWordAs ce ue u r a b x = (false, { s with free := f }) :=
    State.readWordAs_clean (s := { s with free := f }) hd
  unfold State.relink
  simp only [hw, hread, hlink, hstore, ite_self, Bool.false_eq_true, if_false]

/-- Without damage and armed injections a cell is copied, whichever packet holds it. -/
theorem State.remapCell_clean {v : State} {n : Nat} (hg : s.grantCell = some (n, v)) (c : Nat) :
    ∃ f, s.remapCell c = State.copied { v with free := f } c n := by
  have hv : v.faults = s.faults := by
    obtain ⟨k, rfl⟩ := State.grantCell_some hg
    rw [State.wordWritten, State.wordWrittenAs_clean (by exact hd) (by exact ha)]
  have hread : ∀ f, ({ v with free := f } : State).readCell (unitId 3 (bankOfCell c)) 4 c = (false, { v with free := f }) :=
    fun f => State.readCell_clean (State.damaged_of_none (by show v.faults.damage = []; rw [hv]; exact hd) _ _) ..
  cases hfind : v.buf.pkts.find? fun p => p.cells.contains c with
  | none =>
    refine ⟨v.free, ?_⟩
    simp only [State.remapCell, hg, hfind, hread v.free]
    rfl
  | some p =>
    obtain ⟨f, hf⟩ := State.relink_clean (s := v) (by rw [hv]; exact hd) (by rw [hv]; exact ha) p c n
    refine ⟨f, ?_⟩
    simp only [State.remapCell, hg, hfind, hf, hread f]
    rfl

end

section
variable {s : State} {k : BufBank} {c : Nat} (h : Runs s) (hs : s.get (O.BUF_BANK_STATE k) = BankSt.remapping)
  (hc : s.buf.used.find? (bankOfCell · == k.val) = some c)
include h hs hc

/-- The bank's lowest allocated cell is moved. -/
theorem exec_remapCell_ran : exec (.remapCell k) s = .next (ran s ((fresh s).remapCell c).postcardsDue) := by
  refine exec_eq_ran exec_remapCell h ?_
  rw [if_neg (not_not.2 (show (fresh s).get (O.BUF_BANK_STATE k) = BankSt.remapping from hs))]
  simp only [hc]

variable {n : Nat} {v : State} (hg : (fresh s).grantCell = some (n, v)) (ht : ∀ e ∈ s.tiles, e.2.postRecs.length < 24)
include hg ht

theorem remapCell_drops (hq : ∀ q ∈ s.buf.pkts, c ∉ q.cells) :
    Does (.remapCell k) s fun u => c ∈ u.buf.dropped ∧
      u.get O.CELLS_REMAPPED = (s.get O.CELLS_REMAPPED + 1) % 2 ^ 64 := by
  obtain ⟨-, hvtiles, hvget⟩ := State.grantCell_keeps hg
  obtain ⟨-, hrtiles, hrget⟩ := v.readCell_keeps (unitId 3 (bankOfCell c)) 4 c
  refine ⟨_, exec_remapCell_ran h hs hc, ?_⟩
  rw [State.remapCell_unheld hg hq, State.postcardsDue_of_few fun e he => ht e ?_]
  · refine ⟨mem_insNat.2 (.inl rfl), (State.get_count64_same ..).trans ?_⟩
    exact congrArg (fun x => (x + 1) % 2 ^ 64) ((hrget _ _ (by simp)).trans (hvget _ _))
  · rw [show s.tiles = _ from (hrtiles.trans hvtiles).symm]
    exact he

theorem remapCell_renames (hd : s.faults.damage = []) (ha : s.faults.armed = []) :
    Does (.remapCell k) s fun u => u.buf.pkts = s.buf.pkts.map fun q =>
      { q with cells := q.cells.map fun x => if x = c then n else x } := by
  obtain ⟨hvpkts, hvtiles, -⟩ := State.grantCell_keeps hg
  obtain ⟨f, hf⟩ := State.remapCell_clean (s := fresh s) hd ha hg c
  refine ⟨_, exec_remapCell_ran h hs hc, ?_⟩
  rw [hf, State.postcardsDue_of_few fun e he => ht e ?_]
  · show v.buf.pkts.map _ = _
    rw [hvpkts]
  · rw [show s.tiles = _ from hvtiles.symm]
    exact he

end

/-! ### Orphan sweeps (R228) -/

theorem exec_orphanSweep_write (s : State) (p : Path) :
    exec (.orphanSweep p) s = exec (.write p O.ORPHAN_SWEEP 0 []) s := rfl

theorem State.command_orphanSweep (s : State) :
    s.command O.ORPHAN_SWEEP [] = (Err.ok, (s.cmdRun O.ORPHAN_SWEEP).sweepStart) := (rfl)

theorem orphanSweep_starts {s : State} {p : Path} (h : Takes s p O.ORPHAN_SWEEP) :
    Does (.orphanSweep p) s fun u => u.out = [.answer p Err.ok []] ∧
      u.sys.sweepNext = (s.buf.pkts.filter fun q => q.lost && q.enq && q.ended && q.cells != []).map (·.fid) ∧
      (u.cmd O.ORPHAN_SWEEP).status = 1 ∧ u.buf = s.buf := by
  have hexec : exec (.orphanSweep p) s =
      .next (answers s p Err.ok ((fresh s).cmdRun O.ORPHAN_SWEEP).sweepStart) := by
    rw [exec_orphanSweep_write]
    exact write_cmd_takes h (finds_orphanSweep s) rfl (.inl (by simp)) rfl rfl
      (State.diagRefuses_of_area (by simp) false) (State.command_orphanSweep _)
  exact ⟨_, hexec, rfl, rfl, congrArg CmdStat.status (State.cmd_setCmd (fresh s) O.ORPHAN_SWEEP 1 0 []), rfl⟩

theorem State.cmds_returnCell (s : State) (c : Nat) : (s.returnCell c).dict.cmds = s.dict.cmds := by
  unfold State.returnCell
  dsimp only
  split
  · rfl
  · split
    · exact State.cmds_recarve _
    · rfl

theorem State.cmds_pfcCheck (s : State) (i cls : Nat) : (s.pfcCheck i cls).dict.cmds = s.dict.cmds := by
  have hsend : ∀ (u : State) quanta, (u.sendPause i cls quanta).dict.cmds = u.dict.cmds := fun u quanta => by
    unfold State.sendPause
    dsimp only
    split
    · rfl
    · split
      · rfl
      · rfl
  unfold State.pfcCheck
  dsimp only
  split_ifs
  · rfl
  · exact hsend ..
  · exact hsend ..
  · rfl

/-- A packet's last cells return without a change of any command's status. -/
theorem State.cmds_cellReturn (s : State) (p : Pkt) : (s.cellReturn p).dict.cmds = s.dict.cmds := by
  unfold State.cellReturn
  extract_lets s1 s2 s3 s4 s5
  have h1 : s1.dict.cmds = s.dict.cmds :=
    State.each_keeps (fun t => t.dict.cmds = s.dict.cmds) _ _ (fun t c _ ht => (t.cmds_returnCell c).trans ht) s rfl
  have h2 : s2.dict.cmds = s.dict.cmds :=
    State.each_keeps (fun t => t.dict.cmds = s.dict.cmds) _ (fun t x => t.lower (O.POOL_SHARED_USED x) p.charge)
      (fun t c _ ht => ht) s1 h1
  have h3 : s3.dict.cmds = s.dict.cmds := by
    simp only [s3]
    split
    · exact h2
    · exact h2
  have h4 : s4.dict.cmds = s.dict.cmds := by
    simp only [s4]
    split
    · exact h3
    · exact h3
  have h5 : s5.dict.cmds = s.dict.cmds := by
    simp only [s5]
    split
    · exact h4
    · exact h4
  exact (State.cmds_pfcCheck ..).trans h5

theorem State.cmds_sweepPkt (s : State) (p : Pkt) : (s.sweepPkt p).dict.cmds = s.dict.cmds := by
  have hreturn := s.cmds_cellReturn p
  unfold State.sweepPkt
  dsimp only
  split
  · exact hreturn
  · exact hreturn

section
variable {s : State} (h : Runs s)
include h

theorem orphanSweepTimeout_starts :
    Does .orphanSweepTimeout s fun u => u.buf = s.buf ∧ u.dict = s.dict ∧
      u.sys.sweepNext = (s.buf.pkts.filter fun q => q.lost && q.enq && q.ended && q.cells != []).map (·.fid) :=
  does_of_eq exec_orphanSweepTimeout h rfl ⟨rfl, rfl, rfl⟩

/-- A sweep with no packet left ends its command. -/
theorem orphanSweepDone_ends (hn : s.sys.sweepNext = []) (hr : s.cmdRunning O.ORPHAN_SWEEP = true) :
    exec .orphanSweepDone s = .next (ran s ((fresh s).cmdDone O.ORPHAN_SWEEP)) := by
  have hsys : { s.sys with sweepNext := [] } = s.sys := by rw [← hn]
  refine exec_eq_ran exec_orphanSweepDone h ?_
  unfold State.sweepEnd
  simp only [fresh_sys, hn, State.each, List.foldl_nil, hsys]
  exact if_pos hr

theorem orphanSweepDone_frees {f : Nat} {q : Pkt} (hn : s.sys.sweepNext = [f]) (hq : s.pkt? f = some q)
    (hr : s.cmdRunning O.ORPHAN_SWEEP = false) :
    exec .orphanSweepDone s = .next (ran s (let v := (fresh s).sweepPkt q
      { v with sys := { v.sys with sweepNext := [] } })) := by
  have hq' : (fresh s).pkt? f = some q := hq
  have hidle : ((fresh s).sweepPkt q).cmdRunning O.ORPHAN_SWEEP = false := by
    rw [State.cmdRunning, State.cmd_congr (State.cmds_sweepPkt (fresh s) q)]
    exact hr
  refine exec_eq_ran exec_orphanSweepDone h ?_
  unfold State.sweepEnd
  simp only [hn, State.each, List.foldl_cons, List.foldl_nil, hq']
  exact if_neg (by rw [Bool.not_eq_true]; exact hidle)

end

/-! ### DESCRIPTOR_READ (R204) -/

theorem exec_descriptorRead_write (s : State) (p : Path) (d : List Byte) :
    exec (.descriptorRead p d) s = exec (.write p O.DESCRIPTOR_READ 0 d) s := rfl

theorem State.command_descriptorRead (s : State) (d : List Byte) : s.command O.DESCRIPTOR_READ d =
    (Err.ok, (s.descriptorRead (leNat d)).2.cmdDone O.DESCRIPTOR_READ (s.descriptorRead (leNat d)).1) := (rfl)

theorem State.cmdRange_descriptorRead (s : State) (d : List Byte) :
    s.cmdRange O.DESCRIPTOR_READ d = decide (leNat d < 2097152) := (rfl)

theorem cmdFits_descriptorRead (d : List Byte) : cmdFits O.DESCRIPTOR_READ 4 d = (d.length == 4) := (rfl)

theorem length_freeDescBytes (v gen : Nat) : (freeDescBytes v gen).length = 32 := by
  simp [freeDescBytes, length_leBytes, zeros]

section
variable {s : State} {p : Path} {d : List Byte} (h : Takes s p O.DESCRIPTOR_READ)
include h

theorem descriptorRead_wrongLength (hd : d.length ≠ 4) :
    exec (.descriptorRead p d) s = .next (refused s p Err.type) := by
  obtain ⟨hready, hl, -, -⟩ := h
  rw [exec_descriptorRead_write]
  exact write_cmd_refused hready (finds_descriptorRead s) rfl (.inl (by simp)) hl
    (State.cmdOp_type ((cmdFits_descriptorRead d).trans (beq_eq_false_iff_ne.2 hd)))

variable (hd : d.length = 4)
include hd

theorem descriptorRead_outOfRange (hv : 2097152 ≤ leNat d) :
    exec (.descriptorRead p d) s = .next (refused s p Err.range) := by
  obtain ⟨hready, hl, -, -⟩ := h
  rw [exec_descriptorRead_write]
  exact write_cmd_refused hready (finds_descriptorRead s) rfl (.inl (by simp)) hl
    (State.cmdOp_range ((cmdFits_descriptorRead d).trans (beq_iff_eq.2 hd)) (decide_eq_false (Nat.not_lt.2 hv)))

variable (hv : leNat d < 2097152)
include hv

/-- The command answers at once with what the descriptor says. -/
theorem descriptorRead_answers {b : List Byte} {u : State} (hu : (fresh s).descriptorRead (leNat d) = (b, u)) :
    exec (.descriptorRead p d) s = .next (answers s p Err.ok (u.cmdDone O.DESCRIPTOR_READ b)) := by
  rw [exec_descriptorRead_write]
  exact write_cmd_takes h (finds_descriptorRead s) rfl (.inl (by simp))
    ((cmdFits_descriptorRead d).trans (beq_iff_eq.2 hd)) (decide_eq_true hv)
    (State.diagRefuses_of_area (by simp) false) ((State.command_descriptorRead _ d).trans (by rw [hu]))

theorem descriptorRead_packet {q : Pkt} (hq : s.byHandle (leNat d) = some q) :
    exec (.descriptorRead p d) s = .next (answers s p Err.ok
      (((fresh s).useDesc q).2.cmdDone O.DESCRIPTOR_READ (descBytes q))) := by
  have hq' : (fresh s).byHandle (leNat d) = some q := hq
  exact descriptorRead_answers h hd hv (by rw [State.descriptorRead, hq'])

theorem descriptorRead_free (hq : s.byHandle (leNat d) = none) :
    Does (.descriptorRead p d) s fun u => u.out = [.answer p Err.ok []] ∧ (u.cmd O.DESCRIPTOR_READ).status = 2 ∧
      (∃ v < 2 ^ 256, (u.cmd O.DESCRIPTOR_READ).result = freeDescBytes v (look 0 s.buf.gens (leNat d))) ∧
      (u.cmd O.DESCRIPTOR_READ).result.length = 32 ∧ u.free = s.free + 1 ∧ u.buf = s.buf := by
  have hq' : (fresh s).byHandle (leNat d) = none := hq
  generalize hw : Config.freeNat s.free % 2 ^ 256 = w
  generalize hb : freeDescBytes w (look 0 s.buf.gens (leNat d)) = b
  have hread : (fresh s).descriptorRead (leNat d) = (b, ((fresh s).draw 256).2) := by
    rw [State.descriptorRead, hq', ← hb, ← hw]
    rfl
  have hcmd : (((fresh s).draw 256).2.cmdDone O.DESCRIPTOR_READ b).cmd O.DESCRIPTOR_READ = ⟨2, 0, b⟩ :=
    State.cmd_setCmd ..
  have hlt : w < 2 ^ 256 := hw ▸ Nat.mod_lt _ (by positivity)
  exact ⟨_, descriptorRead_answers h hd hv hread, rfl, congrArg CmdStat.status hcmd,
    ⟨w, hlt, (congrArg CmdStat.result hcmd).trans hb.symm⟩,
    (congrArg (fun c : CmdStat => c.result.length) hcmd).trans (hb ▸ length_freeDescBytes ..), rfl, rfl⟩

end

/-! ### SNAPSHOT (R230) -/

theorem exec_snapshot_write (s : State) (p : Path) : exec (.snapshot p) s = exec (.write p O.SNAPSHOT 0 []) s := rfl

theorem State.command_snapshot (s : State) : s.command O.SNAPSHOT [] = (Err.ok, s.snapshot.cmdDone O.SNAPSHOT) := (rfl)

theorem State.setAll_out (s : State) (r : Ref) (vs : List Nat) (e : Nat) : (s.setAll r vs e).out = s.out := by
  induction vs generalizing s e with
  | nil => rfl
  | cons v vs ih => exact ih (s.set r v e) (e + 1)

theorem State.get_setAll_range (s : State) (r : Ref) (f : Nat → Nat) {n i : Nat} (hi : i < n) :
    (s.setAll r ((List.range n).map f)).get r i = f i := by
  have hall := congrArg (·[i]?) (s.getAll_setAll r ((List.range n).map f))
  simpa [State.getAll, hi] using hall

theorem out_answers_cmdDone (s u : State) (p : Path) (e : Nat) (r : Ref) :
    (answers s p e (u.cmdDone r)).out = u.out ++ [.answer p e []] := rfl

theorem get_answers_cmdDone (s u : State) (p : Path) (e : Nat) (r r' : Ref) (i : Nat) :
    (answers s p e (u.cmdDone r)).get r' i = u.get r' i := rfl

theorem snapshot_latches {s : State} {p : Path} (h : Takes s p O.SNAPSHOT) :
    Does (.snapshot p) s fun u => u.out = [.answer p Err.ok []] ∧
      (∀ i : Fin 20, u.get O.SNAPSHOT_DATA i = leAt s.snapshotBytes (4 * i) 4) ∧
      ∀ r e, r ≠ O.SNAPSHOT_DATA → u.get r e = s.get r e := by
  have hexec : exec (.snapshot p) s = .next (answers s p Err.ok ((fresh s).snapshot.cmdDone O.SNAPSHOT)) := by
    rw [exec_snapshot_write]
    exact write_cmd_takes h (finds_snapshot s) rfl (.inl (by simp)) rfl rfl
      (State.diagRefuses_of_area (by simp) false) (State.command_snapshot _)
  refine ⟨_, hexec, ?_, fun i => ?_, fun r e hr => ?_⟩
  · rw [out_answers_cmdDone, State.snapshot, State.setAll_out]
    rfl
  · rw [get_answers_cmdDone]
    exact State.get_setAll_range (fresh s) O.SNAPSHOT_DATA (fun i => leAt s.snapshotBytes (4 * i) 4) i.isLt
  · rw [get_answers_cmdDone]
    exact State.get_setAll_other (fresh s) _ 0 e hr

end Sys2Proof.Machine

open Sys2Proof Sys2Proof.Machine

/-- Settles O41: the bank commands by their bank's state and what the carve-out keeps, a remap by the copy that takes its
cell's place, the sweeps by the packets they name, the reads by the checks of their object. -/
theorem banksSweepsAndReadOut : Obligations.BanksSweepsAndReadOut := by
  intro s p k d h
  exact ⟨bankIsolate_runs, bankIsolate_refused, fun c => exec_remapCell_ran h,
    fun c n v hs hc hg hq ht _ => remapCell_drops h hs hc hg ht hq,
    fun c n v hs hc hg hd ha ht => remapCell_renames h hs hc hg ht hd ha,
    bankRemapDone_isolates h, bankRestore_runs, bankRestore_refused,
    fun hs => ⟨bankRestoreDone_passes h hs, bankRestoreDone_fails h hs⟩,
    orphanSweep_starts, orphanSweepTimeout_starts h, orphanSweepDone_ends h, fun f q => orphanSweepDone_frees h,
    fun ht hd => ⟨fun q hv => descriptorRead_packet ht hd hv, descriptorRead_free ht hd, descriptorRead_outOfRange ht hd⟩,
    descriptorRead_wrongLength, snapshot_latches⟩

end

section
/-!
Scheduling in time (R241-R259): a port's gate lists and their entries, heads that leave too late, the refills of shapers
and policers, and the statement assembled from them.
-/
namespace Sys2Proof.Machine

/-! ### The gates shown (R259) -/

/-- Beside the state of its gates, a port shows their start, the entry in force and the open gates. -/
def gatesShown (p : Nat) : List Ref := [O.GATE_START p, O.GATE_ENTRY p, O.GATE_OPEN p]

theorem idx_of_mem_gatesShown {p : Nat} {r : Ref} (hr : r ∈ gatesShown p) : r.idx = 0x7102 := by
  simp only [gatesShown, List.mem_cons, List.not_mem_nil, or_false] at hr
  obtain rfl | rfl | rfl := hr <;> rfl

/-- With no list pending, a running one is shown as state 2. -/
theorem State.showGates_writes {s : State} {p : Nat} {l : GList} (hr : (s.gate p).running = some l)
    (hn : (s.gate p).next = none) : Writes (gatesShown p) (s.set (O.GATE_STATE p) 2) (s.showGates p) := by
  have hstart : ∀ v, Writes (gatesShown p) (s.set (O.GATE_STATE p) 2) ((s.set (O.GATE_STATE p) 2).set (O.GATE_START p) v) :=
    fun v => (Writes.refl _ _).set (by simp [gatesShown])
  simp only [State.showGates, hr, hn, Option.isSome_none, Option.isSome_some, if_true, Bool.false_eq_true, if_false]
  split
  · exact ((hstart _).set (by simp [gatesShown])).set (by simp [gatesShown])
  · exact hstart _

/-! ### GATE_LIST_START (R251, R252) -/

theorem State.startsIn_eq_zero {s : State} {l : GList} : s.startsIn l = 0 ↔ l.start ≤ s.tbUnits l.tb :=
  Nat.sub_eq_zero_iff_le

theorem State.gate_count64 (s : State) (r : Ref) (n e p : Nat) : (s.count64 r n e).gate p = s.gate p := rfl

/-- List `l` runs, none is pending, and the start is counted. -/
def State.startList (s : State) (p : Nat) (l : GList) : State :=
  (s.putGate p { s.gate p with running := some l, next := none }).count64 (O.GATE_COUNTS p 6)

theorem State.gate_startList (s : State) (p : Nat) (l : GList) :
    (s.startList p l).gate p = { s.gate p with running := some l, next := none } :=
  (State.gate_count64 ..).trans (State.gate_putGate ..)

theorem State.get_startList_count (s : State) (p : Nat) (l : GList) :
    (s.startList p l).get (O.GATE_COUNTS p 6) = (s.get (O.GATE_COUNTS p 6) + 1) % 2 ^ 64 := State.get_count64_same ..

theorem State.get_startList_other (s : State) (p : Nat) (l : GList) {r : Ref} (e : Nat) (hr : r.idx ≠ 0x7102) :
    (s.startList p l).get r e = s.get r e := State.get_count64_other _ _ (.inl fun he => hr (by rw [he]))

section
variable {s : State} {p : Port} {l : GList} (h : Runs s)
include h

theorem gateListStart_starts (hn : (s.gate p).next = some l) (ha : s.gatesAct p = true) (hs : l.start ≤ s.tbUnits l.tb) :
    Does (.gateListStart p) s fun u => (u.gate p).running = some l ∧ (u.gate p).next = none ∧
      u.get (O.GATE_STATE p) = 2 ∧ u.get (O.GATE_COUNTS p 6) = (s.get (O.GATE_COUNTS p 6) + 1) % 2 ^ 64 ∧
      ∀ r e, r.idx ≠ 0x7102 → u.get r e = s.get r e := by
  have hgate := State.gate_startList (fresh s) p l
  have hrun : (((fresh s).startList p l).gate p).running = some l := by rw [hgate]
  have hnext : (((fresh s).startList p l).gate p).next = none := by rw [hgate]
  have hshow := State.showGates_writes hrun hnext
  have hkept : (((fresh s).startList p l).showGates p).gate p = ((fresh s).startList p l).gate p := by
    obtain ⟨_, _, heq⟩ := hshow.rest
    rw [heq]; rfl
  refine does_of_eq (u := ((fresh s).startList p l).showGates p) exec_gateListStart h ?_
    ⟨(congrArg GateX.running hkept).trans hrun, (congrArg GateX.next hkept).trans hnext, ?_, ?_, fun r e hr => ?_⟩
  · have hstarts : (fresh s).gatesAct p = true ∧ (fresh s).startsIn l = 0 := ⟨ha, State.startsIn_eq_zero.2 hs⟩
    simp only [show ((fresh s).gate p).next = some l from hn, if_pos hstarts]
    rfl
  · exact (hshow.objs _ _ (by simp [gatesShown])).trans (State.get_set_same ..)
  · rw [ran_get, hshow.objs _ _ (by simp [gatesShown]), State.get_set_other _ _ _ _ (.inl (by simp))]
    exact State.get_startList_count ..
  · rw [ran_get, hshow.objs _ _ fun hm => hr (idx_of_mem_gatesShown hm),
      State.get_set_other _ _ _ _ (.inl fun he => hr (by rw [he]))]
    exact State.get_startList_other _ _ _ e hr

theorem gateListStart_idle (hn : (s.gate p).next = none) : exec (.gateListStart p) s = .next (fresh s) :=
  exec_eq_fresh exec_gateListStart h (by simp only [show ((fresh s).gate p).next = none from hn])

theorem gateListStart_early (hn : (s.gate p).next = some l) (hs : s.tbUnits l.tb < l.start) :
    exec (.gateListStart p) s = .next (fresh s) := by
  refine exec_eq_fresh exec_gateListStart h ?_
  have hwaits : ¬ ((fresh s).gatesAct p = true ∧ (fresh s).startsIn l = 0) := fun hc =>
    hs.not_ge (State.startsIn_eq_zero.1 hc.2)
  simp only [show ((fresh s).gate p).next = some l from hn, if_neg hwaits]

end

/-! ### GATE_ENTRY_START (R246, R249) -/

/-- The entry in force is shown; its operation acts while preemption is active. -/
theorem exec_gateEntryStart_shows {s : State} {p : Port} {l : GList} {i o op : Nat} (h : Runs s)
    (hr : (s.gate p).running = some l) (ha : s.gatesAct p = true)
    (he : entryAt (s.gateEntries p l) (l.offsetU (s.tbUnits l.tb)) = some (i, o, op)) :
    exec (.gateEntryStart p) s = .next (ran s
      (if s.flag (O.PREEMPT_ACTIVE p) = false ∨ op = 0 then ((fresh s).set (O.GATE_ENTRY p) i).set (O.GATE_OPEN p) o
      else (((fresh s).set (O.GATE_ENTRY p) i).set (O.GATE_OPEN p) o).putGate p { s.gate p with held := op == 1 })) := by
  refine exec_eq_ran exec_gateEntryStart h ?_
  have hflag : (((fresh s).set (O.GATE_ENTRY p) i).set (O.GATE_OPEN p) o).flag (O.PREEMPT_ACTIVE p)
      = s.flag (O.PREEMPT_ACTIVE p) := by
    rw [State.flag, State.get_set_other _ _ _ _ (.inl (by simp)), State.get_set_other _ _ _ _ (.inl (by simp))]
    rfl
  have hentry : entryAt ((fresh s).gateEntries p l) (l.offsetU ((fresh s).tbUnits l.tb)) = some (i, o, op) := by
    rw [fresh_gateEntries]; exact he
  simp only [show ((fresh s).gate p).running = some l from hr, show (fresh s).gatesAct p = true from ha, hentry, hflag,
    Bool.true_eq_false, if_false, Bool.not_eq_true']
  rfl

/-! ### Heads that leave too late (R254, R255) -/

theorem State.discardHolder_launch (s : State) (fid tok g : Nat) :
    s.discardHolder fid tok g 0x81 = (s.count64 (O.SCHED_COUNTS g 8)).releaseAt fid tok 0x81 0 := rfl

theorem State.discardHolder_residence (s : State) (fid tok g : Nat) :
    s.discardHolder fid tok g 0x82 = (s.count64 (O.SCHED_COUNTS g 9)).releaseAt fid tok 0x82 0 := rfl

theorem State.launchLate_iff {s : State} {port : Nat} {k : Pkt} : s.launchLate port k = true ↔ k.launch = true ∧
    timeUnits k.timeV + s.get (O.LAUNCH_WINDOW_NS port) * nsU < timeUnits (s.txTime port (bits k.timeW 22 20)) := by
  simp only [State.launchLate, Bool.and_eq_true, decide_eq_true_eq]

section
variable {s : State} {k : Pkt} {x : Holder} (h : Runs s)
include h

theorem exec_launchWindowMiss_head {p : Port} {q : Fin 16} (hh : s.head (p.val * 16 + q.val) = some (k, x))
    (hl : s.launchQueue (p.val * 16 + q.val) = true) :
    exec (.launchWindowMiss p q) s = .next (ran s (if s.launchLate p k = true then
      (((fresh s).count64 (O.SCHED_COUNTS (p.val * 16 + q.val) 8)).releaseAt k.fid x.tok 0x81 0).postcardsDue
      else fresh s)) := by
  refine exec_eq_ran exec_launchWindowMiss h ?_
  simp only [show (fresh s).head (p.val * 16 + q.val) = some (k, x) from hh,
    show (fresh s).launchQueue (p.val * 16 + q.val) = true from hl, Bool.true_and, State.discardHolder_launch]
  rfl

theorem exec_residenceCheck_head {v : Queue} (hh : s.head v = some (k, x)) (hi : s.hasInst .schedQueues v = true) :
    exec (.residenceCheck v) s = .next (ran s (if s.tooOld v x = true then
      (((fresh s).count64 (O.SCHED_COUNTS v 9)).releaseAt k.fid x.tok 0x82 0).postcardsDue else fresh s)) := by
  refine exec_eq_ran exec_residenceCheck h ?_
  simp only [show (fresh s).head v = some (k, x) from hh, show (fresh s).hasInst .schedQueues v = true from hi,
    Bool.true_and, State.discardHolder_residence]
  rfl

end

/-! ### Shapers (R241) -/

/-- A bucket after one refill at a rate, up to a burst. -/
def Bucket.refilled (b : Bucket) (rate burst : Nat) : Bucket :=
  ⟨min (b.tok + ((b.rem + rate * 65536) / 600000 : Nat)) (burst * 65536), (b.rem + rate * 65536) % 600000⟩

theorem State.refill_buckets (s : State) (g : Nat) : (s.refill g).buckets =
    (s.putBucket g ((s.bucket g).refilled (s.get (O.SHAPE_RATE g)) (s.get (O.SHAPE_BURST g)))).buckets := by
  unfold State.refill
  dsimp only
  split <;> rfl

theorem State.bucket_refill (s : State) (g : Nat) :
    (s.refill g).bucket g = (s.bucket g).refilled (s.get (O.SHAPE_RATE g)) (s.get (O.SHAPE_BURST g)) := by
  rw [State.bucket, State.refill_buckets]
  exact look_put_same ..

theorem State.bucket_refill_other (s : State) {g k : Nat} (hk : k ≠ g) : (s.refill g).bucket k = s.bucket k := by
  rw [State.bucket, State.refill_buckets]
  exact look_put_other _ _ _ hk.symm _ _

/-- Of the objects a refill writes none but the scheduling counters. -/
theorem State.get_refill (s : State) (g : Nat) {r : Ref} (e : Nat) (hr : r.idx ≠ 0x7002) :
    (s.refill g).get r e = s.get r e := by
  unfold State.refill
  dsimp only
  split
  · exact State.get_count64_other _ _ (.inl fun he => hr (by rw [he]))
  · rfl

/-- A queue is unshaped by default. -/
theorem objDefault_shapeRate (g : Nat) : objDefault ⟨O.SHAPE_RATE g, 0⟩ = 0 := by
  have hnone : (areaDefaults 7).find? (fun d => d.1 == 0x7001 && d.2.1 == 2) = none := by decide +kernel
  simp [objDefault, specialDefault, hnone]

/-- The queues that a tick refills: those of a member set whose rate is written. -/
def State.shapedQueues (s : State) : List Nat :=
  ((s.dict.objs.filter fun e => e.1.ref.idx == 0x7001 && e.1.ref.sub == 2).map (·.1.ref.inst)).dedup.filter
    fun g => s.hasInst .schedQueues g

theorem exec_shaperTick_live {s : State} : exec .shaperTick s = live s fun s => s.each s.shapedQueues State.refill := rfl

theorem State.nodup_shapedQueues (s : State) : s.shapedQueues.Nodup := (List.nodup_dedup _).filter _

/-- A rate other than its default is written. -/
theorem State.mem_shapedQueues {s : State} {g : Nat} (hr : s.get (O.SHAPE_RATE g) ≠ 0)
    (hi : s.hasInst .schedQueues g = true) : g ∈ s.shapedQueues := by
  have hwritten : (⟨O.SHAPE_RATE g, 0⟩ : OKey) ∈ s.dict.objs.map (·.1) := by
    by_contra hm
    exact hr ((look_of_not_mem _ _ hm).trans (objDefault_shapeRate g))
  obtain ⟨e, he, hk⟩ := List.mem_map.1 hwritten
  refine List.mem_filter.2 ⟨List.mem_dedup.2 (List.mem_map.2 ⟨e, List.mem_filter.2 ⟨he, ?_⟩, ?_⟩), hi⟩
  · rw [hk]; rfl
  · rw [hk]

/-- A tick refills each shaped queue once. -/
theorem State.bucket_each_refill (s : State) {gs : List Nat} (hn : gs.Nodup) {g : Nat} (hg : g ∈ gs) :
    (s.each gs State.refill).bucket g =
      (s.bucket g).refilled (s.get (O.SHAPE_RATE g)) (s.get (O.SHAPE_BURST g)) := by
  have hshape : ∀ (t : State) (j k : Nat), (t.refill j).get (O.SHAPE_RATE k) = t.get (O.SHAPE_RATE k) ∧
      (t.refill j).get (O.SHAPE_BURST k) = t.get (O.SHAPE_BURST k) := fun t j k =>
    ⟨t.get_refill j 0 (by simp), t.get_refill j 0 (by simp)⟩
  have hlocal := State.each_local (fun t k => (t.bucket k, t.get (O.SHAPE_RATE k), t.get (O.SHAPE_BURST k)))
    (fun _ x => (x.1.refilled x.2.1 x.2.2, x.2)) State.refill
    (fun t k => by simp only [State.bucket_refill, hshape])
    (fun t j k hk => by simp only [State.bucket_refill_other _ hk, hshape]) gs hn s g
  rw [if_pos hg] at hlocal
  exact congrArg Prod.fst hlocal

theorem shaperTick_refills {s : State} {g : Nat} (h : Runs s) (hr : s.get (O.SHAPE_RATE g) ≠ 0)
    (hi : s.hasInst .schedQueues g = true) : Does .shaperTick s fun u =>
      u.bucket g = (s.bucket g).refilled (s.get (O.SHAPE_RATE g)) (s.get (O.SHAPE_BURST g)) ∧
      ∀ r e, r.idx ≠ 0x7002 → u.get r e = s.get r e :=
  does_of_eq exec_shaperTick_live h rfl
    ⟨State.bucket_each_refill (fresh s) (State.nodup_shapedQueues _) (State.mem_shapedQueues (s := fresh s) hr hi),
      fun r e hr => State.get_each _ _ r e (fun t k _ => t.get_refill k e hr) (fresh s)⟩

/-! ### Policers (R242-R244) -/

/-- A row updated to an instant with levels up to its profile's bursts, its fill bit clear (R243). -/
def State.policerUpdate (s : State) (r : PolRow) (m : Nat) (c k : Int) : PolRow :=
  let dt := (s.policerTick + 2 ^ 32 - r.last) % 2 ^ 32
  let p := r.prof % 4096
  ⟨r.prof, false, s.policerTick, min (c + (dt * s.get (O.CIR p) * 65536 / 600000 : Nat)) (s.get (O.CBS p) * 65536),
    if m = 2 then min (k + (dt * s.get (O.PIR p) * 65536 / 600000 : Nat)) (s.get (O.PBS p) * 65536) else k⟩

/-- A frame of length 0 takes nothing from the levels, whatever its result. -/
theorem State.police_zero {s : State} {x : Nat} {r : PolRow} {m : Nat} (hr : r = polRead (s.get O.POLICER_STATE x))
    (hm : m = s.get (O.POLICER_MODE (r.prof % 4096))) (hne : m ≠ 0) :
    (s.police x 0).2 = s.set O.POLICER_STATE (polWrite (s.policerUpdate r m
      (if r.fill then (s.get (O.CBS (r.prof % 4096)) * 65536 : Int) else r.c)
      (if r.fill then (s.get (O.PBS (r.prof % 4096)) * 65536 : Int) else r.pk))) x := by
  subst hr hm
  simp only [State.police, if_neg hne, Nat.cast_zero, zero_mul, sub_zero, ite_self]
  rfl

theorem State.police_disabled {s : State} {x lk : Nat}
    (hm : s.get (O.POLICER_MODE ((polRead (s.get O.POLICER_STATE x)).prof % 4096)) = 0) : s.police x lk = (0, s) := by
  simp only [State.police, hm, if_true]

end Sys2Proof.Machine

open Sys2Proof Sys2Proof.Machine

/-- Settles O34: a gate list by its start and its base, an entry by preemption and its operation, a head by its limit, a
shaped queue by the one refill a tick brings it, a policer by an update that charges nothing. -/
theorem schedulingTimeAndShaping : Obligations.SchedulingTimeAndShaping := by
  intro s p q g v x h
  refine ⟨fun l => gateListStart_starts h, gateListStart_idle h, fun l => gateListStart_early h,
    fun l i o op hr ha he => ⟨fun hf hop => ?_, fun hc => ?_⟩, fun k y hh hl => ⟨fun hk hlate => ?_, fun hc => ?_⟩,
    fun k y hh hi => ⟨fun ho => ?_, fun ho => ?_⟩, shaperTick_refills h, ?_, fun hm => ?_⟩
  · rw [exec_gateEntryStart_shows h hr ha he, if_neg (by simp [hf, hop])]
  · rw [exec_gateEntryStart_shows h hr ha he, if_pos hc]
  · rw [exec_launchWindowMiss_head h hh hl, if_pos (State.launchLate_iff.2 ⟨hk, hlate⟩)]
  · have hintime : ¬ s.launchLate p k = true := fun hlate => by
      obtain ⟨hk, hlt⟩ := State.launchLate_iff.1 hlate
      exact hc.elim (by simp [hk]) hlt.not_ge
    rw [exec_launchWindowMiss_head h hh hl, if_neg hintime, ran_fresh h]
  · rw [exec_residenceCheck_head h hh hi, if_pos ho]
  · rw [exec_residenceCheck_head h hh hi, if_neg (ne_true_of_eq_false ho), ran_fresh h]
  · rintro r m dt c k hr hm hne rfl rfl rfl
    exact exec_eq_ran exec_policerRefresh h (State.police_zero (s := fresh s) hr hm hne)
  · exact exec_eq_fresh exec_policerRefresh h (congrArg Prod.snd (State.police_disabled (s := fresh s) hm))

end

section
/-!
Time bases as they run and step (R263-R267): what a tick, a step and a wait for one leave of a base and of the objects,
and the statements on ticks and on writes of TB_RATE assembled from it.
-/
namespace Sys2Proof.Machine

/-! ### A tick of one base (R263, R267) -/

/-- A base's value in units of 2^-48 ns. -/
def Base.fine (b : Base) : Nat := b.sec * (1000000000 * 2 ^ 48) + b.nsf

/-- The accumulator moves a base on, modulo its 2^48 seconds. -/
def Base.advance (b : Base) (acc left : Int) : Base :=
  let nsf := b.nsf + (acc / 5).toNat
  if 1000000000 * 2 ^ 48 ≤ nsf then ⟨(b.sec + 1) % 2 ^ 48, nsf - 1000000000 * 2 ^ 48, (acc % 5).toNat, left⟩
  else ⟨b.sec, nsf, (acc % 5).toNat, left⟩

theorem Base.tick_eq_advance (b : Base) (rate : Int) (term : Nat) : ∃ extra : Int,
    b.tick rate term = b.advance (b.rem + 2 ^ 50 + 1024 * rate + extra) (b.slew - extra) ∧
    (b.slew = 0 → extra = 0) ∧ (0 < b.slew → 1024 * term ≤ b.slew → extra = 1024 * term) ∧
    (b.slew < 0 → b.slew ≤ -(1024 * term) → extra = -(1024 * term)) := by
  refine ⟨if b.slew = 0 then 0 else if 0 < b.slew then (if b.slew < 1024 * term then b.slew else 1024 * term)
    else (if -b.slew < 1024 * term then b.slew else -(1024 * term)), rfl,
    fun h => if_pos h, fun h hf => ?_, fun h hf => ?_⟩
  · rw [if_neg h.ne', if_pos h, if_neg hf.not_gt]
  · rw [if_neg h.ne, if_neg h.not_gt, if_neg (by omega)]

section
variable (b : Base) (acc left : Int)

theorem Base.rem_advance : (b.advance acc left).rem = (acc % 5).toNat := by
  unfold Base.advance
  dsimp only
  split <;> rfl

theorem Base.slew_advance : (b.advance acc left).slew = left := by
  unfold Base.advance
  dsimp only
  split <;> rfl

variable {b acc left}

theorem Base.advance_carries (h : 1000000000 * 2 ^ 48 ≤ b.nsf + (acc / 5).toNat) :
    (b.advance acc left).nsf = b.nsf + (acc / 5).toNat - 1000000000 * 2 ^ 48 ∧
    (b.advance acc left).sec = (b.sec + 1) % 2 ^ 48 := by
  simp only [Base.advance, if_pos h, and_self]

theorem Base.advance_within (h : b.nsf + (acc / 5).toNat < 1000000000 * 2 ^ 48) :
    (b.advance acc left).nsf = b.nsf + (acc / 5).toNat ∧ (b.advance acc left).sec = b.sec := by
  simp only [Base.advance, if_neg h.not_ge, and_self]

/-- The value moves on by a fifth of the accumulator, whether a second carries or not. -/
theorem Base.fine_advance (h : 0 ≤ acc) :
    ((b.advance acc left).fine : Int) ≡ b.fine + acc / 5 [ZMOD ((2 ^ 48 * (1000000000 * 2 ^ 48) : Nat) : Int)] := by
  rw [Int.modEq_iff_dvd]
  rcases Nat.lt_or_ge (b.nsf + (acc / 5).toNat) (1000000000 * 2 ^ 48) with hlt | hge
  · obtain ⟨hnsf, hsec⟩ := Base.advance_within (left := left) hlt
    refine ⟨0, ?_⟩
    simp only [Base.fine, hnsf, hsec]
    omega
  · obtain ⟨hnsf, hsec⟩ := Base.advance_carries (left := left) hge
    refine ⟨((b.sec + 1) / 2 ^ 48 : Nat), ?_⟩
    simp only [Base.fine, hnsf, hsec]
    omega

end

/-- Without slew a tick keeps it so, keeps the remainder below 5, and five times the advance is what the remainder
leaves of the accumulator. -/
theorem Base.tick_unslewed {b : Base} {rate : Int} (term : Nat) (hs : b.slew = 0) (hr : b.rem < 5)
    (h : -549755813 ≤ rate) : ∃ q : Int, (b.tick rate term).slew = 0 ∧ (b.tick rate term).rem < 5 ∧
      5 * q + (b.tick rate term).rem = b.rem + 2 ^ 50 + 1024 * rate ∧
      ((b.tick rate term).fine : Int) ≡ b.fine + q [ZMOD ((2 ^ 48 * (1000000000 * 2 ^ 48) : Nat) : Int)] := by
  obtain ⟨extra, heq, hnone, -, -⟩ := b.tick_eq_advance rate term
  obtain rfl := hnone hs
  rw [heq]
  refine ⟨_, ?_, ?_, ?_, Base.fine_advance (by omega)⟩
  · rw [Base.slew_advance, hs, sub_zero]
  · rw [Base.rem_advance]; omega
  · rw [Base.rem_advance]; omega

/-- Over five ticks the remainders cancel. -/
theorem Base.tick_five {b : Base} {rate : Int} (term : Nat) (hs : b.slew = 0) (hr : b.rem < 5)
    (h : -549755813 ≤ rate) {u : Base}
    (hu : u = ((((b.tick rate term).tick rate term).tick rate term).tick rate term).tick rate term) :
    u.rem = b.rem ∧
      (u.fine : Int) ≡ b.fine + (2 ^ 50 + 1024 * rate) [ZMOD ((2 ^ 48 * (1000000000 * 2 ^ 48) : Nat) : Int)] := by
  obtain ⟨q1, s1, r1, e1, m1⟩ := Base.tick_unslewed term hs hr h
  obtain ⟨q2, s2, r2, e2, m2⟩ := Base.tick_unslewed term s1 r1 h
  obtain ⟨q3, s3, r3, e3, m3⟩ := Base.tick_unslewed term s2 r2 h
  obtain ⟨q4, s4, r4, e4, m4⟩ := Base.tick_unslewed term s3 r3 h
  obtain ⟨q5, -, r5, e5, m5⟩ := Base.tick_unslewed term s4 r4 h
  rw [← hu] at r5 e5 m5
  have hrem : u.rem = b.rem := by omega
  have hsum : q1 + q2 + q3 + q4 + q5 = 2 ^ 50 + 1024 * rate := by omega
  refine ⟨hrem, ?_⟩
  rw [← hsum]
  calc (u.fine : Int)
      ≡ _ + q5 [ZMOD _] := m5
    _ ≡ _ + q4 + q5 [ZMOD _] := m4.add_right _
    _ ≡ _ + q3 + q4 + q5 [ZMOD _] := (m3.add_right _).add_right _
    _ ≡ _ + q2 + q3 + q4 + q5 [ZMOD _] := ((m2.add_right _).add_right _).add_right _
    _ ≡ b.fine + q1 + q2 + q3 + q4 + q5 [ZMOD _] := (((m1.add_right _).add_right _).add_right _).add_right _
    _ = b.fine + (q1 + q2 + q3 + q4 + q5) := by ring

/-! ### The value of a base as a TIME96 (R13) -/

theorem timeFields_mkTime {sec ns frac : Nat} (hsec : sec < 2 ^ 48) (hns : ns < 2 ^ 32) (hfrac : frac < 2 ^ 16) :
    timeSec (mkTime sec ns frac) = sec ∧ timeNs (mkTime sec ns frac) = ns ∧ timeFrac (mkTime sec ns frac) = frac := by
  simp only [timeSec, timeNs, timeFrac, mkTime, bits]
  omega

theorem Base.timeFields {b : Base} (hsec : b.sec < 2 ^ 48) (hnsf : b.nsf < 1000000000 * 2 ^ 48) :
    timeSec b.time = b.sec ∧ timeNs b.time = b.nsf / 2 ^ 48 ∧ timeFrac b.time = b.nsf / 2 ^ 32 % 2 ^ 16 :=
  timeFields_mkTime hsec (by omega) (Nat.mod_lt _ (by positivity))

end Sys2Proof.Machine
end

section
/-!
Steps of time bases (R260, R264, R265): what a step, the steps that wait, and a tick of the time domain leave of each base
and of the objects.
-/
namespace Sys2Proof.Machine

/-! ### Bases as parts of the state -/

theorem State.base_congr {s t : State} (h : t.time.bases = s.time.bases) (k : Nat) : t.base k = s.base k := by
  rw [State.base, State.base, h]

theorem State.base_putBase_of_ne (s : State) {n : Nat} {k : TimeBase} (h : k.val ≠ n) (b : Base) :
    (s.putBase n b).base k = s.base k := State.base_putBase_other s h k.isLt b

theorem State.base_tick (s : State) (k : TimeBase) :
    s.tick.base k = (s.base k).tick (s.geti (O.TB_RATE k)) (slewUnits (s.get (O.SLEW_MAX_PPB k))) := by
  have hbases : s.tick.time.bases = (List.range 8).map fun n =>
    (s.base n).tick (s.geti (O.TB_RATE n)) (slewUnits (s.get (O.SLEW_MAX_PPB n))) := rfl
  rw [State.base, hbases]
  simp [List.getD_eq_getElem?_getD]

/-! ### What a step shows (R252, R273) -/

/-- Of the objects a step of a base writes the gates' alone. -/
def gateRefs (p : Nat) : List Ref := [O.GATE_COUNTS p 7, O.GATE_STATE p, O.GATE_START p, O.GATE_ENTRY p, O.GATE_OPEN p]

theorem idx_of_mem_gateRefs {p : Nat} {r : Ref} (hr : r ∈ gateRefs p) : r.idx = 0x7102 := by
  simp only [gateRefs, List.mem_cons, List.not_mem_nil, or_false] at hr
  obtain rfl | rfl | rfl | rfl | rfl := hr <;> rfl

theorem Writes.time {rs : List Ref} {s t : State} (h : Writes rs s t) : t.time = s.time := by
  obtain ⟨n, o, rfl⟩ := h.rest; rfl

theorem Writes.showGates {rs : List Ref} {s t : State} {p : Nat} (h : Writes rs s t) (hp : ∀ r ∈ gateRefs p, r ∈ rs) :
    Writes rs s (t.showGates p) := by
  have hshown : ∀ v w, Writes rs s ((t.set (O.GATE_STATE p) v).set (O.GATE_START p) w) := fun v w =>
    (h.set (hp _ (by simp [gateRefs]))).set (hp _ (by simp [gateRefs]))
  have hentry : ∀ u v w, Writes rs s u → Writes rs s ((u.set (O.GATE_ENTRY p) v).set (O.GATE_OPEN p) w) :=
    fun _ _ _ hu => (hu.set (hp _ (by simp [gateRefs]))).set (hp _ (by simp [gateRefs]))
  unfold State.showGates
  dsimp only
  split
  · exact hentry _ _ _ (hshown _ _)
  · split
    · exact hentry _ _ _ (hshown _ _)
    · exact hshown _ _

theorem State.gateResync_writes (s : State) (n : Nat) :
    Writes ((s.gates.map (·.1)).flatMap gateRefs) s (s.gateResync n) := by
  refine State.each_keeps (Writes _ s) _ _ (fun t p hp ht => ?_) s (.refl _ s)
  have hmem : ∀ r ∈ gateRefs p, r ∈ (s.gates.map (·.1)).flatMap gateRefs := fun r hr => List.mem_flatMap.2 ⟨p, hp, hr⟩
  split
  · exact Writes.ite (Writes.showGates (ht.count64 (hmem _ (by simp [gateRefs]))) hmem) ht
  · exact ht

@[simp] theorem State.time_gateResync (s : State) (n : Nat) : (s.gateResync n).time = s.time :=
  (s.gateResync_writes n).time

theorem State.get_gateResync (s : State) (n : Nat) {r : Ref} (e : Nat) (hr : r.idx ≠ 0x7102) :
    (s.gateResync n).get r e = s.get r e := by
  refine (s.gateResync_writes n).objs r e fun hm => hr ?_
  obtain ⟨p, -, hp⟩ := List.mem_flatMap.1 hm
  exact idx_of_mem_gateRefs hp

/-- What a rising and a falling edge keep, the PPS output of a step keeps. -/
theorem State.ppsStep_keeps {P : State → Prop} {s : State} {n : Nat} (hrise : ∀ t edge, P t → P (t.ppsRise n edge))
    (hfall : ∀ t, P t → P (t.ppsFall n)) (h : P s) : P (s.ppsStep n) := by
  unfold State.ppsStep
  extract_lets u t
  have ht : P t := by
    unfold t
    split
    · exact h
    · split
      · exact hfall s h
      · exact h
  split
  · exact hrise t u ht
  · exact ht

theorem State.dict_ppsStep (s : State) (n : Nat) : (s.ppsStep n).dict = s.dict :=
  State.ppsStep_keeps (P := fun t => t.dict = s.dict) (fun _ _ ht => ht) (fun _ ht => ht) rfl

theorem State.bases_ppsStep (s : State) (n : Nat) : (s.ppsStep n).time.bases = s.time.bases :=
  State.ppsStep_keeps (P := fun t => t.time.bases = s.time.bases) (fun _ _ ht => ht) (fun _ ht => ht) rfl

/-! ### One step (R265) -/

/-- A base's seconds, whole nanoseconds and fraction, moved by an offset modulo 2^48 seconds. -/
def Base.stepped (b : Base) (o : Int) : Base :=
  let v := ((((b.sec * 1000000000 : Nat) : Int) * 2 ^ 48 + b.nsf + o * 2 ^ 32) %
    (2 ^ 48 * 1000000000 * 2 ^ 48)).toNat
  { b with sec := v / (1000000000 * 2 ^ 48), nsf := v % (1000000000 * 2 ^ 48) }

theorem Base.value_stepped (b : Base) (o : Int) :
    ((((b.stepped o).sec * 1000000000 : Nat) : Int) * 2 ^ 48 + (b.stepped o).nsf) % (2 ^ 48 * 1000000000 * 2 ^ 48) =
      (((b.sec * 1000000000 : Nat) : Int) * 2 ^ 48 + b.nsf + o * 2 ^ 32) % (2 ^ 48 * 1000000000 * 2 ^ 48) := by
  simp only [Base.stepped]
  omega

theorem State.bases_stepBase (s : State) (n : Nat) (o : Int) :
    (s.stepBase n o).time.bases = (s.putBase n ((s.base n).stepped o)).time.bases := by
  unfold State.stepBase
  dsimp only
  rw [State.bases_ppsStep, State.time_gateResync]
  rfl

theorem State.base_stepBase (s : State) (n : TimeBase) (o : Int) : (s.stepBase n o).base n = (s.base n).stepped o :=
  (State.base_congr (s.bases_stepBase n o) n).trans (State.base_putBase s n.isLt _)

theorem State.base_stepBase_of_ne (s : State) {n : Nat} {k : TimeBase} (h : k.val ≠ n) (o : Int) :
    (s.stepBase n o).base k = s.base k :=
  (State.base_congr (s.bases_stepBase n o) k).trans (State.base_putBase_of_ne s h _)

theorem State.get_stepBase (s : State) (n : Nat) (o : Int) {r : Ref} (e : Nat) (hr : r.idx ≠ 0x7102) :
    (s.stepBase n o).get r e = s.get r e := by
  unfold State.stepBase
  dsimp only
  have hdict : ∀ t : State, (t.ppsStep n).get r e = t.get r e := fun t => by
    rw [State.get, State.getK, State.dict_ppsStep]; rfl
  rw [hdict, State.get_gateResync _ _ _ hr]
  rfl

/-! ### A base begins to track, and a step is asked for (R264, R272) -/

theorem State.bases_tracks (s : State) (n : Nat) :
    (s.tracks n).time.bases = (s.putBase n { s.base n with slew := 0 }).time.bases := rfl

theorem State.base_tracks (s : State) (n : TimeBase) : (s.tracks n).base n = { s.base n with slew := 0 } :=
  (State.base_congr (s.bases_tracks n) n).trans (State.base_putBase s n.isLt _)

theorem State.base_tracks_of_ne (s : State) {n : Nat} {k : TimeBase} (h : k.val ≠ n) :
    (s.tracks n).base k = s.base k :=
  (State.base_congr (s.bases_tracks n) k).trans (State.base_putBase_of_ne s h _)

theorem State.get_tracks_state (s : State) (n k : Nat) :
    (s.tracks n).get (O.TB_STATE k) = if k = n then TbState.tracking else s.get (O.TB_STATE k) := by
  unfold State.tracks
  rw [State.get_count64_other _ _ (.inl (by simp)), State.get_set]
  simp

@[simp] theorem State.get_askStep (s : State) (n : Nat) (o : Int) (edge : Bool) (r : Ref) (e : Nat) :
    (s.askStep n o edge).get r e = s.get r e := rfl

/-- A step that finds no command's step of its base waits as it is. -/
theorem State.askStep_eq {s : State} {n : Nat} (o : Int) (edge : Bool)
    (h : ∀ y ∈ s.time.steps, y.base = n → y.edge = true) : s.askStep n o edge =
      { s with time := { s.time with steps := s.time.steps.filter (·.base != n) ++ [⟨n, o, edge⟩] } } := by
  have hmine : (s.time.steps.filter fun x => x.base == n && !x.edge) = [] :=
    List.filter_eq_nil_iff.2 fun y hy => by simpa using h y hy
  simp only [State.askStep, hmine, List.map_nil, List.foldl_nil]

/-- With no step waiting, the one asked for is the only one. -/
theorem State.steps_askStep_of_nil {s : State} (n : Nat) (o : Int) (edge : Bool) (h : s.time.steps = []) :
    (s.askStep n o edge).time.steps = [⟨n, o, edge⟩] := by
  rw [State.askStep_eq _ _ (by simp [h]), h]
  rfl

/-! ### The steps that waited (R264, R272) -/

/-- What one of the steps that waited does at its tick. -/
def State.stepDue (s : State) (x : PendStep) : State :=
  (if x.edge then s.tracks x.base else s).stepBase x.base x.offset

theorem State.stepsDue_eq (s : State) :
    s.stepsDue = State.each { s with time := { s.time with steps := [] } } s.time.steps State.stepDue := rfl

theorem State.base_stepDue_of_ne (s : State) {x : PendStep} {k : TimeBase} (h : k.val ≠ x.base) :
    (s.stepDue x).base k = s.base k := by
  rw [State.stepDue, State.base_stepBase_of_ne _ h]
  split
  · exact State.base_tracks_of_ne s h
  · rfl

theorem State.base_stepsDue_of_ne (s : State) {k : TimeBase} (h : ∀ x ∈ s.time.steps, x.base ≠ k.val) :
    s.stepsDue.base k = s.base k := by
  rw [State.stepsDue_eq]
  exact State.each_keeps (fun t => t.base k = s.base k) _ _
    (fun t x hx ht => (t.base_stepDue_of_ne (h x hx).symm).trans ht) _ rfl

/-- What holds beside a fold holds on; what one of its steps then brings about, and every step keeps, holds at its end. -/
theorem State.each_establishes {β : Type} {P Q : State → Prop} {l : List β} {f : State → β → State} {x : β} (hx : x ∈ l)
    (hP : ∀ t y, y ∈ l → P t → P (f t y)) (hPQ : ∀ t, P t → Q (f t x)) (hQ : ∀ t y, y ∈ l → Q t → Q (f t y))
    {s : State} (h : P s) : Q (s.each l f) := by
  obtain ⟨before, after, rfl⟩ := List.append_of_mem hx
  rw [State.each, List.foldl_append, List.foldl_cons]
  exact State.each_keeps Q after f (fun t y hy => hQ t y (by simp [hy])) _
    (hPQ _ (State.each_keeps P before f (fun t y hy => hP t y (by simp [hy])) s h))

/-- A base that an edge's step waits for is TRACKING once the steps have taken effect. -/
theorem State.get_stepsDue_state (s : State) {x : PendStep} (hx : x ∈ s.time.steps) (he : x.edge = true) :
    s.stepsDue.get (O.TB_STATE x.base) = TbState.tracking := by
  rw [State.stepsDue_eq]
  refine State.each_establishes (P := fun _ => True) (Q := fun t => t.get (O.TB_STATE x.base) = TbState.tracking) hx
    (fun _ _ _ _ => trivial) (fun t _ => ?_) (fun t y _ ht => ?_) trivial
  · rw [State.stepDue, if_pos he, State.get_stepBase _ _ _ _ (by simp), State.get_tracks_state, if_pos rfl]
  · rw [State.stepDue, State.get_stepBase _ _ _ _ (by simp)]
    split
    · rw [State.get_tracks_state, ht, ite_self]
    · exact ht

/-! ### A tick of the time domain (R260, R263, R265) -/

@[simp] theorem State.time_restampTx (s : State) (p n : Nat) (o : Int) (pre : Bool) :
    (s.restampTx p n o pre).time = s.time := by
  unfold State.restampTx
  dsimp only
  split
  · rfl
  · split
    · rfl
    · split <;> rfl

@[simp] theorem State.time_restamp (s : State) (x : PendStep) : (s.restamp x).time = s.time :=
  State.each_keeps (fun t => t.time = s.time) _ _ (fun t p _ ht => by simpa using ht) s rfl

/-- A base without a step that waits runs for one tick at its rate. -/
theorem State.base_timeTick (s : State) {n : TimeBase} (h : ∀ x ∈ s.time.steps, x.base ≠ n.val) : s.timeTick.base n =
    (s.base n).tick (s.geti (O.TB_RATE n)) (slewUnits (s.get (O.SLEW_MAX_PPB n))) := by
  have hstamp : s.timeTick.time = s.tick.stepsDue.time :=
    State.each_keeps (fun t => t.time = s.tick.stepsDue.time) _ State.restamp
      (fun t x _ ht => (t.time_restamp x).trans ht) _ rfl
  rw [State.base_congr (congrArg TimeX.bases hstamp) n, State.base_stepsDue_of_ne s.tick h, State.base_tick]

end Sys2Proof.Machine
end

section
/-!
The statements on ticks of time bases (R263, R267) and on writes of TB_RATE (R266).
-/
namespace Sys2Proof.Machine

/-! ### Ticks -/

/-- On a running device with nothing waiting a step is a tick: a base that no step waits for runs at its rate. -/
theorem step_ticks_base {s : State} {n : TimeBase} (h : Runs s) (hp : s.pending = [])
    (hn : ∀ x ∈ s.time.steps, x.base ≠ n.val) : ∃ t, step s = .next t ∧ t.base n =
      (s.base n).tick (s.geti (O.TB_RATE n)) (slewUnits (s.get (O.SLEW_MAX_PPB n))) := by
  have hstep : step s = .next (ran s (fresh s).timeTick) := by
    rw [step, hp]
    exact live_ran h _
  exact ⟨_, hstep, State.base_timeTick (fresh s) hn⟩

/-- Where the slew does not end within the tick, the slew term counts whole. -/
theorem State.tick_eq_advance_rateTotal (s : State) {n : TimeBase}
    (hslew : (s.base n).slew = 0 ∨ (1024 * slewUnits (s.get (O.SLEW_MAX_PPB n)) : Int) ≤ (s.base n).slew ∨
      (s.base n).slew ≤ -(1024 * slewUnits (s.get (O.SLEW_MAX_PPB n)) : Int)) :
    ∃ left, (s.base n).tick (s.geti (O.TB_RATE n)) (slewUnits (s.get (O.SLEW_MAX_PPB n))) =
      (s.base n).advance ((s.base n).rem + 2 ^ 50 + 1024 * s.rateTotal n) left := by
  obtain ⟨extra, htick, hnone, hup, hdown⟩ :=
    (s.base n).tick_eq_advance (s.geti (O.TB_RATE n)) (slewUnits (s.get (O.SLEW_MAX_PPB n)))
  refine ⟨_, htick.trans (congrArg (Base.advance _ · _) ?_)⟩
  rcases Int.lt_trichotomy (s.base n).slew 0 with hneg | hzero | hpos
  · rw [State.rateTotal, if_neg hneg.ne, if_neg hneg.not_gt, hdown hneg (by omega)]
    ring
  · rw [State.rateTotal, if_pos hzero, hnone hzero]
    ring
  · rw [State.rateTotal, if_neg hpos.ne', if_pos hpos, hup hpos (by omega)]
    ring

theorem step_advances_base {s : State} {n : TimeBase} {acc : Int} {nsf : Nat} (h : Runs s) (hp : s.pending = [])
    (hn : ∀ x ∈ s.time.steps, x.base ≠ n.val)
    (hslew : (s.base n).slew = 0 ∨ (1024 * slewUnits (s.get (O.SLEW_MAX_PPB n)) : Int) ≤ (s.base n).slew ∨
      (s.base n).slew ≤ -(1024 * slewUnits (s.get (O.SLEW_MAX_PPB n)) : Int))
    (hacc : acc = (s.base n).rem + 0x4000000000000 + 1024 * s.rateTotal n)
    (hnsf : nsf = (s.base n).nsf + (acc / 5).toNat) : ∃ t, step s = .next t ∧
      (t.base n).rem = (acc % 5).toNat ∧
      (1000000000 * 2 ^ 48 ≤ nsf → (t.base n).nsf = nsf - 1000000000 * 2 ^ 48 ∧
        (t.base n).sec = ((s.base n).sec + 1) % 2 ^ 48) ∧
      (nsf < 1000000000 * 2 ^ 48 → (t.base n).nsf = nsf ∧ (t.base n).sec = (s.base n).sec) := by
  obtain ⟨t, hstep, hbase⟩ := step_ticks_base h hp hn
  obtain ⟨left, htick⟩ := s.tick_eq_advance_rateTotal hslew
  have hadv : t.base n = (s.base n).advance acc left := (hbase.trans htick).trans (by rw [hacc]; rfl)
  refine ⟨t, hstep, ?_⟩
  rw [hadv, hnsf]
  exact ⟨Base.rem_advance .., Base.advance_carries, Base.advance_within⟩

/-! ### A write of TB_RATE (R266) -/

theorem leNat_leBytes (n v : Nat) : leNat (leBytes n v) = v % 256 ^ n := by
  induction n generalizing v with
  | zero => simp [leBytes, leNat, Nat.mod_one]
  | succ n ih =>
    rw [leBytes, leNat, ih, pow_succ' 256 n, Nat.mod_mul]
    rfl

theorem toSigned_ofSigned_word {v : Int} (hlo : -(2 ^ 31) ≤ v) (hhi : v < 2 ^ 31) : toSigned 32 (ofSigned 32 v) = v := by
  simp only [toSigned, ofSigned, Nat.reducePow, Nat.reduceSub, Nat.cast_ofNat]
  omega

/-- The number of a written word is the word. -/
theorem leNat_rateWord (v : Int) : leNat (leBytes 4 (ofSigned 32 v)) = ofSigned 32 v := by
  rw [leNat_leBytes, Nat.mod_eq_of_lt]
  simp only [ofSigned]
  omega

theorem finds_timeBase (s : State) (n : TimeBase) {sub : Nat} {o : ObjRow}
    (hrow : rowOf (indexRows 0x8000) sub = some o) : Finds s false ⟨0x8000, n, sub⟩ o := by
  have hhead : (indexRows 0x8000).head? = some ⟨0x8000, 1, 1, .time96, .ro, 12, 12, .upto 8, .none, []⟩ := by
    decide +kernel
  exact finds_of_rowOf hhead (decide_eq_true n.isLt) hrow (by simp)

/-- The row of TB_RATE. -/
def tbRateRow : ObjRow := ⟨0x8000, 3, 3, .i32, .rw, 4, 4, .upto 8, .none, [(-549755813, 549755813)]⟩

theorem finds_tbRate (s : State) (n : TimeBase) : Finds s false (O.TB_RATE n) tbRateRow :=
  finds_timeBase s n (by decide +kernel)

theorem inRange_tbRateRow (v : Nat) :
    inRange tbRateRow v = true ↔ -549755813 ≤ toSigned 32 v ∧ toSigned 32 v ≤ 549755813 := by
  simp [inRange, tbRateRow]

theorem keepBits_tbRate (n v : Nat) : keepBits (O.TB_RATE n).idx (O.TB_RATE n).sub 0 v = v := (rfl)

theorem State.writeState_tbRate (s : State) (n len : Nat) :
    s.writeState (O.TB_RATE n) 0 len = (s.get (O.SERVO_OWNER n) == 0) := (rfl)

section
variable {s : State} {p : Path} {n : TimeBase} {v : Int} (h : Ready s p)
  (hl : s.leasedAway p ((O.TB_RATE n).idx / 4096) = false) (hlo : -(2 ^ 31) ≤ v) (hhi : v < 2 ^ 31)
include h hl hlo hhi

theorem write_tbRate_outOfRange (hv : v < -549755813 ∨ 549755813 < v) :
    exec (.write p (O.TB_RATE n) 0 (leBytes 4 (ofSigned 32 v))) s = .next (refused s p Err.range) := by
  refine write_outOfRange h (finds_tbRate s n) (.inl rfl) (.inl (by simp)) rfl hl (length_leBytes 4 _) ?_
  rw [keepBits_tbRate, leNat_rateWord, ← Bool.not_eq_true, inRange_tbRateRow, toSigned_ofSigned_word hlo hhi]
  omega

theorem write_tbRate_takes (hb : s.dict.busyTabs.contains (O.TB_RATE n) = false) (hv : -549755813 ≤ v)
    (hv' : v ≤ 549755813) (ho : s.get (O.SERVO_OWNER n) = 0) :
    exec (.write p (O.TB_RATE n) 0 (leBytes 4 (ofSigned 32 v))) s =
      .next (answers s p Err.ok ((fresh s).set (O.TB_RATE n) (ofSigned 32 v))) := by
  have hword : keepBits (O.TB_RATE n).idx (O.TB_RATE n).sub 0 (leNat (leBytes 4 (ofSigned 32 v))) = ofSigned 32 v :=
    (keepBits_tbRate ..).trans (leNat_rateWord v)
  have hrange : inRange tbRateRow (ofSigned 32 v) = true :=
    (inRange_tbRateRow _).2 (by rw [toSigned_ofSigned_word hlo hhi]; exact ⟨hv, hv'⟩)
  have hexec := write_number h hl rfl (length_leBytes 4 (ofSigned 32 v)) (hword.symm ▸ hrange) (finds_tbRate s n)
    (.inl rfl) (.inl (by simp)) rfl hb rfl ((s.writeState_tbRate n _).trans (beq_iff_eq.2 ho))
  rw [hexec, hword]
  rfl

/-- The rate written is the one of the next tick. -/
theorem write_tbRate_acts (hb : s.dict.busyTabs.contains (O.TB_RATE n) = false) (hv : -549755813 ≤ v)
    (hv' : v ≤ 549755813) (ho : s.get (O.SERVO_OWNER n) = 0) :
    Does (.write p (O.TB_RATE n) 0 (leBytes 4 (ofSigned 32 v))) s fun u =>
      u.out = [.answer p Err.ok []] ∧ u.geti (O.TB_RATE n) = v ∧ (∀ r e, r ≠ O.TB_RATE n → u.get r e = s.get r e) ∧
      u.time = s.time ∧ ((∀ x ∈ s.time.steps, x.base ≠ n.val) → ∀ t, step { u with pending := [] } = .next t → t.base n =
        (s.base n).tick v (slewUnits (s.get (O.SLEW_MAX_PPB n)))) := by
  generalize hu : answers s p Err.ok ((fresh s).set (O.TB_RATE n) (ofSigned 32 v)) = u
  have hget : ∀ r e, u.get r e = ((fresh s).set (O.TB_RATE n) (ofSigned 32 v)).get r e := by
    rw [← hu]
    exact fun _ _ => rfl
  have htime : u.time = s.time := by rw [← hu]; rfl
  have hrate : u.geti (O.TB_RATE n) = v := by
    rw [State.geti, hget, State.get_set_same, toSigned_ofSigned_word hlo hhi]
  have hother : ∀ r e, r ≠ O.TB_RATE n → u.get r e = s.get r e := fun r e hr => by
    rw [hget, State.get_set_other _ _ _ _ (.inl hr)]; rfl
  refine ⟨u, hu ▸ write_tbRate_takes h hl hlo hhi hb hv hv' ho, by rw [← hu]; rfl, hrate, hother, htime,
    fun hn t ht => ?_⟩
  have hruns : Runs { u with pending := [] } := by rw [← hu]; rfl
  obtain ⟨t', hstep, hbase⟩ := step_ticks_base (s := { u with pending := [] }) (n := n) hruns rfl
    (by simpa only [htime] using hn)
  obtain rfl : t' = t := Host.Outcome.next.inj (hstep.symm.trans ht)
  calc t'.base n = (u.base n).tick (u.geti (O.TB_RATE n)) (slewUnits (u.get (O.SLEW_MAX_PPB n))) := hbase
    _ = (s.base n).tick v (slewUnits (s.get (O.SLEW_MAX_PPB n))) := by
      rw [State.base_congr (congrArg TimeX.bases htime), hrate, hother _ _ (by simp)]

end

end Sys2Proof.Machine

open Sys2Proof Sys2Proof.Machine

/-- Settles O44: a tick is the accumulator's advance of the base, whose fields its TIME96 value shows; over five ticks the
remainders cancel. -/
theorem timeBasesAdvanceEachTick : Obligations.TimeBasesAdvanceEachTick := by
  refine ⟨fun s n acc nsf h hp hn hslew hacc _ hnsf => step_advances_base h hp hn hslew hacc hnsf,
    fun s n => Base.timeFields, fun b u rate term hs hr _ _ hlo _ hu => ?_, by decide⟩
  obtain ⟨hrem, hfine⟩ := Base.tick_five term hs hr hlo hu
  refine ⟨hrem, ?_⟩
  have hrate : 4 * 2 ^ 48 + 4 * 2 ^ 48 * rate / 2 ^ 40 = 2 ^ 50 + 1024 * rate := by omega
  rw [hrate, sub_sub]
  exact Int.emod_eq_zero_of_dvd hfine.symm.dvd

/-- Settles O45: the range of TB_RATE's row refuses the one, and the tick reads the object that the other writes. -/
theorem rateWritesActAtTheNextTick : Obligations.RateWritesActAtTheNextTick := by
  rintro s p n v d h hl hb hlo hhi rfl
  have hfree : s.leasedAway p ((O.TB_RATE n).idx / 4096) = false := by simpa using hl
  exact ⟨write_tbRate_outOfRange h hfree hlo hhi, write_tbRate_acts h hfree hlo hhi hb⟩

end

section
/-!
The commands of a time base (R264-R268, R286): what an offset does by the base's state, TB_REARM, the end of a slew,
TIME_SNAPSHOT, and the statement assembled from them.
-/
namespace Sys2Proof.Machine

/-! ### The command objects of a time base -/

/-- The row of TB_SET. -/
def tbSetRow : ObjRow := ⟨0x8000, 4, 4, .cmd, .cmd, 12, 0, .upto 8, .none, []⟩
/-- The row of TB_ADJUST. -/
def tbAdjustRow : ObjRow := ⟨0x8000, 5, 5, .cmd, .cmd, 8, 0, .upto 8, .none, []⟩
/-- The row of TB_REARM. -/
def tbRearmRow : ObjRow := ⟨0x8000, 6, 6, .cmd, .cmd, 1, 0, .upto 8, .none, []⟩
/-- The row of TIME_SNAPSHOT. -/
def timeSnapshotRow : ObjRow := ⟨0x8050, 1, 1, .cmd, .cmd, 0, 0, .upto 1, .none, []⟩

/-- The rows of a time base's commands. -/
theorem rowOf_timeBaseCommands : rowOf (indexRows 0x8000) 4 = some tbSetRow ∧
    rowOf (indexRows 0x8000) 5 = some tbAdjustRow ∧ rowOf (indexRows 0x8000) 6 = some tbRearmRow := by decide +kernel

theorem finds_tbSet (s : State) (n : TimeBase) : Finds s false (O.TB_SET n) tbSetRow :=
  finds_timeBase s n rowOf_timeBaseCommands.1

theorem finds_tbAdjust (s : State) (n : TimeBase) : Finds s false (O.TB_ADJUST n) tbAdjustRow :=
  finds_timeBase s n rowOf_timeBaseCommands.2.1

theorem finds_tbRearm (s : State) (n : TimeBase) : Finds s false (O.TB_REARM n) tbRearmRow :=
  finds_timeBase s n rowOf_timeBaseCommands.2.2

theorem finds_timeSnapshot (s : State) : Finds s false O.TIME_SNAPSHOT timeSnapshotRow := by
  have hhead : (indexRows 0x8050).head? = some timeSnapshotRow := by decide +kernel
  have hrow : rowOf (indexRows 0x8050) 1 = some timeSnapshotRow := by decide +kernel
  exact finds_of_rowOf hhead (decide_eq_true Nat.zero_lt_one) hrow (by simp)

theorem exec_tbSet_write (s : State) (p : Path) (n : TimeBase) (d : List Byte) :
    exec (.tbSet p n d) s = exec (.write p (O.TB_SET n) 0 d) s := rfl

theorem exec_tbAdjust_write (s : State) (p : Path) (n : TimeBase) (d : List Byte) :
    exec (.tbAdjust p n d) s = exec (.write p (O.TB_ADJUST n) 0 d) s := rfl

theorem exec_tbRearmArm_write (s : State) (p : Path) (n : TimeBase) :
    exec (.tbRearmArm p n) s = exec (.write p (O.TB_REARM n) 0 [0]) s := rfl

theorem exec_tbRearmTrack_write (s : State) (p : Path) (n : TimeBase) :
    exec (.tbRearmTrack p n) s = exec (.write p (O.TB_REARM n) 0 [1]) s := rfl

theorem exec_timeSnapshot_write (s : State) (p : Path) :
    exec (.timeSnapshot p) s = exec (.write p O.TIME_SNAPSHOT 0 []) s := rfl

theorem State.command_tbSet (s : State) (n : Nat) (d : List Byte) :
    s.command (O.TB_SET n) d = s.tbMove (O.TB_SET n) (timeDiff (leNat d) (s.tb n)) := (rfl)

theorem State.command_tbAdjust (s : State) (n : Nat) (d : List Byte) :
    s.command (O.TB_ADJUST n) d = s.tbMove (O.TB_ADJUST n) (toSigned 64 (leNat d)) := (rfl)

theorem State.command_tbRearm (s : State) (n : Nat) (d : List Byte) : s.command (O.TB_REARM n) d =
    if (s.rearm n (byteAt d 0)).1 = Err.ok then (Err.ok, (s.rearm n (byteAt d 0)).2.cmdDone (O.TB_REARM n))
    else s.rearm n (byteAt d 0) := (rfl)

theorem State.command_timeSnapshot (s : State) : s.command O.TIME_SNAPSHOT [] = (Err.ok, s.timeSnapshot) := (rfl)

theorem State.cmdRange_tbSet (s : State) (n : Nat) (d : List Byte) :
    s.cmdRange (O.TB_SET n) d = decide (timeNs (leNat d) < 1000000000) := (rfl)

theorem cmdFits_tbSet {n : Nat} {d : List Byte} (h : d.length = 12) : cmdFits (O.TB_SET n) 12 d = true := beq_iff_eq.2 h

theorem cmdFits_tbAdjust {n : Nat} {d : List Byte} (h : d.length = 8) : cmdFits (O.TB_ADJUST n) 8 d = true :=
  beq_iff_eq.2 h

/-! ### What an offset does to a base (R264, R267, R268) -/

/-- The greatest slew of a base, in fifths of 2^-48 ns (R264). -/
def State.jumpLimit (s : State) (n : Nat) : Nat := s.get (O.JUMP_THRESHOLD_NS n) * 2 ^ 48 * 5

theorem State.cast_jumpLimit (s : State) (n : Nat) :
    (s.jumpLimit n : Int) = (s.get (O.JUMP_THRESHOLD_NS n) : Int) * 2 ^ 48 * 5 := by
  simp [State.jumpLimit]

/-- The slew of a base after an offset. -/
def State.slewSum (s : State) (n : Nat) (o : Int) : Int := o * slewPerUnit + (s.base n).slew

/-- The objects of a refusal: the offset and the value it met, the state, the count of refusals. -/
def refusalRefs (n : Nat) : List Ref := [O.LAST_REFUSED n, O.TB_STATE n, O.TB_COUNTS n 13]

/-- A base that keeps and counts a refusal, with the bytes it keeps. -/
def State.holds (s : State) (n : Nat) (bytes : List Byte) : State :=
  ((s.setAll (O.LAST_REFUSED n) (bytes.map bn)).set (O.TB_STATE n) TbState.held).count64 (O.TB_COUNTS n 13)

section
variable (s : State) (n : Nat) (o : Int)

theorem State.offsetWord_writes (rs : List Ref) : Writes rs s (s.offsetWord o).2 := by
  unfold State.offsetWord
  split
  · exact .refl rs s
  · exact (Writes.refl rs s).draw

theorem State.holds_writes {s t : State} (h : Writes (refusalRefs n) s t) (bytes : List Byte) :
    Writes (refusalRefs n) s (t.holds n bytes) :=
  ((h.setAll (by simp [refusalRefs])).set (by simp [refusalRefs])).count64 (by simp [refusalRefs])

theorem State.get_holds_state (bytes : List Byte) : (s.holds n bytes).get (O.TB_STATE n) = TbState.held := by
  unfold State.holds
  rw [State.get_count64_other _ _ (.inl (by simp)), State.get_set_same]

theorem State.get_holds_count (bytes : List Byte) :
    (s.holds n bytes).get (O.TB_COUNTS n 13) = (s.get (O.TB_COUNTS n 13) + 1) % 2 ^ 64 := by
  unfold State.holds
  rw [State.get_count64_same, State.get_set_other _ _ _ _ (.inl (by simp)), State.get_setAll_other _ _ _ _ (by simp)]

variable {s n o}

theorem State.adjust_armed (h : s.get (O.TB_STATE n) = TbState.armed) :
    s.adjust n o = (Err.ok, (s.tracks n).askStep n o false) := by
  simp only [State.adjust, h, if_true]

theorem State.adjust_slews (h : s.get (O.TB_STATE n) = TbState.tracking) (hlo : -(s.jumpLimit n : Int) ≤ s.slewSum n o)
    (hhi : s.slewSum n o ≤ s.jumpLimit n) : s.adjust n o =
      (Err.ok, (s.putBase n { s.base n with slew := s.slewSum n o }).count64 (O.TB_COUNTS n 12)) := by
  rw [State.cast_jumpLimit] at hlo hhi
  unfold State.adjust
  dsimp only
  rw [if_neg (by simp [h]), if_pos h]
  exact if_pos ⟨hlo, hhi⟩

/-- A jump beyond the threshold is kept, counted and reported, and holds the base. -/
theorem State.adjust_jumps (h : s.get (O.TB_STATE n) = TbState.tracking)
    (hb : (s.jumpLimit n : Int) < s.slewSum n o ∨ s.slewSum n o < -(s.jumpLimit n : Int)) :
    ∃ bytes w, s.adjust n o = (Err.range, w.report (0x788 + n) (unitId 12 n) bytes) ∧ Writes (refusalRefs n) s w ∧
      w.get (O.TB_STATE n) = TbState.held ∧ w.get (O.TB_COUNTS n 13) = (s.get (O.TB_COUNTS n 13) + 1) % 2 ^ 64 := by
  rw [State.cast_jumpLimit] at hb
  generalize hbytes : leBytes 8 (s.offsetWord o).1 ++ leBytes 12 (s.tb n) = bytes
  refine ⟨bytes, (s.offsetWord o).2.holds n bytes, ?_, State.holds_writes _ (s.offsetWord_writes o _) bytes,
    State.get_holds_state .., ?_⟩
  · unfold State.adjust
    dsimp only
    rw [if_neg (by simp [h]), if_pos h, hbytes]
    exact if_neg fun hin => hb.elim hin.2.not_gt hin.1.not_gt
  · rw [State.get_holds_count, (s.offsetWord_writes o []).objs _ _ List.not_mem_nil]

theorem State.adjust_held (h : s.get (O.TB_STATE n) = TbState.held) :
    s.adjust n o = (Err.state, s.count64 (O.TB_COUNTS n 13)) := by
  unfold State.adjust
  dsimp only
  rw [if_neg (by simp [h]), if_neg (by simp [h])]

variable {r : Ref}

theorem State.tbMove_owned (h : s.get (O.SERVO_OWNER r.inst) = 1) : s.tbMove r o = (Err.state, s) := if_pos h

section
variable (h : s.get (O.SERVO_OWNER r.inst) ≠ 1) {u : State}
include h

theorem State.tbMove_done (ha : s.adjust r.inst o = (Err.ok, u)) : s.tbMove r o = (Err.ok, u.cmdDone r) := by
  simp only [State.tbMove, if_neg h, ha, if_true]

theorem State.tbMove_fails (ha : s.adjust r.inst o = (Err.range, u)) :
    s.tbMove r o = (Err.range, u.cmdFail r Err.range) := by
  simp [State.tbMove, h, ha]

theorem State.tbMove_refused (ha : s.adjust r.inst o = (Err.state, u)) : s.tbMove r o = (Err.state, u) := by
  simp [State.tbMove, h, ha]

end
end

/-! ### TB_SET and TB_ADJUST -/

/-- The commands that give a base an offset, each with its object and its offset. -/
def timeMoves (s : State) (p : Path) (n : TimeBase) (d e : List Byte) : List (Instr × Ref × Int) :=
  [(.tbSet p n d, O.TB_SET n, timeDiff (leNat d) (s.tb n)), (.tbAdjust p n e, O.TB_ADJUST n, toSigned 64 (leNat e))]

section
variable {s u : State} {p : Path} {n : TimeBase} {d e : List Byte} {i : Instr} {r : Ref} {o : Int}
  (hm : (i, r, o) ∈ timeMoves s p n d e) (hd : d.length = 12) (he : e.length = 8)
  (hns : timeNs (leNat d) < 1000000000) (ht : Takes s p r)
include hm

theorem inst_of_mem_timeMoves : r.inst = n := by
  simp only [timeMoves, List.mem_cons, List.not_mem_nil, or_false, Prod.mk.injEq] at hm
  obtain ⟨-, rfl, -⟩ | ⟨-, rfl, -⟩ := hm <;> rfl

include hd he hns ht

/-- Either command answers what the offset makes of the base. -/
theorem exec_timeMove {c : Nat} (hc : (fresh s).tbMove r o = (c, u)) : exec i s = .next (answers s p c u) := by
  simp only [timeMoves, List.mem_cons, List.not_mem_nil, or_false, Prod.mk.injEq] at hm
  obtain ⟨rfl, rfl, rfl⟩ | ⟨rfl, rfl, rfl⟩ := hm
  · rw [exec_tbSet_write]
    exact write_cmd_takes ht (finds_tbSet s n) rfl (.inl (by simp)) (cmdFits_tbSet hd)
      ((s.cmdRange_tbSet n d).trans (decide_eq_true hns)) (State.diagRefuses_of_area (by simp) false)
      ((State.command_tbSet ..).trans hc)
  · rw [exec_tbAdjust_write]
    exact write_cmd_takes ht (finds_tbAdjust s n) rfl (.inl (by simp)) (cmdFits_tbAdjust he) rfl
      (State.diagRefuses_of_area (by simp) false) ((State.command_tbAdjust ..).trans hc)

theorem timeMove_owned (ho : s.get (O.SERVO_OWNER n) = 1) : exec i s = .next (refused s p Err.state) := by
  have hi := inst_of_mem_timeMoves hm
  rw [exec_timeMove hm hd he hns ht (State.tbMove_owned (s := fresh s) (by rw [hi]; exact ho)),
    answers_fresh ht.1.1]

section
variable (ho : s.get (O.SERVO_OWNER n) ≠ 1)
include ho

theorem exec_timeMove_armed (ha : s.get (O.TB_STATE n) = TbState.armed) : exec i s =
    .next (answers s p Err.ok ((((fresh s).tracks n).askStep n o false).cmdDone r)) := by
  rw [← inst_of_mem_timeMoves hm] at ho ha ⊢
  exact exec_timeMove hm hd he hns ht (State.tbMove_done (s := fresh s) ho (State.adjust_armed ha))

/-- The base tracks at once; what it stands at moves at the next tick alone. -/
theorem timeMove_armed (ha : s.get (O.TB_STATE n) = TbState.armed) : Does i s fun u =>
    u.get (O.TB_STATE n) = TbState.tracking ∧ u.base n = { s.base n with slew := 0 } ∧
      (u.cmd r).status = 2 ∧ (∀ k : TimeBase, k ≠ n → u.base k = s.base k) ∧
      (s.time.steps = [] → u.time.steps = [⟨n, o, false⟩] ∧
        (∀ k : TimeBase, k ≠ n → u.stepsDue.base k = s.base k) ∧
        ((((u.stepsDue.base n).sec * 1000000000 : Nat) : Int) * 2 ^ 48 + (u.stepsDue.base n).nsf) %
            (2 ^ 48 * 1000000000 * 2 ^ 48) =
          ((((s.base n).sec * 1000000000 : Nat) : Int) * 2 ^ 48 + (s.base n).nsf + o * 2 ^ 32) %
            (2 ^ 48 * 1000000000 * 2 ^ 48)) := by
  generalize hu : answers s p Err.ok ((((fresh s).tracks n).askStep n o false).cmdDone r) = u
  have hbases : u.time.bases = ((fresh s).tracks n).time.bases := by rw [← hu]; rfl
  have hself : u.base n = { s.base n with slew := 0 } := (State.base_congr hbases n).trans (State.base_tracks (fresh s) n)
  have hothers : ∀ k : TimeBase, k ≠ n → u.base k = s.base k := fun k hk =>
    (State.base_congr hbases k).trans (State.base_tracks_of_ne (fresh s) fun hkn => hk (Fin.ext hkn))
  refine ⟨u, hu ▸ exec_timeMove_armed hm hd he hns ht ho ha, ?_, hself, ?_, hothers, fun hs => ?_⟩
  · rw [← hu, get_answers_cmdDone, State.get_askStep, State.get_tracks_state, if_pos rfl]
  · rw [← hu]
    exact congrArg CmdStat.status (State.cmd_setCmd (((fresh s).tracks n).askStep n o false) r 2 0 [])
  · have hnone : ((fresh s).tracks n).time.steps = [] := hs
    have hsteps : u.time.steps = [⟨n, o, false⟩] := by
      rw [← hu]
      exact State.steps_askStep_of_nil n o false hnone
    refine ⟨hsteps, fun k hk => ?_, ?_⟩
    · rw [State.base_stepsDue_of_ne, hothers k hk]
      rw [hsteps]
      rintro x hx
      obtain rfl := List.mem_singleton.1 hx
      exact fun hnk => hk (Fin.ext hnk.symm)
    · have hdue : u.stepsDue.base n = (u.base n).stepped o := by
        rw [State.stepsDue_eq, hsteps]
        exact State.base_stepBase { u with time := { u.time with steps := [] } } n o
      rw [hdue, Base.value_stepped, hself]

theorem timeMove_slews (ha : s.get (O.TB_STATE n) = TbState.tracking)
    (hlo : -((s.get (O.JUMP_THRESHOLD_NS n) * 2 ^ 48 * 5 : Nat) : Int) ≤ o * slewPerUnit + (s.base n).slew)
    (hhi : o * slewPerUnit + (s.base n).slew ≤ ((s.get (O.JUMP_THRESHOLD_NS n) * 2 ^ 48 * 5 : Nat) : Int)) :
    exec i s = .next (answers s p Err.ok ((((fresh s).putBase n { s.base n with
      slew := o * slewPerUnit + (s.base n).slew }).count64 (O.TB_COUNTS n 12)).cmdDone r)) := by
  rw [← inst_of_mem_timeMoves hm] at ho ha hlo hhi ⊢
  exact exec_timeMove hm hd he hns ht
    (State.tbMove_done (s := fresh s) ho (State.adjust_slews (s := fresh s) ha hlo hhi))

theorem timeMove_jumps (ha : s.get (O.TB_STATE n) = TbState.tracking)
    (hb : ((s.get (O.JUMP_THRESHOLD_NS n) * 2 ^ 48 * 5 : Nat) : Int) < o * slewPerUnit + (s.base n).slew ∨
      o * slewPerUnit + (s.base n).slew < -((s.get (O.JUMP_THRESHOLD_NS n) * 2 ^ 48 * 5 : Nat) : Int)) :
    Does i s fun u => u.out = [.answer p Err.range []] ∧ u.get (O.TB_STATE n) = TbState.held ∧
      u.cmd r = ⟨3, Err.range, []⟩ ∧ u.time = s.time ∧
      u.get (O.TB_COUNTS n 13) = (s.get (O.TB_COUNTS n 13) + 1) % 2 ^ 64 ∧
      u.faults.reports.map (·.source) = s.faults.reports.map (·.source) ++ [0x788 + n.val] := by
  have hi := inst_of_mem_timeMoves hm
  obtain ⟨bytes, w, hadj, hw, hstate, hcount⟩ := State.adjust_jumps (s := fresh s) (o := o) ha hb
  have hexec := exec_timeMove hm hd he hns ht
    (State.tbMove_fails (s := fresh s) (by rw [hi]; exact ho) (by rw [hi]; exact hadj))
  refine ⟨_, hexec, congrArg (· ++ [Output.answer p Err.range []]) hw.out, hstate, State.cmd_setCmd .., hw.time,
    hcount, (List.map_append ..).trans ?_⟩
  rw [hw.faults]
  rfl

theorem timeMove_held (ha : s.get (O.TB_STATE n) = TbState.held) :
    exec i s = .next (answers s p Err.state ((fresh s).count64 (O.TB_COUNTS n 13))) := by
  rw [← inst_of_mem_timeMoves hm] at ho ha ⊢
  exact exec_timeMove hm hd he hns ht (State.tbMove_refused (s := fresh s) ho (State.adjust_held ha))

end
end

theorem tbSet_outOfRange {s : State} {p : Path} {n : TimeBase} {d : List Byte} (h : Takes s p (O.TB_SET n))
    (hd : d.length = 12) (hns : 1000000000 ≤ timeNs (leNat d)) :
    exec (.tbSet p n d) s = .next (refused s p Err.range) := by
  obtain ⟨hready, hl, -, -⟩ := h
  rw [exec_tbSet_write]
  exact write_cmd_refused hready (finds_tbSet s n) rfl (.inl (by simp)) hl
    (State.cmdOp_range (cmdFits_tbSet hd) ((State.cmdRange_tbSet ..).trans (decide_eq_false hns.not_gt)))

/-! ### TB_REARM (R264, R275) -/

/-- A base comes into a state by a command, which counts; a REFUSED servo acquires anew. -/
def State.rearmed (s : State) (n st : Nat) : State :=
  let v := (s.set (O.TB_STATE n) st).count64 (O.TB_COUNTS n 14)
  if s.get (O.SERVO_STATE n) = Servo.refused then
    (v.putServo n { s.servo n with good := 0, bad := 0 }).set (O.SERVO_STATE n) Servo.acquiring
  else v

/-- A servo that does not leave LOCKED moves without a report. -/
theorem State.servoTo_unlocked {s : State} {n : Nat} (st : Nat) (h : s.get (O.SERVO_STATE n) ≠ Servo.locked) :
    s.servoTo n st = s.set (O.SERVO_STATE n) st := if_neg fun hl => h hl.1

/-- What TB_REARM makes of a base and its servo. -/
theorem State.rearmed_eq_servoTo (s : State) (n st : Nat) : s.rearmed n st =
    (let v := (s.set (O.TB_STATE n) st).count64 (O.TB_COUNTS n 14)
    if v.get (O.SERVO_STATE n) = Servo.refused then
      (v.putServo n { v.servo n with good := 0, bad := 0 }).servoTo n Servo.acquiring
    else v) := by
  generalize hv : (s.set (O.TB_STATE n) st).count64 (O.TB_COUNTS n 14) = v
  have hstate : v.get (O.SERVO_STATE n) = s.get (O.SERVO_STATE n) := by
    rw [← hv, State.get_count64_other _ _ (.inl (by simp)), State.get_set_other _ _ _ _ (.inl (by simp))]
  have hservo : v.servo n = s.servo n := by rw [← hv]; rfl
  simp only [State.rearmed, hv, hstate, hservo]
  split
  · rename_i hrefused
    have hunlocked : (v.putServo n { s.servo n with good := 0, bad := 0 }).get (O.SERVO_STATE n) ≠ Servo.locked :=
      (hstate.trans hrefused).trans_ne (by decide)
    rw [State.servoTo_unlocked _ hunlocked]
  · rfl

section
variable {s : State} {n : Nat}

theorem State.rearm_arm (s : State) (n : Nat) : s.rearm n 0 =
    (Err.ok, if s.get (O.TB_STATE n) = TbState.armed then s else s.rearmed n TbState.armed) := by
  rw [State.rearmed_eq_servoTo]
  rfl

theorem State.rearm_track (h : s.get (O.TB_STATE n) = TbState.held) :
    s.rearm n 1 = (Err.ok, s.rearmed n TbState.tracking) := by
  rw [State.rearmed_eq_servoTo]
  exact if_pos h

theorem State.rearm_track_refused (h : s.get (O.TB_STATE n) ≠ TbState.held) : s.rearm n 1 = (Err.state, s) := if_neg h

end

section
variable {s : State} {p : Path} {n : TimeBase} (h : Takes s p (O.TB_REARM n))
include h

theorem exec_tbRearmArm_takes : exec (.tbRearmArm p n) s = .next (answers s p Err.ok
    ((if s.get (O.TB_STATE n) = TbState.armed then fresh s else (fresh s).rearmed n TbState.armed).cmdDone
      (O.TB_REARM n))) := by
  rw [exec_tbRearmArm_write]
  refine write_cmd_takes h (finds_tbRearm s n) rfl (.inl (by simp)) rfl rfl
    (State.diagRefuses_of_area (by simp) false) ?_
  rw [State.command_tbRearm, show byteAt [0] 0 = 0 by decide, State.rearm_arm]
  rfl

theorem tbRearmTrack_releases (hs : s.get (O.TB_STATE n) = TbState.held) : exec (.tbRearmTrack p n) s =
    .next (answers s p Err.ok (((fresh s).rearmed n TbState.tracking).cmdDone (O.TB_REARM n))) := by
  rw [exec_tbRearmTrack_write]
  refine write_cmd_takes h (finds_tbRearm s n) rfl (.inl (by simp)) rfl rfl
    (State.diagRefuses_of_area (by simp) false) ?_
  rw [State.command_tbRearm, show byteAt [1] 0 = 1 by decide, State.rearm_track (s := fresh s) hs]
  rfl

theorem tbRearmTrack_refused (hs : s.get (O.TB_STATE n) ≠ TbState.held) :
    exec (.tbRearmTrack p n) s = .next (refused s p Err.state) := by
  rw [exec_tbRearmTrack_write]
  refine write_cmd_unmoved h (finds_tbRearm s n) rfl (.inl (by simp)) rfl rfl
    (State.diagRefuses_of_area (by simp) false) ?_
  rw [State.command_tbRearm, show byteAt [1] 0 = 1 by decide, State.rearm_track_refused (s := fresh s) hs]
  rfl

end

/-! ### SLEW_COMPLETE and TIME_SNAPSHOT (R267, R286) -/

theorem slewComplete_ends {s : State} {n : TimeBase} (h : Runs s) (hs : (s.base n).slew ≠ 0)
    (hlo : -(1024 * slewUnits (s.get (O.SLEW_MAX_PPB n)) : Int) ≤ (s.base n).slew)
    (hhi : (s.base n).slew ≤ (1024 * slewUnits (s.get (O.SLEW_MAX_PPB n)) : Int)) :
    Does (.slewComplete n) s fun u => (u.base n).slew = 0 ∧ (∀ k : TimeBase, k ≠ n → u.base k = s.base k) ∧
      u.dict = s.dict :=
  does_of_eq exec_slewComplete h (if_pos ⟨hs, hlo, hhi⟩)
    ⟨congrArg Base.slew (State.base_putBase (fresh s) n.isLt _),
      fun _ hk => State.base_putBase_of_ne (fresh s) (fun hkn => hk (Fin.ext hkn)) _, rfl⟩

theorem timeSnapshot_answers {s : State} {p : Path} (h : Takes s p O.TIME_SNAPSHOT) :
    exec (.timeSnapshot p) s = .next (answers s p Err.ok ((fresh s).cmdDone O.TIME_SNAPSHOT
      ((List.range 8).flatMap (fun k => leBytes 12 (s.tb k)) ++ leBytes 8 s.dc))) := by
  rw [exec_timeSnapshot_write]
  exact write_cmd_takes h (finds_timeSnapshot s) rfl (.inl (by simp)) rfl rfl
    (State.diagRefuses_of_area (by simp) false) (State.command_timeSnapshot _)

end Sys2Proof.Machine

open Sys2Proof Sys2Proof.Machine

/-- Settles O42: TB_SET and TB_ADJUST go by the state of the base their offset meets, TB_REARM by the state it leaves, and
a step that waits is the next tick's. -/
theorem timeBasesAreSetSlewedAndRearmed : Obligations.TimeBasesAreSetSlewedAndRearmed := by
  intro s p n d e h hd he
  refine ⟨fun i r o hm ht hns => ⟨timeMove_owned hm hd he hns ht,
      fun ho ha => ⟨exec_timeMove_armed hm hd he hns ht ho ha, timeMove_armed hm hd he hns ht ho ha⟩,
      timeMove_slews hm hd he hns ht, timeMove_jumps hm hd he hns ht, timeMove_held hm hd he hns ht⟩,
    fun ht => tbSet_outOfRange ht hd,
    fun ht => ⟨fun ha => ?_, ?_, tbRearmTrack_refused ht⟩, slewComplete_ends h, timeSnapshot_answers⟩
  · rw [exec_tbRearmArm_takes ht, if_pos ha]
  · rintro st _ _ rfl rfl
    refine ⟨?_, ?_⟩
    · rintro rfl ha
      rw [exec_tbRearmArm_takes ht, if_neg ha]
      rfl
    · rintro rfl hheld
      rw [tbRearmTrack_releases ht hheld]
      rfl

end

section
/-!
The time reference, the PPS input and output, and the servos (R261, R272-R275), and the statement assembled from them.
-/
namespace Sys2Proof.Machine

/-! ### The reference (R261) -/

section
variable {s : State} {err : BitVec 32} (h : Runs s)
include h

theorem timeRefLoss_shows : Does (.timeRefLoss err) s fun u => u.time.refOk = false ∧ u.time.ramping = false ∧
      u.get O.TIME_REF_FREQ_ERR = err.toNat ∧ u.get O.TIME_REF_LOSSES = min (s.get O.TIME_REF_LOSSES + 1) (2 ^ 32 - 1) ∧
      (s.get O.TIME_REF_SELECT = 1 → u.get O.TIME_REF_STATE = 2 ∧
        u.faults.reports.map (·.source) = s.faults.reports.map (·.source) ++ [0x780]) ∧
      (s.get O.TIME_REF_SELECT ≠ 1 → u.get O.TIME_REF_STATE = s.get O.TIME_REF_STATE ∧ u.faults = s.faults) := by
  generalize hv : ({ ((fresh s).set O.TIME_REF_FREQ_ERR err.toNat).count32 O.TIME_REF_LOSSES with
    time := { s.time with refOk := false, ramping := false } } : State) = v
  have htime : v.time = { s.time with refOk := false, ramping := false } := by rw [← hv]
  have hfaults : v.faults = s.faults := by rw [← hv]; rfl
  have hget : ∀ r, v.get r = if r = O.TIME_REF_LOSSES then min (s.get O.TIME_REF_LOSSES + 1) (2 ^ 32 - 1)
      else if r = O.TIME_REF_FREQ_ERR then err.toNat else s.get r := fun r => by
    have hcount : v.get r = (((fresh s).set O.TIME_REF_FREQ_ERR err.toNat).count32 O.TIME_REF_LOSSES).get r := by
      rw [← hv]; rfl
    rw [hcount, State.get_count32, State.get_set, State.get_set]
    simp
  refine does_of_eq (u := if v.get O.TIME_REF_SELECT = 1 then
    (v.set O.TIME_REF_STATE 2).report 0x780 (unitId 11 0) (zeros 20) else v) exec_timeRefLoss h (by rw [← hv]; rfl) ?_
  have hselect : v.get O.TIME_REF_SELECT = s.get O.TIME_REF_SELECT := by simp [hget]
  by_cases hs : s.get O.TIME_REF_SELECT = 1
  · rw [if_pos (hselect.trans hs)]
    refine ⟨congrArg TimeX.refOk htime, congrArg TimeX.ramping htime,
      (State.get_set_other v _ _ _ (.inl (by simp))).trans ?_, (State.get_set_other v _ _ _ (.inl (by simp))).trans ?_,
      fun _ => ⟨State.get_set_same v .., ?_⟩, (absurd hs ·)⟩
    · simp [hget]
    · simp [hget]
    · refine (List.map_append ..).trans ?_
      rw [State.set_faults, hfaults]
      rfl
  · rw [if_neg (hselect.trans_ne hs)]
    simp [htime, hfaults, hs, hget]

theorem timeRefRecover_shows : Does (.timeRefRecover err) s fun u => u.time = { s.time with
        refOk := true, ramping := s.time.ramping || s.get O.TIME_REF_SELECT == 1 } ∧
      u.get O.TIME_REF_FREQ_ERR = err.toNat ∧ ∀ r e, r ≠ O.TIME_REF_FREQ_ERR → u.get r e = s.get r e := by
  have hselect : ((fresh s).set O.TIME_REF_FREQ_ERR err.toNat).get O.TIME_REF_SELECT = s.get O.TIME_REF_SELECT :=
    State.get_set_other (fresh s) _ _ _ (.inl (by simp))
  refine does_of_eq exec_timeRefRecover h rfl ⟨?_, State.get_set_same (fresh s) .., fun r e hr =>
    State.get_set_other (fresh s) _ _ _ (.inl hr)⟩
  simp only [ran_time, hselect]
  rfl

theorem timeRefRampDone_ends (hr : s.time.ramping = true) : Does .timeRefRampDone s fun u =>
    u.time = { s.time with ramping := false } ∧
      u.get O.TIME_REF_STATE = (if s.get O.TIME_REF_SELECT = 1 then 1 else s.get O.TIME_REF_STATE) := by
  generalize hv : ({ fresh s with time := { s.time with ramping := false } } : State) = v
  have htime : v.time = { s.time with ramping := false } := by rw [← hv]
  have hget : ∀ r, v.get r = s.get r := fun r => by rw [← hv]; rfl
  refine does_of_eq (u := if v.get O.TIME_REF_SELECT = 1 then v.set O.TIME_REF_STATE 1 else v) exec_timeRefRampDone h
    ((if_pos hr).trans (by rw [← hv])) ?_
  rw [hget]
  split
  · exact ⟨htime, State.get_set_same ..⟩
  · exact ⟨htime, hget _⟩

end

/-! ### The PPS input (R272) -/

/-- Parts of one length stand one after the other. -/
theorem take_drop_flatMap_range {α : Type} {f : Nat → List α} {m : Nat} (hf : ∀ i, (f i).length = m) (n : Nat)
    (rest : List α) {k : Nat} (hk : k < n) : (((List.range n).flatMap f ++ rest).drop (m * k)).take m = f k := by
  induction n generalizing rest with
  | zero => exact absurd hk (Nat.not_lt_zero k)
  | succ n ih =>
    rw [List.range_succ, List.flatMap_append, List.append_assoc]
    rcases Nat.lt_succ_iff_lt_or_eq.1 hk with hlt | rfl
    · exact ih _ hlt
    · have hlen : ((List.range k).flatMap f).length = m * k := by
        simp [List.length_flatMap, hf, Nat.mul_comm]
      rw [List.drop_left' hlen]
      simp [hf]

/-- The bytes of PPS_IN_CAPTURE: the bases, the device clock, the count, reserved. -/
def captureBytes (s : State) (dc count : Nat) : List Byte :=
  (List.range 8).flatMap (fun n => leBytes 12 (s.ppsCapture n)) ++ leBytes 8 dc ++ leBytes 4 count ++ zeros 4

theorem length_captureBytes (s : State) (dc count : Nat) : (captureBytes s dc count).length = 112 := by
  simp [captureBytes, List.length_flatMap, length_leBytes, zeros]

theorem slot_captureBytes (s : State) (dc count : Nat) (k : TimeBase) :
    (((captureBytes s dc count).map bn).drop (12 * k)).take 12 = (leBytes 12 (s.ppsCapture k)).map bn := by
  rw [← List.map_drop, ← List.map_take, captureBytes, List.append_assoc, List.append_assoc,
    take_drop_flatMap_range (fun _ => length_leBytes 12 _) 8 _ k.isLt]

/-- Only the steps that wait change. -/
def SameButSteps (s t : State) : Prop := t = { s with time := { s.time with steps := t.time.steps } }

namespace SameButSteps

theorem refl (s : State) : SameButSteps s s := rfl

variable {s t : State} (h : SameButSteps s t)
include h

theorem get (r : Ref) (e : Nat) : t.get r e = s.get r e := by rw [h]; rfl
theorem base (k : Nat) : t.base k = s.base k := by rw [h]; rfl
theorem irq : t.irq = s.irq := by rw [h]
theorem ppsCapture (k : Nat) : t.ppsCapture k = s.ppsCapture k := by rw [h]; rfl

theorem askStep {n : Nat} {o : Int} {edge : Bool} : SameButSteps s (t.askStep n o edge) := by
  unfold SameButSteps
  conv_lhs => rw [State.askStep, h]
  rfl

end SameButSteps

/-- What an edge does to one base. -/
def State.alignBase (s : State) (n : Nat) : State :=
  if s.get (O.TB_STATE n) = TbState.armed ∧ s.flag (O.PPS_ALIGN n) = true ∧
      (s.time.steps.any fun x => x.base == n && !x.edge) = false then
    s.askStep n (((timeUnits (s.ppsCapture n) + secondU / 2) / secondU * secondU : Nat) -
      (timeUnits (s.ppsCapture n) : Int)) true
  else s

theorem State.ppsAlign_eq (s : State) : s.ppsAlign = s.each (List.range 8) State.alignBase := rfl

theorem SameButSteps.alignBase {s t : State} (h : SameButSteps s t) (n : Nat) : SameButSteps s (t.alignBase n) := by
  unfold State.alignBase
  split
  · exact h.askStep
  · exact h

theorem State.ppsAlign_sameButSteps (s : State) : SameButSteps s s.ppsAlign :=
  State.each_keeps (SameButSteps s) _ State.alignBase (fun _ n _ h => h.alignBase n) s (.refl s)

/-- No command asks for a step of base `k`. -/
def State.Unasked (s : State) (k : Nat) : Prop := ∀ y ∈ s.time.steps, y.base = k → y.edge = true

theorem State.any_asked {s : State} {n : Nat} :
    (s.time.steps.any fun x => x.base == n && !x.edge) = false ↔ s.Unasked n := by
  simp [State.Unasked]

/-- An edge's step takes no command's place. -/
theorem State.steps_alignBase {s : State} {n : Nat} {y : PendStep} (hy : y ∈ (s.alignBase n).time.steps) :
    y ∈ s.time.steps ∨ y.edge = true := by
  unfold State.alignBase at hy
  split at hy
  · rename_i h
    rw [State.askStep_eq _ _ (State.any_asked.1 h.2.2)] at hy
    rcases List.mem_append.1 hy with hy | hy
    · exact .inl (List.mem_of_mem_filter hy)
    · exact .inr (by rw [List.mem_singleton.1 hy])
  · exact .inl hy

/-- The step an edge asks of base `k` of state `s`. -/
def State.edgeStep (s : State) (k : Nat) : PendStep :=
  ⟨k, (((timeUnits (s.ppsCapture k) + secondU / 2) / secondU * secondU : Nat) : Int) - timeUnits (s.ppsCapture k), true⟩

theorem State.steps_alignBase_self {s : State} {k : Nat} (ha : s.get (O.TB_STATE k) = TbState.armed)
    (hp : s.flag (O.PPS_ALIGN k) = true) (hn : s.Unasked k) : s.edgeStep k ∈ (s.alignBase k).time.steps := by
  rw [State.alignBase, if_pos ⟨ha, hp, State.any_asked.2 hn⟩, State.askStep_eq _ _ hn]
  exact List.mem_append_right _ (List.mem_singleton.2 rfl)

theorem State.steps_alignBase_other {s : State} {k n : Nat} (hk : k ≠ n) {y : PendStep} (hy : y ∈ s.time.steps)
    (hyk : y.base = k) : y ∈ (s.alignBase n).time.steps := by
  unfold State.alignBase
  split
  · rename_i h
    rw [State.askStep_eq _ _ (State.any_asked.1 h.2.2)]
    exact List.mem_append_left _ (List.mem_filter.2 ⟨hy, by simp [hyk, hk]⟩)
  · exact hy

/-- An ARMED base that aligns, and that no command steps, waits for the step to its nearest second. -/
theorem State.ppsAlign_asks {s : State} {k : TimeBase} (ha : s.get (O.TB_STATE k) = TbState.armed)
    (hp : s.flag (O.PPS_ALIGN k) = true) (hn : s.Unasked k) : s.edgeStep k ∈ s.ppsAlign.time.steps := by
  have hself : ∀ t, SameButSteps s t ∧ t.Unasked k → s.edgeStep k ∈ (t.alignBase k).time.steps :=
      fun t ⟨hsame, hun⟩ => by
    have hedge : s.edgeStep k = t.edgeStep k := by simp only [State.edgeStep, hsame.ppsCapture]
    rw [hedge]
    exact State.steps_alignBase_self ((hsame.get _ _).trans ha) ((congrArg (· != 0) (hsame.get _ _)).trans hp) hun
  have hkeep : ∀ t n, n ∈ List.range 8 → SameButSteps s t ∧ t.Unasked k →
      SameButSteps s (t.alignBase n) ∧ (t.alignBase n).Unasked k := fun t n _ ⟨hsame, hun⟩ =>
    ⟨hsame.alignBase n, fun y hy hyk => (State.steps_alignBase hy).elim (fun hy => hun y hy hyk) id⟩
  rw [State.ppsAlign_eq]
  refine (State.each_establishes (P := fun t => SameButSteps s t ∧ t.Unasked k)
    (Q := fun t => (SameButSteps s t ∧ t.Unasked k) ∧ s.edgeStep k ∈ t.time.steps) (List.mem_range.2 k.isLt) hkeep
    (fun t ht => ⟨hkeep t k (List.mem_range.2 k.isLt) ht, hself t ht⟩)
    (fun t n hmem ht => ⟨hkeep t n hmem ht.1, ?_⟩) ⟨.refl s, hn⟩).2
  by_cases hkn : k.val = n
  · rw [← hkn]
    exact hself t ht.1
  · exact State.steps_alignBase_other hkn ht.2 rfl

/-- The edge is counted and its instant kept. -/
def State.ppsCaptured (s : State) : State :=
  (s.count32 O.PPS_IN_COUNT).setAll O.PPS_IN_CAPTURE ((captureBytes s
    (ofSigned 64 ((s.dc : Int) - s.geti O.PPS_IN_DELAY_NS * nsU)) (min (s.get O.PPS_IN_COUNT + 1) (2 ^ 32 - 1))).map bn)

section
variable (s : State)

theorem State.ppsCapture_count32 (n k : Nat) : (s.count32 O.PPS_IN_COUNT n).ppsCapture k = s.ppsCapture k := by
  have hdelay : (s.count32 O.PPS_IN_COUNT n).geti O.PPS_IN_DELAY_NS = s.geti O.PPS_IN_DELAY_NS := by
    rw [State.geti, State.get_count32, if_neg (by simp)]
    rfl
  rw [State.ppsCapture, hdelay]
  rfl

theorem State.ppsCaptured_writes : Writes [O.PPS_IN_COUNT, O.PPS_IN_CAPTURE] s s.ppsCaptured :=
  ((Writes.refl _ s).count32 (by simp)).setAll (by simp)

theorem State.ppsCapture_ppsCaptured (k : Nat) : s.ppsCaptured.ppsCapture k = s.ppsCapture k := by
  have hw := s.ppsCaptured_writes
  have hdelay : s.ppsCaptured.geti O.PPS_IN_DELAY_NS = s.geti O.PPS_IN_DELAY_NS :=
    congrArg (toSigned 32) (hw.objs _ _ (by simp))
  rw [State.ppsCapture, hdelay, State.tbUnits, State.tb, State.base_congr (congrArg TimeX.bases hw.time)]
  rfl

theorem State.get_ppsCaptured_count :
    s.ppsCaptured.get O.PPS_IN_COUNT = min (s.get O.PPS_IN_COUNT + 1) (2 ^ 32 - 1) := by
  rw [State.ppsCaptured, State.get_setAll_other _ _ _ _ (by simp), State.get_count32, if_pos ⟨rfl, rfl⟩]

theorem State.slot_ppsCaptured (k : TimeBase) : ((s.ppsCaptured.getAll O.PPS_IN_CAPTURE 112).drop (12 * k)).take 12 =
    (leBytes 12 (s.ppsCapture k)).map bn := by
  rw [State.ppsCaptured]
  generalize hb : captureBytes s _ _ = b
  have hall := State.getAll_setAll (s.count32 O.PPS_IN_COUNT) O.PPS_IN_CAPTURE (b.map bn)
  rw [List.length_map, ← hb, length_captureBytes] at hall
  rw [← hb, hall, slot_captureBytes]

end

section
variable {s : State} (h : Runs s)
include h

theorem exec_ppsInEdge_enabled (he : s.flag O.PPS_IN_ENABLE = true) :
    exec .ppsInEdge s = .next (ran s (((fresh s).ppsCaptured.ppsAlign).raise 0x790)) := by
  refine exec_eq_ran exec_ppsInEdge h ?_
  have hdelay : ((fresh s).count32 O.PPS_IN_COUNT).geti O.PPS_IN_DELAY_NS = s.geti O.PPS_IN_DELAY_NS := by
    rw [State.geti, State.get_count32, if_neg (by simp)]
    rfl
  have hcount : ((fresh s).count32 O.PPS_IN_COUNT).get O.PPS_IN_COUNT = min (s.get O.PPS_IN_COUNT + 1) (2 ^ 32 - 1) := by
    rw [State.get_count32, if_pos ⟨rfl, rfl⟩]
    rfl
  have hflag : (fresh s).flag O.PPS_IN_ENABLE = true := he
  simp only [hflag, Bool.not_true, Bool.false_eq_true, if_false, State.ppsCapture_count32, hdelay, hcount]
  rfl

theorem ppsInEdge_captures (he : s.flag O.PPS_IN_ENABLE = true) :
    Does .ppsInEdge s fun u => u.get O.PPS_IN_COUNT = min (s.get O.PPS_IN_COUNT + 1) (2 ^ 32 - 1) ∧
        u.irq.doorbells = s.irq.doorbells ++ [0x790] ∧
        (∀ k : TimeBase, ((u.getAll O.PPS_IN_CAPTURE 112).drop (12 * k)).take 12 =
          (leBytes 12 (s.ppsCapture k)).map bn) ∧
        (∀ k : TimeBase, u.base k = s.base k ∧ u.get (O.TB_STATE k) = s.get (O.TB_STATE k)) ∧
        ∀ (k : TimeBase) x, s.get (O.TB_STATE k) = TbState.armed → s.flag (O.PPS_ALIGN k) = true →
          (∀ y ∈ s.time.steps, y.base = k.val → y.edge = true) → x = timeUnits (s.ppsCapture k) →
          ⟨k, ((x + secondU / 2) / secondU * secondU : Nat) - (x : Int), true⟩ ∈ u.time.steps ∧
          u.stepsDue.get (O.TB_STATE k) = TbState.tracking := by
  have hexec := exec_ppsInEdge_enabled h he
  have hw := (fresh s).ppsCaptured_writes
  have hcount := (fresh s).get_ppsCaptured_count
  have hslot := (fresh s).slot_ppsCaptured
  have hcapture := (fresh s).ppsCapture_ppsCaptured
  generalize (fresh s).ppsCaptured = c at hexec hw hcount hslot hcapture
  have hsame := c.ppsAlign_sameButSteps
  have halign := fun k => c.ppsAlign_asks (k := k)
  generalize c.ppsAlign = w at hexec hsame halign
  have hget : ∀ r e, (ran s (w.raise 0x790)).get r e = c.get r e := hsame.get
  have hobj : ∀ k : TimeBase, c.get (O.TB_STATE k) = s.get (O.TB_STATE k) ∧
      c.get (O.PPS_ALIGN k) = s.get (O.PPS_ALIGN k) := fun k => ⟨hw.objs _ _ (by simp), hw.objs _ _ (by simp)⟩
  refine ⟨_, hexec, (hget _ _).trans hcount, ?_, fun k => ?_, fun k => ⟨?_, (hget _ _).trans (hobj k).1⟩, ?_⟩
  · have hirq : w.irq = s.irq := hsame.irq.trans (by obtain ⟨_, _, heq⟩ := hw.rest; rw [heq])
    exact congrArg (·.doorbells ++ [0x790]) hirq
  · have hall : (ran s (w.raise 0x790)).getAll O.PPS_IN_CAPTURE 112 = c.getAll O.PPS_IN_CAPTURE 112 := by
      simp only [State.getAll, hget]
    rw [hall]
    exact hslot k
  · exact (hsame.base k).trans (State.base_congr (congrArg TimeX.bases hw.time) k)
  · rintro k _ ha hp hn rfl
    have hunasked : c.Unasked k := by
      unfold State.Unasked
      rw [hw.time]
      exact hn
    have hmem := halign k ((hobj k).1.trans ha) ((congrArg (· != 0) (hobj k).2).trans hp) hunasked
    have hedge : c.edgeStep k = s.edgeStep k := by
      simp only [State.edgeStep, hcapture]
      rfl
    rw [hedge] at hmem
    exact ⟨hmem, State.get_stepsDue_state (ran s (w.raise 0x790)) hmem rfl⟩

theorem ppsInEdge_disabled (he : s.flag O.PPS_IN_ENABLE = false) : exec .ppsInEdge s = .next (fresh s) :=
  exec_eq_fresh exec_ppsInEdge h (if_pos (by rw [show (fresh s).flag O.PPS_IN_ENABLE = false from he]; rfl))

end

end Sys2Proof.Machine
end

section
/-!
The loss of the PPS input, the PPS outputs and the servos (R272-R275), and the statement on the time reference, PPS and
servos.
-/
namespace Sys2Proof.Machine

/-! ### The loss of the PPS input (R272, R275) -/

section
variable (s : State) (n st : Nat)

/-- A move writes the servo's state, and reports where the servo leaves LOCKED. -/
theorem State.servoTo_cases : s.servoTo n st = s.set (O.SERVO_STATE n) st ∨
    ∃ d, s.servoTo n st = (s.set (O.SERVO_STATE n) st).report (0x7C0 + n) (unitId 12 n) d := by
  unfold State.servoTo
  dsimp only
  split
  · exact .inr ⟨_, rfl⟩
  · exact .inl rfl

@[simp] theorem State.sys_servoTo : (s.servoTo n st).sys = s.sys := by
  rcases s.servoTo_cases n st with h | ⟨d, h⟩ <;> rw [h] <;> rfl

@[simp] theorem State.time_servoTo : (s.servoTo n st).time = s.time := by
  rcases s.servoTo_cases n st with h | ⟨d, h⟩ <;> rw [h] <;> rfl

theorem State.get_servoTo (r : Ref) (e : Nat) :
    (s.servoTo n st).get r e = if r = O.SERVO_STATE n ∧ e = 0 then st else s.get r e := by
  rcases s.servoTo_cases n st with h | ⟨d, h⟩ <;> rw [h]
  · rw [State.get_set]
  · rw [State.get_report, State.get_set]

theorem State.reports_servoTo : s.faults.reports <+: (s.servoTo n st).faults.reports := by
  rcases s.servoTo_cases n st with h | ⟨d, h⟩ <;> rw [h]
  · exact List.prefix_rfl
  · exact List.prefix_append ..

end

/-- A servo of the firmware that the PPS input drives. -/
def State.followsInput (s : State) (n : Nat) : Prop :=
  s.get (O.SERVO_OWNER n) = 1 ∧ s.get (O.SERVO_MODE n) = 1 ∧ s.get (O.SERVO_STATE n) ≠ Servo.refused

/-- What the loss does to one servo. -/
def State.holdServo (s : State) (n : Nat) : State :=
  if s.fwUp = true ∧ s.get (O.SERVO_OWNER n) = 1 ∧ s.get (O.SERVO_MODE n) = 1 ∧
      s.get (O.SERVO_STATE n) ≠ Servo.refused then s.servoTo n Servo.holdover
  else s

section
variable {s : State} {n k : Nat}

theorem State.fwUp_holdServo : (s.holdServo n).fwUp = s.fwUp := by
  unfold State.holdServo
  split
  · rw [State.fwUp, State.sys_servoTo]; rfl
  · rfl

theorem State.followsInput_holdServo (h : s.followsInput k) : (s.holdServo n).followsInput k := by
  obtain ⟨howner, hmode, hstate⟩ := h
  unfold State.holdServo
  split
  · refine ⟨?_, ?_, ?_⟩
    · rw [State.get_servoTo, if_neg (by simp), howner]
    · rw [State.get_servoTo, if_neg (by simp), hmode]
    · rw [State.get_servoTo]
      split
      · decide
      · exact hstate
  · exact ⟨howner, hmode, hstate⟩

theorem State.get_holdServo_self (hf : s.fwUp = true) (h : s.followsInput n) :
    (s.holdServo n).get (O.SERVO_STATE n) = Servo.holdover := by
  rw [State.holdServo, if_pos ⟨hf, h⟩, State.get_servoTo, if_pos ⟨rfl, rfl⟩]

theorem State.get_holdServo_held (h : s.get (O.SERVO_STATE k) = Servo.holdover) :
    (s.holdServo n).get (O.SERVO_STATE k) = Servo.holdover := by
  unfold State.holdServo
  split
  · rw [State.get_servoTo, h, ite_self]
  · exact h

end

/-- With the firmware up every servo that follows the input goes to HOLDOVER. -/
theorem State.holdServos_holds {s : State} {k : TimeBase} (hf : s.fwUp = true) (h : s.followsInput k) :
    (s.each (List.range 8) State.holdServo).get (O.SERVO_STATE k) = Servo.holdover := by
  refine State.each_establishes (f := State.holdServo) (P := fun t => t.fwUp = true ∧ t.followsInput k)
    (Q := fun t => t.get (O.SERVO_STATE k) = Servo.holdover) (List.mem_range.2 k.isLt) (fun t n _ ht => ?_)
    (fun t ht => ?_) (fun t n _ ht => ?_) ⟨hf, h⟩
  · exact ⟨State.fwUp_holdServo.trans ht.1, State.followsInput_holdServo ht.2⟩
  · exact State.get_holdServo_self ht.1 ht.2
  · exact State.get_holdServo_held ht

theorem State.holdServos_reports (s : State) :
    s.faults.reports <+: (s.each (List.range 8) State.holdServo).faults.reports :=
  State.each_keeps (fun t => s.faults.reports <+: t.faults.reports) _ _ (fun t n _ ht => by
    unfold State.holdServo
    split
    · exact ht.trans (t.reports_servoTo n _)
    · exact ht) s List.prefix_rfl

theorem ppsInLoss_holds {s : State} (h : Runs s) : Does .ppsInLoss s fun u => (s.fwUp = true →
      ∀ k : TimeBase, s.get (O.SERVO_OWNER k) = 1 → s.get (O.SERVO_MODE k) = 1 →
        s.get (O.SERVO_STATE k) ≠ Servo.refused → u.get (O.SERVO_STATE k) = Servo.holdover) ∧
      (s.flag O.PPS_IN_ENABLE = true →
        (⟨0x791, unitId 11 0, unitId 11 0, zeros 20, false⟩ : Report) ∈ u.faults.reports) := by
  generalize hv : (if (fresh s).flag O.PPS_IN_ENABLE then (fresh s).report 0x791 (unitId 11 0) (zeros 20)
    else fresh s) = v
  have hfw : v.fwUp = s.fwUp := by rw [← hv]; split <;> rfl
  have hget : ∀ r e, v.get r e = s.get r e := fun r e => by rw [← hv]; split <;> rfl
  refine does_of_eq (u := v.each (List.range 8) State.holdServo) exec_ppsInLoss h (by rw [← hv]; rfl)
    ⟨fun hf k howner hmode hstate => (ran_get ..).trans (State.holdServos_holds (hfw.trans hf) ?_), fun he => ?_⟩
  · simp only [State.followsInput, hget]
    exact ⟨howner, hmode, hstate⟩
  · rw [ran_faults]
    refine v.holdServos_reports.subset ?_
    rw [← hv, if_pos (show (fresh s).flag O.PPS_IN_ENABLE = true from he)]
    exact List.mem_append_right _ (List.mem_singleton.2 rfl)

/-! ### PPS outputs (R273) -/

theorem State.ppsHigh_ppsRise (s : State) (n edge : Nat) : (s.ppsRise n edge).ppsHigh? n = some edge := by
  have hnone : (s.time.ppsHigh.filter (·.1 != n)).find? (·.1 == n) = none :=
    List.find?_eq_none.2 fun x hx => by simpa using (List.mem_filter.1 hx).2
  show (((s.time.ppsHigh.filter (·.1 != n)) ++ [(n, edge)]).find? (·.1 == n)).map (·.2) = some edge
  rw [List.find?_append, hnone]
  simp

theorem State.ppsHigh_ppsFall (s : State) (n : Nat) : (s.ppsFall n).ppsHigh? n = none := by
  simp [State.ppsHigh?, State.ppsFall, State.emit]

section
variable {s : State} {n : TimeBase} (h : Runs s)
include h

theorem ppsOutEdge_rises (he : s.flag (O.PPS_OUT_ENABLE n) = true) (hr : s.ppsPast n < s.time.ran.getD n 0)
    (hn : s.ppsHigh? n = none) : Does (.ppsOutEdge n) s fun u => u.out = [.pps n true] ∧
      u.ppsHigh? n = some (s.tbUnits n - s.ppsPast n) ∧ u.dict = s.dict := by
  have hlow : ((fresh s).ppsHigh? n).isNone = true := Option.isNone_iff_eq_none.2 hn
  exact does_of_eq exec_ppsOutEdge h (if_pos ⟨he, hr, hlow⟩)
    ⟨rfl, (fresh s).ppsHigh_ppsRise n (s.tbUnits n - s.ppsPast n), rfl⟩

theorem ppsOutEdge_idle (hr : s.flag (O.PPS_OUT_ENABLE n) = false ∨ s.time.ran.getD n 0 ≤ s.ppsPast n) :
    exec (.ppsOutEdge n) s = .next (fresh s) :=
  exec_eq_fresh exec_ppsOutEdge h (if_neg fun ⟨he, hlt, _⟩ => hr.elim (ne_false_of_eq_true he) hlt.not_ge)

variable {e : Nat} (he : s.ppsHigh? n = some e)
include he

theorem ppsOutPulseEnd_falls (hw : e + s.get (O.PPS_OUT_WIDTH_NS n) * nsU ≤ s.tbUnits n) :
    Does (.ppsOutPulseEnd n) s fun u => u.out = [.pps n false] ∧ u.ppsHigh? n = none ∧ u.dict = s.dict := by
  refine does_of_eq (u := (fresh s).ppsFall n) exec_ppsOutPulseEnd h ?_ ⟨rfl, (fresh s).ppsHigh_ppsFall n, rfl⟩
  simp only [show (fresh s).ppsHigh? n = some e from he]
  exact if_pos hw

theorem ppsOutPulseEnd_early (hw : s.tbUnits n < e + s.get (O.PPS_OUT_WIDTH_NS n) * nsU) :
    exec (.ppsOutPulseEnd n) s = .next (fresh s) := by
  refine exec_eq_fresh exec_ppsOutPulseEnd h ?_
  simp only [show (fresh s).ppsHigh? n = some e from he]
  exact if_neg hw.not_ge

end

/-! ### Servos (R274, R275) -/

theorem State.servo_putServo (s : State) (n : TimeBase) (x : Servo) : (s.putServo n x).servo n = x := by
  show (slots 8 s.servo n x).getD n Servo.reset = x
  rw [getD_slots, if_pos n.isLt, if_pos rfl]

theorem State.servo_congr {s t : State} (h : t.time = s.time) (n : Nat) : t.servo n = s.servo n := by
  rw [State.servo, State.servo, h]

/-- The count of measurements moves neither the integral nor a base, and writes the servo's state alone. -/
structure CountsServo (n : TimeBase) (s t : State) : Prop where
  integ : (t.servo n).integ = (s.servo n).integ
  bases : t.time.bases = s.time.bases
  objs : ∀ r e, r ≠ O.SERVO_STATE n → t.get r e = s.get r e

namespace CountsServo

variable {n : TimeBase} {s t : State}

theorem servoTo (h : CountsServo n s t) (st : Nat) : CountsServo n s (t.servoTo n st) where
  integ := by rw [State.servo_congr (t.time_servoTo n st), h.integ]
  bases := by rw [State.time_servoTo, h.bases]
  objs r e hr := by rw [State.get_servoTo, if_neg fun hc => hr hc.1, h.objs r e hr]

theorem putServo {x : Servo} (hx : x.integ = (s.servo n).integ) : CountsServo n s (s.putServo n x) where
  integ := by rw [State.servo_putServo, hx]
  bases := rfl
  objs _ _ _ := rfl

end CountsServo

theorem State.servoCount_counts (s : State) (n : TimeBase) (o : Int) : CountsServo n s (s.servoCount n o) := by
  unfold State.servoCount
  extract_lets x inside t st
  have ht : CountsServo n s t := CountsServo.putServo rfl
  split
  · split
    · exact ht.servoTo _
    · exact ht
  · split
    · exact ht.servoTo _
    · exact ht.servoTo _

/-- The objects and the servo of a measurement, before its correction: offset, rate where it lies in range, integral. -/
def State.measured (s : State) (n : Nat) (o rate : Int) : State :=
  let v := s.set (O.SERVO_OFFSET n) (ofSigned 32 o)
  let v := if -549755813 ≤ rate ∧ rate ≤ 549755813 then v.set (O.TB_RATE n) (ofSigned 32 rate) else v
  v.putServo n { s.servo n with
    integ := (s.servo n).integ + s.get (O.SERVO_KI n) * o, seen := s.get O.PPS_IN_COUNT }

section
variable (s : State) (n : TimeBase) (o rate : Int)

theorem State.get_measured (r : Ref) : (s.measured n o rate).get r =
    if r = O.TB_RATE n ∧ -549755813 ≤ rate ∧ rate ≤ 549755813 then ofSigned 32 rate
    else if r = O.SERVO_OFFSET n then ofSigned 32 o else s.get r := by
  have hput : ∀ (v : State) x, (v.putServo n x).get r = v.get r := fun _ _ => rfl
  rw [State.measured, hput]
  by_cases hrate : -549755813 ≤ rate ∧ rate ≤ 549755813
  · rw [if_pos hrate, State.get_set, State.get_set]
    simp [hrate]
  · rw [if_neg hrate, State.get_set, if_neg (c := _ ∧ _) fun hc => hrate hc.2]
    simp

theorem State.base_measured (k : Nat) : (s.measured n o rate).base k = s.base k := by
  refine State.base_congr ?_ k
  unfold State.measured
  dsimp only
  split <;> rfl

theorem State.servo_measured : (s.measured n o rate).servo n = { s.servo n with
    integ := (s.servo n).integ + s.get (O.SERVO_KI n) * o, seen := s.get O.PPS_IN_COUNT } := State.servo_putServo ..

/-- A measurement writes its offset and rate, corrects the base, and counts or is REFUSED. -/
theorem State.servoMeasure_eq (ho : o = s.servoOffset n)
    (hrate : rate = (s.servo n).integ + s.get (O.SERVO_KP n) * o) : s.servoMeasure n =
      (if ((s.measured n o rate).adjust n (o * nsU)).1 = Err.ok
        then ((s.measured n o rate).adjust n (o * nsU)).2.servoCount n o
        else ((s.measured n o rate).adjust n (o * nsU)).2.servoTo n Servo.refused) := by
  subst ho
  have hother : ∀ (w : Int) (r : Ref), r ≠ O.SERVO_OFFSET n → r ≠ O.TB_RATE n →
      (s.set (O.SERVO_OFFSET n) (ofSigned 32 (s.servoOffset n))).get r = s.get r ∧
      (if -549755813 ≤ w ∧ w ≤ 549755813 then (s.set (O.SERVO_OFFSET n) (ofSigned 32 (s.servoOffset n))).set
        (O.TB_RATE n) (ofSigned 32 w) else s.set (O.SERVO_OFFSET n) (ofSigned 32 (s.servoOffset n))).get r = s.get r :=
    fun w r hoff hrt => by
      have hset := State.get_set_other s (ofSigned 32 (s.servoOffset n)) 0 0 (.inl hoff)
      refine ⟨hset, ?_⟩
      split
      · rw [State.get_set_other _ _ _ _ (.inl hrt), hset]
      · exact hset
  have hkp := (hother rate (O.SERVO_KP n) (by simp) (by simp)).1
  unfold State.servoMeasure
  simp only [hkp, ← hrate, (hother rate (O.SERVO_KI n) (by simp) (by simp)).2,
    (hother rate O.PPS_IN_COUNT (by simp) (by simp)).2]
  rfl

end

section
variable {s : State} {n : TimeBase} (h : Runs s)
include h

theorem servoMeasure_idle (hr : s.servoReady n = false) : exec (.servoMeasure n) s = .next (fresh s) :=
  exec_eq_fresh exec_servoMeasure h (if_pos (by rw [show (fresh s).servoReady n = false from hr]; rfl))

variable (hr : s.servoReady n = true)
include hr

theorem servoMeasure_holds (hm : s.get (O.SERVO_MODE n) = 2)
    (hs : s.get (O.TB_STATE (s.get (O.SERVO_SOURCE n))) = TbState.held) :
    exec (.servoMeasure n) s = .next (ran s ((fresh s).servoTo n Servo.holdover)) := by
  refine exec_eq_ran exec_servoMeasure h ?_
  have hready : (fresh s).servoReady n = true := hr
  simp only [hready, Bool.not_true, Bool.false_eq_true, if_false]
  exact if_pos ⟨hm, hs⟩

variable {o rate : Int}

theorem servoMeasure_corrects (hm : ¬ (s.get (O.SERVO_MODE n) = 2 ∧
        s.get (O.TB_STATE (s.get (O.SERVO_SOURCE n))) = TbState.held)) (ho : o = s.servoOffset n)
    (hrate : rate = (s.servo n).integ + s.get (O.SERVO_KP n) * o) (hs : s.get (O.TB_STATE n) = TbState.tracking)
    (hlo : -((s.get (O.JUMP_THRESHOLD_NS n) * 2 ^ 48 * 5 : Nat) : Int) ≤ o * nsU * slewPerUnit + (s.base n).slew)
    (hhi : o * nsU * slewPerUnit + (s.base n).slew ≤ ((s.get (O.JUMP_THRESHOLD_NS n) * 2 ^ 48 * 5 : Nat) : Int)) :
    Does (.servoMeasure n) s fun u => u.get (O.SERVO_OFFSET n) = ofSigned 32 o ∧
        u.get (O.TB_RATE n) = (if -549755813 ≤ rate ∧ rate ≤ 549755813 then ofSigned 32 rate else s.get (O.TB_RATE n)) ∧
        (u.servo n).integ = (s.servo n).integ + s.get (O.SERVO_KI n) * o ∧
        u.base n = { s.base n with slew := o * nsU * slewPerUnit + (s.base n).slew } := by
  have hget := (fresh s).get_measured n o rate
  have hbase := (fresh s).base_measured n o rate n
  have hservo := (fresh s).servo_measured n o rate
  have heq := (fresh s).servoMeasure_eq n o rate ho hrate
  generalize (fresh s).measured n o rate = v at hget hbase hservo heq
  have hjump : v.get (O.JUMP_THRESHOLD_NS n) = s.get (O.JUMP_THRESHOLD_NS n) := by simp [hget]
  have hsum : v.slewSum n (o * nsU) = o * nsU * slewPerUnit + (s.base n).slew := by rw [State.slewSum, hbase]; rfl
  have hadj := State.adjust_slews (s := v) (n := n) (o := o * nsU) (by simpa [hget] using hs)
    (by rw [hsum, State.jumpLimit, hjump]; exact hlo) (by rw [hsum, State.jumpLimit, hjump]; exact hhi)
  rw [hadj, if_pos rfl, hsum] at heq
  generalize hw : (v.putBase n { v.base n with slew := o * nsU * slewPerUnit + (s.base n).slew }).count64
    (O.TB_COUNTS n 12) = w at heq
  have hcounts := w.servoCount_counts n o
  have hwget : ∀ r, r ≠ O.TB_COUNTS n 12 → w.get r = v.get r := fun r hr' => by
    rw [← hw, State.get_count64_other _ _ (.inl hr')]; rfl
  refine does_of_eq (u := w.servoCount n o) exec_servoMeasure h ?_ ⟨?_, ?_, ?_, ?_⟩
  · have hready : (fresh s).servoReady n = true := hr
    simp only [hready, Bool.not_true, Bool.false_eq_true, if_false]
    exact (if_neg hm).trans heq
  · rw [ran_get, hcounts.objs _ _ (by simp), hwget _ (by simp), hget]
    simp
  · rw [ran_get, hcounts.objs _ _ (by simp), hwget _ (by simp), hget]
    simp
  · refine hcounts.integ.trans ?_
    have hwservo : w.servo n = v.servo n := by rw [← hw]; rfl
    rw [hwservo, hservo]
    rfl
  · refine (State.base_congr hcounts.bases n).trans ?_
    have hwbase : w.time.bases = (v.putBase n { v.base n with
      slew := o * nsU * slewPerUnit + (s.base n).slew }).time.bases := by rw [← hw]; rfl
    rw [State.base_congr hwbase n, State.base_putBase v n.isLt, hbase]
    rfl

end

end Sys2Proof.Machine

open Sys2Proof Sys2Proof.Machine

/-- Settles O43: the reference and the PPS output by their objects and pins, an edge by what it captures and asks of each
base, a loss by the servos it holds, a measurement by the offset it gives its base. -/
theorem timeReferencePpsAndServos : Obligations.TimeReferencePpsAndServos := by
  intro s n err h
  exact ⟨timeRefLoss_shows h, timeRefRecover_shows h, timeRefRampDone_ends h, ppsInEdge_captures h,
    ppsInEdge_disabled h, ppsInLoss_holds h, ppsOutEdge_rises h, ppsOutEdge_idle h,
    fun e he => ⟨ppsOutPulseEnd_falls h he, ppsOutPulseEnd_early h he⟩, servoMeasure_holds h,
    fun o rate hr => servoMeasure_corrects h hr, servoMeasure_idle h⟩

end
